-- ==== Sys2Proof/Word.lean ====
section
/-! DEFINITION. The word types of the KH1216 and the operand types of its commands. -/

namespace Sys2Proof

/-- One byte of memory. -/
abbrev Byte := BitVec 8

/-- One 64-bit register (R27). -/
abbrev Word := BitVec 64

/-- A logical core LC0 to LC215. -/
abbrev Lc := Fin 216

/-- A compute die CD0 to CD11. -/
abbrev Die := Fin 12

/-- A partition identifier (R391). -/
abbrev Pid := Fin 128

/-- Who sends a register access or a command (R25, R38). -/
inductive Requester where
  /-- The service host, through BAR0 or a row of its own (reach H). -/
  | host
  /-- A logical core at its present privilege level (reach M or T). -/
  | core (lc : Lc)
  /-- The steward acting by itself. -/
  | steward
  /-- The guest die on guest port n (reach G). -/
  | guest (n : Fin 2)
  /-- Any other agent of R221; no page grants it access. -/
  | agent (n : Nat)
  deriving DecidableEq, Repr

/-- The width of a register read (R27). -/
inductive ReadWidth where
  /-- All 64 bits. -/
  | quad
  /-- Bits 31:0. -/
  | low
  /-- Bits 63:32. -/
  | high
  deriving DecidableEq, Repr

/-- A bus request of the service host to BAR0 or BAR2. -/
inductive BusOp where
  /-- Read of `n` bytes. -/
  | read (n : Nat)
  /-- Write of the bytes, lowest address first. -/
  | write (bytes : List Byte)
  deriving DecidableEq, Repr

/-- What the front end delivers for one Pelmund instruction: the bytes from IP upward (as the unit's L1I
holds them, R189), and after how many elements something outside stops a restartable instruction (R99). -/
structure Fetch where
  code : List Byte
  stop : Option Nat
  deriving DecidableEq, Repr

/-- What the code of a directory entry shows when it is read (R229). -/
inductive DirCode where
  | clean
  | corrected
  | uncorrectable
  deriving DecidableEq, Repr

/-- What every message carries (R231): `line` is PA[51:6], `urg` its urgency (R264); `readable` tells that its PID can be
read (R249). -/
structure MsgHead where
  line : Nat
  pid : Pid
  txid : Fin 1024
  urg : Fin 16
  readable : Bool
  deriving DecidableEq, Repr

/-- A coherence request as it arrives at its home (R231); `code` is what the code of the line's directory entry shows. -/
structure CohReq extends MsgHead where
  src : Fin 64
  code : DirCode
  deriving DecidableEq, Repr

/-- The operation of an IoWr (R233). -/
inductive IoOp where
  | write
  | cas
  | add
  | sub
  | and
  | or
  | xor
  | andn
  deriving DecidableEq, Repr

/-- A disturbance of a stored line's cells: the symbol (0 to 71) and the bits that flip in it (R315). -/
abbrev Disturb := List (Fin 72 × Byte)

/-- A page address: the die code and the block number of R22. -/
structure PageId where
  die : Fin 16
  block : Fin 4096
  deriving DecidableEq, Repr

/-- A sensor of "Telemetry" (R521 to R523) or of the phase measurement (R65). -/
inductive Sensor where
  /-- Junction of cluster k of a die, quarter degrees. -/
  | cluster (d : Die) (k : Fin 4)
  /-- Hottest point of a die, quarter degrees. -/
  | dieHot (d : Die)
  /-- Hub junction of quadrant q, quarter degrees. -/
  | hub (q : Fin 4)
  /-- Stack HSk, quarter degrees. -/
  | hbm (k : Fin 8)
  /-- Ledger stack LSk, quarter degrees. -/
  | ledger (k : Fin 2)
  /-- Mean power of a die in the frame, tokens. -/
  | diePower (d : Die)
  /-- Package power of the frame, tokens. -/
  | pkgPower
  /-- VDD_CDn, millivolts. -/
  | dieVolt (d : Die)
  /-- Hub rail: 0 VDD_HUB, 1 VDD_PHY, 2 VDD_IO, 3 VDDQ_HBM, 4 VPP_HBM, 5 VDD_LDG, millivolts. -/
  | rail (r : Fin 6)
  /-- Aging monitor of unit index i of a die, ppm. -/
  | aging (d : Die) (i : Fin 20)
  deriving DecidableEq, Repr

/-- A part whose training is retried (R63, R489). -/
inductive Part where
  | chain (down : Bool)
  | mocor (d : Die)
  | hbm (k : Fin 8)
  | guest (n : Fin 2)
  | ledger (k : Fin 2)
  | pcie (n : Fin 6) (link : Fin 4)
  deriving DecidableEq, Repr

/-- A cache error as R170 lists them. -/
inductive CacheError where
  /-- L1I parity: the line is fetched again. -/
  | l1iParity
  /-- A correctable error. -/
  | corrected
  /-- Tag parity of a clean L1D line. -/
  | tagClean
  /-- Tag parity of a dirty L1D line, or an uncorrectable error in a dirty line. -/
  | dirtyLost
  /-- An uncorrectable error in a clean L2 or L3 line. -/
  | cleanLost
  deriving DecidableEq, Repr

/-- Why a link-down was detected (R287). -/
inductive DownCause where
  | clock
  | dieReset
  | lanes
  deriving DecidableEq, Repr

/-- An error that a unit itself reports (R404). -/
inductive UnitFault where
  /-- A corrected error of its L1I, TLBs, walk cache or register files. -/
  | corrected
  /-- A hard failure; `intact` tells whether its architected state can be read. -/
  | hard (intact : Bool)
  deriving DecidableEq, Repr

/-- An end of a link that carries flits (R279, R460): an end of the Mocor link of a die, or a chain port of the package. -/
inductive FlitEnd where
  | mocor (d : Die) (atHub : Bool)
  | chain (down : Bool)
  deriving DecidableEq, Repr

/-- A link that is paused and repaired (R285, R461). -/
inductive FlitLink where
  | mocor (d : Die)
  | chain (down : Bool)
  deriving DecidableEq, Repr

/-- The memory window of the service endpoint that a request hits beside BAR0 (R443, R445). -/
inductive SeWindow where
  | bar2
  | rom
  deriving DecidableEq, Repr

end Sys2Proof
end

