-- ==== Sys2Proof/Syntax.lean ====
section
/-! DEFINITION. The commands of the KH1216: one constructor per row of the spec's table of operations and events. -/

namespace Sys2Proof

/-- A command: one indivisible step of the package. -/
inductive Instr where
  /-- POWER_GOOD, R55, R546: service-island power is good and PKG_RESET_N rises; `head` is the CHAIN_HEAD strap. -/
  | powerGood (head : Bool)
  /-- PKG_RESET, R554: PKG_RESET_N falls. -/
  | pkgReset
  /-- REFCLK_LOSS, R551: no REFCLK edge for 100 ns. -/
  | refclkLoss
  /-- POWER_FAIL, R357, R555: PWRFAIL_N falls. -/
  | powerFail
  /-- HOLDUP_STOP, R357 step 3. -/
  | holdupStop
  /-- FRAME_TICK, R64, R67: the tick that ends a frame; a `len` other than 800 asks for a phase correction of one reference cycle; `phase` is the phase error measured, `samples` the sensor samples of the frame. -/
  | frameTick (len : Nat) (phase : Option Int) (samples : List (Sensor × Int))
  /-- QUOTA_OVERRUN, R73. -/
  | quotaOverrun (p : PageId)
  /-- REGISTER_WRITE, R27, R39: a 64-bit write at page offset `off`. -/
  | registerWrite (who : Requester) (p : PageId) (off : Nat) (v : Word)
  /-- ERRCOUNT_READ, R36. -/
  | errcountRead (who : Requester) (p : PageId) (w : ReadWidth)
  /-- CONFQ_READ, R254. -/
  | confqRead (who : Requester) (ds : Fin 16) (w : ReadWidth)
  /-- ATTNQ_READ, R528. -/
  | attnqRead (who : Requester) (w : ReadWidth)
  /-- RSTREQ, R45. -/
  | rstreq (who : Requester) (p : PageId)
  /-- INVREQ, R176. -/
  | invreq (who : Requester) (p : PageId)
  /-- ARM, R48. -/
  | arm (who : Requester) (p : PageId)
  /-- SNAPTRIG, R49. -/
  | snaptrig (who : Requester)
  /-- SNAPARM, R52. -/
  | snaparm (who : Requester)
  /-- SNAPARM_REARM, R52. -/
  | snaparmRearm
  /-- SNAP_IN_EDGE, R49, R547. -/
  | snapInEdge
  /-- SNAPSHOT_LATCH, R51, R52: the latch edge at `off` reference cycles from the tick, which `n` more of the waiting triggers fix as well. -/
  | snapshotLatch (off n : Nat)
  /-- MODECMD_LOAD, R55, R57. -/
  | modecmdLoad (who : Requester)
  /-- MODECMD_TEST, R55, R57. -/
  | modecmdTest (who : Requester)
  /-- MODECMD_RUN, R55, R57. -/
  | modecmdRun (who : Requester)
  /-- MODECMD_DEGRADED, R55, R57. -/
  | modecmdDegraded (who : Requester)
  /-- MODECMD_DRIZZLE, R55, R57. -/
  | modecmdDrizzle (who : Requester)
  /-- MODECMD_QUIESCE, R57, R60. -/
  | modecmdQuiesce (who : Requester)
  /-- MODE_TRANSITION_COMPLETE, R55. -/
  | modeTransitionComplete
  /-- QUIESCE_DRAIN_COMPLETE, R60. -/
  | quiesceDrainComplete
  /-- DRAIN_LIMIT_EXPIRY, R60. -/
  | drainLimitExpiry
  /-- LOAD_RETRY_ATTEMPT, R63. -/
  | loadRetryAttempt (part : Part)
  /-- CORE_MAP_BUILD, R10, R491. -/
  | coreMapBuild
  /-- CORE_SPARE_HANDOVER, R404. -/
  | coreSpareHandover (reg : Fin 24)
  /-- WEAR_ROTATION, R406. -/
  | wearRotation (reg : Fin 24)
  /-- UNIT_BIST_COMPLETE, R407, R541: the MBIST outcome and the two signatures. -/
  | unitBistComplete (reg : Fin 24) (fail : Bool) (lsig msig : Word)
  /-- INTERRUPT_DELIVERY, R103. -/
  | interruptDelivery (lc : Lc)
  /-- DEVICE_WRITE_MACHINE_CHECK, R568: the error response to the posted write at `pa` has arrived. -/
  | deviceWriteMachineCheck (lc : Lc) (pa : Nat)
  /-- NOP, R125. -/
  | nop (lc : Lc) (f : Fetch)
  /-- MOV, R125. -/
  | mov (lc : Lc) (f : Fetch)
  /-- MOVZ, R125. -/
  | movz (lc : Lc) (f : Fetch)
  /-- MOVS, R125. -/
  | movs (lc : Lc) (f : Fetch)
  /-- MOVA, R125. -/
  | mova (lc : Lc) (f : Fetch)
  /-- XCHG, R125. -/
  | xchg (lc : Lc) (f : Fetch)
  /-- CLR, R125. -/
  | clr (lc : Lc) (f : Fetch)
  /-- ADD, R127. -/
  | add (lc : Lc) (f : Fetch)
  /-- SUB, R127. -/
  | sub (lc : Lc) (f : Fetch)
  /-- ADC, R127. -/
  | adc (lc : Lc) (f : Fetch)
  /-- SBB, R127. -/
  | sbb (lc : Lc) (f : Fetch)
  /-- MUL, R127. -/
  | mul (lc : Lc) (f : Fetch)
  /-- MULH, R127. -/
  | mulh (lc : Lc) (f : Fetch)
  /-- MULHU, R127. -/
  | mulhu (lc : Lc) (f : Fetch)
  /-- DIV, R129. -/
  | div (lc : Lc) (f : Fetch)
  /-- DIVU, R129. -/
  | divu (lc : Lc) (f : Fetch)
  /-- REM, R129. -/
  | rem (lc : Lc) (f : Fetch)
  /-- REMU, R129. -/
  | remu (lc : Lc) (f : Fetch)
  /-- NEG, R127. -/
  | neg (lc : Lc) (f : Fetch)
  /-- INC, R127. -/
  | inc (lc : Lc) (f : Fetch)
  /-- DEC, R127. -/
  | dec (lc : Lc) (f : Fetch)
  /-- CMP, R127. -/
  | cmp (lc : Lc) (f : Fetch)
  /-- TEST, R127. -/
  | test (lc : Lc) (f : Fetch)
  /-- AND, R127. -/
  | and (lc : Lc) (f : Fetch)
  /-- OR, R127. -/
  | or (lc : Lc) (f : Fetch)
  /-- XOR, R127. -/
  | xor (lc : Lc) (f : Fetch)
  /-- ANDN, R127. -/
  | andn (lc : Lc) (f : Fetch)
  /-- NOT, R127. -/
  | not (lc : Lc) (f : Fetch)
  /-- SHL, R130. -/
  | shl (lc : Lc) (f : Fetch)
  /-- SHR, R130. -/
  | shr (lc : Lc) (f : Fetch)
  /-- SAR, R130. -/
  | sar (lc : Lc) (f : Fetch)
  /-- ROL, R127. -/
  | rol (lc : Lc) (f : Fetch)
  /-- ROR, R127. -/
  | ror (lc : Lc) (f : Fetch)
  /-- BSWAP, R127. -/
  | bswap (lc : Lc) (f : Fetch)
  /-- POPC, R127. -/
  | popc (lc : Lc) (f : Fetch)
  /-- CLZ, R127. -/
  | clz (lc : Lc) (f : Fetch)
  /-- CTZ, R127. -/
  | ctz (lc : Lc) (f : Fetch)
  /-- DADD, R132. -/
  | dadd (lc : Lc) (f : Fetch)
  /-- DSUB, R132. -/
  | dsub (lc : Lc) (f : Fetch)
  /-- DMUL, R132. -/
  | dmul (lc : Lc) (f : Fetch)
  /-- DDIV, R132. -/
  | ddiv (lc : Lc) (f : Fetch)
  /-- DCMP, R132. -/
  | dcmp (lc : Lc) (f : Fetch)
  /-- DSHR, R133. -/
  | dshr (lc : Lc) (f : Fetch)
  /-- CVTDB, R134. -/
  | cvtdb (lc : Lc) (f : Fetch)
  /-- CVTBD, R132. -/
  | cvtbd (lc : Lc) (f : Fetch)
  /-- DMOV, R132. -/
  | dmov (lc : Lc) (f : Fetch)
  /-- EDIT, R136. -/
  | edit (lc : Lc) (f : Fetch)
  /-- FSCAN, R137. -/
  | fscan (lc : Lc) (f : Fetch)
  /-- FXLAT, R137. -/
  | fxlat (lc : Lc) (f : Fetch)
  /-- FMOVE, R138. -/
  | fmove (lc : Lc) (f : Fetch)
  /-- FFILL, R137. -/
  | ffill (lc : Lc) (f : Fetch)
  /-- FCMP, R137. -/
  | fcmp (lc : Lc) (f : Fetch)
  /-- MAC_B8, R139. -/
  | macB8 (lc : Lc) (f : Fetch)
  /-- MAC_H16, R139. -/
  | macH16 (lc : Lc) (f : Fetch)
  /-- MAC_W32, R139. -/
  | macW32 (lc : Lc) (f : Fetch)
  /-- MAC_F32, R139. -/
  | macF32 (lc : Lc) (f : Fetch)
  /-- MACLR, R141. -/
  | maclr (lc : Lc) (f : Fetch)
  /-- MARD, R141. -/
  | mard (lc : Lc) (f : Fetch)
  /-- MAWR, R141. -/
  | mawr (lc : Lc) (f : Fetch)
  /-- FADD_D, R142. -/
  | faddD (lc : Lc) (f : Fetch)
  /-- FSUB_D, R142. -/
  | fsubD (lc : Lc) (f : Fetch)
  /-- FMUL_D, R142. -/
  | fmulD (lc : Lc) (f : Fetch)
  /-- FDIV_D, R142. -/
  | fdivD (lc : Lc) (f : Fetch)
  /-- FCMP_D, R143. -/
  | fcmpD (lc : Lc) (f : Fetch)
  /-- FSQRT_D, R142. -/
  | fsqrtD (lc : Lc) (f : Fetch)
  /-- CVTDQ, R144. -/
  | cvtdq (lc : Lc) (f : Fetch)
  /-- CVTQD, R142. -/
  | cvtqd (lc : Lc) (f : Fetch)
  /-- FADD_S, R142. -/
  | faddS (lc : Lc) (f : Fetch)
  /-- FSUB_S, R142. -/
  | fsubS (lc : Lc) (f : Fetch)
  /-- FMUL_S, R142. -/
  | fmulS (lc : Lc) (f : Fetch)
  /-- FDIV_S, R142. -/
  | fdivS (lc : Lc) (f : Fetch)
  /-- FCMP_S, R143. -/
  | fcmpS (lc : Lc) (f : Fetch)
  /-- FSQRT_S, R142. -/
  | fsqrtS (lc : Lc) (f : Fetch)
  /-- CVTSQ, R144. -/
  | cvtsq (lc : Lc) (f : Fetch)
  /-- CVTQS, R142. -/
  | cvtqs (lc : Lc) (f : Fetch)
  /-- CVTSD, R142. -/
  | cvtsd (lc : Lc) (f : Fetch)
  /-- CVTDS, R142. -/
  | cvtds (lc : Lc) (f : Fetch)
  /-- CAS, R145. -/
  | cas (lc : Lc) (f : Fetch)
  /-- XADD, R145. -/
  | xadd (lc : Lc) (f : Fetch)
  /-- JMP, R147. -/
  | jmp (lc : Lc) (f : Fetch)
  /-- CALL, R147. -/
  | call (lc : Lc) (f : Fetch)
  /-- SCALL, R83. -/
  | scall (lc : Lc) (f : Fetch)
  /-- MCALL, R83. -/
  | mcall (lc : Lc) (f : Fetch)
  /-- RETX, R98. -/
  | retx (lc : Lc) (f : Fetch)
  /-- WAITF, R148. -/
  | waitf (lc : Lc) (f : Fetch)
  /-- WAITF_RESUME, R148: the target tick is reached. -/
  | waitfResume (lc : Lc)
  /-- B_CC, R147. -/
  | bCc (lc : Lc) (f : Fetch)
  /-- SET_CC, R147. -/
  | setCc (lc : Lc) (f : Fetch)
  /-- TINV, R150. -/
  | tinv (lc : Lc) (f : Fetch)
  /-- TSYNC, R151. -/
  | tsync (lc : Lc) (f : Fetch)
  /-- CINV, R153. -/
  | cinv (lc : Lc) (f : Fetch)
  /-- CWB, R153. -/
  | cwb (lc : Lc) (f : Fetch)
  /-- CFLUSH, R153. -/
  | cflush (lc : Lc) (f : Fetch)
  /-- CINVA, R153. -/
  | cinva (lc : Lc) (f : Fetch)
  /-- CWBA, R153. -/
  | cwba (lc : Lc) (f : Fetch)
  /-- CFLUSHA, R153. -/
  | cflusha (lc : Lc) (f : Fetch)
  /-- CLOCKW, R167. -/
  | clockw (lc : Lc) (f : Fetch)
  /-- CUNLOCK, R168. -/
  | cunlock (lc : Lc) (f : Fetch)
  /-- RDCR, R81. -/
  | rdcr (lc : Lc) (f : Fetch)
  /-- WRCR, R81. -/
  | wrcr (lc : Lc) (f : Fetch)
  /-- IPISEND, R105: LC `lc` writes `v` to IPISEND. -/
  | ipisend (lc : Lc) (v : Word)
  /-- RDCTR, R511. -/
  | rdctr (lc : Lc) (f : Fetch)
  /-- CACHE_DISABLE, R175. -/
  | cacheDisable (who : Requester) (p : PageId)
  /-- CACHE_DRAIN_COMPLETE, R175. -/
  | cacheDrainComplete (p : PageId)
  /-- CACHE_ENABLE, R177. -/
  | cacheEnable (who : Requester) (p : PageId)
  /-- CACHE_ERROR, R170: the way and the line in which it is found. -/
  | cacheError (p : PageId) (e : CacheError) (way : Fin 16) (line : Nat)
  /-- WAY_SWEEP_COMPLETE, R172. -/
  | waySweepComplete (p : PageId) (way : Fin 16)
  /-- RDS, R237. -/
  | rds (q : CohReq)
  /-- RDO, R237. -/
  | rdo (q : CohReq)
  /-- UPG, R237. -/
  | upg (q : CohReq)
  /-- WBD, R242. -/
  | wbd (q : CohReq)
  /-- EVC, R242. -/
  | evc (q : CohReq)
  /-- IORD, R237: `len` bytes from byte `off`; `dist` is what the read finds disturbed in the cells. -/
  | iord (q : CohReq) (off : Fin 64) (len : Nat) (dist : Disturb)
  /-- IOWR, R241, R233. -/
  | iowr (q : CohReq) (off : Fin 64) (len : Nat) (op : IoOp)
  /-- CONFLICT_QUEUE_SERVE, R234. -/
  | conflictQueueServe (line : Nat)
  /-- SNPINV, R239. -/
  | snpinv (d : Die) (h : MsgHead)
  /-- SNPSHR, R239. -/
  | snpshr (d : Die) (h : MsgHead) (fwdto : Fin 64)
  /-- SNPFWD, R239. -/
  | snpfwd (d : Die) (h : MsgHead) (fwdto : Fin 64)
  /-- CMP_MESSAGE, R238. -/
  | cmpMessage (dst : Fin 64) (h : MsgHead) (grant : Fin 4) (df : Bool)
  /-- ACK, R234, R225: a die's Ack at the home, or the home's Ack at a die. -/
  | ack (toHome : Bool) (d : Die) (h : MsgHead)
  /-- SNPRSP, R237. -/
  | snprsp (d : Die) (h : MsgHead) (resp : Fin 4)
  /-- ERR, R232. -/
  | err (dst : Fin 64) (h : MsgHead) (status : Fin 8)
  /-- DATA, R238. -/
  | data (src dst : Fin 64) (h : MsgHead) (bytes : List Byte) (dirty poison : Bool)
  /-- WBDATA, R230, R241. -/
  | wbdata (src : Fin 64) (h : MsgHead) (bytes : List Byte) (mask : Word) (dirty poison : Bool)
  /-- DIRECTORY_AUDIT, R229: the next entry of the audit. -/
  | directoryAudit (ds : Fin 16) (code : DirCode)
  /-- DCS_SWEEP_COMPLETE, R250 step 6. -/
  | dcsSweepComplete (pid : Pid)
  /-- DIRECTORY_PURGE, R247: the next set of the purge. -/
  | directoryPurge (ds : Fin 16) (d : Die)
  /-- PURGE_COMPLETE, R247. -/
  | purgeComplete (d : Die)
  /-- LAST_CORE_DRAIN, R248. -/
  | lastCoreDrain (d : Die) (pid : Pid)
  /-- DIRRD, R256. -/
  | dirrd (who : Requester) (ds : Fin 16) (set : Fin 32768) (way : Fin 16) (code : DirCode)
  /-- TRANSACTION_TIMEOUT, R266. -/
  | transactionTimeout (agent : Fin 64) (txid : Fin 1024)
  /-- LATE_MESSAGE, R267. -/
  | lateMessage (agent : Fin 64) (txid : Fin 1024)
  /-- CREDIT_CENSUS, R270: what the census of the book counted, and whether it ended in time. -/
  | creditCensus (p : PageId) (book : BitVec 16) (drift : Int) (ended : Bool)
  /-- CREDIT_REPAIR, R272. -/
  | creditRepair (p : PageId) (book : BitVec 16)
  /-- CREDIT_REPAIR_COMPLETE, R272. -/
  | creditRepairComplete (p : PageId) (book : BitVec 16)
  /-- REPAIR_LIMIT_EXPIRY, R272. -/
  | repairLimitExpiry (p : PageId) (book : BitVec 16)
  /-- MOCOR_DATA_FLIT, R281: a flit received at an end of a link. -/
  | mocorDataFlit (e : FlitEnd) (flit : BitVec 256)
  /-- IDLE, R280. -/
  | idle (e : FlitEnd) (flit : BitVec 256)
  /-- MARK, R270, R280. -/
  | mark (e : FlitEnd) (flit : BitVec 256)
  /-- HEART, R280, R287. -/
  | heart (e : FlitEnd) (flit : BitVec 256)
  /-- PAUSE, R280, R285, R461. -/
  | pause (e : FlitEnd) (flit : BitVec 256)
  /-- RESUME, R280, R285, R461. -/
  | resume (e : FlitEnd) (flit : BitVec 256)
  /-- LINK_STALL, R282: the sender that stops replaying. -/
  | linkStall (e : FlitEnd)
  /-- MARGIN_CHECK, R284, R461, R467: the receive direction's lane, its eye margin in 1/256 UI, and the one-way delay that the check of a chain link measures. -/
  | marginCheck (e : FlitEnd) (lane : Fin 68) (margin : Nat) (delay : BitVec 16)
  /-- LANE_REPAIR, R285, R461: what an isolation found at the receiver of the hub or of this package, and at the other end. -/
  | laneRepair (l : FlitLink) (near far : List (Fin 68))
  /-- PAUSE_TIMEOUT, R285, R461. -/
  | pauseTimeout (l : FlitLink)
  /-- LINK_DOWN, R287. -/
  | linkDown (d : Die) (c : DownCause)
  /-- PLL_LOSS_OF_LOCK, R289. -/
  | pllLossOfLock (d : Die) (k : Fin 6)
  /-- HUB_PLL_LOSS_OF_LOCK, R293. -/
  | hubPllLossOfLock (k : Fin 36)
  /-- DIE_WATCH_EXPIRY, R291. -/
  | dieWatchExpiry (d : Die)
  /-- UNIT_HUNG, R291: `intact` tells whether the unit's architected state can be read. -/
  | unitHung (d : Die) (i : Fin 20) (intact : Bool)
  /-- FENCE, R296. -/
  | fence (who : Requester) (d : Die)
  /-- READMIT, R296. -/
  | readmit (who : Requester) (d : Die)
  /-- READMIT_COMPLETE, R296. -/
  | readmitComplete (d : Die) (ok : Bool)
  /-- ADMIT, R296. -/
  | admitDie (who : Requester) (d : Die)
  /-- ADMIT_REBUILD, R296. -/
  | admitRebuild (d : Die)
  /-- DIE_RAIL_OFF, R419. -/
  | dieRailOff (d : Die)
  /-- AUTO_READMIT, R401. -/
  | autoReadmit (d : Die)
  /-- MRD, R308. -/
  | mrd (g : Fin 2) (hdr : BitVec 128)
  /-- MWR, R308. -/
  | mwr (g : Fin 2) (hdr : BitVec 128) (bytes : List Byte)
  /-- MATOM, R308. -/
  | matom (g : Fin 2) (hdr : BitVec 128) (bytes : List Byte)
  /-- CPL, R305. -/
  | cpl (g : Fin 2) (hdr : BitVec 128) (bytes : List Byte)
  /-- INT, R306. -/
  | int (g : Fin 2) (hdr : BitVec 128)
  /-- OGP_ERR, R303. -/
  | ogpErr (g : Fin 2) (hdr : BitVec 128)
  /-- CAP, R304. -/
  | cap (g : Fin 2) (hdr : BitVec 128) (block : Word)
  /-- CAPACK, R304. -/
  | capack (g : Fin 2) (hdr : BitVec 128) (block : Word)
  /-- GUEST_LINK_LOSS_EXPIRY, R309. -/
  | guestLinkLossExpiry (g : Fin 2)
  /-- GUEST_FENCE_COMMAND, R309. -/
  | guestFenceCommand (who : Requester) (g : Fin 2)
  /-- GUEST_READMIT, R310. -/
  | guestReadmit (who : Requester) (g : Fin 2)
  /-- GUEST_READMIT_COMPLETE, R310. -/
  | guestReadmitComplete (g : Fin 2) (ok : Bool)
  /-- PATROL_SCRUB_READ, R322: the next scrub line, with what the read finds disturbed in its cells. -/
  | patrolScrubRead (mc : Fin 16) (dist : Disturb)
  /-- SCRUB_BOOST_END, R403. -/
  | scrubBoostEnd (mc : Fin 16)
  /-- ROW_REMAP, R327. -/
  | rowRemap (mc : Fin 16)
  /-- SET, R325. -/
  | set (who : Requester) (mc : Fin 16) (index : Fin 256)
  /-- READ, R335. -/
  | read (who : Requester) (mc : Fin 16) (index : Fin 256)
  /-- REMAP_COPY_COMPLETE, R326. -/
  | remapCopyComplete (mc : Fin 16)
  /-- CALIBRATION, R330: the slot of one pseudo-channel of the stack. -/
  | calibration (hs : Fin 8) (pc : Fin 16) (ok : Bool)
  /-- EXCLUDE, R336. -/
  | exclude (who : Requester) (hs : Fin 8)
  /-- SQT_DOORBELL, R343. -/
  | sqtDoorbell (who : Requester) (q : Fin 256) (v : Word)
  /-- CQH_DOORBELL, R343. -/
  | cqhDoorbell (who : Requester) (q : Fin 256) (v : Word)
  /-- ENTRY_FETCH, R344. -/
  | entryFetch
  /-- LEDGER_READ, R350: the command in this slot. -/
  | ledgerRead (slot : Fin 4096)
  /-- WRITE, R350. -/
  | write (slot : Fin 4096)
  /-- WRITE_MIRRORED, R360. -/
  | writeMirrored (slot : Fin 4096)
  /-- FLUSH, R350. -/
  | flush (slot : Fin 4096)
  /-- COMPARE_AND_WRITE, R350. -/
  | compareAndWrite (slot : Fin 4096)
  /-- IDENTIFY, R353. -/
  | identify (slot : Fin 4096)
  /-- CREATE_NAMESPACE, R352. -/
  | createNamespace (slot : Fin 4096)
  /-- DELETE_NAMESPACE, R352. -/
  | deleteNamespace (slot : Fin 4096)
  /-- CREATE_QP, R352. -/
  | createQp (slot : Fin 4096)
  /-- DELETE_QP, R352. -/
  | deleteQp (slot : Fin 4096)
  /-- RESET_QP, R361. -/
  | resetQp (slot : Fin 4096)
  /-- GET_LOG, R353. -/
  | getLog (slot : Fin 4096)
  /-- WRITE_ADMISSION, R355: the engine's choice of stack is given. -/
  | writeAdmission (slot : Fin 4096) (stack : Fin 2)
  /-- COMPLETION_POSTING, R346. -/
  | completionPosting (slot : Fin 4096)
  /-- RECOVERY, R358. -/
  | recovery
  /-- RECOVERY_COMPLETE, R358. -/
  | recoveryComplete
  /-- MIRROR_TIMEOUT, R360. -/
  | mirrorTimeout (slot : Fin 4096)
  /-- STACK_FAILURE, R339. -/
  | stackFailure (ls : Fin 2)
  /-- QPRD, R366. -/
  | qprd (who : Requester) (q : Fin 256)
  /-- FORM, R373. -/
  | form (who : Requester)
  /-- MEMORY_KEY_LOAD, R373. -/
  | memoryKeyLoad
  /-- REKEY, R374. -/
  | rekey (who : Requester) (pid : Pid)
  /-- REKEY_APPLY, R374. -/
  | rekeyApply (pid : Pid)
  /-- KEYLD, R376: engine 0 to 11 is CEn, 12 HCE0, 13 HCE1. -/
  | keyld (who : Requester) (e : Fin 14) (slot : Fin 16) (kind : Fin 16)
  /-- SLOTRST, R386. -/
  | slotrst (who : Requester) (e : Fin 14) (slot : Fin 16)
  /-- TAIL_DOORBELL, R377. -/
  | tailDoorbell (who : Requester) (e : Fin 14) (slot : Fin 16) (v : Word)
  /-- DESCRIPTOR_FETCH, R377. -/
  | descriptorFetch (e : Fin 14) (slot : Fin 16)
  /-- SUSPENDED_RESUME, R385. -/
  | suspendedResume (e : Fin 14)
  /-- DERIVE, R379: the fetched descriptor of this slot. -/
  | derive (e : Fin 14) (slot : Fin 16)
  /-- ENCRYPT, R379: the engine carries out `n` blocks of the message, or what is left. -/
  | encrypt (e : Fin 14) (slot : Fin 16) (n : Nat)
  /-- DECRYPT, R382. -/
  | decrypt (e : Fin 14) (slot : Fin 16) (n : Nat)
  /-- MAC, R379. -/
  | mac (e : Fin 14) (slot : Fin 16) (n : Nat)
  /-- VERIFY, R382. -/
  | verify (e : Fin 14) (slot : Fin 16) (n : Nat)
  /-- TRANSLATE, R379. -/
  | translate (e : Fin 14) (slot : Fin 16)
  /-- DESCRIPTOR_COMPLETION, R381. -/
  | descriptorCompletion (e : Fin 14) (slot : Fin 16)
  /-- DEFINE, R398. -/
  | define (who : Requester) (pid : Pid)
  /-- ASSIGN, R398. -/
  | assign (who : Requester) (pid : Pid) (lc : Lc)
  /-- UNASSIGN, R398. -/
  | unassign (who : Requester) (lc : Lc)
  /-- RESTART, R398. -/
  | restart (who : Requester) (pid : Pid)
  /-- RELEASE, R398. -/
  | release (who : Requester) (pid : Pid)
  /-- PCMD_REKEY, R398. -/
  | pcmdRekey (who : Requester) (pid : Pid)
  /-- ASSIGNMENT_APPLY, R399. -/
  | assignmentApply (lc : Lc)
  /-- RESTART_APPLY, R398. -/
  | restartApply (pid : Pid)
  /-- RELEASE_APPLY, R398. -/
  | releaseApply (pid : Pid)
  /-- EVRD, R410. -/
  | evrd (who : Requester) (index : Fin 1024)
  /-- MCRD, R535. -/
  | mcrd (who : Requester) (index : Fin 256)
  /-- MCLHEAD_WRITE, R529. -/
  | mclheadWrite (who : Requester) (v : Word)
  /-- GRANT_ACKNOWLEDGE, R421. -/
  | grantAcknowledge (d : Die)
  /-- LAST_RAIL_PGOOD, R553, R558: the response frame of regulator VADDR r, its status byte and its CRC. -/
  | lastRailPgood (r : Fin 15) (status crc : Byte)
  /-- RAIL_CONFIRM_TIMEOUT, R416. -/
  | railConfirmTimeout (r : Fin 15)
  /-- GSW_FAULT, R417. -/
  | gswFault (g : Fin 2)
  /-- C3_ENTRY, R424. -/
  | c3Entry (d : Die) (i : Fin 20)
  /-- WAKE_FRAME, R429. -/
  | wakeFrame (samples : List (Sensor × Int))
  /-- DRIZZLE_AUTO_ENTRY, R429. -/
  | drizzleAutoEntry
  /-- RESRD, R435. -/
  | resrd (who : Requester) (d : Die) (unit : Fin 32)
  /-- BAR0_ACCESS, R441. -/
  | bar0Access (off : Nat) (op : BusOp)
  /-- BAR2_ACCESS, R443, R445: a request to BAR2 or to the expansion ROM. -/
  | bar2Access (win : SeWindow) (off : Nat) (op : BusOp)
  /-- FRAMELO_READ, R440. -/
  | frameloRead
  /-- INTA_UPDATE, R449. -/
  | intaUpdate
  /-- PME, R451. -/
  | pme
  /-- FUNCTION_LEVEL_RESET, R453. -/
  | functionLevelReset
  /-- FLR_COMPLETE, R453. -/
  | flrComplete
  /-- SVC_PERST, R452. -/
  | svcPerst
  /-- EVENT_RING_COPY, R454. -/
  | eventRingCopy
  /-- EVRHEAD_WRITE, R454. -/
  | evrheadWrite (who : Requester) (v : Word)
  /-- MAILBOX_GO, R456. -/
  | mailboxGo (who : Requester) (tag : BitVec 16)
  /-- IDENT, R457. -/
  | ident
  /-- STWLOAD, R457: whether the vendor signature verifies. -/
  | stwload (sigOk : Bool)
  /-- STEWARD_IMAGE_START, R457. -/
  | stewardImageStart
  /-- UNITFAIL, R457. -/
  | unitfail
  /-- EXPSIG, R543. -/
  | expsig
  /-- ENUM, R464. -/
  | enum (addr gen : Byte)
  /-- EACK, R465. -/
  | eack
  /-- GENUP, R466. -/
  | genup (gen : Byte)
  /-- FRAME, R467: the head's frame number, the phase error the package measures (ns), CORR and the time spent inside the package (1/16 ns). -/
  | frame (num : BitVec 48) (phErr : Int) (corr inside : Nat) (src : Fin 32) (gen : Byte) (wake : Bool)
  /-- ALIGNMENT_LOST, R67. -/
  | alignmentLost
  /-- SNAP, R468. -/
  | snap (fromUp : Bool) (orig : Fin 32) (target : BitVec 48) (gen : Byte) (wake : Bool)
  /-- RREQ, R470. -/
  | rreq (fromUp : Bool) (src dst : Fin 32) (gen : Byte) (wake wr : Bool) (off len : Nat) (mask : Word) (pid : Pid) (tag : Nat) (bytes : List Byte)
  /-- RRSP, R471. -/
  | rrsp (src dst : Fin 32) (gen : Byte) (wake : Bool) (tag : Nat) (status : Fin 8) (bytes : List Byte)
  /-- MIRROR, R472: the source's slot, which MACK names, the sectors as they arrive, and the stack the engine chooses. -/
  | mirror (src dst : Fin 32) (gen : Byte) (wake : Bool) (slot : Fin 4096) (srcNs peerNs : Fin 128) (lba seq : Nat) (sectors : List (List Byte)) (stack : Fin 2)
  /-- MACK, R360. -/
  | mack (src dst : Fin 32) (gen : Byte) (wake : Bool) (slot : Fin 4096) (ok : Bool)
  /-- CHAIN_JOIN, R466. -/
  | chainJoin
  /-- DEVICE_DMA_WRITE, R479. -/
  | deviceDmaWrite (pe : Fin 6) (link : Fin 4) (addr : Word) (bytes : List Byte) (ep : Bool)
  /-- DEVICE_DMA_READ, R477. -/
  | deviceDmaRead (pe : Fin 6) (link : Fin 4) (addr : Word) (len : Nat)
  /-- MSI_WRITE, R480. -/
  | msiWrite (pe : Fin 6) (link : Fin 4) (addr : Word) (v : BitVec 32)
  /-- IOINV, R478. -/
  | ioinv (who : Requester) (pe : Fin 6) (link : Fin 4) (byAddr : Bool)
  /-- IOINV_COMPLETE, R478. -/
  | ioinvComplete (pe : Fin 6)
  /-- PCIE_LINK_DOWN, R481. -/
  | pcieLinkDown (pe : Fin 6) (link : Fin 4)
  /-- EXCLCMD, R488. -/
  | exclcmd (who : Requester) (part : Fin 32)
  /-- FILL, R494. -/
  | fill (who : Requester) (ch : Fin 16)
  /-- FILL_COMPLETE, R494. -/
  | fillComplete (ch : Fin 16)
  /-- DMATAIL_DOORBELL, R496. -/
  | dmatailDoorbell (who : Requester) (ch : Fin 16) (v : Word)
  /-- DMA_DESCRIPTOR_FETCH, R496. -/
  | dmaDescriptorFetch (ch : Fin 16)
  /-- COPY, R498. -/
  | copy (ch : Fin 16)
  /-- DESCRIPTOR_FILL, R498. -/
  | descriptorFill (ch : Fin 16)
  /-- NOP_DESCRIPTOR, R498. -/
  | nopDescriptor (ch : Fin 16)
  /-- DMA_DESCRIPTOR_COMPLETION, R498. -/
  | dmaDescriptorCompletion (ch : Fin 16)
  /-- LBIST, R538. -/
  | lbist (who : Requester) (d : Die)
  /-- MBIST, R538. -/
  | mbist (who : Requester) (d : Die)
  /-- LBIST_THEN_MBIST, R538. -/
  | lbistThenMbist (who : Requester) (d : Die)
  /-- BIST_COMPLETE, R538: the pages whose MBIST failed, each with its BISTRES bits 47:0. -/
  | bistComplete (d : Die) (aborted : Bool) (fails : List (Fin 4096 × Word))
  /-- HUB_MBIST, R539. -/
  | hubMbist (who : Requester) (p : PageId)
  /-- HUB_MBIST_COMPLETE, R539: BISTRES bits 47:0 when a word failed. -/
  | hubMbistComplete (p : PageId) (failed : Option Word)
  /-- TAP_INSTRUCTION, R561: 0 BYPASS, 1 IDCODE, 2 SAMPLE, 3 PRELOAD, 4 EXTEST, 5 and above the IEEE 1149.6 instructions. -/
  | tapInstruction (ir : Nat)
  /-- ILLEGAL_OPCODE, R112. -/
  | illegalOpcode (lc : Lc) (f : Fetch)
  /-- TRAINING_ATTEMPT_END, R489: `arg` tells what training reached (lanes failed as a mask for Mocor, width and speed for a root port, delay for a chain port). -/
  | trainingAttemptEnd (part : Part) (ok : Bool) (arg : Nat)
  /-- READMIT_RETRY_ATTEMPT, R296. -/
  | readmitRetryAttempt (part : Part)
  /-- INVREQ_COMPLETE, R176. -/
  | invreqComplete (p : PageId)
  /-- CHAIN_LINK_DOWN, R466. -/
  | chainLinkDown (down : Bool)
  /-- UCIE_LINK_LOSS, R309. -/
  | ucieLinkLoss (g : Fin 2)
  /-- PCIE_COMPLETION, R476: status 0 SC, 1 UR, 2 CRS, 4 CA. -/
  | pcieCompletion (pe : Fin 6) (tag : Nat) (status : Fin 8) (ep : Bool) (bytes : List Byte)
  /-- SE_CONFIG_WRITE, R450: a dword configuration write. -/
  | seConfigWrite (off : Nat) (v : BitVec 32)
  /-- SVC_PERST_RELEASE, R451. -/
  | svcPerstRelease
  /-- SE_LINK_DOWN, R437. -/
  | seLinkDown
  /-- LOCKSTEP_MISMATCH, R401. -/
  | lockstepMismatch
  /-- REGISTER_PARITY_ERROR, R34. -/
  | registerParityError (p : PageId)
  /-- UNIT_ERROR, R404. -/
  | unitError (d : Die) (i : Fin 20) (u : UnitFault)
  deriving DecidableEq, Repr

end Sys2Proof
end

