-- ==== Sys2Proof/Machine/Bits.lean ====
section
/-! DEFINITION. Bit fields, byte order, sign extension, parity and CRC-32C. -/

namespace Sys2Proof.Machine

/-- The field [hi:lo] of a register, as a number. -/
def fld (w : Word) (hi lo : Nat) : Nat := w.toNat / 2 ^ lo % 2 ^ (hi + 1 - lo)

/-- The register with the field [hi:lo] replaced by `v`, truncated to the field. -/
def setFld (w : Word) (hi lo v : Nat) : Word :=
  BitVec.ofNat 64 (w.toNat / 2 ^ (hi + 1) * 2 ^ (hi + 1) + v % 2 ^ (hi + 1 - lo) * 2 ^ lo + w.toNat % 2 ^ lo)

/-- Bit `i` of a register. -/
def bit (w : Word) (i : Nat) : Bool := w.getLsbD i

/-- The register with bit `i` set to `b`. -/
def setBit (w : Word) (i : Nat) (b : Bool) : Word := setFld w i i b.toNat

/-- The mask of the bits [hi:lo]. -/
def maskBits (hi lo : Nat) : Word := BitVec.ofNat 64 (2 ^ (hi + 1) - 2 ^ lo)

/-- A word of fields, each (lo, value); the fields must not overlap. -/
def word (fs : List (Nat × Nat)) : Word := BitVec.ofNat 64 (fs.foldl (fun a f => a + f.2 * 2 ^ f.1) 0)

/-- Saturating increment of a count held in `n` bits. -/
def satInc (n x k : Nat) : Nat := min (x + k) (2 ^ n - 1)

/-- The `n` bytes of a number, least significant first. -/
def leBytes : Nat → Nat → List Byte
  | 0, _ => []
  | n + 1, x => BitVec.ofNat 8 x :: leBytes n (x / 256)

/-- The number that bytes spell, least significant first. -/
def leNat : List Byte → Nat
  | [] => 0
  | b :: t => b.toNat + 256 * leNat t

/-- The number that bytes spell, most significant first. -/
def beNat (bs : List Byte) : Nat := leNat bs.reverse

/-- The `n` bytes of a number, most significant first. -/
def beBytes (n x : Nat) : List Byte := (leBytes n x).reverse

/-- The signed value of an `n`-bit number. -/
def toInt (n x : Nat) : Int := if x % 2 ^ n < 2 ^ (n - 1) then (x % 2 ^ n : Nat) else (x % 2 ^ n : Nat) - (2 ^ n : Int)

/-- The low `n` bits of an integer. -/
def ofInt (n : Nat) (i : Int) : Nat := (i % (2 ^ n : Int)).toNat

/-- Sign extension of an `n`-bit number to `m` bits. -/
def sext (n m x : Nat) : Nat := ofInt m (toInt n x)

/-- The number of ones among the low `n` bits. -/
def popCount : Nat → Nat → Nat
  | 0, _ => 0
  | n + 1, x => x % 2 + popCount n (x / 2)

/-- The position of the lowest one among the low `n` bits, `n` when there is none. -/
def lowOne : Nat → Nat → Nat
  | 0, _ => 0
  | n + 1, x => if x % 2 = 1 then 0 else lowOne n (x / 2) + 1

/-- One bit step of the reflected CRC of polynomial `poly` (already reflected). -/
def crcBit (poly c : Nat) : Nat := if c % 2 = 1 then (c / 2) ^^^ poly else c / 2

/-- One byte step of a reflected CRC. -/
def crcByte (poly c : Nat) (b : Byte) : Nat :=
  (List.range 8).foldl (fun a _ => crcBit poly a) (c ^^^ b.toNat)

/-- CRC-32C of R40: polynomial 0x1EDC_6F41, reflected, initial and final XOR all ones. -/
def crc32c (bs : List Byte) : Nat := (bs.foldl (crcByte 0x82F63B78) 0xFFFFFFFF) ^^^ 0xFFFFFFFF

/-- Sixteen-bit serial-number order (R41): `s2` is newer than `s1`. -/
def newerSeq (s2 s1 : Nat) : Bool :=
  let d := (s2 + 0x10000 - s1) % 0x10000
  decide (1 ≤ d ∧ d ≤ 0x7FFF)

/-- The numbers below `n` that `p` holds of, lowest first. -/
def below (n : Nat) (p : Nat → Bool) : List Nat := (List.range n).filter p

/-- The first element that `p` holds of, with its position. -/
def findIdx? {α : Type} (p : α → Bool) : List α → Option (Nat × α)
  | [] => none
  | a :: t => if p a then some (0, a) else (findIdx? p t).map (fun r => (r.1 + 1, r.2))

end Sys2Proof.Machine
end

