-- ==== Sys2Proof/Config.lean ====
section
/-! DEFINITION. What an implementation or a part fixes, and the free values. Nothing here has a body: every claim
holds whatever these are. -/

namespace Sys2Proof.Config

/-- A fresh value of `w` bits: the n-th value that the manual leaves open (log entry 1). -/
opaque freeBits : (w : Nat) → Nat → BitVec w

/-- STEP of BLKVER: the stepping of the part (R30). -/
opaque stepping : BitVec 8

/-- LAYOUT of BLKVER, by block type code (R30). -/
opaque layout : Nat → BitVec 8

/-- BLKCAP bits 63:32, block-specific, by block type code (R30): no chapter gives them. -/
opaque blkcapHigh : Nat → BitVec 32

/-- The device serial number of SE (R439). -/
opaque serial : BitVec 64

/-- The fused secret of the part (R370). -/
opaque fusedSecret : BitVec 256

/-- The Oarvotas fuse map of MCn: the FUSE entries of MCRn in the layout of R324 (R325). -/
opaque fuseMap : Nat → List (BitVec 64)

/-- The initial grant G of a book of a page (R269): page address, book identifier. -/
opaque grant : Nat → BitVec 16 → Nat

/-- Whether the arbitrary bits of an uninitialised line lie within the correction limit of a codeword (R323):
line, decoder mode C4, read count. -/
opaque luckyUninit : Nat → Bool → Nat → Bool

/-- Whether tininess of a binary result is detected before rounding (IEEE 754 leaves the choice, R79). -/
opaque tininessBefore : Bool

/-- The NaN that an operation delivers: width, first operand, second operand (IEEE 754 leaves the payload, R79). -/
opaque nanResult : (w : Nat) → BitVec w → BitVec w → BitVec w

/-- The version that a steward image carries within its signed part (R457): the bytes of the image. -/
opaque imageVersion : List Byte → BitVec 64

/-- The fields of IDCODE that the boundary-scan description file gives (R561). -/
opaque idcodeRest : BitVec 32

/-- The bytes of the expansion ROM of SE, by offset, that R445 to R447 do not give. -/
opaque expansionRom : Nat → Byte

/-- The reset values that a shared layout record gives for BLKID[INST] and BLKID[DIE], which differ by page, by block type code
(R447). -/
opaque romInst : Nat → Word
opaque romDie : Nat → Word

/-- How the n-th read of a ledger sector comes out: 0 clean, 1 corrected, 2 uncorrectable (R339): stack, read count. -/
opaque sectorRead : Nat → Nat → Fin 3

/-- The eye margin in 1/256 UI below which a lane of a chain link is failing, and the CRC failures of a frame above which an
isolation runs on it: R461 gives chain links the checks of Mocor, whose figures lie in registers that chain ports do not have
(log entry 138). -/
opaque chainMargin : Nat
opaque chainCrcLimit : Nat

end Sys2Proof.Config
end

