-- ==== Sys2Proof/Machine/Tbl.lean ====
section
/-! DEFINITION. Sparse tables: lists of (key, value) pairs in one canonical form, keys strictly rising and no entry
equal to what an unlisted key reads as. -/

namespace Sys2Proof.Machine

/-- A sparse table. `d k` is what an unlisted key `k` reads as; it is an argument of every operation. -/
abbrev Tbl (α : Type) := List (Nat × α)

/-- The listed entry of a key. -/
def tblFind {α : Type} : Tbl α → Nat → Option α
  | [], _ => none
  | (j, v) :: t, k => if j = k then some v else tblFind t k

/-- The value a key reads as. -/
def tblGet {α : Type} (d : Nat → α) (t : Tbl α) (k : Nat) : α := (tblFind t k).getD (d k)

/-- The table without the entry of a key. -/
def tblErase {α : Type} : Tbl α → Nat → Tbl α
  | [], _ => []
  | (j, v) :: t, k => if j = k then tblErase t k else (j, v) :: tblErase t k

/-- The table with an entry for a key, in key order. -/
def tblInsert {α : Type} : Tbl α → Nat → α → Tbl α
  | [], k, x => [(k, x)]
  | (j, v) :: t, k, x =>
    if j = k then (k, x) :: t else if k < j then (k, x) :: (j, v) :: t else (j, v) :: tblInsert t k x

/-- The table after writing a key; a value equal to the unlisted one removes the entry. -/
def tblSet {α : Type} [DecidableEq α] (d : Nat → α) (t : Tbl α) (k : Nat) (x : α) : Tbl α :=
  if x = d k then tblErase t k else tblInsert t k x

/-- Every listed key is at least `n`, keys rise strictly and no entry equals the unlisted value. -/
def tblWfFrom {α : Type} [DecidableEq α] (d : Nat → α) : Nat → Tbl α → Bool
  | _, [] => true
  | n, (j, v) :: t => decide (n ≤ j) && decide (v ≠ d j) && tblWfFrom d (j + 1) t

/-- The canonical form. -/
def tblWf {α : Type} [DecidableEq α] (d : Nat → α) (t : Tbl α) : Bool := tblWfFrom d 0 t

/-- The table without the keys that `p` holds of. -/
def tblDrop {α : Type} (p : Nat → Bool) (t : Tbl α) : Tbl α := t.filter (fun e => !p e.1)

/-- Replace the entry at position `i` of a list; a position outside the list changes nothing. -/
def listSet {α : Type} : List α → Nat → α → List α
  | [], _, _ => []
  | _ :: t, 0, x => x :: t
  | a :: t, i + 1, x => a :: listSet t i x

end Sys2Proof.Machine
end

