-- ==== Sys2Proof/Machine/State.lean ====
section
/-! DEFINITION. The state of the KH1216, as plain data. Registers whose only home is their register page are held in
that page's `regs`; everything else has a field of its own. -/

namespace Sys2Proof.Machine

/-! ### Package modes (R54 to R59) -/

/-- The eight package modes (R54). -/
inductive Mode where
  | off | service | load | test | run | degraded | drizzle | quiesce
  deriving DecidableEq, Repr

/-- A transition in progress (R55): its target, the ORIGIN that MODESTAT will report, and whether its entry work was found
complete at a tick. -/
structure Trans where
  target : Mode
  origin : Nat
  done : Bool
  deriving DecidableEq, Repr

/-- MODESTAT (R58) and the transition in progress. Only the steward's mode evaluation changes it. -/
structure ModeState where
  mode : Mode
  /-- MODESTAT[RET]. -/
  ret : Option Mode
  origin : Nat
  forced : Bool
  pcs : Bool
  wake : Nat
  entfrm : Nat
  trans : Option Trans
  /-- Frames since the drain into QUIESCE started (R60). -/
  drain : Option Nat
  /-- LOSTSET at the entry into DRIZZLE (R59). -/
  lostAtEntry : Nat
  deriving DecidableEq, Repr

/-- A transition into QUIESCE is in progress: agents that drain start nothing new until the package is there (R60). -/
def ModeState.quiescing (md : ModeState) : Bool := match md.trans with | some t => t.target == .quiesce | none => false

/-! ### Register pages (R25 to R53) -/

/-- The set events of one ERRSTAT bit in the frame just running, or one synchronous trap (bit 255) or hub failure
(bit 254), as a machine-check record carries them (R527, R530). -/
structure Ev where
  bit : Nat
  cls : Nat
  count : Nat
  pids : List Nat
  lc : Option Nat
  addr : Nat
  detail : Word
  agent : Nat
  deriving DecidableEq, Repr

/-- One register page. A page that is not listed is in its reset state. -/
structure Page where
  /-- Header, live and immediate registers by page offset (R26); unlisted: the Reset columns. -/
  regs : Tbl Word
  /-- Copies A and B by quad index 0 to 127 (R40). -/
  copyA : Tbl Word
  copyB : Tbl Word
  /-- The live configuration by quad index, none before the first adoption (R42). -/
  live : Option (Tbl Word)
  /-- The snapshot window by register 0 to 47 (R47). -/
  window : Tbl Word
  /-- Set events of the frame (R527). -/
  evs : List Ev
  /-- The page interrupt level (R528). -/
  raised : Bool
  /-- Quota work done in the frame (R71). -/
  work : Nat
  deriving DecidableEq, Repr

/-- A page right after package reset. -/
def Page.reset : Page :=
  { regs := [], copyA := [], copyB := [], live := none, window := [], evs := [], raised := false, work := 0 }

/-- The frame generator (R64 to R68). -/
structure FrameGen where
  num : BitVec 48
  /-- Ticks since frame 0: what "every n frames" counts, which a jump of the frame number leaves alone (R68). -/
  ticks : Nat
  /-- ALIGN[SLIPS], ALIGN[PHERR] as 16 bits, ALIGN[STATE] of a package that is not the head, FRMOFS. -/
  slips : Nat
  pherr : Nat
  state : Nat
  ofs : BitVec 48
  /-- The adopted copy has applied its seed (R66). -/
  seedUsed : Bool
  /-- Consecutive ticks with PHERR outside 20 ns (R67). -/
  outside : Nat
  /-- The package has been ALIGNED once in LOAD (R68). -/
  aligned : Bool
  deriving DecidableEq, Repr

/-! ### Logical cores (R75) -/

/-- What a logical core is doing. -/
inductive CoreRun where
  /-- Executes nothing: not started, or unassigned (R399). -/
  | idle
  | executing
  /-- In WAITF; ticks still to come (R148). -/
  | waiting (ticks : Nat)
  /-- Stopped where it stands by a domain checkstop or R97. -/
  | stopped
  deriving DecidableEq, Repr

/-- An access of a core that something outside the package answers: address, length, bytes written, and the answer once
it has arrived (none: error response). -/
structure IoAcc where
  pa : Nat
  len : Nat
  wr : List Byte
  tag : Nat
  answer : Option (Option (List Byte × Bool))
  /-- Ticks seen since it was issued (R266). -/
  age : Nat
  deriving DecidableEq, Repr

/-- A posted write whose outcome something outside reports: its tag, its address and the ticks it has seen (R187, R266). -/
structure Posted where
  tag : Nat
  pa : Nat
  age : Nat
  deriving DecidableEq, Repr

/-- One logical core. -/
structure Core where
  g : Vector Word 16
  ma : Vector (BitVec 128) 4
  ip : Word
  psw : Word
  /-- Control registers by number (R80, R192, R507). -/
  cr : Tbl Word
  pend : BitVec 256
  run : CoreRun
  /-- A restartable instruction stands partly done (R99): its length in bytes, 0 for none. -/
  part : Nat
  /-- Posted device writes that got an error response and are not yet taken (R568). -/
  failed : List Nat
  /-- Posted device writes that something outside the package has yet to answer: tag and address (R187). -/
  posted : List Posted
  /-- Accesses of the instruction at IP that wait for, or hold, an answer from outside, and how many of them the
  present execution has used. -/
  io : List IoAcc
  ioPos : Nat
  /-- What a CAS that missed read at its one atomic access, while its write of operand 1 waits for an answer (R145). -/
  held : Option Nat
  /-- The last instruction carried ORDER: the next one begins when every access of it is complete (R188). -/
  fence : Bool
  deriving DecidableEq, Repr

/-- PSW after reset: IMASK 0xF, PL M (R78). -/
def pswReset : Word := 0xF20000

/-- A logical core after package reset (R81, R82; IP is DESIGN CHOICE 0 until the core starts, log entry 2; SXINFO and MXINFO
are 0 as R81 gives, log entry 114). -/
def Core.reset : Core :=
  { g := Vector.replicate 16 0, ma := Vector.replicate 4 0, ip := 0, psw := pswReset, cr := [], pend := 0,
    run := .idle, part := 0, failed := [], posted := [], io := [], ioPos := 0, held := none, fence := false }

/-! ### Translation structures and caches (R160 to R168, R211) -/

/-- A combined translation (R211). -/
structure TlbEnt where
  mregime : Bool
  pid : Nat
  /-- ASID, none when the stage-1 leaf is global or stage 1 is disabled. -/
  asid : Option Nat
  vbase : Nat
  pbase : Nat
  size : Nat
  /-- Partition address and size of the stage-2 page. -/
  s2base : Nat
  s2size : Nat
  r : Bool
  w : Bool
  x : Bool
  u : Bool
  /-- Stage 1 translated (the guards and rights apply). -/
  s1 : Bool
  r2 : Bool
  w2 : Bool
  x2 : Bool
  /-- Attribute of R205: 0 WB, 1 UC, 2 DEV-S, 3 DEV-R. -/
  attr : Nat
  /-- Both leaves have D at 1. -/
  dirty : Bool
  deriving DecidableEq, Repr

/-- A walk-cache entry (R211): an entry that a walk read, keyed by its stage, level and input prefix. -/
structure WcEnt where
  mregime : Bool
  pid : Nat
  asid : Option Nat
  stage2 : Bool
  lvl : Nat
  prefix_ : Nat
  value : Word
  deriving DecidableEq, Repr

/-- One way of a cache set. A locked way keeps line and PID while it is empty (R167). -/
structure CWay where
  valid : Bool
  line : Nat
  pid : Nat
  dirty : Bool
  locked : Bool
  /-- Retained through a disable: what it holds may disagree with memory (R175, R178). -/
  stale : Bool
  deriving DecidableEq, Repr

/-- An empty way. -/
def CWay.empty : CWay := { valid := false, line := 0, pid := 0, dirty := false, locked := false, stale := false }

/-- One set of a cache: its ways and its pseudo-LRU bits (R165). -/
structure CSet where
  ways : Tbl CWay
  plru : Nat
  deriving DecidableEq, Repr

/-- A set of a cache that holds nothing. -/
def CSet.empty : CSet := { ways := [], plru := 0 }

/-- One cache: its sets, the frames of the last CEs of each way (R171), and what runs in it. -/
structure Cache where
  sets : Tbl CSet
  ces : Tbl (List Nat)
  /-- Ways whose sweep is running (R172). -/
  sweep : List Nat
  /-- The drain of R175 runs; an INVREQ waits behind it (R176). -/
  draining : Bool
  invQueued : Bool
  invRunning : Bool
  deriving DecidableEq, Repr

/-- A cache that holds nothing. -/
def Cache.empty : Cache :=
  { sets := [], ces := [], sweep := [], draining := false, invQueued := false, invRunning := false }

/-- A physical unit (R5): its translation structures, L1 caches and watch state. -/
structure PhysUnit where
  itlb : List TlbEnt
  dtlb : List TlbEnt
  l2tlb : List TlbEnt
  wc : List WcEnt
  /-- Recorded failed by the service host (R10, R457 UNITFAIL). -/
  failed : Bool
  /-- Frames of the corrected errors counted for sparing (R404). -/
  ces : List Nat
  /-- Frames of the unit watch without progress, and progress in this frame (R291). -/
  watch : Nat
  progress : Bool
  /-- Hung and not yet handed over; a hard failure waits for its handover. -/
  hung : Bool
  hard : Bool
  /-- The state of the unit can be read. -/
  intact : Bool
  /-- Reached SPARETHR: a handover is requested; SPARE_UNAVAILABLE was logged (R12). -/
  spareReq : Bool
  unavail : Bool
  /-- C-state 0 C0, 1 C1, 3 C3 (R424) and frames idle. -/
  cst : Nat
  idle : Nat
  /-- Residency C0, C1, C3 (R434). -/
  res0 : Nat
  res1 : Nat
  res3 : Nat
  deriving DecidableEq, Repr

/-- A unit after reset. -/
def PhysUnit.reset : PhysUnit :=
  { itlb := [], dtlb := [], l2tlb := [], wc := [], failed := false, ces := [], watch := 0, progress := false,
    hung := false, hard := false, intact := true, spareReq := false, unavail := false, cst := 0, idle := 0,
    res0 := 0, res1 := 0, res3 := 0 }

/-! ### Coherence (R219 to R256) -/

/-- State of a line at a die (R223). -/
inductive DieSt where
  | m | e | s
  deriving DecidableEq, Repr

/-- A line that a die holds, or a pending eviction of it (R225). -/
structure DLine where
  st : DieSt
  pid : Nat
  data : List Byte
  poison : Bool
  /-- EvC or WbD sent and not yet acknowledged, and its TXID. -/
  evicting : Bool
  evTx : Nat
  deriving DecidableEq, Repr

/-- A directory entry (R227). `own` is state O. -/
structure DirEnt where
  own : Bool
  fenced : Bool
  busy : Bool
  pid : Nat
  pres : Nat
  tag : Nat
  deriving DecidableEq, Repr

/-- A directory set. -/
structure DirSet where
  ways : Tbl (Option DirEnt)
  plru : Nat
  deriving DecidableEq, Repr

/-- A directory set with no entry. -/
def DirSet.empty : DirSet := { ways := [], plru := 0 }

/-- The requests of the REQ network (R230). -/
inductive ReqKind where
  | rds | rdo | upg | iord | iowr
  deriving DecidableEq, Repr

/-- A request that waits or is being served at its home. -/
structure HomeReq where
  kind : ReqKind
  line : Nat
  pid : Nat
  src : Nat
  txid : Nat
  /-- IoRd and IoWr: byte offset, length, operation, operand bytes, mask, poison, carry in. -/
  off : Nat
  len : Nat
  op : Nat
  bytes : List Byte
  mask : Nat
  carry : Bool
  poison : Bool
  /-- The WbData of an IoWr has arrived. -/
  ready : Bool
  /-- Urgency with which the request arrived (R264). -/
  urg : Nat
  deriving DecidableEq, Repr

/-- What a message says beside the fields of all messages (R230, R231). -/
inductive MsgBody where
  | req (r : HomeReq)
  | wbd
  | evc
  | snpInv
  | snpShr (fwd : Nat)
  | snpFwd (fwd : Nat)
  | cmp (grant : Nat) (df : Bool)
  | ack
  | snpRsp (resp : Nat)
  | err (status : Nat)
  | data (bytes : List Byte) (dirty poison : Bool)
  | wbData (bytes : List Byte) (mask : Nat) (dirty poison : Bool)
  deriving DecidableEq, Repr

/-- A message (R230, R231): `src` and `dst` are agent numbers, 0x3F the home of the line; `urg` is its urgency (R264). -/
structure Msg where
  body : MsgBody
  line : Nat
  pid : Nat
  src : Nat
  dst : Nat
  txid : Nat
  urg : Nat
  deriving DecidableEq, Repr

/-- A part of a message's way (R259, R262, R278): a boulevard of a die from stop to stop, a Mocor link of a die in a
direction (true: to the hub), or the grid from port to port (square × 8 + port). -/
inductive Leg where
  | ring (d s j : Nat)
  | mocor (d : Nat) (toHub : Bool)
  | grid (a b : Nat)
  deriving DecidableEq, Repr

/-- A message on its way, as one flit (R257). -/
structure Flit where
  msg : Msg
  /-- The parts of its way still to begin. -/
  legs : List Leg
  /-- The books of the present part that it has still to cross, as page and identifier (R274). -/
  path : List (Nat × Nat)
  /-- The book whose wires or, with `wire` false, whose buffers hold it; none: its sender's. -/
  place : Option (Nat × Nat)
  wire : Bool
  /-- On a boulevard: die, source stop, destination stop and the entry of the route table that it follows (R260). -/
  route : Option (Nat × Nat × Nat × Nat)
  /-- Cycles it has waited in its buffer without moving, modulo 256 (R264). -/
  wait : Nat
  deriving DecidableEq, Repr

/-- A transaction at a home (R234). -/
structure Txn where
  req : HomeReq
  /-- Dies whose SnpRsp is outstanding. -/
  snoops : List Nat
  /-- Dies that were snooped (R242). -/
  snooped : List Nat
  /-- Dies that answered wb-in-flight and whose WbData is still to come (R232). -/
  await : List Nat
  /-- WbD or EvC held until the SnpRsp of its sender arrives. -/
  held : List Msg
  /-- Data that reached the home, and whether it is dirty and poisoned. -/
  data : Option (List Byte)
  dirty : Bool
  poison : Bool
  /-- The owner was present. -/
  present : Bool
  /-- Cmp was sent; the Ack is awaited. -/
  granted : Bool
  /-- The transaction only invalidates (back-invalidation R228, PID change R236); then this request runs. -/
  inval : Bool
  then_ : Option HomeReq
  /-- Ticks seen since issue (R266). -/
  age : Nat
  deriving DecidableEq, Repr

/-- A request of an agent that is outstanding (R238). -/
structure AgentReq where
  kind : ReqKind
  line : Nat
  pid : Nat
  txid : Nat
  cmp : Option (Nat × Bool)
  data : Option (List Byte × Bool × Bool)
  /-- Urgency of the Cmp (R264). -/
  urg : Nat
  age : Nat
  deriving DecidableEq, Repr

/-- The coherence state of the package. -/
structure Coh where
  /-- Directory sets by slice × 32,768 + set (R226). -/
  dirs : Tbl DirSet
  /-- Lines of die d by line number, by die. -/
  dies : Tbl (Tbl DLine)
  txns : List Txn
  confq : List HomeReq
  reqs : Tbl (List AgentReq)
  /-- Messages in flight, oldest first. -/
  net : List Flit
  /-- What an uncached request got: (agent, txid, status, bytes, poison). -/
  answers : List (Nat × Nat × Nat × List Byte × Bool)
  /-- WbData that has arrived before its WbD or IoWr is taken. -/
  wb : List Msg
  /-- WbD that awaits its WbData, and whether the data is to be discarded. -/
  wbWait : List (Msg × Bool)
  /-- PIDs whose sweep runs (R250 step 4), with the detector's number plus 1, and lines whose Err DCS ended a
  transaction. -/
  sweeps : Tbl Nat
  dcsLines : List (Nat × Nat)
  /-- Audit position by slice; next set of the purge of a die, by slice × 16 + die. -/
  audit : Tbl Nat
  purge : Tbl Nat
  /-- PIDs whose drain of R248 runs: (die, pid). -/
  drains : List (Nat × Nat)
  /-- Quarantined (agent, TXID) (R267). -/
  quarantine : List (Nat × Nat)
  deriving DecidableEq, Repr

/-! ### HBM (R312 to R336) -/

/-- What is known of a stored line (R315 to R323): the PID and the key generation it was written under and the bits by
which its symbols differ from the codeword of its content; none: uninitialised. -/
structure LineMeta where
  pid : Nat
  gen : Nat
  /-- The line it was written as: its address is the tweak (R328). -/
  tweak : Nat
  err : Tbl Byte
  deriving DecidableEq, Repr

/-- A row that a controller tracks (R327). -/
structure TrackRow where
  pch : Nat
  bank : Nat
  row : Nat
  frames : List Nat
  asked : Bool
  ueSeen : Bool
  deriving DecidableEq, Repr

/-- A memory controller beside its pages. -/
structure MemCtl where
  tracker : List TrackRow
  /-- Rows for which ROWREQ awaits the steward (R327). -/
  rowReqs : List (Nat × Nat × Nat)
  /-- Remap entries of MCRn (R324). -/
  remap : Tbl Word
  /-- Running copying SET: index and entry (R326); issued by the steward. -/
  copying : Option (Nat × Word × Bool)
  /-- Scrub boost (R403): 0 none, 1 over, otherwise passes to come plus 1. -/
  boost : Nat
  /-- Next pseudo-channel of the scrub (R322). -/
  scrubPch : Nat
  /-- Consecutive calibration failures by channel (R331). -/
  calFail : Tbl Nat
  deriving DecidableEq, Repr

/-- A controller after reset. -/
def MemCtl.reset : MemCtl :=
  { tracker := [], rowReqs := [], remap := [], copying := none, boost := 0, scrubPch := 0, calFail := [] }

/-- The HBM of the package. -/
structure Hbm where
  /-- Plaintext bytes by cell number × 64 + byte. -/
  mem : List Host.Cell
  /-- Plaintext and metadata by cell number (R324): a line's own cells, or those of a remap row. -/
  lines : Tbl (Option LineMeta)
  ctl : Tbl MemCtl
  deriving DecidableEq, Repr

/-! ### Partitions, the steward and the logs (R391 to R414, R525 to R535) -/

/-- State of a partition (R394). -/
inductive PartSt where
  | free | defined | checkstopped
  deriving DecidableEq, Repr

/-- A partition: its state, reset vector, and the requests recorded for the next tick. -/
structure Partition where
  st : PartSt
  vec : Nat
  /-- The DCS event of R250 step 6 was logged. -/
  logged : Bool
  restart : Bool
  /-- RELEASE recorded, with the ORIGIN of its request (R408). -/
  release : Option Nat
  /-- GEN[p] (R374) and a REKEY waiting for its tick, with the ORIGIN of its request. -/
  gen : Nat
  rekey : Option Nat
  deriving DecidableEq, Repr

/-- A partition at reset (DESIGN CHOICE vector 0, log entry 2). -/
def Partition.reset : Partition :=
  { st := .free, vec := 0, logged := false, restart := false, release := none, gen := 0, rekey := none }

/-- An event record (R408). -/
structure EvRec where
  seq : Nat
  code : Nat
  origin : Nat
  frame : Nat
  lc : Option Nat
  pid : Option Nat
  die : Nat
  block : Nat
  detail : Word
  deriving DecidableEq, Repr

/-- A recorded ASSIGN (its target PID) or UNASSIGN (0x80), with the ORIGIN of its command; none: nothing is recorded
(R398, R399). -/
abbrev AsgReq := Option (Nat × Nat)

/-- The steward: core map, spares, assignments, event log, machine-check log. -/
structure Steward where
  /-- Core-map entries by LC and spare entries by region (R14, R15). -/
  cmap : Tbl Nat
  spare : Tbl Nat
  /-- LCPID entries (R400). -/
  lcpid : Tbl Nat
  assigns : Tbl AsgReq
  parts : Tbl Partition
  /-- The last 1,024 event records, newest first, and the SEQ of the newest (R408). -/
  events : List EvRec
  evSeq : Nat
  /-- The last 256 machine-check records as eight quads, newest first, and MCSEQ (R529). -/
  mcs : List (List Word)
  mcSeq : Nat
  /-- Attention queue entries, oldest first, and OVF (R528). -/
  attnq : List Nat
  attnOvf : Bool
  /-- A page was appended in this frame: ATTNINTID at the next tick (R528). -/
  attnNew : Bool
  /-- An accepted mode command that has not yet reported OK, and whether its transition has begun (R57, R59). -/
  modeCmd : Option (Mode × Bool)
  /-- A package checkstop raised since the last sampling cycle (R59). -/
  pcsRaised : Bool
  /-- A wake match found by the last wake sample, with its WAKE code (R59 step 3). -/
  wakeMatch : Option Nat
  /-- Fenced dies to readmit autonomously: ticks left (R401). -/
  autoReadmit : Tbl Nat
  /-- Fences of dies the steward commands at the next tick, with their cause (R294). -/
  fences : List (Nat × Nat)
  /-- Mismatching quantities found in consecutive ticks (R413). -/
  tokenFails : Nat
  /-- Wear rotation: ticks into the rotation period, and rotations waiting for their spare (R406). -/
  rotTick : Nat
  rotWait : List Nat
  /-- Waiting rotations whose spare was found not READY and that SPARE_UNAVAILABLE was logged for (R12). -/
  rotNoted : List Nat
  /-- Regions whose handover of this frame has taken place (R11). -/
  moved : List Nat
  /-- The old partition of a reassigned core, and what the core does once the drain of that partition has ended (R248). -/
  held : Tbl (Option (Nat × CoreRun))
  /-- Pages whose QUOTA_OVERRUN is due (R73). -/
  overruns : List Nat
  /-- Requests that a tick has found pending, which may take effect from it on: kind and number (R74). -/
  ripe : List (Nat × Nat)
  /-- The expected-signature file in force: (TYPE, LAYOUT, TEST, MISR) (R542). -/
  expsig : Option (List (Nat × Nat × Nat × Word))
  /-- The steward image: accepted, its version, running (R457). -/
  image : Bool
  imageVer : Word
  running : Bool
  /-- Triggers whose latch edge is still to come, oldest first: the edge is a tick, source bits, LATE (R49 to R51). -/
  latches : List (Bool × Nat × Bool)
  /-- The last latch edge: frame and TICKOFF (R52). -/
  lastEdge : Option (Nat × Nat)
  /-- Chain triggers seen: (originator, target in the head's numbering), and the ones that fix a latch edge here, with
  their source bits (R50). `armAll`: SNAPARM was requested (R52). -/
  chainSeen : List (Nat × Nat)
  chainPend : List (Nat × Nat × Nat)
  armAll : Bool
  /-- The core map was built (R10). -/
  mapBuilt : Bool
  deriving DecidableEq, Repr

/-! ### Power and bring-up (R415 to R436, R484 to R504, R553) -/

/-- A request on the rail-command bus (R558, R559): VADDR, CMD, DATA and the request CRC. -/
structure RailReq where
  vaddr : Nat
  cmd : Nat
  data : BitVec 16
  crc : Byte
  deriving DecidableEq, Repr

/-- Rails, grants, wake logic and thermal responses. -/
structure Power where
  /-- The service island is powered and out of reset; hub main and hub PHY are switched on (R415). -/
  island : Bool
  hubMain : Bool
  /-- Rails by VADDR of R559: 0 off, 1 commanded on, 2 on and confirmed. -/
  rails : Tbl Nat
  /-- Rails still to be commanded; the first one is being commanded (R553). -/
  railQ : List Nat
  /-- The last request on the rail-command bus, the accepted SETV that await their confirmation, and the voltage that each
  rail has confirmed, in units of 5 mV; unlisted: the bottom of its range (R416, R558 to R560). -/
  sent : Option RailReq
  bus : List RailReq
  volts : Tbl Nat
  /-- Guest load switches GSW0 and GSW1 (R417). -/
  gsw : Tbl Bool
  /-- Counted grants by die (R421), grants sent and not yet acknowledged, and LIMIT of the tick before (R422). -/
  counted : Tbl Nat
  owed : Tbl Nat
  oldLimit : Nat
  /-- Latched wake sources by code (R427), frame F0 (R426), and the masked words that the first wake frame read (R428). -/
  latched : List Nat
  f0 : Nat
  base : Tbl (Option Word)
  /-- Consecutive idle frames, and a doorbell written in the frame (R429). -/
  idleFr : Nat
  doorbell : Bool
  /-- THERMTRIP_N is driven low (R433). -/
  trip : Bool
  /-- Thermal responses in force: (kind, index) (R432). -/
  hot : List (Nat × Nat)
  /-- The unit of each die whose aging monitor is sampled next (R521). -/
  ageNext : Tbl Nat
  /-- PWRFAIL_N is low; SVC_PERST_N is low; PKG_RESET_N is low (R544). -/
  pwrFail : Bool
  perst : Bool
  /-- The TAP instruction in force (R561): 0 BYPASS, 1 IDCODE, which IEEE 1149.1 selects at its reset (log entry 93). -/
  tap : Nat
  deriving DecidableEq, Repr

/-- Power state with everything off. -/
def Power.off : Power :=
  { island := false, hubMain := false, rails := [], railQ := [], sent := none, bus := [], volts := [], gsw := [], counted := [], owed := [], oldLimit := 7000,
    latched := [], f0 := 0, base := [], idleFr := 0, doorbell := false, trip := false, hot := [],
    ageNext := [], pwrFail := false, perst := false, tap := 1 }

/-- Training and retries (R63, R489). A part is named by its number in `partNum`. -/
structure Boot where
  /-- Training attempts that run. -/
  training : List Nat
  /-- Frames before the next attempt of a part whose last attempt failed, plus 1. -/
  waits : Tbl Nat
  /-- Parts whose READMIT is in progress (R296, R310). -/
  readmits : List Nat
  /-- ORIGIN of the last READMIT of a die (R408). -/
  readmitBy : Tbl Nat
  /-- Parts whose training or bring-up has succeeded in LOAD (R63, R491). -/
  finished : List Nat
  /-- The root keys of this power-up: 0 no FORM accepted, 1 FORM accepted, 2 the memory keys are loaded (R373). -/
  keyed : Nat
  deriving DecidableEq, Repr

/-- No training, and no root key. -/
def Boot.idle : Boot := { training := [], waits := [], readmits := [], readmitBy := [], finished := [], keyed := 0 }

/-! ### Ends of links that carry flits (R278 to R285, R460) -/

/-- One end of a link that carries flits, as a receiver and as the sender of the other direction (R282, R460). -/
structure LinkEnd where
  /-- SEQ of the last flit received intact and in order; flits are discarded until the replay arrives. -/
  seq : Nat
  discard : Bool
  /-- The SEQ that the last NAK received named, and NAKs in a row that named it. -/
  nakAck : Nat
  naks : Nat
  /-- CRC failures in the frame just running, and in the frame just ended. -/
  crcFr : Nat
  crcLast : Nat
  /-- Message bytes received and not yet whole (R281). -/
  rx : List Byte
  /-- Lanes of the receive direction that are failing (R284). -/
  failing : List Nat
  /-- Failed-lane mask that the other end sent with PAUSE. -/
  peerMask : Nat
  /-- SEQ of the last flit sent, and the retry buffer: the SEQs of the flits sent that no ACK covers, oldest first: at
  most 512 on Mocor and 1,024 on a chain link (R278, R282, R460). -/
  tx : Nat
  retry : List Nat
  deriving DecidableEq, Repr

/-- An end after reset: the first SEQ expected is 0. -/
def LinkEnd.reset : LinkEnd :=
  { seq := 1023, discard := false, nakAck := 0, naks := 0, crcFr := 0, crcLast := 0, rx := [], failing := [], peerMask := 0,
    tx := 1023, retry := [] }

/-! ### Chain and PCIe (R460 to R482) -/

/-- A chain port beside its page (R460, R461): its end of the link, its lanes that failed, the ticks since a pause began, a
stall, and for each message class the credits that its sender has spent and not got back. -/
structure ChPort where
  lanes : LinkEnd
  bad : List Nat
  paused : Option Nat
  stalled : Bool
  spent : Tbl Int
  deriving DecidableEq, Repr

/-- A chain port whose link is down. -/
def ChPort.reset : ChPort := { lanes := LinkEnd.reset, bad := [], paused := none, stalled := false, spent := [] }

/-- What a chain message says beside its addresses (R462, R464, R467 to R472). -/
inductive ChainBody where
  | enum (addr : Nat)
  | eack
  | genup
  | frame (num : BitVec 48) (corr : Nat)
  | snap (orig target : Nat)
  | rreq (wr : Bool) (off len : Nat) (mask : Word) (pid tag : Nat) (bytes : List Byte)
  | rrsp (tag status : Nat) (bytes : List Byte)
  | mirror (slot srcNs peerNs lba seq : Nat) (bytes : List Byte)
  | mack (slot : Nat) (ok : Bool)
  deriving DecidableEq, Repr

/-- A chain message (R462). ENUM, EACK, GENUP, FRAME and SNAP go hop by hop and have no DST; `gen` of ENUM and GENUP is the
GEN that they carry. -/
structure ChainMsg where
  dst : Option Nat
  src : Nat
  gen : Nat
  wake : Bool
  body : ChainBody
  deriving DecidableEq, Repr

/-- The chain position beside CHSTAT. -/
structure Chain where
  /-- Address and GEN that come into force at the next tick (R464). -/
  pend : Option (Nat × Nat)
  /-- An ENUM was taken that CHD has not forwarded yet; CHD has received EACK; the chain was enumerated; a join is due. -/
  held : Bool
  eack : Bool
  done : Bool
  join : Bool
  /-- A FRAME arrived in the frame just running (R467). -/
  frame : Bool
  /-- CHU (0) and CHD (1). -/
  ports : Tbl ChPort
  /-- The messages that CHU (false) and CHD (true) have sent since the last tick, in order (log entry 143). -/
  sent : List (Bool × ChainMsg)
  deriving DecidableEq, Repr

/-- No address. -/
def Chain.reset : Chain :=
  { pend := none, held := false, eack := false, done := false, join := false, frame := false, ports := [],
    sent := [] }

/-- An IOTLB entry (R478). -/
structure IoTlb where
  link : Nat
  vbase : Nat
  pbase : Nat
  size : Nat
  r : Bool
  w : Bool
  deriving DecidableEq, Repr

/-- A PCIe root port beside its page. -/
structure Pcie where
  iotlb : List IoTlb
  /-- The running IOINV: link, by address, address. -/
  inv : Option (Nat × Bool × Nat)
  /-- Type-1 header registers of its root ports, by link × 1,024 + register number (log entry 16). -/
  rp : Tbl (BitVec 32)
  deriving DecidableEq, Repr

/-- A root port after reset. -/
def Pcie.reset : Pcie := { iotlb := [], inv := none, rp := [] }

/-- What a request from outside the package does: an access of HBM, an atomic operation of R233 with its operand, or an MSI
(R480). -/
inductive InOp where
  | read
  | write (bytes : List Byte) (mask : Nat) (poison : Bool)
  | atom (op : Nat) (operand : List Byte)
  | msi (link v : Nat)
  deriving DecidableEq, Repr

/-- Whom a request is answered: a guest by TAG, a device's link by the address it named, a package of the chain by its tag, the
service host. -/
inductive InSrc where
  | guest (g tag : Nat)
  | pcie (n addr : Nat)
  | chain (src tag : Nat)
  | host (pa : Nat)
  | mclog
  deriving DecidableEq, Repr

/-- A request that a port has admitted and translated: its agent number, its PID, its parts in HBM, and the ticks it has seen. -/
structure Inbound where
  agent : Nat
  pid : Nat
  parts : List (Nat × Nat)
  op : InOp
  src : InSrc
  age : Nat
  deriving DecidableEq, Repr

/-- What the last command sent to something outside the package: a tag, a status, data and poison (a field of the model,
log entry 17). -/
structure Reply where
  tag : Nat
  status : Nat
  bytes : List Byte
  poison : Bool
  deriving DecidableEq, Repr

/-! ### Mocor links, guest ports and fabric books (R257 to R311) -/

/-- The Mocor link of a die and its readmission. -/
structure DieLink where
  hub : LinkEnd
  die : LinkEnd
  /-- Ticks since the pause began, none when the link is not paused (R285). -/
  paused : Option Nat
  stalled : Bool
  /-- The link was stalled or paused at some point of the frame; a HEART arrived in it (R287). -/
  disturbed : Bool
  beat : Bool
  /-- A READMIT ended OK; an ADMIT is accepted; the rail is to go off; the steward sent a READMIT (R296, R419). -/
  ready : Bool
  admitted : Bool
  railOff : Bool
  deriving DecidableEq, Repr

/-- A link that is down. -/
def DieLink.reset : DieLink :=
  { hub := LinkEnd.reset, die := LinkEnd.reset, paused := none, stalled := false, disturbed := false, beat := false,
    ready := false, admitted := false, railOff := false }

/-- A guest port beside its pages (R301 to R311). -/
structure Guest where
  /-- Ticks since a UCIe link loss; none while the link is up (R309). -/
  loss : Option Nat
  /-- The CAPACK of the guest; the agreed block before the fence (R304, R310). -/
  ack : Option Word
  before : Word
  /-- Lanes and GT/s that training reached; the port retrains at the agreed ones (R304). -/
  width : Nat
  rate : Nat
  retrain : Bool
  deriving DecidableEq, Repr

/-- A guest port after reset. -/
def Guest.reset : Guest := { loss := none, ack := none, before := 0, width := 0, rate := 0, retrain := false }

/-- A credit book that is not at rest (R269): how many of its G credits the sender does not hold, the credit returns on
the wires, H + R + O less G as latched for a census (R270), the input its output last granted (R265), and the messages
that a Mocor flit brought and whose command is still to come (R281). -/
structure Book where
  spent : Int
  rets : Nat
  mark : Option Int
  last : Nat
  raw : Nat
  deriving DecidableEq, Repr

/-- A book at rest. -/
def Book.rest : Book := { spent := 0, rets := 0, mark := none, last := 0, raw := 0 }

/-- The networks' credit books (R269 to R272). -/
structure Fabric where
  /-- By page × 65,536 + identifier. -/
  books : Tbl Book
  /-- Books censused by the audit that runs, and the pages whose audit overran the frame before (R270, R72). -/
  seen : List (Nat × Nat)
  carry : List Nat
  /-- Unbalanced books of the frame just running, and those the steward repairs at this tick. -/
  bad : List (Nat × Nat)
  due : List (Nat × Nat)
  /-- Books under repair and the frames since it started. -/
  repairs : List (Nat × Nat × Nat)
  /-- Books censused and unbalanced in the frame, by page. -/
  counts : Tbl (Nat × Nat)
  /-- LOSTSET[CREDIT], and whether a repair was in progress at the start of the frame. -/
  lost : Bool
  atStart : Bool
  deriving DecidableEq, Repr

/-- Balanced books. -/
def Fabric.reset : Fabric :=
  { books := [], seen := [], carry := [], bad := [], due := [], repairs := [], counts := [], lost := false, atStart := false }

/-! ### Ledger store (R337 to R367) -/

/-- A sector that was written: its plaintext, the stack that holds it, and whether it reads MEDIA_ERROR until it is
replaced (R339). -/
structure LSector where
  bytes : List Byte
  stack : Nat
  /-- Number of the physical sector on its stack (R338). -/
  phys : Nat
  bad : Bool
  deriving DecidableEq, Repr

/-- A namespace (R340): owner, capacity, label, mirror fields, the highest commit sequence applied, the highest source
sequence applied to each atomic unit (R360), and its sectors. -/
structure LedgerNs where
  pid : Nat
  cap : Nat
  label : List Byte
  mode : Nat
  peer : Nat
  peerNs : Nat
  seq : Nat
  applied : Tbl Nat
  sectors : Tbl (Option LSector)
  deriving DecidableEq, Repr

/-- A queue pair (R342, R347): state 0 DISABLED, 1 ACTIVE, 2 RESETTING, 3 HALTED with a cause of R362. -/
structure QueuePair where
  st : Nat
  pid : Nat
  prio : Bool
  sizeLog : Nat
  inten : Bool
  intid : Nat
  lc : Nat
  sq : Nat
  cq : Nat
  sqt : Nat
  sqh : Nat
  cqt : Nat
  cqh : Nat
  phase : Bool
  cause : Nat
  /-- It is deleted once its commands have completed (R364). -/
  dying : Bool
  deriving DecidableEq, Repr

/-- A queue pair that is not created. -/
def QueuePair.reset : QueuePair :=
  { st := 0, pid := 0, prio := false, sizeLog := 0, inten := false, intid := 0, lc := 0, sq := 0, cq := 0, sqt := 0,
    sqh := 0, cqt := 0, cqh := 0, phase := true, cause := 0, dying := false }

/-- A command in its slot (R344). -/
structure LedgerCmd where
  qp : Nat
  /-- Place in the order of fetches (R351). -/
  ord : Nat
  ent : List Word
  sqhead : Nat
  frame : Nat
  /-- STATUS and RESULT once the command has ended. -/
  fin : Option (Nat × Nat)
  /-- The data of a write, buffered; the stack it was admitted to; its class is UNIT (R355, R356); sectors committed of a
  SECTOR write. -/
  buf : Option (List Byte)
  adm : Option Nat
  unit : Bool
  made : Nat
  /-- The local commit sequence of a mirrored write and the ticks it has waited for MACK (R360). -/
  mirror : Option (Nat × Nat)
  deriving DecidableEq, Repr

/-- The ledger store. The namespaces, the highest recorded commit sequence and the record of the last power failure
(FINISHED, ROLLED, frame) lie on the stacks and outlive power, and so does the mark that PF_HOLD was entered since the last
recovery. -/
structure Ledger where
  ns : Tbl (Option LedgerNs)
  seqMax : Nat
  pf : Nat × Nat × Nat
  pfHeld : Bool
  qps : Tbl QueuePair
  slots : Tbl (Option LedgerCmd)
  ord : Nat
  /-- The queue pair served last in each priority class (R344). -/
  last0 : Nat
  last1 : Nat
  /-- The last 64 completions with a STATUS other than SUCCESS (R353). -/
  fails : List (List Byte)
  deriving DecidableEq, Repr

/-- A ledger store with no namespace. -/
def Ledger.reset : Ledger :=
  { ns := [], seqMax := 0, pf := (0, 0, 0), pfHeld := false, qps := [], slots := [], ord := 0, last0 := 255, last1 := 255, fails := [] }

/-! ### Cipher engines (R368 to R390) -/

/-- The descriptor that an engine has fetched for a slot: its quads, and STATUS and UNTRUSTED once it has ended. -/
structure CipherMsg where
  ent : List Word
  fin : Option (Nat × Bool)
  deriving DecidableEq, Repr

/-- The save area of a slot: the running state of its message (R368, R385). The AAD and the input carried out so far give the
counter or chaining value, the partial hash and the byte position; `wrote` tells that output was written. -/
structure CipherSave where
  aad : List Byte
  inp : List Byte
  wrote : Bool
  deriving DecidableEq, Repr

/-- A context slot (R368, R386): state 0 DISABLED, 1 ACTIVE, 2 HALTED with its cause. -/
structure CipherSlot where
  st : Nat
  cause : Nat
  head : Nat
  tail : Nat
  /-- The key, its kind coded as KLEN (0 none), software-keyed, USE, and the label last derived (R383). -/
  key : List Byte
  kind : Nat
  swk : Bool
  use : Nat
  label : Option (List Byte)
  msg : Option CipherMsg
  susp : Bool
  save : Option CipherSave
  /-- USE at the last tick, and the encrypting operations started since (R384). -/
  base : Nat
  started : Nat
  deriving DecidableEq, Repr

/-- A slot after reset. -/
def CipherSlot.reset : CipherSlot :=
  { st := 0, cause := 0, head := 0, tail := 0, key := [], kind := 0, swk := false, use := 0, label := none, msg := none,
    susp := false, save := none, base := 0, started := 0 }

/-- An engine: the slot whose message runs, urgent descriptors completed since a suspension, and the slots started last in
the classes urgent and not urgent (R385). -/
structure CipherEng where
  running : Option Nat
  urgent : Nat
  last1 : Nat
  last0 : Nat
  deriving DecidableEq, Repr

/-- An idle engine. -/
def CipherEng.reset : CipherEng := { running := none, urgent := 0, last1 := 15, last0 := 15 }

/-- The cipher engines: slots by engine × 16 + slot, engines, and HCE1's cache of namespace keys: slot and NSID, most
recently used first (R375). -/
structure Ciphers where
  slots : Tbl CipherSlot
  engs : Tbl CipherEng
  nsKeys : List (Nat × Nat)
  deriving DecidableEq, Repr

/-- Engines after reset. -/
def Ciphers.reset : Ciphers := { slots := [], engs := [], nsKeys := [] }

/-! ### Service endpoint (R437 to R459) -/

/-- The PCIe function of SE beside its page. -/
structure SvcEp where
  /-- Writable configuration registers by dword number (R438, R439). -/
  cfg : Tbl (BitVec 32)
  /-- The last INTA message sent was Assert_INTA (R449). -/
  inta : Bool
  /-- The function is in D3cold; SVC_WAKE_N is driven low and PM_PME is due (R450, R451). -/
  cold : Bool
  wakeN : Bool
  /-- A Function Level Reset is in progress (R453). -/
  flr : Bool
  /-- SEQ of the last event record copied to the ring or not due for it; the ring was found full (R454). -/
  evrSeq : Nat
  evrFull : Bool
  /-- FRAMENUM bits 47:32 as latched by the last read of FRAMELO (R440). -/
  framehi : Nat
  /-- The steward load area behind BAR2, by byte offset (R443). -/
  load : List Host.Cell
  deriving DecidableEq, Repr

/-- The function after reset. -/
def SvcEp.reset : SvcEp :=
  { cfg := [], inta := false, cold := false, wakeN := false, flr := false, evrSeq := 0, evrFull := false, framehi := 0,
    load := [] }

/-! ### Hub DMA (R493 to R500) -/

/-- A hub DMA channel beside its page: an immediate FILL runs; the quads of the descriptor that runs, and its STATUS once
its operation has ended. -/
structure DmaChan where
  fill : Bool
  desc : Option (List Word)
  fin : Option Nat
  /-- DMACFG and DMARING when the running FILL or descriptor was started (R44). -/
  cfg : Word
  ring : Word
  deriving DecidableEq, Repr

/-- An idle channel. -/
def DmaChan.reset : DmaChan := { fill := false, desc := none, fin := none, cfg := 0, ring := 0 }

/-- An event that the steward logs at the next tick: code, origin, logical core, page, DETAIL. -/
abbrev LogReq := Nat × Nat × Option Nat × Nat × Word

/-- The package: everything but the command queue and the mode. -/
structure Pkg where
  /-- CHAIN_HEAD strap, populated guest sites, pins (R1, R546; log entry 3). -/
  head : Bool
  populated : Nat
  pages : Tbl Page
  fr : FrameGen
  stw : Steward
  /-- DIESTAT codes (R62). -/
  dieSt : Tbl Nat
  cores : Tbl Core
  units : Tbl PhysUnit
  /-- L1I, L1D, L2 and L3 arrays by cache number. -/
  caches : Tbl Cache
  coh : Coh
  hbm : Hbm
  pw : Power
  boot : Boot
  chain : Chain
  pcie : Tbl Pcie
  out : Option Reply
  /-- Requests that the ports have taken and that wait for a home, in the order taken (log entry 144). -/
  inq : List Inbound
  links : Tbl DieLink
  guests : Tbl Guest
  fabric : Fabric
  ledger : Ledger
  ce : Ciphers
  dma : Tbl DmaChan
  se : SvcEp
  /-- Events to be logged at the next tick (R295 step 5). -/
  tickLog : List LogReq
  /-- The counter that free values are drawn with (log entry 1). -/
  fresh : Nat
  deriving DecidableEq, Repr

/-! ### Outcomes -/

/-- Faults: no command of this block ends in one. Every error that the manual describes is an effect on the state, and
the manual gives every command of the table an effect. -/
inductive Fault where
  deriving DecidableEq, Repr

/-- Refusals. -/
inductive Refusal where
  /-- Raised by `exec` for a command that has no meaning yet. Safe. -/
  | notModelled (mnemonic : String)
  /-- Raised by the rows of Pelmund instructions when the delivered bytes are not an instruction of that row: the command
  does not say what the hardware executes. Safe. -/
  | illFormed (mnemonic : String)
  deriving DecidableEq, Repr

/-- The state of the block. -/
structure State where
  /-- Commands that are waiting, first in, first out. -/
  pending : List Instr
  mode : ModeState
  pkg : Pkg
  deriving DecidableEq, Repr

/-! ### Reset -/

/-- The mode right after the service island left reset: SERVICE (R55, R58). -/
def ModeState.reset : ModeState :=
  { mode := .service, ret := none, origin := 0, forced := false, pcs := false, wake := 0, entfrm := 0,
    trans := none, drain := none, lostAtEntry := 0 }

/-- The frame generator in frame 0 (R64, R65). -/
def FrameGen.reset : FrameGen :=
  { num := 0, ticks := 0, slips := 0, pherr := 0, state := 0, ofs := 0, seedUsed := false, outside := 0, aligned := false }

/-- No line is cached, no message is in flight. -/
def Coh.reset : Coh :=
  { dirs := [], dies := [], txns := [], confq := [], reqs := [], net := [], answers := [], wb := [], wbWait := [],
    sweeps := [], dcsLines := [], audit := [], purge := [], drains := [], quarantine := [] }

/-- HBM with nothing listed. -/
def Hbm.reset : Hbm := { mem := [], lines := [], ctl := [] }

/-- The steward in its ROM loader (R457, R485). -/
def Steward.reset : Steward :=
  { cmap := [], spare := [], lcpid := [], assigns := [], parts := [], events := [], evSeq := 0, mcs := [], mcSeq := 0,
    attnq := [], attnOvf := false, attnNew := false, modeCmd := none, pcsRaised := false, wakeMatch := none,
    autoReadmit := [], fences := [], tokenFails := 0, rotTick := 0, rotWait := [], rotNoted := [], moved := [], held := [], overruns := [],
    ripe := [], expsig := none, image := false, imageVer := 0, running := false, latches := [], lastEdge := none, chainSeen := [], chainPend := [],
    armAll := false, mapBuilt := false }

/-- The package right after reset, with the CHAIN_HEAD strap and the populated guest sites of the part. -/
def Pkg.reset (head : Bool) (populated fresh : Nat) : Pkg :=
  { head := head, populated := populated, pages := [], fr := FrameGen.reset, stw := Steward.reset, dieSt := [], cores := [],
    units := [], caches := [], coh := Coh.reset, hbm := Hbm.reset, pw := { Power.off with island := true, perst := true },
    boot := Boot.idle, chain := Chain.reset, pcie := [], out := none, inq := [], links := [], guests := [], fabric := Fabric.reset,
    ledger := Ledger.reset, ce := Ciphers.reset, dma := [], se := SvcEp.reset,
    tickLog := [], fresh := fresh }

/-- The machine right after reset: service-island power good and PKG_RESET_N high, SERVICE at frame 0 (R55, R64). The
strap and the populated sites are DESIGN CHOICE values (log entry 3), and so is the counter of free values (log entry 1). -/
def State.reset : State := { pending := [], mode := ModeState.reset, pkg := Pkg.reset true 3 0 }

end Sys2Proof.Machine
end

