-- ==== Sys2Proof/Machine/Pages.lean ====
section
/-! DEFINITION. Register pages: the census, register access by offset, set events, command events, the event log and
the notification of cores. A page is named by `die code × 4096 + block number`. -/

namespace Sys2Proof.Machine

/-! ### Census (R22, R25, R565) -/

/-- The block types of R25. -/
inductive Blk where
  | dsvc | clk | dpm | telem | wdog | bist | ring | mocor | ce | cectx | l3 | reg | clu | l2 | l1d
  | steward | frame | cmap | evlog | hclk | hpwr | htel | keyv | grid | dma | mp | mc | mcr | ds | hphy
  | le | ledb | lsc | hce | dmac | pe | ch | gp | gfw | gw | se
  deriving DecidableEq, Repr

/-- BLKID[TYPE] (R25). -/
def Blk.code : Blk → Nat
  | .dsvc => 0x101 | .clk => 0x102 | .dpm => 0x103 | .telem => 0x104 | .wdog => 0x105 | .bist => 0x106
  | .ring => 0x110 | .mocor => 0x111 | .ce => 0x120 | .cectx => 0x121 | .l3 => 0x130 | .reg => 0x131
  | .clu => 0x132 | .l2 => 0x133 | .l1d => 0x134 | .steward => 0x201 | .frame => 0x202 | .cmap => 0x203
  | .evlog => 0x204 | .hclk => 0x205 | .hpwr => 0x206 | .htel => 0x207 | .keyv => 0x208 | .grid => 0x210
  | .dma => 0x250 | .mp => 0x211 | .mc => 0x220 | .mcr => 0x221 | .ds => 0x222 | .hphy => 0x223 | .le => 0x230
  | .ledb => 0x231 | .lsc => 0x232 | .hce => 0x240 | .dmac => 0x251 | .pe => 0x260 | .ch => 0x261 | .gp => 0x262
  | .gfw => 0x263 | .gw => 0x264 | .se => 0x270

/-- BLKCAP[CFG] (R565). -/
def Blk.hasCfg : Blk → Bool
  | .dpm | .telem | .wdog | .ring | .ce | .l3 | .l2 | .steward | .frame | .hpwr | .htel | .grid | .dma | .mp | .mc
  | .ds | .hphy | .le | .hce | .dmac | .pe | .ch | .gp | .gfw => true
  | _ => false

/-- BLKCAP[IMM] (R565). -/
def Blk.hasImm : Blk → Bool
  | .dpm | .bist | .ce | .cectx | .steward | .evlog | .hpwr | .keyv | .mp | .mc | .mcr | .ds | .hphy | .le | .ledb
  | .hce | .dmac | .pe | .ch | .gp | .gw | .se => true
  | _ => false

/-- BLKCAP[MISR] (R565): every page outside the service island. -/
def Blk.hasMisr : Blk → Bool
  | .steward | .frame | .cmap | .evlog | .hclk | .hpwr | .htel | .keyv | .se => false
  | _ => true

/-- The page of a die at a block number. -/
def pgDie (d b : Nat) : Nat := d * 4096 + b

/-- The hub page at a block number. -/
def pgHub (b : Nat) : Nat := 12 * 4096 + b

/-- The page that a PageId names. -/
def pgOf (p : PageId) : Nat := p.die.val * 4096 + p.block.val

/-- The blocks of a compute die: (first block number, pages, type) (R25). -/
def dieBlocks : List (Nat × Nat × Blk) :=
  [(0x000, 1, .dsvc), (0x001, 1, .clk), (0x002, 1, .dpm), (0x003, 1, .telem), (0x004, 1, .wdog), (0x005, 1, .bist),
   (0x008, 1, .ring), (0x010, 1, .mocor), (0x018, 1, .ce), (0x019, 1, .cectx), (0x020, 2, .l3), (0x024, 2, .reg),
   (0x028, 4, .clu), (0x030, 4, .l2), (0x040, 20, .l1d)]

/-- The blocks of the hub (R25). -/
def hubBlocks : List (Nat × Nat × Blk) :=
  [(0x000, 1, .steward), (0x001, 1, .frame), (0x002, 1, .cmap), (0x003, 1, .evlog), (0x004, 1, .hclk),
   (0x005, 1, .hpwr), (0x006, 1, .htel), (0x007, 1, .keyv), (0x008, 1, .grid), (0x009, 1, .dma), (0x010, 12, .mp),
   (0x020, 16, .mc), (0x030, 16, .mcr), (0x040, 16, .ds), (0x050, 8, .hphy), (0x060, 1, .le), (0x061, 4, .ledb),
   (0x068, 2, .lsc), (0x06C, 2, .hce), (0x070, 16, .dmac), (0x080, 6, .pe), (0x088, 2, .ch), (0x090, 2, .gp),
   (0x092, 2, .gfw), (0x094, 2, .gw), (0x0A0, 1, .se)]

/-- The block type and instance of a page, none when no block implements it. -/
def blkOf (pg : Nat) : Option (Blk × Nat) :=
  let die := pg / 4096
  let b := pg % 4096
  let look := fun (t : List (Nat × Nat × Blk)) =>
    (t.find? (fun e => decide (e.1 ≤ b ∧ b < e.1 + e.2.1))).map (fun e => (e.2.2, b - e.1))
  if die < 12 then look dieBlocks else if die = 12 then look hubBlocks else none

/-- Every page of the package, in ascending order of die code and block number. -/
def allPages : List Nat :=
  let expand := fun (t : List (Nat × Nat × Blk)) (base : Nat) =>
    t.flatMap (fun e => (List.range e.2.1).map (fun i => base + e.1 + i))
  (List.range 12).flatMap (fun d => expand dieBlocks (d * 4096)) ++ expand hubBlocks (12 * 4096)

def pgDSVC (d : Nat) : Nat := pgDie d 0x000
def pgCLK (d : Nat) : Nat := pgDie d 0x001
def pgDPM (d : Nat) : Nat := pgDie d 0x002
def pgTELEM (d : Nat) : Nat := pgDie d 0x003
def pgWDOG (d : Nat) : Nat := pgDie d 0x004
def pgBIST (d : Nat) : Nat := pgDie d 0x005
def pgRING (d : Nat) : Nat := pgDie d 0x008
def pgMOCOR (d : Nat) : Nat := pgDie d 0x010
def pgCE (d : Nat) : Nat := pgDie d 0x018
def pgCECTX (d : Nat) : Nat := pgDie d 0x019
def pgL3 (d r : Nat) : Nat := pgDie d (0x020 + r)
def pgREG (d r : Nat) : Nat := pgDie d (0x024 + r)
def pgCLU (d k : Nat) : Nat := pgDie d (0x028 + k)
def pgL2 (d k : Nat) : Nat := pgDie d (0x030 + k)
def pgL1D (d i : Nat) : Nat := pgDie d (0x040 + i)
def pgSTW : Nat := pgHub 0x000
def pgFRAME : Nat := pgHub 0x001
def pgCMAP : Nat := pgHub 0x002
def pgEVLOG : Nat := pgHub 0x003
def pgHCLK : Nat := pgHub 0x004
def pgHPWR : Nat := pgHub 0x005
def pgHTEL : Nat := pgHub 0x006
def pgKEYV : Nat := pgHub 0x007
def pgGRID : Nat := pgHub 0x008
def pgDMA : Nat := pgHub 0x009
def pgMP (n : Nat) : Nat := pgHub (0x010 + n)
def pgMC (n : Nat) : Nat := pgHub (0x020 + n)
def pgMCR (n : Nat) : Nat := pgHub (0x030 + n)
def pgDS (n : Nat) : Nat := pgHub (0x040 + n)
def pgHPHY (n : Nat) : Nat := pgHub (0x050 + n)
def pgLE : Nat := pgHub 0x060
def pgLEDB (n : Nat) : Nat := pgHub (0x061 + n)
def pgLSC (n : Nat) : Nat := pgHub (0x068 + n)
def pgHCE (n : Nat) : Nat := pgHub (0x06C + n)
def pgDMAC (n : Nat) : Nat := pgHub (0x070 + n)
def pgPE (n : Nat) : Nat := pgHub (0x080 + n)
def pgCH (down : Bool) : Nat := pgHub (0x088 + down.toNat)
def pgGP (n : Nat) : Nat := pgHub (0x090 + n)
def pgGFW (n : Nat) : Nat := pgHub (0x092 + n)
def pgGW (n : Nat) : Nat := pgHub (0x094 + n)
def pgSE : Nat := pgHub 0x0A0

/-! ### Registers by offset -/

/-- The reset value of a stored register (the Reset columns; EN of the blocks whose chapter gives no reset value is
DESIGN CHOICE 1, log entry 6). -/
def regReset (pg off : Nat) : Word :=
  match blkOf pg with
  | none => 0
  | some (b, _) =>
    if off = 0x018 then 1
    else if off = 0x020 then (if b.hasCfg then 0 else 0x100)
    else if off = 0x048 then 1
    else match b with
      | .ds => if off = 0x200 then BitVec.ofNat 64 (524288 * 2 ^ 40) else 0
      | .mcr => if off = 0x200 then BitVec.ofNat 64 (256 * 2 ^ 48) else 0
      | .mocor | .mp => if off = 0x200 then 0xF000 else 0
      | .ch => if off = 0x200 then 0x3000 else 0
      | .se => if off = 0x210 then 0x100 else 0
      | .hclk => if off = 0x200 then 2 else 0
      | _ => 0

/-- BLKVER of a page of a block type (R30). -/
def blkver (b : Blk) : Word := word [(16, 0x4B12), (8, Config.stepping.toNat), (0, (Config.layout b.code).toNat)]

/-- The page at an address. -/
def Pkg.page (p : Pkg) (pg : Nat) : Page := tblGet (fun _ => Page.reset) p.pages pg

/-- Write a page. -/
def Pkg.setPage (p : Pkg) (pg : Nat) (x : Page) : Pkg :=
  { p with pages := tblSet (fun _ => Page.reset) p.pages pg x }

/-- A stored register of a page. -/
def Pkg.reg (p : Pkg) (pg off : Nat) : Word := tblGet (regReset pg) (p.page pg).regs off

/-- Write a stored register of a page. -/
def Pkg.setReg (p : Pkg) (pg off : Nat) (v : Word) : Pkg :=
  let x := p.page pg
  p.setPage pg { x with regs := tblSet (regReset pg) x.regs off v }

/-- A field of a stored register. -/
def Pkg.rf (p : Pkg) (pg off hi lo : Nat) : Nat := fld (p.reg pg off) hi lo

/-- Write a field of a stored register. -/
def Pkg.setRf (p : Pkg) (pg off hi lo v : Nat) : Pkg := p.setReg pg off (setFld (p.reg pg off) hi lo v)

/-- Add to a counter field, saturating at its largest value. -/
def Pkg.addRf (p : Pkg) (pg off hi lo k : Nat) : Pkg :=
  p.setRf pg off hi lo (satInc (hi + 1 - lo) (p.rf pg off hi lo) k)

/-- A quad of the live configuration (R42); `off` is its offset in copy A. 0 before the first adoption. -/
def Pkg.cfg (p : Pkg) (pg off : Nat) : Word :=
  match (p.page pg).live with
  | none => 0
  | some t => tblGet (fun _ => 0) t ((off - 0x400) / 8)

/-- A field of the live configuration. -/
def Pkg.cf (p : Pkg) (pg off hi lo : Nat) : Nat := fld (p.cfg pg off) hi lo

/-- BLKSTAT[STATE] (R32). -/
def Pkg.blkState (p : Pkg) (pg : Nat) : Nat := p.rf pg 0x020 15 8

/-- BLKSTAT[BUSY]. -/
def Pkg.busy (p : Pkg) (pg : Nat) : Bool := bit (p.reg pg 0x020) 4

/-- The page is in LOAD_HOLD (R45). -/
def Pkg.loadHold (p : Pkg) (pg : Nat) : Bool := p.blkState pg == 0

/-- BLKCTL[EN]. -/
def Pkg.en (p : Pkg) (pg : Nat) : Bool := bit (p.reg pg 0x018) 0

/-! ### Die and hub counters (R519, R520) -/

/-- Occurrences of an event in block `inst`, carried by PID `pid`; `net` is the network of a message, 4 for none. The
counters of CDn.TELEM, or with no die those of HD.HTEL, that select it advance by `k`. -/
def Pkg.evCount (p : Pkg) (die : Option Nat) (ev inst : Nat) (pid : Option Nat) (net k : Nat) : Pkg :=
  let (pg, off, n) := match die with
    | some d => (pgTELEM d, 0x240, 8)
    | none => (pgHTEL, 0x280, 16)
  match (p.page pg).live with
  | none => p
  | some _ =>
    (List.range n).foldl (fun p i =>
      let w := p.cfg pg (0x400 + 8 * i)
      let mask := fld w 51 48
      if bit w 63 ∧ fld w 7 0 = ev ∧ (bit w 47 ∨ fld w 46 43 = inst) ∧
          (!bit w 62 ∨ pid = some (fld w 61 55)) ∧ (net = 4 ∨ mask = 0 ∨ mask / 2 ^ net % 2 = 1) then
        p.setReg pg (off + 8 * i) (p.reg pg (off + 8 * i) + BitVec.ofNat 64 k)
      else p) p

/-! ### Reach (R22, R25, R415) -/

/-- The power domain of a page is powered (R415). A die is powered while its rail is. -/
def Pkg.powered (p : Pkg) (pg : Nat) : Bool :=
  match blkOf pg with
  | none => false
  | some (b, _) =>
    if pg < 49152 then tblGet (fun _ => 0) p.pw.rails (pg / 4096) == 2
    else match b with
      | .steward | .frame | .cmap | .evlog | .hclk | .hpwr | .htel | .keyv | .se => p.pw.island
      | _ => p.pw.hubMain

/-- A self-test of the die runs (R538). -/
def Pkg.dieTesting (p : Pkg) (d : Nat) : Bool := let t := p.rf (pgBIST d) 0x200 3 0; t == 1 || t == 2

/-- The die has been trained and is not fenced (R490); a die in step 4 of READMIT is reached over its trained link (R296). -/
def Pkg.dieTrained (p : Pkg) (d : Nat) : Bool :=
  let st := tblGet (fun _ => 0) p.dieSt d
  let link := p.rf (pgMP d) 0x200 3 0
  decide (1 ≤ st ∧ st ≤ 3) || decide (st = 0 ∧ 2 ≤ link ∧ link ≤ 4)

/-- The page answers accesses: it is powered, and its die has been trained and is not fenced (R22, R490); while a test runs
only the BIST page of the die does (R538). -/
def Pkg.answers (p : Pkg) (pg : Nat) : Bool :=
  let d := pg / 4096
  p.powered pg && (decide (49152 ≤ pg) || (p.dieTrained d && (!p.dieTesting d || pg == pgBIST d)))

/-- The Reach column of R25 admits M. -/
def Blk.reachM : Blk → Bool
  | .bist | .reg | .cmap | .hclk | .keyv | .hphy | .lsc | .ch | .se => false
  | _ => true

/-- The requester may access the page (R25). U and S reach only the pages with T, whose own checks decide further. HD.CMAP is
reached through BAR0 alone (R16). -/
def Pkg.reaches (p : Pkg) (who : Requester) (pg : Nat) : Bool :=
  p.answers pg &&
  match blkOf pg with
  | none => false
  | some (b, i) =>
    match who with
    | .host => true
    | .steward => b != .cmap
    | .core lc =>
      if fld (tblGet (fun _ => Core.reset) p.cores lc.val).psw 17 16 = 2 then b.reachM
      else b == .cectx || b == .ledb || (b == .hce && i == 0)
    | .guest n => b == .gw && i == n.val
    | .agent _ => false

/-- The requester may issue the commands of a page that U and S do not reach. -/
def Pkg.commands (p : Pkg) (who : Requester) (pg : Nat) : Bool :=
  p.reaches who pg &&
  match who with
  | .core lc => fld (tblGet (fun _ => Core.reset) p.cores lc.val).psw 17 16 == 2
  | .guest _ => false
  | _ => true

/-- Record what is sent to something outside. -/
def Pkg.reply (p : Pkg) (tag status : Nat) (bytes : List Byte) (poison : Bool) : Pkg :=
  { p with out := some { tag := tag, status := status, bytes := bytes, poison := poison } }

/-! ### Free values -/

/-- The next free value of `w` bits (log entry 1). -/
def Pkg.free (p : Pkg) (w : Nat) : BitVec w × Pkg :=
  (Config.freeBits w p.fresh, { p with fresh := p.fresh + 1 })

/-- `n` free bytes. -/
def Pkg.freeBytes (p : Pkg) (n : Nat) : List Byte × Pkg :=
  ((List.range n).map (fun i => Config.freeBits 8 (p.fresh + i)), { p with fresh := p.fresh + n })

/-! ### Cores, units and the core map -/

def Pkg.core (p : Pkg) (lc : Nat) : Core := tblGet (fun _ => Core.reset) p.cores lc
def Pkg.setCore (p : Pkg) (lc : Nat) (c : Core) : Pkg := { p with cores := tblSet (fun _ => Core.reset) p.cores lc c }

/-- A physical unit, by die × 20 + unit index. -/
def Pkg.unit (p : Pkg) (u : Nat) : PhysUnit := tblGet (fun _ => PhysUnit.reset) p.units u
def Pkg.setUnit (p : Pkg) (u : Nat) (x : PhysUnit) : Pkg :=
  { p with units := tblSet (fun _ => PhysUnit.reset) p.units u x }

/-- Core-map entry of an LC (R14), and its STATE: 0 UNSET, 1 MAPPED, 2 VACANT, 3 FENCED. -/
def Pkg.cmapEnt (p : Pkg) (lc : Nat) : Nat := tblGet (fun _ => 0) p.stw.cmap lc
def Pkg.cmapSt (p : Pkg) (lc : Nat) : Nat := p.cmapEnt lc / 0x4000
def Pkg.mapped (p : Pkg) (lc : Nat) : Bool := p.cmapSt lc == 1
def Pkg.setCmap (p : Pkg) (lc st phys : Nat) : Pkg :=
  { p with stw := { p.stw with cmap := tblSet (fun _ => 0) p.stw.cmap lc (st * 0x4000 + phys) } }

/-- Spare entry of region 2d + r (R15): STATE 0 UNSET, 1 READY, 2 BIST, 3 FAILED. -/
def Pkg.spareEnt (p : Pkg) (s : Nat) : Nat := tblGet (fun _ => 0) p.stw.spare s
def Pkg.setSpare (p : Pkg) (s st phys : Nat) : Pkg :=
  { p with stw := { p.stw with spare := tblSet (fun _ => 0) p.stw.spare s (st * 0x4000 + phys) } }

/-- Physical identifier of unit index `i` of die `d` (R7), and back. -/
def physId (d i : Nat) : Nat := d * 32 + i / 10 * 16 + i % 10 / 5 * 8 + i % 5
def physDie (ph : Nat) : Nat := ph / 32 % 16
def physIdx (ph : Nat) : Nat := ph / 16 % 2 * 10 + ph / 8 % 2 * 5 + ph % 8
/-- The identifier names a unit (R8). -/
def physOk (ph : Nat) : Bool := decide (ph < 512 ∧ physDie ph < 12 ∧ ph % 8 < 5)

/-- The die of an LC (R9). -/
def lcDie (lc : Nat) : Nat := lc / 18

/-- The unit (die × 20 + index) that runs an LC. -/
def Pkg.unitOf (p : Pkg) (lc : Nat) : Nat :=
  let ph := p.cmapEnt lc % 512
  physDie ph * 20 + physIdx ph

/-- LCPID entry (R400): 0x80 NONE. -/
def Pkg.lcpid (p : Pkg) (lc : Nat) : Nat := tblGet (fun _ => 0x80) p.stw.lcpid lc
def Pkg.setLcpid (p : Pkg) (lc v : Nat) : Pkg :=
  { p with stw := { p.stw with lcpid := tblSet (fun _ => 0x80) p.stw.lcpid lc v } }

/-- The partition an LC belongs to. -/
def Pkg.pidOf (p : Pkg) (lc : Nat) : Option Nat := if p.lcpid lc < 128 then some (p.lcpid lc) else none

def Pkg.part (p : Pkg) (pid : Nat) : Partition := tblGet (fun _ => Partition.reset) p.stw.parts pid
def Pkg.setPart (p : Pkg) (pid : Nat) (x : Partition) : Pkg :=
  { p with stw := { p.stw with parts := tblSet (fun _ => Partition.reset) p.stw.parts pid x } }

/-- DIESTAT code of a die (R62): 0 D-OFF, 1 D-IDLE, 2 D-RUN, 3 D-DRIZZLE, 4 D-FENCED. -/
def Pkg.dieState (p : Pkg) (d : Nat) : Nat := tblGet (fun _ => 0) p.dieSt d
def Pkg.setDieState (p : Pkg) (d v : Nat) : Pkg := { p with dieSt := tblSet (fun _ => 0) p.dieSt d v }
def Pkg.dieFenced (p : Pkg) (d : Nat) : Bool := p.dieState d == 4
/-- The die is powered and not fenced. -/
def Pkg.dieUp (p : Pkg) (d : Nat) : Bool := decide (d < 12) && p.dieState d != 0 && p.dieState d != 4

/-- The present frame number. -/
def Pkg.frameNum (p : Pkg) : Nat := p.fr.num.toNat

/-- K of DRZCFG. -/
def Pkg.wakeEvery (p : Pkg) : Nat := let k := p.cf pgHPWR 0x408 15 0; if k = 0 then 125 else k

/-- A frame is a wake frame: F0 + mK (R426). -/
def Pkg.isWake (p : Pkg) (f : Nat) : Bool :=
  let n := (f + 2 ^ 48 - p.pw.f0) % 2 ^ 48
  n != 0 && n % p.wakeEvery == 0

/-- An activity of R69 runs in the modes its table names, in DRIZZLE in the wake frames alone. -/
def Pkg.quotaOn (p : Pkg) (md : Mode) (f : Nat) (modes : List Mode) : Bool :=
  modes.contains md && (md != .drizzle || p.isWake f)

/-! ### Interrupts (R102) -/

/-- Latch a wake source for the next wake frame (R427). -/
def Pkg.wakeLatch (p : Pkg) (code : Nat) : Pkg :=
  if p.pw.latched.contains code then p else { p with pw := { p.pw with latched := code :: p.pw.latched } }

/-- Set an interrupt identifier pending; below 0x10 nothing is set, and a repeat is not counted. -/
def Pkg.setPending (p : Pkg) (lc intid : Nat) : Pkg :=
  if intid < 0x10 ∨ 256 ≤ intid ∨ 216 ≤ lc then p
  else
    let c := p.core lc
    (p.setCore lc { c with pend := c.pend ||| BitVec.ofNat 256 (2 ^ intid) }).wakeLatch 5

/-- Set an identifier pending for a partition: only on a MAPPED core that the partition owns (R306, R346). The flag tells
whether it was delivered. -/
def Pkg.notify (p : Pkg) (lc pid intid : Nat) : Bool × Pkg :=
  if 0x10 ≤ intid ∧ lc < 216 ∧ p.mapped lc ∧ p.lcpid lc = pid then (true, p.setPending lc intid) else (false, p)

/-! ### Set events (R35, R526, R528) -/

/-- Recompute the page interrupt; a rise from 0 to 1 appends the page to ATTNQ unless it is there (R528). -/
def Pkg.refreshIrq (p : Pkg) (pg : Nat) : Pkg :=
  let lvl := (p.reg pg 0x028 &&& p.reg pg 0x040) != 0
  let x := p.page pg
  if lvl = x.raised then p
  else
    let p := p.setPage pg { x with raised := lvl }
    if !lvl then p
    else if p.stw.attnq.contains pg then p
    else if 64 ≤ p.stw.attnq.length then { p with stw := { p.stw with attnOvf := true } }
    else { p with stw := { p.stw with attnq := p.stw.attnq ++ [pg], attnNew := true } }

/-- The details a machine-check record takes from a set event (R530). -/
structure Det where
  pids : List Nat
  lc : Option Nat
  addr : Nat
  detail : Word
  agent : Nat
  deriving DecidableEq, Repr

/-- No details; AGENT 0x3F. -/
def Det.none : Det := { pids := [], lc := Option.none, addr := 0, detail := 0, agent := 0x3F }

/-- Record an event of a page for the collection of R527. Events of one ERRSTAT bit are counted together and keep the
details of the last. -/
def Pkg.noteEv (p : Pkg) (pg b cls : Nat) (d : Det) : Pkg :=
  let x := p.page pg
  let old := (x.evs.find? (fun e => e.bit == b && decide (b < 64)))
  let n := match old with | some e => e.count + 1 | none => 1
  let pids := match old with | some e => e.pids.filter (fun q => !d.pids.contains q) | none => []
  let e : Ev := { bit := b, cls := cls, count := n, pids := (if cls = 4 then pids else []) ++ d.pids, lc := d.lc,
                  addr := d.addr, detail := d.detail, agent := d.agent }
  p.setPage pg { x with evs := x.evs.filter (fun f => !(f.bit == b && decide (b < 64))) ++ [e] }

/-- A set event of an ERRSTAT bit (R35): masked, nothing is set, counted or reported (R526). -/
def Pkg.setEvent (p : Pkg) (pg b cls : Nat) (d : Det := Det.none) : Pkg :=
  if bit (p.reg pg 0x030) b then p
  else
    let p := p.setRf pg 0x028 b b 1
    let p := p.addRf pg 0x038 31 0 1
    (p.noteEv pg b cls d).refreshIrq pg

/-! ### Command events (R32, R33, R38) -/

/-- Set LASTST and LASTCMD together. -/
def Pkg.cmdEvent (p : Pkg) (pg off st : Nat) : Pkg :=
  (p.setRf pg 0x020 3 0 st).setRf pg 0x020 27 16 off

/-- OK at once. -/
def Pkg.cmdOk (p : Pkg) (pg off : Nat) : Pkg := p.cmdEvent pg off 1

/-- Accepted and running: PENDING and BUSY. -/
def Pkg.cmdPending (p : Pkg) (pg off : Nat) : Pkg := (p.cmdEvent pg off 2).setRf pg 0x020 4 4 1

/-- Refused with WRONG_STATE: ERRSTAT[CMDSTATE] sets (class CE). -/
def Pkg.cmdWrong (p : Pkg) (pg off : Nat) : Pkg := (p.cmdEvent pg off 3).setEvent pg 0 1

def Pkg.cmdBadArg (p : Pkg) (pg off : Nat) : Pkg := p.cmdEvent pg off 4
def Pkg.cmdDenied (p : Pkg) (pg off : Nat) : Pkg := p.cmdEvent pg off 5

/-- A running command ends: BUSY returns to 0 and LASTST is `st`. -/
def Pkg.cmdDone (p : Pkg) (pg off st : Nat) : Pkg := (p.cmdEvent pg off st).setRf pg 0x020 4 4 0

/-! ### Requests that wait for a tick (R74) -/

/-- What waits for a tick before it takes effect: a recorded assignment of a core, a RESTART and a RELEASE of a partition, a
handover asked for by a unit, a due rotation of a region, an ADMIT and the rail of a die, the steward image, SNAPARM, the
building of the core map, the loading of the memory keys, a guest whose readmission agreed its block, a channel whose rows wait
for a decision, a REKEY, and a mailbox request. -/
inductive Wait where
  | assign | restart | release | spare | rotate | admission | rail | image | rearm | map | keys | guest | remap | rekey | mailbox
  deriving DecidableEq, Repr

def Wait.code : Wait → Nat
  | .assign => 0 | .restart => 1 | .release => 2 | .spare => 3 | .rotate => 4 | .admission => 5 | .rail => 6 | .image => 7
  | .rearm => 8 | .map => 9 | .keys => 10 | .guest => 11 | .remap => 12 | .rekey => 13 | .mailbox => 14

/-- A tick has found the request pending. -/
def Pkg.isRipe (p : Pkg) (k : Wait) (n : Nat) : Bool := p.stw.ripe.contains (k.code, n)

/-- A request is recorded anew, and waits for the next tick. -/
def Pkg.unripe (p : Pkg) (k : Wait) (n : Nat) : Pkg :=
  { p with stw := { p.stw with ripe := p.stw.ripe.filter (fun e => e != (k.code, n)) } }

/-! ### Chain ports (R461, R473) -/

/-- LSTATE of a chain port (R473): 0 DOWN, 1 TRAINING, 2 ACTIVE, 3 PAUSED, 4 ENDED. -/
def Pkg.chState (p : Pkg) (down : Bool) : Nat := p.rf (pgCH down) 0x200 3 0
def Pkg.chUp (p : Pkg) (down : Bool) : Bool := p.chState down == 2 || p.chState down == 3

/-- A chain port beside its page. -/
def Pkg.chPort (p : Pkg) (down : Bool) : ChPort := tblGet (fun _ => ChPort.reset) p.chain.ports down.toNat
def Pkg.setChPort (p : Pkg) (down : Bool) (x : ChPort) : Pkg :=
  { p with chain := { p.chain with ports := tblSet (fun _ => ChPort.reset) p.chain.ports down.toNat x } }

/-- The chain address of the package, its GEN, and AVALID (R473). -/
def Pkg.chainAddr (p : Pkg) : Nat := p.rf (pgCH false) 0x200 20 16
def Pkg.chainGen (p : Pkg) : Nat := p.rf (pgCH false) 0x200 39 32
def Pkg.chainValid (p : Pkg) : Bool := bit (p.reg (pgCH false) 0x200) 21

/-- The message classes of the chain, as CRDNET names them (R461, R462). -/
inductive ChClass where
  | ctrl | req | rsp | bulk
  deriving DecidableEq, Repr

def ChClass.code : ChClass → Nat
  | .ctrl => 0 | .req => 1 | .rsp => 2 | .bulk => 3

/-- The class of a message (R462). -/
def ChainBody.cls : ChainBody → ChClass
  | .enum _ | .eack | .genup | .frame _ _ | .snap _ _ => .ctrl
  | .rreq _ _ _ _ _ _ _ => .req
  | .rrsp _ _ _ | .mack _ _ => .rsp
  | .mirror _ _ _ _ _ _ => .bulk

/-- A message is sent on a chain port whose link is up: it spends a credit of its class (R281, R461, R462). -/
def Pkg.chainSend (p : Pkg) (down : Bool) (m : ChainMsg) : Pkg :=
  if !p.chUp down then p
  else
    let x := p.chPort down
    let c := m.body.cls.code
    let p := p.setChPort down { x with spent := tblSet (fun _ => 0) x.spent c (tblGet (fun _ => 0) x.spent c + 1) }
    { p with chain := { p.chain with sent := p.chain.sent ++ [(down, m)] } }

/-- A message of the package itself: WAKE is WAKEOUT of the port that sends it (R462). -/
def Pkg.chainMsg (p : Pkg) (down : Bool) (dst : Option Nat) (gen : Nat) (b : ChainBody) : Pkg :=
  p.chainSend down { dst := dst, src := p.chainAddr, gen := gen, wake := bit (p.cfg (pgCH down) 0x400) 9, body := b }

/-- A message that goes hop by hop. -/
def Pkg.chainHop (p : Pkg) (down : Bool) (b : ChainBody) : Pkg := p.chainMsg down none p.chainGen b

/-- A message of the package to package `d`, on the port that leads there (R463, R469). -/
def Pkg.chainTo (p : Pkg) (d : Nat) (b : ChainBody) : Pkg := p.chainMsg (decide (p.chainAddr < d)) (some d) p.chainGen b

/-- Forwarding runs in every mode but OFF and SERVICE (R463). -/
def Mode.forwards : Mode → Bool
  | .off | .service => false
  | _ => true

/-- A message for another package goes on towards it (R463). -/
def Pkg.chainForward (p : Pkg) (md : Mode) (m : ChainMsg) : Pkg :=
  match m.dst with
  | some d => if md.forwards && p.chainValid && d != p.chainAddr then p.chainSend (decide (p.chainAddr < d)) m else p
  | none => p

/-! ### Parts that train (R63, R489) -/

/-- The number of a part in `Boot`: chain ports, Mocor links, stacks, guests, ledger stacks, root-port links. -/
def partNum : Part → Nat
  | .chain down => down.toNat
  | .mocor d => 2 + d.val
  | .hbm k => 14 + k.val
  | .guest n => 22 + n.val
  | .ledger k => 24 + k.val
  | .pcie n link => 26 + 4 * n.val + link.val

/-- The page whose register at 0x200 holds ATTEMPT and the state of a part below 26. -/
def partPage (t : Nat) : Nat :=
  if t < 2 then pgCH (t == 1) else if t < 14 then pgMP (t - 2) else if t < 22 then pgHPHY (t - 14)
  else if t < 24 then pgGP (t - 22) else pgLSC (t - 24)

/-- ATTEMPT of a part. -/
def Pkg.attempts (p : Pkg) (t : Nat) : Nat := p.rf (partPage t) 0x200 63 48

/-- The attempts that a readmission may make: MLCFG[RETRY] or GOFFER[RETRY]; 0 selects 16 (R299, R311). -/
def Pkg.retryMax (p : Pkg) (t : Nat) : Nat :=
  let r := if t < 14 then p.cf (pgMP (t - 2)) 0x408 31 24 else p.cf (pgGP (t - 22)) 0x400 15 8
  if r = 0 then 16 else r

/-- A readmission cannot fail yet: attempts are left, or one runs, and no test of step 4 was aborted (R296, R310). -/
def Pkg.canRetry (p : Pkg) (t : Nat) (aborted : Bool) : Bool :=
  !aborted && (decide (p.attempts t < p.retryMax t) || p.boot.training.contains t || p.rf (partPage t) 0x200 3 0 != 0)

/-! ### The rail-command bus (R416, R558 to R560) -/

/-- CRC-8 with polynomial 0x07 and initial value 0, most significant bit first (R558). -/
def crc8 (bytes : List Byte) : Byte :=
  bytes.foldl (fun (c : Byte) b =>
    (List.range 8).foldl (fun (c : Byte) _ => if c.getLsbD 7 then (c <<< 1) ^^^ 0x07 else c <<< 1) (c ^^^ b)) 0

/-- A request with its CRC, over B0 = VADDR x 16 + CMD and the two bytes of DATA. -/
def railReq (vaddr cmd data : Nat) : RailReq :=
  { vaddr := vaddr, cmd := cmd, data := BitVec.ofNat 16 data,
    crc := crc8 [BitVec.ofNat 8 (vaddr * 16 + cmd), BitVec.ofNat 8 (data / 256), BitVec.ofNat 8 data] }

/-- The bottom of the SETV range of a rail, at which its regulator starts (R559, R560). -/
def railBottom (r : Nat) : Nat := match r with | 12 => 240 | 13 => 500 | 14 => 200 | _ => 120

/-- A rail as the steward knows it: 0 off, 1 commanded on, 2 confirmed; its confirmed voltage; the SETV it is carrying out. -/
def Pkg.rail (p : Pkg) (r : Nat) : Nat := tblGet (fun _ => 0) p.pw.rails r
def Pkg.volt (p : Pkg) (r : Nat) : Nat := tblGet railBottom p.pw.volts r
def Pkg.slewing (p : Pkg) (r : Nat) : Option RailReq := p.pw.bus.find? (fun q => q.vaddr == r)

/-- OFF is sent to a regulator (R559). -/
def Pkg.railOff (p : Pkg) (r : Nat) : Pkg :=
  let pw := { p.pw with rails := tblErase p.pw.rails r, railQ := p.pw.railQ.filter (fun q => q != r),
                        sent := if p.rail r = 0 then p.pw.sent else some (railReq r 3 0),
                        bus := p.pw.bus.filter (fun q => q.vaddr != r), volts := tblErase p.pw.volts r }
  { p with pw := pw }

/-! ### Error responses to register accesses (R22, R23) -/

/-- A writable configuration register of SE. -/
def Pkg.seCfg (p : Pkg) (n : Nat) : BitVec 32 := tblGet (fun _ => 0) p.se.cfg n

/-- Write the stored part of a configuration dword. -/
def Pkg.setSeCfg (p : Pkg) (n : Nat) (v : BitVec 32) : Pkg :=
  let se := { p.se with cfg := tblSet (fun _ => 0) p.se.cfg n v }
  { p with se := se }

/-- A request refused under R442 is recorded: ERRADDR, URCNT, ERRSTAT[UR]. -/
def Pkg.seUr (p : Pkg) (pa : Nat) : Pkg :=
  let p := (p.setReg pgSE 0x220 (BitVec.ofNat 64 (pa % 2 ^ 52))).addRf pgSE 0x228 63 0 1
  p.setEvent pgSE 16 1 { Det.none with addr := pa, detail := BitVec.ofNat 64 (pa % 2 ^ 52) }

/-- A discarded write is also reported in the Uncorrectable Error Status of Advanced Error Reporting, and as Unsupported Request
Detected in Device Status (R442; log entry 93). -/
def Pkg.seUrWrite (p : Pkg) (pa : Nat) : Pkg :=
  let p := (p.setSeCfg 0x41 (p.seCfg 0x41 ||| 0x100000)).setSeCfg 0x16 (p.seCfg 0x16 ||| 0x80000)
  p.seUr pa

/-- The site is populated (R1). -/
def Pkg.site (p : Pkg) (g : Nat) : Bool := p.populated / 2 ^ g % 2 == 1

/-- LSTATE of GPn: 0 DOWN, 1 TRAINING, 2 ACTIVE, 5 FENCED, 6 NEGOTIATING, 7 INERT (R311). -/
def Pkg.gpState (p : Pkg) (g : Nat) : Nat := if p.site g then p.rf (pgGP g) 0x200 3 0 else 7

/-- The hub firewall logs a request that it denies: its address, TYPE and LEN (R308). -/
def Pkg.fwLog (p : Pkg) (g addr ty len : Nat) : Pkg :=
  let pg := pgGFW g
  let p := p.setReg pg 0x200 (BitVec.ofNat 64 addr)
  let p := p.setReg pg 0x208 (word [(28, ty), (0, len)])
  (p.addRf pg 0x210 63 0 1).setEvent pg 16 3 { Det.none with addr := addr, detail := p.reg pg 0x208, agent := 0x1A + g }

/-- The physical address of a register (R22). -/
def regAddr (pg off : Nat) : Nat := 0xFF00000000000 + pg * 4096 + off

/-- A register write got an error response, which reaches its requester as R23 gives: SE logs the address, the core takes its
machine check at its next boundary (R568), the firewall logs the request. -/
def Pkg.writeRefused (p : Pkg) (who : Requester) (pg off : Nat) : Pkg :=
  let p := match who with
    | .host => p.seUrWrite (regAddr pg off)
    | .core lc => p.setCore lc.val { p.core lc.val with failed := (p.core lc.val).failed ++ [regAddr pg off] }
    | .guest g => if p.gpState g.val = 2 then p.fwLog g.val (regAddr pg off) 2 7 else p
    | .steward | .agent _ => p
  p.reply 0 1 [] false

/-- Carry out a command of a page, written to its register at `off`, if its requester may issue it; an access that may not be
made gets an error response and leaves the page alone. -/
def Pkg.cmd (p : Pkg) (who : Requester) (pg off : Nat) (f : Pkg → Pkg) : Pkg :=
  if p.commands who pg then f p else p.writeRefused who pg off

/-! ### Event log (R408, R412) -/

/-- ORIGIN of an event that a command causes (R408). -/
def originOf (who : Requester) : Nat := match who with | .host => 1 | .steward => 2 | _ => 5

/-- Append an event record: SE.INTSTAT[EVENT] sets, and M is notified when EVNOTE is 1 (R412, R448). -/
def Pkg.logEvent (p : Pkg) (code origin : Nat) (lc pid : Option Nat) (pg : Nat) (detail : Word) : Pkg :=
  let s := p.stw
  let r : EvRec := { seq := s.evSeq + 1, code := code, origin := origin, frame := p.frameNum, lc := lc, pid := pid,
                     die := pg / 4096, block := pg % 4096, detail := detail }
  let p := { p with stw := { s with events := (r :: s.events).take 1024, evSeq := s.evSeq + 1 } }
  let p := p.setRf pgSE 0x208 0 0 1
  let lcN := p.cf pgSTW 0x408 23 16
  if p.cf pgSTW 0x408 32 32 = 1 ∧ p.mapped lcN ∧ p.lcpid lcN = 0 then p.setPending lcN (p.cf pgSTW 0x408 31 24) else p

/-- Raise a package checkstop (R414): the mode follows at the next evaluation (R59), PCS is logged, SE.INTSTAT[PCS] sets. -/
def Pkg.raisePcs (p : Pkg) (cause : Nat) (pg : Nat) : Pkg :=
  (({ p with stw := { p.stw with pcsRaised := true } }).setRf pgSE 0x208 4 4 1).logEvent 0x14 0 none none pg (BitVec.ofNat 64 cause)

/-- A hub failure that no page bit reports: a record with ERRBIT 0xFE, and a package checkstop (R527). -/
def Pkg.hubFail (p : Pkg) (pg : Nat) (d : Det := Det.none) : Pkg :=
  (p.noteEv pg 254 5 d).raisePcs 1 pg

/-- An audit of R413 fails: ERRSTAT[AUDIT], AUDSTAT and AUDIT_FAIL, and a package checkstop when it is unrepairable
(R414). -/
def Pkg.auditFail (p : Pkg) (code pg : Nat) (diff : Int) (fatal : Bool) : Pkg :=
  let p := (p.addRf pgSTW 0x338 15 0 1).setRf pgSTW 0x338 23 16 code
  let p := p.setEvent pgSTW 17 (if fatal then 5 else 1) { Det.none with detail := p.reg pgSTW 0x338 }
  let p := p.logEvent code 0 none none pg (BitVec.ofInt 64 diff)
  if fatal then p.raisePcs 2 pg else p

/-! ### Steps -/

/-- A command that acts on the package and leaves the mode. -/
def State.upd (s : State) (f : Pkg → Pkg) : Host.Outcome State Fault Refusal := .next { s with pkg := f s.pkg }

end Sys2Proof.Machine
end

