-- ==== Sys2Proof/Machine/CacheArray.lean ====
section
/-! DEFINITION. Cache arrays: pseudo-LRU trees, lookup, replacement, locked ways (R160 to R169, R174). -/

namespace Sys2Proof.Machine

/-! ### Tree pseudo-LRU (R165, R166) -/

/-- The tree bits after an access to way `w` of `n` ways; an NT fill points every bit toward the way. -/
def plruAccess (n plru w : Nat) (nt : Bool) : Nat :=
  (List.range 5).foldl
    (fun t i =>
      let node := (n + w) / 2 ^ (i + 1)
      if node = 0 then t
      else
        let right := (n + w) / 2 ^ i % 2
        let b := if nt then right else 1 - right
        t / 2 ^ node * 2 ^ node + b * 2 ^ (node - 1) + t % 2 ^ (node - 1)) plru

/-- Node `m` of a tree of `n` ways covers an eligible way; `depth` bounds the descent. -/
def plruCovers (n : Nat) (ok : Nat → Bool) : Nat → Nat → Bool
  | 0, m => decide (n ≤ m) && ok (m - n)
  | k + 1, m => if n ≤ m then ok (m - n) else plruCovers n ok k (2 * m) || plruCovers n ok k (2 * m + 1)

/-- The way that the walk from node `m` reaches. -/
def plruWalk (n plru : Nat) (ok : Nat → Bool) : Nat → Nat → Nat
  | 0, m => m - n
  | k + 1, m =>
    if n ≤ m then m - n
    else
      let b := plru / 2 ^ (m - 1) % 2
      let m1 := 2 * m + b
      let m2 := 2 * m + (1 - b)
      if plruCovers n ok k m1 then plruWalk n plru ok k m1 else plruWalk n plru ok k m2

/-- The victim among `n` ways: the lowest invalid eligible way, else the walk (R166); none without an eligible way. -/
def plruVictim (n plru : Nat) (eligible valid : Nat → Bool) : Option Nat :=
  match (List.range n).find? (fun w => eligible w && !valid w) with
  | some w => some w
  | none => if (List.range n).any eligible then some (plruWalk n plru eligible 5 1) else none

/-! ### Arrays -/

/-- The arrays of the package by number: L1I and L1D of unit u (die × 20 + index), L2 of cluster (die × 4 + k), L3 of
slice (die × 2 + r). -/
def cL1I (u : Nat) : Nat := u
def cL1D (u : Nat) : Nat := 240 + u
def cL2 (c : Nat) : Nat := 480 + c
def cL3 (r : Nat) : Nat := 528 + r

/-- Ways of an array. -/
def cacheWays (c : Nat) : Nat := if c < 480 then 8 else 16

/-- Set of a line in an array (R160). -/
def cacheSet (c line : Nat) : Nat := if c < 480 then line % 128 else if c < 528 then line % 4096 else line / 2 % 16384

/-- The L3 slice that serves a line (R161). -/
def sliceOf (line : Nat) : Nat :=
  let b := fun k => line * 64 / 2 ^ k % 2
  (b 6 + b 12 + b 18 + b 24 + b 30 + b 36 + b 42 + b 48) % 2

/-- The page of an array; an L1I has none of its own and is reported on its unit's L1D page. -/
def cachePage (c : Nat) : Nat :=
  if c < 240 then pgL1D (c / 20) (c % 20)
  else if c < 480 then pgL1D ((c - 240) / 20) ((c - 240) % 20)
  else if c < 528 then pgL2 ((c - 480) / 4) ((c - 480) % 4)
  else pgL3 ((c - 528) / 2) ((c - 528) % 2)

/-- The array whose page this is. -/
def cacheOfPage (pg : Nat) : Option Nat :=
  match blkOf pg with
  | some (.l1d, i) => some (cL1D (pg / 4096 * 20 + i))
  | some (.l2, k) => some (cL2 (pg / 4096 * 4 + k))
  | some (.l3, r) => some (cL3 (pg / 4096 * 2 + r))
  | _ => none

/-- The die of an array. -/
def cacheDie (c : Nat) : Nat :=
  if c < 240 then c / 20 else if c < 480 then (c - 240) / 20 else if c < 528 then (c - 480) / 4 else (c - 528) / 2

def Pkg.cache (p : Pkg) (c : Nat) : Cache := tblGet (fun _ => Cache.empty) p.caches c
def Pkg.setCache (p : Pkg) (c : Nat) (x : Cache) : Pkg :=
  { p with caches := tblSet (fun _ => Cache.empty) p.caches c x }

def Cache.set (c : Cache) (i : Nat) : CSet := tblGet (fun _ => CSet.empty) c.sets i
def Cache.putSet (c : Cache) (i : Nat) (s : CSet) : Cache := { c with sets := tblSet (fun _ => CSet.empty) c.sets i s }
def CSet.way (s : CSet) (w : Nat) : CWay := tblGet (fun _ => CWay.empty) s.ways w
def CSet.putWay (s : CSet) (w : Nat) (x : CWay) : CSet := { s with ways := tblSet (fun _ => CWay.empty) s.ways w x }

/-- The ways of an array that are not eligible: WAYSTAT[WAYDIS] and those whose sweep runs (R172, R174, R181). -/
def Pkg.wayDis (p : Pkg) (c : Nat) : Nat :=
  if c < 480 then 0
  else (p.cache c).sweep.foldl (fun a w => a ||| 2 ^ (w % 16)) (p.rf (cachePage c) 0x200 15 0)

/-- The array looks up and allocates: enabled, not in LOAD_HOLD (R175, "Cache page registers"). An L1I follows its L2. -/
def Pkg.cacheOn (p : Pkg) (c : Nat) : Bool :=
  if c < 240 then p.blkState (pgL2 (c / 20) (c % 20 / 5)) == 1
  else p.blkState (cachePage c) == 1

/-- The way of a set that holds a line under a PID (R162). -/
def CSet.lookup (s : CSet) (line pid : Nat) : Option Nat :=
  (s.ways.find? (fun e => e.2.valid && e.2.line == line && e.2.pid == pid)).map (·.1)

/-- The way in which an array holds a line under a PID. -/
def Pkg.cacheHit (p : Pkg) (c line pid : Nat) : Option Nat :=
  if p.cacheOn c then ((p.cache c).set (cacheSet c line)).lookup line pid else none

/-- Record an access to a way (R165). -/
def Pkg.cacheTouch (p : Pkg) (c line w : Nat) (nt : Bool) : Pkg :=
  let i := cacheSet c line
  let s := (p.cache c).set i
  p.setCache c ((p.cache c).putSet i { s with plru := plruAccess (cacheWays c) s.plru w nt })

/-- Change the way that holds a line, whatever its PID. -/
def Pkg.cacheModify (p : Pkg) (c line : Nat) (f : CWay → CWay) : Pkg :=
  let i := cacheSet c line
  let s := (p.cache c).set i
  match s.ways.find? (fun e => e.2.valid && e.2.line == line) with
  | none => p
  | some (w, x) => p.setCache c ((p.cache c).putSet i (s.putWay w (f x)))

/-- What a way becomes when its line leaves: a locked way stays locked and empty and keeps its tag (R168). -/
def CWay.drop (x : CWay) : CWay :=
  if x.locked then { x with valid := false, dirty := false, stale := false } else CWay.empty

/-- The line leaves an array. A disabled array keeps its contents (R175). -/
def Pkg.cacheDrop (p : Pkg) (c line : Nat) : Pkg := if p.cacheOn c then p.cacheModify c line CWay.drop else p

/-- Fill a line into an array: (the way replaced, its former content). Nothing happens without an eligible way. -/
def Pkg.cacheFill (p : Pkg) (c line pid : Nat) (nt : Bool) : CWay × Pkg :=
  let i := cacheSet c line
  let s := (p.cache c).set i
  let dis := p.wayDis c
  let eligible := fun w => decide (dis / 2 ^ w % 2 = 0) && !(s.way w).locked
  match plruVictim (cacheWays c) s.plru eligible (fun w => (s.way w).valid) with
  | none => (CWay.empty, p)
  | some w =>
    let old := s.way w
    let s := s.putWay w { valid := true, line := line, pid := pid, dirty := false, locked := false, stale := false }
    let s := { s with plru := plruAccess (cacheWays c) s.plru w nt }
    (old, p.setCache c ((p.cache c).putSet i s))

/-- Whether an array holds a line, dirty. -/
def Pkg.cacheDirty (p : Pkg) (c line : Nat) : Bool :=
  ((p.cache c).set (cacheSet c line)).ways.any (fun e => e.2.valid && e.2.line == line && e.2.dirty)

/-- The arrays of a die. -/
def dieArrays (d : Nat) : List Nat :=
  (List.range 20).map (fun i => cL1I (d * 20 + i)) ++ (List.range 20).map (fun i => cL1D (d * 20 + i)) ++
  (List.range 4).map (fun k => cL2 (d * 4 + k)) ++ (List.range 2).map (fun r => cL3 (d * 2 + r))

/-- LOCKSTAT of an L2 from its array (R182). -/
def Pkg.refreshLockstat (p : Pkg) (c : Nat) : Pkg :=
  if c < 480 ∨ 528 ≤ c then p
  else
    let locks := (p.cache c).sets.map (fun e => (e.2.ways.filter (fun w => w.2.locked)).length)
    p.setReg (cachePage c) 0x208 (word [(16, (locks.filter (· != 0)).length), (0, locks.foldl (· + ·) 0)])

/-- The line leaves every cache of a die; locked ways stay locked and empty. -/
def Pkg.dieDrop (p : Pkg) (d line : Nat) : Pkg := (dieArrays d).foldl (fun p c => p.cacheDrop c line) p

end Sys2Proof.Machine
end

