-- ==== Sys2Proof/Machine/Ecc.lean ====
section
/-! DEFINITION. The line code RS(72,64) over GF(2^8) (R315 to R318). The code is linear, so what a stored word decodes
to depends only on the pattern of symbol errors against its codeword; a pattern is a sparse table of symbols. -/

namespace Sys2Proof.Machine

/-- Product in GF(2^8) with x^8 + x^4 + x^3 + x^2 + 1 (R316). -/
def gfMul (a b : Nat) : Nat :=
  (List.range 8).foldl
    (fun acc i =>
      let t := acc * 2
      let t := if 256 ≤ t then t ^^^ 0x11D else t
      if b / 2 ^ (7 - i) % 2 = 1 then t ^^^ a else t) 0

/-- Powers of α by squaring and multiplying, bit by bit of the exponent. -/
def gfPow (a n : Nat) : Nat :=
  (List.range 8).foldl
    (fun acc i => let t := gfMul acc acc; if n / 2 ^ (7 - i) % 2 = 1 then gfMul t a else t) 1

/-- α^n. -/
def gfAlpha (n : Nat) : Nat := gfPow 2 (n % 255)

/-- The inverse of a non-zero element. -/
def gfInv (a : Nat) : Nat := gfPow a 254

/-- Evaluate a polynomial (lowest coefficient first). -/
def gfEval : List Nat → Nat → Nat
  | [], _ => 0
  | c :: t, x => c ^^^ gfMul x (gfEval t x)

/-- Add two polynomials. -/
def gfAdd : List Nat → List Nat → List Nat
  | [], q => q
  | p, [] => p
  | a :: p, b :: q => (a ^^^ b) :: gfAdd p q

/-- Multiply a polynomial by a constant. -/
def gfScale (c : Nat) (p : List Nat) : List Nat := p.map (gfMul c)

/-- The product of two polynomials. -/
def gfPolyMul : List Nat → List Nat → List Nat
  | [], _ => []
  | a :: p, q => gfAdd (gfScale a q) (0 :: gfPolyMul p q)

/-- Symbol k is the coefficient of x^(71-k); its locator is α^(71-k) (R316). -/
def symLoc (k : Nat) : Nat := gfAlpha (71 - k)

/-- The eight syndromes of an error pattern. -/
def syndromes (e : Tbl Byte) : List Nat :=
  (List.range 8).map (fun j => e.foldl (fun a s => a ^^^ gfMul s.2.toNat (gfPow (symLoc s.1) j)) 0)

/-- One step of the Berlekamp-Massey algorithm: (locator, previous, L, m, b). -/
def bmStep (syn : List Nat) (st : List Nat × List Nat × Nat × Nat × Nat) (n : Nat) :
    List Nat × List Nat × Nat × Nat × Nat :=
  let (c, b, l, m, bb) := st
  let d := (List.range (l + 1)).foldl (fun a i => a ^^^ gfMul (c.getD i 0) (syn.getD (n - i) 0)) 0
  if d = 0 then (c, b, l, m + 1, bb)
  else
    let t := gfAdd c (gfScale (gfMul d (gfInv bb)) (List.replicate m 0 ++ b))
    if 2 * l ≤ n then (t, c, n + 1 - l, 1, d) else (t, b, l, m + 1, bb)

/-- The error locator polynomial and its formal degree. -/
def locator (syn : List Nat) : List Nat × Nat :=
  let r := (List.range 8).foldl (bmStep syn) ([1], [1], 0, 1, 1)
  (r.1, r.2.2.1)

/-- The pattern of at most `t` symbols that the decoder removes from a word with error pattern `e`, none when the word
does not decode (R317). -/
def rsDecode (t : Nat) (e : Tbl Byte) : Option (Tbl Byte) :=
  let syn := syndromes e
  if syn.all (· == 0) then some []
  else
    let (lam, l) := locator syn
    if t < l then none
    else
      let pos := (List.range 72).filter (fun k => gfEval lam (gfInv (symLoc k)) == 0)
      if pos.length ≠ l then none
      else
        let om := (gfPolyMul syn lam).take 8
        let der := (List.range lam.length).filterMap
          (fun i => if i = 0 then none else some (if i % 2 = 1 then lam.getD i 0 else 0))
        let found : Tbl Byte := pos.map (fun k =>
          let x := symLoc k
          let xi := gfInv x
          (k, BitVec.ofNat 8 (gfMul x (gfMul (gfEval om xi) (gfInv (gfEval der xi))))))
        if syndromes found = syn then some found else none

/-- Exclusive-or of two error patterns. -/
def patXor (a b : Tbl Byte) : Tbl Byte :=
  b.foldl (fun t s => tblSet (fun _ => 0) t s.1 (tblGet (fun _ => 0) t s.1 ^^^ s.2)) a

/-- The poison vector Q (R318). -/
def poisonQ : Tbl Byte :=
  [(64, 0x3B), (65, 0x71), (66, 0xC4), (67, 0x0E), (68, 0x92), (69, 0x5D), (70, 0xA7), (71, 0xE8)]

/-- The outcome of decoding a stored word (R318). `fix` is the pattern the decoder removes. -/
inductive LineOut where
  | data (fix : Tbl Byte)
  | poison
  | ue
  deriving DecidableEq, Repr

/-- Decode a word with error pattern `e` in mode C4 or C3D5 (R317, R318). A word without errors is its own data: it is a
codeword of the data code, and decodes as none of the poison coset. -/
def decodeLine (c4 : Bool) (e : Tbl Byte) : LineOut :=
  if e = [] then .data []
  else match rsDecode (if c4 then 4 else 3) e, rsDecode 2 (patXor e poisonQ) with
    | some f, none => .data f
    | none, some _ => .poison
    | _, _ => .ue

end Sys2Proof.Machine
end

