-- ==== Sys2Proof/Machine/Ops.lean ====
section
/-! DEFINITION. Operations on HBM: bytes, the address hash, reading and writing stored lines with their code and
their key (R312 to R333, R567). -/

namespace Sys2Proof.Machine

/-! ### Bytes -/

/-- What an unlisted byte reads as (DESIGN CHOICE 0, log entry 7; an uninitialised line never delivers it, R323). -/
def memDefault : Nat → Byte := fun _ => 0

/-- Memory is in canonical form: addresses strictly rising, no entry equal to the unlisted value. -/
abbrev Memory.wf (m : List Host.Cell) : Bool := tblWf memDefault m

/-- Read one byte. -/
def memByte (m : List Host.Cell) (a : Nat) : Byte := tblGet memDefault m a

/-- Write one byte. -/
def memSetByte (m : List Host.Cell) (a : Nat) (v : Byte) : List Host.Cell := tblSet memDefault m a v

/-- Read `n` bytes upward. -/
def memBytes (m : List Host.Cell) (a n : Nat) : List Byte := (List.range n).map (fun i => memByte m (a + i))

/-- Write bytes upward. -/
def memSetBytes (m : List Host.Cell) : Nat → List Byte → List Host.Cell
  | _, [] => m
  | a, b :: t => memSetBytes (memSetByte m a b) (a + 1) t

/-! ### The address hash (R313, R314) -/

/-- Bytes of HBM (R18). -/
def hbmSize : Nat := 0x2000000000

/-- The 7-bit value p of R313 for a physical address. -/
def hashP (pa : Nat) : Nat :=
  (pa / 2 ^ 8 % 128) ^^^ (pa / 2 ^ 15 % 128) ^^^ (pa / 2 ^ 22 % 128) ^^^ (pa / 2 ^ 29 % 128) ^^^ (pa / 2 ^ 36 % 2)

/-- The controller and home slice of a line (PA[51:6]). -/
def mcOf (line : Nat) : Nat := hashP (line * 64) % 16

/-- The pseudo-channel within the controller. -/
def pchOf (line : Nat) : Nat := hashP (line * 64) / 16

/-- The local address L of a line (R314). -/
def localOf (line : Nat) : Nat := let pa := line * 64; pa / 2 ^ 15 % 2 ^ 22 * 256 + pa % 256

def rowOf (line : Nat) : Nat := localOf line / 2 ^ 15
def bankOf (line : Nat) : Nat := localOf line / 2 ^ 10 % 32
def rowLineOf (line : Nat) : Nat := localOf line / 64 % 16

/-- The line of MCn, pseudo-channel j, at local address L: the inverse of R313 and R314. -/
def lineAt (n j l : Nat) : Nat :=
  let hi := l / 256 % 2 ^ 22 * 2 ^ 15
  let p := j * 16 + n
  let lo := p ^^^ (hi / 2 ^ 15 % 128) ^^^ (hi / 2 ^ 22 % 128) ^^^ (hi / 2 ^ 29 % 128) ^^^ (hi / 2 ^ 36 % 2)
  (hi + lo * 2 ^ 8 + l % 256) / 64

/-! ### Controllers -/

def Pkg.ctl (p : Pkg) (n : Nat) : MemCtl := tblGet (fun _ => MemCtl.reset) p.hbm.ctl n
def Pkg.setCtl (p : Pkg) (n : Nat) (c : MemCtl) : Pkg :=
  { p with hbm := { p.hbm with ctl := tblSet (fun _ => MemCtl.reset) p.hbm.ctl n c } }

/-- The remap row that serves a row: the entry in force that names its pseudo-channel, bank and row (R324). -/
def Pkg.spareOf (p : Pkg) (n pch bank row : Nat) : Option Nat :=
  ((p.ctl n).remap.find? (fun e => bit e.2 63 && fld e.2 58 56 == pch && fld e.2 52 48 == bank && fld e.2 46 32 == row)).map
    (fun e => fld e.2 20 16)

/-- Number of the cells of line `i` of remap row `spare` of a bank. -/
def spareCell (n pch bank spare i : Nat) : Nat := 2 ^ 31 + (((n * 8 + pch) * 32 + bank) * 32 + spare) * 16 + i

/-- The cells that store a line: its own, or those of the remap row of its row. -/
def Pkg.cell (p : Pkg) (line : Nat) : Nat :=
  match p.spareOf (mcOf line) (pchOf line) (bankOf line) (rowOf line) with
  | some s => spareCell (mcOf line) (pchOf line) (bankOf line) s (rowLineOf line)
  | none => line

/-- What is known of cells; none: uninitialised. -/
def Pkg.cellMeta (p : Pkg) (c : Nat) : Option LineMeta := tblGet (fun _ => none) p.hbm.lines c
def Pkg.setCellMeta (p : Pkg) (c : Nat) (m : Option LineMeta) : Pkg :=
  { p with hbm := { p.hbm with lines := tblSet (fun _ => none) p.hbm.lines c m } }

/-- What is known of a line. -/
def Pkg.lineMeta (p : Pkg) (line : Nat) : Option LineMeta := p.cellMeta (p.cell line)
def Pkg.setLineMeta (p : Pkg) (line : Nat) (m : Option LineMeta) : Pkg := p.setCellMeta (p.cell line) m

/-- How an access to a stored line is answered (R567). -/
inductive Serve where
  | addr | disabled | served
  deriving DecidableEq, Repr

/-- MCn is disabled (R331): MCSTAT[STATE] EXCLUDED or DISABLED. -/
def Pkg.mcDisabled (p : Pkg) (n : Nat) : Bool := decide (2 ≤ p.rf (pgMC n) 0x200 3 0)

/-- The first case of R567 that holds. -/
def Pkg.serveOf (p : Pkg) (line : Nat) : Serve :=
  let n := mcOf line
  if p.loadHold (pgDS n) then .addr
  else if p.mcDisabled n then .disabled
  else if p.rf (pgMCR n) 0x208 0 0 = 0 ∨ p.rf (pgMC n) 0x200 3 0 = 0 ∨ p.loadHold (pgMC n) then .addr
  else .served

/-- ERRLOG of MCn for a line (R333). -/
def errlogWord (p : Pkg) (line kind : Nat) (fix : Tbl Byte) : Word :=
  word [(60, kind), (56, fix.length), (53, pchOf line), (48, bankOf line), (32, rowOf line), (28, rowLineOf line),
        (16, match fix with | [] => 0 | s :: _ => s.1), (0, p.frameNum % 0x10000)]

/-- The quota of a field under R69: 0 selects the default, the stop value stops (0), above the range acts as its top. -/
def quota (field dflt top stop : Nat) : Nat :=
  if field = stop then 0 else if field = 0 then dflt else min field top

/-- Q of MCn (R69, R334) and the effective quota with a boost (R403). -/
def Pkg.scrubQ (p : Pkg) (n : Nat) : Nat := quota (p.cf (pgMC n) 0x400 15 0) 16 1024 0xFFFF
def Pkg.scrubMax (p : Pkg) : Nat := let m := p.cf pgSTW 0x408 15 0; if m = 0 then 256 else m
def Pkg.boostedQ (p : Pkg) (n : Nat) : Nat := max (p.scrubQ n) (min (2 * p.scrubQ n) p.scrubMax)

/-- MARGQ of MPn and of a chain port, CALQ of HPHYn and AGEQ of a die (R69). -/
def Pkg.margQ (p : Pkg) (d : Nat) : Nat := quota (p.cf (pgMP d) 0x400 7 0) 1 68 0xFF
def Pkg.chMargQ (p : Pkg) (down : Bool) : Nat := quota (p.cf (pgCH down) 0x400 7 0) 1 8 0xFF
def Pkg.calQ (p : Pkg) (k : Nat) : Nat := let q := p.cf (pgHPHY k) 0x400 7 0; if q = 0 then 4 else min q 64
def Pkg.ageQ (p : Pkg) (d : Nat) : Nat := quota (p.cf (pgTELEM d) 0x440 7 0) 1 64 0xFF

/-- A thermal response of a kind is in force (R432): kinds 0 throttle and 1 hold of cluster `4d + k`, 2 hub quadrant, 3, 4
stack at 85 °C and 95 °C, 5, 6 ledger stack at 95 °C and 105 °C. -/
def Pkg.hot (p : Pkg) (kind i : Nat) : Bool := p.pw.hot.contains (kind, i)

/-- A quota as the hub's temperature leaves it: halved at 105 °C, rounding up (R432). -/
def Pkg.cooled (p : Pkg) (q : Nat) : Nat := if p.pw.hot.any (fun h => h.1 == 2) then (q + 1) / 2 else q

/-- The live scrub quota that R71 judges (R403). -/
def Pkg.scrubLive (p : Pkg) (n : Nat) : Nat := p.cooled (if (p.ctl n).boost = 0 then p.scrubQ n else p.boostedQ n)

/-- A trigger of the scrub boost (R403): two passes from now, unless policy forbids it or the scrub is stopped. -/
def Pkg.scrubBoost (p : Pkg) (n : Nat) : Pkg :=
  if p.cf pgSTW 0x400 3 3 = 1 ∨ p.scrubQ n = 0 then p
  else
    let p := p.setCtl n { p.ctl n with boost := 3 }
    p.logEvent 0x12 2 none none (pgMC n) (BitVec.ofNat 64 (p.boostedQ n))

/-- A row asks for its remap: ERRSTAT[ROWREQ], the request is kept for the steward, and the scrub is boosted (R327). -/
def Pkg.rowReq (p : Pkg) (n pch bank row : Nat) : Pkg :=
  let c := p.ctl n
  let p := p.setCtl n { c with rowReqs := c.rowReqs.filter (· != (pch, bank, row)) ++ [(pch, bank, row)] }
  (p.setEvent (pgMC n) 21 1 { Det.none with detail := p.reg (pgMC n) 0x208 }).scrubBoost n

/-- ECCCFG[REMAPTHR]: 0 selects 4, 255 never (R334). -/
def Pkg.remapThr (p : Pkg) (n : Nat) : Option Nat :=
  match p.cf (pgMC n) 0x408 8 1 with | 0 => some 4 | 255 => none | k => some k

/-- The tracked row whose last CE is oldest gives way when the tracker is full (R327). -/
def dropOldest (t : List TrackRow) : List TrackRow :=
  if t.length < 32 then t
  else
    let last := fun (r : TrackRow) => r.frames.getLastD 0
    let oldest := t.foldl (fun a r => min a (last r)) (t.foldl (fun a r => max a (last r)) 0)
    match findIdx? (fun r => last r == oldest) t with
    | some (i, _) => t.eraseIdx i
    | none => t

/-- A CE of a row in the tracker (R327). -/
def Pkg.trackCe (p : Pkg) (line : Nat) : Pkg :=
  let n := mcOf line
  let c := p.ctl n
  let same := fun (r : TrackRow) => r.pch == pchOf line && r.bank == bankOf line && r.row == rowOf line
  let f := p.fr.ticks
  let old := (c.tracker.find? same).getD
    { pch := pchOf line, bank := bankOf line, row := rowOf line, frames := [], asked := false, ueSeen := false }
  let before := old.frames.filter (fun g => decide (f < g + 1024))
  let frames := before ++ [f]
  let reached : Bool := match p.remapThr n with
    | none => false
    | some k => decide (k ≤ frames.length)
  let wasAt : Bool := match p.remapThr n with
    | none => false
    | some k => decide (k ≤ before.length)
  let rest := c.tracker.filter (fun r => !same r)
  let base := if c.tracker.any same then rest else dropOldest rest
  let p := p.setCtl n { c with tracker := base ++ [{ old with frames := frames, asked := reached }] }
  if reached && !(old.asked && wasAt) then p.rowReq n (pchOf line) (bankOf line) (rowOf line) else p

/-- A UE of a row: the first one of a tracked row asks for the remap (R327). -/
def Pkg.trackUe (p : Pkg) (line : Nat) : Pkg :=
  let n := mcOf line
  let c := p.ctl n
  let same := fun (r : TrackRow) => r.pch == pchOf line && r.bank == bankOf line && r.row == rowOf line
  match c.tracker.find? same with
  | none => p
  | some r =>
    if r.ueSeen then p
    else
      let p := p.setCtl n { c with tracker := c.tracker.map (fun q => if same q then { q with ueSeen := true } else q) }
      p.rowReq n (pchOf line) (bankOf line) (rowOf line)

/-! ### Reading and writing stored lines (R319 to R323) -/

/-- An answer of the controller to a read: the line, and POISON. -/
inductive LineAns where
  | addr
  | line (bytes : List Byte) (poison : Bool)
  deriving DecidableEq, Repr

/-- The decoded state of a stored line: none for an uninitialised line whose bits decode as nothing. -/
def Pkg.decode (p : Pkg) (line : Nat) : LineOut :=
  let c4 := p.cf (pgMC (mcOf line)) 0x408 0 0 == 1
  match p.lineMeta line with
  | some m => decodeLine c4 m.err
  | none => if Config.luckyUninit line c4 p.fresh then .data [] else .ue

/-- The bytes that a decoded line delivers to PID `pid`: its content when it was written under the same key and the
decoder restored its codeword, else free bytes (R323, R329). -/
def Pkg.content (p : Pkg) (line pid : Nat) (residual : Tbl Byte) : List Byte × Pkg :=
  match p.lineMeta line with
  | some m =>
    if m.pid = pid ∧ m.gen = (p.part pid).gen ∧ m.tweak = line ∧ residual = [] then
      (memBytes p.hbm.mem (p.cell line * 64) 64, p)
    else p.freeBytes 64
  | none => p.freeBytes 64

/-- The cells of a line as the read finds them: `dist` flips bits first (R315). -/
def Pkg.disturb (p : Pkg) (line : Nat) (dist : Disturb) : Pkg :=
  match p.lineMeta line with
  | none => p
  | some m => p.setLineMeta line (some { m with err := patXor m.err (dist.map (fun s => (s.1.val, s.2))) })

/-- A demand read of a stored line under a PID, with its logging and its corrected write-back (R318 to R320). -/
def Pkg.lineRead (p : Pkg) (line pid agent : Nat) (dist : Disturb := []) : LineAns × Pkg :=
  match p.serveOf line with
  | .addr => (.addr, p)
  | .disabled => let (b, p) := p.freeBytes 64; (.line b true, p)
  | .served =>
    let p := (p.disturb line dist).evCount none 4 (mcOf line) (some pid) 4 1
    let pg := pgMC (mcOf line)
    let det := fun (p : Pkg) => ({ Det.none with pids := [pid], addr := line * 64, detail := p.reg pg 0x208,
                                                  agent := agent } : Det)
    match p.decode line with
    | .data fix =>
      match p.lineMeta line with
      | some m =>
        let res := patXor m.err fix
        if fix = [] then let (b, p) := p.content line pid res; (.line b false, p)
        else
          let p := p.setLineMeta line (some { m with err := res })
          let p := (p.setReg pg 0x208 (errlogWord p line 1 fix)).addRf pg 0x210 63 0 1
          let p := (p.addRf pg 0x238 63 0 1).evCount none 6 (mcOf line) (some pid) 4 1
          let p := p.setEvent pg 16 1 (det p)
          let p := p.trackCe line
          let (b, p) := p.content line pid res
          (.line b false, p)
      | none => let (b, p) := p.freeBytes 64; (.line b false, p)
    | .poison =>
      let p := (p.setReg pg 0x208 (errlogWord p line 3 [])).addRf pg 0x220 63 0 1
      let p := p.setEvent pg 18 2 (det p)
      let (b, p) := p.content line pid []
      (.line b true, p)
    | .ue =>
      let p := (p.setReg pg 0x208 (errlogWord p line 2 [])).addRf pg 0x218 63 0 1
      let p := p.setEvent pg 17 2 (det p)
      let p := p.trackUe line
      let (b, p) := p.freeBytes 64
      (.line b true, p)

/-- Store a full line under a PID (R319, R323): the content, its key, and the poison vector. -/
def Pkg.storeLine (p : Pkg) (line pid : Nat) (bytes : List Byte) (poison : Bool) : Pkg :=
  let p := p.evCount none 5 (mcOf line) (some pid) 4 1
  let p := { p with hbm := { p.hbm with mem := memSetBytes p.hbm.mem (p.cell line * 64) (bytes.take 64) } }
  p.setLineMeta line (some { pid := pid, gen := (p.part pid).gen, tweak := line, err := if poison then poisonQ else [] })

/-- A full-line write: false is an error response; a disabled controller accepts and discards (R331, R567). -/
def Pkg.lineWrite (p : Pkg) (line pid : Nat) (bytes : List Byte) (poison : Bool) : Bool × Pkg :=
  match p.serveOf line with
  | .addr => (false, p)
  | .disabled => (true, p)
  | .served => (true, p.storeLine line pid bytes poison)

/-- Write a line as poisoned keeping what its cells hold: O entries of a fenced die (R246, R247). -/
def Pkg.poisonLine (p : Pkg) (line pid : Nat) : Pkg :=
  match p.serveOf line with
  | .served => let (b, p) := p.freeBytes 64; p.storeLine line pid b true
  | _ => p

/-- Merge masked bytes over a line (R241). -/
def mergeBytes (old new : List Byte) (off mask : Nat) : List Byte :=
  (List.range 64).map (fun i =>
    if off ≤ i ∧ mask / 2 ^ (i - off) % 2 = 1 ∧ i - off < new.length then new.getD (i - off) 0 else old.getD i 0)

/-- RMCNT from the remap entries (R335). -/
def Pkg.refreshRmcnt (p : Pkg) (n : Nat) : Pkg :=
  let es := (p.ctl n).remap.map (·.2)
  let kind := fun (k : Nat) => (es.filter (fun w => bit w 63 && fld w 62 61 == k)).length
  let fuse := (es.filter (fun w => w != 0 && fld w 62 61 == 0)).length
  p.setReg (pgMCR n) 0x200
    (word [(48, 256 - (es.filter (fun w => bit w 63)).length), (32, kind 2), (16, kind 1), (0, fuse)])

/-- Disable controller MCn (R331): DCAUSE, the event MC_DISABLED and ERRSTAT[DISABLED]. -/
def Pkg.mcDisable (p : Pkg) (n cause : Nat) : Pkg :=
  if p.mcDisabled n then p
  else
    let p := p.setReg (pgMC n) 0x200 (word [(4, cause), (0, if cause = 1 then 2 else 3)])
    let p := p.setEvent (pgMC n) 22 3 { Det.none with detail := p.reg (pgMC n) 0x200 }
    p.logEvent 0x07 (if cause = 1 then 1 else 0) none none (pgMC n) (BitVec.ofNat 64 cause)

end Sys2Proof.Machine
end

