-- ==== Sys2Proof/Machine/Network.lean ====
section
/-! DEFINITION. The on-chip networks: where agents are attached, the way of a message, its books and virtual channels, and
the credits of a book (R257 to R274). -/

namespace Sys2Proof.Machine

/-! ### Places (R221, R259, R262) -/

/-- The network of a message: 0 REQ, 1 SNP, 2 RSP, 3 DAT (R230). -/
def MsgBody.net : MsgBody → Nat
  | .req _ | .wbd | .evc => 0
  | .snpInv | .snpShr _ | .snpFwd _ => 1
  | .cmp _ _ | .ack | .snpRsp _ | .err _ => 2
  | .data _ _ _ | .wbData _ _ _ _ => 3

/-- The square of port MPd (R262). -/
def mpSquare (d : Nat) : Nat := [0, 1, 2, 3, 7, 11, 15, 14, 13, 12, 8, 4].getD d 0

/-- The grid port, as square × 8 + port in the order of R262, of a die's Mocor link, of a directory slice, and of a hub
agent. -/
def mpPort (d : Nat) : Nat := mpSquare d * 8 + 1
def dsPort (n : Nat) : Nat := n * 8
def hubPort (a : Nat) : Nat :=
  match a with
  | 0x10 => 5 * 8 + 1
  | 0x12 => 5 * 8 + 2
  | 0x11 => 6 * 8 + 1
  | 0x13 => 6 * 8 + 2
  | 0x14 | 0x15 | 0x16 => 9 * 8 + 1 + (a - 0x14)
  | 0x17 | 0x18 | 0x19 => 10 * 8 + 1 + (a - 0x17)
  | 0x1A => 9 * 8 + 4
  | 0x1B => 10 * 8 + 4
  | 0x1C => 9 * 8 + 5
  | 0x1D => 10 * 8 + 5
  | _ => 6 * 8 + 3

/-- The number of ports of a square (R262): 44 in all. -/
def squarePorts (n : Nat) : Nat :=
  if n = 5 then 3 else if n = 6 then 4 else if n = 9 then 6 else if n = 10 then 7 else 2

/-- The die of an agent and its stop (R259): an L3 slice answers for the lines of its slice, the cipher engine is at stop 5. -/
def agentStop (a line : Nat) : Option (Nat × Nat) :=
  if a < 12 then some (a, if sliceOf line = 0 then 2 else 6)
  else if 0x20 ≤ a ∧ a < 0x2C then some (a - 0x20, 5)
  else none

/-- The port at which an agent's flits stand on the grid. -/
def gridPort (a line : Nat) : Nat :=
  if a = 0x3F then dsPort (mcOf line)
  else match agentStop a line with | some (d, _) => mpPort d | none => hubPort a

/-- The way of a message: its sender's boulevard and Mocor link, the grid, and its receiver's link and boulevard. -/
def Msg.legs (m : Msg) : List Leg :=
  (match agentStop m.src m.line with | some (d, s) => [.ring d s 4, .mocor d true] | none => []) ++
  [.grid (gridPort m.src m.line) (gridPort m.dst m.line)] ++
  (match agentStop m.dst m.line with | some (d, s) => [.mocor d false, .ring d 4 s] | none => [])

/-! ### Ways through a network (R258 to R263, R274) -/

/-- A book identifier (R274). -/
def bookId (net vc dir kind index : Nat) : Nat := net * 16384 + vc * 8192 + dir * 4096 + kind * 256 + index

/-- The books of the links of a ring of `n` places, from place `at_` in direction `dir` (0 towards higher places) over
`hops`: a flit is on VC1 from the dateline, the link between the last place and place 0, on (R258). `id` gives the identifier
of the link that leaves a place. -/
def ringLinks (n dir : Nat) (id : Nat → Nat → Nat) : Nat → Nat → Nat → List Nat
  | 0, _, _ => []
  | k + 1, at_, vc =>
    let nxt := if dir = 0 then (at_ + 1) % n else (at_ + n - 1) % n
    let cross := if dir = 0 then at_ == n - 1 else at_ == 0
    let vc := if cross then 1 else vc
    id at_ vc :: ringLinks n dir id k nxt vc

/-- The shorter direction and its distance on a ring of `n` places; a tie goes towards higher places (R259, R263). -/
def shorter (n a b : Nat) : Nat × Nat :=
  let up := (b + n - a) % n
  if up ≤ n - up then (0, up) else (1, n - up)

/-- The entry of the route table of stop `s` for stop `j`, as 16 × DIR + HOPS: the adopted table, before any adoption the
built-in shortest one (R260, R276). -/
def Pkg.routeEntry (p : Pkg) (d s j : Nat) : Nat :=
  if (p.page (pgRING d)).live.isSome then p.cf (pgRING d) (0x400 + 8 * s) (5 * j + 4) (5 * j)
  else if s = j then 0
  else let r := shorter 9 s j; r.1 * 16 + r.2

/-- The books of a boulevard part that follows a route entry; the last is an ejection only at the right stop. -/
def ringBooks (net d s j e : Nat) : List (Nat × Nat) :=
  if s = j then []
  else
    let dir := e / 16
    let hops := e % 16
    let stop := if dir = 0 then (s + hops) % 9 else (s + 18 - hops) % 9
    ((bookId net 0 0 4 s) :: ringLinks 9 dir (fun at_ vc => bookId net vc dir 0 at_) hops s 0 ++
      (if stop = j then [bookId net 0 0 5 j] else [])).map (fun b => (pgRING d, b))

/-- The books of a grid part: the avenue of the source to the column, the street to the row (R263). -/
def gridBooks (net a b : Nat) : List (Nat × Nat) :=
  let sx := a / 8 % 4
  let sy := a / 8 / 4
  let dx := b / 8 % 4
  let dy := b / 8 / 4
  let av := shorter 4 sx dx
  let st := shorter 4 sy dy
  (bookId net 0 0 4 a :: ringLinks 4 av.1 (fun x vc => bookId net vc av.1 1 (4 * sy + x)) av.2 sx 0 ++
    ringLinks 4 st.1 (fun y vc => bookId net vc st.1 2 (4 * y + dx)) st.2 sy 0 ++ [bookId net 0 0 5 b]).map
    (fun i => (pgGRID, i))

/-- The books of a part, and the route it follows on a boulevard. Mocor is crossed on VC0 (log entry 120). -/
def Pkg.legBooks (p : Pkg) (net : Nat) : Leg → List (Nat × Nat) × Option (Nat × Nat × Nat × Nat)
  | .ring d s j => let e := p.routeEntry d s j; (ringBooks net d s j e, some (d, s, j, e))
  | .mocor d up => ([(pgMP d, bookId net 0 (if up then 0 else 1) 3 d)], none)
  | .grid a b => (gridBooks net a b, none)

/-- The fields of an identifier. -/
def bookNet (b : Nat) : Nat := b / 16384
def bookVc (b : Nat) : Nat := b / 8192 % 2
def bookDir (b : Nat) : Nat := b / 4096 % 2
def bookKind (b : Nat) : Nat := b / 256 % 16
def bookIndex (b : Nat) : Nat := b % 256

/-- The page has a book of this identifier (R274): 216 of CDn.RING, 864 of HD.GRID, and those of a Mocor link at MPn. -/
def bookOf (pg b : Nat) : Bool :=
  let port := decide (bookIndex b / 8 < 16) && decide (bookIndex b % 8 < squarePorts (bookIndex b / 8))
  decide (b < 65536) &&
  (match blkOf pg with
    | some (.ring, _) =>
      (bookKind b == 0 && decide (bookIndex b < 9)) ||
      ((bookKind b == 4 || bookKind b == 5) && decide (bookIndex b < 9) && bookVc b == 0 && bookDir b == 0)
    | some (.grid, _) =>
      ((bookKind b == 1 || bookKind b == 2) && decide (bookIndex b < 16)) ||
      ((bookKind b == 4 || bookKind b == 5) && port && bookVc b == 0 && bookDir b == 0)
    | some (.mp, n) => bookKind b == 3 && bookIndex b == n
    | _ => false)

/-! ### Credits (R269 to R272) -/

def Pkg.book (p : Pkg) (b : Nat × Nat) : Book := tblGet (fun _ => Book.rest) p.fabric.books (b.1 * 65536 + b.2)
def Pkg.setBook (p : Pkg) (b : Nat × Nat) (x : Book) : Pkg :=
  { p with fabric := { p.fabric with books := tblSet (fun _ => Book.rest) p.fabric.books (b.1 * 65536 + b.2) x } }

/-- G of a book (R269). -/
def grantOf (b : Nat × Nat) : Nat := Config.grant b.1 (BitVec.ofNat 16 b.2)

/-- Buffers of a book in use, and flits on its wires. -/
def Pkg.buffered (p : Pkg) (b : Nat × Nat) : Nat :=
  (p.coh.net.filter (fun f => f.place == some b && !f.wire)).length + (p.book b).raw
def Pkg.onWires (p : Pkg) (b : Nat × Nat) : Nat := (p.coh.net.filter (fun f => f.place == some b && f.wire)).length

/-- A message can enter the receiver's buffers of a book (R271). -/
def Pkg.bufferFree (p : Pkg) (b : Nat × Nat) : Bool := p.buffered b == 0 || decide (p.buffered b < grantOf b)

/-- H + R + O less G of a book (R269, R270): 0 when no credit is lost or made. -/
def Pkg.bookDiff (p : Pkg) (b : Nat × Nat) : Int :=
  (p.book b).rets + p.onWires b + p.buffered b - (p.book b).spent

/-- A die's Mocor link is stalled or paused (R286). -/
def Pkg.linkHeld (p : Pkg) (d : Nat) : Bool := let st := p.rf (pgMP d) 0x200 3 0; st == 3 || st == 4

/-- The end of a Mocor link that sends on a book of a direction keeps at most 512 flits (R282). -/
def Pkg.retryFull (p : Pkg) (d : Nat) (toHub : Bool) : Bool :=
  let l := tblGet (fun _ => DieLink.reset) p.links d
  decide (512 ≤ (if toHub then l.die else l.hub).retry.length)

/-- The sender of a book has stopped: it is under repair, or its Mocor link is stalled, paused or full (R272, R282, R286). -/
def Pkg.bookStopped (p : Pkg) (b : Nat × Nat) : Bool :=
  p.fabric.repairs.any (fun x => x.1 == b.1 && x.2.1 == b.2) ||
  (bookKind b.2 == 3 && (p.linkHeld (bookIndex b.2) || p.retryFull (bookIndex b.2) (bookDir b.2 == 0)))

/-- The sender of a book may send: it has not stopped and holds a credit (R269). A book has at least one buffer. -/
def Pkg.bookOpen (p : Pkg) (b : Nat × Nat) : Bool :=
  !p.bookStopped b && (decide ((p.book b).spent ≤ 0) || decide ((p.book b).spent < (grantOf b : Int)))

/-- An interface holds back a flit that would follow a route entry while flits it injected for the same stop under another
entry are still on the ring (R261). -/
def Pkg.routeHeld (p : Pkg) (r : Option (Nat × Nat × Nat × Nat)) : Bool :=
  match r with
  | none => false
  | some (d, s, j, e) => p.coh.net.any (fun f => match f.route with
      | some (d', s', j', e') => d' == d && s' == s && j' == j && e' != e && (f.place.map (fun b => bookKind b.2)) != some 5
      | none => false)

/-- The book of a Mocor link on which an end receives, or with `sends` the one on which it sends. -/
def mocorBook (d : Nat) (atHub sends : Bool) (net vc : Nat) : Nat × Nat :=
  (pgMP d, bookId net vc (if atHub == sends then 1 else 0) 3 d)

/-- The command of a message that a Mocor flit brought takes it from its buffer, whose credit returns (R269, R281). -/
def Pkg.takeRaw (p : Pkg) (m : Msg) : Pkg :=
  let net := m.body.net
  let books := (match agentStop m.src m.line with | some (d, _) => [mocorBook d true false net 0, mocorBook d true false net 1] | none => []) ++
    (match agentStop m.dst m.line with | some (d, _) => [mocorBook d false false net 0, mocorBook d false false net 1] | none => [])
  match books.find? (fun b => decide (0 < (p.book b).raw)) with
  | some b => let x := p.book b; p.setBook b { x with raw := x.raw - 1, rets := x.rets + 1 }
  | none => p

/-- How a flit comes to its receiver now: it arrives, it must wait, or a stop that is not its destination drops it (the die
of that stop, R260). -/
inductive Ride where
  | arrives
  | waits
  | lost (d : Nat)
  deriving DecidableEq, Repr

/-- A boulevard part ends where the ring ejects to the right stop. -/
def partLost (l : Leg) (bs : List (Nat × Nat)) : Option Nat :=
  match l with
  | .ring d s j => if s = j ∨ (bs.getLast?.map (fun b => bookKind b.2)) = some 5 then none else some d
  | _ => none

/-- The parts of a way from their beginning. -/
def Pkg.rideLegs (p : Pkg) (net : Nat) : List Leg → Ride
  | [] => .arrives
  | l :: rest =>
    let r := p.legBooks net l
    if p.routeHeld r.2 || !r.1.all p.bookOpen then .waits
    else match partLost l r.1 with | some d => .lost d | none => p.rideLegs net rest

/-- The rest of a flit's way. -/
def Pkg.ride (p : Pkg) (f : Flit) : Ride :=
  if !f.path.all p.bookOpen then .waits
  else
    match f.route, (match f.path.getLast? with | some b => some b | none => f.place) with
    | some (d, _, _, _), some b => if bookKind b.2 = 5 then p.rideLegs f.msg.body.net f.legs else .lost d
    | _, _ => p.rideLegs f.msg.body.net f.legs

/-! ### Urgency (R264, R276, R277) -/

/-- The base urgency of an agent's requests. -/
def Pkg.urgBase (p : Pkg) (a : Nat) : Nat :=
  if a < 12 then p.cf (pgRING a) 0x448 11 8
  else if 0x20 ≤ a ∧ a < 0x2C then p.cf (pgRING (a - 0x20)) 0x448 11 8
  else
    let k := match a with
      | 0x3F => 0 | 0x10 => 1 | 0x11 | 0x12 => 2 | 0x13 => 3 | 0x1A | 0x1B => 5 | 0x1C | 0x1D => 6 | 0x1E => 7 | _ => 4
    p.cf pgGRID 0x408 (4 * k + 3) (4 * k)

/-- Put a message on its way. -/
def Pkg.send (p : Pkg) (m : Msg) : Pkg :=
  let f : Flit := { msg := m, legs := m.legs, path := [], place := none, wire := false, route := none, wait := 0 }
  { p with coh := { p.coh with net := p.coh.net ++ [f] } }

/-- A flit is dropped (R260, R271): bit 19 MISROUTE or 18 OVERFLOW of a page of the networks, and DROPCNT. -/
def Pkg.dropFlit (p : Pkg) (pg bit_ : Nat) : Pkg :=
  (p.addRf pg 0x228 63 0 1).setEvent pg bit_ 3 { Det.none with detail := p.reg pg 0x228 }

/-- A credit return leaves the receiver of a book. -/
def Pkg.returnCredit (p : Pkg) (b : Option (Nat × Nat)) : Pkg :=
  match b with
  | some b => p.setBook b { p.book b with rets := (p.book b).rets + 1 }
  | none => p

/-- The books of a fenced die are as after its reset. -/
def Pkg.dropBooks (p : Pkg) (d : Nat) : Pkg :=
  let mine := fun (pg : Nat) => pg == pgRING d || pg == pgMP d
  { p with fabric := { p.fabric with
      books := p.fabric.books.filter (fun e => !mine (e.1 / 65536))
      seen := p.fabric.seen.filter (fun x => !mine x.1)
      due := p.fabric.due.filter (fun x => !mine x.1)
      bad := p.fabric.bad.filter (fun x => !mine x.1)
      repairs := p.fabric.repairs.filter (fun x => !mine x.1)
      counts := p.fabric.counts.filter (fun x => !mine x.1) } }

end Sys2Proof.Machine
end

