-- ==== Sys2Proof/Machine/Coherence.lean ====
section
/-! DEFINITION. The coherence protocol: directory, homes, die agents, uncached accesses and domain checkstops
(R219 to R252). Messages in flight are held in `coh.net`; a row of the table is the arrival of one, and `settle`
delivers those of a line so that an access of the model is one step. -/

namespace Sys2Proof.Machine

/-! ### Domain checkstop (R249, R250) -/

/-- DCSVEC bit of a PID, the same in every slice. -/
def Pkg.dcs (p : Pkg) (pid : Nat) : Bool := bit (p.reg (pgDS 0) (0x238 + pid / 64 * 8)) (pid % 64)

/-- Write the DCSVEC bit of a PID in every slice. -/
def Pkg.setDcs (p : Pkg) (pid : Nat) (b : Bool) : Pkg :=
  (List.range 16).foldl (fun p n => p.setRf (pgDS n) (0x238 + pid / 64 * 8) (pid % 64) (pid % 64) b.toNat) p

/-- The set of a line in its slice (R226), as slice × 32,768 + set. -/
def dirKey (line : Nat) : Nat := mcOf line * 32768 + ((line % 32768) ^^^ (line / 32768 % 32768))

def Pkg.dirSet (p : Pkg) (k : Nat) : DirSet := tblGet (fun _ => DirSet.empty) p.coh.dirs k
def Pkg.setDirSet (p : Pkg) (k : Nat) (s : DirSet) : Pkg :=
  { p with coh := { p.coh with dirs := tblSet (fun _ => DirSet.empty) p.coh.dirs k s } }
def DirSet.ent (s : DirSet) (w : Nat) : Option DirEnt := tblGet (fun _ => none) s.ways w

/-- What an entry adds to LIVE and FENCED. -/
def entLive : Option DirEnt → Nat × Nat
  | none => (0, 0)
  | some e => if e.fenced then (0, 1) else (1, 0)

/-- Write a way of a directory set, keeping DIRCNT (R254). -/
def Pkg.putEnt (p : Pkg) (k w : Nat) (e : Option DirEnt) : Pkg :=
  let s := p.dirSet k
  let o := entLive (s.ent w)
  let n := entLive e
  let pg := pgDS (k / 32768)
  let live := p.rf pg 0x200 19 0 + n.1 - o.1
  let fen := p.rf pg 0x200 39 20 + n.2 - o.2
  let free := p.rf pg 0x200 59 40 + o.1 + o.2 - n.1 - n.2
  let p := p.setReg pg 0x200 (word [(40, free), (20, fen), (0, live)])
  p.setDirSet k { s with ways := tblSet (fun _ => none) s.ways w e }

/-- The way and entry of a line. -/
def Pkg.dirFind (p : Pkg) (line : Nat) : Option (Nat × DirEnt) :=
  (p.dirSet (dirKey line)).ways.findSome? (fun e =>
    match e.2 with
    | some x => if x.tag = line / 32768 then some (e.1, x) else none
    | none => none)

/-- Change the entry of a line. -/
def Pkg.dirModify (p : Pkg) (line : Nat) (f : DirEnt → Option DirEnt) : Pkg :=
  match p.dirFind line with
  | none => p
  | some (w, e) => p.putEnt (dirKey line) w (f e)

def Pkg.freeEnt (p : Pkg) (line : Nat) : Pkg := p.dirModify line (fun _ => none)

/-- FENCEVEC (R254). -/
def Pkg.fenceVec (p : Pkg) (n : Nat) : Nat := p.rf (pgDS n) 0x208 11 0

/-- The dies in a presence vector. -/
def presDies (v : Nat) : List Nat := (List.range 12).filter (fun d => v / 2 ^ d % 2 == 1)

/-- The rules of R229 on an entry. -/
def entOk (fv : Nat) (e : DirEnt) : Bool :=
  (if e.own then popCount 12 e.pres == 1 else decide (1 ≤ popCount 12 e.pres)) && (e.fenced == (e.pres &&& fv != 0))

/-- The partition that a logical core counts for: a core held for a drain counts for the one it leaves (R248). -/
def Pkg.countedPid (p : Pkg) (lc : Nat) : Nat :=
  match tblGet (fun _ => none) p.stw.held lc with
  | some (q, _) => q
  | none => p.lcpid lc

/-- Every logical core of a partition stops where it stands (R250 step 3). -/
def Pkg.stopCores (p : Pkg) (pid : Nat) : Pkg :=
  (List.range 216).foldl
    (fun p lc => if p.countedPid lc = pid then p.setCore lc { p.core lc with run := .stopped } else p) p

/-- Every queue pair of a checkstopped PID halts, and its commands that are not admitted end (R363). -/
def Pkg.ledgerDcs (p : Pkg) (pid : Nat) : Pkg :=
  let l := p.ledger
  let mine := fun (q : Nat) => let x := tblGet (fun _ => QueuePair.reset) l.qps q; x.pid == pid && x.st != 0
  { p with ledger := { l with
    qps := l.qps.map (fun e => if mine e.1 then (e.1, { e.2 with st := 3, cause := 3 }) else e),
    slots := l.slots.map (fun e => (e.1, e.2.map (fun c =>
      if mine c.qp && c.adm.isNone && c.fin.isNone && c.mirror.isNone then { c with fin := some (0x0C, 0) } else c))) } }

/-- Pages of cipher engine e: 0 to 11 a die's, 12 HCE0, 13 HCE1 (R368). -/
def cePage (e : Nat) : Nat := if e < 12 then pgCE e else pgHCE (e - 12)

/-- The PID that owns slot k of engine e (R388). -/
def Pkg.slotPid (p : Pkg) (e k : Nat) : Nat := p.cf (cePage e) (0x400 + 16 * k) 62 56

/-- Every slot of a checkstopped PID halts, and its message ends with no write-back (R386). -/
def Pkg.cipherDcs (p : Pkg) (pid : Nat) : Pkg :=
  let hit := fun (e : Nat × CipherSlot) => e.2.st != 0 && p.slotPid (e.1 / 16) (e.1 % 16) == pid
  let gone := (p.ce.slots.filter hit).map (·.1)
  let p := gone.foldl (fun p k => p.setEvent (cePage (k / 16)) 18 3) p
  { p with ce := { p.ce with
    slots := p.ce.slots.map (fun e =>
      if gone.contains e.1 then (e.1, { e.2 with st := 2, cause := 2, msg := none, susp := false, save := none }) else e),
    engs := p.ce.engs.map (fun g => (g.1, match g.2.running with
      | some k => if gone.contains (g.1 * 16 + k) then { g.2 with running := none } else g.2
      | none => g.2)) } }

/-! ### Messages -/

/-- The message of a request on its way to its home. -/
def HomeReq.msg (r : HomeReq) : Msg :=
  { body := .req r, line := r.line, pid := r.pid, src := r.src, dst := 0x3F, txid := r.txid, urg := r.urg }

/-- What the home sends the requester; it starts at the urgency with which the request arrived (R264). -/
def HomeReq.answer (r : HomeReq) (b : MsgBody) : Msg :=
  { body := b, line := r.line, pid := r.pid, src := 0x3F, dst := r.src, txid := r.txid, urg := r.urg }

/-- The answer of a message's receiver to its sender (R264). -/
def Msg.answer (m : Msg) (b : MsgBody) : Msg := { m with body := b, src := m.dst, dst := m.src }

/-- CONFQ counts the requests that wait at a slice (R254). -/
def Pkg.refreshConfq (p : Pkg) (n : Nat) : Pkg :=
  let occ := min 64 (p.coh.confq.filter (fun r => mcOf r.line == n)).length
  (p.setRf (pgDS n) 0x210 7 0 occ).setRf (pgDS n) 0x210 15 8 (max occ (p.rf (pgDS n) 0x210 15 8))

/-- A domain checkstop of a PID (R250 steps 1 to 3): `det` is the detector's agent number for the DCS event. Its
transactions and its waiting requests, also those that wait behind an invalidation, end with Err DCS; an invalidation of a
line of it goes on for the request of another PID that waits for it. -/
def Pkg.raiseDcs (p : Pkg) (pid det : Nat) : Pkg :=
  if 128 ≤ pid ∨ p.dcs pid then p
  else
    let p := p.setDcs pid true
    let p := p.setPart pid { p.part pid with st := .checkstopped, logged := false }
    let own := fun (t : Txn) => t.req.pid == pid && !t.inval
    let mine := p.coh.txns.filter own
    let behind := p.coh.txns.filterMap (fun t => if t.inval then t.then_.filter (fun r => r.pid == pid) else none)
    let waiting := p.coh.confq.filter (fun r => r.pid == pid)
    let p := { p with coh := { p.coh with
      txns := (p.coh.txns.filter (fun t => !own t)).map (fun t =>
        if t.inval then { t with then_ := t.then_.filter (fun r => r.pid != pid) } else t),
      confq := p.coh.confq.filter (fun r => r.pid != pid),
      sweeps := tblSet (fun _ => 0) p.coh.sweeps pid (det + 1),
      dcsLines := p.coh.dcsLines ++ mine.map (fun (t : Txn) => (t.req.line, pid)) } }
    let p := (mine.map (·.req) ++ behind ++ waiting).foldl (fun (p : Pkg) (r : HomeReq) => p.send (r.answer (.err 3))) p
    let p := mine.foldl (fun (p : Pkg) (t : Txn) => p.dirModify t.req.line (fun e => some { e with busy := false })) p
    let p := waiting.foldl (fun (p : Pkg) (r : HomeReq) => p.refreshConfq (mcOf r.line)) p
    ((p.stopCores pid).ledgerDcs pid).cipherDcs pid

/-- A protocol error that slice DSn finds (R249). -/
def Pkg.protoError (p : Pkg) (n pid line : Nat) : Pkg :=
  let d := { Det.none with pids := [pid], addr := line * 64 }
  let p := p.setEvent (pgDS n) 18 4 d
  let p := if p.dcs pid then p else p.setEvent (pgDS n) 19 4 d
  p.raiseDcs pid 0x3F

/-- A message that matches no transaction is a protocol error of the PID it carries; one of a checkstopped PID is left over
from what the checkstop ended (R249, R250). -/
def Pkg.unmatched (p : Pkg) (m : Msg) : Pkg := if p.dcs m.pid then p else p.protoError (mcOf m.line) m.pid m.line

/-! ### Requesters -/

/-- The page whose initiators an agent belongs to (R266). Agents 0x30 to 0x3F stand for the homes DS0 to DS15 as initiators
of their snoops. -/
def agentPage (a : Nat) : Nat := if a < 12 then pgRING a else if 0x20 ≤ a ∧ a < 0x2C then pgRING (a - 0x20) else pgGRID

def Pkg.agentReqs (p : Pkg) (a : Nat) : List AgentReq := tblGet (fun _ => []) p.coh.reqs a
def Pkg.setAgentReqs (p : Pkg) (a : Nat) (l : List AgentReq) : Pkg :=
  { p with coh := { p.coh with reqs := tblSet (fun _ => []) p.coh.reqs a l } }

/-- The requester's record of a request. -/
def Pkg.noteReq (p : Pkg) (r : HomeReq) : Pkg :=
  if (p.agentReqs r.src).any (fun q => q.txid == r.txid && q.line == r.line) then p
  else p.setAgentReqs r.src (p.agentReqs r.src ++
    [{ kind := r.kind, line := r.line, pid := r.pid, txid := r.txid, cmp := none, data := none, urg := r.urg, age := 0 }])

def Pkg.dieLines (p : Pkg) (d : Nat) : Tbl DLine := tblGet (fun _ => []) p.coh.dies d
def Pkg.setDieLines (p : Pkg) (d : Nat) (t : Tbl DLine) : Pkg :=
  { p with coh := { p.coh with dies := tblSet (fun _ => []) p.coh.dies d t } }
def Pkg.dline (p : Pkg) (d line : Nat) : Option DLine := tblFind (p.dieLines d) line
def Pkg.putDline (p : Pkg) (d line : Nat) (x : Option DLine) : Pkg :=
  p.setDieLines d (match x with | some v => tblInsert (p.dieLines d) line v | none => tblErase (p.dieLines d) line)

/-- The lowest TXID an agent has neither in use nor in quarantine; none: it issues nothing new (R267). -/
def Pkg.freeTxid (p : Pkg) (a : Nat) : Option Nat :=
  let used := (p.agentReqs a).map (·.txid) ++ (p.coh.quarantine.filter (fun q => q.1 == a)).map (·.2) ++
    ((p.dieLines a).filter (fun e => e.2.evicting)).map (fun e => e.2.evTx)
  (List.range 1024).find? (fun t => !used.contains t)

/-- QUAR of a page counts the TXIDs of its initiators in quarantine (R267, R275). -/
def Pkg.refreshQuar (p : Pkg) (pg : Nat) : Pkg :=
  p.setRf pg 0x220 15 0 (min 65535 (p.coh.quarantine.filter (fun q => agentPage q.1 == pg)).length)

/-- A message for a TXID in quarantine is late: dropped and counted, the TXID is freed (R267). -/
def Pkg.lateMsg (p : Pkg) (a txid : Nat) : Pkg :=
  let p := { p with coh := { p.coh with quarantine := p.coh.quarantine.filter (fun q => q != (a, txid)) } }
  (p.addRf (agentPage a) 0x218 63 0 1).refreshQuar (agentPage a)

/-- The quarantined TXIDs of an initiator are freed: its block is reset, or its die is fenced (R267). -/
def Pkg.freeQuarantine (p : Pkg) (a : Nat) : Pkg :=
  ({ p with coh := { p.coh with quarantine := p.coh.quarantine.filter (fun q => q.1 != a) } }).refreshQuar (agentPage a)

/-- A message that no transaction of agent `a` awaits: late, or unmatched. -/
def Pkg.stray (p : Pkg) (a : Nat) (m : Msg) : Pkg :=
  if p.coh.quarantine.contains (a, m.txid) then p.lateMsg a m.txid else p.unmatched m

/-! ### Homes (R234 to R242) -/

/-- A request of the plain kinds. -/
def mkReq (k : ReqKind) (line pid src txid : Nat) : HomeReq :=
  { kind := k, line := line, pid := pid, src := src, txid := txid, off := 0, len := 64, op := 0, bytes := [], mask := 0,
    carry := false, poison := false, ready := true, urg := 0 }

/-- An entry of a line breaks the rules of R229: the line waits for the sweep that frees it. -/
def Pkg.entBroken (p : Pkg) (line : Nat) : Bool :=
  match p.dirFind line with | some (_, e) => !entOk (p.fenceVec (mcOf line)) e | none => false

/-- A transaction is in progress for a line, a request for it waits behind one, or a WbD of it waits for its data. -/
def Pkg.lineBusy (p : Pkg) (line : Nat) : Bool :=
  p.coh.txns.any (fun t => t.req.line == line || t.then_.any (fun r => r.line == line)) ||
  p.coh.wbWait.any (fun w => w.1.line == line && !w.2)

def Pkg.enqueue (p : Pkg) (r : HomeReq) : Pkg :=
  let p := ({ p with coh := { p.coh with confq := p.coh.confq ++ [r] } }).refreshConfq (mcOf r.line)
  p.evCount none 2 (mcOf r.line) (some r.pid) 0 1

/-- Send the snoops of a transaction. `k` is 0 SnpInv, 1 SnpShr, 2 SnpFwd. A fenced die is answered by the slice: the
line of an owner is written to memory as poisoned, a sharer is absent (R246). -/
def Pkg.snoop (p : Pkg) (k : Nat) (r : HomeReq) (fwd : Nat) (own : Bool) (dies : List Nat) : List Nat × Pkg :=
  let fv := p.fenceVec (mcOf r.line)
  dies.foldl (fun (a : List Nat × Pkg) d =>
    if fv / 2 ^ d % 2 = 1 then
      (a.1, if own then (a.2.poisonLine r.line r.pid).addRf (pgDS (mcOf r.line)) 0x230 63 0 1 else a.2)
    else
      (a.1 ++ [d], (a.2.evCount none 3 (mcOf r.line) (some r.pid) 1 1).send
        { r.answer (match k with | 0 => .snpInv | 1 => .snpShr fwd | _ => .snpFwd fwd) with dst := d })) ([], p)

/-- A transaction that has just begun. -/
def newTxn (r : HomeReq) (snooped : List Nat) (inval : Bool) (th : Option HomeReq) : Txn :=
  { req := r, snoops := snooped, snooped := snooped, await := [], held := [], data := none, dirty := false, poison := false,
    present := false, granted := false, inval := inval, then_ := th, age := 0 }

/-- Open a transaction: its entry shows BUSY and its snoops are sent. -/
def Pkg.openTxn (p : Pkg) (r : HomeReq) (k fwd : Nat) (own : Bool) (dies : List Nat) : Pkg :=
  let p := p.dirModify r.line (fun e => some { e with busy := true })
  let (out, p) := p.snoop k r fwd own dies
  { p with coh := { p.coh with txns := p.coh.txns ++ [newTxn r out false none] } }

/-- Invalidate the line of an entry for a request that waits for it (R228, R236). -/
def Pkg.openInval (p : Pkg) (line : Nat) (e : DirEnt) (r : HomeReq) : Pkg :=
  let v := { mkReq .iowr line e.pid 0x3F r.txid with urg := r.urg }
  let p := p.dirModify line (fun e => some { e with busy := true })
  let (out, p) := p.snoop 0 v 0x3F e.own (presDies e.pres)
  { p with coh := { p.coh with txns := p.coh.txns ++ [newTxn v out true (some r)] } }

/-- The free way of a directory set, or the victim among entries that are not busy (R228). -/
def Pkg.dirVictim (p : Pkg) (k : Nat) : Option Nat :=
  let s := p.dirSet k
  plruVictim 16 s.plru (fun w => match s.ent w with | some e => !e.busy | none => true) (fun w => (s.ent w).isSome)

/-- The kinds that need a directory entry. -/
def ReqKind.caches : ReqKind → Bool
  | .rds | .rdo | .upg => true
  | .iord | .iowr => false

/-- A copying SET holds every new access to the row that its entry names (R326). -/
def Pkg.rowHeld (p : Pkg) (line : Nat) : Bool :=
  match (p.ctl (mcOf line)).copying with
  | some (_, e, _) => fld e 58 56 == pchOf line && fld e 52 48 == bankOf line && fld e 46 32 == rowOf line
  | none => false

/-- A request can start: nothing of its line is in progress, its row is not held, and the directory has a way for it (R228, R234,
R326). -/
def Pkg.startable (p : Pkg) (r : HomeReq) : Bool :=
  !p.lineBusy r.line && !p.entBroken r.line && !p.rowHeld r.line &&
  ((p.dirFind r.line).isSome || !r.kind.caches || (p.dirVictim (dirKey r.line)).isSome)

/-- Start serving a request (R228, R236, R237). -/
def Pkg.startReq (p : Pkg) (r : HomeReq) : Pkg :=
  let n := mcOf r.line
  let pg := pgDS n
  if p.dcs r.pid then p.send (r.answer (.err 3))
  else
    match p.dirFind r.line with
    | some (_, e) =>
      if e.pid ≠ r.pid then (p.addRf pg 0x228 63 0 1).openInval r.line e r
      else if r.kind.caches ∧ e.own ∧ e.pres = 2 ^ r.src ∧ r.kind ≠ .upg then
        (p.protoError n r.pid r.line).send (r.answer (.err 3))
      else
        match r.kind with
        | .rds => if e.own then p.openTxn r 1 r.src true (presDies e.pres) else p.openTxn r 0 0x3F false []
        | .rdo | .upg =>
          if e.own then p.openTxn r 2 r.src true (presDies e.pres)
          else p.openTxn r 0 0x3F false ((presDies e.pres).filter (· != r.src))
        | .iord => if e.own then p.openTxn r 1 0x3F true (presDies e.pres) else p.openTxn r 0 0x3F false []
        | .iowr => p.openTxn r 0 0x3F e.own (presDies e.pres)
    | none =>
      if r.kind.caches then
        match p.dirVictim (dirKey r.line) with
        | none => p.enqueue r
        | some w =>
          let k := dirKey r.line
          match (p.dirSet k).ent w with
          | some v =>
            let set := k % 32768
            let vline := v.tag * 32768 + (set ^^^ (v.tag % 32768))
            let p := (presDies v.pres).foldl (fun p d => p.evCount (some d) 6 (sliceOf vline) (some v.pid) 1 1) p
            (p.addRf pg 0x220 63 0 1).openInval vline v r
          | none =>
            let p := p.putEnt k w (some { own := true, fenced := false, busy := true, pid := r.pid, pres := 2 ^ r.src,
                                          tag := r.line / 32768 })
            let s := p.dirSet k
            let p := p.setDirSet k { s with plru := plruAccess 16 s.plru w false }
            { p with coh := { p.coh with txns := p.coh.txns ++ [newTxn r [] false none] } }
      else p.openTxn r 0 0x3F false []

/-- A request finds the entry of its line broken (R229): a protocol error of the entry's PID; a request of that PID is
answered Err DCS, another waits until the entry is freed. -/
def Pkg.findBroken (p : Pkg) (r : HomeReq) : Pkg :=
  match p.dirFind r.line with
  | some (_, e) =>
    let p := if p.dcs e.pid then p else p.protoError (mcOf r.line) e.pid r.line
    if e.pid = r.pid then p.send (r.answer (.err 3)) else p.enqueue r
  | none => p

/-- A request reaches its home (R229, R234, R250 step 2, R567). -/
def Pkg.homeReq (p : Pkg) (r : HomeReq) : Pkg :=
  let p := (p.noteReq r).evCount none 1 (mcOf r.line) (some r.pid) 0 1
  if hbmSize ≤ r.line * 64 then p.send (r.answer (.err 2))
  else if p.dcs r.pid then p.send (r.answer (.err 3))
  else if p.serveOf r.line = .addr then p.send (r.answer (.err 2))
  else if p.entBroken r.line then p.findBroken r
  else if p.startable r && !p.coh.confq.any (fun q => q.line == r.line) then p.startReq r
  else p.enqueue r

/-- What the code of a line's entry shows to a request that reads it (R229). -/
def Pkg.readCode (p : Pkg) (line : Nat) (code : DirCode) : Pkg :=
  let pg := pgDS (mcOf line)
  if (p.dirFind line).isNone then p
  else match code with
    | .clean => p
    | .corrected => p.setEvent pg 16 1
    | .uncorrectable => p.hubFail pg

/-- Close a transaction: BUSY returns to 0, and an entry that no die is left in is freed (R242). -/
def Pkg.closeTxn (p : Pkg) (line txid : Nat) : Pkg :=
  let p := { p with coh := { p.coh with
    txns := p.coh.txns.filter (fun t => !(t.req.line == line && t.req.txid == txid)) } }
  p.dirModify line (fun e => if e.pres = 0 then none else some { e with busy := false })

/-- The atomic operations of R233 on `n` bytes: (new value). -/
def ioAtomic (op n old : Nat) (operand : List Byte) (carry : Bool) : Nat :=
  let v := leNat (operand.take n)
  let m := 2 ^ (8 * n)
  match op with
  | 1 => if old = v then leNat ((operand.drop n).take n) else old
  | 2 => (old + v + carry.toNat) % m
  | 3 => (old + 2 * m - v - carry.toNat) % m
  | 4 => old &&& v
  | 5 => old ||| v
  | 6 => old ^^^ v
  | 7 => old &&& (m - 1 - v)
  | _ => old

/-- The bytes [off, off + n) of a line replaced. -/
def putSlice (l : List Byte) (off : Nat) (bs : List Byte) : List Byte :=
  l.take off ++ bs ++ l.drop (off + bs.length)

/-- Grant a line to the requester: Data when it comes from the home, Cmp, and the next entry (R237, R238). -/
def Pkg.grant (p : Pkg) (t : Txn) (g : Nat) (df : Bool) (d : Option (List Byte × Bool × Bool)) (own : Bool) (pres : Nat) :
    Pkg :=
  let r := t.req
  let p := match d with
    | some (b, dirty, poison) => p.send (r.answer (.data b dirty poison))
    | none => p
  let p := p.send (r.answer (.cmp g df))
  let fv := p.fenceVec (mcOf r.line)
  let p := p.dirModify r.line (fun e => some { e with own := own, pres := pres, pid := r.pid, fenced := pres &&& fv != 0 })
  { p with coh := { p.coh with txns := p.coh.txns.map (fun u =>
      if u.req.line = r.line ∧ u.req.txid = r.txid then { u with granted := true } else u) } }

/-- Drop the record of a transaction. -/
def Pkg.dropTxn (p : Pkg) (r : HomeReq) : Pkg :=
  { p with coh := { p.coh with txns := p.coh.txns.filter (fun u => !(u.req.line == r.line && u.req.txid == r.txid)) } }

/-- Dirty data that reached the home goes to memory under the transaction's PID (R228, R236, R237). -/
def Pkg.writeBack (p : Pkg) (t : Txn) : Pkg :=
  match t.data with
  | some b => if t.dirty then (p.lineWrite t.req.line t.req.pid b t.poison).2 else p
  | none => p

/-- The line from memory, granted; or an error response (R567). -/
def Pkg.grantMem (p : Pkg) (t : Txn) (g : Nat) (own : Bool) (pres : Nat) : Pkg :=
  let r := t.req
  match p.lineRead r.line r.pid r.src with
  | (.addr, p) => ((p.freeEnt r.line).dropTxn r).send (r.answer (.err 2))
  | (.line b poison, p) => p.grant t g true (some (b, false, poison)) own pres

/-- Complete an IoRd (R237, R241): an owner that was present keeps the line in S, one that was not leaves it in U. -/
def Pkg.finishIord (p : Pkg) (t : Txn) (own : Bool) : Pkg :=
  let r := t.req
  let p := p.writeBack t
  let res : LineAns × Pkg := match t.data with
    | some b => (.line b t.poison, p)
    | none => p.lineRead r.line r.pid r.src
  match res with
  | (.addr, p) => (p.closeTxn r.line r.txid).send (r.answer (.err 2))
  | (.line b poison, p) =>
    let p := p.send (r.answer (.data ((b.drop r.off).take r.len) false poison))
    let p := p.send (r.answer (.cmp 0 true))
    let p := if !own then p
      else if t.present then p.dirModify r.line (fun e => some { e with own := false })
      else p.freeEnt r.line
    p.closeTxn r.line r.txid

/-- Complete an IoWr (R233, R237, R241). -/
def Pkg.finishIowr (p : Pkg) (t : Txn) : Pkg :=
  let r := t.req
  let full := r.op = 0 ∧ r.off = 0 ∧ r.mask = 2 ^ 64 - 1
  let base : LineAns × Pkg :=
    if full then (.line r.bytes r.poison, p)
    else match t.data with
      | some b => (.line b t.poison, p)
      | none => p.lineRead r.line r.pid r.src
  match base with
  | (.addr, p) => (p.closeTxn r.line r.txid).send (r.answer (.err 2))
  | (.line b poison, p) =>
    let old := (b.drop r.off).take r.len
    let new := if r.op = 0 then (if full then b else mergeBytes b r.bytes r.off r.mask)
      else putSlice b r.off (leBytes r.len (ioAtomic r.op r.len (leNat old) r.bytes r.carry))
    match p.lineWrite r.line r.pid new (poison || r.poison) with
    | (false, p) => (p.closeTxn r.line r.txid).send (r.answer (.err 2))
    | (true, p) =>
      let p := if r.op = 0 then p else p.send (r.answer (.data old false poison))
      let p := p.send (r.answer (.cmp 0 (r.op != 0)))
      (p.freeEnt r.line).dropTxn r

/-- Every answer of a transaction is in: complete it (R228, R236, R237, R241). -/
def Pkg.finishTxn (p : Pkg) (t : Txn) : Pkg :=
  let r := t.req
  if t.inval then
    let p := ((p.writeBack t).freeEnt r.line).dropTxn r
    match t.then_ with
    | some r2 => p.startReq r2
    | none => p
  else
    let ent := (p.dirFind r.line).map (·.2)
    let pres : Nat := match ent with | some e => e.pres | none => 0
    let own : Bool := match ent with | some e => e.own | none => false
    let me := 2 ^ r.src
    match r.kind with
    | .rds =>
      if own ∧ t.snooped ≠ [] ∧ t.present then (p.writeBack t).grant t 1 true none false (pres ||| me)
      else if t.snooped ≠ [] then
        match t.data with
        | some b => (p.writeBack t).grant t 2 true (some (b, false, t.poison)) true me
        | none => p.grantMem t 2 true me
      else if own ∨ pres = 0 then p.grantMem t 2 true me
      else p.grantMem t 1 false (pres ||| me)
    | .rdo | .upg =>
      if own ∧ t.present ∧ t.snooped ≠ [] then p.grant t 3 true none true me
      else
        match t.data with
        | some b => p.grant t 3 true (some (b, t.dirty, t.poison)) true me
        | none =>
          if r.kind = .upg ∧ !own ∧ pres / me % 2 = 1 then p.grant t 3 false none true me
          else p.grantMem t 3 true me
    | .iord => p.finishIord t own
    | .iowr => p.finishIowr t

/-- A transaction has all it waits for: every SnpRsp, the WbData of a wb-in-flight answer or of an owner that was present,
and for an IoRd of a present owner the Data (R232, R237, R244). -/
def Pkg.txnReady (p : Pkg) (t : Txn) : Bool :=
  t.snoops.isEmpty && t.await.isEmpty && !t.granted && t.req.ready &&
  !(t.present && t.req.kind == .iord && t.data.isNone) &&
  !p.coh.net.any (fun f => match f.msg.body with
    | .wbData _ _ _ _ => f.msg.line == t.req.line && f.msg.txid == t.req.txid && t.snooped.contains f.msg.src
    | _ => false)

/-- The first transaction whose answers are all in. -/
def Pkg.readyTxn (p : Pkg) : Option Txn := p.coh.txns.find? p.txnReady

/-- Serve the oldest waiting request of a line, when it can start (R234). -/
def Pkg.serveNext (p : Pkg) (line : Nat) : Pkg :=
  match findIdx? (fun r => r.line == line) p.coh.confq with
  | none => p
  | some (i, r) =>
    if p.startable r then
      let p := { p with coh := { p.coh with confq := p.coh.confq.eraseIdx i } }
      (p.refreshConfq (mcOf line)).startReq r
    else p

/-- Complete every transaction that is ready. -/
def Pkg.homeRun : Nat → Pkg → Pkg
  | 0, p => p
  | k + 1, p => match p.readyTxn with | some t => Pkg.homeRun k (p.finishTxn t) | none => p

/-! ### Evictions (R235, R242) -/

/-- The WbData of an eviction. -/
def wbDataOf (m w : Msg) : Bool := w.src == m.src && w.line == m.line && w.txid == m.txid

/-- A stale eviction: its data is discarded, STALE counts it, Ack is sent (R242). -/
def Pkg.staleEvict (p : Pkg) (m : Msg) : Pkg :=
  let p := p.addRf (pgDS (mcOf m.line)) 0x218 63 0 1
  let had := p.coh.wb.any (wbDataOf m)
  let p := { p with coh := { p.coh with
    wb := p.coh.wb.filter (fun w => !wbDataOf m w),
    wbWait := if m.body = MsgBody.wbd ∧ !had then p.coh.wbWait ++ [(m, true)] else p.coh.wbWait } }
  p.send (m.answer .ack)

/-- A WbD whose data is at the home: write memory, free the entry, Ack (R242). -/
def Pkg.applyWbd (p : Pkg) (m : Msg) : Pkg :=
  match p.coh.wb.find? (wbDataOf m) with
  | none => { p with coh := { p.coh with wbWait := p.coh.wbWait ++ [(m, false)] } }
  | some w =>
    let p := { p with coh := { p.coh with wb := p.coh.wb.filter (fun w => !wbDataOf m w) } }
    let p := match w.body with
      | .wbData b _ _ poison => (p.lineWrite m.line m.pid b poison).2
      | _ => p
    (p.freeEnt m.line).send (m.answer .ack)

/-- An EvC: the sender's bit is cleared and an entry that no die is left in is freed, at once or, of a busy line, when its
transaction ends (R242). -/
def Pkg.applyEvc (p : Pkg) (m : Msg) : Pkg :=
  (p.dirModify m.line (fun e =>
    let v := e.pres &&& (0xFFF - 2 ^ m.src)
    if v = 0 ∧ !e.busy then none else some { e with pres := v })).send (m.answer .ack)

/-- WbD or EvC reaches its home (R229, R235, R242). One that carries another PID than the entry is stale (log entry 124). -/
def Pkg.homeEvict (p : Pkg) (m : Msg) : Pkg :=
  let d := m.src
  let stale : Bool := match p.dirFind m.line with | some (_, e) => e.pid != m.pid || e.pres / 2 ^ d % 2 == 0 | none => true
  let p := match p.dirFind m.line with
    | some (_, e) =>
      if entOk (p.fenceVec (mcOf m.line)) e || e.busy || p.dcs e.pid then p else p.protoError (mcOf m.line) e.pid m.line
    | none => p
  let apply := fun (p : Pkg) => if stale then p.staleEvict m else if m.body = MsgBody.wbd then p.applyWbd m else p.applyEvc m
  match p.coh.txns.find? (fun t => t.req.line == m.line) with
  | some t =>
    if t.snoops.contains d then
      { p with coh := { p.coh with txns := p.coh.txns.map (fun u =>
          if u.req.line = m.line then { u with held := u.held ++ [m] } else u) } }
    else if t.snooped.contains d then p.staleEvict m
    else apply p
  | none => apply p

/-- SnpRsp reaches its home: 0 absent, 1 present, 2 wb-in-flight, whose WbData follows (R232, R237, R242, R244). -/
def Pkg.homeSnpRsp (p : Pkg) (m : Msg) (resp : Nat) : Pkg :=
  let d := m.src
  let is := fun (t : Txn) => t.req.line == m.line && t.req.txid == m.txid && t.req.pid == m.pid
  match p.coh.txns.find? (fun t => is t && t.snoops.contains d) with
  | none => p.stray (0x30 + mcOf m.line) m
  | some t =>
    let held := t.held.filter (fun h => h.src == d)
    let p := { p with coh := { p.coh with txns := p.coh.txns.map (fun u =>
        if is u then
          { u with snoops := u.snoops.filter (· != d), present := u.present || resp == 1,
                   await := if resp = 2 ∧ u.data.isNone then u.await ++ [d] else u.await,
                   held := u.held.filter (fun h => h.src != d) } else u) } }
    let p := if resp = 0 then
        p.dirModify m.line (fun e => if e.own then some e else some { e with pres := e.pres &&& (0xFFF - 2 ^ d) })
      else p
    held.foldl (fun (p : Pkg) (h : Msg) => p.staleEvict h) p

/-- WbData reaches a home: for a snoop, a WbD, or an IoWr (R230). The carry of an ADD or SUB is bit 0 of the byte that
follows its operand (R233). Data that comes ahead of its WbD or IoWr, which travels on another network, is kept for it (log
entry 125). -/
def Pkg.homeWbData (p : Pkg) (m : Msg) (b : List Byte) (mask : Nat) (dirty poison : Bool) : Pkg :=
  let isIo := fun (r : HomeReq) => r.kind == .iowr && r.src == m.src && r.txid == m.txid && r.line == m.line && !r.ready
  let fill := fun (r : HomeReq) =>
    { r with bytes := b, mask := mask, poison := poison, ready := true, off := if r.op = 0 then 0 else r.off,
             carry := decide (r.op = 2 ∨ r.op = 3) && (b.getD r.len 0).getLsbD 0 }
  let snooped := fun (t : Txn) => t.req.line == m.line && t.req.txid == m.txid && t.snooped.contains m.src && !t.dirty
  if p.coh.txns.any (fun t => isIo t.req) ∨ p.coh.confq.any isIo ∨ p.coh.txns.any (fun t => t.then_.any isIo) then
    { p with coh := { p.coh with
        txns := p.coh.txns.map (fun t =>
          if isIo t.req then { t with req := fill t.req }
          else { t with then_ := t.then_.map (fun r => if isIo r then fill r else r) }),
        confq := p.coh.confq.map (fun r => if isIo r then fill r else r) } }
  else if p.coh.txns.any snooped then
    { p with coh := { p.coh with txns := p.coh.txns.map (fun t =>
        if snooped t then
          { t with data := some b, dirty := dirty, poison := poison, await := t.await.filter (· != m.src) }
        else t) } }
  else
    let p := { p with coh := { p.coh with wb := p.coh.wb ++ [m] } }
    match p.coh.wbWait.find? (fun w => wbDataOf w.1 m) with
    | some (e, discard) =>
      let p := { p with coh := { p.coh with wbWait := p.coh.wbWait.filter (fun w => !wbDataOf w.1 m) } }
      if discard then { p with coh := { p.coh with wb := p.coh.wb.filter (fun w => !wbDataOf e w) } } else p.applyWbd e
    | none => p

/-- The WbData that came ahead of an IoWr is taken with it. -/
def Pkg.earlyData (p : Pkg) (r : HomeReq) : Pkg :=
  if r.kind = .iowr ∧ !r.ready then
    match p.coh.wb.find? (wbDataOf r.msg) with
    | some w =>
      let p := { p with coh := { p.coh with wb := p.coh.wb.filter (fun w => !wbDataOf r.msg w) } }
      match w.body with
      | .wbData b mask dirty poison => p.homeWbData w b mask dirty poison
      | _ => p
    | none => p
  else p

/-- The requester's Ack ends its transaction (R234); an unknown one is a protocol error (R249). -/
def Pkg.homeAck (p : Pkg) (m : Msg) : Pkg :=
  if p.coh.txns.any (fun t => t.req.line == m.line && t.req.txid == m.txid && t.req.src == m.src && t.req.pid == m.pid &&
      t.granted) then
    p.closeTxn m.line m.txid
  else p.unmatched m

/-! ### Die agents (R238, R239) -/

/-- The L3 slice of a line on a die answers snoops. -/
def Pkg.l3Up (p : Pkg) (d line : Nat) : Bool := !p.loadHold (pgL3 d (sliceOf line))

/-- The slice recalls a line from every L2 and L1 of the die (R222); the L3 keeps it, clean. -/
def Pkg.dieRecall (p : Pkg) (d line : Nat) : Pkg :=
  let p := ((dieArrays d).filter (· < 528)).foldl (fun (p : Pkg) (c : Nat) => p.cacheDrop c line) p
  p.cacheModify (cL3 (d * 2 + sliceOf line)) line (fun w => { w with dirty := false })

/-- A snoop reaches a die (R239). A line of another PID is not the snooped one (R219). -/
def Pkg.dieSnoop (p : Pkg) (m : Msg) : Pkg :=
  let d := m.dst
  let line := m.line
  let p := p.evCount (some d) 5 (sliceOf line) (some m.pid) 1 1
  match (if p.l3Up d line then (p.dline d line).filter (fun x => x.pid == m.pid) else none) with
  | none => p.send (m.answer (.snpRsp 0))
  | some x =>
    let wb := fun (p : Pkg) => p.send (m.answer (.wbData x.data (2 ^ 64 - 1) true x.poison))
    if x.evicting then
      if x.st = .m then (wb p).send (m.answer (.snpRsp 2)) else p.send (m.answer (.snpRsp 0))
    else
      let gone := fun (p : Pkg) => (p.dieDrop d line).putDline d line none
      let give := fun (p : Pkg) (fwd : Nat) (dirty : Bool) => p.send { m.answer (.data x.data dirty x.poison) with dst := fwd }
      match m.body with
      | .snpShr fwd =>
        if x.st = .s then p.protoError (mcOf line) m.pid line
        else
          let p := give (p.dieRecall d line) fwd false
          let p := if x.st = .m then wb p else p
          (p.putDline d line (some { x with st := .s })).send (m.answer (.snpRsp 1))
      | .snpFwd fwd =>
        if x.st = .s then p.protoError (mcOf line) m.pid line
        else (gone (give p fwd (x.st == .m))).send (m.answer (.snpRsp 1))
      | _ => (if x.st = .m then wb (gone p) else gone p).send (m.answer (.snpRsp 1))

/-- Replacement of a line by a die: WbD and WbData from M, EvC from E or S; a pending eviction until the Ack (R225). A die
with every TXID in use or in quarantine keeps the line (R267). -/
def Pkg.dieEvict (p : Pkg) (d line : Nat) : Pkg :=
  match p.dline d line, p.freeTxid d with
  | some x, some tx =>
    if x.evicting then p
    else
      let p := (p.dieDrop d line).putDline d line (some { x with evicting := true, evTx := tx })
      let m : Msg := { body := .wbd, line := line, pid := x.pid, src := d, dst := 0x3F, txid := tx, urg := p.urgBase d }
      if x.st = .m then (p.send m).send { m with body := .wbData x.data (2 ^ 64 - 1) true x.poison }
      else p.send { m with body := .evc }
  | _, _ => p

/-- The home's Ack ends a pending eviction; another is a protocol error (R225, R249). -/
def Pkg.dieAck (p : Pkg) (m : Msg) : Pkg :=
  match p.dline m.dst m.line with
  | some x => if x.evicting && x.evTx == m.txid && x.pid == m.pid then p.putDline m.dst m.line none else p.unmatched m
  | none => p.unmatched m

/-- A requester that holds Cmp and, with DF 1, the Data, completes (R238). -/
def Pkg.tryComplete (p : Pkg) (a txid : Nat) : Pkg :=
  match (p.agentReqs a).find? (fun q => q.txid == txid) with
  | none => p
  | some q =>
    match q.cmp, q.data with
    | some (g, df), dat =>
      if df ∧ dat.isNone then p
      else
        let p := p.setAgentReqs a ((p.agentReqs a).filter (fun r => r.txid != txid))
        match q.kind with
        | .iord | .iowr =>
          let (b, poison) := match dat with | some (b, _, po) => (b, po) | none => ([], false)
          { p with coh := { p.coh with answers := p.coh.answers ++ [(a, txid, 0, b, poison)] } }
        | _ =>
          let st := if g = 1 then DieSt.s else if g = 2 then DieSt.e else DieSt.m
          let (b, poison) := match dat, p.dline a q.line with
            | some (b, _, po), _ => (b, po)
            | none, some k => (k.data, k.poison)
            | none, none => (List.replicate 64 0, false)
          let x : DLine := { st := st, pid := q.pid, data := b, poison := poison, evicting := false, evTx := 0 }
          (p.putDline a q.line (some x)).send
            { body := .ack, line := q.line, pid := q.pid, src := a, dst := 0x3F, txid := txid, urg := q.urg }
    | none, _ => p

/-- Change the record of the request that a message answers; a message that answers none is late or a protocol error (R249,
R267). -/
def Pkg.withReq (p : Pkg) (m : Msg) (f : AgentReq → AgentReq) : Pkg :=
  let is := fun (q : AgentReq) => q.txid == m.txid && q.line == m.line && q.pid == m.pid
  if (p.agentReqs m.dst).any is then
    (p.setAgentReqs m.dst ((p.agentReqs m.dst).map (fun q => if is q then f q else q))).tryComplete m.dst m.txid
  else p.stray m.dst m

/-- Data reaches a requester, or the home for an IoRd (R237, R239). -/
def Pkg.recvData (p : Pkg) (m : Msg) (b : List Byte) (dirty poison : Bool) : Pkg :=
  if m.dst = 0x3F then
    let is := fun (t : Txn) => t.req.line == m.line && t.req.txid == m.txid && t.req.pid == m.pid && t.req.kind == .iord &&
      t.snooped.contains m.src
    if p.coh.txns.any is then
      { p with coh := { p.coh with txns := p.coh.txns.map (fun t =>
          if is t ∧ t.data.isNone then { t with data := some b, poison := poison } else t) } }
    else p.stray (0x30 + mcOf m.line) m
  else p.withReq m (fun q => { q with data := some (b, dirty, poison) })

/-- Cmp reaches a requester. -/
def Pkg.recvCmp (p : Pkg) (m : Msg) (g : Nat) (df : Bool) : Pkg :=
  p.withReq m (fun q => { q with cmp := some (g, df), urg := m.urg })

/-- Err reaches a requester: its transaction has failed (R232). -/
def Pkg.recvErr (p : Pkg) (m : Msg) (status : Nat) : Pkg :=
  if (p.agentReqs m.dst).any (fun q => q.txid == m.txid) then
    let p := p.setAgentReqs m.dst ((p.agentReqs m.dst).filter (fun q => q.txid != m.txid))
    { p with coh := { p.coh with answers := p.coh.answers ++ [(m.dst, m.txid, status, [], false)] } }
  else p.stray m.dst m

/-! ### Delivery -/

/-- A message arrives. -/
def Pkg.deliver (p : Pkg) (m : Msg) : Pkg :=
  match m.body with
  | .req r => let r := { r with urg := m.urg }; (p.homeReq r).earlyData r
  | .wbd | .evc => p.homeEvict m
  | .snpInv | .snpShr _ | .snpFwd _ => p.dieSnoop m
  | .cmp g df => p.recvCmp m g df
  | .ack => if m.dst = 0x3F then p.homeAck m else p.dieAck m
  | .snpRsp resp => p.homeSnpRsp m resp
  | .err st => p.recvErr m st
  | .data b dirty po => p.recvData m b dirty po
  | .wbData b mask dirty po => p.homeWbData m b mask dirty po

/-- A slice takes requests while its tracker of 128 transactions and its queue of 64 have room; else it withholds the REQ
credits and the message waits (R234). An eviction into a row that a copying SET holds waits (R326). -/
def Pkg.takes (p : Pkg) (m : Msg) : Bool :=
  match m.body with
  | .req _ =>
    let n := mcOf m.line
    decide ((p.coh.txns.filter (fun t => mcOf t.req.line == n)).length < 128) &&
    decide ((p.coh.confq.filter (fun r => mcOf r.line == n)).length < 64)
  | .wbd => !p.rowHeld m.line
  | _ => true

/-- Two messages travel the same way: their order is kept (R225, R261). -/
def Msg.sameWay (a b : Msg) : Bool :=
  a.body.net == b.body.net && a.src == b.src && a.dst == b.dst &&
  ((a.src != 0x3F && a.dst != 0x3F) || mcOf a.line == mcOf b.line)

/-- No earlier message travels the same way as the flit at index `i`. -/
def Pkg.channelHead (p : Pkg) (i : Nat) (m : Msg) : Bool := !(p.coh.net.take i).any (fun g => g.msg.sameWay m)

/-- The flit at index `i` comes to its receiver, is dropped on its way, or waits (R260, R269). -/
def Pkg.takeFlit (p : Pkg) (i : Nat) (f : Flit) : Pkg :=
  let out := fun (p : Pkg) => ({ p with coh := { p.coh with net := p.coh.net.eraseIdx i } }).returnCredit f.place
  match p.ride f with
  | .arrives => if p.takes f.msg then (out p).deliver f.msg else p
  | .lost d => (out p).dropFlit (pgRING d) 19
  | .waits => p

/-- A message without its urgency, which waiting raises. -/
def Msg.plain (m : Msg) : Msg :=
  { m with urg := 0, body := match m.body with | .req r => .req { r with urg := 0 } | b => b }

/-- A message that a row brings in. One in flight is consumed, when it is the first of its way and its way is open; else it
comes from a sender outside the model (log entry 126). -/
def Pkg.arrive (p : Pkg) (m : Msg) : Pkg :=
  match findIdx? (fun f => decide (f.msg.plain = m.plain)) p.coh.net with
  | some (i, f) => if p.channelHead i f.msg then Pkg.homeRun 8 (p.takeFlit i f) else p
  | none => if p.takes m then Pkg.homeRun 8 ((p.takeRaw m).deliver m) else p

/-- A line takes part in what is to settle: it is named, or its transaction stands before a request for a named line. -/
def Pkg.relevant (p : Pkg) (lines : List Nat) (l : Nat) : Bool :=
  lines.contains l || p.coh.txns.any (fun t => t.req.line == l && t.then_.any (fun r => lines.contains r.line))

/-- The oldest flit that can come to its receiver now and that is for the named lines, or stands before one on its way. -/
def Pkg.nextFlit (p : Pkg) (lines : List Nat) : Option (Flit × Nat) :=
  p.coh.net.zipIdx.find? (fun e =>
    p.channelHead e.2 e.1.msg && p.coh.net.any (fun g => g.msg.sameWay e.1.msg && p.relevant lines g.msg.line) &&
    p.ride e.1 != .waits && p.takes e.1.msg)

/-- Deliver the messages of the named lines, oldest first, and serve their waiting requests. -/
def Pkg.settle : Nat → List Nat → Pkg → Pkg
  | 0, _, p => p
  | k + 1, lines, p =>
    let p := p.homeRun 8
    match p.nextFlit lines with
    | some (f, i) => Pkg.settle k lines (p.takeFlit i f)
    | none =>
      match lines.find? (fun l => match p.coh.confq.find? (fun r => r.line == l) with
          | some r => p.startable r
          | none => false) with
      | some l => Pkg.settle k lines (p.serveNext l)
      | none => p

/-- What an uncached access got: done with bytes, an error status, or nothing yet. -/
inductive IoAns where
  | done (bytes : List Byte) (poison : Bool)
  | err (status : Nat)
  | waiting
  deriving DecidableEq, Repr

/-- An uncached access of an agent, issued and carried through (R237, R241). -/
def Pkg.ioAccess (p : Pkg) (r : HomeReq) : IoAns × Pkg :=
  match p.freeTxid r.src with
  | none => (.waiting, p)
  | some tx =>
    let r := { r with txid := tx, urg := p.urgBase r.src }
    let p := Pkg.settle 200 [r.line] ((p.noteReq r).send r.msg)
    match p.coh.answers.find? (fun a => a.1 == r.src && a.2.1 == tx) with
    | none => (.waiting, p)
    | some (_, _, st, b, poison) =>
      let p := { p with coh := { p.coh with answers := p.coh.answers.filter (fun a => !(a.1 == r.src && a.2.1 == tx)) } }
      (if st = 0 then .done b poison else .err st, p)

/-- Read `len` bytes at a physical address of HBM, within one line, for an uncached agent. -/
def Pkg.ioRead (p : Pkg) (agent pid pa len : Nat) : IoAns × Pkg :=
  p.ioAccess { mkReq .iord (pa / 64) pid agent 0 with off := pa % 64, len := len }

/-- Write bytes at a physical address of HBM, within one line, for an uncached agent. -/
def Pkg.ioWrite (p : Pkg) (agent pid pa : Nat) (b : List Byte) (poison : Bool := false) : IoAns × Pkg :=
  p.ioAccess { mkReq .iowr (pa / 64) pid agent 0 with
    off := pa % 64, len := b.length, bytes := b, mask := 2 ^ b.length - 1, poison := poison }

/-- An atomic operation of R233 at a physical address of HBM for an uncached agent. -/
def Pkg.ioAtom (p : Pkg) (agent pid pa len op : Nat) (operand : List Byte) (carry : Bool := false) : IoAns × Pkg :=
  p.ioAccess { mkReq .iowr (pa / 64) pid agent 0 with off := pa % 64, len := len, op := op, bytes := operand, carry := carry }

/-- The parts of a byte range that lie in single lines: (address, length). -/
def lineParts (pa len : Nat) : List (Nat × Nat) :=
  if len = 0 then []
  else
    (List.range ((pa + len - 1) / 64 + 1 - pa / 64)).map (fun i =>
      let l := pa / 64 + i
      let a := max pa (l * 64)
      (a, min (pa + len) (l * 64 + 64) - a))

/-- Read a byte range line by line; the first answer that is not `done` stops it; poison is collected. -/
def Pkg.ioReadRange (p : Pkg) (agent pid pa len : Nat) : IoAns × Pkg :=
  (lineParts pa len).foldl (fun (a : IoAns × Pkg) e =>
    match a.1 with
    | .done b po =>
      match a.2.ioRead agent pid e.1 e.2 with
      | (.done b2 po2, p) => (.done (b ++ b2) (po || po2), p)
      | x => x
    | _ => a) (.done [] false, p)

/-- Write a byte range line by line, stopping at the first answer that is not `done`. -/
def Pkg.ioWriteRange (p : Pkg) (agent pid pa : Nat) (bs : List Byte) (poison : Bool := false) : IoAns × Pkg :=
  (lineParts pa bs.length).foldl (fun (a : IoAns × Pkg) e =>
    match a.1 with
    | .done _ _ => a.2.ioWrite agent pid e.1 ((bs.drop (e.1 - pa)).take e.2) poison
    | _ => a) (.done [] false, p)

/-! ### Sweeps, drains and fences -/

/-- The die writes back and invalidates every line of a PID (R248, R250 step 4); `poison` names lines written back as
poisoned. -/
def Pkg.diePurgePid (p : Pkg) (d pid : Nat) (poison : Nat → Bool) : Pkg :=
  let ls := ((p.dieLines d).filter (fun e => e.2.pid == pid)).map (·.1)
  let p := p.setDieLines d ((p.dieLines d).map (fun e =>
    if e.2.pid = pid ∧ poison e.1 then (e.1, { e.2 with poison := true }) else e))
  ls.foldl (fun p l => Pkg.settle 60 [l] (p.dieEvict d l)) p

/-- Every line of a PID leaves the dies and every entry of it is freed (R250 steps 4 and 5). The slices answer the PID
with Err DCS meanwhile, but take its sweep messages. -/
def Pkg.sweepPid (p : Pkg) (pid : Nat) : Pkg :=
  let bad := fun l => p.coh.dcsLines.contains (l, pid)
  let p := (List.range 12).foldl (fun p d => if p.dieFenced d then p else p.diePurgePid d pid bad) p
  let keys := p.coh.dirs.map (·.1)
  let p := keys.foldl (fun p k => (List.range 16).foldl (fun p w =>
      match (p.dirSet k).ent w with
      | some e => if e.pid = pid then p.putEnt k w none else p
      | none => p) p) p
  { p with coh := { p.coh with dcsLines := p.coh.dcsLines.filter (fun x => x.2 != pid) } }

/-- A message that a fenced die sent or is to receive. A line it forwarded is replaced by a poisoned one (R246). -/
def Msg.fenced (d : Nat) (m : Msg) : Bool := m.src == d || m.dst == d

/-- The directory's part of a fence of die d (R246, R247). -/
def Pkg.fenceDir (p : Pkg) (d : Nat) : Pkg :=
  let due := p.coh.net.filterMap (fun f => match f.msg.body with
    | .snpInv | .snpShr _ | .snpFwd _ => if f.msg.dst = d then some (f.msg.line, f.msg.txid) else none
    | .snpRsp _ => if f.msg.src = d then some (f.msg.line, f.msg.txid) else none
    | _ => none)
  -- a line on its way from d to another agent is lost: the agent receives it poisoned
  let lost := p.coh.net.filterMap (fun f => match f.msg.body with
    | .data b dirty _ => if f.msg.src = d ∧ f.msg.dst ≠ d ∧ f.msg.dst ≠ 0x3F then
        some { f.msg with body := .data b dirty true, src := 0x3F } else none
    | _ => none)
  let waiting := p.coh.confq.filter (fun r => r.src == d)
  let p := (p.coh.net.filter (fun f => f.msg.fenced d)).foldl (fun (p : Pkg) (f : Flit) => p.returnCredit f.place) p
  let p := { p with coh := { p.coh with
    net := p.coh.net.filter (fun f => !f.msg.fenced d),
    confq := p.coh.confq.filter (fun r => r.src != d),
    txns := p.coh.txns.map (fun t => { t with then_ := t.then_.filter (fun r => r.src != d), await := t.await.filter (· != d) }),
    wb := p.coh.wb.filter (fun w => w.src != d),
    wbWait := p.coh.wbWait.filter (fun w => w.1.src != d) } }
  let p := waiting.foldl (fun (p : Pkg) (r : HomeReq) => p.refreshConfq (mcOf r.line)) p
  let p := lost.foldl (fun (p : Pkg) (m : Msg) =>
    ((p.poisonLine m.line m.pid).addRf (pgDS (mcOf m.line)) 0x230 63 0 1).send m) p
  let p := ((p.setDieLines d []).setAgentReqs d []).freeQuarantine d
  let p := p.freeQuarantine (0x20 + d)
  let p := (List.range 16).foldl (fun p n =>
    (p.setRf (pgDS n) 0x208 d d 1).setRf (pgDS n) 0x208 31 16 32768) p
  let marks := (List.range 16).foldl (fun (t : Tbl Nat) n => tblSet (fun _ => 0) t (n * 16 + d) 1) p.coh.purge
  let p := { p with coh := { p.coh with purge := marks } }
  -- entries with bit d become FENCED
  let keys := p.coh.dirs.map (·.1)
  let p := keys.foldl (fun p k => (List.range 16).foldl (fun p w =>
      match (p.dirSet k).ent w with
      | some e => if e.pres / 2 ^ d % 2 = 1 then p.putEnt k w (some { e with fenced := true }) else p
      | none => p) p) p
  -- snoops due to d are answered by the slice
  let p := (due ++ (p.coh.txns.filter (fun t => t.snoops.contains d)).map (fun t => (t.req.line, t.req.txid))).foldl
    (fun p e =>
      match p.coh.txns.find? (fun t => t.req.line == e.1 && t.snoops.contains d) with
      | none => p
      | some t =>
        let own : Bool := match p.dirFind e.1 with | some (_, x) => x.own | none => false
        let p := if own then (p.poisonLine e.1 t.req.pid).addRf (pgDS (mcOf e.1)) 0x230 63 0 1 else p
        { p with coh := { p.coh with txns := p.coh.txns.map (fun u =>
            if u.req.line = e.1 then { u with snoops := u.snoops.filter (· != d) } else u) } }) p
  -- transactions of d end with the next state of R237
  let mine := p.coh.txns.filter (fun t => t.req.src == d && !t.inval)
  let p := mine.foldl (fun p t =>
    let fv := p.fenceVec (mcOf t.req.line)
    let p := if t.granted then p else p.dirModify t.req.line (fun e =>
      match t.req.kind with
      | .rds => some { e with pres := e.pres ||| 2 ^ d, own := popCount 12 (e.pres ||| 2 ^ d) == 1, fenced := true }
      | .rdo | .upg => some { e with pres := 2 ^ d, own := true, fenced := true }
      | .iord => if e.own then some { e with own := false, fenced := e.pres &&& fv != 0 } else some e
      | .iowr => none)
    p.closeTxn t.req.line t.req.txid) p
  p.homeRun 64

/-- The purge of die d reads one set of slice DSn (R247). -/
def Pkg.purgeSet (p : Pkg) (n d : Nat) : Pkg :=
  let nxt := tblGet (fun _ => 0) p.coh.purge (n * 16 + d)
  if nxt = 0 ∨ 32768 < nxt then p
  else
    let k := n * 32768 + (nxt - 1)
    let p := (List.range 16).foldl (fun p w =>
      match (p.dirSet k).ent w with
      | some e =>
        if e.pres / 2 ^ d % 2 = 0 then p
        else
          let set := k % 32768
          let line := e.tag * 32768 + (set ^^^ (e.tag % 32768))
          if e.own then
            ((p.poisonLine line e.pid).addRf (pgDS n) 0x230 63 0 1).putEnt k w none
          else
            let v := e.pres &&& (0xFFF - 2 ^ d)
            if v = 0 then p.putEnt k w none
            else p.putEnt k w (some { e with pres := v, fenced := v &&& (p.fenceVec n &&& (0xFFF - 2 ^ d)) != 0 })
      | none => p) p
    let p := { p with coh := { p.coh with purge := tblSet (fun _ => 0) p.coh.purge (n * 16 + d) (nxt + 1) } }
    let left := (List.range 12).foldl (fun (a : Nat) (q : Nat) =>
      let x : Nat := tblGet (fun _ => 0) p.coh.purge (n * 16 + q)
      if x = 0 then a else max a (32769 - x)) 0
    p.setRf (pgDS n) 0x208 31 16 left

/-- The purge of die d has ended in every slice: FENCEVEC bit d returns to 0 (R247). -/
def Pkg.purgeDone (p : Pkg) (d : Nat) : Bool :=
  (List.range 16).all (fun n => tblGet (fun _ => 0) p.coh.purge (n * 16 + d) == 32769)

def Pkg.purgeEnd (p : Pkg) (d : Nat) : Pkg :=
  if p.purgeDone d then
    let p := (List.range 16).foldl (fun p n => p.setRf (pgDS n) 0x208 d d 0) p
    { p with coh := { p.coh with purge := tblDrop (fun k => k % 16 == d) p.coh.purge } }
  else p

end Sys2Proof.Machine
end

