-- ==== Sys2Proof/Machine/Caches.lean ====
section
/-! DEFINITION. The caches of a die: cached accesses, inclusion, errors and way disabling, disabling a cache and
invalidating it (R160 to R184). -/

namespace Sys2Proof.Machine

/-! ### Cached accesses -/

/-- What a cached access got. -/
inductive Acq where
  | ok
  | err (status : Nat)
  | waiting
  deriving DecidableEq, Repr

/-- The die sends a request of its own and carries it through (R238, R239). -/
def Pkg.dieRequest (p : Pkg) (d line pid : Nat) (k : ReqKind) : Acq × Pkg :=
  match p.freeTxid d with
  | none => (.waiting, p)
  | some tx =>
    let r := { mkReq k line pid d tx with urg := p.urgBase d }
    let p := Pkg.settle 200 [line] ((p.noteReq r).send r.msg)
    match p.coh.answers.find? (fun a => a.1 == d && a.2.1 == tx) with
    | some (_, _, st, _, _) =>
      (.err st, { p with coh := { p.coh with answers := p.coh.answers.filter (fun a => !(a.1 == d && a.2.1 == tx)) } })
    | none => (if (p.agentReqs d).any (fun q => q.txid == tx) then .waiting else .ok, p)

/-- The die holds a line under a PID with the right to read it or, with `wr`, to write it (R239). -/
def Pkg.dieAcquire (p : Pkg) (d line pid : Nat) (wr : Bool) : Acq × Pkg :=
  let p := match p.dline d line with
    | some x => if x.evicting then Pkg.settle 60 [line] p else p
    | none => p
  match p.dline d line with
  | some x =>
    if x.evicting then (.waiting, p)
    else if x.pid ≠ pid then p.dieRequest d line pid (if wr then .rdo else .rds)
    else if !wr then (.ok, p)
    else
      match x.st with
      | .m => (.ok, p)
      | .e => (.ok, p.putDline d line (some { x with st := .m }))
      | .s => p.dieRequest d line pid .upg
  | none => p.dieRequest d line pid (if wr then .rdo else .rds)

/-- Cluster array of a unit. -/
def clusterOf (u : Nat) : Nat := u / 20 * 4 + u % 20 / 5

/-- A line leaves an L2 by replacement: the copies in the L1s of its cluster go first, dirty data moves to the L3
(R163). -/
def Pkg.leaveL2 (p : Pkg) (k line : Nat) : Pkg :=
  let units := (List.range 5).map (fun i => k / 4 * 20 + k % 4 * 5 + i)
  let dirty := p.cacheDirty (cL2 k) line || units.any (fun u => p.cacheDirty (cL1D u) line)
  let p := units.foldl (fun p u => (p.cacheDrop (cL1I u) line).cacheDrop (cL1D u) line) p
  if dirty then p.cacheModify (cL3 (k / 4 * 2 + sliceOf line)) line (fun w => { w with dirty := true }) else p

/-- Fill a line into an L3; the line it replaces leaves the die (R163). -/
def Pkg.fillL3 (p : Pkg) (c line pid : Nat) (nt : Bool) : Pkg :=
  let (old, p) := p.cacheFill c line pid nt
  if old.valid then Pkg.settle 60 [old.line] (p.dieEvict (cacheDie c) old.line) else p

/-- Fill a line into the L2 of cluster `k`; the line it replaces leaves the L1s below it, and its dirty data moves to the
L3 (R163). -/
def Pkg.fillL2 (p : Pkg) (k line pid : Nat) (nt : Bool) : Pkg :=
  let (old, p) := p.cacheFill (cL2 k) line pid nt
  if old.valid then
    let p := if old.dirty then
        p.cacheModify (cL3 (k / 4 * 2 + sliceOf old.line)) old.line (fun w => { w with dirty := true }) else p
    p.leaveL2 k old.line
  else p

/-- Fill a line into an L1; the dirty data it replaces moves to the L2 of cluster `k`. -/
def Pkg.fillL1 (p : Pkg) (c k line pid : Nat) (nt : Bool) : Pkg :=
  let (old, p) := p.cacheFill c line pid nt
  if old.valid ∧ old.dirty then p.cacheModify (cL2 k) old.line (fun w => { w with dirty := true }) else p

/-- Look a line up in the caches on the path of unit `u`, from the first level down, and fill it above the level that
holds it: only a way that is hit or filled is an access to its tree (R163, R165). `kind` is 0 data, 1 fetch, 2 a table
walk, which goes through the L2 (R207). -/
def Pkg.cachePath (p : Pkg) (u line pid : Nat) (kind : Nat) (nt : Bool) : Pkg :=
  let d := u / 20
  let k := clusterOf u
  let c1 := if kind = 1 then cL1I u else cL1D u
  let c3 := cL3 (d * 2 + sliceOf line)
  let use2 := p.cacheOn (cL2 k)
  let use1 := kind != 2 && p.cacheOn c1 && use2
  match (if use1 then p.cacheHit c1 line pid else none) with
  | some w => p.cacheTouch c1 line w false
  | none =>
    let p := match (if use2 then p.cacheHit (cL2 k) line pid else none) with
      | some w => p.cacheTouch (cL2 k) line w false
      | none =>
        let p := p.evCount (some d) 3 (sliceOf line) (some pid) 4 1
        let p := match p.cacheHit c3 line pid with
          | some w => p.cacheTouch c3 line w false
          | none => (p.evCount (some d) 4 (sliceOf line) (some pid) 4 1).fillL3 c3 line pid nt
        if use2 then p.fillL2 k line pid nt else p
    if use1 then p.fillL1 c1 k line pid nt else p

/-- A lookup on the path of a unit hits a line that a disable retained (R178): of an access of kind 0 data, 1 fetch, 2 table
walk. -/
def Pkg.staleHit (p : Pkg) (u line pid kind : Nat) : Bool :=
  ((if kind = 0 then [cL1D u] else []) ++ [cL2 (clusterOf u)]).any (fun c => p.cacheOn c &&
    ((p.cache c).set (cacheSet c line)).ways.any (fun e => e.2.valid && e.2.stale && e.2.line == line && e.2.pid == pid))

/-- A cache that serves an access of a kind (0 data, 1 fetch, 2 table walk) of a unit drains: the access stalls (R175). -/
def Pkg.pathStalled (p : Pkg) (u kind : Nat) : Bool :=
  ((if kind = 0 then [cL1D u] else []) ++ [cL2 (clusterOf u)]).any (fun c => (p.cache c).draining)

/-- The L3 slice that would hold a line does no work: it is in LOAD_HOLD, and the line waits (R45). -/
def Pkg.sliceHeld (p : Pkg) (u line : Nat) : Bool := !p.cacheOn (cL3 (u / 20 * 2 + sliceOf line))

/-- What a cached read got. -/
inductive CRead where
  | bytes (b : List Byte) (poison : Bool)
  | err (status : Nat)
  | waiting
  deriving DecidableEq, Repr

/-- The lines that a way of an array holds, with their dirtiness. -/
def Pkg.wayLines (p : Pkg) (c w : Nat) : List (Nat × Bool) :=
  (p.cache c).sets.filterMap (fun e => let y := e.2.way w; if y.valid then some (y.line, y.dirty) else none)

/-- The unit whose L1 array this is. -/
def cacheUnit (c : Nat) : Nat := if c < 240 then c else c - 240

/-- A line leaves an array for the next level: from an L3 it leaves the die (R172). -/
def Pkg.leaveArray (p : Pkg) (c line : Nat) : Pkg :=
  if c < 480 then
    let p := if p.cacheDirty c line then
        p.cacheModify (cL2 (clusterOf (cacheUnit c))) line (fun w => { w with dirty := true }) else p
    p.cacheModify c line CWay.drop
  else if c < 528 then (p.leaveL2 (c - 480) line).cacheModify c line CWay.drop
  else Pkg.settle 60 [line] (p.dieEvict (cacheDie c) line)

/-- A lookup that hit a way being swept was served: the line is swept at once (R172). -/
def Pkg.sweepHits (p : Pkg) (u line pid : Nat) : Pkg :=
  [cL2 (clusterOf u), cL3 (u / 20 * 2 + sliceOf line)].foldl (fun (p : Pkg) (c : Nat) =>
    match p.cacheHit c line pid with
    | some w => if (p.cache c).sweep.any (fun t => t % 16 == w) then p.leaveArray c line else p
    | none => p) p

/-- Cached read of `len` bytes at `pa`, within one line, by unit `u` under a PID. -/
def Pkg.cachedRead (p : Pkg) (u pa pid len : Nat) (kind : Nat) (nt : Bool) : CRead × Pkg :=
  if p.pathStalled u kind || p.sliceHeld u (pa / 64) then (.waiting, p)
  else
    let line := pa / 64
    if p.staleHit u line pid kind then
      let (b, p) := p.freeBytes len
      (.bytes b false, p)
    else
      match p.dieAcquire (u / 20) line pid false with
      | (.err st, p) => (.err st, p)
      | (.waiting, p) => (.waiting, p)
      | (.ok, p) =>
        let p := p.cachePath u line pid kind nt
        match p.dline (u / 20) line with
        | some x => (.bytes ((x.data.drop (pa % 64)).take len) x.poison, p.sweepHits u line pid)
        | none => (.waiting, p)

/-- The other arrays of the die lose a line that unit `u` writes; locked ways stay locked and empty. -/
def Pkg.dropOthers (p : Pkg) (u line : Nat) : Pkg :=
  let d := u / 20
  let mine := [cL1D u, cL1I u, cL2 (clusterOf u)]
  ((dieArrays d).filter (fun c => decide (c < 528) && !mine.contains c)).foldl (fun p c => p.cacheDrop c line) p

/-- Mark a line dirty in the first enabled cache of the path. -/
def Pkg.markDirty (p : Pkg) (u line : Nat) : Pkg :=
  let k := clusterOf u
  let c := if p.cacheOn (cL1D u) && p.cacheOn (cL2 k) then cL1D u
    else if p.cacheOn (cL2 k) then cL2 k else cL3 (u / 20 * 2 + sliceOf line)
  p.cacheModify c line (fun w => { w with dirty := true })

/-- Cached write of bytes at `pa`, within one line, by unit `u` under a PID. A store reads the line by RdO and takes its
poison (R323). -/
def Pkg.cachedWrite (p : Pkg) (u pa pid : Nat) (bs : List Byte) (nt : Bool) : Acq × Pkg :=
  if p.pathStalled u 0 || p.sliceHeld u (pa / 64) then (.waiting, p)
  else
    let line := pa / 64
    let stale := p.staleHit u line pid 0
    match p.dieAcquire (u / 20) line pid true with
    | (.ok, p) =>
      let p := p.cachePath u line pid 0 nt
      let (fr, p) := if stale then p.freeBytes 64 else ([], p)
      match p.dline (u / 20) line with
      | some x =>
        let base := if stale then fr else x.data
        let p := p.putDline (u / 20) line (some { x with st := .m, data := putSlice base (pa % 64) bs })
        (.ok, ((p.dropOthers u line).markDirty u line).sweepHits u line pid)
      | none => (.waiting, p)
    | r => r

/-! ### Errors and way disabling (R170 to R174) -/

/-- Ways an array has disabled or is sweeping, by count. -/
def Pkg.disCount (p : Pkg) (c : Nat) : Nat := popCount 16 (p.wayDis c)

/-- The steward fences a die at its next decision, with a cause of R294. -/
def Pkg.askFence (p : Pkg) (d cause : Nat) : Pkg :=
  if p.stw.fences.any (fun f => f.1 == d) then p else { p with stw := { p.stw with fences := p.stw.fences ++ [(d, cause)] } }

/-- The cache of a die is depleted: ERRSTAT[DEPLETED], and the die is fenced by command (R173). -/
def Pkg.deplete (p : Pkg) (c : Nat) : Pkg :=
  (p.setEvent (cachePage c) 19 4 { Det.none with detail := p.reg (cachePage c) 0x200 }).askFence (cacheDie c) 4

/-- Release every lock held in a way (R169, R172). -/
def Pkg.releaseWay (p : Pkg) (c w : Nat) : Pkg :=
  let x := p.cache c
  let sets := x.sets.map (fun e =>
    let y := e.2.way w
    (e.1, e.2.putWay w (if y.valid then { y with locked := false } else CWay.empty)))
  (p.setCache c { x with sets := sets.filter (fun e => decide (e.2 ≠ CSet.empty)) }).refreshLockstat c

/-- Release the locks of a way and start its sweep. -/
def Pkg.startSweep (p : Pkg) (c tag : Nat) : Pkg :=
  let p := p.releaseWay c (tag % 16)
  p.setCache c { p.cache c with sweep := (p.cache c).sweep ++ [tag] }

/-- Disable a way at once and start its sweep; a fifth depletes the cache (R171 to R173). `tag` is the way, plus 16 for a
disable by WAYDISCFG. -/
def Pkg.wayDisable (p : Pkg) (c tag : Nat) : Pkg :=
  let w := tag % 16
  if p.wayDis c / 2 ^ w % 2 = 1 then p
  else if 4 ≤ p.disCount c then p.deplete c
  else p.startSweep c tag

/-- Count a corrected error against a way; the fourth within 1,024 frames disables it (R171, R183). Frames are counted by ticks,
so that a jump of the frame number counts once (R68). -/
def Pkg.wayCe (p : Pkg) (c w : Nat) : Pkg :=
  let pg := cachePage c
  let p := p.addRf pg (0x210 + w / 4 * 8) (w % 4 * 16 + 15) (w % 4 * 16) 1
  let x := p.cache c
  let hist := tblGet (fun _ => []) x.ces w
  let f := p.fr.ticks
  let trip := decide (3 ≤ hist.length) && decide (f < hist.headD 0 + 1024)
  let hist := (if 3 ≤ hist.length then hist.drop 1 else hist) ++ [f]
  let p := p.setCache c { x with ces := tblSet (fun _ => []) x.ces w hist }
  if trip then p.wayDisable c w else p

/-- SPARETHR: 0 selects 8 (R402). -/
def Pkg.spareThr (p : Pkg) : Nat := let t := p.cf pgSTW 0x400 15 8; if t = 0 then 8 else t

/-- An error at tick `g` lies in the window of tick `f`: the last 1,024 frames in 16 steps of 64 (R290). -/
def ceWindow (f g : Nat) : Bool := decide (f / 64 < g / 64 + 16)

/-- Count a corrected error of a unit toward sparing; UCECNT holds TOTAL and WINDOW (R290, R404). -/
def Pkg.unitCe (p : Pkg) (u : Nat) : Pkg :=
  let x := p.unit u
  let f := p.fr.ticks
  let ces := x.ces.filter (ceWindow f) ++ [f]
  let hit := decide (p.spareThr ≤ ces.length) && p.cf pgSTW 0x400 0 0 == 0
  let p := p.setUnit u { x with ces := ces, spareReq := x.spareReq || hit }
  let pg := pgCLU (u / 20) (u % 20 / 5)
  let off := 0x208 + 8 * (u % 5)
  (p.addRf pg off 63 32 1).setRf pg off 15 0 (min 0xFFFF ces.length)

/-- Read a line again into an array that lost it, from the next level (R170). The L3 reads it from memory. -/
def Pkg.reread (p : Pkg) (c line pid : Nat) : Pkg :=
  if !p.cacheOn c then p
  else if c < 480 then p.fillL1 c (clusterOf (cacheUnit c)) line pid false
  else if c < 528 then p.fillL2 (c - 480) line pid false
  else
    match p.dieRequest (cacheDie c) line pid .rds with
    | (.ok, p) => p.fillL3 c line pid false
    | (_, p) => p

/-- What an error of a line that an array holds comes to: it depends on the line being dirty there (R170). -/
def errOfLine (e : CacheError) (l1 dirty : Bool) : CacheError :=
  match e with
  | .tagClean | .cleanLost | .dirtyLost => if dirty then .dirtyLost else if l1 then .tagClean else .cleanLost
  | e => e

/-- A cache error of R170 in array `c`, in a way, for a line. -/
def Pkg.cacheErr (p : Pkg) (c way line : Nat) (e : CacheError) : Pkg :=
  let pg := cachePage c
  let d := cacheDie c
  let det := { Det.none with addr := line * 64, pids := match p.dline d line with | some x => [x.pid] | none => [] }
  let l1 := decide (c < 480)
  let here := (((p.cache c).set (cacheSet c line)).ways.find? (fun e => e.2.valid && e.2.line == line)).map (·.2)
  let e := match here with | some x => errOfLine e l1 x.dirty | none => e
  -- the line leaves the array and is read again from the next level
  let again := fun (p : Pkg) => match here with | some x => p.reread c line x.pid | none => p
  match e with
  | .l1iParity =>
    if l1 then again (((p.cacheModify c line CWay.drop).setEvent pg 16 1 det).unitCe (cacheUnit c)) else p
  | .corrected =>
    let p := p.setEvent pg 16 1 det
    if l1 then p.unitCe (cacheUnit c) else p.wayCe c way
  | .tagClean =>
    if l1 then again (((p.cacheModify c line CWay.drop).setEvent pg 16 1 det).unitCe (cacheUnit c)) else p
  | .dirtyLost =>
    let p := p.setEvent pg 17 2 det
    let p := match here, p.dline d line with
      | some _, some x => (p.putDline d line (some { x with poison := true, st := .m })).leaveArray c line
      | _, _ => p
    if l1 then p else p.wayDisable c way
  | .cleanLost =>
    if l1 then p
    else again ((match here with | some _ => p.leaveArray c line | none => p).setEvent pg 16 1 det |>.wayDisable c way)

/-- The sweep of a way ends (R172, R174): its lines have left, AUTODIS or WAYDISCFG shows in WAYSTAT. -/
def Pkg.waySwept (p : Pkg) (c way : Nat) : Pkg :=
  match (p.cache c).sweep.find? (fun t => t % 16 == way) with
  | none => p
  | some tag =>
    let p := (p.wayLines c way).foldl (fun p e => p.leaveArray c e.1) p
    let p := p.setCache c { p.cache c with sweep := (p.cache c).sweep.filter (· != tag) }
    let pg := cachePage c
    let p := p.setRf pg 0x200 way way 1
    if 16 ≤ tag then p
    else
      let p := p.setRf pg 0x200 (16 + way) (16 + way) 1
      let p := p.setEvent pg 18 1 { Det.none with detail := p.reg pg 0x200 }
      p.logEvent 0x04 0 none none pg (BitVec.ofNat 64 way)

/-- An L2 or L3 adopts WAYDISCFG (R173, R174). -/
def Pkg.adoptWays (p : Pkg) (c : Nat) : Pkg :=
  let pg := cachePage c
  let want := p.cf pg 0x400 15 0
  let auto := p.rf pg 0x200 31 16
  let all := want ||| auto
  let running := ((p.cache c).sweep.filter (fun t => decide (t < 16))).foldl (fun a w => a ||| 2 ^ w) 0
  if 4 < popCount 16 (all ||| running) then p.deplete c
  else
    let was := p.wayDis c
    -- ways left out of both masks become eligible at this tick
    let keep := (p.cache c).sweep.filter (fun t => decide (t < 16) || all / 2 ^ (t % 16) % 2 == 1)
    let p := p.setCache c { p.cache c with sweep := keep }
    let p := p.setRf pg 0x200 15 0 all
    (List.range 16).foldl (fun (p : Pkg) (w : Nat) =>
      if all / 2 ^ w % 2 = 1 ∧ was / 2 ^ w % 2 = 0 then p.startSweep c (w + 16) else p) p

/-! ### Disabling, invalidating, enabling (R175 to R179) -/

/-- Array `c` is an L1D or an L2, the caches that can be disabled. -/
def canDisable (c : Nat) : Bool := decide (240 ≤ c ∧ c < 528)

/-- The units that an L2 serves. -/
def l2Units (c : Nat) : List Nat := let k := c - 480; (List.range 5).map (fun i => k / 4 * 20 + k % 4 * 5 + i)

/-- A write of EN is refused (R177): the L2 goes before its L1Ds, an L1D comes before its L2, or EN is set while BUSY. -/
def Pkg.enRefused (p : Pkg) (c : Nat) (en : Bool) : Bool :=
  if en then p.busy (cachePage c) || (decide (c < 480) && !p.en (cachePage (cL2 (clusterOf (cacheUnit c)))))
  else decide (480 ≤ c) && (l2Units c).any (fun u => p.en (cachePage (cL1D u)))

/-- A write of EN on a cache page (R175, R177, R178, LOAD_HOLD included). -/
def Pkg.writeEn (p : Pkg) (c : Nat) (en : Bool) : Pkg :=
  let pg := cachePage c
  if !canDisable c ∨ p.en pg = en then p
  else if p.enRefused c en then p.cmdWrong pg 0x018
  else if p.loadHold pg then p.setRf pg 0x018 0 0 en.toNat
  else if en then (p.setRf pg 0x018 0 0 1).setRf pg 0x020 15 8 1
  else
    let p := ((p.setRf pg 0x018 0 0 0).setRf pg 0x020 15 8 2).setRf pg 0x020 4 4 1
    p.setCache c { p.cache c with draining := true }

/-- An invalidation of a cache starts (R176). -/
def Pkg.startInv (p : Pkg) (c : Nat) : Pkg :=
  (p.setCache c { p.cache c with invQueued := false, invRunning := true }).cmdPending (cachePage c) 0x018

/-- INVREQ (R176, R179): allowed only in DISABLED, and by name while the drain runs. -/
def Pkg.invReq (p : Pkg) (pg : Nat) : Pkg :=
  match cacheOfPage pg with
  | none => p
  | some c =>
    if !canDisable c ∨ p.blkState pg ≠ 2 then p.cmdWrong pg 0x018
    else if (p.cache c).invRunning ∨ (p.cache c).invQueued then p.cmdWrong pg 0x018
    else if (p.cache c).draining then (p.setCache c { p.cache c with invQueued := true }).cmdPending pg 0x018
    else p.startInv c

/-- The drain of R175 ends: dirty lines are at the next level, the contents stay, an L2 has invalidated its L1Is. -/
def Pkg.drainEnd (p : Pkg) (c : Nat) : Pkg :=
  if !(p.cache c).draining then p
  else
    let lines := (p.cache c).sets.flatMap (fun e => (e.2.ways.filter (fun w => w.2.valid && w.2.dirty)).map (·.2.line))
    let up := fun l => if c < 480 then cL2 (clusterOf (cacheUnit c)) else cL3 (cacheDie c * 2 + sliceOf l)
    let p := lines.foldl (fun p l => p.cacheModify (up l) l (fun w => { w with dirty := true })) p
    let x := p.cache c
    let sets := x.sets.map (fun e => (e.1, { e.2 with ways := e.2.ways.map (fun w =>
      (w.1, { w.2 with dirty := false, stale := w.2.valid })) }))
    let p := p.setCache c { x with sets := sets, draining := false }
    let p := if 480 ≤ c then (l2Units c).foldl (fun p u => p.setCache (cL1I u) Cache.empty) p else p
    if (p.cache c).invQueued then (p.cmdDone (cachePage c) 0x018 1).startInv c else p.cmdDone (cachePage c) 0x018 1

/-- The invalidation ends: every line, PLRU and lock state is gone (R176). -/
def Pkg.invEnd (p : Pkg) (c : Nat) : Pkg :=
  if !(p.cache c).invRunning then p
  else
    let p := p.setCache c { p.cache c with sets := [], invRunning := false }
    (p.refreshLockstat c).cmdDone (cachePage c) 0x018 1

/-- Every cache of a die writes back and invalidates every line and releases every lock (R55 QUIESCE to LOAD, R169). -/
def Pkg.dieFlushAll (p : Pkg) (d : Nat) : Pkg :=
  let p := (p.dieLines d).foldl (fun p e => Pkg.settle 60 [e.1] (p.dieEvict d e.1)) p
  (dieArrays d).foldl (fun p c => (p.setCache c { p.cache c with sets := [] }).refreshLockstat c) p

end Sys2Proof.Machine
end

