-- ==== Sys2Proof/Machine/CacheRows.lean ====
section
/-! DEFINITION. The cache rows: disabling, enabling, invalidating, errors and way sweeps (R170 to R179). -/

namespace Sys2Proof.Machine

/-- CACHE_DISABLE (R175): the write that clears BLKCTL[EN] of a cache page. -/
def execCacheDisable (who : Requester) (pg : PageId) (s : State) : Host.Outcome State Fault Refusal :=
  s.upd (fun p => p.cmd who (pgOf pg) 0x018 (fun p =>
    match cacheOfPage (pgOf pg) with
    | some c => p.writeEn c false
    | none => p))

/-- CACHE_DRAIN_COMPLETE (R175 steps 2 to 4). -/
def execCacheDrainComplete (pg : PageId) (s : State) : Host.Outcome State Fault Refusal :=
  s.upd (fun p =>
    match cacheOfPage (pgOf pg) with
    | some c => p.drainEnd c
    | none => p)

/-- CACHE_ENABLE (R177, R178): the write that sets BLKCTL[EN] of a cache page. -/
def execCacheEnable (who : Requester) (pg : PageId) (s : State) : Host.Outcome State Fault Refusal :=
  s.upd (fun p => p.cmd who (pgOf pg) 0x018 (fun p =>
    match cacheOfPage (pgOf pg) with
    | some c => p.writeEn c true
    | none => p))

/-- The array in which an error of a cache page is found: parity of an L1I is counted at the unit's L1D page (R170). -/
def errArray (c : Nat) (e : CacheError) : Nat :=
  match e with
  | .l1iParity => if 240 ≤ c ∧ c < 480 then cL1I (cacheUnit c) else c
  | _ => c

/-- CACHE_ERROR (R170). In LOAD_HOLD a cache holds nothing, so nothing is found (R175). -/
def execCacheError (pg : PageId) (e : CacheError) (way : Fin 16) (line : Nat) (s : State) :
    Host.Outcome State Fault Refusal :=
  s.upd (fun p =>
    if p.answers (pgOf pg) ∧ p.loadHold (pgOf pg) = false then
      match cacheOfPage (pgOf pg) with
      | some c => p.cacheErr (errArray c e) way.val line e
      | none => p
    else p)

/-- WAY_SWEEP_COMPLETE (R172). -/
def execWaySweepComplete (pg : PageId) (way : Fin 16) (s : State) : Host.Outcome State Fault Refusal :=
  s.upd (fun p =>
    match cacheOfPage (pgOf pg) with
    | some c => p.waySwept c way.val
    | none => p)

/-- INVREQ (R176). On a page that is no cache the bit is Reserved (R31). -/
def execInvreq (who : Requester) (pg : PageId) (s : State) : Host.Outcome State Fault Refusal :=
  s.upd (fun p => p.cmd who (pgOf pg) 0x018 (fun p => p.invReq (pgOf pg)))

/-- INVREQ_COMPLETE (R176). -/
def execInvreqComplete (pg : PageId) (s : State) : Host.Outcome State Fault Refusal :=
  s.upd (fun p =>
    match cacheOfPage (pgOf pg) with
    | some c => p.invEnd c
    | none => p)

end Sys2Proof.Machine
end

