-- ==== Sys2Proof/Machine/Traps.lean ====
section
/-! DEFINITION. Taking a trap or an interrupt on a logical core, and returning from one (R83, R90 to R98, R103). -/

namespace Sys2Proof.Machine

/-! ### PSW fields (R78) -/

def pswPL (w : Word) : Nat := fld w 17 16
def pswIMASK (w : Word) : Nat := fld w 23 20
def pswXS (w : Word) : Bool := bit w 15
def pswRP (w : Word) : Bool := bit w 7

def Core.pl (c : Core) : Nat := pswPL c.psw
/-- A control register by number (reset 0, R81). -/
def Core.crGet (c : Core) (n : Nat) : Word := tblGet (fun _ => 0) c.cr n
def Core.crSet (c : Core) (n : Nat) (v : Word) : Core := { c with cr := tblSet (fun _ => 0) c.cr n v }
def Core.gGet (c : Core) (r : Nat) : Word := c.g.toList.getD r 0
def Core.gSet (c : Core) (r : Nat) (v : Word) : Core := if h : r < 16 then { c with g := c.g.set r v h } else c

/-- The cause of a trap, with what XINFO, XADDR, M2VA and M2INFO need (R93, R94, R197). -/
structure Trap where
  code : Nat
  stage : Nat
  wlvl : Nat
  /-- 0 read, 1 write, 2 fetch. -/
  acc : Nat
  /-- 0 to 2, 3 none. -/
  opnd : Nat
  misal : Bool
  xaddr : Nat
  /-- M-only instruction or register, or an IPISEND outside the partition: a privilege fault handled at M (R90). -/
  toM : Bool
  /-- M2VA, ADUPD, CAUSE, S1LVL of a stage-2 cause. -/
  m2 : Option (Nat × Bool × Bool × Nat)
  /-- Class of a machine-check record for codes 0x30 and 0x31: 2 DE, 3 UCR. -/
  cls : Nat
  deriving DecidableEq, Repr

/-- A cause with nothing but a code. -/
def Trap.of (code : Nat) : Trap :=
  { code := code, stage := 0, wlvl := 0, acc := 0, opnd := 3, misal := false, xaddr := 0, toM := false, m2 := none,
    cls := 3 }

/-- The level that handles a synchronous cause raised at level `pl` (R90). -/
def Trap.level (t : Trap) (pl : Nat) : Nat :=
  let own := if pl = 2 then 2 else 1
  match t.code with
  | 0x13 | 0x14 => if t.stage = 1 then 2 else own
  | 0x15 | 0x31 | 0x51 => 2
  | 0x50 => 1
  | 0x08 => if t.toM then 2 else own
  | _ => own

/-- XINFO (R93). -/
def xinfo (t : Trap) (frompl ilen intid : Nat) (nest rest : Bool) : Word :=
  word [(40, intid), (36, ilen), (30, frompl), (29, nest.toNat), (28, rest.toNat), (27, t.misal.toNat), (26, t.stage),
        (24, t.wlvl), (22, t.acc), (20, t.opnd), (0, t.code)]

/-- Entry into level `lv` (R95): saved IP and PSW, XINFO, XADDR, the new PSW and the IP at the vector. -/
def Core.enter (c : Core) (lv : Nat) (savedIp savedPsw info xaddr : Word) (off : Nat) : Core :=
  let b := if lv = 2 then 0x10 else 0x08
  let c := (((c.crSet b savedIp).crSet (b + 1) savedPsw).crSet (b + 2) info).crSet (b + 3) xaddr
  let psw := setFld (setFld (setFld (setFld c.psw 17 16 lv) 23 20 0xF) 15 15 1) 7 7 0
  { c with psw := psw, ip := c.crGet (if lv = 2 then 0x02 else 0x01) + BitVec.ofNat 64 off, part := 0, io := [],
           ioPos := 0, held := none }

/-- Partial progress of a restartable instruction stands in the registers: it was stopped here, or RP says that it is
still to be resumed (R93, R100; DEDUCED, log entry 104). -/
def Core.rest (c : Core) : Bool := c.part != 0 || pswRP c.psw

/-- The logical core stops and its partition takes a domain checkstop (R97). -/
def Pkg.coreFatal (p : Pkg) (lc : Nat) : Pkg :=
  let p := p.setCore lc { p.core lc with run := .stopped }
  match p.pidOf lc with
  | some pid => p.raiseDcs pid (lcDie lc)
  | none => p

/-- A synchronous trap 0x30 or 0x31 is recorded on the L1D page of the unit that runs the core (R527). -/
def Pkg.noteTrap (p : Pkg) (lc : Nat) (t : Trap) : Pkg :=
  if t.code = 0x30 ∨ t.code = 0x31 then
    let u := p.unitOf lc
    p.noteEv (pgL1D (u / 20) (u % 20)) 255 t.cls
      { pids := match p.pidOf lc with | some q => [q] | none => [], lc := some lc, addr := t.xaddr,
        detail := (p.core lc).crGet 0x12, agent := u / 20 }
  else p

/-- Take a synchronous cause (R90, R95, R97). `savedIp` is the instruction for a fault, the next one for a completion
trap; `rest` tells that a restartable instruction has partial progress in its registers. -/
def Pkg.takeTrap (p : Pkg) (lc : Nat) (t : Trap) (savedIp : Word) (ilen : Nat) (rest : Bool) (off : Nat) : Pkg :=
  let c := p.core lc
  let pl := c.pl
  let lv := t.level pl
  let xs := pswXS c.psw && pl == lv
  -- XS guards the save registers of the present level; a cause from below finds them saved or free
  let nest := lv == 1 && xs
  let lv := if nest then 2 else lv
  if lv = 2 ∧ pl = 2 ∧ pswXS c.psw then (p.noteTrap lc t).coreFatal lc
  else
    let info := xinfo t pl ilen 0 nest rest
    let c := c.enter lv savedIp c.psw info (BitVec.ofNat 64 (if t.code = 0x30 then 0 else t.xaddr)) off
    let c := match t.m2 with
      | some (va, adupd, cause, s1) =>
        if lv = 2 then
          (c.crSet 0x36 (BitVec.ofNat 64 va)).crSet 0x37 (word [(9, adupd.toNat), (8, cause.toNat), (0, s1)])
        else c
      | none => c
    (p.setCore lc c).noteTrap lc t

/-- The level that ILVL selects for an INTID: 2 M, 1 S (R80). -/
def Core.intLevel (c : Core) (i : Nat) : Nat := if bit (c.crGet (0x24 + i / 64)) (i % 64) then 2 else 1

/-- A pending INTID is deliverable (R103). -/
def Core.deliverable (c : Core) (i : Nat) : Bool :=
  decide (0x10 ≤ i) && c.pend.getLsbD i &&
    (decide (c.pl < c.intLevel i) || (c.pl == c.intLevel i && decide (pswIMASK c.psw < i / 16)))

/-- The highest deliverable INTID. -/
def Core.nextInt (c : Core) : Option Nat := ((List.range 256).filter c.deliverable).getLast?

/-- A WAITF suspension ends ahead of an entry: Z is set when the target tick has passed, and cleared otherwise (R148). -/
def Core.endWait (c : Core) : Core :=
  match c.run with
  | .waiting n => { c with run := .executing, psw := setBit c.psw 1 (n == 0) }
  | _ => c

/-- Deliver an interrupt (R95, R103): the pending bit clears and the level of ILVL is entered with code 0x40. One that ends
WAITF gives Z first (R148). -/
def Core.interrupt (c : Core) (i : Nat) : Core :=
  let lv := c.intLevel i
  let info := xinfo (Trap.of 0x40) c.pl c.part i false c.rest
  let c := { c.endWait with pend := c.pend &&& ~~~(BitVec.ofNat 256 (2 ^ i)), run := .executing }
  c.enter lv c.ip c.psw info 0 0x800

/-- RETX at the present level (R98): none when the saved PSW is refused. -/
def Core.retx (c : Core) : Option Core :=
  let b := if c.pl = 2 then 0x10 else 0x08
  let psw := c.crGet (b + 1)
  let reserved := psw &&& 0xFFFFFFFFFF0C0040
  if c.pl < pswPL psw ∨ pswPL psw = 3 ∨ reserved ≠ 0 then none
  else some { c with psw := psw, ip := c.crGet b }

/-- The state in which a core enters execution (R82). The control registers reset as R81 gives. -/
def Core.start (vec : Nat) (lcid : Nat) : Core :=
  { Core.reset with ip := BitVec.ofNat 64 vec, run := .executing, cr := if lcid = 0 then [] else [(0x18, BitVec.ofNat 64 lcid)] }

/-- Start a core at the M-level reset vector of a partition (R82, R399). -/
def Pkg.startCore (p : Pkg) (lc pid : Nat) : Pkg :=
  (p.setCore lc (Core.start (p.part pid).vec (pid * 0x10000 + lc))).setLcpid lc pid

end Sys2Proof.Machine
end

