-- ==== Sys2Proof/Machine/Translation.lean ====
section
/-! DEFINITION. Address translation (R190 to R218): the walk, rights, guards and attributes, A and D, the TLBs and the
walk cache, and TINV. -/

namespace Sys2Proof.Machine

/-- Why an instruction stops: a trap; a line that another transaction holds (the instruction has no effect yet); or an
answer from outside that has not arrived (what was asked stays asked); `again` is a walk that restarts at level 0 (R208),
which no computation outside `translate` ends with. -/
inductive Stop where
  | trap (t : Trap)
  | wait
  | ext
  | again
  deriving DecidableEq, Repr

/-- A computation of a logical core: it may stop, and what it did to the package before stays. -/
abbrev M (α : Type) : Type := ExceptT Stop (StateM Pkg) α

/-- Raise a trap. -/
def trap {α : Type} (t : Trap) : M α := throw (.trap t)

/-- Apply a function of the package. -/
def liftP {α : Type} (f : Pkg → α × Pkg) : M α := do
  let p ← get
  let r := f p
  set r.2
  pure r.1

/-- The circumstances of an access: the core, its unit, level and partition, and the prefixes. -/
structure Ctx where
  lc : Nat
  u : Nat
  pl : Nat
  pid : Nat
  nt : Bool
  space : Bool
  order : Bool
  /-- Operand number for XINFO. -/
  opnd : Nat
  /-- Only checks: no A, no D and no translation is recorded. -/
  dry : Bool
  deriving DecidableEq, Repr

/-- The PID that an access carries (R190). -/
def Ctx.accPid (x : Ctx) : Nat := if x.pl = 2 then 0 else x.pid

/-- Lowest address of the device regions (R19). -/
def devBase : Nat := 0xC000000000000

/-- Attribute codes of R195: WB 0, UC 1, DEV-S 2, DEV-R 3; the stronger of two (R205). -/
def attrRank (a : Nat) : Nat := match a with | 2 => 3 | 3 => 2 | k => k
def attrMax (a b : Nat) : Nat := if attrRank a < attrRank b then b else a

/-- R19 and R20 on the attribute of a physical address. -/
def attrFinal (pa a : Nat) : Nat :=
  if devBase ≤ pa then (if a = 3 then 3 else 2)
  else if 0x8000000000000 ≤ pa then (if a = 0 then 1 else a)
  else a

/-- A virtual address is canonical (R198). -/
def canonical (va : Nat) : Bool := va / 2 ^ 47 == 0 || va / 2 ^ 47 == 2 ^ 17 - 1

/-- Bytes mapped by an entry of a level. -/
def lvlSize (l : Nat) : Nat := 2 ^ (39 - 9 * l)

/-- Entry fields (R199). -/
def enV (e : Word) : Bool := bit e 0
def enType (e : Word) : Nat := fld e 2 1
def enOA (e : Word) : Nat := fld e 51 12 * 4096
def enR (e : Word) : Bool := bit e 4
def enW (e : Word) : Bool := bit e 5
def enX (e : Word) : Bool := bit e 6
def enU (e : Word) : Bool := bit e 7
def enG (e : Word) : Bool := bit e 8
def enA (e : Word) : Bool := bit e 9
def enD (e : Word) : Bool := bit e 10
def enCH (e : Word) : Bool := bit e 11
def enAttr (e : Word) : Nat := fld e 62 60

/-- The entry is valid at its level (R201). `s1` is a tenant stage-1 entry; in the others U and G are Reserved. -/
def enValid (e : Word) (l : Nat) (s1 : Bool) : Bool :=
  let ty := enType e
  let table := ty == 0
  enV e && ty != 3 &&
  (match ty with
    | 0 => decide (l < 3)
    | 1 => (l == 1 && fld e 29 12 == 0) || (l == 2 && fld e 20 12 == 0)
    | _ => l == 3) &&
  !(enW e && !enR e) && !(enCH e && ty != 2) &&
  !bit e 63 && fld e 59 52 == 0 && !bit e 3 &&
  (!s1 || fld e 51 48 == 0) && (s1 || (!enU e && !enG e)) &&
  (!table || (fld e 63 52 == 0 && fld e 11 3 == 0))

/-- The size that a leaf covers for an input address (R202). -/
def leafSize (e : Word) (l inp : Nat) : Nat :=
  if enCH e && l == 3 && fld e 15 12 == inp / 4096 % 16 then 0x10000 else lvlSize l

/-- The output of a leaf for an input address. -/
def leafOut (e : Word) (l inp : Nat) : Nat :=
  let sz := leafSize e l inp
  enOA e / sz * sz + inp % sz

/-- A leaf that a walk reached: the physical address of its entry, the entry, its level, its size and its output. -/
structure Leaf where
  pa : Nat
  e : Word
  lvl : Nat
  size : Nat
  out : Nat
  deriving DecidableEq, Repr

/-- What a walk is about, for reporting its causes (R94, R209). -/
structure WalkFor where
  va : Nat
  acc : Nat
  stage : Nat
  /-- Partition address that stage 2 translates. -/
  part : Nat
  s1lvl : Nat
  adupd : Bool
  deriving DecidableEq, Repr

/-- The trap of a walk cause. -/
def walkTrap (x : Ctx) (w : WalkFor) (code lvl acc : Nat) (cause : Bool) : Trap :=
  { Trap.of code with
    stage := w.stage, wlvl := lvl, acc := acc, opnd := x.opnd,
    xaddr := if w.stage = 1 then w.part else w.va,
    m2 := if w.stage = 1 then some (w.va, w.adupd, cause && code == 0x15, w.s1lvl) else none }

/-- The access that a cause found by this walk reports (R209): read when it arose on a stage-1 table read, write on an
update of A or D. -/
def WalkFor.causeAcc (w : WalkFor) : Nat := if w.adupd then 1 else if w.stage = 1 ∧ w.s1lvl < 4 then 0 else w.acc

/-- Read an entry at a physical address (R207). `dev` tells a device attribute of stage 2 for a stage-1 table page. A cause
found here reports a read for a stage-1 table and the original access for an M-regime one (R209). -/
def readEntry (x : Ctx) (w : WalkFor) (pa lvl pid : Nat) (dev : Bool) : M Word := do
  let acc := if w.stage = 0 then (if x.pl = 2 then w.acc else 0) else w.causeAcc
  if devBase ≤ pa ∨ dev then trap (walkTrap x w 0x13 lvl acc false)
  else if hbmSize ≤ pa then trap (walkTrap x w 0x14 lvl acc false)
  else
    match ← liftP (fun p => p.cachedRead x.u pa pid 8 2 false) with
    | .bytes b false => pure (BitVec.ofNat 64 (leNat b))
    | .bytes _ true => trap (walkTrap x w 0x14 lvl acc false)
    | .err _ => trap (walkTrap x w 0x14 lvl acc false)
    | .waiting => throw .wait

/-- Look up the walk cache (R211). -/
def wcFind (es : List WcEnt) (mreg : Bool) (pid : Nat) (asid : Option Nat) (st2 : Bool) (lvl pre : Nat) : Option Word :=
  (es.find? (fun e => e.mregime == mreg && e.pid == pid && e.asid == asid && e.stage2 == st2 && e.lvl == lvl &&
    e.prefix_ == pre)).map (·.value)

/-- Add an entry; the oldest of 64 gives way (replacement is DESIGN CHOICE first in first out, log entry 9). -/
def wcAdd (u : Nat) (e : WcEnt) (p : Pkg) : Pkg :=
  let x := p.unit u
  p.setUnit u { x with wc := (e :: x.wc.filter (fun f => decide (f ≠ e))).take 64 }

/-- A read of a table entry through the walk cache; leaves are kept there only with `keepLeaf` (R211). -/
def readTable (x : Ctx) (w : WalkFor) (mreg : Bool) (asid : Option Nat) (pa lvl pid inp : Nat) (keepLeaf : Bool)
    (s1 : Bool) : M Word := do
  let pre := inp / lvlSize lvl
  let p ← get
  let tag := if mreg then 0 else x.pid
  match (wcFind (p.unit x.u).wc mreg tag asid (w.stage == 1) lvl pre).filter (fun e => keepLeaf || enType e == 0) with
  | some e => pure e
  | none =>
    let e ← readEntry x w pa lvl pid false
    if enValid e lvl s1 && (enType e == 0 || keepLeaf) then
      modify (wcAdd x.u { mregime := mreg, pid := tag, asid := asid, stage2 := w.stage == 1, lvl := lvl, prefix_ := pre,
                          value := e })
    pure e

/-- A walk of stage 2 from level `l` (R206): the table at `t`. -/
def s2Walk (x : Ctx) (w : WalkFor) (acc : Nat) : Nat → Nat → Nat → M Leaf
  | 0, l, _ => trap (walkTrap x w 0x15 (l - 1) w.causeAcc false)
  | k + 1, l, t => do
    let pa := t + 8 * (w.part / lvlSize l % 512)
    let e ← readTable x w false none pa l 0 w.part (decide (w.s1lvl < 4) && !w.adupd) false
    if !enValid e l false then trap (walkTrap x w 0x15 l w.causeAcc false)
    else if enType e = 0 then s2Walk x w acc k (l + 1) (enOA e)
    else
      let okRight := match acc with | 0 => enR e | 1 => enW e | _ => enX e
      if !okRight then trap (walkTrap x w 0x15 l w.causeAcc true)
      else pure { pa := pa, e := e, lvl := l, size := leafSize e l w.part, out := leafOut e l w.part }

/-- Stage 2 (R194, R206). -/
def s2 (x : Ctx) (w : WalkFor) (acc : Nat) : M Leaf := do
  let p ← get
  let root := (p.core x.lc).crGet 0x32
  if !bit root 0 then trap (walkTrap x w 0x15 0 w.causeAcc false)
  else s2Walk x w acc 4 0 (fld root 51 12 * 4096)

/-- Write A, and D with `d`, into a leaf entry in memory by compare-and-swap (R208): of an entry that software has changed
nothing is written and the walk restarts. A failed one is walk data with ACC write. -/
def setAD (x : Ctx) (w : WalkFor) (pid : Nat) (lf : Leaf) (d : Bool) : M Unit := do
  if x.dry || (enA lf.e && (enD lf.e || !d)) then pure ()
  else
    match ← liftP (fun p => p.cachedRead x.u lf.pa pid 8 2 false) with
    | .bytes b false =>
      let cur : Word := BitVec.ofNat 64 (leNat b)
      let plain := fun (e : Word) => setBit (setBit e 9 false) 10 false
      let new := setBit cur 9 true
      let new := if d then setBit new 10 true else new
      if plain cur ≠ plain lf.e then throw .again
      else if new = cur then pure ()
      else
        match ← liftP (fun p => p.cachedWrite x.u lf.pa pid (leBytes 8 new.toNat) false) with
        | .ok => pure ()
        | .err _ => trap (walkTrap x w 0x14 lf.lvl 1 false)
        | .waiting => throw .wait
    | .waiting => throw .wait
    | _ => trap (walkTrap x w 0x14 lf.lvl 1 false)

/-- A stage-1 walk from level `l`; `t` is the partition address of the table. It answers the leaf, whose entry address
is a partition address. -/
def s1Walk (x : Ctx) (va acc : Nat) (asid : Option Nat) : Nat → Nat → Nat → M Leaf
  | 0, l, _ => trap (walkTrap x { va := va, acc := acc, stage := 0, part := 0, s1lvl := 0, adupd := false } 0x10 (l - 1) acc false)
  | k + 1, l, t => do
    let w0 : WalkFor := { va := va, acc := acc, stage := 0, part := 0, s1lvl := 0, adupd := false }
    let inp := va % 2 ^ 48
    let ea := t + 8 * (inp / lvlSize l % 512)
    let p ← get
    let e ← (match wcFind (p.unit x.u).wc false x.pid asid false l (inp / lvlSize l) with
      | some e => pure e
      | none => do
        let w2 : WalkFor := { va := va, acc := acc, stage := 1, part := ea, s1lvl := l, adupd := false }
        let lf ← s2 x w2 0
        setAD x w2 0 lf false
        let p ← get
        let a2 := fld ((p.core x.lc).crGet 0x33) (2 * enAttr lf.e + 1) (2 * enAttr lf.e)
        let e ← readEntry x w0 lf.out l x.pid (decide (2 ≤ a2))
        if enValid e l true && enType e == 0 then
          modify (wcAdd x.u { mregime := false, pid := x.pid, asid := asid, stage2 := false, lvl := l,
                              prefix_ := inp / lvlSize l, value := e })
        pure e)
    if !enValid e l true then trap (walkTrap x w0 0x10 l acc false)
    else if enType e = 0 then s1Walk x va acc asid k (l + 1) (enOA e)
    else pure { pa := ea, e := e, lvl := l, size := leafSize e l inp, out := leafOut e l inp }

/-- The M-regime walk: one stage through physical tables under PID 0 (R190, R206). -/
def mWalk (x : Ctx) (va acc : Nat) : Nat → Nat → Nat → M Leaf
  | 0, l, _ => trap (walkTrap x { va := va, acc := acc, stage := 0, part := 0, s1lvl := 0, adupd := false } 0x10 (l - 1) acc false)
  | k + 1, l, t => do
    let w0 : WalkFor := { va := va, acc := acc, stage := 0, part := 0, s1lvl := 0, adupd := false }
    let inp := va % 2 ^ 48
    let pa := t + 8 * (inp / lvlSize l % 512)
    let e ← readTable x w0 true none pa l 0 inp false false
    if !enValid e l false then trap (walkTrap x w0 0x10 l acc false)
    else if enType e = 0 then mWalk x va acc k (l + 1) (enOA e)
    else pure { pa := pa, e := e, lvl := l, size := leafSize e l inp, out := leafOut e l inp }

/-- Rights and guards of a stage-1 or M-regime leaf (R203): 0x11, then 0x12. -/
def rightsCode (pl acc : Nat) (uag uxg space r w xx u : Bool) : Option Nat :=
  let right := match acc with | 0 => r | 1 => w | _ => xx
  if !right then some 0x11
  else if pl = 0 then (if u then none else some 0x11)
  else if pl = 1 then
    (if u && (if acc = 2 then uxg else uag && !space) then some 0x12 else none)
  else none

/-- A translation for one access: physical address and final attribute. -/
structure Xlat where
  pa : Nat
  attr : Nat
  deriving DecidableEq, Repr

/-- A slot of an attribute register (R195). -/
def attrSlot (r : Word) (i : Nat) : Nat := fld r (2 * i + 1) (2 * i)

/-- A combined translation answers an access without a walk (R211): every right is there, and D for a write. -/
def TlbEnt.serves (t : TlbEnt) (x : Ctx) (c : Core) (va acc : Nat) : Bool :=
  let psw := c.psw
  let asid := fld (c.crGet 0x30) 63 48
  -- the enables of the translation registers govern at once (R196)
  (if x.pl = 2 then bit (c.crGet 0x34) 0 else bit (c.crGet 0x32) 0 && t.s1 == bit (c.crGet 0x30) 0) &&
  (t.mregime == (x.pl == 2)) && t.pid == (if x.pl = 2 then 0 else x.pid) &&
  (match t.asid with | none => true | some a => a == asid) &&
  decide (t.vbase ≤ va ∧ va < t.vbase + t.size) &&
  (!t.s1 || (rightsCode x.pl acc (bit psw 9) (bit psw 8) x.space t.r t.w t.x t.u).isNone) &&
  (match acc with | 0 => t.r2 | 1 => t.w2 && t.dirty | _ => t.x2) &&
  !(acc == 2 && decide (2 ≤ attrFinal (t.pbase + (va - t.vbase)) t.attr))

/-- The set of the L2 TLB that a translation takes, of 512 (log entry 9). -/
def TlbEnt.set (t : TlbEnt) : Nat := t.vbase / t.size % 512

/-- The L2 TLB, 8 ways of 512 sets (R211), with a translation added: in a full set the oldest gives way (log entry 9). -/
def l2Add (t : TlbEnt) (es : List TlbEnt) : List TlbEnt :=
  let keep := (es.filter (fun e => e.set == t.set)).take 7
  t :: es.filter (fun e => e.set != t.set || keep.contains e)

/-- Enter a translation into the L1 TLB of its kind and the L2 TLB; the oldest give way (log entry 9). -/
def tlbAdd (u : Nat) (fetch : Bool) (t : TlbEnt) (p : Pkg) : Pkg :=
  let x := p.unit u
  let other := fun (e : TlbEnt) => !(e.mregime == t.mregime && e.pid == t.pid && e.asid == t.asid && e.vbase == t.vbase && e.size == t.size)
  let l1 := if fetch then { x with itlb := (t :: x.itlb.filter other).take 64 } else { x with dtlb := (t :: x.dtlb.filter other).take 96 }
  p.setUnit u { l1 with l2tlb := l2Add t (x.l2tlb.filter other) }

/-- The walk for one access (R206): its translation is entered into the TLBs. -/
def walk (x : Ctx) (va acc : Nat) : M Xlat := do
  let p ← get
  let c := p.core x.lc
  let psw := c.psw
  let w0 : WalkFor := { va := va, acc := acc, stage := 0, part := 0, s1lvl := 0, adupd := false }
  let inp := va % 2 ^ 48
  let fetch := acc == 2
  if x.pl = 2 then
    let root := c.crGet 0x34
    if !bit root 0 then
      let a := attrFinal inp 0
      if fetch && decide (2 ≤ a) then trap (walkTrap x w0 0x11 0 acc false)
      pure { pa := inp, attr := a }
    else
      let lf ← mWalk x va acc 4 0 (fld root 51 12 * 4096)
      match rightsCode 2 acc false false false (enR lf.e) (enW lf.e) (enX lf.e) false with
      | some code => trap (walkTrap x w0 code lf.lvl acc false)
      | none =>
        let a := attrSlot (c.crGet 0x35) (enAttr lf.e)
        let af := attrFinal lf.out a
        if fetch && decide (2 ≤ af) then trap (walkTrap x w0 0x11 lf.lvl acc false)
        setAD x w0 0 lf (acc == 1)
        modify (tlbAdd x.u fetch
          { mregime := true, pid := 0, asid := none, vbase := va / lf.size * lf.size, pbase := lf.out / lf.size * lf.size,
            size := lf.size, s2base := 0, s2size := 0, r := enR lf.e, w := enW lf.e, x := enX lf.e, u := false, s1 := true,
            r2 := true, w2 := true, x2 := true, attr := a, dirty := acc == 1 || enD lf.e })
        pure { pa := lf.out, attr := af }
  else
    let root := c.crGet 0x30
    let asid := fld root 63 48
    let lf1 ← (if bit root 0 then (do
        let lf ← s1Walk x va acc (some asid) 4 0 (fld root 47 12 * 4096)
        match rightsCode x.pl acc (bit psw 9) (bit psw 8) x.space (enR lf.e) (enW lf.e) (enX lf.e) (enU lf.e) with
        | some code => trap (walkTrap x w0 code lf.lvl acc false)
        | none => pure (some lf)) else pure none)
    let part := match lf1 with | some lf => lf.out | none => inp
    let w2 : WalkFor := { va := va, acc := acc, stage := 1, part := part, s1lvl := 4, adupd := false }
    let lf2 ← s2 x w2 acc
    let a1 := match lf1 with | some lf => attrSlot (c.crGet 0x31) (enAttr lf.e) | none => 0
    let a := attrMax a1 (attrSlot (c.crGet 0x33) (enAttr lf2.e))
    let af := attrFinal lf2.out a
    if fetch && decide (2 ≤ af) then
      trap (walkTrap x w0 0x11 (match lf1 with | some lf => lf.lvl | none => 0) acc false)
    -- A and D: the stage-1 leaf is written at its partition address, through stage 2 for write
    let wr := acc == 1
    (match lf1 with
      | some lf =>
        if enA lf.e && (enD lf.e || !wr) then pure ()
        else do
          let wu : WalkFor := { va := va, acc := acc, stage := 1, part := lf.pa, s1lvl := lf.lvl, adupd := true }
          let t ← s2 x wu 1
          setAD x wu 0 t true
          setAD x { w0 with adupd := true } x.pid { lf with pa := t.out } wr
      | none => pure ())
    setAD x w2 0 lf2 wr
    let size := match lf1 with | some lf => min lf.size lf2.size | none => lf2.size
    let b1 := match lf1 with | some lf => lf.e | none => 0
    modify (tlbAdd x.u fetch
      { mregime := false, pid := x.pid,
        asid := match lf1 with | some lf => (if enG lf.e then none else some asid) | none => some asid,
        vbase := va / size * size, pbase := lf2.out / size * size, size := size,
        s2base := part / lf2.size * lf2.size, s2size := lf2.size,
        r := enR b1, w := enW b1, x := enX b1, u := enU b1, s1 := lf1.isSome,
        r2 := enR lf2.e, w2 := enW lf2.e, x2 := enX lf2.e, attr := a,
        dirty := wr || (enD lf2.e && (match lf1 with | some lf => enD lf.e | none => true)) })
    pure { pa := lf2.out, attr := af }

/-- A walk made first without writing A or D and without recording anything, so that a walk that faults leaves no A, no D
and no entry (R208, R210); then, but for an access that is only checked, the walk that writes them. -/
def walkTwice (x : Ctx) (va acc : Nat) : M Xlat := do
  let p ← get
  let r := (walk { x with dry := true } va acc).run.run p
  let p := { r.2 with units := p.units }
  set p
  match r.1 with
  | .error e => throw e
  | .ok v =>
    if x.dry then pure v
    else
      let r := (walk x va acc).run.run p
      match r.1 with
      | .ok v => set r.2; pure v
      | .error e => throw e

/-- Translate one access: acc 0 read, 1 write, 2 fetch (R198, R206, R211). A walk whose leaf software has changed restarts
at level 0 (R208): the unit's walk cache, which held the old entry, is emptied for it, so that the second walk reads every
entry from memory (log entry 119). -/
def translate (x : Ctx) (va acc : Nat) : M Xlat := do
  if !canonical va then
    trap { Trap.of 0x10 with acc := acc, opnd := x.opnd, xaddr := va }
  else
    let p ← get
    let un := p.unit x.u
    let c := p.core x.lc
    let es := (if acc = 2 then un.itlb else un.dtlb) ++ un.l2tlb
    match es.find? (fun t => t.serves x c va acc) with
    | some t =>
      if !x.dry then modify (tlbAdd x.u (acc == 2) t)
      let pa := t.pbase + (va - t.vbase)
      pure { pa := pa, attr := attrFinal pa t.attr }
    | none =>
      let r := (walkTwice x va acc).run.run p
      match r.1 with
      | .error .again =>
        let r := (walkTwice x va acc).run.run (p.setUnit x.u { un with wc := [] })
        match r.1 with
        | .error .again => throw .wait
        | .error e => set r.2; throw e
        | .ok v => set r.2; pure v
      | .error e => set r.2; throw e
      | .ok v => set r.2; pure v

/-! ### TINV (R150, R218) -/

/-- The entries of a unit after a TINV: `scope`, the caller's or named PID, whether the caller is at M, and the address. -/
def tinvUnit (scope pid : Nat) (atM : Bool) (a : Nat) (x : PhysUnit) : PhysUnit :=
  let mine := fun (e : TlbEnt) => !e.mregime && e.pid == pid
  let mreg := fun (e : TlbEnt) => atM && e.mregime
  let kill : TlbEnt → Bool := match scope with
    | 0 => fun e => (mine e || mreg e) && decide (e.vbase < a / 4096 * 4096 + 4096 ∧ a / 4096 * 4096 < e.vbase + e.size)
    | 1 => fun e => mine e || mreg e
    | 2 => fun e => mine e && decide (e.s2base < a / 4096 * 4096 + 4096 ∧ a / 4096 * 4096 < e.s2base + e.s2size)
    | 3 => fun e => mine e || (e.mregime && pid == 0)
    | _ => fun _ => false
  let wmine := fun (e : WcEnt) => !e.mregime && e.pid == pid
  let wmreg := fun (e : WcEnt) => atM && e.mregime
  let wkill : WcEnt → Bool := match scope with
    | 0 => fun e => ((wmine e && !e.stage2) || wmreg e) && e.prefix_ == a % 2 ^ 48 / lvlSize e.lvl
    | 1 => fun e => (wmine e && !e.stage2) || wmreg e
    | 2 => fun e => wmine e && e.stage2
    | _ => fun e => wmine e || (e.mregime && pid == 0)
  { x with itlb := x.itlb.filter (fun e => !kill e), dtlb := x.dtlb.filter (fun e => !kill e),
           l2tlb := x.l2tlb.filter (fun e => !kill e), wc := x.wc.filter (fun e => !wkill e) }

/-- TINV reaches every unit of the package (R218). -/
def Pkg.tinvAll (p : Pkg) (scope pid : Nat) (atM : Bool) (a : Nat) : Pkg :=
  (p.units.map (·.1)).foldl (fun p u => p.setUnit u (tinvUnit scope pid atM a (p.unit u))) p

/-- The TLBs and the walk cache of a unit are emptied (R212). -/
def Pkg.emptyTlbs (p : Pkg) (u : Nat) : Pkg :=
  p.setUnit u { p.unit u with itlb := [], dtlb := [], l2tlb := [], wc := [] }

end Sys2Proof.Machine
end

