-- ==== Sys2Proof/Machine/Dev.lean ====
section
/-! DEFINITION. Accesses of the agents that are no core: stage-2 translation of their partition addresses (R342, R377,
R477, R496) and data moved through it. -/

namespace Sys2Proof.Machine

/-- What an access of such an agent got. `xlate`: stage 2 refused it. -/
inductive DevAns where
  | ok (bytes : List Byte) (poison : Bool)
  | xlate
  | err (status : Nat)
  | waiting
  deriving DecidableEq, Repr

def IoAns.dev : IoAns → DevAns
  | .done b po => .ok b po
  | .err st => .err st
  | .waiting => .waiting

/-- Write A, and D for a write, into a stage-2 leaf (R208). -/
def Pkg.devAD (p : Pkg) (agent pa : Nat) (e : Word) (wr : Bool) : Pkg :=
  let new := setBit e 9 true
  let new := if wr then setBit new 10 true else new
  if new = e then p else (p.ioWrite agent 0 pa (leBytes 8 new.toNat)).2

/-- A stage-2 walk of an agent (R206, R207): physical base, size and leaf of the page, none when it is refused. -/
def Pkg.devWalk (p : Pkg) (agent addr : Nat) (wr : Bool) : Nat → Nat → Nat → Option (Nat × Nat × Word) × Pkg
  | 0, _, _ => (none, p)
  | k + 1, l, t =>
    let pa := t + 8 * (addr / lvlSize l % 512)
    if hbmSize ≤ pa then (none, p)
    else
      match p.ioRead agent 0 pa 8 with
      | (.done b false, p) =>
        let e : Word := BitVec.ofNat 64 (leNat b)
        if !enValid e l false then (none, p)
        else if enType e = 0 then p.devWalk agent addr wr k (l + 1) (enOA e)
        else if !(if wr then enW e else enR e) then (none, p)
        else
          let sz := leafSize e l addr
          (some (leafOut e l addr / sz * sz, sz, e), p.devAD agent pa e wr)
      | (_, p) => (none, p)

/-- The stage-2 root of a partition for the engines: that of the lowest logical core it owns (DEDUCED from R217, log
entry 14). -/
def Pkg.s2root (p : Pkg) (pid : Nat) : Option Nat :=
  match (List.range 216).find? (fun lc => p.lcpid lc == pid) with
  | some lc =>
    let r := (p.core lc).crGet 0x32
    if bit r 0 then some (fld r 51 12 * 4096) else none
  | none => none

/-- What an engine's address leads to: a physical address in HBM, no right or no translation, or an address that answers no
access of an engine. -/
inductive DevAddr where
  | pa (a : Nat)
  | refused
  | outside
  deriving DecidableEq, Repr

/-- A physical address as an engine reaches it (R18, R23). -/
def devAddr (pa : Nat) : DevAddr := if pa < hbmSize then .pa pa else .outside

/-- The physical address of an engine's address: physical itself under PID 0, else translated (R342). -/
def Pkg.devXlate (p : Pkg) (agent pid addr : Nat) (wr : Bool) : DevAddr × Pkg :=
  if pid = 0 then (devAddr addr, p)
  else if 2 ^ 48 ≤ addr then (.refused, p)
  else
    match p.s2root pid with
    | none => (.refused, p)
    | some root =>
      match p.devWalk agent addr wr 4 0 root with
      | (some (base, sz, _), p) => (devAddr (base + addr % sz), p)
      | (none, p) => (.refused, p)

/-- The parts of an address range that lie in single 4 KiB pages. -/
def pageParts (addr len : Nat) : List (Nat × Nat) :=
  if len = 0 then []
  else
    (List.range ((addr + len - 1) / 4096 + 1 - addr / 4096)).map (fun i =>
      let a := max addr ((addr / 4096 + i) * 4096)
      (a, min (addr + len) ((addr / 4096 + i + 1) * 4096) - a))

/-- Read at an engine's address. -/
def Pkg.devRead (p : Pkg) (agent pid addr len : Nat) : DevAns × Pkg :=
  (pageParts addr len).foldl (fun (a : DevAns × Pkg) e =>
    match a.1 with
    | .ok b po =>
      match a.2.devXlate agent pid e.1 false with
      | (.refused, p) => (.xlate, p)
      | (.outside, p) => (.err 1, p)
      | (.pa pa, p) =>
        match p.ioReadRange agent pid pa e.2 with
        | (.done b2 po2, p) => (.ok (b ++ b2) (po || po2), p)
        | (x, p) => (x.dev, p)
    | _ => a) (.ok [] false, p)

/-- Write at an engine's address. What was written before a failing page stays written. -/
def Pkg.devWrite (p : Pkg) (agent pid addr : Nat) (bs : List Byte) (poison : Bool := false) : DevAns × Pkg :=
  (pageParts addr bs.length).foldl (fun (a : DevAns × Pkg) e =>
    match a.1 with
    | .ok _ _ =>
      match a.2.devXlate agent pid e.1 true with
      | (.refused, p) => (.xlate, p)
      | (.outside, p) => (.err 1, p)
      | (.pa pa, p) =>
        let r := p.ioWriteRange agent pid pa ((bs.drop (e.1 - addr)).take e.2) poison
        (r.1.dev, r.2)
    | _ => a) (.ok [] false, p)

/-- The chain window of a physical address (R18, R20). -/
def inChain (pa : Nat) : Bool := decide (0x8000000000000 ≤ pa ∧ pa < 0x9000000000000)

/-- The window of chain address `n` (R20). -/
def inChainOf (n pa : Nat) : Bool := inChain pa && (pa - 0x8000000000000) / 2 ^ 43 == n

/-- The answer of an access of logical core `lc` that waits for something outside: its tag identifies it. -/
def Pkg.coreAnswer (p : Pkg) (inWin : Nat → Bool) (tag : Nat) (ans : Option (List Byte × Bool)) : Pkg :=
  (List.range 216).foldl (fun p lc =>
    let c := p.core lc
    if c.io.any (fun a => a.tag == tag && inWin a.pa && a.answer.isNone) then
      p.setCore lc { c with io := c.io.map (fun a =>
        if a.tag = tag ∧ inWin a.pa ∧ a.answer = none then { a with answer := some ans } else a) }
    else
      match c.posted.find? (fun a => a.tag == tag && inWin a.pa) with
      | some a => p.setCore lc { c with posted := c.posted.erase a,
                                        failed := if ans.isNone then c.failed ++ [a.pa] else c.failed }
      | none => p) p

end Sys2Proof.Machine
end

