-- ==== Sys2Proof/Machine/Snapshot.lean ====
section
/-! DEFINITION. The lightning trigger: its sources, chain triggers, and arming (R48 to R53, R468, R547). -/

namespace Sys2Proof.Machine

/-- SNAPSRC of HD.STEWARD (R53). -/
def Pkg.snapSrc (p : Pkg) (b : Nat) : Bool := bit (p.cfg pgSTW 0x428) b

/-- A trigger of the package itself with source bit `src`: a local latch edge 16 reference cycles on, or a chain trigger
(R49, R50). -/
def Pkg.snapTrigger (p : Pkg) (src : Nat) : Pkg :=
  if p.snapSrc 8 then
    let t := (p.frameNum + p.fr.ofs.toNat + 8) % 2 ^ 48
    let p := p.setReg pgSTW 0x360 (word [(48, p.chainAddr), (0, t)])
    let p := (p.chainHop false (.snap p.chainAddr t)).chainHop true (.snap p.chainAddr t)
    { p with stw := { p.stw with chainSeen := (p.chainAddr, t) :: p.stw.chainSeen,
                                 chainPend := p.stw.chainPend ++ [(p.chainAddr, t, src + 16)] } }
  else { p with stw := { p.stw with latches := p.stw.latches ++ [(false, src, false)] } }

/-- TRIG of SNAPTRIG (R53). -/
def Pkg.cmdSnaptrig (p : Pkg) : Pkg :=
  if p.snapSrc 0 then (p.cmdOk pgSTW 0xC00).snapTrigger 1 else p.cmdWrong pgSTW 0xC00

/-- ARMALL of SNAPARM (R52, R53). -/
def Pkg.cmdSnaparm (p : Pkg) : Pkg :=
  let p := p.cmdOk pgSTW 0xC08
  ({ p with stw := { p.stw with armAll := true } }).unripe .rearm 0

/-- ARM of SNAPCTL (R48): MISSED is cleared and the page is armed; no effect if it is armed already. The re-arm of SNAPARM
does the same (log entry 110). -/
def Pkg.armPage (p : Pkg) (pg : Nat) : Pkg :=
  if bit (p.reg pg 0x048) 0 then p else (p.setRf pg 0x048 15 8 0).setRf pg 0x048 0 0 1

/-- The ARM command of a page (R48). -/
def Pkg.cmdArm (p : Pkg) (pg : Nat) : Pkg := (p.armPage pg).cmdOk pg 0x048

/-- A chain trigger received: it is acted on once, and forwarded on the other port (R50, R68, R468). -/
def Pkg.snapReceive (p : Pkg) (md : Mode) (fromUp : Bool) (m : ChainMsg) (orig target : Nat) : Pkg :=
  if p.stw.chainSeen.contains (orig, target) then p
  else
    let p := if md.forwards then p.chainSend fromUp m else p
    let p := { p with stw := { p.stw with chainSeen := (orig, target) :: p.stw.chainSeen } }
    if !p.head && p.fr.state == 0 then p.addRf pgSTW 0x358 23 16 1
    else if !p.snapSrc 4 then p
    else
      let p := p.setReg pgSTW 0x360 (word [(48, orig), (0, target)])
      let ahead := (target + 2 ^ 48 - (p.frameNum + p.fr.ofs.toNat) % 2 ^ 48) % 2 ^ 48
      if 1 ≤ ahead ∧ ahead < 2 ^ 47 then { p with stw := { p.stw with chainPend := p.stw.chainPend ++ [(orig, target, 16)] } }
      else { p with stw := { p.stw with latches := p.stw.latches ++ [(false, 16, true)] } }

/-- At a tick: the latch edges that the frame match and the chain targets fix (R49, R50, R53). -/
def Pkg.snapTick (p : Pkg) : Pkg :=
  let f := p.frameNum
  let p := if p.snapSrc 1 ∧ p.cf pgSTW 0x430 47 0 = f then
    { p with stw := { p.stw with latches := p.stw.latches ++ [(true, 2, false)] } } else p
  let due := fun (e : Nat × Nat × Nat) => decide (e.2.1 = (f + p.fr.ofs.toNat) % 2 ^ 48)
  let now := p.stw.chainPend.filter due
  { p with stw := { p.stw with chainPend := p.stw.chainPend.filter (fun e => !due e),
                               latches := p.stw.latches ++ now.map (fun e => (true, e.2.2, false)) } }

/-- SNAPTRIG: a write of 1 to TRIG. -/
def execSnaptrig (who : Requester) (s : State) : Host.Outcome State Fault Refusal :=
  s.upd (fun p => p.cmd who pgSTW 0xC00 Pkg.cmdSnaptrig)

/-- SNAPARM: a write of 1 to ARMALL. -/
def execSnaparm (who : Requester) (s : State) : Host.Outcome State Fault Refusal :=
  s.upd (fun p => p.cmd who pgSTW 0xC08 Pkg.cmdSnaparm)

/-- ARM: a write of 1 to SNAPCTL[ARM] of a page. -/
def execArm (who : Requester) (pg : PageId) (s : State) : Host.Outcome State Fault Refusal :=
  s.upd (fun p => p.cmd who (pgOf pg) 0x048 (fun p => p.cmdArm (pgOf pg)))

/-- A SNAPARM that a tick has found re-arms every page of the package (R52). -/
def Pkg.rearm (p : Pkg) : Pkg :=
  if p.stw.armAll && p.isRipe .rearm 0 then
    let p := allPages.foldl (fun p pg => if p.powered pg then p.armPage pg else p) p
    { p with stw := { p.stw with armAll := false } }
  else p

/-- SNAPARM_REARM: the tick after SNAPARM re-arms every page (R52). -/
def execSnaparmRearm (s : State) : Host.Outcome State Fault Refusal := s.upd Pkg.rearm

/-- SNAP_IN_EDGE: a sampled rising edge (R49); one within 16 cycles of another fixes the same latch edge (R547). -/
def execSnapInEdge (s : State) : Host.Outcome State Fault Refusal :=
  s.upd (fun p =>
    if !p.snapSrc 3 then p
    else if p.stw.latches.any (fun l => !l.1 && l.2.1 == 8) then p
    else p.snapTrigger 8)

/-- SNAP: a chain snapshot trigger arrives (R50, R468). -/
def execSnap (fromUp : Bool) (orig : Fin 32) (target : BitVec 48) (gen : Byte) (wake : Bool) (s : State) :
    Host.Outcome State Fault Refusal :=
  s.upd (fun p =>
    if p.pw.hubMain then
      p.snapReceive s.mode.mode fromUp
        { dst := none, src := orig.val, gen := gen.toNat, wake := wake, body := .snap orig.val target.toNat } orig.val target.toNat
    else p)

end Sys2Proof.Machine
end

