-- ==== Sys2Proof/Machine/Inbound.lean ====
section
/-! DEFINITION. Requests that come into HBM through a port: a guest, a device, another package, the service host (R305, R444,
R470, R479). The requests of a port are carried out in the order taken; one that a home cannot serve yet waits (log entry
144). -/

namespace Sys2Proof.Machine

/-- A request answered Unsupported Request (R482). -/
def Pkg.peUr (p : Pkg) (n : Nat) : Pkg := (p.addRf (pgPE n) 0x208 63 0 1).setEvent (pgPE n) 17 3 { Det.none with detail := p.reg (pgPE n) 0x218 }

/-- RRSP is sent to package `src` (R469, R471). -/
def Pkg.rrsp (p : Pkg) (src tag status : Nat) (bytes : List Byte) (poison : Bool) : Pkg :=
  (p.chainTo src (.rrsp tag status bytes)).reply tag status bytes poison

/-- Writes of the parts, one line at a time; the first that is not done stops it. -/
def Pkg.writeParts (p : Pkg) (agent pid : Nat) (parts : List (Nat × Nat)) (bytes : List Byte) (mask : Nat) (poison : Bool) :
    IoAns × Pkg :=
  let r := (parts.flatMap (fun e => lineParts e.1 e.2)).foldl (fun (a : Nat × IoAns × Pkg) e =>
    match a.2.1 with
    | .done _ _ =>
      (a.1 + e.2, a.2.2.ioAccess { mkReq .iowr (e.1 / 64) pid agent 0 with
        off := e.1 % 64, len := e.2, bytes := (bytes.drop a.1).take e.2, mask := mask / 2 ^ a.1 % 2 ^ e.2, poison := poison })
    | _ => a) (0, .done [] false, p)
  r.2

/-- Reads of the parts; poison is collected. -/
def Pkg.readParts (p : Pkg) (agent pid : Nat) (parts : List (Nat × Nat)) : IoAns × Pkg :=
  parts.foldl (fun (a : IoAns × Pkg) e =>
    match a.1 with
    | .done b po =>
      match a.2.ioReadRange agent pid e.1 e.2 with
      | (.done b2 po2, p) => (.done (b ++ b2) (po || po2), p)
      | x => x
    | _ => a) (.done [] false, p)

/-- The vector of an MSI is delivered through MSIMAPv, or dropped (R480). -/
def Pkg.peMsi (p : Pkg) (n link v : Nat) : Pkg :=
  let pg := pgPE n
  let drop := fun (p : Pkg) => p.setEvent pg 20 3 { Det.none with detail := p.reg pg 0x218 }
  let m := p.cfg pg (0x428 + 8 * (v % 64))
  let pid := fld m 30 24
  if decide (64 ≤ v) || !bit m 31 || decide (pid ≠ fld (p.cfg pg (0x408 + 8 * link)) 62 56) then drop p
  else
    match p.notify (fld m 15 8) pid (fld m 7 0) with
    | (true, p) => p
    | (false, p) => drop p

/-- Entries of the machine-check ring (R535). -/
def Pkg.mcRing (p : Pkg) : Nat := 2 ^ min 12 (max 4 (p.cf pgSTW 0x420 51 48))

/-- A record copied into the ring goes to MCLTAIL, unless the ring is full (R529). -/
def Pkg.mclWrite (p : Pkg) (agent pid : Nat) (b : List Byte) (mask : Nat) : IoAns × Pkg :=
  let tail := p.rf pgSTW 0x340 11 0
  if (tail + 1) % p.mcRing = p.rf pgSTW 0xC58 11 0 then (.err 1, p)
  else p.writeParts agent pid [(p.cf pgSTW 0x418 51 12 * 4096 + 64 * tail, 64)] b mask false

/-- Carry out a request. -/
def Pkg.inTry (p : Pkg) (x : Inbound) : IoAns × Pkg :=
  match x.op with
  | .read => p.readParts x.agent x.pid x.parts
  | .write b mask poison =>
    match x.src with
    | .mclog => p.mclWrite x.agent x.pid b mask
    | _ => p.writeParts x.agent x.pid x.parts b mask poison
  | .atom op b =>
    match x.parts with
    | (pa, n) :: _ => p.ioAtom x.agent x.pid pa n op b
    | [] => (.done [] false, p)
  | .msi _ _ => (.done [] false, p)

/-- Lines that a request touches. -/
def Inbound.lines (x : Inbound) : Nat := (x.parts.flatMap (fun e => lineParts e.1 e.2)).length

/-- The request has ended: a guest and a device get an answer for what is not posted, a package always, the service host for a
read (R305, R442, R471, R477). -/
def Pkg.inEnd (p : Pkg) (x : Inbound) (a : IoAns) : Pkg :=
  let wrote : Bool := match x.op with | .write _ _ _ => true | _ => false
  match x.src with
  | .guest g tag =>
    let ok := (p.evCount none 12 g (some x.pid) 4 x.lines)
    match a with
    | .done b po => if wrote then ok else ok.reply tag (if po then 2 else 0) b po
    | _ => if wrote then ok else p.reply tag 3 [] false
  | .pcie n addr =>
    let ok := (p.evCount none 11 n (some x.pid) 4 x.lines)
    let bad := fun (p : Pkg) => p.setEvent (pgPE n) 19 2 { Det.none with pids := [x.pid], addr := addr, agent := x.agent }
    match x.op, a with
    | .write _ _ ep, _ => if ep then bad ok else ok
    | .msi link v, _ => p.peMsi n link v
    | _, .done b po => (if po then bad ok else ok).reply 0 0 b po
    | _, _ => (p.peUr n).reply 0 1 [] false
  | .chain src tag =>
    match a with
    | .done b po => p.rrsp src tag (if po then 2 else 0) b po
    | _ => p.rrsp src tag 3 [] false
  | .host pa =>
    match a with
    | .done b po => if wrote then p else p.reply 0 0 b po
    | _ => if wrote then p.seUrWrite pa else (p.seUr pa).reply 0 1 [] false
  | .mclog =>
    match a with
    | .done _ _ => p.setRf pgSTW 0x340 11 0 ((p.rf pgSTW 0x340 11 0 + 1) % p.mcRing)
    | _ => p.addRf pgSTW 0x350 63 0 1

/-- Requests of the port wait. -/
def Pkg.inWaits (p : Pkg) (agent : Nat) : Bool := p.inq.any (fun x => x.agent == agent)

/-- A port takes a request: it is carried out unless an earlier one of the port waits or a home cannot serve it yet. -/
def Pkg.inTake (p : Pkg) (x : Inbound) : Pkg :=
  let hold := { p with inq := p.inq ++ [x] }
  if p.inWaits x.agent then hold
  else
    match p.inTry x with
    | (.waiting, _) => hold
    | (a, q) => q.inEnd x a

/-- The waiting requests are tried again, those of each port in their order. -/
def Pkg.inServe (p : Pkg) : Pkg := p.inq.foldl (fun (p : Pkg) x => p.inTake x) { p with inq := [] }

/-- The oldest request of a port ends with an error when it has waited too long (R266). -/
def Pkg.inExpire (p : Pkg) (x : Inbound) : Pkg := ({ p with inq := p.inq.erase x }).inEnd x (.err 1)

/-- The waiting requests have seen one more tick. -/
def Pkg.inAge (p : Pkg) : Pkg := { p with inq := p.inq.map (fun x => { x with age := x.age + 1 }) }

/-- What a port holds is discarded (R309); a record on its way into the machine-check ring is the steward's and stays. -/
def Pkg.inDrop (p : Pkg) (agent : Nat) : Pkg := { p with inq := p.inq.filter (fun x => x.agent != agent || x.src == .mclog) }

end Sys2Proof.Machine
end

