-- ==== Sys2Proof/Machine/Chain.lean ====
section
/-! DEFINITION. The chain: addressing, frame alignment, remote windows (R67, R68, R462 to R474). -/

namespace Sys2Proof.Machine

/-- ENDCH of CHD (R465). -/
def Pkg.endCh (p : Pkg) : Bool := p.cf (pgCH true) 0x400 8 8 == 1

/-- Chain enumeration is finished for the package (R465). -/
def Pkg.chainFinished (p : Pkg) : Bool := p.chainValid && (p.chain.eack || p.endCh)

/-- Remember that the chain was enumerated once (R466). -/
def Pkg.chainNote (p : Pkg) : Pkg := if p.chainFinished then { p with chain := { p.chain with done := true } } else p

/-- GEN g2 is newer than g1: serial-number arithmetic on the eight bits of a GEN (R41, R466; log entry 25). -/
def newerGen (g2 g1 : Nat) : Bool :=
  let d := (g2 + 256 - g1 % 256) % 256
  decide (1 ≤ d ∧ d ≤ 0x7F)

/-- `g` may replace the generation in force: none is, or it is the same or newer (R41, R466). -/
def Pkg.genStands (p : Pkg) (g : Nat) : Bool := !p.chainValid || g == p.chainGen || newerGen g p.chainGen

/-- The address that the package holds or has taken, and its GEN. -/
def Pkg.taken (p : Pkg) : Nat × Nat := p.chain.pend.getD (p.chainAddr, p.chainGen)

/-- ENUM for the downstream neighbour: the next address, and the GEN taken (R464, R466). -/
def Pkg.sendEnum (p : Pkg) : Pkg := p.chainMsg true none p.taken.2 (.enum (p.taken.1 + 1))

/-- In LOAD the head takes address 0 and GEN 1, and sends ENUM(1) on CHD (R464). -/
def Pkg.headAddr (p : Pkg) (load : Bool) : Pkg :=
  if !(load && p.head) then p
  else
    let fresh := !p.chainValid
    let p := [false, true].foldl (fun p d =>
      if bit (p.reg (pgCH d) 0x200) 21 then p else (p.setRf (pgCH d) 0x200 39 32 1).setRf (pgCH d) 0x200 21 16 32) p
    if fresh then p.sendEnum else p

/-- The address and GEN received come into force at a tick (R464). -/
def Pkg.chainTick (p : Pkg) : Pkg :=
  match p.chain.pend with
  | none => p
  | some (a, g) =>
    let changed := !p.chainValid || a != p.chainAddr || g != p.chainGen
    let set := fun (p : Pkg) (d : Bool) =>
      let p := ((p.setRf (pgCH d) 0x200 39 32 g).setRf (pgCH d) 0x200 21 21 1).setRf (pgCH d) 0x200 20 16 a
      if changed then p.setEvent (pgCH d) 18 1 else p
    let p := { p with chain := { p.chain with pend := none } }
    (set (set p false) true).chainNote

/-- ENUM: a proposed address and GEN arrive at CHU (R464, R466): the package takes them, answers EACK and sends ENUM on CHD,
once CHD has trained. -/
def execEnum (addr gen : Byte) (s : State) : Host.Outcome State Fault Refusal :=
  s.upd (fun p =>
    if !p.pw.hubMain || p.head || decide (32 ≤ addr.toNat) || !p.genStands gen.toNat then p
    else
      let p := p.chainHop false .eack
      let p := { p with chain := { p.chain with pend := some (addr.toNat, gen.toNat), held := !p.chUp true } }
      if p.chUp true then p.sendEnum else p)

/-- EACK: the downstream neighbour has taken its address (R465). -/
def execEack (s : State) : Host.Outcome State Fault Refusal :=
  s.upd (fun p => if p.pw.hubMain then ({ p with chain := { p.chain with eack := true } }).chainNote else p)

/-- GENUP: a new GEN from downstream (R466). The package keeps its address and forwards GENUP on CHU. -/
def execGenup (gen : Byte) (s : State) : Host.Outcome State Fault Refusal :=
  s.upd (fun p =>
    if p.pw.hubMain ∧ p.chainValid ∧ newerGen gen.toNat p.chainGen then
      { p with chain := { p.chain with pend := some (p.chainAddr, gen.toNat) } }.chainMsg false none gen.toNat .genup
    else p)

/-- CHAIN_JOIN: CHD has trained after the chain was enumerated: the package takes GEN g + 1, and sends ENUM on CHD and GENUP on
CHU (R466). -/
def execChainJoin (s : State) : Host.Outcome State Fault Refusal :=
  s.upd (fun p =>
    if p.chain.join then
      let g := (p.chainGen + 1) % 256
      let p := { p with chain := { p.chain with pend := some (p.chainAddr, g), join := false, eack := false } }
      p.sendEnum.chainMsg false none g .genup
    else p)

/-- CHD has trained: the enumeration goes on, or a join takes place (R464, R466). -/
def Pkg.chdTrained (p : Pkg) : Pkg :=
  if p.chain.held then { p with chain := { p.chain with held := false } }.sendEnum
  else if p.chain.done && p.chainValid then { p with chain := { p.chain with join := true } }
  else if p.chainValid then p.sendEnum
  else p

/-- A chain link goes down; it retrains with the back-off of R63 (R461, R466). -/
def Pkg.chainDown (p : Pkg) (down : Bool) : Pkg :=
  if !p.chUp down then p
  else
    let pg := pgCH down
    let p := ((p.setRf pg 0x200 3 0 (if down && p.endCh then 4 else 0)).setRf pg 0x200 13 12 3).setEvent pg 17 1
    let p := p.setChPort down ChPort.reset
    if down && p.endCh then p
    else { p with boot := { p.boot with waits := tblSet (fun _ => 0) p.boot.waits down.toNat 1 } }

/-- CHAIN_LINK_DOWN (R466). -/
def execChainLinkDown (down : Bool) (s : State) : Host.Outcome State Fault Refusal := s.upd (fun p => p.chainDown down)

/-- FRAME: the head's frame reaches the package (R467, R68). `phErr` is PHERR in nanoseconds as measured from the arrival,
CORR and LINKDLY. -/
def Pkg.chainFrame (p : Pkg) (md : ModeState) (num : BitVec 48) (phErr : Int) : Pkg :=
  if p.head || !p.pw.hubMain then p
  else
    let inside : Bool := decide (-20 ≤ phErr ∧ phErr ≤ 20)
    let fr : FrameGen := { p.fr with pherr := ofInt 16 phErr }
    let fr : FrameGen :=
      if fr.state = 0 ∧ inside then
        if md.mode = .load ∧ !fr.aligned then { fr with state := 1, aligned := true, num := num, ofs := 0 }
        else { fr with state := 1, ofs := num - fr.num }
      else { fr with ofs := num - fr.num }
    { p with fr := fr, chain := { p.chain with frame := true } }

/-- FRAME: the package aligns to it and forwards it on CHD, with the delay of its CHU and the time spent inside added to CORR
(R467). -/
def execFrame (num : BitVec 48) (phErr : Int) (corr inside : Nat) (src : Fin 32) (gen : Byte) (wake : Bool) (s : State) :
    Host.Outcome State Fault Refusal :=
  s.upd (fun p =>
    let q := p.chainFrame s.mode num phErr
    if p.head || !p.pw.hubMain || !s.mode.mode.forwards then q
    else q.chainSend true { dst := none, src := src.val, gen := gen.toNat, wake := wake,
                            body := .frame num (corr + p.rf (pgCH false) 0x208 15 0 + inside) })

/-- A tick of the head sends FRAME on CHD (R467). -/
def Pkg.headFrame (p : Pkg) : Pkg := if p.head then p.chainHop true (.frame p.fr.num 0) else p

/-- A tick begins a frame in which no port has sent a message. -/
def Pkg.clearSent (p : Pkg) : Pkg := { p with chain := { p.chain with sent := [] } }

/-- ALIGNMENT_LOST: PHERR lay outside 20 ns at four consecutive ticks (R67). -/
def execAlignmentLost (s : State) : Host.Outcome State Fault Refusal :=
  s.upd (fun p =>
    if !p.head && p.fr.state == 1 && decide (4 ≤ p.fr.outside) then { p with fr := { p.fr with state := 2 } } else p)

/-- The reference cycles of a frame (R64, R67): 800; a frame that corrects the phase of a package that is not the head has 799
when its tick comes after the head's and 801 when it comes before (the sign of PHERR is log entry 136). -/
def Pkg.frameLen (p : Pkg) (correct : Bool) : Nat :=
  let e := toInt 16 p.fr.pherr
  if p.head || !correct || e == 0 then 800 else if 0 < e then 799 else 801

/-- A tick of a package that is not the head (R67): `len` cycles in the frame, `phase` when the tick measured it. -/
def Pkg.alignTick (p : Pkg) (len : Nat) (phase : Option Int) : Pkg :=
  let slips := if len = 800 then p.fr.slips else satInc 32 p.fr.slips 1
  if p.head then p
  else
    let fr : FrameGen := { p.fr with slips := if p.fr.state = 0 then p.fr.slips else slips }
    let fr : FrameGen := match phase with | some e => { fr with pherr := ofInt 16 e } | none => fr
    let e := toInt 16 fr.pherr
    let ok : Bool := (phase.isSome || p.chain.frame) && decide (-20 ≤ e ∧ e ≤ 20)
    let fr : FrameGen :=
      if ok then { fr with outside := 0, state := if fr.state = 2 then 1 else fr.state }
      else { fr with outside := if fr.state = 0 then 0 else fr.outside + 1 }
    { p with fr := fr, chain := { p.chain with frame := false } }

/-! ### Remote windows -/

/-- Export entry `k` decides a request of `src` for [off, off + len) (R470, R474): its physical address and PID. -/
def Pkg.exportAt (p : Pkg) (src : Nat) (wr : Bool) (off len k : Nat) : Option (Nat × Nat) :=
  let q0 := p.cfg (pgCH false) (0x408 + 16 * k)
  let q1 := p.cfg (pgCH false) (0x410 + 16 * k)
  let sz := fld q0 49 44
  let ofs := fld q0 42 12 * 4096
  let pa := fld q1 24 0 * 4096
  if bit q0 63 ∧ 12 ≤ sz ∧ sz ≤ 37 ∧ ofs % 2 ^ sz = 0 ∧ pa % 2 ^ sz = 0 ∧ pa + 2 ^ sz ≤ hbmSize ∧
      ofs ≤ off ∧ off + len ≤ ofs + 2 ^ sz ∧ bit q1 (32 + src) ∧ bit q0 (if wr then 61 else 62) then
    some (pa + (off - ofs), fld q0 56 50)
  else none

/-- A message addressed to the package, or one for another package that goes on to it (R463); WAKE of a message addressed to
the package is a wake source (R427). -/
def Pkg.chainDeliver (p : Pkg) (md : Mode) (m : ChainMsg) (f : Pkg → Pkg) : Pkg :=
  if !p.pw.hubMain || !p.chainValid then p
  else if m.dst = some p.chainAddr then f (if m.wake then p.wakeLatch 2 else p)
  else p.chainForward md m

/-- The last package of the chain finds that DST names none (R465, R471). -/
def Pkg.noSuch (p : Pkg) (d : Nat) : Bool := p.chainValid && p.endCh && decide (p.chainAddr < d)

/-- An RREQ addressed to the package (R470, R471). -/
def Pkg.remoteReq (p : Pkg) (md : ModeState) (fromUp : Bool) (src : Nat) (wr : Bool) (off len mask tag : Nat)
    (bytes : List Byte) : Pkg :=
  let pg := pgCH (!fromUp)
  if md.mode ≠ .run ∧ md.mode ≠ .degraded ∧ md.mode ≠ .drizzle then p.rrsp src tag 3 [] false
  else
    match (List.range 32).findSome? (p.exportAt src wr off len) with
    | none =>
      let p := (p.addRf pg 0x218 63 0 1).setReg pg 0x220 (word [(43, src), (0, off % 2 ^ 43)])
      (p.setEvent pg 19 3 { Det.none with addr := off, detail := p.reg pg 0x220 }).rrsp src tag 1 [] false
    | some (pa, pid) =>
      let agent := if fromUp then 0x1C else 0x1D
      let p := p.evCount none 13 0 (some pid) 4 1
      p.inTake { agent := agent, pid := pid, parts := [(pa, len)], op := if wr then .write bytes mask false else .read,
                 src := .chain src tag, age := 0 }

/-- RREQ: a remote-window request arrives (R463, R466, R469 to R471). One of another GEN is refused; one for another package is
forwarded, and the last package of the chain answers one for a package beyond it (log entry 143). -/
def execRreq (fromUp : Bool) (src dst : Fin 32) (gen : Byte) (wake wr : Bool) (off len : Nat) (mask : Word) (pid : Pid)
    (tag : Nat) (bytes : List Byte) (s : State) : Host.Outcome State Fault Refusal :=
  s.upd (fun p =>
    if !p.pw.hubMain ∨ !p.chainValid ∨ len < 1 ∨ 64 < off % 64 + len then p
    else if gen.toNat ≠ p.chainGen ∨ p.noSuch dst.val then
      (if dst.val = p.chainAddr ∧ wake then p.wakeLatch 2 else p).rrsp src.val tag 4 [] false
    else p.chainDeliver s.mode.mode { dst := some dst.val, src := src.val, gen := gen.toNat, wake := wake,
                                      body := .rreq wr off len mask pid.val tag bytes }
      (fun p => p.remoteReq s.mode fromUp src.val wr off len mask.toNat tag bytes))

/-- RRSP: the answer of a remote-window access (R469, R471): OK and POISON carry data, every other STATUS is an error
response. -/
def execRrsp (src dst : Fin 32) (gen : Byte) (wake : Bool) (tag : Nat) (status : Fin 8) (bytes : List Byte) (s : State) :
    Host.Outcome State Fault Refusal :=
  s.upd (fun p =>
    p.chainDeliver s.mode.mode { dst := some dst.val, src := src.val, gen := gen.toNat, wake := wake,
                                 body := .rrsp tag status.val bytes }
      (fun p => p.coreAnswer (inChainOf src.val) tag
        (if status.val = 0 then some (bytes, false) else if status.val = 2 then some (bytes, true) else none)))

end Sys2Proof.Machine
end

