-- ==== Sys2Proof/Machine/PciePort.lean ====
section
/-! DEFINITION. PCIe root ports: device DMA, MSI, the IOTLB and outbound accesses (R475 to R482, R60). -/

namespace Sys2Proof.Machine

def Pkg.pe (p : Pkg) (n : Nat) : Pcie := tblGet (fun _ => Pcie.reset) p.pcie n
def Pkg.setPe (p : Pkg) (n : Nat) (x : Pcie) : Pkg := { p with pcie := tblSet (fun _ => Pcie.reset) p.pcie n x }

/-- Link k of port n is up (R482). -/
def Pkg.linkUp (p : Pkg) (n k : Nat) : Bool := bit (p.reg (pgPE n) 0x200) (16 * k + 15)

/-- Inbound requests are served: in RUN and DEGRADED, out of LOAD_HOLD (R54, R60, R426). -/
def Pkg.inbound (p : Pkg) (md : ModeState) (pg : Nat) : Bool :=
  (md.mode == .run || md.mode == .degraded) && !md.quiescing && p.answers pg && !p.loadHold pg

/-- A failed device request (R477). -/
def Pkg.peFail (p : Pkg) (n addr : Nat) : Pkg :=
  let pg := pgPE n
  let p := (p.setReg pg 0x218 (word [(0, addr % 2 ^ 48)])).addRf pg 0x210 63 0 1
  p.setEvent pg 18 3 { Det.none with addr := addr, detail := p.reg pg 0x218, agent := 0x14 + n }

/-- Translate a device's address through the IOTLB and the stage-2 tables of its link (R477, R478). -/
def Pkg.ioXlate (p : Pkg) (n k addr : Nat) (wr : Bool) : Option Nat × Pkg :=
  let q := p.cfg (pgPE n) (0x408 + 8 * k)
  if !bit q 63 || decide (2 ^ 48 ≤ addr) then (none, p)
  else
    let x := p.pe n
    match x.iotlb.find? (fun e => e.link == k && decide (e.vbase ≤ addr ∧ addr < e.vbase + e.size) &&
        (if wr then e.w else e.r)) with
    | some e => (some (e.pbase + (addr - e.vbase)), p)
    | none =>
      match p.devWalk (0x14 + n) addr wr 4 0 (fld q 51 12 * 4096) with
      | (none, p) => (none, p)
      | (some (base, sz, e), p) =>
        let pa := base + addr % sz
        if hbmSize ≤ pa then (none, p)
        else
          let ent : IoTlb := { link := k, vbase := addr / sz * sz, pbase := base, size := sz, r := enR e,
                               w := enW e && (enD e || wr) }
          let x := p.pe n
          (some pa, p.setPe n { x with iotlb := (ent :: x.iotlb).take 1024 })

/-- The physical parts of a device's range, none when a part fails. -/
def Pkg.ioParts (p : Pkg) (n k addr len : Nat) (wr : Bool) : Option (List (Nat × Nat)) × Pkg :=
  (pageParts addr len).foldl (fun (a : Option (List (Nat × Nat)) × Pkg) e =>
    match a.1 with
    | none => a
    | some l =>
      match a.2.ioXlate n k e.1 wr with
      | (some pa, p) => (some (l ++ [(pa, e.2)]), p)
      | (none, p) => (none, p)) (some [], p)

/-- A memory write of a device below link k. Four bytes at the MSI address are an MSI, which a link with EN at 0 does not carry
(R477, R480); anything else becomes one IoWr per line under the link's PID, and EP poisons every line it touches (R479). -/
def Pkg.peWrite (p : Pkg) (n k addr : Nat) (bytes : List Byte) (ep : Bool) : Pkg :=
  let q := p.cfg (pgPE n) (0x408 + 8 * k)
  let req := fun (parts : List (Nat × Nat)) (op : InOp) =>
    { agent := 0x14 + n, pid := fld q 62 56, parts := parts, op := op, src := .pcie n addr, age := 0 : Inbound }
  if bit q 63 ∧ bytes.length = 4 ∧ addr = p.cf (pgPE n) 0x400 47 12 * 4096 then p.inTake (req [] (.msi k (leNat bytes)))
  else
    match p.ioParts n k addr bytes.length true with
    | (none, p) => p.peFail n addr
    | (some parts, p) => p.inTake (req parts (.write bytes (2 ^ bytes.length - 1) ep))

/-- DEVICE_DMA_WRITE: a memory write of a device (R477, R479). -/
def execDeviceDmaWrite (pe : Fin 6) (link : Fin 4) (addr : Word) (bytes : List Byte) (ep : Bool) (s : State) :
    Host.Outcome State Fault Refusal :=
  s.upd (fun p =>
    if !p.inbound s.mode (pgPE pe.val) || !p.linkUp pe.val link.val then p
    else p.peWrite pe.val link.val addr.toNat bytes ep)

/-- DEVICE_DMA_READ: the completion is what `out` shows: status 0 with data and the EP bit, 1 Unsupported Request
(R477, R479, R23). -/
def execDeviceDmaRead (pe : Fin 6) (link : Fin 4) (addr : Word) (len : Nat) (s : State) :
    Host.Outcome State Fault Refusal :=
  s.upd (fun p =>
    let n := pe.val
    let pg := pgPE n
    if !p.inbound s.mode pg || !p.linkUp n link.val then p
    else
      let pid := fld (p.cfg pg (0x408 + 8 * link.val)) 62 56
      match p.ioParts n link.val addr.toNat len false with
      | (none, p) => ((p.peFail n addr.toNat).peUr n).reply 0 1 [] false
      | (some parts, p) =>
        p.inTake { agent := 0x14 + n, pid := pid, parts := parts, op := .read, src := .pcie n addr.toNat, age := 0 })

/-- MSI_WRITE: a 4-byte write to the MSI address; the vector is delivered through MSIMAPv (R480). One to another address is a
memory write like any other. -/
def execMsiWrite (pe : Fin 6) (link : Fin 4) (addr : Word) (v : BitVec 32) (s : State) :
    Host.Outcome State Fault Refusal :=
  s.upd (fun p =>
    if !p.inbound s.mode (pgPE pe.val) || !p.linkUp pe.val link.val then p
    else p.peWrite pe.val link.val addr.toNat (leBytes 4 v.toNat) false)

/-- IOINV of a port: the command with LINK, SCOPE and IOADDR (R478, R482). -/
def Pkg.cmdIoinv (p : Pkg) (n link : Nat) (byAddr : Bool) : Pkg :=
  let pg := pgPE n
  if p.blkState pg ≠ 1 ∨ p.busy pg then p.cmdWrong pg 0xC00
  else
    (p.setPe n { p.pe n with inv := some (link, byAddr, p.rf pg 0xC08 47 12 * 4096) }).cmdPending pg 0xC00

/-- IOINV. -/
def execIoinv (who : Requester) (pe : Fin 6) (link : Fin 4) (byAddr : Bool) (s : State) :
    Host.Outcome State Fault Refusal :=
  s.upd (fun p => p.cmd who (pgPE pe.val) 0xC00 (fun p =>
    let p := p.setReg (pgPE pe.val) 0xC00 (word [(24, byAddr.toNat), (16, link.val)])
    p.cmdIoinv pe.val link.val byAddr))

/-- IOINV_COMPLETE: the entries are gone and the command reports OK (R478). -/
def execIoinvComplete (pe : Fin 6) (s : State) : Host.Outcome State Fault Refusal :=
  s.upd (fun p =>
    let x := p.pe pe.val
    match x.inv with
    | none => p
    | some (link, byAddr, addr) =>
      if p.inWaits (0x14 + pe.val) then p else
      let gone := fun (e : IoTlb) => e.link == link && (!byAddr || decide (e.vbase ≤ addr ∧ addr < e.vbase + e.size))
      (p.setPe pe.val { x with iotlb := x.iotlb.filter (fun e => !gone e), inv := none }).cmdDone (pgPE pe.val) 0xC00 1)

/-- A link of a root port goes down (R481). -/
def Pkg.pcieDown (p : Pkg) (pe link : Nat) : Pkg :=
  if p.linkUp pe link then
    (p.setRf (pgPE pe) 0x200 (16 * link + 15) (16 * link) 0).setEvent (pgPE pe) 16 3
      { Det.none with detail := p.reg (pgPE pe) 0x218 }
  else p

/-- PCIE_LINK_DOWN (R481). -/
def execPcieLinkDown (pe : Fin 6) (link : Fin 4) (s : State) : Host.Outcome State Fault Refusal :=
  s.upd (fun p => p.pcieDown pe.val link.val)

/-! ### Outbound accesses (R476) -/

/-- The window of a port, none outside PCIe device space (R18). -/
def inPcie (n : Nat) (pa : Nat) : Bool :=
  decide (0xC000000000000 + n * 0x400000000000 ≤ pa ∧ pa < 0xC000000000000 + (n + 1) * 0x400000000000)

/-- A type-1 header register of root port k (PRESUMED from the PCI Express standard, log entry 16). -/
def Pkg.rpReg (p : Pkg) (n k r : Nat) : Nat := (tblGet (fun _ => 0) (p.pe n).rp (k * 1024 + r)).toNat

/-- The bridge window of link k holds the address: its memory window or its prefetchable window (log entry 16). -/
def Pkg.bridgeHolds (p : Pkg) (n k pa : Nat) : Bool :=
  let m := p.rpReg n k 8
  let pf := p.rpReg n k 9
  let inW := fun (base limit : Nat) => decide (base ≤ pa ∧ pa ≤ limit)
  p.linkUp n k && bit (BitVec.ofNat 64 (p.rpReg n k 1)) 1 &&
  (inW (m / 16 % 4096 * 2 ^ 20) (m / 2 ^ 20 * 2 ^ 20 + 2 ^ 20 - 1) ||
   inW (p.rpReg n k 10 * 2 ^ 32 + pf / 16 % 4096 * 2 ^ 20) (p.rpReg n k 11 * 2 ^ 32 + pf / 2 ^ 20 * 2 ^ 20 + 2 ^ 20 - 1))

/-- Where an access of port n's window goes: a register of root port k, a link, or nowhere. -/
inductive PeRoute where
  | own (k r : Nat)
  | link (config : Bool)
  | absent
  deriving DecidableEq, Repr

/-- Route an access of a port's window (R476). -/
def Pkg.peRoute (p : Pkg) (n pa : Nat) : PeRoute :=
  let off := pa - (0xC000000000000 + n * 0x400000000000)
  if p.loadHold (pgPE n) || !p.answers (pgPE n) then .absent
  else if off < 0x10000000 then
    if off < 0x100000 then
      (if off / 0x1000 % 8 = 0 ∧ off / 0x8000 < 4 then .own (off / 0x8000) (off % 4096 / 4) else .link true)
    else .link true
  else if (List.range 4).any (fun k => p.bridgeHolds n k pa) then .link false
  else .absent

/-- PCIE_COMPLETION: the answer of an outbound access (R476). A configuration read with Unsupported Request returns all
ones; Configuration Request Retry Status leaves it outstanding; data with EP is poisoned. -/
def execPcieCompletion (pe : Fin 6) (tag : Nat) (status : Fin 8) (ep : Bool) (bytes : List Byte) (s : State) :
    Host.Outcome State Fault Refusal :=
  s.upd (fun p =>
    let n := pe.val
    let cfgSpace := fun pa => inPcie n pa && decide ((pa - (0xC000000000000 + n * 0x400000000000)) < 0x10000000)
    let memSpace := fun pa => inPcie n pa && !cfgSpace pa
    let ones := List.replicate 8 (0xFF : Byte)
    if status.val = 2 then p
    else if status.val = 0 then p.coreAnswer (inPcie n) tag (some (bytes, ep))
    else (p.coreAnswer cfgSpace tag (some (ones, false))).coreAnswer memSpace tag none)

end Sys2Proof.Machine
end

