-- ==== Sys2Proof/Machine/DieMgmt.lean ====
section
/-! DEFINITION. Compute dies as parts: the core map (R9 to R15), die reset, the fence (R294, R295), readmission and
admission (R296, R300), rails of dies (R419). -/

namespace Sys2Proof.Machine

def Pkg.link (p : Pkg) (d : Nat) : DieLink := tblGet (fun _ => DieLink.reset) p.links d
def Pkg.setLink (p : Pkg) (d : Nat) (x : DieLink) : Pkg := { p with links := tblSet (fun _ => DieLink.reset) p.links d x }

/-- Ask for an event at the next tick. -/
def Pkg.logLater (p : Pkg) (code origin : Nat) (lc : Option Nat) (pg : Nat) (detail : Word) : Pkg :=
  { p with tickLog := p.tickLog ++ [(code, origin, lc, pg, detail)] }

/-! ### Core map (R10) -/

/-- Write UNITROLE of the unit with index `i` of die `d` (R290). -/
def Pkg.setRole (p : Pkg) (d i role : Nat) : Pkg := p.setRf (pgCLU d (i / 5)) 0x200 (i % 5 * 4 + 3) (i % 5 * 4) role

/-- Build the core map of region r of die d (R10): spare, failed units, logical cores in ascending order. A spare unit that
failed reads UNITROLE 3 (log entry 108). -/
def Pkg.buildRegion (p : Pkg) (d r : Nat) : Pkg :=
  let units := (List.range 10).map (fun k => r * 10 + k)
  let failed := units.filter (fun i => (p.unit (d * 20 + i)).failed)
  let spare := match failed.getLast? with | some i => i | none => r * 10 + 9
  let p := p.setSpare (2 * d + r) (if failed = [] then 1 else 3) (physId d spare)
  let p := p.setRole d spare (if failed = [] then 2 else 3)
  let p := failed.foldl (fun p i => p.setRole d i 3) p
  let rest := units.filter (fun i => i != spare && !failed.contains i)
  (List.range 9).foldl (fun p k =>
    let lc := d * 18 + r * 9 + k
    match rest[k]? with
    | some i => (p.setCmap lc 1 (physId d i)).setRole d i 1
    | none => p.setCmap lc 2 0) p

/-- The entries of a die read FENCED (R13); `keep` keeps the last identifiers. -/
def Pkg.fenceMap (p : Pkg) (d : Nat) (keep : Bool) : Pkg :=
  (List.range 18).foldl (fun p k => p.setCmap (d * 18 + k) 3 (if keep then p.cmapEnt (d * 18 + k) % 512 else 0)) p

/-! ### Die reset -/

/-- Everything that a die holds returns to its reset state (R45, R164, R212): pages, caches, units, link ends. What the
steward records of its units is the steward's. -/
def Pkg.dieReset (p : Pkg) (d : Nat) : Pkg :=
  let p := { p with pages := tblDrop (fun k => decide (k / 4096 = d)) p.pages }
  let p := { p with caches := (dieArrays d).foldl (fun t c => tblErase t c) p.caches }
  let p := (List.range 20).foldl (fun p i =>
    let x := p.unit (d * 20 + i)
    p.setUnit (d * 20 + i) { PhysUnit.reset with failed := x.failed }) p
  let p := { p with ce := { p.ce with slots := tblDrop (fun k => decide (k / 16 = d)) p.ce.slots,
                                      engs := tblErase p.ce.engs d } }
  p.setDieLines d []

/-- The state that the die's own circuits take when its power is good and its loops have locked (R289; log entry 4). -/
def Pkg.dieClocks (p : Pkg) (d : Nat) : Pkg :=
  (p.setRf (pgCLK d) 0x200 5 0 0x3F).setRf (pgCLK d) 0x200 23 16 24

/-! ### Fence (R294, R295) -/

/-- ORIGIN of the events of a READMIT: who issued it (R408). -/
def Pkg.readmitBy (p : Pkg) (d : Nat) : Nat := tblGet (fun _ => 0) p.boot.readmitBy d

/-- FENCE of die d with a cause and the ORIGIN of its event; a fenced die keeps its first cause. A READMIT that runs ends with
FAILED (R296). -/
def Pkg.fenceDieBy (p : Pkg) (d cause origin : Nat) : Pkg :=
  if 12 ≤ d ∨ p.dieFenced d then p
  else
    let mp := pgMP d
    let p := if p.boot.readmits.contains (2 + d) then
      ({ p with boot := { p.boot with readmits := p.boot.readmits.filter (fun t => t != 2 + d) } }).cmdDone mp 0xC00 6 |>.logLater 0x02
        (p.readmitBy d) none mp 6 else p
    let bt := { p.boot with training := p.boot.training.filter (fun t => t != 2 + d), waits := tblErase p.boot.waits (2 + d) }
    let p := { p with boot := bt }
    let p := p.setReg mp 0x200 (word [(32, cause), (12, 0xF), (0, 5)])
    let x := p.link d
    let p := p.setLink d { x with paused := none, stalled := false, ready := false, admitted := false, railOff := true }
    let leaving := (p.coh.drains.filter (fun x => x.1 == d)).map (·.2)
    let pids := (((List.range 18).map (fun k => p.countedPid (d * 18 + k))).filter (· < 128) ++ leaving).eraseDups
    let p := (p.fenceDir d).dropBooks d
    let p := pids.foldl (fun (p : Pkg) (pid : Nat) => p.raiseDcs pid d) p
    let p := (List.range 18).foldl (fun p k =>
      let lc := d * 18 + k
      let stw := { p.stw with held := tblErase p.stw.held lc }
      let p : Pkg := { p with stw := stw }
      if (p.core lc).run = .idle then p else p.setCore lc { p.core lc with run := .stopped }) p
    let p := { p with coh := { p.coh with drains := p.coh.drains.filter (fun x => x.1 != d) } }
    let p := if p.stw.mapBuilt then p.fenceMap d true else p
    let p := p.setDieState d 4
    let p := p.setEvent mp 22 4 { Det.none with detail := p.reg mp 0x200, pids := pids, agent := d }
    p.logLater 0x01 origin none mp (BitVec.ofNat 64 cause)

/-- FENCE of die d with a cause. The steward commands the fence of a depleted die, of an unrepairable book and of a lost ring
(R401); the hub finds the other causes itself (R408). -/
def Pkg.fenceDie (p : Pkg) (d cause : Nat) : Pkg := p.fenceDieBy d cause (if 4 ≤ cause ∧ cause ≤ 7 then 2 else 0)

/-! ### FENCECMD (R296, R300) -/

/-- LSTATE of MPn (R298). -/
def Pkg.mpState (p : Pkg) (d : Nat) : Nat := p.rf (pgMP d) 0x200 3 0

/-- Only the service host and the steward issue FENCECMD (R296). -/
def fenceBy (who : Requester) : Bool := match who with | .host | .steward => true | _ => false

/-- FENCE: the die is fenced with cause COMMAND. It is allowed by name while BUSY is 1 from READMIT only (R38, R296). -/
def Pkg.cmdFence (p : Pkg) (who : Requester) (d : Nat) : Pkg :=
  let mp := pgMP d
  if !fenceBy who then p.cmdDenied mp 0xC00
  else if p.loadHold mp ∨ p.mpState d = 5 ∨ p.mpState d = 0 ∨ (p.busy mp ∧ !p.boot.readmits.contains (2 + d)) then
    p.cmdWrong mp 0xC00
  else (p.fenceDieBy d 7 (originOf who)).cmdOk mp 0xC00

/-- READMIT: step 1 takes the rail off and clears the cause; the rail is commanded on again (R296). -/
def Pkg.cmdReadmit (p : Pkg) (md : ModeState) (who : Requester) (d : Nat) : Pkg :=
  let mp := pgMP d
  if !fenceBy who then p.cmdDenied mp 0xC00
  else if p.loadHold mp ∨ p.busy mp ∨ p.mpState d ≠ 5 ∨ (md.mode ≠ .run ∧ md.mode ≠ .degraded ∧ md.mode ≠ .quiesce) ∨
      (List.range 16).any (fun n => p.fenceVec n / 2 ^ d % 2 == 1) then p.cmdWrong mp 0xC00
  else
    let p := (p.cmdPending mp 0xC00).dieReset d
    let p := (p.setDieState d 0).setReg mp 0x200 (word [(12, 0xF)])
    let p := p.setLink d DieLink.reset
    let p := p.railOff d
    { p with pw := { p.pw with railQ := p.pw.railQ ++ [d] }, boot := { p.boot with
      readmits := p.boot.readmits ++ [2 + d], readmitBy := tblSet (fun _ => 0) p.boot.readmitBy d (originOf who) } }

/-- Every page of the die that holds copies has left LOAD_HOLD. -/
def Pkg.dieAdopted (p : Pkg) (d : Nat) : Bool :=
  dieBlocks.all (fun e => !e.2.2.hasCfg || (List.range e.2.1).all (fun i => !p.loadHold (pgDie d (e.1 + i))))

/-- ADMIT: the core map of the die is rebuilt at the next tick (R296). -/
def Pkg.cmdAdmit (p : Pkg) (who : Requester) (d : Nat) : Pkg :=
  let mp := pgMP d
  if !fenceBy who then p.cmdDenied mp 0xC00
  else if p.loadHold mp ∨ p.busy mp ∨ !(p.link d).ready ∨ p.dieState d ≠ 1 ∨ !p.dieAdopted d then p.cmdWrong mp 0xC00
  else ((p.setLink d { p.link d with admitted := true }).unripe .admission d).cmdOk mp 0xC00

/-- FENCE: FENCE written to MPn.FENCECMD. -/
def execFence (who : Requester) (d : Die) (s : State) : Host.Outcome State Fault Refusal :=
  s.upd (fun p => p.cmd who (pgMP d.val) 0xC00 (fun p => p.cmdFence who d.val))

/-- READMIT: READMIT written to MPn.FENCECMD. -/
def execReadmit (who : Requester) (d : Die) (s : State) : Host.Outcome State Fault Refusal :=
  s.upd (fun p => p.cmd who (pgMP d.val) 0xC00 (fun p => p.cmdReadmit s.mode who d.val))

/-- ADMIT: ADMIT written to MPn.FENCECMD. -/
def execAdmitDie (who : Requester) (d : Die) (s : State) : Host.Outcome State Fault Refusal :=
  s.upd (fun p => p.cmd who (pgMP d.val) 0xC00 (fun p => p.cmdAdmit who d.val))

/-- READMIT_COMPLETE: the readmission ends: with the link ACTIVE and the tests of step 4 done, the die enters D-IDLE; after the last
attempt, or a test that did not end, it is left in D-OFF (R296). -/
def execReadmitComplete (d : Die) (ok : Bool) (s : State) : Host.Outcome State Fault Refusal :=
  s.upd (fun p =>
    let d := d.val
    let mp := pgMP d
    if !p.boot.readmits.contains (2 + d) then p
    else if ok then
      if p.mpState d ≠ 2 ∨ p.rf (pgBIST d) 0x200 3 0 ≠ 3 then p
      else
        let p := { p with boot := { p.boot with readmits := p.boot.readmits.filter (fun t => t != 2 + d) } }
        let p := (p.setDieState d 1).setLink d { p.link d with ready := true }
        let p := p.setRf pgSTW 0x230 d d 0
        (p.cmdDone mp 0xC00 1).logEvent 0x02 (p.readmitBy d) none none mp 1
    else if p.canRetry (2 + d) (p.rf (pgBIST d) 0x200 3 0 == 4) then p
    else
      let bt := { p.boot with
        readmits := p.boot.readmits.filter (fun t => t != 2 + d)
        training := p.boot.training.filter (fun t => t != 2 + d)
        waits := tblErase p.boot.waits (2 + d) }
      let p := ({ p with boot := bt }).railOff d
      let p := ((p.setDieState d 0).setRf mp 0x200 3 0 0).dieReset d
      (p.cmdDone mp 0xC00 6).logEvent 0x02 (p.readmitBy d) none none mp 6)

/-- ADMIT_REBUILD: at the tick after ADMIT the entries of the die are built again, its logical cores belong to no
partition and the die enters D-RUN (R296, R399). -/
def execAdmitRebuild (d : Die) (s : State) : Host.Outcome State Fault Refusal :=
  s.upd (fun p =>
    let d := d.val
    if !(p.link d).admitted || !p.isRipe .admission d then p
    else
      let p := (p.buildRegion d 0).buildRegion d 1
      let p := (List.range 18).foldl (fun p k =>
        (p.setLcpid (d * 18 + k) 0x80).setCore (d * 18 + k) Core.reset) p
      (p.setDieState d 2).setLink d { p.link d with admitted := false, ready := false })

/-- The rail of a fenced die may go off: its purge has ended (R419). -/
def Pkg.railEnds (p : Pkg) (d : Nat) : Bool :=
  p.dieFenced d && (p.link d).railOff && !(List.range 16).any (fun n => p.fenceVec n / 2 ^ d % 2 == 1)

/-- DIE_RAIL_OFF: the rail of a fenced die goes off at the tick after its purge has ended (R419). -/
def execDieRailOff (d : Die) (s : State) : Host.Outcome State Fault Refusal :=
  s.upd (fun p =>
    let d := d.val
    if p.isRipe .rail d && p.railEnds d then
      let p := p.railOff d
      let p := (p.setLink d { p.link d with railOff := false }).dieReset d
      let c := p.rf (pgMP d) 0x200 39 32
      if c = 1 ∨ c = 2 ∨ c = 8 then
        { p with stw := { p.stw with autoReadmit := tblSet (fun _ => 0) p.stw.autoReadmit d 2 } }
      else p
    else p)

/-- AUTO_READMIT: the steward issues READMIT for a fenced die under its policy (R401). -/
def execAutoReadmit (d : Die) (s : State) : Host.Outcome State Fault Refusal :=
  s.upd (fun p =>
    let d := d.val
    if tblGet (fun _ => 0) p.stw.autoReadmit d = 1 ∧ p.cf pgSTW 0x400 4 4 = 0 ∧ p.dieFenced d then
      let p := { p with stw := { p.stw with autoReadmit := tblErase p.stw.autoReadmit d } }
      p.cmdReadmit s.mode .steward d
    else p)

end Sys2Proof.Machine
end

