-- ==== Sys2Proof/Machine/Links.lean ====
section
/-! DEFINITION. Mocor links and chain links: flits, lanes, pauses, link loss, the die watchdog and loss of lock (R278 to R293,
R460, R461). A flit arrives at the hub end (MPn) or at the die end (CDn.MOCOR) of the link of a die, or at a chain port. -/

namespace Sys2Proof.Machine

/-- CRC-16 of a flit: polynomial 0x8BB7, initial value 0xFFFF, most significant bit first (R279). -/
def crc16 (bits : Nat) (x : Nat) : Nat :=
  (List.range bits).foldl (fun c i =>
    let b := (c / 2 ^ 15 % 2) ^^^ (x / 2 ^ (bits - 1 - i) % 2)
    let c := c * 2 % 2 ^ 16
    if b = 1 then c ^^^ 0x8BB7 else c) 0xFFFF

/-- A field of a flit. -/
def flitFld (f : BitVec 256) (hi lo : Nat) : Nat := f.toNat / 2 ^ lo % 2 ^ (hi + 1 - lo)

/-- The page of an end, its record, and an update of it. -/
def linkPage (d : Nat) (atHub : Bool) : Nat := if atHub then pgMP d else pgMOCOR d
def DieLink.side (x : DieLink) (atHub : Bool) : LinkEnd := if atHub then x.hub else x.die
def DieLink.setSide (x : DieLink) (atHub : Bool) (e : LinkEnd) : DieLink :=
  if atHub then { x with hub := e } else { x with die := e }
def Pkg.modSide (p : Pkg) (d : Nat) (atHub : Bool) (f : LinkEnd → LinkEnd) : Pkg :=
  p.setLink d ((p.link d).setSide atHub (f ((p.link d).side atHub)))

/-- The link carries flits: ACTIVE, STALLED or PAUSED (R298). -/
def Pkg.linkRuns (p : Pkg) (d : Nat) : Bool := decide (2 ≤ p.mpState d ∧ p.mpState d ≤ 4)

/-- The page of an end, whether its link carries flits, its record, and an update of it. -/
def endPage : FlitEnd → Nat
  | .mocor d h => linkPage d.val h
  | .chain down => pgCH down
def Pkg.endRuns (p : Pkg) : FlitEnd → Bool
  | .mocor d _ => p.linkRuns d.val
  | .chain down => p.chUp down
def Pkg.flitEnd (p : Pkg) : FlitEnd → LinkEnd
  | .mocor d h => (p.link d.val).side h
  | .chain down => (p.chPort down).lanes
def Pkg.modEnd (p : Pkg) (e : FlitEnd) (f : LinkEnd → LinkEnd) : Pkg :=
  match e with
  | .mocor d h => p.modSide d.val h f
  | .chain down => let x := p.chPort down; p.setChPort down { x with lanes := f x.lanes }

/-- An ACK frees the flits it covers in the retry buffer of the end that receives it (R282). -/
def LinkEnd.acked (e : LinkEnd) (a : Nat) : LinkEnd :=
  if e.retry.contains a then { e with retry := (e.retry.dropWhile (· != a)).drop 1 } else e

/-- A flit returns credits of a book on which its receiver sends (R279), on a chain link those of a class (R461). -/
def Pkg.takeCredits (p : Pkg) (e : FlitEnd) (f : BitVec 256) : Pkg :=
  if flitFld f 215 215 = 0 then p
  else
    let n := flitFld f 211 208 + 1
    match e with
    | .mocor d atHub =>
      let b := mocorBook d.val atHub true (flitFld f 214 213) (flitFld f 212 212)
      let x := p.book b
      p.setBook b { x with spent := x.spent - n, rets := x.rets - n }
    | .chain down =>
      let x := p.chPort down
      let c := flitFld f 214 213
      p.setChPort down { x with spent := tblSet (fun _ => 0) x.spent c (tblGet (fun _ => 0) x.spent c - n) }

/-- A NAK arrived: the flits that it makes the sender replay are counted. Their number is a free value: the IDLE flits that an
end sends are not commanded. A chain port has no such counter. -/
def Pkg.replayed (p : Pkg) (e : FlitEnd) : Pkg :=
  match e with
  | .chain _ => p
  | .mocor d atHub =>
    let (n, p) := p.free 9
    let p := if atHub then p else p.evCount (some d.val) 9 0 none 4 (n.toNat + 1)
    p.addRf (endPage e) 0x228 63 0 (n.toNat + 1)

/-- Where an end counts the flits that failed their CRC (R298, R473). -/
def crcReg : FlitEnd → Nat
  | .mocor _ _ => 0x220
  | .chain _ => 0x210

/-- A flit arrives (R280, R282). The flag tells whether it was accepted; acceptance takes its ACK, its NAK and its credits. -/
def Pkg.recvFlit (p : Pkg) (e : FlitEnd) (f : BitVec 256) : Bool × Pkg :=
  if !p.endRuns e then (false, p)
  else
    let pg := endPage e
    let x := p.flitEnd e
    if flitFld f 255 240 ≠ crc16 240 (flitFld f 239 0) ∨ 6 ≤ flitFld f 218 216 then
      let p := p.modEnd e (fun e => { e with discard := true, crcFr := e.crcFr + 1 })
      (false, (p.addRf pg (crcReg e) 63 0 1).setEvent pg 16 1 { Det.none with detail := p.reg pg 0x200 })
    else if flitFld f 239 230 ≠ (x.seq + 1) % 1024 then (false, p.modEnd e (fun e => { e with discard := true }))
    else
      let p := p.modEnd e (fun e =>
        ({ e with seq := (e.seq + 1) % 1024, discard := false } : LinkEnd).acked (flitFld f 229 220))
      let p := p.takeCredits e f
      if flitFld f 219 219 = 1 then
        let a := flitFld f 229 220
        let p := p.modEnd e (fun e => { e with nakAck := a, naks := if e.naks ≠ 0 ∧ e.nakAck = a then e.naks + 1 else 1 })
        (true, p.replayed e)
      else (true, p.modEnd e (fun e => { e with naks := 0 }))

/-- A flit of one TYPE arrives; what the TYPE asks for is done when it is accepted. A flit of another TYPE is not this
command's. -/
def Pkg.onFlit (p : Pkg) (e : FlitEnd) (f : BitVec 256) (ty : Nat) (act : Pkg → Pkg) : Pkg :=
  match p.recvFlit e f with
  | (true, p) => if flitFld f 218 216 = ty then act p else p
  | (false, p) => p

/-- The whole messages at the front of received message bytes, as NET and VC, and the bytes that follow (R281): a lead byte
and 16 bytes, or 80 on DAT; 0x1F marks the rest of a payload as unused. -/
def takeMessages : Nat → List Byte → List (Nat × Nat) × List Byte
  | 0, b => ([], b)
  | _, [] => ([], [])
  | k + 1, l :: t =>
    if l = 0x1F then ([], [])
    else
      let n := if l.toNat / 64 = 3 then 80 else 16
      if t.length < n then ([], l :: t)
      else
        let r := takeMessages k (t.drop n)
        ((l.toNat / 64, l.toNat / 32 % 2) :: r.1, r.2)

/-- A message comes off the link into a buffer of its book: its sender spent a credit for it. Without a free buffer it is
dropped (R271), on the page of the network it was to enter (log entry 127). What it does is the command of its kind. -/
def Pkg.landMessage (p : Pkg) (d : Nat) (atHub : Bool) (m : Nat × Nat) : Pkg :=
  let b := mocorBook d atHub false m.1 m.2
  let x := p.book b
  let p := p.setBook b { x with spent := x.spent + 1 }
  if p.bufferFree b then p.setBook b { p.book b with raw := x.raw + 1 }
  else p.dropFlit (if atHub then pgGRID else pgRING d) 18

/-- MOCOR_DATA_FLIT. The messages in a DATA flit of a chain link are packed in no way that the manual gives: they come as
commands of their own (log entry 138). -/
def execMocorDataFlit (e : FlitEnd) (flit : BitVec 256) (s : State) : Host.Outcome State Fault Refusal :=
  s.upd (fun p => p.onFlit e flit 0 (fun p =>
    match e with
    | .chain _ => p
    | .mocor d atHub =>
      let p := p.evCount (some d.val) (if atHub then 7 else 8) 0 none 4 1
      let r := takeMessages 8 ((p.flitEnd e).rx ++ leBytes 26 (flitFld flit 207 0))
      let p := p.modEnd e (fun e => { e with rx := r.2 })
      r.1.foldl (fun (p : Pkg) (m : Nat × Nat) => p.landMessage d.val atHub m) p))

/-- IDLE. -/
def execIdle (e : FlitEnd) (flit : BitVec 256) (s : State) : Host.Outcome State Fault Refusal :=
  s.upd (fun p => p.onFlit e flit 1 id)

/-- MARK: a census marker reaches the receiver of its book, where the counts of the census are latched; one that returns to
the sender changes nothing more: the census ends with CREDIT_CENSUS (R270, R280). Chain links have no census. -/
def execMark (e : FlitEnd) (flit : BitVec 256) (s : State) : Host.Outcome State Fault Refusal :=
  s.upd (fun p => p.onFlit e flit 2 (fun p =>
    match e with
    | .chain _ => p
    | .mocor d atHub =>
      let b := (pgMP d.val, flitFld flit 15 0)
      if bookOf b.1 b.2 && (bookDir b.2 == 0) == atHub then p.setBook b { p.book b with mark := some (p.bookDiff b) } else p))

/-- HEART: a heartbeat of the die (R280, R287). -/
def execHeart (e : FlitEnd) (flit : BitVec 256) (s : State) : Host.Outcome State Fault Refusal :=
  s.upd (fun p => p.onFlit e flit 3 (fun p =>
    match e with
    | .mocor d true =>
      let p := p.setReg (pgMP d.val) 0x238 (word [(0, flitFld flit 47 0)])
      p.setLink d.val { p.link d.val with beat := true }
    | _ => p))

/-- PAUSE: a repair begins; the payload holds the sender's failed-lane mask (R285). A chain port that is not paused answers,
and is paused with its neighbour (R461). -/
def execPause (e : FlitEnd) (flit : BitVec 256) (s : State) : Host.Outcome State Fault Refusal :=
  s.upd (fun p => p.onFlit e flit 4 (fun p =>
    let p := p.modEnd e (fun e => { e with peerMask := flitFld flit 67 0 })
    match e with
    | .mocor d atHub =>
      let p := p.setRf (linkPage d.val atHub) 0x200 3 0 4
      p.setLink d.val { p.link d.val with disturbed := true }
    | .chain down =>
      let x := p.chPort down
      (p.setRf (pgCH down) 0x200 3 0 3).setChPort down { x with paused := some (x.paused.getD 0) }))

/-- RESUME: the repair ends at this end (R285). -/
def execResume (e : FlitEnd) (flit : BitVec 256) (s : State) : Host.Outcome State Fault Refusal :=
  s.upd (fun p => p.onFlit e flit 5 (fun p =>
    match e with
    | .mocor d atHub =>
      if p.rf (linkPage d.val atHub) 0x200 3 0 = 4 ∧ !atHub then p.setRf (pgMOCOR d.val) 0x200 3 0 2 else p
    | .chain down =>
      if p.chState down ≠ 3 then p
      else (p.setRf (pgCH down) 0x200 3 0 2).setChPort down { p.chPort down with paused := none, stalled := false }))

/-- LINK_STALL: eight NAKs in a row named one SEQ; the link stalls until the next tick (R282). -/
def execLinkStall (e : FlitEnd) (s : State) : Host.Outcome State Fault Refusal :=
  s.upd (fun p =>
    if (p.flitEnd e).naks < 8 then p
    else
      match e with
      | .mocor d atHub =>
        let d := d.val
        if p.mpState d ≠ 2 then p
        else
          let p := p.setLink d { p.link d with stalled := true, disturbed := true }
          let p := (p.setRf (pgMP d) 0x200 3 0 3).setRf (pgMOCOR d) 0x200 3 0 3
          p.setEvent (linkPage d atHub) 21 1 { Det.none with detail := p.reg (linkPage d atHub) 0x200 }
      | .chain down => if p.chState down = 2 then p.setChPort down { p.chPort down with stalled := true } else p)

/-! ### Lanes (R283 to R285) -/

/-- Lane states of an end's receive direction by physical lane: 0 spare, 1 in use, 2 failed (R298). -/
def Pkg.laneState (p : Pkg) (pg lane : Nat) : Nat := p.rf pg (0x208 + lane / 32 * 8) (lane % 32 * 2 + 1) (lane % 32 * 2)

/-- Lanes of a receive direction that have not failed, and the width they give: 0 W64, 1 W32, 2 W16, 3 none (R283). -/
def goodLanes (failed : Nat → Bool) : List Nat := below 68 (fun l => !failed l)
def widthCode (good : Nat) : Nat := if 64 ≤ good then 0 else if 32 ≤ good then 1 else if 16 ≤ good then 2 else 3

/-- Write LANEMAP, RXGOOD and RXW of an end from its failed lanes, and TXW of the other end (R283, R298). -/
def Pkg.applyLanes (p : Pkg) (d : Nat) (atHub : Bool) (failed : Nat → Bool) : Pkg :=
  let pg := linkPage d atHub
  let good := goodLanes failed
  let w := widthCode good.length
  let used := good.take (match w with | 0 => 64 | 1 => 32 | 2 => 16 | _ => 0)
  let code := fun l => if failed l then 2 else if used.contains l then 1 else 0
  let p := [(0, 32), (1, 32), (2, 4)].foldl (fun p j =>
    p.setReg pg (0x208 + j.1 * 8) (word ((List.range j.2).map (fun i => (2 * i, code (j.1 * 32 + i)))))) p
  ((p.setRf pg 0x200 22 16 good.length).setRf pg 0x200 15 14 w).setRf (linkPage d (!atHub)) 0x200 13 12 w

/-- The modes of the margin check of Mocor links, and of chain links, which it runs in the wake frames of DRIZZLE too (R69). -/
def marginModes (e : FlitEnd) : List Mode :=
  [.load, .run, .degraded, .quiesce] ++ (match e with | .mocor _ _ => [] | .chain _ => [.drizzle])

/-- The page whose quota the check of an end is part of: MPn for both ends of a Mocor link. -/
def marginPage : FlitEnd → Nat
  | .mocor d _ => pgMP d.val
  | .chain down => pgCH down

/-- The check of an end runs: its page is out of LOAD_HOLD, its link ACTIVE, and the quota of the frame not done. -/
def Pkg.marginOn (p : Pkg) (md : ModeState) (e : FlitEnd) : Bool :=
  let pg := marginPage e
  p.quotaOn md.mode p.frameNum (marginModes e) && p.answers pg && !p.loadHold pg && p.rf pg 0x200 3 0 == 2 &&
    decide ((p.page pg).work < match e with | .mocor d _ => p.margQ d.val | .chain down => p.chMargQ down)

/-- The margin below which a lane is failing: MLCFG[MARGMIN] (R299); the manual gives no figure for a chain link. -/
def Pkg.marginMin (p : Pkg) : FlitEnd → Nat
  | .mocor d _ => let m := p.cf (pgMP d.val) 0x408 23 16; if m = 0 then 32 else m
  | .chain _ => Config.chainMargin

/-- The lane has failed, or the link has no such lane. -/
def Pkg.laneGone (p : Pkg) (e : FlitEnd) (lane : Nat) : Bool :=
  match e with
  | .mocor _ _ => p.laneState (endPage e) lane == 2
  | .chain down => decide (8 ≤ lane) || (p.chPort down).bad.contains lane

/-- MARGIN_CHECK: a lane of a receive direction is measured (R69, R284, R461). The check of a chain link measures the round trip
again (R467). -/
def execMarginCheck (e : FlitEnd) (lane : Fin 68) (margin : Nat) (delay : BitVec 16) (s : State) :
    Host.Outcome State Fault Refusal :=
  s.upd (fun p =>
    if !p.marginOn s.mode e then p
    else
      let pg := marginPage e
      let x := p.page pg
      let p := p.setPage pg { x with work := x.work + 1 }
      let p := match e with
        | .mocor _ _ => p
        | .chain down => p.setReg (pgCH down) 0x208 (delay.setWidth 64)
      if p.marginMin e ≤ margin ∨ p.laneGone e lane.val then p
      else p.modEnd e (fun e =>
        { e with failing := if e.failing.contains lane.val then e.failing else e.failing ++ [lane.val] }))

/-- An isolation is asked for at an end (R284). -/
def Pkg.wantsIsolation (p : Pkg) (d : Nat) (atHub : Bool) : Bool :=
  let thr := if p.cf (pgMP d) 0x408 15 0 = 0 then 64 else p.cf (pgMP d) 0x408 15 0
  (p.link d).stalled || decide (thr < ((p.link d).side atHub).crcLast)

/-- Steps 3 and 4 of R285 at one end: the isolation's lanes and the failing lanes are failed and the width follows. -/
def Pkg.repairEnd (p : Pkg) (d : Nat) (atHub : Bool) (iso : List Nat) : Pkg :=
  let pg := linkPage d atHub
  let named := if p.wantsIsolation d atHub then iso.filter (fun l => p.laneState pg l != 2) else []
  let p := if p.wantsIsolation d atHub ∧ named = [] then p.addRf pg 0x230 31 16 1 else p
  let new := (((p.link d).side atHub).failing ++ named).eraseDups
  let failed := fun l => p.laneState pg l == 2 || new.contains l
  let before := p.rf pg 0x200 15 14
  let p := p.modSide d atHub (fun e => { e with failing := [] })
  if new = [] then p
  else
    let p := p.applyLanes d atHub failed
    let det := { Det.none with detail := p.reg pg 0x200 }
    let p := p.setEvent pg 19 1 det
    if before < p.rf pg 0x200 15 14 then p.setEvent pg 20 1 det else p

/-- The repair of a paused Mocor link (R283 to R285). It ends with RESUME at the first or second tick after the one that
began the pause, once its tick has come. -/
def Pkg.mocorRepair (p : Pkg) (d : Nat) (near far : List Nat) : Pkg :=
  let x := p.link d
  let none_ : Bool := x.stalled &&
    near.all (fun l => p.laneState (pgMP d) l == 2) && far.all (fun l => p.laneState (pgMOCOR d) l == 2)
  let p := (p.repairEnd d true near).repairEnd d false far
  if none_ then p.fenceDie d 2
  else if p.rf (pgMP d) 0x200 15 14 = 3 ∨ p.rf (pgMOCOR d) 0x200 15 14 = 3 then p.fenceDie d 3
  else
    let p := (p.setRf (pgMP d) 0x200 3 0 2).setRf (pgMOCOR d) 0x200 3 0 2
    let p := (p.addRf (pgMP d) 0x230 15 0 1).addRf (pgMOCOR d) 0x230 15 0 1
    let y := p.link d
    let p := p.setLink d { y with paused := none, stalled := false, hub := { y.hub with naks := 0 }, die := { y.die with naks := 0 } }
    p.logEvent 0x0E 2 none none (pgMP d) (word [(16, p.rf (pgMP d) 0x200 15 14), (0, p.rf (pgMP d) 0x200 22 16)])

/-- An isolation is asked for on a chain port (R284, R461): a stall, or more CRC failures than the part's threshold. -/
def Pkg.chainIsolates (p : Pkg) (down : Bool) : Bool :=
  (p.chPort down).stalled || decide (Config.chainCrcLimit < (p.chPort down).lanes.crcLast)

/-- WIDTH of a chain link from the good lanes of its two directions (R460): 0 ×8, 1 ×4, 3 below four good lanes. -/
def chainWidth (good far : Nat) : Nat := let g := min good far; if 8 ≤ g then 0 else if 4 ≤ g then 1 else 3

/-- Lanes 0 to 7 that a failed-lane mask names. -/
def maskLanes (mask : Nat) : List Nat := below 8 (fun l => mask / 2 ^ l % 2 == 1)

/-- The repair of a paused chain link: failing lanes are failed and the link narrows; below four good lanes, and after a stall
whose isolation names no lane, it goes down (R285, R460, R461). -/
def Pkg.chainRepair (p : Pkg) (down : Bool) (near far : List Nat) : Pkg :=
  let pg := pgCH down
  let x := p.chPort down
  let lanes := fun (l : List Nat) => (l.filter (fun k => decide (k < 8))).eraseDups
  let iso := p.chainIsolates down
  let named := if iso then lanes near else []
  let bad := (x.bad ++ lanes x.lanes.failing ++ named).eraseDups
  let peer := (maskLanes x.lanes.peerMask ++ if iso then lanes far else []).eraseDups
  let w := chainWidth (8 - bad.length) (8 - peer.length)
  if w = 3 ∨ (x.stalled && named.all x.bad.contains && (lanes far).all (maskLanes x.lanes.peerMask).contains) then
    p.chainDown down
  else
    let p := p.setChPort down { x with bad := bad, paused := none, stalled := false, lanes := { x.lanes with
      failing := [], naks := 0, peerMask := peer.foldl (fun a l => a + 2 ^ l) 0 } }
    let narrowed := decide (p.rf pg 0x200 13 12 < w)
    let p := (p.setRf pg 0x200 3 0 2).setRf pg 0x200 13 12 w
    let p := if narrowed then p.setEvent pg 17 1 { Det.none with detail := p.reg pg 0x200 } else p
    p.logEvent 0x0E 2 none none pg (word [(16, w), (0, 8 - bad.length)])

/-- LANE_REPAIR: a paused link is repaired and resumes, at the tick after the pause began or the next one; `near` and `far` are
the lanes that an isolation shows in error at the hub or this package, and at the other end (R74, R285). -/
def execLaneRepair (l : FlitLink) (near far : List (Fin 68)) (s : State) : Host.Outcome State Fault Refusal :=
  s.upd (fun p =>
    let n := near.map (·.val)
    let f := far.map (·.val)
    match l with
    | .mocor d => (match (p.link d.val).paused with | some (_ + 1) => p.mocorRepair d.val n f | _ => p)
    | .chain down => (match (p.chPort down).paused with | some (_ + 1) => p.chainRepair down n f | _ => p))

/-- PAUSE_TIMEOUT: a pause not ended by the tick that starts frame F+2 has failed (R285): the die is fenced, a chain link goes
down. -/
def execPauseTimeout (l : FlitLink) (s : State) : Host.Outcome State Fault Refusal :=
  s.upd (fun p =>
    match l with
    | .mocor d => (match (p.link d.val).paused with | some n => if 2 ≤ n then p.fenceDie d.val 8 else p | none => p)
    | .chain down => (match (p.chPort down).paused with | some n => if 2 ≤ n then p.chainDown down else p | none => p))

/-- A frame ends at an end: its CRC failures are counted anew, and judged by the isolation of a pause that begins here; a pause
that runs goes on with those of the frame before it (R284). -/
def LinkEnd.roll (e : LinkEnd) (paused : Bool) : LinkEnd := { e with crcLast := if paused then e.crcLast else e.crcFr, crcFr := 0 }

/-- A chain port at a tick (R285, R461): as `linkTick` does for a Mocor link. -/
def Pkg.chainPortTick (p : Pkg) (down : Bool) : Pkg :=
  if !p.chUp down then p
  else
    let x := p.chPort down
    let e := x.lanes.roll x.paused.isSome
    let p := p.setChPort down { x with lanes := e, paused := x.paused.map (· + 1) }
    if x.paused.isSome || !(p.chainIsolates down || e.failing != []) then p
    else (p.setChPort down { p.chPort down with paused := some 0 }).setRf (pgCH down) 0x200 3 0 3

/-- At a tick (R285, R287): pauses advance; a failing lane, an exceeded CRC threshold or a stall begins a repair. -/
def Pkg.linkTick (p : Pkg) (d : Nat) : Pkg :=
  if !p.linkRuns d then p
  else
    let x := p.link d
    let thr := if p.cf (pgMP d) 0x408 15 0 = 0 then 64 else p.cf (pgMP d) 0x408 15 0
    let tooMany := fun (p : Pkg) (h : Bool) =>
      if thr < (x.side h).crcFr then p.setEvent (linkPage d h) 18 1 { Det.none with detail := p.reg (linkPage d h) 0x200 } else p
    let p := p.setLink d { x with hub := x.hub.roll x.paused.isSome, die := x.die.roll x.paused.isSome, disturbed := x.paused.isSome || x.stalled,
                                  paused := x.paused.map (· + 1) }
    let p := tooMany (tooMany p true) false
    let x := p.link d
    if x.paused.isSome then p
    else if x.stalled || x.hub.failing != [] || x.die.failing != [] || decide (thr < x.hub.crcLast) ||
        decide (thr < x.die.crcLast) then
      let p := p.setLink d { x with paused := some 0, disturbed := true }
      (p.setRf (pgMP d) 0x200 3 0 4).setRf (pgMOCOR d) 0x200 3 0 4
    else p

/-! ### Link loss, watchdog, loss of lock (R287 to R293) -/

/-- LINK_DOWN: a link-down is detected and fences the die at once (R287). -/
def execLinkDown (d : Die) (c : DownCause) (s : State) : Host.Outcome State Fault Refusal :=
  s.upd (fun p =>
    if p.linkRuns d.val then p.fenceDie d.val (match c with | .lanes => 3 | _ => 2) else p)

/-- PLL_LOSS_OF_LOCK: a loop of the die loses lock; the die stops its transmitter and is fenced as a link-down (R289). -/
def execPllLossOfLock (d : Die) (k : Fin 6) (s : State) : Host.Outcome State Fault Refusal :=
  s.upd (fun p =>
    let d := d.val
    let pg := pgCLK d
    if !p.dieUp d then p
    else
      let p := (p.setRf pg 0x200 (24 + k.val) (24 + k.val) 1).setRf pg 0x200 k.val k.val 0
      let p := if k.val = 4 then p.setRf pg 0x200 23 16 0 else p
      (p.setEvent pg 16 4 { Det.none with detail := p.reg pg 0x200, agent := d }).fenceDie d 2)

/-- The watchdog watches: its page is ACTIVE and the die is in D-IDLE, D-RUN or D-DRIZZLE (R291). -/
def Pkg.wdogOn (p : Pkg) (d : Nat) : Bool := p.dieUp d && p.blkState (pgWDOG d) == 1

/-- DIE_WATCH_EXPIRY: DIELIM consecutive frames were not complete; no further HEART is sent (R291). -/
def execDieWatchExpiry (d : Die) (s : State) : Host.Outcome State Fault Refusal :=
  s.upd (fun p =>
    let pg := pgWDOG d.val
    let lim := if p.cf pg 0x400 7 0 = 0 then 4 else p.cf pg 0x400 7 0
    if !p.wdogOn d.val || decide (p.rf pg 0x200 47 40 < lim) || p.rf pg 0x200 32 32 == 1 then p
    else
      let p := p.setRf pg 0x200 32 32 1
      p.setEvent pg 17 4 { Det.none with detail := p.reg pg 0x200, agent := d.val })

/-- UNIT_HUNG: an in-service unit made no progress for UNITLIM frames; the steward handles it as a hard failure at the next
tick (R291, R404). -/
def execUnitHung (d : Die) (i : Fin 20) (intact : Bool) (s : State) : Host.Outcome State Fault Refusal :=
  s.upd (fun p =>
    let pg := pgWDOG d.val
    let u := d.val * 20 + i.val
    let lim := if p.cf pg 0x400 31 16 = 0 then 1250 else p.cf pg 0x400 31 16
    if !p.wdogOn d.val || p.rf (pgCLU d.val (i.val / 5)) 0x200 (i.val % 5 * 4 + 3) (i.val % 5 * 4) != 1 ||
        decide ((p.unit u).watch < lim) then p
    else
      let p := p.setRf pg 0x200 i.val i.val 1
      let p := p.setUnit u { p.unit u with hung := true, hard := true, intact := intact }
      p.setEvent pg 16 (if intact then 1 else 4) { Det.none with detail := p.reg pg 0x200, agent := d.val })

end Sys2Proof.Machine
end

