-- ==== Sys2Proof/Machine/GuestPort.lean ====
section
/-! DEFINITION. Guest ports: the guest protocol, negotiation, the firewall, fence and readmission (R301 to R311). What the
hub answers is what `out` shows. -/

namespace Sys2Proof.Machine

def Pkg.guest (p : Pkg) (g : Nat) : Guest := tblGet (fun _ => Guest.reset) p.guests g
def Pkg.setGuest (p : Pkg) (g : Nat) (x : Guest) : Pkg := { p with guests := tblSet (fun _ => Guest.reset) p.guests g x }

/-- The guest window of a site (R18). -/
def inGuest (g : Nat) (pa : Nat) : Bool :=
  decide (0xE000000000000 + g * 0x800000000000 ≤ pa ∧ pa < 0xE000000000000 + (g + 1) * 0x800000000000)

/-- Every access that waits for something in a window of addresses gets an error response. -/
def Pkg.failWindow (p : Pkg) (inWin : Nat → Bool) : Pkg :=
  (List.range 216).foldl (fun p lc =>
    let c := p.core lc
    let hit := c.posted.filter (fun a => inWin a.pa)
    if hit = [] ∧ !c.io.any (fun a => inWin a.pa && a.answer.isNone) then p
    else p.setCore lc { c with
      io := c.io.map (fun a => if inWin a.pa ∧ a.answer = none then { a with answer := some none } else a)
      posted := c.posted.filter (fun a => !inWin a.pa)
      failed := c.failed ++ hit.map (·.pa) }) p

/-- Fence a guest with an FCAUSE of R311 (R309); ORIGIN of its event is 0 unless a command fences it (R408). -/
def Pkg.fenceGuest (p : Pkg) (g cause : Nat) (origin : Nat := 0) : Pkg :=
  let pg := pgGP g
  if p.gpState g = 5 ∨ p.gpState g = 7 then p
  else
    let x := p.guest g
    let p := p.setGuest g { x with loss := none, ack := none, before := p.reg pg 0x208 }
    let p := p.setReg pg 0x200 (word [(32, cause), (0, 5)])
    let bt := { p.boot with training := p.boot.training.filter (fun t => t != 22 + g), waits := tblErase p.boot.waits (22 + g) }
    let p := { p with boot := bt, pw := { p.pw with gsw := tblSet (fun _ => false) p.pw.gsw g false } }
    let p := ((p.inDrop (0x1A + g)).failWindow (inGuest g)).setEvent pg 19 3 { Det.none with detail := p.reg pg 0x200, agent := 0x1A + g }
    p.logLater 0x03 origin none pg (BitVec.ofNat 64 cause)

/-- An OGP protocol error (R303, R309). -/
def Pkg.ogpError (p : Pkg) (g : Nat) : Pkg := (p.setEvent (pgGP g) 16 3 { Det.none with detail := p.reg (pgGP g) 0x200 }).fenceGuest g 2

/-- A field of an OGP header (R302). -/
def ogp (h : BitVec 128) (hi lo : Nat) : Nat := h.toNat / 2 ^ lo % 2 ^ (hi + 1 - lo)

/-- The agreed maximum request size, vectors and tags (R304). -/
def Pkg.agreed (p : Pkg) (g : Nat) (hi lo : Nat) : Nat := p.rf (pgGP g) 0x208 hi lo
def Pkg.mrs (p : Pkg) (g : Nat) : Nat := 64 * 2 ^ p.agreed g 31 28

/-- A message of TYPE `ty` from an ACTIVE guest: what is not a legal message of OGP is a protocol error (R303). `len` is
the length of its data. -/
def Pkg.onOgp (p : Pkg) (md : ModeState) (g : Nat) (h : BitVec 128) (ty : Nat) (request : Bool) (act : Pkg → Pkg) : Pkg :=
  if p.gpState g ≠ 2 ∨ !(p.answers (pgGP g)) then p
  else if request ∧ !p.inbound md (pgGP g) then p
  else
    let len := ogp h 111 100 + 1
    if ogp h 127 124 ≠ ty ∨ ogp h 93 88 ≠ 0 ∨ ogp h 79 64 ≠ 0 then p.ogpError g
    else if request ∧ (p.mrs g < len ∨ 4096 < ogp h 63 0 % 4096 + len) then p.ogpError g
    else act p

/-- The lowest-numbered firewall window that holds the range and grants the rights: its PID (R307, R308). -/
def Pkg.firewall (p : Pkg) (g addr len : Nat) (rd wr : Bool) : Option Nat :=
  (List.range 64).findSome? (fun k =>
    let w := p.cfg (pgGFW g) (0x400 + 8 * k)
    let sz := fld w 49 44
    let base := fld w 36 12 * 4096
    if bit w 63 ∧ 12 ≤ sz ∧ sz ≤ 37 ∧ base % 2 ^ sz = 0 ∧ base + 2 ^ sz ≤ hbmSize ∧ base ≤ addr ∧
        addr + len ≤ base + 2 ^ sz ∧ (!rd || bit w 61) ∧ (!wr || bit w 62) then some (fld w 56 50) else none)

/-- A denied request (R308). -/
def Pkg.fwDeny (p : Pkg) (g : Nat) (h : BitVec 128) : Pkg :=
  p.fwLog g (ogp h 63 0) (ogp h 127 124) (ogp h 111 100)

/-- The whole range lies in the page of GWn (R308). -/
def inGw (g addr len : Nat) : Bool :=
  let base := 0xFF0000C000000 + (0x094 + g) * 4096
  decide (base ≤ addr ∧ addr + len ≤ base + 4096)

/-- MATOM: an atomic operation, answered with the old value (R303, R305). -/
def execMatom (g : Fin 2) (hdr : BitVec 128) (bytes : List Byte) (s : State) : Host.Outcome State Fault Refusal :=
  s.upd (fun p => p.onOgp s.mode g.val hdr 3 true (fun p =>
    let a := ogp hdr 63 0
    let op := ogp hdr 96 94
    let tag := ogp hdr 123 112
    let len := ogp hdr 111 100 + 1
    let n := if op = 1 then len / 2 else len
    if inGw g.val a len then p.reply tag 3 [] false
    else if (n ≠ 1 ∧ n ≠ 2 ∧ n ≠ 4 ∧ n ≠ 8) ∨ a % n ≠ 0 ∨ op = 0 then p.reply tag 3 [] false
    else
      match p.firewall g.val a n true true with
      | none => (p.fwDeny g.val hdr).reply tag 1 [] false
      | some pid =>
        p.inTake { agent := 0x1A + g.val, pid := pid, parts := [(a, n)], op := .atom op (bytes.take len),
                   src := .guest g.val tag, age := 0 }))

/-- CPL: the completion of an access of the hub; an unknown TAG is a protocol error (R303, R305). -/
def execCpl (g : Fin 2) (hdr : BitVec 128) (bytes : List Byte) (s : State) : Host.Outcome State Fault Refusal :=
  s.upd (fun p => p.onOgp s.mode g.val hdr 4 false (fun p =>
    let tag := ogp hdr 123 112
    let known := (List.range 216).any (fun lc =>
      (p.core lc).io.any (fun a => a.tag == tag && inGuest g.val a.pa && a.answer.isNone) ||
      (p.core lc).posted.any (fun a => a.tag == tag && inGuest g.val a.pa))
    if !known then p.ogpError g.val
    else p.coreAnswer (inGuest g.val) tag
      (if ogp hdr 99 97 = 0 then some (bytes.take (ogp hdr 111 100 + 1), false) else none)))

/-- INT: an interrupt vector of the guest (R306). -/
def execInt (g : Fin 2) (hdr : BitVec 128) (s : State) : Host.Outcome State Fault Refusal :=
  s.upd (fun p => p.onOgp s.mode g.val hdr 5 false (fun p =>
    let pg := pgGP g.val
    let v := ogp hdr 87 80
    let m := p.cfg pg (0x408 + 8 * (v % 32))
    let drop := fun (p : Pkg) => (p.addRf pg 0x218 63 0 1).setEvent pg 18 3 { Det.none with detail := p.reg pg 0x200 }
    if !bit m 31 || decide (32 ≤ v ∨ p.agreed g.val 23 16 ≤ v) then drop p
    else
      match p.notify (fld m 15 8) (fld m 30 24) (fld m 7 0) with
      | (true, p) => p
      | (false, p) => drop p))

/-- OGP_ERR: a guest error report; severity 2 or more fences the guest (R303, R309). -/
def execOgpErr (g : Fin 2) (hdr : BitVec 128) (s : State) : Host.Outcome State Fault Refusal :=
  s.upd (fun p => p.onOgp s.mode g.val hdr 6 false (fun p =>
    if 2 ≤ ogp hdr 87 80 then p.fenceGuest g.val 3 else p))

/-! ### Negotiation (R304) -/

/-- The hub's offer. -/
def Pkg.hubOffer (p : Pkg) (g : Nat) : Word :=
  let c := p.cf (pgGP g) 0x400 3 0
  word [(56, 1), (48, 1), (40, 64), (32, 16), (28, 4), (24, if c = 0 then 3 else min c 3), (16, 32), (8, 16)]

/-- Every field of an offer holds a value of the table. -/
def offerOk (w : Word) : Bool :=
  let r := fld w 39 32
  (fld w 47 40 == 32 || fld w 47 40 == 64) && (r == 4 || r == 8 || r == 12 || r == 16) && decide (fld w 31 28 ≤ 6) &&
  decide (1 ≤ fld w 27 24 ∧ fld w 27 24 ≤ 3) && decide (fld w 23 16 ≤ 32) && decide (1 ≤ fld w 15 8) && fld w 7 0 == 0

/-- The agreed block: each field the lower of the two, versions compared by major number first. -/
def agreeBlock (a b : Word) : Word :=
  let m := fun (hi lo : Nat) => (lo, min (fld a hi lo) (fld b hi lo))
  let v := min (fld a 63 48) (fld b 63 48)
  word [(48, v), m 47 40, m 39 32, m 31 28, m 27 24, m 23 16, m 15 8]

/-- A failed negotiation; in LOAD, and in a readmission, the next attempt follows the back-off (R63, R304, R310). -/
def Pkg.negFail (p : Pkg) (g : Nat) : Pkg :=
  let pg := pgGP g
  let n := p.rf pg 0x200 63 48
  let p := ((p.setRf pg 0x200 3 0 0).setEvent pg 21 3 { Det.none with detail := p.reg pg 0x200 }).setGuest g { p.guest g with ack := none }
  { p with boot := { p.boot with waits := tblSet (fun _ => 0) p.boot.waits (22 + g) (min (2 ^ (n - 1)) 1024 + 1) } }

/-- CAP: the guest's offer (R304). -/
def execCap (g : Fin 2) (hdr : BitVec 128) (block : Word) (s : State) : Host.Outcome State Fault Refusal :=
  s.upd (fun p =>
    let pg := pgGP g.val
    if p.gpState g.val ≠ 6 ∨ ogp hdr 127 124 ≠ 7 then p
    else
      let p := p.setReg pg 0x210 block
      let a := agreeBlock block (p.hubOffer g.val)
      if !offerOk block || fld a 63 56 != 1 then p.negFail g.val else p.setReg pg 0x208 a)

/-- The negotiation has succeeded, at the width and rate agreed: the port enters ACTIVE, in a readmission at the next tick (R304,
R310). -/
def Pkg.guestAgreed (p : Pkg) (g : Nat) (block : Word) : Pkg :=
  if p.boot.readmits.contains (22 + g) then (p.setGuest g { p.guest g with ack := some block }).unripe .guest g
  else
    let bt := { p.boot with finished := p.boot.finished.filter (fun u => u != 22 + g) ++ [22 + g] }
    ({ p with boot := bt }).setRf (pgGP g) 0x200 3 0 2

/-- CAPACK: the guest's agreed block; the negotiation succeeds when the two are equal. A port whose training reached more than was
agreed retrains at the agreed width and rate first (R304). -/
def execCapack (g : Fin 2) (hdr : BitVec 128) (block : Word) (s : State) : Host.Outcome State Fault Refusal :=
  s.upd (fun p =>
    let pg := pgGP g.val
    if p.gpState g.val ≠ 6 ∨ ogp hdr 127 124 ≠ 8 ∨ p.reg pg 0x210 = 0 then p
    else if block ≠ p.reg pg 0x208 then p.negFail g.val
    else
      let x := p.guest g.val
      if fld block 47 40 < x.width ∨ fld block 39 32 < x.rate then
        let p := p.setGuest g.val { x with width := fld block 47 40, rate := fld block 39 32, retrain := true }
        let p := { p with boot := { p.boot with training := p.boot.training ++ [22 + g.val] } }
        (p.setRf pg 0x200 3 0 1).setEvent pg 17 3 { Det.none with detail := p.reg pg 0x200 }
      else p.guestAgreed g.val block)

/-! ### Link loss, fence and readmission (R309, R310) -/

/-- The UCIe link of a guest is lost; the specification's retraining has 2 frames (R309). -/
def Pkg.ucieLoss (p : Pkg) (g : Nat) : Pkg :=
  if p.gpState g = 2 ∧ (p.guest g).loss = none then
    (p.setGuest g { p.guest g with loss := some 0 }).setEvent (pgGP g) 17 3 { Det.none with detail := p.reg (pgGP g) 0x200 }
  else p

/-- UCIE_LINK_LOSS (R309). -/
def execUcieLinkLoss (g : Fin 2) (s : State) : Host.Outcome State Fault Refusal := s.upd (fun p => p.ucieLoss g.val)

/-- GUEST_LINK_LOSS_EXPIRY: the loss was not recovered within 2 frames (R309). -/
def execGuestLinkLossExpiry (g : Fin 2) (s : State) : Host.Outcome State Fault Refusal :=
  s.upd (fun p =>
    match (p.guest g.val).loss with
    | some n => if 2 ≤ n then p.fenceGuest g.val 1 else p
    | none => p)

/-- GSW_FAULT: over-current or under-voltage of a guest load switch (R417). -/
def execGswFault (g : Fin 2) (s : State) : Host.Outcome State Fault Refusal :=
  s.upd (fun p =>
    if tblGet (fun _ => false) p.pw.gsw g.val then (p.setEvent pgHPWR 16 3).fenceGuest g.val 4 else p)

/-- FENCE of GPn.FENCECMD (R309, R311). -/
def Pkg.cmdGuestFence (p : Pkg) (who : Requester) (g : Nat) : Pkg :=
  let pg := pgGP g
  if p.loadHold pg ∨ p.gpState g = 5 ∨ p.gpState g = 7 ∨ p.gpState g = 0 then p.cmdWrong pg 0xC00
  else (p.fenceGuest g 7 (originOf who)).cmdOk pg 0xC00

/-- READMIT of GPn.FENCECMD: the load switch goes on and training starts (R310, R417). -/
def Pkg.cmdGuestReadmit (p : Pkg) (md : ModeState) (g : Nat) : Pkg :=
  let pg := pgGP g
  if p.loadHold pg ∨ p.busy pg ∨ p.gpState g ≠ 5 ∨ (md.mode ≠ .run ∧ md.mode ≠ .degraded ∧ md.mode ≠ .quiesce) then
    p.cmdWrong pg 0xC00
  else
    let p := p.cmdPending pg 0xC00
    let p := (p.setReg pg 0x200 (word [(48, 1), (32, p.rf pg 0x200 39 32), (0, 1)])).setReg pg 0x210 0
    { p with pw := { p.pw with gsw := tblSet (fun _ => false) p.pw.gsw g true },
             boot := { p.boot with readmits := p.boot.readmits ++ [22 + g], training := p.boot.training ++ [22 + g] } }

/-- GUEST_FENCE_COMMAND. -/
def execGuestFenceCommand (who : Requester) (g : Fin 2) (s : State) : Host.Outcome State Fault Refusal :=
  s.upd (fun p => p.cmd who (pgGP g.val) 0xC00 (fun p => p.cmdGuestFence who g.val))

/-- GUEST_READMIT. -/
def execGuestReadmit (who : Requester) (g : Fin 2) (s : State) : Host.Outcome State Fault Refusal :=
  s.upd (fun p => p.cmd who (pgGP g.val) 0xC00 (fun p => p.cmdGuestReadmit s.mode g.val))

/-- GUEST_READMIT_COMPLETE: the port enters ACTIVE, or stays FENCED with LASTST FAILED (R310). -/
def execGuestReadmitComplete (g : Fin 2) (ok : Bool) (s : State) : Host.Outcome State Fault Refusal :=
  s.upd (fun p =>
    let pg := pgGP g.val
    if !p.boot.readmits.contains (22 + g.val) then p
    else
      let bt := { p.boot with
        readmits := p.boot.readmits.filter (fun t => t != 22 + g.val)
        training := p.boot.training.filter (fun t => t != 22 + g.val)
        waits := tblErase p.boot.waits (22 + g.val) }
      if ok then
        if (p.guest g.val).ack = none ∨ !p.isRipe .guest g.val then p
        else
          let p := { p with boot := bt }
          let p := (p.setRf pg 0x200 3 0 2).setRf pg 0x200 39 32 0
          let p := p.setRf pgSTW 0x230 (16 + g.val) (16 + g.val) 0
          let p := if p.reg pg 0x208 == (p.guest g.val).before then p else p.setEvent pg 20 3 { Det.none with detail := p.reg pg 0x200 }
          (p.setGuest g.val { p.guest g.val with ack := none }).cmdDone pg 0xC00 1
      else if p.canRetry (22 + g.val) false then p
      else
        let p := { p with boot := bt, pw := { p.pw with gsw := tblSet (fun _ => false) p.pw.gsw g.val false } }
        (p.setRf pg 0x200 3 0 5).cmdDone pg 0xC00 6)

end Sys2Proof.Machine
end

