-- ==== Sys2Proof/Machine/Books.lean ====
section
/-! DEFINITION. Timeouts of initiators, and the census and repair of credit books (R266 to R277). -/

namespace Sys2Proof.Machine

/-- The timeout of an agent in frames (R266, R276, R277). -/
def Pkg.agentTmo (p : Pkg) (a : Nat) : Nat :=
  let pg := agentPage a
  let g := fun (hi lo : Nat) => p.cf pgGRID 0x400 hi lo
  let t := if pg ≠ pgGRID then p.cf pg 0x448 7 0
    else if 0x30 ≤ a then g 7 0
    else match a with
      | 0x10 => g 15 8
      | 0x11 | 0x12 => g 23 16
      | 0x13 => g 31 24
      | 0x1A | 0x1B => g 47 40
      | 0x1C | 0x1D => g 55 48
      | 0x1E => g 63 56
      | _ => g 39 32
  if t = 0 then 8 else t

/-- A timeout of an agent is counted (R266, R275). -/
def Pkg.countTimeout (p : Pkg) (a cls : Nat) : Pkg :=
  let pg := agentPage a
  ((p.addRf pg 0x210 63 0 1).refreshQuar pg).setEvent pg 17 cls { Det.none with agent := a }

/-- Err TIMEOUT is synthesised at an initiator: counted, and the TXID is quarantined (R266, R267). -/
def Pkg.noteTimeout (p : Pkg) (a txid cls : Nat) : Pkg :=
  ({ p with coh := { p.coh with quarantine := p.coh.quarantine ++ [(a, txid)] } }).countTimeout a cls

/-- A device access of a core of a die that has waited too long: the die's L3 slices are its initiators (R266). -/
def Pkg.deviceWaits (p : Pkg) (d txid : Nat) (old : Nat → Bool) : Bool :=
  (List.range 18).any (fun k =>
    let c := p.core (d * 18 + k)
    c.io.any (fun x => x.tag == txid && x.answer.isNone && old x.age) ||
    c.posted.any (fun x => x.tag == txid && old x.age))

/-- TRANSACTION_TIMEOUT: an outstanding transaction of an agent has seen T + 1 ticks (R266, R268). On a coherent request or
a snoop it is a protocol error of the PID; on an uncached access or a core's device access it is an error response. -/
def execTransactionTimeout (agent : Fin 64) (txid : Fin 1024) (s : State) : Host.Outcome State Fault Refusal :=
  s.upd (fun p =>
    let a := agent.val
    let old := fun (n : Nat) => decide (p.agentTmo a < n)
    match (p.agentReqs a).find? (fun q => q.txid == txid.val && old q.age) with
    | some q =>
      let p := p.setAgentReqs a ((p.agentReqs a).filter (fun r => r.txid != txid.val))
      if q.kind.caches then (p.noteTimeout a txid.val 4).raiseDcs q.pid a
      else
        let p := p.noteTimeout a txid.val 3
        { p with coh := { p.coh with answers := p.coh.answers ++ [(a, txid.val, 1, [], false)] } }
    | none =>
      match p.coh.txns.find? (fun t => t.req.txid == txid.val && decide (0x30 ≤ a) && mcOf t.req.line == a - 0x30 &&
          t.snoops != [] && old t.age) with
      | some t => (p.noteTimeout a txid.val 4).raiseDcs t.req.pid 0x3F
      | none =>
        if a < 12 ∧ p.deviceWaits a txid.val old then (p.noteTimeout a txid.val 3).coreAnswer (fun _ => true) txid.val none
        else
          match p.inq.find? (fun x => x.agent == a) with
          | some x => if old x.age then (p.countTimeout a 3).inExpire x else p
          | none => p)

/-- LATE_MESSAGE: a message for a quarantined TXID is dropped and the TXID is freed (R267). -/
def execLateMessage (agent : Fin 64) (txid : Fin 1024) (s : State) : Host.Outcome State Fault Refusal :=
  s.upd (fun p => if p.coh.quarantine.contains (agent.val, txid.val) then p.lateMsg agent.val txid.val else p)

/-- The accesses that a core waits for have seen one more tick. -/
def Core.ageIo (c : Core) : Core :=
  { c with io := c.io.map (fun a => { a with age := a.age + 1 }), posted := c.posted.map (fun a => { a with age := a.age + 1 }) }

/-- At a tick every outstanding transaction has seen one more (R266). -/
def Pkg.ageTick (p : Pkg) : Pkg :=
  let up := fun (q : AgentReq) => { q with age := q.age + 1 }
  let p := p.cores.foldl (fun (p : Pkg) (e : Nat × Core) =>
    if e.2.io = [] ∧ e.2.posted = [] then p else p.setCore e.1 e.2.ageIo) p
  { p with coh := { p.coh with
    reqs := p.coh.reqs.map (fun e => (e.1, e.2.map up)),
    txns := p.coh.txns.map (fun t => { t with age := t.age + 1 }) } }

/-! ### Credits (R269 to R272) -/

/-- The page censuses books: CDn.RING, HD.GRID and MPn (R270). -/
def censusPage (pg : Nat) : Bool :=
  match blkOf pg with | some (.ring, _) | some (.grid, _) | some (.mp, _) => true | _ => false

/-- The die whose books a page censuses. -/
def bookDie (pg : Nat) : Option Nat :=
  match blkOf pg with | some (.ring, _) => some (pg / 4096) | some (.mp, n) => some n | _ => none

/-- The audit runs in the mode (R69), the page is ACTIVE, and its die is up (R270). -/
def Pkg.censusRuns (p : Pkg) (md : ModeState) (pg : Nat) : Bool :=
  censusPage pg && p.quotaOn md.mode p.frameNum [.load, .run, .degraded, .quiesce, .drizzle] &&
  p.blkState pg == 1 && (match bookDie pg with | some d => p.dieUp d && !(p.link d).disturbed | none => true)

/-- The books that the audit of a page censuses: all it has but those under repair (R270, R274). -/
def Pkg.auditSize (p : Pkg) (pg : Nat) : Nat :=
  let all := match blkOf pg with | some (.ring, _) => 216 | some (.grid, _) => 864 | some (.mp, _) => 16 | _ => 0
  all - (p.fabric.repairs.filter (fun x => x.1 == pg)).length

/-- The credits of a book as an error on its wires leaves them: `drift` credits are made or, below 0, lost. -/
def Pkg.driftBook (p : Pkg) (b : Nat × Nat) (drift : Int) : Pkg :=
  if drift = 0 then p else p.setBook b { p.book b with spent := (p.book b).spent - drift }

/-- CREDIT_CENSUS: a book of the page is censused, once in an audit: H + R + O, as latched where the census or its audit began,
against G (R72, R270, R272). `drift` is what an error on its wires did to its credits; a census that has not `ended` in time
does not balance. -/
def execCreditCensus (pg : PageId) (book : BitVec 16) (drift : Int) (ended : Bool) (s : State) :
    Host.Outcome State Fault Refusal :=
  s.upd (fun p =>
    let pg := pgOf pg
    let b := book.toNat
    if !p.censusRuns s.mode pg || !bookOf pg b || p.fabric.repairs.any (fun x => x.1 == pg && x.2.1 == b) ||
        p.fabric.seen.contains (pg, b) then p
    else
      let p := p.driftBook (pg, b) drift
      let diff := ((p.book (pg, b)).mark.getD (p.bookDiff (pg, b) - drift)) + drift
      let p := if (p.book (pg, b)).mark.isSome then p.setBook (pg, b) { p.book (pg, b) with mark := none } else p
      let good : Bool := ended && diff == 0
      let c := tblGet (fun _ => (0, 0)) p.fabric.counts pg
      let fab := { p.fabric with
        seen := p.fabric.seen ++ [(pg, b)]
        counts := tblSet (fun _ => (0, 0)) p.fabric.counts pg (c.1 + 1, c.2 + (!good).toNat) }
      if good then { p with fabric := fab }
      else
        let p := { p with fabric := { fab with bad := fab.bad ++ [(pg, b)] } }
        let p := p.auditFail 0x20 pg diff false
        match blkOf pg with
        | some (.mp, _) => p
        | _ => (p.setRf pg 0x200 15 0 b).setEvent pg 16 1 { Det.none with detail := p.reg pg 0x200 })

/-- CREDIT_REPAIR: at the tick after the census the steward starts the repair of an unbalanced book (R272). -/
def execCreditRepair (pg : PageId) (book : BitVec 16) (s : State) : Host.Outcome State Fault Refusal :=
  s.upd (fun p =>
    let pg := pgOf pg
    let b := book.toNat
    if p.fabric.due.contains (pg, b) then
      let p := { p with fabric := { p.fabric with due := p.fabric.due.erase (pg, b), repairs := p.fabric.repairs ++ [(pg, b, 0)] } }
      match blkOf pg with
      | some (.mp, _) => p
      | _ => p.setReg pg 0x208 1
    else p)

/-- The frames that a repair has run. -/
def Pkg.repairAge (p : Pkg) (pg b : Nat) : Option Nat :=
  (p.fabric.repairs.find? (fun x => x.1 == pg && x.2.1 == b)).map (·.2.2)

/-- A repair ends with a REPAIR state. -/
def Pkg.repairEnds (p : Pkg) (pg b st : Nat) : Pkg :=
  let p := { p with fabric := { p.fabric with repairs := p.fabric.repairs.filter (fun x => !(x.1 == pg && x.2.1 == b)) } }
  match blkOf pg with
  | some (.mp, _) => p
  | _ => p.setRf pg 0x208 1 0 (if st = 2 ∧ p.fabric.repairs.any (fun x => x.1 == pg) then 1 else st)

/-- CREDIT_REPAIR_COMPLETE: once the wires are empty and O is 0, H is set to G and the sender resumes (R272). -/
def execCreditRepairComplete (pg : PageId) (book : BitVec 16) (s : State) : Host.Outcome State Fault Refusal :=
  s.upd (fun p =>
    let b := (pgOf pg, book.toNat)
    if (p.repairAge b.1 b.2).isNone || p.onWires b != 0 || p.buffered b != 0 || (p.book b).rets != 0 then p
    else (p.setBook b { p.book b with spent := 0, mark := none }).repairEnds b.1 b.2 2)

/-- REPAIR_LIMIT_EXPIRY: a repair not complete within 16 frames is unrepairable: the die is fenced, or for a grid book a
package checkstop is raised (R272). -/
def execRepairLimitExpiry (pg : PageId) (book : BitVec 16) (s : State) : Host.Outcome State Fault Refusal :=
  s.upd (fun p =>
    let pg := pgOf pg
    match p.repairAge pg book.toNat with
    | none => p
    | some n =>
      if n < 16 then p
      else
        let p := p.repairEnds pg book.toNat 3
        match blkOf pg with
        | some (.mp, d) => p.fenceDie d 5
        | some (.ring, _) => (p.setEvent pg 20 4 { Det.none with detail := p.reg pg 0x208 }).fenceDie (pg / 4096) 5
        | _ => (p.setEvent pg 20 5 { Det.none with detail := p.reg pg 0x208 }).raisePcs 2 pg)

/-- An audit of a page that ran ends at a tick, when each of its books was censused; one that overran goes on (R72). -/
def Pkg.auditEnds (p : Pkg) (pg : Nat) : Bool :=
  decide (p.auditSize pg ≤ (p.fabric.seen.filter (fun x => x.1 == pg)).length)

/-- The census pages whose books are held by an audit that overran: it goes on with the counts it latched. -/
def Pkg.auditCarry (p : Pkg) : List Nat :=
  ((p.fabric.counts.map (·.1)).filter (fun pg => !p.auditEnds pg && !p.fabric.carry.contains pg &&
    (match bookDie pg with | some d => p.dieUp d | none => true)))

/-- At a tick (R72, R272, R275): a completed audit is published, one that overran goes on, the counts of every book are
latched for the next, unbalanced books fall due for repair, and LOSTSET[CREDIT] follows. -/
def Pkg.bookTick (p : Pkg) : Pkg :=
  let fab := p.fabric
  let carry := p.auditCarry
  let p := fab.counts.foldl (fun p e =>
    match blkOf e.1 with
    | some (.mp, _) => p
    | _ => if carry.contains e.1 then p else (p.setRf e.1 0x200 63 48 e.2.1).setRf e.1 0x200 47 32 e.2.2) p
  let p := fab.repairs.foldl (fun p e =>
    match blkOf e.1 with
    | some (.mp, _) => p
    | _ => p.setRf e.1 0x208 23 16 (min 255 (e.2.2 + 1))) p
  let p := fab.books.foldl (fun (p : Pkg) (e : Nat × Book) =>
    let b := (e.1 / 65536, e.1 % 65536)
    if carry.contains b.1 ∨ (e.2.mark.isNone ∧ p.bookDiff b = 0) then p
    else p.setBook b { e.2 with mark := if p.bookDiff b = 0 then none else some (p.bookDiff b) }) p
  let lost := if fab.bad ≠ [] then true else if fab.lost ∧ !fab.atStart then false else fab.lost
  { p with fabric := { p.fabric with
      due := fab.due ++ fab.bad
      bad := []
      seen := fab.seen.filter (fun x => carry.contains x.1)
      carry := carry
      counts := fab.counts.filter (fun x => carry.contains x.1)
      repairs := fab.repairs.map (fun e => (e.1, e.2.1, e.2.2 + 1))
      lost := lost
      atStart := fab.repairs != [] || fab.due != [] || fab.bad != [] } }

end Sys2Proof.Machine
end

