-- ==== Sys2Proof/Machine/Aes.lean ====
section
/-! DEFINITION. The ciphers of R369 as the standards it names define them: AES, triple DES, and the modes CTR, CBC, ECB,
XTS, GCM and CMAC, and the key derivation of R371 (PRESUMED: the standards' own texts are not in the manual, log entry 22). -/

namespace Sys2Proof.Machine

/-! ### AES (FIPS 197) -/

/-- Multiplication by x in the field of AES. -/
def aesX (a : Nat) : Nat := if a < 128 then a * 2 else (a * 2 - 256) ^^^ 0x1B

/-- Multiplication in the field of AES. -/
def aesMul (a b : Nat) : Nat :=
  ((List.range 8).foldl (fun (s : Nat × Nat) i =>
    (if b / 2 ^ i % 2 = 1 then s.1 ^^^ s.2 else s.1, aesX s.2)) (0, a)).1

/-- The multiplicative inverse, 0 for 0: a to the power 254. -/
def aesInv (a : Nat) : Nat :=
  let sq := fun x => aesMul x x
  let a2 := sq a
  let a3 := aesMul a2 a
  let a12 := sq (sq a3)
  let a15 := aesMul a12 a3
  let a240 := sq (sq (sq (sq a15)))
  aesMul (aesMul a240 a12) a2

/-- Rotate an 8-bit value left. -/
def rot8 (a n : Nat) : Nat := (a * 2 ^ n) % 256 + a / 2 ^ (8 - n)

/-- The S-box: inversion, then the affine map. -/
def aesSbox (a : Nat) : Nat :=
  let b := aesInv a
  b ^^^ rot8 b 1 ^^^ rot8 b 2 ^^^ rot8 b 3 ^^^ rot8 b 4 ^^^ 0x63

/-- The S-box of the inverse cipher: the affine map undone, then inversion. -/
def aesInvSbox (a : Nat) : Nat := aesInv (rot8 a 1 ^^^ rot8 a 3 ^^^ rot8 a 6 ^^^ 0x05)

/-- XOR of two lists of bytes held as numbers. -/
def xorL (a b : List Nat) : List Nat := List.zipWith (fun x y => x ^^^ y) a b

/-- Key expansion: words of four bytes, latest first, to `n` words in all for a key of `nk` words. -/
def aesExpand (nk : Nat) : Nat → Nat → Nat → List (List Nat) → List (List Nat)
  | 0, _, _, ws => ws
  | k + 1, i, rc, ws =>
    let t := ws.headD []
    let t' := if i % nk = 0 then
        match t.map aesSbox with
        | [a, b, c, d] => [b ^^^ rc, c, d, a]
        | x => x
      else if 6 < nk ∧ i % nk = 4 then t.map aesSbox else t
    aesExpand nk k (i + 1) (if i % nk = 0 then aesX rc else rc) (xorL (ws.getD (nk - 1) []) t' :: ws)

/-- Chunks of `n` elements, the last one shorter. -/
def aesChunks {α : Type} (n : Nat) (l : List α) : List (List α) :=
  (List.range ((l.length + n - 1) / n)).map (fun i => (l.drop (i * n)).take n)

/-- Round keys of 16 bytes, first round first. -/
def aesRoundKeys (key : List Nat) : List (List Nat) :=
  let nk := key.length / 4
  let ws := (aesExpand nk (4 * (nk + 7) - nk) nk 1 (aesChunks 4 key).reverse).reverse
  (aesChunks 4 ws).map List.flatten

/-- ShiftRows by a column step: byte r + 4c comes from column c + k·r. -/
def aesShift (k : Nat) (s : List Nat) : List Nat :=
  (List.range 16).map (fun i => s.getD (i % 4 + 4 * ((i / 4 + k * (i % 4)) % 4)) 0)

/-- MixColumns with the matrix whose first row is `m`. -/
def aesMix (m : List Nat) (s : List Nat) : List Nat :=
  (List.range 16).map (fun i =>
    (List.range 4).foldl (fun a j => a ^^^ aesMul (s.getD (i / 4 * 4 + j) 0) (m.getD ((j + 4 - i % 4) % 4) 0)) 0)

/-- Encrypt one block. -/
def aesEnc (rks : List (List Nat)) (b : List Nat) : List Nat :=
  let n := rks.length - 1
  let s := xorL b (rks.headD [])
  let s := (List.range (n - 1)).foldl (fun s r =>
    xorL (aesMix [2, 3, 1, 1] (aesShift 1 (s.map aesSbox))) (rks.getD (r + 1) [])) s
  xorL (aesShift 1 (s.map aesSbox)) (rks.getD n [])

/-- Decrypt one block. -/
def aesDec (rks : List (List Nat)) (b : List Nat) : List Nat :=
  let n := rks.length - 1
  let s := xorL b (rks.getD n [])
  let s := (List.range (n - 1)).foldl (fun s r =>
    aesMix [14, 11, 13, 9] (xorL ((aesShift 3 s).map aesInvSbox) (rks.getD (n - 1 - r) []))) s
  xorL ((aesShift 3 s).map aesInvSbox) (rks.headD [])

/-! ### DES (FIPS 46-3, SP 800-67) -/

/-- A permutation by a table of bit numbers, 1 the most significant of `n`. -/
def desPerm (n : Nat) (t : List Nat) (x : Nat) : Nat := t.foldl (fun a i => a * 2 + x / 2 ^ (n - i) % 2) 0

def desIP : List Nat :=
  [58, 50, 42, 34, 26, 18, 10, 2, 60, 52, 44, 36, 28, 20, 12, 4, 62, 54, 46, 38, 30, 22, 14, 6, 64, 56, 48, 40, 32, 24, 16, 8] ++
  [57, 49, 41, 33, 25, 17, 9, 1, 59, 51, 43, 35, 27, 19, 11, 3, 61, 53, 45, 37, 29, 21, 13, 5, 63, 55, 47, 39, 31, 23, 15, 7]

def desFP : List Nat :=
  [40, 8, 48, 16, 56, 24, 64, 32, 39, 7, 47, 15, 55, 23, 63, 31, 38, 6, 46, 14, 54, 22, 62, 30, 37, 5, 45, 13, 53, 21, 61, 29] ++
  [36, 4, 44, 12, 52, 20, 60, 28, 35, 3, 43, 11, 51, 19, 59, 27, 34, 2, 42, 10, 50, 18, 58, 26, 33, 1, 41, 9, 49, 17, 57, 25]

def desE : List Nat :=
  [32, 1, 2, 3, 4, 5, 4, 5, 6, 7, 8, 9, 8, 9, 10, 11, 12, 13, 12, 13, 14, 15, 16, 17] ++
  [16, 17, 18, 19, 20, 21, 20, 21, 22, 23, 24, 25, 24, 25, 26, 27, 28, 29, 28, 29, 30, 31, 32, 1]

def desP : List Nat :=
  [16, 7, 20, 21, 29, 12, 28, 17, 1, 15, 23, 26, 5, 18, 31, 10, 2, 8, 24, 14, 32, 27, 3, 9, 19, 13, 30, 6, 22, 11, 4, 25]

def desPC1 : List Nat :=
  [57, 49, 41, 33, 25, 17, 9, 1, 58, 50, 42, 34, 26, 18, 10, 2, 59, 51, 43, 35, 27, 19, 11, 3, 60, 52, 44, 36] ++
  [63, 55, 47, 39, 31, 23, 15, 7, 62, 54, 46, 38, 30, 22, 14, 6, 61, 53, 45, 37, 29, 21, 13, 5, 28, 20, 12, 4]

def desPC2 : List Nat :=
  [14, 17, 11, 24, 1, 5, 3, 28, 15, 6, 21, 10, 23, 19, 12, 4, 26, 8, 16, 7, 27, 20, 13, 2] ++
  [41, 52, 31, 37, 47, 55, 30, 40, 51, 45, 33, 48, 44, 49, 39, 56, 34, 53, 46, 42, 50, 36, 29, 32]

/-- The eight substitution boxes, four rows of 16 each, a row as a number of hexadecimal digits. -/
def desS : List (List Nat) :=
  [[0xE4D12FB83A6C5907, 0x0F74E2D1A6CB9538, 0x41E8D62BFC973A50, 0xFC8249175B3EA06D]] ++
  [[0xF18E6B34972DC05A, 0x3D47F28EC01A69B5, 0x0E7BA4D158C6932F, 0xD8A13F42B67C05E9]] ++
  [[0xA09E63F51DC7B428, 0xD709346A285ECBF1, 0xD6498F30B12C5AE7, 0x1AD069874FE3B52C]] ++
  [[0x7DE3069A1285BC4F, 0xD8B56F03472C1AE9, 0xA690CB7DF13E5284, 0x3F06A1D8945BC72E]] ++
  [[0x2C417AB6853FD0E9, 0xEB2C47D150FA3986, 0x421BAD78F9C5630E, 0xB8C71E2D6F09A453]] ++
  [[0xC1AF92680D34E75B, 0xAF427C9561DE0B38, 0x9EF528C3704A1DB6, 0x432C95FABE17608D]] ++
  [[0x4B2EF08D3C975A61, 0xD0B7491AE35C2F86, 0x14BDC37EAF680592, 0x6BD814A7950FE23C]] ++
  [[0xD2846FB1A93E50C7, 0x1FD8A374C56B0E92, 0x7B419CE206ADF358, 0x21E74A8DFC90356B]]

/-- The round function of DES. -/
def desF (r k : Nat) : Nat :=
  let x := desPerm 32 desE r ^^^ k
  desPerm 32 desP ((List.range 8).foldl (fun a i =>
    let v := x / 2 ^ (42 - 6 * i) % 64
    let row := v / 32 * 2 + v % 2
    a * 16 + ((desS.getD i []).getD row 0) / 2 ^ (60 - 4 * (v / 2 % 16)) % 16) 0)

/-- The 16 round keys of a 64-bit key. -/
def desKeys (key : Nat) : List Nat :=
  let cd := desPerm 64 desPC1 key
  let rot := fun (x n : Nat) => (x * 2 ^ n) % 2 ^ 28 + x / 2 ^ (28 - n)
  ([1, 1, 2, 2, 2, 2, 2, 2, 1, 2, 2, 2, 2, 2, 2, 1].foldl (fun (a : List Nat × Nat × Nat) n =>
    let c := rot a.2.1 n
    let d := rot a.2.2 n
    (a.1 ++ [desPerm 56 desPC2 (c * 2 ^ 28 + d)], c, d)) ([], cd / 2 ^ 28, cd % 2 ^ 28)).1

/-- DES of a 64-bit block with round keys in the order of use. -/
def desBlock (ks : List Nat) (x : Nat) : Nat :=
  let y := desPerm 64 desIP x
  let lr := ks.foldl (fun (a : Nat × Nat) k => (a.2, a.1 ^^^ desF a.2 k)) (y / 2 ^ 32, y % 2 ^ 32)
  desPerm 64 desFP (lr.2 * 2 ^ 32 + lr.1)

/-- Triple DES with the keys K1, K2, K3 (R372). -/
def tdesEnc (key : List Byte) (x : Nat) : Nat :=
  let k := fun i => desKeys (beNat ((key.drop (8 * i)).take 8))
  desBlock (k 2) (desBlock (k 1).reverse (desBlock (k 0) x))

def tdesDec (key : List Byte) (x : Nat) : Nat :=
  let k := fun i => desKeys (beNat ((key.drop (8 * i)).take 8))
  desBlock (k 0).reverse (desBlock (k 1) (desBlock (k 2).reverse x))

/-! ### Bytes and numbers -/

def toNats (b : List Byte) : List Nat := b.map BitVec.toNat
def toBytes (l : List Nat) : List Byte := l.map (BitVec.ofNat 8)

/-- AES with an expanded key, on 16 bytes. -/
def aesE (rks : List (List Nat)) (b : List Byte) : List Byte := toBytes (aesEnc rks (toNats b))
def aesD (rks : List (List Nat)) (b : List Byte) : List Byte := toBytes (aesDec rks (toNats b))

def xorB (a b : List Byte) : List Byte := List.zipWith (fun x y => x ^^^ y) a b

/-! ### Modes -/

/-- CTR: the counter is the low 32 bits of the block, big-endian, and wraps (R369). -/
def ctrMode (rks : List (List Nat)) (iv data : List Byte) : List Byte :=
  let c0 := beNat (iv.drop 12)
  ((aesChunks 16 data).zipIdx.map (fun e => xorB e.1 (aesE rks (iv.take 12 ++ beBytes 4 ((c0 + e.2) % 2 ^ 32))))).flatten

/-- CBC over a block cipher on `n` bytes. -/
def cbcEnc (n : Nat) (f : List Byte → List Byte) (iv data : List Byte) : List Byte :=
  ((aesChunks n data).foldl (fun (a : List Byte × List Byte) b =>
    let c := f (xorB b a.2)
    (a.1 ++ c, c)) ([], iv)).1

def cbcDec (n : Nat) (f : List Byte → List Byte) (iv data : List Byte) : List Byte :=
  ((aesChunks n data).foldl (fun (a : List Byte × List Byte) b => (a.1 ++ xorB (f b) a.2, b)) ([], iv)).1

/-- The XTS tweak times α: a 128-bit number, byte 0 least significant. -/
def xtsNext (t : Nat) : Nat := if t < 2 ^ 127 then t * 2 else (t * 2 - 2 ^ 128) ^^^ 0x87

/-- XTS over whole blocks: `f` is the data cipher, `t0` the encrypted data-unit number. -/
def xtsMode (f : List Byte → List Byte) (t0 : Nat) (data : List Byte) : List Byte :=
  ((aesChunks 16 data).foldl (fun (a : List Byte × Nat) b =>
    let t := leBytes 16 a.2
    (a.1 ++ xorB (f (xorB b t)) t, xtsNext a.2)) ([], t0)).1

/-- Multiplication in the field of GHASH, blocks as big-endian numbers. -/
def ghMul (x y : Nat) : Nat :=
  ((List.range 128).foldl (fun (a : Nat × Nat) i =>
    (if x / 2 ^ (127 - i) % 2 = 1 then a.1 ^^^ a.2 else a.1,
     if a.2 % 2 = 1 then (a.2 / 2) ^^^ (0xE1 * 2 ^ 120) else a.2 / 2)) (0, y)).1

/-- GHASH of AAD and ciphertext, each padded to whole blocks, and their lengths. -/
def ghash (h : Nat) (aad ct : List Byte) : Nat :=
  let pad := fun (b : List Byte) => b ++ List.replicate ((16 - b.length % 16) % 16) 0
  let lens := beBytes 8 (aad.length * 8) ++ beBytes 8 (ct.length * 8)
  (aesChunks 16 (pad aad ++ pad ct ++ lens)).foldl (fun s b => ghMul (s ^^^ beNat b) h) 0

/-- The 16-byte GCM tag of a ciphertext under a 12-byte IV. -/
def gcmTag (rks : List (List Nat)) (iv aad ct : List Byte) : List Byte :=
  let h := beNat (aesE rks (List.replicate 16 0))
  xorB (beBytes 16 (ghash h aad ct)) (aesE rks (iv ++ beBytes 4 1))

/-- The counter mode inside GCM: it starts at the block after the tag's. -/
def gcmCtr (rks : List (List Nat)) (iv data : List Byte) : List Byte := ctrMode rks (iv ++ beBytes 4 2) data

/-- Doubling of CMAC, big-endian. -/
def cmacDbl (x : Nat) : Nat := if x < 2 ^ 127 then x * 2 else (x * 2 - 2 ^ 128) ^^^ 0x87

/-- AES-CMAC of a message (SP 800-38B). -/
def cmac (key msg : List Byte) : List Byte :=
  let rks := aesRoundKeys (toNats key)
  let k1 := cmacDbl (beNat (aesE rks (List.replicate 16 0)))
  let n := if msg = [] then 1 else (msg.length + 15) / 16
  let head := msg.take ((n - 1) * 16)
  let last := msg.drop ((n - 1) * 16)
  let last := if last.length = 16 then xorB last (beBytes 16 k1)
    else xorB (last ++ [0x80] ++ List.replicate (15 - last.length) 0) (beBytes 16 (cmacDbl k1))
  let x := (aesChunks 16 head).foldl (fun a b => aesE rks (xorB a b)) (List.replicate 16 0)
  aesE rks (xorB x last)

/-- The key derivation of R371: L bits under key K for a purpose, label and PID byte. -/
def kdf (k : List Byte) (purpose : Nat) (label : List Byte) (pid bits : Nat) : List Byte :=
  let m := fun i => leBytes 1 i ++ leBytes 1 purpose ++ label ++ [0] ++ leBytes 1 (pid % 128) ++ beBytes 2 bits
  (((List.range ((bits + 127) / 128)).map (fun i => cmac k (m (i + 1)))).flatten).take (bits / 8)

end Sys2Proof.Machine
end

