-- ==== Sys2Proof/Machine/Ledger.lean ====
section
/-! DEFINITION. The ledger engine: queue pairs, doorbells, fetching, admission, commits, completions and recovery
(R337 to R367). -/

namespace Sys2Proof.Machine

/-! ### Access -/

def Pkg.qp (p : Pkg) (q : Nat) : QueuePair := tblGet (fun _ => QueuePair.reset) p.ledger.qps q
def Pkg.setQp (p : Pkg) (q : Nat) (x : QueuePair) : Pkg :=
  { p with ledger := { p.ledger with qps := tblSet (fun _ => QueuePair.reset) p.ledger.qps q x } }
def Pkg.lcmd (p : Pkg) (k : Nat) : Option LedgerCmd := tblGet (fun _ => none) p.ledger.slots k
def Pkg.setLcmd (p : Pkg) (k : Nat) (c : Option LedgerCmd) : Pkg :=
  { p with ledger := { p.ledger with slots := tblSet (fun _ => none) p.ledger.slots k c } }
def Pkg.lns (p : Pkg) (n : Nat) : Option LedgerNs := tblGet (fun _ => none) p.ledger.ns n
def Pkg.setLns (p : Pkg) (n : Nat) (x : Option LedgerNs) : Pkg :=
  { p with ledger := { p.ledger with ns := tblSet (fun _ => none) p.ledger.ns n x } }

/-- Every command in a slot, with its slot number. -/
def Pkg.lcmds (p : Pkg) : List (Nat × LedgerCmd) :=
  p.ledger.slots.filterMap (fun e => e.2.map (fun c => (e.1, c)))

/-- LESTAT[PHASE] (R366). -/
def Pkg.lePhase (p : Pkg) : Nat := p.rf pgLE 0x200 3 0

/-- State of stack controller LSCn (R367). -/
def Pkg.lsState (p : Pkg) (n : Nat) : Nat := p.rf (pgLSC n) 0x200 3 0

def QueuePair.size (q : QueuePair) : Nat := 2 ^ q.sizeLog

/-- INFLIGHT(q): commands fetched from q and not completed (R344). -/
def Pkg.inflight (p : Pkg) (q : Nat) : Nat := (p.lcmds.filter (fun c => c.2.qp == q)).length

/-- Completions not yet consumed. -/
def QueuePair.unread (q : QueuePair) : Nat := (q.cqt + q.size - q.cqh) % q.size

/-! ### Fields of an entry (R348) -/

def LedgerCmd.quad (c : LedgerCmd) (i : Nat) : Word := c.ent.getD i 0
def LedgerCmd.opc (c : LedgerCmd) : Nat := fld (c.quad 0) 7 0
def LedgerCmd.cid (c : LedgerCmd) : Nat := fld (c.quad 0) 31 16
def LedgerCmd.nsid (c : LedgerCmd) : Nat := fld (c.quad 0) 38 32
def LedgerCmd.sectors (c : LedgerCmd) : Nat := fld (c.quad 0) 55 48 + 1
def LedgerCmd.lba (c : LedgerCmd) : Nat := (c.quad 1).toNat
def LedgerCmd.dptr (c : LedgerCmd) : Nat := (c.quad 2).toNat
def LedgerCmd.cmpptr (c : LedgerCmd) : Nat := (c.quad 3).toNat

/-- The command reads or writes sectors of a namespace. -/
def LedgerCmd.io (c : LedgerCmd) : Bool :=
  let o := c.opc
  o == 1 || o == 2 || o == 3 || o == 5

/-- A pointer of R348: a multiple of 64 with bits 63:48 at 0. -/
def ptrOk (w : Word) : Bool := fld w 63 48 == 0 && fld w 5 0 == 0

/-- A Reserved field, length, alignment or range of R348 to R352 is broken. -/
def LedgerCmd.badField (c : LedgerCmd) : Bool :=
  let q0 := c.quad 0
  let q4 := c.quad 4
  let zero := fun (l : List Nat) => l.all (fun i => c.quad i == 0)
  fld q0 63 56 != 0 || fld q0 47 39 != 0 || fld q0 15 8 != 0 || !ptrOk (c.quad 2) || !ptrOk (c.quad 3) ||
  (c.opc != 5 && c.quad 3 != 0) ||
  (match c.opc with
  | 1 => !zero [4, 5, 6, 7]
  | 2 | 3 | 5 => !zero [4, 5, 6, 7] || decide (16 < c.lba % 16 + c.sectors)
  | 4 => !zero [1, 4, 5, 6, 7] || c.nsid != 0 || fld q0 55 48 != 0
  | 0x81 => !zero [5, 6, 7] || fld q4 63 2 != 0 || decide (2 ≤ fld q4 1 0)
  | 0x82 => !zero [5, 6, 7] || fld q4 63 31 != 0 || fld q4 23 21 != 0 || fld q4 15 10 != 0 || bit q4 7 ||
      fld q4 9 8 == 3 || c.lba == 0 || c.lba % 16 != 0
  | 0x83 => !zero [4, 5, 6, 7]
  | 0x84 => c.quad 7 != 0 || fld q4 63 40 != 0 || fld q4 23 21 != 0 || decide (fld q4 19 16 < 4 ∨ 12 < fld q4 19 16) ||
      decide (216 ≤ fld q4 39 32) || fld (c.quad 5) 11 0 != 0 || fld (c.quad 6) 11 0 != 0 ||
      fld (c.quad 5) 63 48 != 0 || fld (c.quad 6) 63 48 != 0
  | 0x85 | 0x86 => !zero [5, 6, 7] || fld q4 63 8 != 0
  | 0x87 => !zero [5, 6, 7] || fld q4 63 8 != 0 || decide (3 ≤ fld q4 7 0)
  | _ => false)

/-- The opcode is one that the queue pair accepts (R350, R352). -/
def opcOk (q opc : Nat) : Bool := if q = 0 then decide (0x81 ≤ opc ∧ opc ≤ 0x87) else decide (1 ≤ opc ∧ opc ≤ 5)

/-! ### Ending commands and halting queue pairs -/

/-- Rewrite a command in its slot. -/
def Pkg.putLcmd (p : Pkg) (k : Nat) (c : LedgerCmd) : Pkg := p.setLcmd k (some c)

/-- A command ends with a STATUS and RESULT; its completion is still to be posted. MEDIA_ERROR sets ERRSTAT[MEDIA]. -/
def Pkg.endLcmd (p : Pkg) (k : Nat) (c : LedgerCmd) (st res : Nat) : Pkg :=
  let p := p.putLcmd k { c with fin := some (st, res), adm := none, buf := none, mirror := none }
  if st = 0x08 then p.setEvent pgLE 21 3 else p

/-- A queue pair halts with a cause of R362. -/
def Pkg.haltQp (p : Pkg) (q cause : Nat) : Pkg :=
  let x := p.qp q
  let p := p.setQp q { x with st := 3, cause := cause }
  match cause with
  | 1 => p.setEvent pgLE 16 2 { Det.none with pids := [x.pid], agent := 0x10 }
  | 2 => p.setEvent pgLE 17 3 { Det.none with pids := [x.pid], agent := 0x10 }
  | 4 => p.setEvent pgLE 20 3 { Det.none with pids := [x.pid], agent := 0x10 }
  | _ => p

/-! ### Doorbells (R343) -/

/-- The doorbell of queue pair q may be written by this requester: the service host, M, or a core of its PID. -/
def Pkg.bellOk (p : Pkg) (who : Requester) (pid : Nat) : Bool :=
  match who with
  | .host | .steward => true
  | .core lc => fld (p.core lc.val).psw 17 16 == 2 || p.lcpid lc.val == pid
  | _ => false

/-- A doorbell write: refused with DBDENY, discarded with DBBAD, or accepted. -/
def Pkg.doorbell (p : Pkg) (who : Requester) (q v : Nat) (tail : Bool) : Pkg :=
  let x := p.qp q
  let v := v % 4096
  let p := { p with pw := { p.pw with doorbell := true } }
  if !p.bellOk who x.pid then p.setEvent pgLE 18 3 { Det.none with agent := 0x10 }
  else if p.lePhase = 3 then p
  else if x.st ≠ 1 ∨ x.size ≤ v then p.setEvent pgLE 19 3 { Det.none with agent := 0x10 }
  else if tail then
    let p := p.setQp q { x with sqt := v }
    if v = x.sqt then p else p.wakeLatch 4
  else if x.unread < (v + x.size - x.cqh) % x.size then p.setEvent pgLE 19 3 { Det.none with agent := 0x10 }
  else p.setQp q { x with cqh := v }

/-- A doorbell write as a row: one that is refused, or whose page the requester cannot reach, gets an error response (R23). -/
def Pkg.doorbellRow (p : Pkg) (who : Requester) (q v : Nat) (tail : Bool) : Pkg :=
  let pg := pgLEDB (q / 64)
  let off := 0xC00 + 16 * (q % 64) + (if tail then 0 else 8)
  if !p.reaches who pg then p.writeRefused who pg off
  else
    let r := p.doorbell who q v tail
    if p.bellOk who (p.qp q).pid then r else r.writeRefused who pg off

/-- SQT_DOORBELL (R343). -/
def execSqtDoorbell (who : Requester) (q : Fin 256) (v : Word) (s : State) : Host.Outcome State Fault Refusal :=
  s.upd (fun p => p.doorbellRow who q.val v.toNat true)

/-- CQH_DOORBELL (R343). -/
def execCqhDoorbell (who : Requester) (q : Fin 256) (v : Word) (s : State) : Host.Outcome State Fault Refusal :=
  s.upd (fun p => p.doorbellRow who q.val v.toNat false)

/-! ### Fetching (R344, R364) -/

/-- The modes in which a queue pair is fetched from (R364). -/
def fetchMode (md : Mode) (q : Nat) : Bool :=
  match md with
  | .run | .degraded => true
  | .load | .test => q == 0
  | _ => false

/-- The queue pair may be fetched from. A Flush stops its queue pair until its completion is posted (R351). -/
def Pkg.fetchable (p : Pkg) (md : Mode) (q : Nat) : Bool :=
  let x := p.qp q
  x.st == 1 && x.sqt != x.sqh && fetchMode md q && decide (p.inflight q + x.unread < x.size - 1) &&
  !(q != 0 && p.lcmds.any (fun c => c.2.qp == q && c.2.opc == 4))

/-- The queue pair that the engine turns to: PRIO 1 before PRIO 0, round robin within a class. -/
def Pkg.nextQp (p : Pkg) (md : Mode) : Option Nat :=
  let after := fun (last : Nat) (pr : Bool) =>
    ((List.range 256).map (fun i => (last + 1 + i) % 256)).find? (fun q => (p.qp q).prio == pr && p.fetchable md q)
  match after p.ledger.last1 true with
  | some q => some q
  | none => after p.ledger.last0 false

/-- The engine works: adopted, in RECOVERY or SERVICE. -/
def Pkg.leRuns (p : Pkg) : Bool := !p.loadHold pgLE && (p.lePhase == 1 || p.lePhase == 2)

/-- Eight quads of an entry. -/
def entryQuads (b : List Byte) : List Word :=
  (List.range 8).map (fun i => BitVec.ofNat 64 (leNat ((b.drop (8 * i)).take 8)))

/-- A delete of the namespace is under way: new commands that name it find it gone (R352). -/
def Pkg.nsDying (p : Pkg) (n : Nat) : Bool :=
  p.lcmds.any (fun c => c.2.opc == 0x83 && c.2.nsid == n && c.2.fin.isNone)

/-- The status with which a freshly fetched command ends at once, if it does: its opcode, its fields, its namespace
(R340, R350, R352). -/
def Pkg.fetchStatus (p : Pkg) (q : Nat) (c : LedgerCmd) : Option Nat :=
  if !opcOk q c.opc then some 0x01
  else if c.badField then some 0x02
  else if c.io ∨ c.opc = 0x83 ∨ (c.opc = 0x81 ∧ fld (c.quad 4) 1 0 = 1) then
    match p.lns c.nsid with
    | none => some 0x03
    | some n => if p.nsDying c.nsid ∨ (c.io ∧ n.pid ≠ (p.qp q).pid) then some 0x03 else none
  else none

/-- Take an entry into a slot. -/
def Pkg.takeEntry (p : Pkg) (q k : Nat) (b : List Byte) : Pkg :=
  let x := p.qp q
  let head := (x.sqh + 1) % x.size
  let c : LedgerCmd := { qp := q, ord := p.ledger.ord, ent := entryQuads b, sqhead := head, frame := p.frameNum, fin := none,
                         buf := none, adm := none, unit := false, made := 0, mirror := none }
  let st := p.fetchStatus q c
  let p := p.setQp q { x with sqh := head }
  let l := p.ledger
  let p := { p with ledger := { l with ord := l.ord + 1, last0 := if x.prio then l.last0 else q,
                                       last1 := if x.prio then q else l.last1 } }
  match st with
  | some z => p.endLcmd k c z 0
  | none => p.putLcmd k c

/-- ENTRY_FETCH (R344): one IoRd of the entry's line. A fetch that fails halts the queue pair with cause RING. -/
def execEntryFetch (s : State) : Host.Outcome State Fault Refusal :=
  s.upd (fun p =>
    if !p.leRuns || s.mode.quiescing then p
    else
      match p.nextQp s.mode.mode, (List.range 4096).find? (fun k => (p.lcmd k).isNone) with
      | some q, some k =>
        let x := p.qp q
        match p.devRead 0x10 x.pid (x.sq + 64 * x.sqh) 64 with
        | (.ok b false, p) => p.takeEntry q k b
        | (.waiting, _) => p
        | (_, p) => p.haltQp q 2
      | _, _ => p)

/-! ### Sectors (R338, R339) -/

def LedgerNs.sector (n : LedgerNs) (l : Nat) : Option LSector := tblGet (fun _ => none) n.sectors l

/-- Sectors of a stack that hold data, committed or admitted. -/
def Pkg.usedOn (p : Pkg) (st : Nat) : Nat :=
  let held := (p.ledger.ns.map (fun e => match e.2 with
    | some n => (n.sectors.filter (fun x => match x.2 with | some y => y.stack == st | none => false)).length
    | none => 0)).foldl (· + ·) 0
  let adm := ((p.lcmds.filter (fun c => c.2.adm == some st)).map (fun c => c.2.sectors - c.2.made)).foldl (· + ·) 0
  held + adm

/-- Free sectors of a stack of 2,097,152 (R337). -/
def Pkg.freeOn (p : Pkg) (st : Nat) : Nat := 2097152 - p.usedOn st

/-- LESTAT[FREE]. -/
def Pkg.freeSectors (p : Pkg) : Nat := p.freeOn 0 + p.freeOn 1

/-- Read one sector: its bytes, none for MEDIA_ERROR. A sector never written reads as zeros; a corrected read counts. -/
def Pkg.readSector (p : Pkg) (nsid l : Nat) : Option (List Byte) × Pkg :=
  match p.lns nsid with
  | none => (none, p)
  | some n =>
    match n.sector l with
    | none => (some (List.replicate 4096 0), p)
    | some x =>
      if x.bad ∨ p.lsState x.stack = 3 then (none, p)
      else
        let pg := pgLSC x.stack
        let r := Config.sectorRead x.stack p.fresh
        let p := { p with fresh := p.fresh + 1 }
        if r = 0 then (some x.bytes, p)
        else if r = 1 then (some x.bytes, (p.addRf pg 0x208 63 0 1).setEvent pg 16 1)
        else
          let p := (p.addRf pg 0x210 63 0 1).setEvent pg 17 3
          (none, p.setLns nsid (some { n with sectors := tblSet (fun _ => none) n.sectors l (some { x with bad := true }) }))

/-- Read a range of sectors, stopping at the first that cannot be read. -/
def Pkg.readSectors (p : Pkg) (nsid lba cnt : Nat) : Option (List Byte) × Pkg :=
  (List.range cnt).foldl (fun (a : Option (List Byte) × Pkg) i =>
    match a.1 with
    | none => a
    | some b =>
      match a.2.readSector nsid (lba + i) with
      | (some x, p) => (some (b ++ x), p)
      | (none, p) => (none, p)) (some [], p)

/-- An earlier command that touches a common sector has neither committed nor ended (R351). -/
def Pkg.lcmdBlocked (p : Pkg) (c : LedgerCmd) : Bool :=
  p.lcmds.any (fun e => decide (e.2.ord < c.ord) && e.2.io && e.2.nsid == c.nsid && e.2.fin.isNone &&
    e.2.mirror.isNone && decide (e.2.lba < c.lba + c.sectors ∧ c.lba < e.2.lba + e.2.sectors))

/-- The command in a slot, if the engine may work on it: it has the opcode, has not ended, its queue pair is not halted, no
earlier command of its sectors is in its way and the keys it needs are formed. -/
def Pkg.lcmdReady (p : Pkg) (k opc : Nat) : Option LedgerCmd :=
  match p.lcmd k with
  | none => none
  | some c =>
    if c.opc = opc ∧ c.fin.isNone ∧ p.leRuns ∧ (p.qp c.qp).st ≠ 3 ∧ (c.io → p.lcmdBlocked c = false ∧ bit (p.reg pgKEYV 0x200) 1)
    then some c else none

/-- The range of an I/O command lies in its namespace, and a write may write it: the status it ends with otherwise. -/
def LedgerCmd.refusal (c : LedgerCmd) (n : LedgerNs) (wr : Bool) : Option Nat :=
  if n.cap < c.lba + c.sectors then some 0x04
  else if wr ∧ n.mode = 2 then some 0x05
  else if c.opc = 3 ∧ n.mode ≠ 1 then some 0x0B
  else none

/-- HCE1 holds the key of a namespace: its slot becomes the most recently used, taking a free one or that of the least
recently used (R375). -/
def Pkg.useNsKey (p : Pkg) (n : Nat) : Pkg :=
  let l := p.ce.nsKeys
  let slot := match l.find? (fun x => x.2 == n) with
    | some x => x.1
    | none => ((List.range 16).find? (fun k => !l.any (fun x => x.1 == k))).getD ((l.getLastD (0, 0)).1)
  { p with ce := { p.ce with nsKeys := (slot, n) :: l.filter (fun x => x.1 != slot) } }

/-- Carry on with an I/O command in its namespace, or end it. -/
def Pkg.withNs (p : Pkg) (k : Nat) (c : LedgerCmd) (wr : Bool) (f : Pkg → LedgerNs → Pkg) : Pkg :=
  match p.lns c.nsid with
  | none => p.endLcmd k c 0x03 0
  | some n =>
    match c.refusal n wr with
    | some st => p.endLcmd k c st 0
    | none => f (p.useNsKey c.nsid) n

/-- A data buffer could not be used (R354, R362): poison halts the queue pair, anything else is XLATE. -/
def Pkg.bufFail (p : Pkg) (k : Nat) (c : LedgerCmd) (poison : Bool) : Pkg :=
  if poison then (p.endLcmd k c 0x07 0).haltQp c.qp 1 else p.endLcmd k c 0x06 0

/-- Write a buffer of the command's queue pair and end the command. -/
def Pkg.giveBuf (p : Pkg) (k : Nat) (c : LedgerCmd) (b : List Byte) : Pkg :=
  match p.devWrite 0x10 (p.qp c.qp).pid c.dptr b with
  | (.ok _ _, p) => p.endLcmd k c 0 0
  | (.waiting, _) => p
  | (_, p) => p.bufFail k c false

/-- Read a buffer of the command's queue pair; the continuation takes its bytes. -/
def Pkg.takeBuf (p : Pkg) (k : Nat) (c : LedgerCmd) (addr len : Nat) (f : Pkg → List Byte → Pkg) : Pkg :=
  match p.devRead 0x10 (p.qp c.qp).pid addr len with
  | (.ok b poison, p') => if poison then p'.bufFail k c true else f p' b
  | (.waiting, _) => p
  | (_, p') => p'.bufFail k c false

/-- LEDGER_READ (R350). -/
def execLedgerRead (slot : Fin 4096) (s : State) : Host.Outcome State Fault Refusal :=
  s.upd (fun p =>
    match p.lcmdReady slot.val 1 with
    | none => p
    | some c => p.withNs slot.val c false (fun p _ =>
        match p.readSectors c.nsid c.lba c.sectors with
        | (some b, p) => p.giveBuf slot.val c b
        | (none, p) => p.endLcmd slot.val c 0x08 0))

/-- The data of a write is read into the engine's buffer (R355). -/
def Pkg.bufferWrite (p : Pkg) (k : Nat) (c : LedgerCmd) : Pkg :=
  if c.buf.isSome then p
  else p.withNs k c true (fun p _ =>
    p.takeBuf k c c.dptr (c.sectors * 4096) (fun p b => p.putLcmd k { c with buf := some b }))

/-- WRITE (R350): the data is buffered; it commits when it has been admitted. -/
def execWrite (slot : Fin 4096) (s : State) : Host.Outcome State Fault Refusal :=
  s.upd (fun p =>
    match p.lcmdReady slot.val 2 with
    | none => p
    | some c => p.bufferWrite slot.val c)

/-- WRITE_MIRRORED (R360): the data is buffered; the sectors go to the partner when they commit here. -/
def execWriteMirrored (slot : Fin 4096) (s : State) : Host.Outcome State Fault Refusal :=
  s.upd (fun p =>
    match p.lcmdReady slot.val 3 with
    | none => p
    | some c => p.bufferWrite slot.val c)

/-- FLUSH (R350, R351). -/
def execFlush (slot : Fin 4096) (s : State) : Host.Outcome State Fault Refusal :=
  s.upd (fun p =>
    match p.lcmdReady slot.val 4 with
    | none => p
    | some c =>
      if p.lcmds.any (fun e => e.2.qp == c.qp && decide (e.2.ord < c.ord)) then p else p.endLcmd slot.val c 0 0)

/-- The offset of the first difference of two byte lists. -/
def ledgerDiff : List Byte → List Byte → Nat → Option Nat
  | a :: s, b :: t, i => if a = b then ledgerDiff s t (i + 1) else some i
  | _, _, _ => none

/-- COMPARE_AND_WRITE (R350): nothing is written unless the sectors equal the compare data. -/
def execCompareAndWrite (slot : Fin 4096) (s : State) : Host.Outcome State Fault Refusal :=
  s.upd (fun p =>
    match p.lcmdReady slot.val 5 with
    | none => p
    | some c =>
      if c.buf.isSome then p
      else p.withNs slot.val c true (fun p _ =>
        p.takeBuf slot.val c c.cmpptr (c.sectors * 4096) (fun p cmp =>
          match p.readSectors c.nsid c.lba c.sectors with
          | (none, p) => p.endLcmd slot.val c 0x08 0
          | (some old, p) =>
            match ledgerDiff old cmp 0 with
            | some i => p.endLcmd slot.val c 0x09 i
            | none => p.bufferWrite slot.val c)))

/-! ### Admission and commit (R355, R356) -/

/-- The hold-up store is armed (R356). -/
def Pkg.holdup (p : Pkg) (md : Mode) : Bool :=
  p.lePhase == 2 && (match md with | .run | .degraded | .drizzle | .quiesce => true | _ => false)

/-- Bytes admitted to a stack and not yet committed. -/
def Pkg.admittedOn (p : Pkg) (st : Nat) : Nat :=
  ((p.lcmds.filter (fun c => c.2.adm == some st)).map (fun c => (c.2.sectors - c.2.made) * 4096)).foldl (· + ·) 0

/-- The admission limit of a stack: 64 KiB, 16 KiB while it is hot (R355, R432). -/
def Pkg.admLimit (p : Pkg) (st : Nat) : Nat := if p.hot 5 st then 16384 else 65536

/-- The stack takes a write of `n` sectors now. -/
def Pkg.admits (p : Pkg) (st n : Nat) : Bool :=
  p.lsState st == 2 && !p.hot 6 st && decide (n ≤ p.freeOn st) &&
  (p.admittedOn st == 0 || decide (p.admittedOn st + n * 4096 ≤ p.admLimit st))

/-- The `n` lowest physical sectors of a stack that hold no current data: a write goes there (R338; log entry 145). -/
def Pkg.freePhys (p : Pkg) (st n : Nat) : List Nat :=
  let used := p.ledger.ns.flatMap (fun e => match e.2 with
    | some x => x.sectors.filterMap (fun y => match y.2 with | some z => if z.stack = st then some z.phys else none | none => none)
    | none => [])
  ((List.range (used.length + n)).filter (fun k => !used.contains k)).take n

/-- Put new sectors into the map of a namespace and take the next commit sequence (R355). -/
def Pkg.commit (p : Pkg) (nsid lba st : Nat) (bytes : List Byte) : Nat × Pkg :=
  match p.lns nsid with
  | none => (0, p)
  | some n =>
    let seq := (p.reg pgLE 0x218).toNat + 1
    let secs := ((p.freePhys st (bytes.length / 4096)).zipIdx).foldl (fun (t : Tbl (Option LSector)) e =>
      tblSet (fun _ => none) t (lba + e.2)
        (some { bytes := (bytes.drop (e.2 * 4096)).take 4096, stack := st, phys := e.1, bad := false })) n.sectors
    let p := p.setLns nsid (some { n with sectors := secs, seq := max n.seq seq })
    let p := { p with ledger := { p.ledger with seqMax := seq } }
    let p := (p.evCount none 9 0 (some n.pid) 4 1).evCount none 10 0 (some n.pid) 4 (bytes.length / 4096)
    (seq, p.setReg pgLE 0x218 (BitVec.ofNat 64 seq))

/-- A write has committed: it ends, or, mirrored, its sectors go to the partner with their sequence (R360). -/
def Pkg.committed (p : Pkg) (k : Nat) (c : LedgerCmd) (seq : Nat) : Pkg :=
  if c.opc = 3 then
    let p := p.putLcmd k { c with adm := none, mirror := some (seq, 0) }
    let p := match p.lns c.nsid with
      | some n => p.chainTo n.peer (.mirror k c.nsid n.peerNs c.lba seq (c.buf.getD []))
      | none => p
    p.reply k 0 (leBytes 8 seq ++ c.buf.getD []) false
  else p.endLcmd k c 0 seq

/-- An admitted write goes on: a UNIT write commits whole, a SECTOR write its next sector (R356). -/
def Pkg.commitStep (p : Pkg) (k : Nat) (c : LedgerCmd) (st : Nat) : Pkg :=
  let b := c.buf.getD []
  if c.unit then
    let (seq, p) := p.commit c.nsid c.lba st b
    p.committed k c seq
  else
    let (seq, p) := p.commit c.nsid (c.lba + c.made) st ((b.drop (c.made * 4096)).take 4096)
    if c.made + 1 = c.sectors then p.committed k c seq else p.putLcmd k { c with made := c.made + 1 }

/-- WRITE_ADMISSION (R355, R356): a buffered write is admitted to the stack that the engine chose, and fixes its class; an
admitted one writes on and commits (log entry 21). With no free sectors left it ends with CAPACITY. -/
def execWriteAdmission (slot : Fin 4096) (stack : Fin 2) (s : State) : Host.Outcome State Fault Refusal :=
  s.upd (fun p =>
    match p.lcmd slot.val with
    | none => p
    | some c =>
      if !p.leRuns ∨ c.fin.isSome ∨ c.buf.isNone ∨ c.mirror.isSome then p
      else
        match c.adm with
        | some st => p.commitStep slot.val c st
        | none =>
          if (p.qp c.qp).st = 3 then p
          else if p.admits stack.val c.sectors then
            p.putLcmd slot.val { c with adm := some stack.val,
                                        unit := p.lePhase == 2 && (s.mode.mode == .run || s.mode.mode == .degraded) }
          else if [0, 1].all (fun st => p.lsState st != 2 || decide (p.freeOn st < c.sectors)) then
            p.endLcmd slot.val c 0x0D 0
          else p)

/-! ### Completions (R346, R349) -/

/-- The 16 bytes of a completion entry. -/
def cqEntry (c : LedgerCmd) (phase : Bool) (st res : Nat) : List Byte :=
  leBytes 8 (word [(48, phase.toNat), (40, st), (32, c.qp), (16, c.sqhead), (0, c.cid)]).toNat ++ leBytes 8 res

/-- The completion of an ended command may be posted: its queue pair completes, or halted because of this very command's
poison (R362). -/
def Pkg.mayPost (p : Pkg) (c : LedgerCmd) (st : Nat) : Bool :=
  let x := p.qp c.qp
  x.st == 1 || x.st == 2 || (x.st == 3 && x.cause == 1 && st == 0x07)

/-- Keep a completion that is no SUCCESS for Get-Log; RESULT holds the fetch frame (R353). -/
def Pkg.logFail (p : Pkg) (c : LedgerCmd) (phase : Bool) (st : Nat) : Pkg :=
  if st = 0 then p
  else { p with ledger := { p.ledger with fails := (cqEntry c phase st c.frame :: p.ledger.fails).take 64 } }

/-- A queue pair that is being deleted is gone once nothing of it is in a slot, or it cannot complete (R364). -/
def Pkg.reapQp (p : Pkg) (q : Nat) : Pkg :=
  let x := p.qp q
  if !x.dying || !(p.inflight q == 0 || x.st == 3) then p
  else
    let p := { p with ledger := { p.ledger with slots := p.ledger.slots.filter (fun e =>
      match e.2 with | some c => c.qp != q | none => false) } }
    p.setQp q QueuePair.reset

/-- Post the completion of the command in slot k (R346). -/
def Pkg.postLcmd (p : Pkg) (k : Nat) (c : LedgerCmd) (st res : Nat) : Pkg :=
  let x := p.qp c.qp
  match p.devWrite 0x10 x.pid (x.cq + 16 * x.cqt) (cqEntry c x.phase st res) with
  | (.waiting, _) => p
  | (.ok _ _, p) =>
    let x := p.qp c.qp
    let nxt := (x.cqt + 1) % x.size
    let p := p.setQp c.qp { x with cqt := nxt, phase := if nxt = 0 then !x.phase else x.phase }
    let p := (p.setLcmd k none).logFail c x.phase st
    if x.inten then (p.notify x.lc x.pid x.intid).2 else p
  | (_, p) => (p.setLcmd k none).haltQp c.qp 2

/-- COMPLETION_POSTING (R346). -/
def execCompletionPosting (slot : Fin 4096) (s : State) : Host.Outcome State Fault Refusal :=
  s.upd (fun p =>
    match p.lcmd slot.val with
    | none => p
    | some c =>
      match c.fin with
      | none => p
      | some (st, res) => if p.lePhase ≠ 0 ∧ p.mayPost c st then (p.postLcmd slot.val c st res).reapQp c.qp else p)

/-! ### Administrative commands (R352, R353) -/

/-- A structure of 4 KiB. -/
def pad4k (b : List Byte) : List Byte := b ++ List.replicate (4096 - b.length) 0

/-- Identify with CNS 0 (R353). -/
def Pkg.identEngine (p : Pkg) : List Byte :=
  let mask := (p.ledger.ns.filter (fun e => e.2.isSome)).foldl (fun (a : Nat) e => a + 2 ^ e.1) 0
  pad4k (leBytes 8 (blkver .le).toNat ++ leBytes 8 4194304 ++ leBytes 8 p.freeSectors ++
    leBytes 8 (p.reg pgLE 0x218).toNat ++ leBytes 16 mask ++ leBytes 2 256 ++ leBytes 1 16)

/-- Identify with CNS 1 (R353). -/
def identNs (n : LedgerNs) : List Byte :=
  pad4k (leBytes 8 n.cap ++ leBytes 1 n.pid ++ leBytes 1 n.mode ++ leBytes 1 n.peer ++ leBytes 1 n.peerNs ++
    List.replicate 4 0 ++ n.label ++ leBytes 8 n.seq)

/-- IDENTIFY (R353). -/
def execIdentify (slot : Fin 4096) (s : State) : Host.Outcome State Fault Refusal :=
  s.upd (fun p =>
    match p.lcmdReady slot.val 0x81 with
    | none => p
    | some c =>
      if fld (c.quad 4) 1 0 = 0 then p.giveBuf slot.val c p.identEngine
      else
        match p.lns c.nsid with
        | some n => p.giveBuf slot.val c (identNs n)
        | none => p.endLcmd slot.val c 0x03 0)

/-- CREATE_NAMESPACE (R352). On an existing one with the same PID, label and capacity it replaces the mirror fields. -/
def execCreateNamespace (slot : Fin 4096) (s : State) : Host.Outcome State Fault Refusal :=
  s.upd (fun p =>
    match p.lcmdReady slot.val 0x82 with
    | none => p
    | some c => p.takeBuf slot.val c c.dptr 32 (fun p label =>
        let q := c.quad 4
        match p.lns c.nsid with
        | some n =>
          if n.pid = fld q 6 0 ∧ n.label = label ∧ n.cap = c.lba ∧ p.nsDying c.nsid = false then
            (p.setLns c.nsid (some { n with mode := fld q 9 8, peer := fld q 20 16, peerNs := fld q 30 24 })).endLcmd
              slot.val c 0 0
          else p.endLcmd slot.val c 0x0E 0
        | none =>
          if p.freeSectors < c.lba then p.endLcmd slot.val c 0x0D 0
          else
            (p.setLns c.nsid (some { pid := fld q 6 0, cap := c.lba, label := label, mode := fld q 9 8, peer := fld q 20 16,
                                     peerNs := fld q 30 24, seq := 0, applied := [], sectors := [] })).endLcmd slot.val c 0 0))

/-- DELETE_NAMESPACE (R352): completes when the commands in flight that name it have completed. -/
def execDeleteNamespace (slot : Fin 4096) (s : State) : Host.Outcome State Fault Refusal :=
  s.upd (fun p =>
    match p.lcmdReady slot.val 0x83 with
    | none => p
    | some c =>
      if p.lcmds.any (fun e => e.2.io && e.2.nsid == c.nsid && decide (e.2.ord < c.ord)) then p
      else
        let p := { p with ce := { p.ce with nsKeys := p.ce.nsKeys.filter (fun x => x.2 != c.nsid) } }
        (p.setLns c.nsid none).endLcmd slot.val c 0 0)

/-- CREATE_QP (R352). -/
def execCreateQp (slot : Fin 4096) (s : State) : Host.Outcome State Fault Refusal :=
  s.upd (fun p =>
    match p.lcmdReady slot.val 0x84 with
    | none => p
    | some c =>
      let w := c.quad 4
      let q := fld w 7 0
      if q = 0 ∨ (p.qp q).st ≠ 0 then p.endLcmd slot.val c 0x0F 0
      else
        (p.setQp q { QueuePair.reset with
          st := 1, pid := fld w 14 8, prio := bit w 15, sizeLog := fld w 19 16, inten := bit w 20, intid := fld w 31 24,
          lc := fld w 39 32, sq := (c.quad 5).toNat, cq := (c.quad 6).toNat }).endLcmd slot.val c 0 0)

/-- Step 1 and 2 of R361: the queue pair is RESETTING, and its commands that are not admitted end. -/
def Pkg.startReset (p : Pkg) (q : Nat) : Pkg :=
  let p := p.setQp q { p.qp q with st := 2, cause := 0 }
  (p.lcmds.filter (fun c => c.2.qp == q && c.2.adm.isNone && c.2.fin.isNone && c.2.mirror.isNone)).foldl
    (fun p c => p.endLcmd c.1 c.2 0x0C 0) p

/-- Step 3 of R361: the indexes return to 0 and the phase to 1; the queue pair is ACTIVE, or DISABLED when deleted. -/
def Pkg.endReset (p : Pkg) (q : Nat) (del : Bool) : Pkg :=
  if del then p.setQp q QueuePair.reset
  else p.setQp q { p.qp q with st := 1, sqt := 0, sqh := 0, cqt := 0, cqh := 0, phase := true, cause := 0 }

/-- Reset-QP and Delete-QP: started by their first step, complete once every command fetched from the queue pair has been
posted. -/
def Pkg.resetQp (p : Pkg) (k opc : Nat) (del : Bool) : Pkg :=
  match p.lcmdReady k opc with
  | none => p
  | some c =>
    let q := fld (c.quad 4) 7 0
    let x := p.qp q
    if q = 0 ∨ x.st = 0 then p.endLcmd k c 0x0F 0
    else if p.dcs x.pid then p.endLcmd k c 0x10 0
    else
      let p := if x.st = 2 then p else p.startReset q
      if p.inflight q = 0 then (p.endReset q del).endLcmd k c 0 0 else p

/-- DELETE_QP (R352). -/
def execDeleteQp (slot : Fin 4096) (s : State) : Host.Outcome State Fault Refusal :=
  s.upd (fun p => p.resetQp slot.val 0x85 true)

/-- RESET_QP (R361). -/
def execResetQp (slot : Fin 4096) (s : State) : Host.Outcome State Fault Refusal :=
  s.upd (fun p => p.resetQp slot.val 0x86 false)

/-- The log that Get-Log writes (R353). -/
def Pkg.ledgerLog (p : Pkg) (id : Nat) : List Byte :=
  pad4k (match id with
    | 0 => p.ledger.fails.flatten
    | 1 => leBytes 8 (p.reg pgLE 0x220).toNat ++ leBytes 8 p.ledger.pf.2.2
    | _ => [0, 1].flatMap (fun n => [0x200, 0x208, 0x210].flatMap (fun o => leBytes 8 (p.reg (pgLSC n) o).toNat)))

/-- GET_LOG (R353). -/
def execGetLog (slot : Fin 4096) (s : State) : Host.Outcome State Fault Refusal :=
  s.upd (fun p =>
    match p.lcmdReady slot.val 0x87 with
    | none => p
    | some c => p.giveBuf slot.val c (p.ledgerLog (fld (c.quad 4) 7 0)))

/-! ### Power failure and recovery (R357, R358) -/

/-- The hold-up store's work on one admitted write: it commits whole when armed, else only the sector in progress of a
SECTOR write. -/
def Pkg.holdupWrite (p : Pkg) (armed : Bool) (k : Nat) (c : LedgerCmd) (st : Nat) : Bool × Pkg :=
  let b := c.buf.getD []
  if c.unit then
    if armed then (true, (p.commit c.nsid c.lba st b).2.setLcmd k none) else (false, p)
  else if armed then
    let p := (List.range (c.sectors - c.made)).foldl (fun p i =>
      (p.commit c.nsid (c.lba + c.made + i) st ((b.drop ((c.made + i) * 4096)).take 4096)).2) p
    (true, p.setLcmd k none)
  else
    let p := (p.commit c.nsid (c.lba + c.made) st ((b.drop (c.made * 4096)).take 4096)).2
    if c.made + 1 = c.sectors then (true, p.setLcmd k none) else (false, p.putLcmd k { c with made := c.made + 1 })

/-- Steps 1 and 2 of R357: PF_HOLD, commands not admitted are dropped, admitted writes finish from the hold-up store. -/
def Pkg.pfHold (p : Pkg) (md : Mode) : Pkg :=
  if p.lePhase = 0 ∨ p.lePhase = 3 then p
  else
    let armed := p.holdup md
    let p := p.setRf pgLE 0x200 3 0 3
    let drop := p.lcmds.filter (fun c => c.2.adm.isNone && c.2.fin.isNone && c.2.mirror.isNone)
    let p := drop.foldl (fun p c => p.setLcmd c.1 none) p
    let todo := p.lcmds.filterMap (fun c => c.2.adm.map (fun st => (c.1, c.2, st)))
    let r := todo.foldl (fun (a : Nat × Pkg) c =>
      let x := a.2.holdupWrite armed c.1 c.2.1 c.2.2
      (a.1 + x.1.toNat, x.2)) (0, p)
    { r.2 with ledger := { r.2.ledger with pf := (r.1, 0, r.2.frameNum), pfHeld := true } }

/-- Step 3 of R357: writes without their record are rolled back, and every slot is empty. -/
def Pkg.pfStop (p : Pkg) : Pkg :=
  if p.lePhase = 3 then
    let left := (p.lcmds.filter (fun c => c.2.adm.isSome)).length
    { p with ledger := { p.ledger with pf := (p.ledger.pf.1, p.ledger.pf.2.1 + left, p.ledger.pf.2.2), slots := [] } }
  else p

/-- POWER_FAIL (R357): PWRFAIL_N falls. -/
def execPowerFail (s : State) : Host.Outcome State Fault Refusal :=
  s.upd (fun p =>
    let p := { p with pw := { p.pw with pwrFail := true } }
    if p.pw.island then p.pfHold s.mode.mode else p)

/-- HOLDUP_STOP (R357 step 3). -/
def execHoldupStop (s : State) : Host.Outcome State Fault Refusal := s.upd (fun p => p.pfStop)

/-- RECOVERY (R358): at a power-up, when both stack controllers are ACTIVE or FAILED. -/
def execRecovery (s : State) : Host.Outcome State Fault Refusal :=
  s.upd (fun p =>
    let up := fun n => p.lsState n == 2 || p.lsState n == 3
    if p.pw.hubMain ∧ p.lePhase = 0 ∧ p.loadHold pgLE = false ∧ up 0 ∧ up 1 then
      let l := p.ledger
      let seq := if l.seqMax = 0 then 0 else l.seqMax + 2 ^ 32
      let p := p.setReg pgLE 0x218 (BitVec.ofNat 64 seq)
      let p := p.setReg pgLE 0x220 (word [(16, min 0xFFFF l.pf.2.1), (0, min 0xFFFF l.pf.1)])
      let p := if l.pfHeld then p.setEvent pgLE 23 1 else p
      let p := { p with ledger := { p.ledger with pfHeld := false } }
      p.setRf pgLE 0x200 3 0 1
    else p)

/-- RECOVERY_COMPLETE (R358, R373): SERVICE, once FORM has completed. -/
def execRecoveryComplete (s : State) : Host.Outcome State Fault Refusal :=
  s.upd (fun p => if p.lePhase = 1 ∧ bit (p.reg pgKEYV 0x200) 1 then p.setRf pgLE 0x200 3 0 2 else p)

/-- A ledger stack fails (R339): what was admitted to it is no longer admitted. -/
def Pkg.stackFail (p : Pkg) (ls : Nat) : Pkg :=
  if p.pw.hubMain ∧ p.lsState ls ≠ 3 then
    let p := (p.setRf (pgLSC ls) 0x200 3 0 3).setEvent (pgLSC ls) 18 3 { Det.none with detail := p.reg (pgLSC ls) 0x200 }
    (p.lcmds.filter (fun c => c.2.adm == some ls)).foldl (fun p c => p.putLcmd c.1 { c.2 with adm := none }) p
  else p

/-- STACK_FAILURE (R339). -/
def execStackFailure (ls : Fin 2) (s : State) : Host.Outcome State Fault Refusal := s.upd (fun p => p.stackFail ls.val)

/-! ### Mirroring (R359, R360, R472) -/

/-- MIRTMO: 0 selects 4 (R366). -/
def Pkg.mirTmo (p : Pkg) : Nat := let t := p.cf pgLE 0x418 7 0; if t = 0 then 4 else t

/-- The command ends with MIRROR_FAIL. -/
def Pkg.mirrorFail (p : Pkg) (k : Nat) (c : LedgerCmd) : Pkg :=
  ((p.addRf pgLE 0x228 63 0 1).setEvent pgLE 22 3).endLcmd k c 0x0A 0

/-- MACK (R360, R463): the partner of the command's namespace has committed the sectors, or refused. -/
def execMack (src dst : Fin 32) (gen : Byte) (wake : Bool) (slot : Fin 4096) (ok : Bool) (s : State) :
    Host.Outcome State Fault Refusal :=
  s.upd (fun p =>
    p.chainDeliver s.mode.mode { dst := some dst.val, src := src.val, gen := gen.toNat, wake := wake,
                                 body := .mack slot.val ok } (fun p =>
      match p.lcmd slot.val with
      | none => p
      | some c =>
        match c.mirror with
        | none => p
        | some (seq, _) =>
          if (p.lns c.nsid).map (fun n => n.peer) ≠ some src.val then p
          else if ok then p.endLcmd slot.val c 0 seq else p.mirrorFail slot.val c))

/-- MIRROR_TIMEOUT (R360). -/
def execMirrorTimeout (slot : Fin 4096) (s : State) : Host.Outcome State Fault Refusal :=
  s.upd (fun p =>
    match p.lcmd slot.val with
    | none => p
    | some c =>
      match c.mirror with
      | none => p
      | some (_, age) => if p.mirTmo ≤ age then p.mirrorFail slot.val c else p)

/-- A target accepts the mirrored write: the mode, the pairing, and the range (R359, R360, R472). -/
def Pkg.mirrorOk (p : Pkg) (md : Mode) (src srcNs peerNs lba cnt : Nat) : Bool :=
  (match md with | .run | .degraded | .drizzle | .quiesce => true | _ => false) &&
  match p.lns peerNs with
  | none => false
  | some n => n.mode == 2 && n.peer == src && n.peerNs == srcNs && decide (lba + cnt ≤ n.cap ∧ lba % 16 + cnt ≤ 16)

/-- MACK is sent to package `src` for its command `slot` (R472). -/
def Pkg.mack (p : Pkg) (src slot : Nat) (ok : Bool) : Pkg :=
  (p.chainTo src (.mack slot ok)).reply slot (if ok then 0 else 1) [] false

/-- Apply a mirrored write that is not stale, and acknowledge it. While the stack admits nothing it waits, and with no free sectors
left it is refused (R339, R355). -/
def Pkg.applyMirror (p : Pkg) (src slot peerNs lba seq : Nat) (bytes : List Byte) (st : Nat) : Pkg :=
  match p.lns peerNs with
  | none => p.mack src slot false
  | some n =>
    if seq ≤ tblGet (fun _ => 0) n.applied (lba / 16) then p.mack src slot true
    else if !p.admits st (bytes.length / 4096) then
      (if [0, 1].all (fun st => p.lsState st != 2 || decide (p.freeOn st < bytes.length / 4096)) then p.mack src slot false else p)
    else
      let p := (p.commit peerNs lba st bytes).2
      match p.lns peerNs with
      | none => p
      | some n =>
        (p.setLns peerNs (some { n with applied := tblSet (fun _ => 0) n.applied (lba / 16) seq })).mack src slot true

/-- MIRROR (R360, R463, R466, R472): the sectors of a partner's Write-Mirrored arrive; MACK carries OK or REFUSED. One for
another package is forwarded. -/
def execMirror (src dst : Fin 32) (gen : Byte) (wake : Bool) (slot : Fin 4096) (srcNs peerNs : Fin 128) (lba seq : Nat)
    (sectors : List (List Byte)) (stack : Fin 2) (s : State) : Host.Outcome State Fault Refusal :=
  s.upd (fun p =>
    if !p.pw.hubMain ∨ !p.chainValid then p
    else if gen.toNat ≠ p.chainGen then
      (if dst.val = p.chainAddr ∧ wake then p.wakeLatch 2 else p).mack src.val slot.val false
    else p.chainDeliver s.mode.mode { dst := some dst.val, src := src.val, gen := gen.toNat, wake := wake,
                                      body := .mirror slot.val srcNs.val peerNs.val lba seq sectors.flatten } (fun p =>
      if !p.leRuns ∨ !bit (p.reg pgKEYV 0x200) 1 then p
      else if 1 ≤ sectors.length ∧ sectors.all (fun b => b.length == 4096) ∧
          p.mirrorOk s.mode.mode src.val srcNs.val peerNs.val lba sectors.length then
        p.applyMirror src.val slot.val peerNs.val lba seq sectors.flatten stack.val
      else p.mack src.val slot.val false))

/-! ### The tick, resets and QPRD -/

/-- The audit of a queue pair fails (R345). -/
def Pkg.qpAuditBad (p : Pkg) (q : Nat) : Bool :=
  let x := p.qp q
  x.st == 1 && decide (x.size - 1 < p.inflight q + x.unread)

/-- What the engine does at a tick: its audit (R345) and the waiting time of mirrored writes (R360). -/
def Pkg.ledgerTick (p : Pkg) : Pkg :=
  if p.lePhase = 0 then p
  else
    let p := (p.ledger.qps.map (·.1)).foldl (fun p q => if p.qpAuditBad q then
        (p.haltQp q 4).auditFail 0x23 pgLE ((p.inflight q + (p.qp q).unread : Nat) - ((p.qp q).size - 1 : Nat)) false else p) p
    { p with ledger := { p.ledger with slots := p.ledger.slots.map (fun e => (e.1, e.2.map (fun c =>
        { c with mirror := c.mirror.map (fun m => (m.1, m.2 + 1)) }))) } }

/-- Queue pair 0 as the adopted configuration sets it up (R366): its commands end and their completions are posted as R361 gives,
then its registers take effect. -/
def Pkg.adoptAdmin (p : Pkg) : Pkg :=
  let cfg := p.cfg pgLE 0x410
  let p := if (p.qp 0).st = 1 then p.startReset 0 else p
  let p := (p.lcmds.filter (fun c => c.2.qp == 0)).foldl (fun (p : Pkg) (c : Nat × LedgerCmd) =>
    match c.2.fin with
    | some (st, res) => if p.mayPost c.2 st then p.postLcmd c.1 c.2 st res else p
    | none => p) p
  let p := { p with ledger := { p.ledger with slots := p.ledger.slots.filter (fun e =>
    match e.2 with | some c => c.qp != 0 | none => false) } }
  if bit cfg 0 then
    p.setQp 0 { QueuePair.reset with
      st := 1, inten := bit cfg 24, lc := fld cfg 23 16, intid := fld cfg 15 8,
      sizeLog := max 4 (min 12 (fld cfg 7 4)), sq := p.cf pgLE 0x400 51 12 * 4096, cq := p.cf pgLE 0x408 51 12 * 4096 }
  else p.setQp 0 QueuePair.reset

/-- Every queue pair is gone and no slot is in use; uncommitted writes are rolled back (R364). -/
def Pkg.ledgerClear (p : Pkg) : Pkg := { p with ledger := { p.ledger with qps := [], slots := [], last0 := 255, last1 := 255 } }

/-- QUIESCE to LOAD: every queue pair other than 0 is reset under R361, and deleted when its commands have completed (R364). -/
def Pkg.ledgerToLoad (p : Pkg) : Pkg :=
  (p.ledger.qps.map (·.1)).foldl (fun (p : Pkg) (q : Nat) =>
    if q = 0 ∨ (p.qp q).st = 0 then p
    else
      let p := p.startReset q
      (p.setQp q { p.qp q with dying := true }).reapQp q) p

/-- QPDATA of a queue pair (R366). -/
def Pkg.qpData (p : Pkg) (q : Nat) : Word :=
  let x := p.qp q
  word [(48, x.sqt), (32, x.sqh), (16, p.inflight q), (15, x.prio.toNat), (8, x.pid), (4, x.cause), (0, x.st)]

/-- QPRD: reports OK at once; refused in LOAD_HOLD (R45, R366). -/
def Pkg.cmdQprd (p : Pkg) (q : Nat) : Pkg :=
  let p := p.setReg pgLE 0xC00 (word [(0, q)])
  if p.loadHold pgLE then p.cmdWrong pgLE 0xC00 else (p.setReg pgLE 0xC08 (p.qpData q)).cmdOk pgLE 0xC00

/-- QPRD. -/
def execQprd (who : Requester) (q : Fin 256) (s : State) : Host.Outcome State Fault Refusal :=
  s.upd (fun p => p.cmd who pgLE 0xC00 (fun p => p.cmdQprd q.val))

end Sys2Proof.Machine
end

