-- ==== Sys2Proof/Machine/Cipher.lean ====
section
/-! DEFINITION. The cipher engines and the key vault (R368 to R390). -/

namespace Sys2Proof.Machine

/-! ### Access -/

/-- Agent number of engine e (R221, R368). -/
def ceAgent (e : Nat) : Nat := if e < 12 then 0x20 + e else if e = 12 then 0x11 else 0x12

/-- The page that holds the doorbells of engine e. -/
def ceBells (e : Nat) : Nat := if e < 12 then pgCECTX e else pgHCE (e - 12)

def Pkg.cslot (p : Pkg) (e k : Nat) : CipherSlot := tblGet (fun _ => CipherSlot.reset) p.ce.slots (e * 16 + k)
def Pkg.setCslot (p : Pkg) (e k : Nat) (x : CipherSlot) : Pkg :=
  { p with ce := { p.ce with slots := tblSet (fun _ => CipherSlot.reset) p.ce.slots (e * 16 + k) x } }
def Pkg.ceng (p : Pkg) (e : Nat) : CipherEng := tblGet (fun _ => CipherEng.reset) p.ce.engs e
def Pkg.setCeng (p : Pkg) (e : Nat) (x : CipherEng) : Pkg :=
  { p with ce := { p.ce with engs := tblSet (fun _ => CipherEng.reset) p.ce.engs e x } }

/-- Fields of SLOTCFGk and SLOTRINGk (R388). -/
def Pkg.slotCfg (p : Pkg) (e k hi lo : Nat) : Nat := p.cf (cePage e) (0x400 + 16 * k) hi lo
def Pkg.slotBase (p : Pkg) (e k : Nat) : Nat := p.cf (cePage e) (0x408 + 16 * k) 51 12 * 4096

/-- N of a SIZELOG2; values outside 4 to 12 act as the nearer bound. -/
def ringSize (log : Nat) : Nat := 2 ^ max 4 (min 12 log)
def Pkg.slotSize (p : Pkg) (e k : Nat) : Nat := ringSize (p.slotCfg e k 55 52)

/-- The usage limit: 0 selects 2^32 (R383). -/
def Pkg.slotLim (p : Pkg) (e k : Nat) : Nat := let l := p.slotCfg e k 31 0; if l = 0 then 2 ^ 32 else l

/-- The package root key (R370): from the fused secret and the epoch label. -/
def Pkg.rootKey (p : Pkg) : List Byte :=
  kdf (beBytes 32 Config.fusedSecret.toNat) 0x10
    ([0xC00, 0xC08, 0xC10, 0xC18].flatMap (fun o => leBytes 8 (p.reg pgKEYV o).toNat)) 0 256

/-- FORM has completed. -/
def Pkg.formed (p : Pkg) : Bool := bit (p.reg pgKEYV 0x200) 0

/-! ### Fields of a descriptor (R378) -/

def CipherMsg.quad (m : CipherMsg) (i : Nat) : Word := m.ent.getD i 0
def CipherMsg.op (m : CipherMsg) : Nat := fld (m.quad 0) 3 0
def CipherMsg.alg (m : CipherMsg) : Nat := fld (m.quad 0) 11 8
def CipherMsg.klen (m : CipherMsg) : Nat := fld (m.quad 0) 15 12
def CipherMsg.tagLen (m : CipherMsg) : Nat := fld (m.quad 0) 20 16
def CipherMsg.xslot (m : CipherMsg) : Nat := fld (m.quad 0) 27 24
def CipherMsg.inten (m : CipherMsg) : Bool := bit (m.quad 0) 28
def CipherMsg.urg (m : CipherMsg) : Bool := bit (m.quad 0) 29
def CipherMsg.len (m : CipherMsg) : Nat := fld (m.quad 0) 63 40
def CipherMsg.src (m : CipherMsg) : Nat := (m.quad 1).toNat
def CipherMsg.dst (m : CipherMsg) : Nat := (m.quad 2).toNat
def CipherMsg.aux (m : CipherMsg) : Nat := (m.quad 3).toNat
def CipherMsg.iv (m : CipherMsg) : List Byte := leBytes 8 (m.quad 4).toNat ++ leBytes 8 (m.quad 5).toNat
def CipherMsg.tagPtr (m : CipherMsg) : Nat := (m.quad 6).toNat
def CipherMsg.aadLen (m : CipherMsg) : Nat := fld (m.quad 7) 15 0

/-- The length rule of an algorithm (R369). -/
def algLenOk (alg len : Nat) : Bool :=
  match alg with
  | 0 | 1 | 4 => true
  | 2 => len % 16 == 0
  | 3 => len % 16 == 0 && decide (16 ≤ len)
  | 8 | 9 => len % 8 == 0
  | _ => false

/-- The key kind that an algorithm takes (R369): 1 AES-128, 2 AES-256, 3 AES-XTS-256, 4 TDES. -/
def algKind (alg kind : Nat) : Bool :=
  match alg with
  | 0 | 1 | 2 | 4 => kind == 1 || kind == 2
  | 3 => kind == 3
  | 8 | 9 => kind == 4
  | _ => false

/-- A tag length of R378. -/
def tagOk (n : Nat) : Bool := decide (4 ≤ n ∧ n ≤ 16)

/-- A Reserved field, OP, ALG or length breaks R369, R378 or R379. -/
def CipherMsg.bad (m : CipherMsg) : Bool :=
  let q0 := m.quad 0
  fld (m.quad 7) 63 16 != 0 || fld q0 7 4 != 0 || fld q0 23 21 != 0 ||
  (match m.op with
  | 1 => m.alg != 0 || m.src != 0 || m.dst != 0 || m.len != 0 || decide (m.klen = 0 ∨ 4 < m.klen) ||
      decide (m.aadLen = 0 ∨ 64 < m.aadLen)
  | 2 | 3 => m.alg == 4 || !algLenOk m.alg m.len || (m.alg == 0 && !tagOk m.tagLen)
  | 4 | 5 => m.alg != 4 || !tagOk m.tagLen
  | 6 => m.alg != 8 || m.len != 8
  | _ => true)

/-! ### The engine's schedule (R385) -/

/-- The slot's fetched descriptor has not ended, and the engine may start it. -/
def Pkg.waits (p : Pkg) (e k : Nat) (urg : Bool) : Bool :=
  let x := p.cslot e k
  x.st == 1 && !x.susp && (match x.msg with | some m => m.fin.isNone && m.urg == urg | none => false)

/-- The next slot after `last` in round robin whose descriptor waits. -/
def Pkg.rrSlot (p : Pkg) (e last : Nat) (urg : Bool) : Option Nat :=
  ((List.range 16).map (fun i => (last + 1 + i) % 16)).find? (fun k => p.waits e k urg)

/-- The slot whose message the engine has suspended. -/
def Pkg.suspended (p : Pkg) (e : Nat) : Option Nat := (List.range 16).find? (fun k => (p.cslot e k).susp)

/-- URGMAX: 0 selects 8 (R388). -/
def Pkg.urgMax (p : Pkg) (e : Nat) : Nat := let u := p.cf (cePage e) 0x500 7 0; if u = 0 then 8 else u

/-- An idle engine starts its next message: urgent ones first; with a message suspended, only urgent ones, and at most
URGMAX of them. -/
def Pkg.engStart (p : Pkg) (e : Nat) : Pkg :=
  let g := p.ceng e
  if g.running.isSome then p
  else
    let held := (p.suspended e).isSome
    match (if held ∧ p.urgMax e ≤ g.urgent then none else p.rrSlot e g.last1 true) with
    | some k => p.setCeng e { g with running := some k, last1 := k }
    | none =>
      if held then p
      else
        match p.rrSlot e g.last0 false with
        | some k => p.setCeng e { g with running := some k, last0 := k }
        | none => p

/-- A message has been fetched: an urgent one suspends a non-urgent one that runs, if none is suspended yet. -/
def Pkg.preempt (p : Pkg) (e : Nat) (urg : Bool) : Pkg :=
  let g := p.ceng e
  match g.running with
  | none => p
  | some r =>
    let x := p.cslot e r
    let open_ : Bool := match x.msg with | some m => m.fin.isNone && !m.urg | none => false
    if urg ∧ open_ ∧ (p.suspended e).isNone then
      (p.setCslot e r { x with susp := true }).setCeng e { g with running := none, urgent := 0 }
    else p

/-- A slot halts with a cause (R386): its message ends, and the engine is free of it. -/
def Pkg.haltSlot (p : Pkg) (e k cause : Nat) : Pkg :=
  let p := p.setCslot e k { p.cslot e k with st := 2, cause := cause, msg := none, susp := false, save := none }
  let g := p.ceng e
  let p := if g.running = some k then p.setCeng e { g with running := none } else p
  p.setEvent (cePage e) 18 3 { Det.none with pids := [p.slotPid e k], agent := ceAgent e }

/-- The engine works: its page is adopted and answers. -/
def Pkg.engUp (p : Pkg) (e : Nat) : Bool := p.answers (cePage e) && !p.loadHold (cePage e)

/-- DESCRIPTOR_FETCH (R377, R381): a fetch that fails halts the slot with cause RING. -/
def execDescriptorFetch (e : Fin 14) (slot : Fin 16) (s : State) : Host.Outcome State Fault Refusal :=
  s.upd (fun p =>
    let x := p.cslot e.val slot.val
    if !p.engUp e.val ∨ x.st ≠ 1 ∨ x.head = x.tail ∨ x.msg.isSome then p
    else
      match p.devRead (ceAgent e.val) (p.slotPid e.val slot.val) (p.slotBase e.val slot.val + 64 * x.head) 64 with
      | (.waiting, _) => p
      | (.ok b false, p) =>
        let m : CipherMsg := { ent := entryQuads b, fin := none }
        let m := if m.op = 0 ∨ 6 < m.op then { m with fin := some (0x05, false) } else m
        let p := p.setCslot e.val slot.val { p.cslot e.val slot.val with msg := some m }
        ((if m.fin.isNone then p.preempt e.val m.urg else p)).engStart e.val
      | (_, p) => (p.haltSlot e.val slot.val 1).engStart e.val)

/-- SUSPENDED_RESUME (R385): no urgent descriptor waits, or URGMAX of them have completed. -/
def execSuspendedResume (e : Fin 14) (s : State) : Host.Outcome State Fault Refusal :=
  s.upd (fun p =>
    let g := p.ceng e.val
    match p.suspended e.val with
    | none => p
    | some k =>
      if g.running.isSome ∨ ((p.rrSlot e.val g.last1 true).isSome ∧ g.urgent < p.urgMax e.val) then p
      else
        (p.setCslot e.val k { p.cslot e.val k with susp := false }).setCeng e.val { g with running := some k, urgent := 0 })

/-! ### Carrying out a descriptor (R379 to R383) -/

/-- The running message of a slot with this OP, not yet ended. -/
def Pkg.cipherReady (p : Pkg) (e k op : Nat) : Option CipherMsg :=
  if !p.engUp e ∨ (p.ceng e).running ≠ some k then none
  else
    match (p.cslot e k).msg with
    | some m => if m.op = op ∧ m.fin.isNone then some m else none
    | none => none

/-- The message ends with a STATUS. -/
def Pkg.cipherEnd (p : Pkg) (e k : Nat) (m : CipherMsg) (st : Nat) (untrusted : Bool) : Pkg :=
  let p := p.setCslot e k { p.cslot e k with msg := some { m with fin := some (st, untrusted) }, save := none }
  let det := { Det.none with pids := [p.slotPid e k], agent := ceAgent e }
  let p := if st = 1 ∨ st = 2 then
    (if e < 12 then p.evCount (some e) 10 0 (some (p.slotPid e k)) 4 m.len
     else p.evCount none 14 (e - 12) (some (p.slotPid e k)) 4 m.len) else p
  if st = 0x02 then p.setEvent (cePage e) 21 3 det else if st = 0x03 then p.setEvent (cePage e) 19 3 det else p

/-- STATUS of an access that failed (R380). -/
def devStatus : DevAns → Nat
  | .xlate => 0x06
  | .ok _ true => 0x07
  | .ok _ false => 0x01
  | .err _ => 0x08
  | .waiting => 0

/-- Read up to `len` bytes line by line, stopping at the first line that fails or is poisoned: the bytes before it, and
how the read ended. -/
def Pkg.readPrefix (p : Pkg) (agent pid addr len : Nat) : List Byte × DevAns × Pkg :=
  (lineParts addr len).foldl (fun (a : List Byte × DevAns × Pkg) e =>
    match a.2.1 with
    | .ok _ false =>
      match a.2.2.devRead agent pid e.1 e.2 with
      | (.ok b false, p) => (a.1 ++ b, .ok [] false, p)
      | (x, p) => (a.1, x, p)
    | _ => a) ([], .ok [] false, p)

/-- Write bytes line by line: whether any line was written, and how the write ended. -/
def Pkg.writePrefix (p : Pkg) (agent pid addr : Nat) (bs : List Byte) : Bool × DevAns × Pkg :=
  (lineParts addr bs.length).foldl (fun (a : Bool × DevAns × Pkg) e =>
    match a.2.1 with
    | .ok _ _ =>
      match a.2.2.devWrite agent pid e.1 ((bs.drop (e.1 - addr)).take e.2) with
      | (.ok _ _, p) => (true, .ok [] false, p)
      | (x, p) => (a.1, x, p)
    | _ => a) (false, .ok [] false, p)

/-- Data encrypted or decrypted by ALG under a key, over whole blocks of what is given (R369). -/
def algRun (alg : Nat) (enc : Bool) (key iv data : List Byte) : List Byte :=
  let rks := aesRoundKeys (toNats key)
  let t := fun (b : List Byte) => beBytes 8 (if enc then tdesEnc key (beNat b) else tdesDec key (beNat b))
  match alg with
  | 0 => gcmCtr rks (iv.take 12) data
  | 1 => ctrMode rks iv data
  | 2 => if enc then cbcEnc 16 (aesE rks) iv data else cbcDec 16 (aesD rks) iv data
  | 3 =>
    let k1 := aesRoundKeys (toNats (key.take 32))
    let t0 := leNat (aesE (aesRoundKeys (toNats (key.drop 32))) iv)
    xtsMode (if enc then aesE k1 else aesD k1) t0 data
  | 8 => ((aesChunks 8 data).map t).flatten
  | 9 => if enc then cbcEnc 8 t (iv.take 8) data else cbcDec 8 t (iv.take 8) data
  | _ => []

/-- Bytes of a block of ALG. -/
def algBlock (alg : Nat) : Nat := if alg = 8 ∨ alg = 9 then 8 else if alg = 0 ∨ alg = 1 then 1 else 16

/-- The checks before an operation, in the order of R380: fields, a key, its kind. -/
def Pkg.cipherCheck (p : Pkg) (e k : Nat) (m : CipherMsg) : Option Nat :=
  let x := p.cslot e k
  if m.bad then some 0x05 else if x.kind = 0 then some 0x04 else if !algKind m.alg x.kind then some 0x05 else none

/-- An encrypting operation starts: USE counts it, unless the limit is reached (R383). -/
def Pkg.countUse (p : Pkg) (e k : Nat) : Option Pkg :=
  let x := p.cslot e k
  if p.slotLim e k ≤ x.use then none else some (p.setCslot e k { x with use := x.use + 1, started := x.started + 1 })

/-- Bytes between two points at which a message may be suspended (R385). -/
def cipherStep (alg : Nat) : Nat := if alg = 8 ∨ alg = 9 then 8 else 16

/-- What the save area of a slot holds: nothing was carried out yet when it is empty. -/
def CipherSlot.saved (x : CipherSlot) (aad : List Byte) : CipherSave := x.save.getD { aad := aad, inp := [], wrote := false }

/-- The message goes no further for now: its running state stays in the save area. -/
def Pkg.cipherKeep (p : Pkg) (e k : Nat) (s : CipherSave) : Pkg := p.setCslot e k { p.cslot e k with save := some s }

/-- ENCRYPT and DECRYPT: `n` more blocks are carried out, and output is written as it is produced; at the end the GCM tag is
written or checked. -/
def Pkg.cipherData (p0 : Pkg) (e k : Nat) (m : CipherMsg) (enc : Bool) (n : Nat) (p : Pkg) : Pkg :=
  let ag := ceAgent e
  let pid := p.slotPid e k
  let x := p.cslot e k
  let aad := if m.alg = 0 ∧ x.save.isNone then p.readPrefix ag pid m.aux m.aadLen else ([], .ok [] false, p)
  if devStatus aad.2.1 = 0 then p0
  else if devStatus aad.2.1 ≠ 1 then aad.2.2.cipherEnd e k m (devStatus aad.2.1) false
  else
    let s := x.saved aad.1
    let pos := s.inp.length
    let src := aad.2.2.readPrefix ag pid (m.src + pos) (min (n * cipherStep m.alg) (m.len - pos))
    if devStatus src.2.1 = 0 then p0
    else
      let data := s.inp ++ src.1.take (src.1.length / algBlock m.alg * algBlock m.alg)
      let out := algRun m.alg enc x.key m.iv data
      let w := src.2.2.writePrefix ag pid (m.dst + pos) (out.drop pos)
      let wrote := s.wrote || w.1
      if devStatus w.2.1 = 0 then p0
      else if devStatus src.2.1 ≠ 1 then w.2.2.cipherEnd e k m (devStatus src.2.1) wrote
      else if devStatus w.2.1 ≠ 1 then w.2.2.cipherEnd e k m (devStatus w.2.1) wrote
      else if data.length < m.len then w.2.2.cipherKeep e k { s with inp := data, wrote := wrote }
      else if m.alg ≠ 0 then w.2.2.cipherEnd e k m 0x01 false
      else
        let tag := (gcmTag (aesRoundKeys (toNats x.key)) (m.iv.take 12) s.aad (if enc then out else data)).take m.tagLen
        if enc then
          let t := w.2.2.writePrefix ag pid m.tagPtr tag
          if devStatus t.2.1 = 0 then p0
          else if devStatus t.2.1 = 1 then t.2.2.cipherEnd e k m 0x01 false
          else t.2.2.cipherEnd e k m (devStatus t.2.1) (wrote || t.1)
        else
          let t := w.2.2.readPrefix ag pid m.tagPtr m.tagLen
          if devStatus t.2.1 = 0 then p0
          else if devStatus t.2.1 ≠ 1 then t.2.2.cipherEnd e k m (devStatus t.2.1) wrote
          else if t.1 = tag then t.2.2.cipherEnd e k m 0x01 false
          else t.2.2.cipherEnd e k m 0x02 true

/-- MAC and VERIFY: `n` more blocks are carried out; at the end the MAC is written or compared. -/
def Pkg.cipherMac (p0 : Pkg) (e k : Nat) (m : CipherMsg) (verify : Bool) (n : Nat) (p : Pkg) : Pkg :=
  let ag := ceAgent e
  let pid := p.slotPid e k
  let s := (p.cslot e k).saved []
  let pos := s.inp.length
  let src := p.readPrefix ag pid (m.src + pos) (min (n * cipherStep m.alg) (m.len - pos))
  if devStatus src.2.1 = 0 then p0
  else if devStatus src.2.1 ≠ 1 then src.2.2.cipherEnd e k m (devStatus src.2.1) false
  else
    let data := s.inp ++ src.1
    let tag := (cmac (p.cslot e k).key data).take m.tagLen
    if data.length < m.len then src.2.2.cipherKeep e k { s with inp := data }
    else if verify then
      let t := src.2.2.readPrefix ag pid m.tagPtr m.tagLen
      if devStatus t.2.1 = 0 then p0
      else if devStatus t.2.1 ≠ 1 then t.2.2.cipherEnd e k m (devStatus t.2.1) false
      else if t.1 = tag then t.2.2.cipherEnd e k m 0x01 false
      else t.2.2.cipherEnd e k m 0x02 true
    else
      let t := src.2.2.writePrefix ag pid m.tagPtr tag
      if devStatus t.2.1 = 0 then p0
      else if devStatus t.2.1 = 1 then t.2.2.cipherEnd e k m 0x01 false
      else t.2.2.cipherEnd e k m (devStatus t.2.1) t.1

/-- An operation under the slot's own key; it begins with its checks and, for an encrypting one, its usage count. An idle engine
turns to its next message first. -/
def Pkg.cipherOp (p : Pkg) (e k op : Nat) (enc : Bool) (f : Pkg → CipherMsg → Pkg → Pkg) : Pkg :=
  let p := p.engStart e
  match p.cipherReady e k op with
  | none => p
  | some m =>
    if (p.cslot e k).save.isSome then f p m p
    else
      match p.cipherCheck e k m with
      | some st => p.cipherEnd e k m st false
      | none =>
        if enc then
          match p.countUse e k with
          | none => p.cipherEnd e k m 0x03 false
          | some p' => f p m p'
        else f p m p

/-- ENCRYPT (R379, R385): the engine carries out `n` blocks of the message, or what is left of it. -/
def execEncrypt (e : Fin 14) (slot : Fin 16) (n : Nat) (s : State) : Host.Outcome State Fault Refusal :=
  s.upd (fun p => p.cipherOp e.val slot.val 2 true (fun p0 m p => p0.cipherData e.val slot.val m true n p))

/-- DECRYPT (R382, R385): the plaintext is written before the tag is checked. -/
def execDecrypt (e : Fin 14) (slot : Fin 16) (n : Nat) (s : State) : Host.Outcome State Fault Refusal :=
  s.upd (fun p => p.cipherOp e.val slot.val 3 false (fun p0 m p => p0.cipherData e.val slot.val m false n p))

/-- MAC (R379, R385). -/
def execMac (e : Fin 14) (slot : Fin 16) (n : Nat) (s : State) : Host.Outcome State Fault Refusal :=
  s.upd (fun p => p.cipherOp e.val slot.val 4 true (fun p0 m p => p0.cipherMac e.val slot.val m false n p))

/-- VERIFY (R382, R385). -/
def execVerify (e : Fin 14) (slot : Fin 16) (n : Nat) (s : State) : Host.Outcome State Fault Refusal :=
  s.upd (fun p => p.cipherOp e.val slot.val 5 false (fun p0 m p => p0.cipherMac e.val slot.val m true n p))

/-- Bits of a derived key by KLEN (R372). -/
def klenBits (k : Nat) : Nat := if k = 1 then 128 else if k = 2 then 256 else if k = 3 then 512 else 192

/-- Put a fresh key into a slot: USE 0 (R376, R379). -/
def CipherSlot.rekey (x : CipherSlot) (key : List Byte) (kind : Nat) (sw : Bool) (label : Option (List Byte)) : CipherSlot :=
  { x with key := key, kind := kind, swk := sw, use := 0, label := label, base := 0, started := 0 }

/-- DERIVE (R371, R379, R383). -/
def execDerive (e : Fin 14) (slot : Fin 16) (s : State) : Host.Outcome State Fault Refusal :=
  s.upd (fun p =>
    let k := slot.val
    let p := p.engStart e.val
    match p.cipherReady e.val k 1 with
    | none => p
    | some m =>
      if m.bad then p.cipherEnd e.val k m 0x05 false
      else if !p.formed then p.cipherEnd e.val k m 0x09 false
      else
        let r := p.readPrefix (ceAgent e.val) (p.slotPid e.val k) m.aux m.aadLen
        if devStatus r.2.1 = 0 then p
        else if devStatus r.2.1 ≠ 1 then r.2.2.cipherEnd e.val k m (devStatus r.2.1) false
        else
          let p := r.2.2
          let x := p.cslot e.val k
          if p.slotLim e.val k ≤ x.use ∧ x.label = some r.1 then p.cipherEnd e.val k m 0x0A false
          else
            let key := kdf p.rootKey 0x01 r.1 (p.slotPid e.val k) (klenBits m.klen)
            (p.setCslot e.val k (x.rekey key m.klen false (some r.1))).cipherEnd e.val k m 0x01 false)

/-- TRANSLATE (R379): the block is decrypted under the slot's key and encrypted under that of XSLOT, whose USE counts. -/
def execTranslate (e : Fin 14) (slot : Fin 16) (s : State) : Host.Outcome State Fault Refusal :=
  s.upd (fun p =>
    let k := slot.val
    let p := p.engStart e.val
    match p.cipherReady e.val k 6 with
    | none => p
    | some m =>
      let y := p.cslot e.val m.xslot
      let fail := fun st => p.cipherEnd e.val k m st false
      match p.cipherCheck e.val k m with
      | some st => fail st
      | none =>
        if y.kind = 0 then fail 0x04
        else if y.kind ≠ 4 ∨ p.slotPid e.val m.xslot ≠ p.slotPid e.val k then fail 0x0C
        else
          match p.countUse e.val m.xslot with
          | none => fail 0x03
          | some q =>
            let ag := ceAgent e.val
            let pid := p.slotPid e.val k
            let r := q.readPrefix ag pid m.src 8
            if devStatus r.2.1 = 0 then p
            else if devStatus r.2.1 ≠ 1 then r.2.2.cipherEnd e.val k m (devStatus r.2.1) false
            else
              let clear := tdesDec (p.cslot e.val k).key (beNat r.1)
              let w := r.2.2.writePrefix ag pid m.dst (beBytes 8 (tdesEnc y.key clear))
              if devStatus w.2.1 = 0 then p
              else w.2.2.cipherEnd e.val k m (devStatus w.2.1) (devStatus w.2.1 != 1 && w.1))

/-- Bytes 0 to 7 of a descriptor with DONE, STATUS and UNTRUSTED (R381). -/
def doneQuad (q : Word) (st : Nat) (untrusted : Bool) : Word :=
  setFld (setFld (setFld q 39 32 st) 31 31 1) 30 30 untrusted.toNat

/-- DESCRIPTOR_COMPLETION (R381). A write-back that fails halts the slot with cause RING. -/
def execDescriptorCompletion (e : Fin 14) (slot : Fin 16) (s : State) : Host.Outcome State Fault Refusal :=
  s.upd (fun p =>
    let k := slot.val
    let x := p.cslot e.val k
    match x.msg with
    | none => p
    | some m =>
      match m.fin with
      | none => p
      | some (st, un) =>
        let pid := p.slotPid e.val k
        match p.devWrite (ceAgent e.val) pid (p.slotBase e.val k + 64 * x.head) (leBytes 8 (doneQuad (m.quad 0) st un).toNat) with
        | (.waiting, _) => p
        | (.ok _ _, p) =>
          let x := p.cslot e.val k
          let p := p.setCslot e.val k { x with msg := none, head := (x.head + 1) % p.slotSize e.val k }
          let g := p.ceng e.val
          let p := if g.running = some k then
              p.setCeng e.val { g with running := none, urgent := g.urgent + (if m.urg then 1 else 0) } else p
          let p := if m.inten ∧ p.slotCfg e.val k 51 51 = 1 then
              (p.notify (p.slotCfg e.val k 39 32) pid (p.slotCfg e.val k 47 40)).2 else p
          p.engStart e.val
        | (_, p) => (p.haltSlot e.val k 1).engStart e.val)

/-! ### Doorbells, KEYLD, SLOTRST (R376, R377, R386, R389) -/

/-- A TAIL write (R377). HCE1 refuses every one. -/
def Pkg.tailBell (p : Pkg) (who : Requester) (e k v : Nat) : Pkg :=
  let v := v % 4096
  let x := p.cslot e k
  let det := { Det.none with agent := ceAgent e }
  if e = 13 ∨ !p.bellOk who (p.slotPid e k) then p.setEvent (cePage e) 16 3 det
  else if x.st ≠ 1 ∨ p.slotSize e k ≤ v then p.setEvent (cePage e) 17 3 det
  else p.setCslot e k { x with tail := v }

/-- TAIL_DOORBELL: a refused write gets an error response (R23, R377). -/
def execTailDoorbell (who : Requester) (e : Fin 14) (slot : Fin 16) (v : Word) (s : State) :
    Host.Outcome State Fault Refusal :=
  s.upd (fun p =>
    let off := (if e.val < 12 then 0xC00 else 0xC80) + 8 * slot.val
    if !p.reaches who (ceBells e.val) then p.writeRefused who (ceBells e.val) off
    else
      let r := p.tailBell who e.val slot.val v.toNat
      if e.val ≠ 13 ∧ p.bellOk who (p.slotPid e.val slot.val) then r else r.writeRefused who (ceBells e.val) off)

/-- Bytes of a key of each kind (R376). -/
def kindLen (k : Nat) : Nat := if k = 1 then 16 else if k = 2 then 32 else if k = 3 then 64 else 24

/-- KEYLD (R376): KEYW goes into the slot and is erased. -/
def Pkg.cmdKeyld (p : Pkg) (e k kind : Nat) : Pkg :=
  let pg := cePage e
  let p := p.setReg pg 0xC40 (word [(8, kind), (0, k)])
  let x := p.cslot e k
  if e = 13 then p.cmdDenied pg 0xC40
  else if kind = 0 ∨ 4 < kind then p.cmdBadArg pg 0xC40
  else if p.loadHold pg ∨ p.busy pg ∨ x.st = 0 ∨ x.susp ∨ (p.ceng e).running = some k then p.cmdWrong pg 0xC40
  else
    let keyw := (List.range 8).flatMap (fun i => leBytes 8 (p.reg pg (0xC00 + 8 * i)).toNat)
    let p := (List.range 8).foldl (fun p i => p.setReg pg (0xC00 + 8 * i) 0) p
    (p.setCslot e k (x.rekey (keyw.take (kindLen kind)) kind true none)).cmdOk pg 0xC40

/-- KEYLD. -/
def execKeyld (who : Requester) (e : Fin 14) (slot : Fin 16) (kind : Fin 16) (s : State) :
    Host.Outcome State Fault Refusal :=
  s.upd (fun p => p.cmd who (cePage e.val) 0xC40 (fun p => p.cmdKeyld e.val slot.val kind.val))

/-- SLOTRST (R386): a HALTED slot whose PID is not checkstopped. -/
def Pkg.cmdSlotrst (p : Pkg) (e k : Nat) : Pkg :=
  let pg := cePage e
  let p := p.setReg pg 0xC48 (word [(0, k)])
  let x := p.cslot e k
  if p.loadHold pg ∨ p.busy pg ∨ x.st ≠ 2 ∨ p.dcs (p.slotPid e k) then p.cmdWrong pg 0xC48
  else (p.setCslot e k { x with st := 1, cause := 0, head := 0, tail := 0, msg := none, save := none }).cmdOk pg 0xC48

/-- SLOTRST. -/
def execSlotrst (who : Requester) (e : Fin 14) (slot : Fin 16) (s : State) : Host.Outcome State Fault Refusal :=
  s.upd (fun p => p.cmd who (cePage e.val) 0xC48 (fun p => p.cmdSlotrst e.val slot.val))

/-! ### The tick (R384, R386) -/

/-- A slot whose configuration an adoption changed is reset (R386): its message, not left to another PID, is written back
as ABORTED. `old` is the live configuration before. -/
def Pkg.adoptSlot (p : Pkg) (e : Nat) (old : Tbl Word) (k : Nat) : Pkg :=
  let was := fun (i : Nat) => tblGet (fun _ => (0 : Word)) old i
  let o0 := was (2 * k)
  let o1 := was (2 * k + 1)
  let n0 := p.cfg (cePage e) (0x400 + 16 * k)
  let n1 := p.cfg (cePage e) (0x408 + 16 * k)
  if fld o0 63 52 = fld n0 63 52 ∧ fld o1 51 12 = fld n1 51 12 then p
  else
    let x := p.cslot e k
    let p := match x.msg with
      | some m =>
        if fld o0 62 56 = fld n0 62 56 ∧ (x.susp ∨ (p.ceng e).running = some k) then
          (p.devWrite (ceAgent e) (fld o0 62 56) (fld o1 51 12 * 4096 + 64 * x.head)
            (leBytes 8 (doneQuad (m.quad 0) 0x0B true).toNat)).2
        else p
      | none => p
    let g := p.ceng e
    let p := if g.running = some k then p.setCeng e { g with running := none } else p
    p.setCslot e k { CipherSlot.reset with st := if bit n0 63 then 1 else 0 }

def Pkg.adoptCipher (p : Pkg) (e : Nat) (old : Tbl Word) : Pkg :=
  (List.range 16).foldl (fun p k => p.adoptSlot e old k) p

/-- The key-usage audit of an engine (R384): USE grew by the operations started, and an operation did not pass the limit. -/
def Pkg.auditUse (p : Pkg) (e : Nat) : Pkg :=
  if !p.engUp e then p
  else
    (List.range 16).foldl (fun p k =>
      let x := p.cslot e k
      if x.st ≠ 1 then p
      else if x.use = x.base + x.started ∧ (x.started = 0 ∨ x.use ≤ p.slotLim e k) then
        p.setCslot e k { x with base := x.use, started := 0 }
      else ((p.haltSlot e k 3).setEvent (cePage e) 20 3).auditFail 0x24 (cePage e)
        ((x.use : Int) - ((x.base + x.started : Nat) : Int)) false) p

/-- SLOTSTATk (R389). -/
def Pkg.slotStat (p : Pkg) (e k : Nat) : Word :=
  if e = 13 then
    word [(8, if p.ce.nsKeys.any (fun x => x.1 == k) then 3 else 0), (0, (p.cslot e k).st)]
  else
    let x := p.cslot e k
    word [(32, x.head), (12, x.cause), (8, x.kind), (7, x.swk.toNat),
          (6, (decide (x.kind ≠ 0 ∧ p.slotLim e k ≤ x.use)).toNat), (5, x.susp.toNat), (0, x.st)]

/-! ### The key vault (R370, R373, R374) -/

/-- The epoch label is all zeros. -/
def Pkg.noLabel (p : Pkg) : Bool := [0xC00, 0xC08, 0xC10, 0xC18].all (fun o => p.reg pgKEYV o == 0)

/-- FORM (R373). -/
def Pkg.cmdForm (p : Pkg) (md : Mode) (who : Requester) : Pkg :=
  match who with
  | .host =>
    if p.boot.keyed ≠ 0 ∨ (md ≠ .service ∧ md ≠ .load) then p.cmdWrong pgKEYV 0xC20
    else if p.noLabel then p.cmdBadArg pgKEYV 0xC20
    else
      let p := { p.setRf pgKEYV 0x200 1 0 3 with boot := { p.boot with keyed := 1 } }
      let p := { p with stw := { p.stw with parts := ((p.stw.parts.map (fun (e : Nat × Partition) =>
        (e.1, { e.2 with gen := 0 }))).filter (fun e => decide (e.2 ≠ Partition.reset)) : Tbl Partition) } }
      p.cmdOk pgKEYV 0xC20
  | _ => p.cmdDenied pgKEYV 0xC20

/-- FORM. -/
def execForm (who : Requester) (s : State) : Host.Outcome State Fault Refusal :=
  s.upd (fun p => p.cmd who pgKEYV 0xC20 (fun p => p.cmdForm s.mode.mode who))

/-- The memory keys are to be loaded: FORM has completed and the hub main domain is powered (R373). -/
def Pkg.keysDue (p : Pkg) : Bool := p.boot.keyed == 1 && p.formed && p.pw.hubMain

/-- MEMORY_KEY_LOAD: at the first tick at which they are due every MCR unit gets its keys (R373). -/
def execMemoryKeyLoad (s : State) : Host.Outcome State Fault Refusal :=
  s.upd (fun p =>
    if !p.keysDue || !p.isRipe .keys 0 then p
    else
      let p := (List.range 16).foldl (fun p n => p.setRf (pgMCR n) 0x208 0 0 1) p
      { p with boot := { p.boot with keyed := 2 } })

/-- R374 allows a REKEY of the PID. -/
def Pkg.rekeyOk (p : Pkg) (md : Mode) (pid : Nat) : Bool :=
  p.formed && (p.part pid).rekey.isNone && decide ((p.part pid).gen < 0xFFFF) &&
  (match md with | .run | .degraded | .quiesce => true | _ => false)

/-- Record a REKEY for the next tick, with the ORIGIN that its event will carry. -/
def Pkg.noteRekey (p : Pkg) (pid origin : Nat) : Pkg :=
  (p.setPart pid { p.part pid with rekey := some origin }).unripe .rekey pid

/-- REKEY (R374). -/
def Pkg.cmdRekey (p : Pkg) (md : Mode) (who : Requester) (pid : Nat) : Pkg :=
  let p := p.setReg pgKEYV 0xC20 (word [(8, pid)])
  match who with
  | .host | .steward =>
    if p.rekeyOk md pid then (p.noteRekey pid (if who = .host then 1 else 2)).cmdOk pgKEYV 0xC20
    else p.cmdWrong pgKEYV 0xC20
  | _ => p.cmdDenied pgKEYV 0xC20

/-- REKEY. -/
def execRekey (who : Requester) (pid : Pid) (s : State) : Host.Outcome State Fault Refusal :=
  s.upd (fun p => p.cmd who pgKEYV 0xC20 (fun p => p.cmdRekey s.mode.mode who pid.val))

/-- REKEY_APPLY (R374): at the tick the new key is in force and GEN[p] takes its value. -/
def execRekeyApply (pid : Pid) (s : State) : Host.Outcome State Fault Refusal :=
  s.upd (fun p =>
    let x := p.part pid.val
    match x.rekey with
    | none => p
    | some o =>
      if !p.isRipe .rekey pid.val then p else
      let p := p.setPart pid.val { x with gen := x.gen + 1, rekey := none }
      p.logEvent 0x13 o none (some pid.val) pgKEYV (BitVec.ofNat 64 (x.gen + 1)))

end Sys2Proof.Machine
end

