-- ==== Sys2Proof/Machine/CohRows.lean ====
section
/-! DEFINITION. The coherence rows: each is the arrival of one message, or one step of a slice's background work
(R226 to R256). -/

namespace Sys2Proof.Machine

/-- An agent of R221 whose messages reach the grid: its die is trained and not fenced (R295). Other numbers name none. -/
def Pkg.agentUp (p : Pkg) (a : Nat) : Bool :=
  if a < 12 then p.dieUp a
  else if 0x20 ≤ a ∧ a < 0x2C then p.dieUp (a - 0x20)
  else decide (0x10 ≤ a ∧ a ≤ 0x1E)

/-- The message of a row. -/
def rowMsg (h : MsgHead) (src dst : Nat) (b : MsgBody) : Msg :=
  { body := b, line := h.line, pid := h.pid.val, src := src, dst := dst, txid := h.txid.val, urg := h.urg.val }

/-- A row brings a message in, when `ok` tells that its sender and receiver can exchange it. A PID that cannot be read is a
hub failure (R249). -/
def Pkg.bring (p : Pkg) (h : MsgHead) (ok : Bool) (m : Msg) : Pkg :=
  if !ok then p
  else if !h.readable then p.hubFail (pgDS (mcOf h.line))
  else p.arrive m

/-- A request reaches its home and reads the entry of its line (R229, R230). A die sends none for a line whose eviction is
pending (R225). -/
def Pkg.bringReq (p : Pkg) (q : CohReq) (ok : Bool) (r : HomeReq) : Pkg :=
  let ok := ok && !(match p.dline q.src.val q.line with | some x => x.evicting | none => false)
  let p := if ok && q.readable then p.readCode q.line q.code else p
  p.bring q.toMsgHead ok { r with urg := q.urg.val }.msg

/-- A request of a die arrives; the other agents issue only IoRd and IoWr (R230). -/
def Pkg.dieReq (p : Pkg) (k : ReqKind) (q : CohReq) : Pkg :=
  p.bringReq q (p.dieUp q.src.val) (mkReq k q.line q.pid.val q.src.val q.txid.val)

/-- An eviction of a die arrives and reads the entry of its line. -/
def Pkg.dieEvicts (p : Pkg) (q : CohReq) (b : MsgBody) : Pkg :=
  let ok := p.dieUp q.src.val
  let p := if ok && q.readable then p.readCode q.line q.code else p
  p.bring q.toMsgHead ok (rowMsg q.toMsgHead q.src.val 0x3F b)

/-- RDS (R237). -/
def execRds (q : CohReq) (s : State) : Host.Outcome State Fault Refusal := s.upd (fun p => p.dieReq .rds q)

/-- RDO (R237). -/
def execRdo (q : CohReq) (s : State) : Host.Outcome State Fault Refusal := s.upd (fun p => p.dieReq .rdo q)

/-- UPG (R237). -/
def execUpg (q : CohReq) (s : State) : Host.Outcome State Fault Refusal := s.upd (fun p => p.dieReq .upg q)

/-- WBD (R242): a dirty eviction; its WbData follows or is already here. -/
def execWbd (q : CohReq) (s : State) : Host.Outcome State Fault Refusal := s.upd (fun p => p.dieEvicts q .wbd)

/-- EVC (R242): a clean eviction. -/
def execEvc (q : CohReq) (s : State) : Host.Outcome State Fault Refusal := s.upd (fun p => p.dieEvicts q .evc)

/-- IORD (R237): `len` bytes from byte `off` of the line; `dist` is what the read finds disturbed in the cells. -/
def execIord (q : CohReq) (off : Fin 64) (len : Nat) (dist : Disturb) (s : State) : Host.Outcome State Fault Refusal :=
  s.upd (fun p =>
    let ok := p.agentUp q.src.val && decide (1 ≤ len ∧ off.val + len ≤ 64)
    (if ok then p.disturb q.line dist else p).bringReq q ok
      { mkReq .iord q.line q.pid.val q.src.val q.txid.val with off := off.val, len := len })

/-- The code of an operation (R233). -/
def ioOpCode : IoOp → Nat
  | .write => 0 | .cas => 1 | .add => 2 | .sub => 3 | .and => 4 | .or => 5 | .xor => 6 | .andn => 7

/-- The lengths an IoWr may have: 1 to 64 bytes for a write, 1, 2, 4 or 8 for an operation (R233). -/
def ioLenOk (op : IoOp) (off len : Nat) : Bool :=
  decide (1 ≤ len ∧ off + len ≤ 64) && (op == .write || len == 1 || len == 2 || len == 4 || len == 8)

/-- IOWR (R241): the request; its WbData follows or is already here. -/
def execIowr (q : CohReq) (off : Fin 64) (len : Nat) (op : IoOp) (s : State) : Host.Outcome State Fault Refusal :=
  s.upd (fun p => p.bringReq q (p.agentUp q.src.val && ioLenOk op off.val len)
    { mkReq .iowr q.line q.pid.val q.src.val q.txid.val with
      off := off.val, len := len, op := ioOpCode op, ready := false })

/-- CONFLICT_QUEUE_SERVE (R234): the oldest waiting request of a line whose transaction has ended. -/
def execConflictQueueServe (line : Nat) (s : State) : Host.Outcome State Fault Refusal :=
  s.upd (fun p => Pkg.homeRun 8 (p.serveNext line))

/-- A snoop reaches a die. A fenced die receives nothing; the slice answers for it (R246). -/
def Pkg.bringSnoop (p : Pkg) (d : Die) (h : MsgHead) (b : MsgBody) : Pkg :=
  p.bring h (p.dieUp d.val) (rowMsg h 0x3F d.val b)

/-- SNPINV (R239). -/
def execSnpinv (d : Die) (h : MsgHead) (s : State) : Host.Outcome State Fault Refusal :=
  s.upd (fun p => p.bringSnoop d h .snpInv)

/-- SNPSHR (R239). -/
def execSnpshr (d : Die) (h : MsgHead) (fwdto : Fin 64) (s : State) : Host.Outcome State Fault Refusal :=
  s.upd (fun p => p.bringSnoop d h (.snpShr fwdto.val))

/-- SNPFWD (R239). -/
def execSnpfwd (d : Die) (h : MsgHead) (fwdto : Fin 64) (s : State) : Host.Outcome State Fault Refusal :=
  s.upd (fun p => p.bringSnoop d h (.snpFwd fwdto.val))

/-- CMP_MESSAGE (R238). -/
def execCmpMessage (dst : Fin 64) (h : MsgHead) (grant : Fin 4) (df : Bool) (s : State) :
    Host.Outcome State Fault Refusal :=
  s.upd (fun p => p.bring h (p.agentUp dst.val) (rowMsg h 0x3F dst.val (.cmp grant.val df)))

/-- ACK (R225, R234): the requester's Ack at the home, or the home's Ack at a die that evicts. -/
def execAck (toHome : Bool) (d : Die) (h : MsgHead) (s : State) : Host.Outcome State Fault Refusal :=
  s.upd (fun p => p.bring h (p.dieUp d.val)
    (if toHome then rowMsg h d.val 0x3F .ack else rowMsg h 0x3F d.val .ack))

/-- SNPRSP (R237). RESP 3 is not a value of R232, so no message carries it. -/
def execSnprsp (d : Die) (h : MsgHead) (resp : Fin 4) (s : State) : Host.Outcome State Fault Refusal :=
  s.upd (fun p => p.bring h (p.dieUp d.val && decide (resp.val < 3)) (rowMsg h d.val 0x3F (.snpRsp resp.val)))

/-- ERR (R232, R249): the transaction fails at its requester. An Err TIMEOUT on a coherent request is a protocol error. No
message carries a STATUS that R232 does not name. -/
def execErr (dst : Fin 64) (h : MsgHead) (status : Fin 8) (s : State) : Host.Outcome State Fault Refusal :=
  s.upd (fun p =>
    let ok := p.agentUp dst.val && decide (1 ≤ status.val ∧ status.val ≤ 3)
    let coherent := (p.agentReqs dst.val).any (fun q => q.txid == h.txid.val && q.kind.caches)
    let q := p.bring h ok (rowMsg h 0x3F dst.val (.err status.val))
    if ok && h.readable && coherent && status.val == 1 then q.raiseDcs h.pid.val dst.val else q)

/-- DATA (R238): from a home or a die to a requester, or to the home. -/
def execData (src dst : Fin 64) (h : MsgHead) (bytes : List Byte) (dirty poison : Bool) (s : State) :
    Host.Outcome State Fault Refusal :=
  s.upd (fun p => p.bring h ((src.val == 0x3F || p.dieUp src.val) && (dst.val == 0x3F || p.agentUp dst.val) && src != dst)
    (rowMsg h src.val dst.val (.data bytes dirty poison)))

/-- WBDATA (R230, R241). -/
def execWbdata (src : Fin 64) (h : MsgHead) (bytes : List Byte) (mask : Word) (dirty poison : Bool) (s : State) :
    Host.Outcome State Fault Refusal :=
  s.upd (fun p => p.bring h (p.agentUp src.val) (rowMsg h src.val 0x3F (.wbData bytes mask.toNat dirty poison)))

/-! ### Background work of a slice -/

/-- AUDQ of DSn (R69, R255). -/
def Pkg.audQ (p : Pkg) (n : Nat) : Nat := p.cooled (quota (p.cf (pgDS n) 0x400 15 0) 64 4096 0xFFFF)

/-- The audit reads its next entry (R229); `code` is what the entry's code shows. Rules are checked between two
transactions of the line. -/
def Pkg.auditEntry (p : Pkg) (n : Nat) (code : DirCode) : Pkg :=
  let pg := pgDS n
  let pos := tblGet (fun _ => 0) p.coh.audit n
  let p := { p with coh := { p.coh with audit := tblSet (fun _ => 0) p.coh.audit n ((pos + 1) % 524288) } }
  let p := p.setPage pg { p.page pg with work := (p.page pg).work + 1 }
  match code with
  | .uncorrectable => p.hubFail pg
  | _ =>
    let p := if code = .corrected then p.setEvent pg 16 1 else p
    match (p.dirSet (n * 32768 + pos / 16)).ent (pos % 16) with
    | none => p
    | some e =>
      if e.busy ∨ entOk (p.fenceVec n) e then p
      else
        let line := e.tag * 32768 + ((pos / 16) ^^^ (e.tag % 32768))
        (p.setEvent pg 17 4 { Det.none with pids := [e.pid], addr := line * 64 }).protoError n e.pid line

/-- DIRECTORY_AUDIT (R229). -/
def execDirectoryAudit (ds : Fin 16) (code : DirCode) (s : State) : Host.Outcome State Fault Refusal :=
  s.upd (fun p =>
    let on : Bool := p.quotaOn s.mode.mode p.frameNum [.run, .degraded, .quiesce, .drizzle]
    if on ∧ p.loadHold (pgDS ds.val) = false ∧ (p.page (pgDS ds.val)).work < p.audQ ds.val then p.auditEntry ds.val code
    else p)

/-- DCS_SWEEP_COMPLETE (R250 steps 4 to 6). -/
def execDcsSweepComplete (pid : Pid) (s : State) : Host.Outcome State Fault Refusal :=
  s.upd (fun p =>
    let det := tblGet (fun _ => 0) p.coh.sweeps pid.val
    if det = 0 then p
    else
      let p := p.sweepPid pid.val
      let p := { p with coh := { p.coh with sweeps := tblErase p.coh.sweeps pid.val } }
      let p := p.setPart pid.val { p.part pid.val with logged := true }
      p.logEvent 0x0F 0 none (some pid.val) pgSTW (BitVec.ofNat 64 (det - 1)))

/-- DIRECTORY_PURGE (R247). -/
def execDirectoryPurge (ds : Fin 16) (d : Die) (s : State) : Host.Outcome State Fault Refusal :=
  s.upd (fun p => p.purgeSet ds.val d.val)

/-- PURGE_COMPLETE (R247). -/
def execPurgeComplete (d : Die) (s : State) : Host.Outcome State Fault Refusal := s.upd (fun p => p.purgeEnd d.val)

/-- LAST_CORE_DRAIN (R248): the drain of a partition's lines from a die ends. -/
def execLastCoreDrain (d : Die) (pid : Pid) (s : State) : Host.Outcome State Fault Refusal :=
  s.upd (fun p =>
    if p.coh.drains.contains (d.val, pid.val) then
      let p := p.diePurgePid d.val pid.val (fun _ => false)
      let p := { p with coh := { p.coh with drains := p.coh.drains.filter (fun x => x != (d.val, pid.val)) } }
      (List.range 18).foldl (fun p k =>
        let lc := d.val * 18 + k
        match tblGet (fun _ => none) p.stw.held lc with
        | some (q, run) =>
          if q = pid.val then
            let run := match p.pidOf lc with | some t => if p.dcs t then .stopped else run | none => run
            let stw := { p.stw with held := tblErase p.stw.held lc }
            ({ p with stw := stw }).setCore lc { p.core lc with run := run }
          else p
        | none => p) p
    else p)

/-- A directory entry in the layout of R227; a free way reads 0. -/
def dirWord : Option DirEnt → Word
  | none => 0
  | some e =>
    word [(63, 1), (61, if e.own then 2 else 1), (60, e.fenced.toNat), (59, e.busy.toNat), (52, e.pid), (40, e.pres), (0, e.tag)]

/-- DIRRD (R256): allowed in ACTIVE. -/
def Pkg.cmdDirrd (p : Pkg) (n set way : Nat) (code : DirCode) : Pkg :=
  let pg := pgDS n
  let p := p.setReg pg 0xC00 (word [(4, set), (0, way)])
  if p.blkState pg ≠ 1 ∨ p.busy pg then p.cmdWrong pg 0xC00
  else
    let e := (p.dirSet (n * 32768 + set)).ent way
    let p := if e.isNone then p else match code with
      | .clean => p
      | .corrected => p.setEvent pg 16 1
      | .uncorrectable => p.hubFail pg
    (p.setReg pg 0xC08 (dirWord e)).cmdOk pg 0xC00

/-- DIRRD; `code` is what the code of the entry shows (R229). -/
def execDirrd (who : Requester) (ds : Fin 16) (set : Fin 32768) (way : Fin 16) (code : DirCode) (s : State) :
    Host.Outcome State Fault Refusal :=
  s.upd (fun p => p.cmd who (pgDS ds.val) 0xC00 (fun p => p.cmdDirrd ds.val set.val way.val code))

/-- The bytes of a register that a read of a width returns, and whether it takes bits 31:0 (R27). -/
def readHalf (v : Word) : ReadWidth → List Byte
  | .quad => leBytes 8 v.toNat
  | .low => leBytes 4 v.toNat
  | .high => leBytes 4 (v.toNat / 2 ^ 32)

end Sys2Proof.Machine
end

