-- ==== Sys2Proof/Machine/Counters.lean ====
section
/-! DEFINITION. The control registers of a logical core (R79 to R81, R104, R192, R507 to R509, R513) and its counters
(R508 to R517). -/

namespace Sys2Proof.Machine

/-! ### Unit counters -/

/-- The select of counter k (R508). -/
def Core.pmsel (c : Core) (k : Nat) : Nat := fld (c.crGet (0x40 + k / 4)) (k % 4 * 16 + 15) (k % 4 * 16)

/-- Counter k is Monitor-owned. -/
def Core.pmOwnerM (c : Core) (k : Nat) : Bool := c.pmsel k / 2 ^ 14 % 2 == 1

/-- What one executed instruction, or a part of a restartable one, gives the counters to count (R515). -/
structure Tally where
  /-- The instruction completed; its class code 0x10 to 0x18, and the ORDER prefix. -/
  done : Bool
  cls : Nat
  order : Bool
  /-- Elements, MAC elements, decimal results that set DV, branches, traps. -/
  elems : Nat
  macel : Nat
  dv : Nat
  branch : Nat
  traps : Nat
  /-- Virtual addresses of loads, stores, and UC or device accesses. -/
  loads : List Nat
  stores : List Nat
  devs : List Nat
  /-- The micro-operations are not given by R157 (field instructions and EDIT). -/
  openUops : Bool
  deriving DecidableEq, Repr

/-- Nothing to count. -/
def Tally.zero : Tally :=
  { done := false, cls := 0, order := false, elems := 0, macel := 0, dv := 0, branch := 0, traps := 0, loads := [],
    stores := [], devs := [], openUops := false }

/-- Counts of two parts of one execution. -/
def Tally.add (a b : Tally) : Tally :=
  { done := a.done || b.done, cls := max a.cls b.cls, order := a.order || b.order, elems := a.elems + b.elems,
    macel := a.macel + b.macel, dv := a.dv + b.dv, branch := a.branch + b.branch, traps := a.traps + b.traps,
    loads := a.loads ++ b.loads, stores := a.stores ++ b.stores, devs := a.devs ++ b.devs,
    openUops := a.openUops || b.openUops }

/-- `n` occurrences without an address. -/
def plainOcc (n : Nat) : List (Option Nat) := List.replicate n none

/-- The occurrences of an event of R515, each with its address; none where they follow the pipeline or the clock and the
count is a free value. -/
def Tally.occ (t : Tally) (e : Nat) : Option (List (Option Nat)) :=
  match e with
  | 0x03 => some (plainOcc t.done.toNat)
  | 0x04 => if t.openUops then none else some (plainOcc (t.loads.length + t.stores.length + max t.done.toNat t.elems))
  | 0x05 => some (plainOcc t.elems)
  | 0x06 => some (plainOcc t.branch)
  | 0x19 => some (plainOcc (t.done && t.order).toNat)
  | 0x20 => if t.openUops then none else some (t.loads.map some)
  | 0x21 => if t.openUops then none else some (t.stores.map some)
  | 0x2C => some (t.devs.map some)
  | 0x40 => some (plainOcc t.macel)
  | 0x41 => some (plainOcc t.traps)
  | 0x42 => some (plainOcc t.dv)
  | 0x01 | 0x02 | 0x07 | 0x08 | 0x22 | 0x23 | 0x24 | 0x25 | 0x26 | 0x27 | 0x28 | 0x29 | 0x2A | 0x2B | 0x30 | 0x31
  | 0x32 | 0x33 | 0x34 | 0x35 => none
  | k => if 0x10 ≤ k ∧ k ≤ 0x18 then some (plainOcc (t.done && t.cls == k).toNat) else some []

/-- Counter k counts occurrences at level `pl` (R510, R513): enabled, not frozen, level and partition filters. -/
def Core.pmCounts (c : Core) (k pl : Nat) : Bool :=
  let s := c.pmsel k
  let m := c.pmOwnerM k
  let mctl := c.crGet 0x4F
  s / 2 ^ 15 % 2 == 1 && !bit (c.crGet 0x4C) (if m then 17 else 16) &&
    (match pl with | 0 => s / 2 ^ 9 % 2 == 1 | 1 => s / 2 ^ 10 % 2 == 1 | _ => m && s / 2 ^ 11 % 2 == 1) &&
    (!m || !bit mctl 15 || fld mctl 22 16 == fld (c.crGet 0x18) 22 16)

/-- The range filter (R510). -/
def Core.inRange (c : Core) (a : Option Nat) : Bool :=
  match a with
  | none => false
  | some v => decide (fld (c.crGet 0x4D) 47 0 ≤ v % 2 ^ 48 ∧ v % 2 ^ 48 ≤ fld (c.crGet 0x4E) 47 0)

/-- The counts that follow the pipeline and the clock: free values, from one draw for all counters. The four slot classes add up
to SLOTS, six for each cycle in C0, and SLBEMEM is a part of SLBE (R515, R516; log entry 1). -/
def openCount (fr : Nat → Nat) (e : Nat) : Nat :=
  let c0 := fr 0
  let ret := fr 2 % (6 * c0 + 1)
  let bad := fr 3 % (6 * c0 - ret + 1)
  let fe := fr 4 % (6 * c0 - ret - bad + 1)
  let be := 6 * c0 - ret - bad - fe
  match e with
  | 0x01 => c0
  | 0x02 => fr 1
  | 0x08 => fr 5 % (c0 + 1)
  | 0x30 => 6 * c0
  | 0x31 => ret
  | 0x32 => bad
  | 0x33 => fe
  | 0x34 => be
  | 0x35 => fr 6 % (be + 1)
  | _ => fr (7 + e)

/-- The range filter applies to the event: its occurrences have an address (R515). -/
def rangeEvent (e : Nat) : Bool := decide (0x20 ≤ e ∧ e ≤ 0x29) || e == 0x2C

/-- How far counter k advances; `fr` gives the free values of the execution. Under RANGE an event without an address counts
nothing (R510). -/
def Core.pmStep (c : Core) (k pl : Nat) (t : Tally) (fr : Nat → Nat) : Nat :=
  let e := c.pmsel k % 256
  let range := c.pmsel k / 2 ^ 12 % 2 == 1
  if !c.pmCounts k pl || (range && !rangeEvent e) then 0
  else
    match t.occ e with
    | none => openCount fr e
    | some os => if range then (os.filter c.inRange).length else os.length

/-- Add to counter number `k` (8: CYCLE), with its overflow (R513). -/
def Core.pmAdd (c : Core) (k n : Nat) : Core :=
  let num := if k = 8 then 0x4A else 0x42 + k
  let v := (c.crGet num).toNat + n
  let c := c.crSet num (BitVec.ofNat 64 v)
  if v < 2 ^ 64 then c
  else
    let m := k == 8 || c.pmOwnerM k
    let ovf := setBit (c.crGet 0x4C) k true
    let frz := if m then bit (c.crGet 0x4F) 2 else bit (c.crGet 0x4B) 2
    let c := c.crSet 0x4C (if frz then setBit ovf (if m then 17 else 16) true else ovf)
    let id := if m then fld (c.crGet 0x4F) 31 24 else fld (c.crGet 0x4B) 15 8
    if k < 8 ∧ c.pmsel k / 2 ^ 13 % 2 = 1 ∧ 0x10 ≤ id then { c with pend := c.pend ||| BitVec.ofNat 256 (2 ^ id) } else c

/-- Count what an execution at level `pl` gives. CYCLE advances by the cycles in C0 and C1 (R512), unless it is frozen. -/
def Pkg.count (p : Pkg) (lc pl : Nat) (t : Tally) : Pkg :=
  let fr := fun i => (Config.freeBits 64 (p.fresh + i)).toNat
  let c0 := p.core lc
  let c := (List.range 8).foldl (fun c k => c.pmAdd k (c0.pmStep k pl t fr)) c0
  let c := if bit (c0.crGet 0x4C) 17 then c else c.pmAdd 8 (fr 0 + fr 1)
  { (p.setCore lc c) with fresh := p.fresh + 263 }

/-- The counters of a tenant are cleared at a new assignment and at RESTART (R514). -/
def Core.clearTenant (c : Core) : Core :=
  let own := fun k => c.pmOwnerM k
  let selMask := fun (base : Nat) (w : Word) =>
    (List.range 4).foldl (fun w i => if own (base + i) then w else setFld w (16 * i + 15) (16 * i) 0) w
  let c' := (c.crSet 0x40 (selMask 0 (c.crGet 0x40))).crSet 0x41 (selMask 4 (c.crGet 0x41))
  let c' := (List.range 8).foldl (fun d k => if own k then d else d.crSet (0x42 + k) 0) c'
  let ovf := (List.range 8).foldl (fun w k => if own k then w else setBit w k false) (c.crGet 0x4C)
  (((c'.crSet 0x4B 0).crSet 0x4D 0).crSet 0x4E 0).crSet 0x4C (setBit ovf 16 false)

/-! ### Control registers -/

/-- A control register is defined (R80, R192, R507). -/
def crDefined (n : Nat) : Bool :=
  decide (n ≤ 0x02) || decide (0x08 ≤ n ∧ n ≤ 0x0C) || decide (0x10 ≤ n ∧ n ≤ 0x14) || n == 0x18 ||
  decide (0x20 ≤ n ∧ n ≤ 0x28) || decide (0x30 ≤ n ∧ n ≤ 0x37) || decide (0x40 ≤ n ∧ n ≤ 0x4F)

/-- The lowest level that may read a control register. IPISEND reads as 0 from S upward (DEDUCED, log entry 10). -/
def crReadLevel (n : Nat) : Nat :=
  if n = 0x00 then 0
  else if n = 0x02 ∨ 0x10 ≤ n ∧ n ≤ 0x14 ∨ 0x24 ≤ n ∧ n ≤ 0x27 ∨ 0x32 ≤ n ∧ n ≤ 0x37 ∨ n = 0x4F then 2
  else 1

/-- The lowest level that may write a control register; 3: none. -/
def crWriteLevel (n : Nat) : Nat :=
  if n = 0x00 then 0
  else if n = 0x0A ∨ n = 0x0B ∨ n = 0x12 ∨ n = 0x13 ∨ n = 0x18 ∨ 0x20 ≤ n ∧ n ≤ 0x23 ∨ n = 0x36 ∨ n = 0x37 then 3
  else if n = 0x02 ∨ n = 0x10 ∨ n = 0x11 ∨ n = 0x14 ∨ 0x24 ≤ n ∧ n ≤ 0x27 ∨ 0x32 ≤ n ∧ n ≤ 0x35 ∨ n = 0x4A ∨ n = 0x4F then 2
  else 1

/-- The bits of a control register that software writes whole; the rest is Reserved. -/
def crMask (n : Nat) : Word :=
  if n = 0x01 ∨ n = 0x02 then maskBits 63 12
  else if n = 0x30 then maskBits 63 48 ||| maskBits 47 12 ||| 1
  else if n = 0x32 ∨ n = 0x34 then maskBits 51 12 ||| 1
  else if n = 0x31 ∨ n = 0x33 ∨ n = 0x35 then maskBits 15 0
  else if n = 0x4B then maskBits 15 8 ||| maskBits 2 1
  else if n = 0x4F then maskBits 31 24 ||| maskBits 22 15 ||| maskBits 2 2
  else if n = 0x4D ∨ n = 0x4E then maskBits 63 0
  else maskBits 63 0

/-- Read a control register at a level that may (R81, R104, R509). -/
def Core.crRead (c : Core) (n pl : Nat) : Word :=
  if n = 0 then c.psw
  else if 0x20 ≤ n ∧ n ≤ 0x23 then
    let w := BitVec.ofNat 64 (c.pend.toNat / 2 ^ (64 * (n - 0x20)))
    if pl = 2 then w else w &&& ~~~(c.crGet (n + 4))
  else if 0x42 ≤ n ∧ n ≤ 0x49 ∧ pl < 2 ∧ c.pmOwnerM (n - 0x42) then 0
  else c.crGet n

/-- The PSW bits that a WRCR writes at a level (R79). -/
def pswMask (pl : Nat) : Word :=
  let u := maskBits 4 0 ||| maskBits 14 10
  if pl = 0 then u else u ||| maskBits 5 5 ||| maskBits 9 8 ||| maskBits 15 15 ||| maskBits 23 20

/-- Replace the bits of a mask. -/
def merge (old new mask : Word) : Word := (old &&& ~~~mask) ||| (new &&& mask)

/-- Bits of PMSELj that S writes: the selects of tenant-owned counters without OWNER, and without the Reserved bit. -/
def Core.pmselMask (c : Core) (j pl : Nat) : Word :=
  (List.range 4).foldl (fun w i =>
    let whole := maskBits (16 * i + 15) (16 * i + 9) ||| maskBits (16 * i + 7) (16 * i)
    let ten := maskBits (16 * i + 15) (16 * i + 15) ||| maskBits (16 * i + 13) (16 * i + 9) ||| maskBits (16 * i + 7) (16 * i)
    if pl = 2 then w ||| whole else if c.pmOwnerM (4 * j + i) then w else w ||| ten) 0

/-- Write a control register at a level that may; IPISEND is handled by its own operation (R79, R509, R513). -/
def Core.crWrite (c : Core) (n pl : Nat) (v : Word) : Core :=
  if n = 0 then { c with psw := merge c.psw v (pswMask pl) }
  else if n = 0x40 ∨ n = 0x41 then c.crSet n (merge (c.crGet n) v (c.pmselMask (n - 0x40) pl))
  else if 0x42 ≤ n ∧ n ≤ 0x49 then (if pl < 2 ∧ c.pmOwnerM (n - 0x42) then c else c.crSet n v)
  else if n = 0x4C then
    let ten := (List.range 8).foldl (fun w k => if c.pmOwnerM k then w else w ||| maskBits k k) (maskBits 16 16)
    let mask := if pl = 2 then maskBits 8 0 ||| maskBits 17 16 else ten
    c.crSet n (c.crGet n &&& ~~~(v &&& mask))
  else c.crSet n (merge (c.crGet n) v (crMask n))

/-- An IPISEND write (R105): the fault it raises, or the package with the interrupt sent. A target that is a logical core
outside the partition raises privilege also when the interrupt would be dropped; LC216 and above is none and is dropped
(DEDUCED, log entry 112). -/
def Pkg.ipiSend (p : Pkg) (lc pl : Nat) (v : Word) : Except Trap Pkg :=
  let target := fld v 23 16
  if fld v 63 24 ≠ 0 ∨ fld v 15 8 ≠ 0 then .error (Trap.of 0x08)
  else if pl < 2 ∧ target < 216 ∧ p.lcpid target ≠ p.lcpid lc then .error { Trap.of 0x08 with toM := true }
  else if 216 ≤ target ∧ pl < 2 then .ok p
  else if p.cmapSt target = 2 ∨ p.cmapSt target = 3 then .ok p
  else .ok (p.setPending target (fld v 7 0))

end Sys2Proof.Machine
end

