-- ==== Sys2Proof/Machine/MemRows.lean ====
section
/-! DEFINITION. Memory controllers: patrol scrub, row remapping, calibration and exclusion of a stack
(R322 to R336, R403). -/

namespace Sys2Proof.Machine

/-! ### Patrol scrub (R322, R403) -/

/-- A scrub pass ends: SCRUBPASS increments, and a boost has one pass fewer to come; `boost` is 1 once it is over. -/
def Pkg.scrubPassEnd (p : Pkg) (n : Nat) : Pkg :=
  let c := p.ctl n
  (p.setCtl n { c with boost := if 1 < c.boost then c.boost - 1 else c.boost }).addRf (pgMC n) 0x230 63 0 1

/-- Move on to the next line: the eight pseudo-channels in turn, then the next local line. -/
def Pkg.scrubAdvance (p : Pkg) (n : Nat) : Pkg :=
  let c := p.ctl n
  let p := p.setPage (pgMC n) { p.page (pgMC n) with work := (p.page (pgMC n)).work + 1 }
  if c.scrubPch < 7 then p.setCtl n { c with scrubPch := c.scrubPch + 1 }
  else
    let p := p.setCtl n { c with scrubPch := 0 }
    let next := (p.rf (pgMC n) 0x228 26 0 + 1) % 2 ^ 24
    let p := p.setRf (pgMC n) 0x228 26 0 next
    if next = 0 then p.scrubPassEnd n else p

/-- Read, decode and repair one line in the scrub. A line never written decodes as R323 gives. -/
def Pkg.scrubLine (p : Pkg) (line : Nat) (dist : Disturb) : Pkg :=
  let n := mcOf line
  let pg := pgMC n
  let p := (p.disturb line dist).evCount none 4 n none 4 1
  let det := fun (p : Pkg) => ({ Det.none with addr := line * 64, detail := p.reg pg 0x208 } : Det)
  match p.decode line with
  | .data fix =>
    match p.lineMeta line with
    | none => p
    | some m =>
      if fix = [] then p
      else
        let p := p.setLineMeta line (some { m with err := patXor m.err fix })
        let p := (p.setReg pg 0x208 (errlogWord p line 4 fix)).addRf pg 0x238 63 0 1
        (p.setEvent pg 19 1 (det p)).trackCe line
  | .poison => p.addRf pg 0x220 63 0 1
  | .ue =>
    let m := (p.lineMeta line).getD { pid := 128, gen := 0, tweak := line, err := [] }
    let p := p.setLineMeta line (some { m with pid := 128, err := poisonQ })
    let p := (p.setReg pg 0x208 (errlogWord p line 5 [])).addRf pg 0x218 63 0 1
    let p := p.setEvent pg 20 2 (det p)
    (p.trackUe line).scrubBoost n

/-- The line that the scrub of MCn reads next. -/
def Pkg.scrubNext (p : Pkg) (n : Nat) : Nat := lineAt n (p.ctl n).scrubPch (p.rf (pgMC n) 0x228 26 0 * 64)

/-- The scrub of MCn has a line to read: the package is in RUN or DEGRADED, the controller serves and the frame's quota
is not done. -/
def Pkg.scrubDue (p : Pkg) (md : Mode) (n : Nat) : Bool :=
  (md == .run || md == .degraded) && p.rf (pgMC n) 0x200 3 0 == 1 && !p.loadHold (pgMC n) &&
    decide ((p.page (pgMC n)).work < p.scrubLive n) && !p.rowHeld (p.scrubNext n)

/-- PATROL_SCRUB_READ (R322). -/
def execPatrolScrubRead (mc : Fin 16) (dist : Disturb) (s : State) : Host.Outcome State Fault Refusal :=
  s.upd (fun p =>
    let n := mc.val
    if p.scrubDue s.mode.mode n then
      (p.scrubLine (p.scrubNext n) dist).scrubAdvance n
    else p)

/-- SCRUB_BOOST_END (R403): SCRUBPASS has incremented twice since the boost began. -/
def execScrubBoostEnd (mc : Fin 16) (s : State) : Host.Outcome State Fault Refusal :=
  s.upd (fun p =>
    let c := p.ctl mc.val
    if c.boost = 1 then p.setCtl mc.val { c with boost := 0 } else p)

/-! ### Row remapping (R324 to R327, R335) -/

def Pkg.remapEnt (p : Pkg) (n i : Nat) : Word := tblGet (fun _ => 0) (p.ctl n).remap i

/-- Write a remap entry and recount RMCNT. -/
def Pkg.setRemap (p : Pkg) (n i : Nat) (e : Word) : Pkg :=
  let c := p.ctl n
  (p.setCtl n { c with remap := tblSet (fun _ => 0) c.remap i e }).refreshRmcnt n

/-- A FUSE entry: loaded from the fuse map (R325). -/
def isFuse (e : Word) : Bool := e != 0 && fld e 62 61 == 0

/-- The reserved bits of R324. -/
def remapReserved : Word :=
  maskBits 60 59 ||| maskBits 55 53 ||| maskBits 47 47 ||| maskBits 31 21 ||| maskBits 15 0

/-- Two entries name the same pseudo-channel and bank. -/
def sameBank (a b : Word) : Bool := fld a 58 56 == fld b 58 56 && fld a 52 48 == fld b 52 48

/-- Two entries name the same row. -/
def sameRow (a b : Word) : Bool := sameBank a b && fld a 46 32 == fld b 46 32

/-- Two entries name the same remap row. -/
def sameSpare (a b : Word) : Bool := sameBank a b && fld a 20 16 == fld b 20 16

/-- SET of entry `i` to `e` is refused with BAD_ARG (R325). -/
def Pkg.remapBad (p : Pkg) (n i : Nat) (e : Word) : Bool :=
  isFuse (p.remapEnt n i) || fld e 62 61 == 0 || fld e 62 61 == 3 || (e &&& remapReserved) != 0 ||
  (bit e 63 && (p.ctl n).remap.any (fun x => x.1 != i && bit x.2 63 && (sameRow x.2 e || sameSpare x.2 e)))

/-- The SET copies the row that the new entry names (R325). -/
def remapCopies (old e : Word) : Bool := bit e 63 && (!bit old 63 || !sameRow old e || !sameSpare old e)

/-- The steward logs a remap of its own once it is in force (R327). -/
def Pkg.logRemap (p : Pkg) (n : Nat) (e : Word) (byStw : Bool) : Pkg :=
  if byStw then p.logEvent 0x05 2 none none (pgMCR n) e else p

/-- SET of RMDATA into entry `i` (R325, R326). -/
def Pkg.remapSet (p : Pkg) (md : Mode) (n i : Nat) (byStw : Bool) : Pkg :=
  let pg := pgMCR n
  let e := p.reg pg 0xC08
  let running : Bool := match md with | .run | .degraded | .quiesce => true | _ => false
  if p.busy pg ∨ (md ≠ .load ∧ running = false) then p.cmdWrong pg 0xC00
  else if p.remapBad n i e then p.cmdBadArg pg 0xC00
  else if running ∧ remapCopies (p.remapEnt n i) e then
    let c := p.ctl n
    (p.setCtl n { c with copying := some (i, e, byStw) }).cmdPending pg 0xC00
  else ((p.setRemap n i e).cmdOk pg 0xC00).logRemap n e byStw

/-- SET of a requester: from the service host and the steward (R325). -/
def Pkg.cmdSet (p : Pkg) (md : Mode) (who : Requester) (n i : Nat) : Pkg :=
  let p := p.setRf (pgMCR n) 0xC00 7 0 i
  match who with
  | .host | .steward => p.remapSet md n i (who == .steward)
  | _ => p.cmdDenied (pgMCR n) 0xC00

/-- SET (R325): the write of RMCMD with SET and INDEX. -/
def execSet (who : Requester) (mc : Fin 16) (index : Fin 256) (s : State) : Host.Outcome State Fault Refusal :=
  s.upd (fun p => p.cmd who (pgMCR mc.val) 0xC00 (fun p => p.cmdSet s.mode.mode who mc.val index.val))

/-- READ (R335): the entry is loaded into RMDATA, in every state. -/
def Pkg.remapRead (p : Pkg) (n i : Nat) : Pkg :=
  (p.setReg (pgMCR n) 0xC08 (p.remapEnt n i)).cmdOk (pgMCR n) 0xC00

/-- READ. While a SET runs, its own report of R38 is still to come. -/
def execRead (who : Requester) (mc : Fin 16) (index : Fin 256) (s : State) : Host.Outcome State Fault Refusal :=
  s.upd (fun p => p.cmd who (pgMCR mc.val) 0xC00 (fun p =>
    (p.setRf (pgMCR mc.val) 0xC00 7 0 index.val).remapRead mc.val index.val))

/-- Copy one line's cells: as corrected data, or as poisoned for a UE or POISON outcome (R326 step 3). -/
def Pkg.copyCell (p : Pkg) (n line src dst : Nat) : Pkg :=
  let c4 := p.cf (pgMC n) 0x408 0 0 == 1
  let bytes := memBytes p.hbm.mem (src * 64) 64
  let m := (p.cellMeta src).getD { pid := 128, gen := 0, tweak := line, err := [] }
  let out : LineOut := match p.cellMeta src with
    | some m => decodeLine c4 m.err
    | none => if Config.luckyUninit line c4 p.fresh then .data [] else .ue
  let m : LineMeta := match out with
    | .data fix => { m with pid := if patXor m.err fix = [] then m.pid else 128, err := [] }
    | .poison => { m with err := poisonQ }
    | .ue => { m with pid := 128, err := poisonQ }
  let p := { p with hbm := { p.hbm with mem := memSetBytes p.hbm.mem (dst * 64) bytes } }
  p.setCellMeta dst (some m)

/-- Copy the 16 lines of the row that entry `e` names into its remap row, from where they are served now (R326). -/
def Pkg.copyRow (p : Pkg) (n : Nat) (old e : Word) : Pkg :=
  let pch := fld e 58 56
  let bank := fld e 52 48
  let row := fld e 46 32
  (List.range 16).foldl (fun p i =>
    let line := lineAt n pch (row * 2 ^ 15 + bank * 2 ^ 10 + i * 64)
    let src := if bit old 63 ∧ sameRow old e then spareCell n pch bank (fld old 20 16) i else line
    p.copyCell n line src (spareCell n pch bank (fld e 20 16) i)) p

/-- REMAP_COPY_COMPLETE (R326 steps 3 and 4). -/
def execRemapCopyComplete (mc : Fin 16) (s : State) : Host.Outcome State Fault Refusal :=
  s.upd (fun p =>
    let n := mc.val
    match (p.ctl n).copying with
    | none => p
    | some (i, e, byStw) =>
      let p := p.copyRow n (p.remapEnt n i) e
      let p := (p.setCtl n { p.ctl n with copying := none }).setRemap n i e
      let p := (p.cmdDone (pgMCR n) 0xC00 1).logRemap n e byStw
      p.coh.confq.foldl (fun (p : Pkg) (r : HomeReq) => Pkg.homeRun 8 (p.serveNext r.line)) p)

/-- The remap row that the steward takes in a bank: the lowest that no enabled entry names. -/
def Pkg.freeSpare (p : Pkg) (n pch bank : Nat) : Option Nat :=
  (List.range 32).find? (fun k => !(p.ctl n).remap.any (fun x =>
    bit x.2 63 && fld x.2 58 56 == pch && fld x.2 52 48 == bank && fld x.2 20 16 == k))

/-- The entry that the steward writes for a row: the one that remaps the row already, else the lowest free one. A row that
a FUSE entry names has none. -/
def Pkg.entryFor (p : Pkg) (n pch bank row : Nat) : Option Nat :=
  match (p.ctl n).remap.find? (fun x =>
    bit x.2 63 && fld x.2 58 56 == pch && fld x.2 52 48 == bank && fld x.2 46 32 == row) with
  | some x => if isFuse x.2 then none else some x.1
  | none => (List.range 256).find? (fun i => !bit (p.remapEnt n i) 63 && !isFuse (p.remapEnt n i))

/-- The steward serves the oldest row request of MCn (R327). -/
def Pkg.stewardRemap (p : Pkg) (md : Mode) (n : Nat) : Pkg :=
  match (p.ctl n).rowReqs with
  | [] => p
  | (pch, bank, row) :: rest =>
    let drop := fun (p : Pkg) => p.setCtl n { p.ctl n with rowReqs := rest }
    match p.entryFor n pch bank row, p.freeSpare n pch bank with
    | some i, some k =>
      let e := word [(63, 1), (61, 2), (56, pch), (48, bank), (32, row), (16, k)]
      ((drop p).setReg (pgMCR n) 0xC08 e).setRf (pgMCR n) 0xC00 7 0 i |>.remapSet md n i true
    | _, _ => (drop p).logEvent 0x06 2 none none (pgMC n) (p.reg (pgMC n) 0x208)

/-- ROW_REMAP (R327): at a tick, when the policy allows it and MCRn runs no other SET. -/
def execRowRemap (mc : Fin 16) (s : State) : Host.Outcome State Fault Refusal :=
  s.upd (fun p =>
    let ok : Bool := match s.mode.mode with | .run | .degraded | .quiesce | .load => true | _ => false
    if ok ∧ p.loadHold pgSTW = false ∧ p.cf pgSTW 0x400 2 2 = 0 ∧ p.busy (pgMCR mc.val) = false ∧ p.isRipe .remap mc.val then
      (p.stewardRemap s.mode.mode mc.val).unripe .remap mc.val
    else p)

/-! ### Calibration and exclusion (R330, R331, R336) -/

/-- The stack is trained and the quota of R69 leaves a slot: CALQ slots per 1,024 frames, counted in the page's work. -/
def Pkg.calDue (p : Pkg) (md : Mode) (k : Nat) : Bool :=
  let on : Bool := match md with | .load | .run | .degraded | .quiesce => true | _ => false
  on && p.rf (pgHPHY k) 0x200 3 0 == 2 && !p.loadHold (pgHPHY k) && decide ((p.page (pgHPHY k)).work < p.calQ k)

/-- CALIBRATION (R330, R331): each channel has two pseudo-channels; pseudo-channel `pc` 0 to 7 of the stack is MC(2k)'s, 8 to 15 MC(2k+1)'s. -/
def execCalibration (hs : Fin 8) (pc : Fin 16) (ok : Bool) (s : State) : Host.Outcome State Fault Refusal :=
  s.upd (fun p =>
    let pg := pgHPHY hs.val
    let n := 2 * hs.val + pc.val / 8
    if p.calDue s.mode.mode hs.val then
      let c := p.ctl n
      let fails := if ok then 0 else tblGet (fun _ => 0) c.calFail (pc.val % 8 / 2) + 1
      let p := p.setCtl n { c with calFail := tblSet (fun _ => 0) c.calFail (pc.val % 8 / 2) fails }
      let p := p.addRf pg 0x208 31 0 1
      let p := if ok then p else p.addRf pg 0x208 63 32 1
      let p := p.setPage pg { p.page pg with work := (p.page pg).work + 1 }
      if fails = 16 then p.mcDisable n 2 else p
    else p)

/-- EXCLUDE (R336): the stack is excluded and its two controllers are disabled. -/
def Pkg.excludeStack (p : Pkg) (md : Mode) (k : Nat) : Pkg :=
  let pg := pgHPHY k
  if md ≠ .load ∨ p.rf pg 0x200 3 0 = 3 then p.cmdWrong pg 0xC00
  else
    let p := p.setRf pg 0x200 3 0 3
    let p := { p with boot := { p.boot with training := p.boot.training.filter (· != 14 + k),
                                            waits := tblErase p.boot.waits (14 + k) } }
    ((p.mcDisable (2 * k) 1).mcDisable (2 * k + 1) 1).cmdOk pg 0xC00

/-- The EXCLUDE command of a requester: only the service host may issue it. -/
def Pkg.cmdExcludeStack (p : Pkg) (md : Mode) (who : Requester) (k : Nat) : Pkg :=
  p.cmd who (pgHPHY k) 0xC00 (fun p =>
    match who with
    | .host => p.excludeStack md k
    | _ => p.cmdDenied (pgHPHY k) 0xC00)

/-- EXCLUDE. -/
def execExclude (who : Requester) (hs : Fin 8) (s : State) : Host.Outcome State Fault Refusal :=
  s.upd (fun p => p.cmdExcludeStack s.mode.mode who hs.val)

end Sys2Proof.Machine
end

