-- ==== Sys2Proof/Machine/Steward.lean ====
section
/-! DEFINITION. The steward: partition commands and what they do at the tick (R397 to R399), core sparing and wear
rotation (R404 to R407), the logs as they are read (R410, R529, R535), and the failures of units, registers and hub clocks
(R34, R293, R401, R404). -/

namespace Sys2Proof.Machine

/-! ### Partition commands (R397, R398) -/

/-- Write the fields of PCMD (R397). -/
def Pkg.pcmdFields (p : Pkg) (op pid lc : Nat) : Pkg := p.setReg pgSTW 0xC40 (word [(16, lc), (8, pid), (0, op)])

/-- The modes in which the partition commands are allowed (R397). -/
def pcmdMode (md : Mode) : Bool := match md with | .run | .degraded | .quiesce => true | _ => false

/-- The end of an allowed or refused partition command; it never sets BUSY. -/
def Pkg.pcmdIf (p : Pkg) (ok : Bool) (f : Pkg → Pkg) : Pkg := if ok then (f p).cmdOk pgSTW 0xC40 else p.cmdWrong pgSTW 0xC40

/-- Some logical core belongs to the partition. -/
def Pkg.hasCores (p : Pkg) (pid : Nat) : Bool := (List.range 216).any (fun lc => p.lcpid lc == pid)

/-- DEFINE (R398). -/
def Pkg.cmdDefine (p : Pkg) (md : Mode) (pid : Nat) : Pkg :=
  let p := p.pcmdFields 1 pid 0
  let vec := p.rf pgSTW 0xC48 51 12 * 4096
  if pcmdMode md ∧ hbmSize ≤ vec then p.cmdBadArg pgSTW 0xC40
  else p.pcmdIf (pcmdMode md && pid != 0 && (p.part pid).st == .free)
    (fun p => p.setPart pid { p.part pid with st := .defined, vec := vec })

/-- Record an assignment; a later one of the same core replaces it. -/
def Pkg.record (p : Pkg) (lc target origin : Nat) : Pkg :=
  { p with stw := { p.stw with assigns := tblSet (fun _ => none) p.stw.assigns lc (some (target, origin)) } }.unripe .assign lc

/-- ASSIGN (R398). -/
def Pkg.cmdAssign (p : Pkg) (md : Mode) (who : Requester) (pid lc : Nat) : Pkg :=
  let p := p.pcmdFields 2 pid lc
  let present := match p.pidOf lc with | some q => (p.part q).st != .checkstopped | none => true
  p.pcmdIf (pcmdMode md && (p.part pid).st == .defined && p.mapped lc && present)
    (fun p => p.record lc pid (originOf who))

/-- UNASSIGN (R398). -/
def Pkg.cmdUnassign (p : Pkg) (md : Mode) (who : Requester) (lc : Nat) : Pkg :=
  let p := p.pcmdFields 3 0 lc
  let ok := match p.pidOf lc with | some q => (p.part q).st != .checkstopped | none => false
  p.pcmdIf (pcmdMode md && ok) (fun p => p.record lc 0x80 (originOf who))

/-- RESTART (R398). -/
def Pkg.cmdRestart (p : Pkg) (md : Mode) (pid : Nat) : Pkg :=
  let p := p.pcmdFields 4 pid 0
  let x := p.part pid
  p.pcmdIf (pcmdMode md && pid != 0 && x.st == .checkstopped && x.logged)
    (fun p => (p.setPart pid { x with restart := true }).unripe .restart pid)

/-- RELEASE (R398). -/
def Pkg.cmdRelease (p : Pkg) (md : Mode) (who : Requester) (pid : Nat) : Pkg :=
  let p := p.pcmdFields 5 pid 0
  let x := p.part pid
  p.pcmdIf (pcmdMode md && pid != 0 && x.st == .defined && !p.hasCores pid && decide (x.gen < 0xFFFF))
    (fun p => (p.setPart pid { x with release := some (originOf who) }).unripe .release pid)

/-- REKEY through PCMD (R398, R374). -/
def Pkg.cmdPcmdRekey (p : Pkg) (md : Mode) (who : Requester) (pid : Nat) : Pkg :=
  let p := p.pcmdFields 6 pid 0
  let st := (p.part pid).st
  p.pcmdIf (pcmdMode md && ((st == .defined && !p.hasCores pid) || st == .checkstopped) && p.rekeyOk md pid)
    (fun p => p.noteRekey pid (originOf who))

/-- DEFINE. -/
def execDefine (who : Requester) (pid : Pid) (s : State) : Host.Outcome State Fault Refusal :=
  s.upd (fun p => p.cmd who pgSTW 0xC40 (fun p => p.cmdDefine s.mode.mode pid.val))

/-- ASSIGN. -/
def execAssign (who : Requester) (pid : Pid) (lc : Lc) (s : State) : Host.Outcome State Fault Refusal :=
  s.upd (fun p => p.cmd who pgSTW 0xC40 (fun p => p.cmdAssign s.mode.mode who pid.val lc.val))

/-- UNASSIGN. -/
def execUnassign (who : Requester) (lc : Lc) (s : State) : Host.Outcome State Fault Refusal :=
  s.upd (fun p => p.cmd who pgSTW 0xC40 (fun p => p.cmdUnassign s.mode.mode who lc.val))

/-- RESTART. -/
def execRestart (who : Requester) (pid : Pid) (s : State) : Host.Outcome State Fault Refusal :=
  s.upd (fun p => p.cmd who pgSTW 0xC40 (fun p => p.cmdRestart s.mode.mode pid.val))

/-- RELEASE. -/
def execRelease (who : Requester) (pid : Pid) (s : State) : Host.Outcome State Fault Refusal :=
  s.upd (fun p => p.cmd who pgSTW 0xC40 (fun p => p.cmdRelease s.mode.mode who pid.val))

/-- PCMD_REKEY. -/
def execPcmdRekey (who : Requester) (pid : Pid) (s : State) : Host.Outcome State Fault Refusal :=
  s.upd (fun p => p.cmd who pgSTW 0xC40 (fun p => p.cmdPcmdRekey s.mode.mode who pid.val))

/-! ### What happens at the tick (R398, R399) -/

/-- The core executes instructions, or waits in WAITF. -/
def CoreRun.executes : CoreRun → Bool
  | .executing | .waiting _ => true
  | _ => false

/-- The pending bits that a reassignment keeps: those whose ILVL bit is 1 (R106). -/
def Core.keepPend (c : Core) : BitVec 256 :=
  c.pend &&& (c.crGet 0x27 ++ c.crGet 0x26 ++ c.crGet 0x25 ++ c.crGet 0x24)

/-- The core is the last one of its old partition on its die: the die drains the partition, and a core with a new
partition waits for the end of the drain (R248). -/
def Pkg.leavePid (p : Pkg) (lc : Nat) (old : Option Nat) : Pkg :=
  match old with
  | none => p
  | some q =>
    let d := lcDie lc
    if (List.range 18).any (fun k => p.lcpid (d * 18 + k) == q) then p
    else
      let p := { p with coh := { p.coh with drains := p.coh.drains.filter (fun x => x != (d, q)) ++ [(d, q)] } }
      let c := p.core lc
      if c.run.executes then
        let stw := { p.stw with held := tblSet (fun _ => none) p.stw.held lc (some (q, c.run)) }
        ({ p with stw := stw }).setCore lc { c with run := .stopped }
      else p

/-- The core as an assignment or a RESTART starts it (R82): what R514 keeps of its counters stands. -/
def Core.restart (c : Core) (vec lcid : Nat) : Core :=
  let k := c.clearTenant
  (List.range 16).foldl (fun d n => d.crSet (0x40 + n) (k.crGet (0x40 + n))) (Core.start vec lcid)

/-- A core reset at a tick: the core starts for a partition, and its unit's translations are emptied (R82, R212, R399; log
entry 63). -/
def Pkg.restartCore (p : Pkg) (lc pid : Nat) : Pkg :=
  ((p.emptyTlbs (p.unitOf lc)).setCore lc ((p.core lc).restart (p.part pid).vec (pid * 0x10000 + lc))).setLcpid lc pid

/-- An executing core goes on under another LCID[22:16] (R399): pending bits of ILVL 0 and the tenant's counters are cleared
when it changes (R106, R514). -/
def Core.reassign (c : Core) (target : Nat) : Core :=
  if fld (c.crGet 0x18) 22 16 = target then c
  else
    let k := c.clearTenant.crSet 0x18 (setFld (c.crGet 0x18) 22 16 target)
    { k with pend := c.keepPend }

/-- A recorded assignment at the tick (R399). -/
def Pkg.assignApply (p : Pkg) (lc target origin : Nat) : Pkg :=
  let c := p.core lc
  let old := p.pidOf lc
  let held := tblGet (fun _ => none) p.stw.held lc
  let run := match held with | some (_, r) => r | none => c.run
  if !p.mapped lc || (target < 128 && (p.part target).st != .defined) || (run.executes && c.pl != 2) then
    (p.setEvent pgSTW 16 3 { Det.none with pids := old.toList, lc := some lc }).logEvent 0x11 origin (some lc) old pgSTW
      (BitVec.ofNat 64 target)
  else if 128 ≤ target then
    let stw := { p.stw with held := tblErase p.stw.held lc }
    (({ p with stw := stw }).setCore lc { c with run := .idle, io := [], ioPos := 0 }).setLcpid lc 0x80 |>.leavePid lc old
  else if run.executes then
    ((p.setCore lc (c.reassign target)).setLcpid lc target).leavePid lc old
  else (p.restartCore lc target).leavePid lc old

/-- ASSIGNMENT_APPLY: at the tick after its command the steward applies the recorded assignment of a core, or drops it (R74,
R399). -/
def execAssignmentApply (lc : Lc) (s : State) : Host.Outcome State Fault Refusal :=
  s.upd (fun p =>
    match tblGet (fun _ => none) p.stw.assigns lc.val with
    | none => p
    | some (target, origin) =>
      if !p.isRipe .assign lc.val then p
      else
      let stw := { p.stw with assigns := tblErase p.stw.assigns lc.val }
      ({ p with stw := stw }).assignApply lc.val target origin)

/-- RESTART_APPLY: at the tick after the command DCSVEC clears, the PID is DEFINED and its MAPPED cores restart (R398). -/
def execRestartApply (pid : Pid) (s : State) : Host.Outcome State Fault Refusal :=
  s.upd (fun p =>
    let x := p.part pid.val
    if !x.restart || !p.isRipe .restart pid.val then p
    else
      let p := (p.setDcs pid.val false).setPart pid.val { x with st := .defined, restart := false, logged := false }
      (List.range 216).foldl (fun p lc =>
        if p.lcpid lc == pid.val && p.mapped lc then p.restartCore lc pid.val else p) p)

/-- RELEASE_APPLY: at the tick after the command the PID becomes FREE and is re-keyed at the tick after (R398, R374). -/
def execReleaseApply (pid : Pid) (s : State) : Host.Outcome State Fault Refusal :=
  s.upd (fun p =>
    let x := p.part pid.val
    match x.release with
    | none => p
    | some o =>
      if !p.isRipe .release pid.val then p
      else if x.st = .defined then
        (p.setPart pid.val { x with st := .free, vec := 0, release := none }).noteRekey pid.val o
      else p.setPart pid.val { x with release := none })

/-! ### Core sparing (R11, R12, R404, R405) -/

/-- The logical core that a unit in service runs. -/
def Pkg.lcOfUnit (p : Pkg) (d i : Nat) : Option Nat :=
  ((List.range 18).map (fun k => d * 18 + k)).find? (fun lc => p.mapped lc && p.unitOf lc == d * 20 + i)

/-- The L1s of a unit are written back and invalidated, its translations emptied (R164, R212). -/
def Pkg.unitLeave (p : Pkg) (u : Nat) : Pkg :=
  let lines := fun (p : Pkg) (c : Nat) => ((p.cache c).sets.flatMap (fun e => e.2.ways.filterMap (fun w =>
    if w.2.valid then some w.2.line else none)))
  let p := (lines p (cL1D u)).foldl (fun p l => p.leaveArray (cL1D u) l) p
  let p := (p.setCache (cL1D u) { p.cache (cL1D u) with sets := [] }).setCache (cL1I u) { p.cache (cL1I u) with sets := [] }
  p.emptyTlbs u

/-- The handover of logical core `lc` to the spare of its region; the freed unit becomes the spare in state `st` (R11, R404). -/
def Pkg.handover (p : Pkg) (reg lc st role code : Nat) : Pkg :=
  let d := reg / 2
  let old := p.cmapEnt lc % 512
  let new := p.spareEnt reg % 512
  let uo := d * 20 + physIdx old
  let un := d * 20 + physIdx new
  let intact := (p.unit uo).intact
  let p := (p.unitLeave uo).unitLeave un
  let x := p.unit uo
  let p := p.setUnit uo { PhysUnit.reset with failed := x.failed, res0 := x.res0, res1 := x.res1, res3 := x.res3 }
  let p := ((p.setCmap lc 1 new).setSpare reg st old).setRole d (physIdx old) role
  let p := p.setRole d (physIdx new) 1
  let stw := { p.stw with moved := p.stw.moved ++ [reg] }
  let p := ({ p with stw := stw }).logEvent code 2 (some lc) (p.pidOf lc) (pgREG d (reg % 2))
    (word [(16, old), (0, new)])
  if intact then p
  else
    let pid := p.lcpid lc
    let p := p.setCore lc { Core.start (p.part pid).vec (pid % 128 * 0x10000 + lc) with run := .stopped }
    if pid < 128 then p.raiseDcs pid d else p

/-- A spare that is not READY: sparing logs it once and retries; a hard failure leaves the core VACANT and its partition takes
a domain checkstop (R12, R13). -/
def Pkg.noSpare (p : Pkg) (reg lc i : Nat) : Pkg :=
  let d := reg / 2
  let u := d * 20 + i
  let x := p.unit u
  let p := if x.unavail then p
    else (p.setUnit u { x with unavail := true }).logEvent 0x0A 2 (some lc) (p.pidOf lc) (pgREG d (reg % 2))
      (BitVec.ofNat 64 reg)
  if !x.hard then p
  else
    let p := ((p.setCmap lc 2 (p.cmapEnt lc % 512)).setRole d i 3).setCore lc { p.core lc with run := .stopped }
    match p.pidOf lc with
    | some pid => (p.raiseDcs pid d).setLcpid lc 0x80
    | none => p

/-- The units of a region, by unit index. -/
def regionUnits (reg : Nat) : List Nat := (List.range 10).map (fun k => reg % 2 * 10 + k)

/-- The units of a region in service that ask for a handover: they reached SPARETHR or failed hard (R404). -/
def Pkg.asking (p : Pkg) (reg : Nat) : List Nat :=
  (regionUnits reg).filter (fun i =>
    let x := p.unit (reg / 2 * 20 + i)
    (x.hard || x.spareReq) && (p.lcOfUnit (reg / 2) i).isSome)

/-- CORE_SPARE_HANDOVER (R12, R74, R404): at the tick after their request the lowest of the asking units hands its core to a
READY spare (log entry 70); with none READY every asking unit gets what R12 and R13 give. -/
def execCoreSpareHandover (reg : Fin 24) (s : State) : Host.Outcome State Fault Refusal :=
  s.upd (fun p =>
    let reg := reg.val
    let d := reg / 2
    if !pcmdMode s.mode.mode || !p.dieUp d || p.stw.moved.contains reg then p
    else
      let units := (p.asking reg).filter (fun i => p.isRipe .spare (d * 20 + i))
      let served := fun (f : Pkg → Nat → Nat → Pkg) (p : Pkg) (i : Nat) =>
        match p.lcOfUnit d i with
        | some lc => f p lc i
        | none => p
      if p.spareEnt reg / 0x4000 = 1 then (units.take 1).foldl (served (fun p lc _ => p.handover reg lc 3 3 0x08)) p
      else units.foldl (served (fun p lc i => p.noSpare reg lc i)) p)

/-! ### Wear rotation and rolling self-test (R406, R407, R541) -/

/-- The aging-monitor reading of a unit (R521). -/
def Pkg.ageOf (p : Pkg) (d i : Nat) : Nat := p.rf (pgTELEM d) (0x210 + 8 * (i / 4)) (16 * (i % 4) + 15) (16 * (i % 4))

/-- The unit with the highest reading; the lowest index breaks ties. -/
def Pkg.oldest (p : Pkg) (d : Nat) (units : List Nat) : Option Nat :=
  units.foldl (fun a i => match a with
    | none => some i
    | some b => if p.ageOf d b < p.ageOf d i then some i else some b) none

/-- A due rotation finds its spare not READY: it waits, and SPARE_UNAVAILABLE is logged once (R12, R406). -/
def Pkg.rotNoSpare (p : Pkg) (reg : Nat) : Pkg :=
  if p.stw.rotNoted.contains reg then p
  else
    let stw := { p.stw with rotNoted := reg :: p.stw.rotNoted }
    ({ p with stw := stw }).logEvent 0x0A 2 none none (pgREG (reg / 2) (reg % 2)) (BitVec.ofNat 64 reg)

/-- WEAR_ROTATION: a rotation that is due takes place when the spare is READY and no sparing is asked for (R11, R12, R406). -/
def execWearRotation (reg : Fin 24) (s : State) : Host.Outcome State Fault Refusal :=
  s.upd (fun p =>
    let reg := reg.val
    let d := reg / 2
    let units := (regionUnits reg).filter (fun i => (p.lcOfUnit d i).isSome)
    if !(s.mode.mode == .run || s.mode.mode == .degraded) || !p.dieUp d || p.stw.moved.contains reg ||
        !p.stw.rotWait.contains reg || p.cf pgSTW 0x400 1 1 == 1 || p.asking reg != [] || !p.isRipe .rotate reg then p
    else if p.spareEnt reg / 0x4000 != 1 then p.rotNoSpare reg
    else
      match (p.oldest d units).bind (fun i => p.lcOfUnit d i) with
      | none => p
      | some lc =>
        let old := p.cmapEnt lc % 512
        let p := p.handover reg lc 2 2 0x09
        let no := fun (l : List Nat) => l.filter (fun r => r != reg)
        let stw := { p.stw with rotWait := no p.stw.rotWait, rotNoted := no p.stw.rotNoted }
        let pg := pgREG d (reg % 2)
        let p := ({ p with stw := stw }).setReg pg 0x3D8 (word [(16, p.frameNum % 0x10000), (0, old)])
        ((p.setReg pg 0x3E0 0).setReg pg 0x3E8 0).setReg pg 0x3F0 0)

/-- Both signatures of an online unit test equal the entries of the expected-signature file; with no file loaded only the
MBIST result is judged (R541). -/
def Pkg.unitSigOk (p : Pkg) (lsig msig : Word) : Bool :=
  match p.stw.expsig with
  | none => true
  | some es =>
    let has := fun (t : Nat) (m : Word) => es.any (fun e =>
      e.1 == 0x131 && e.2.1 == (Config.layout 0x131).toNat && e.2.2.1 == t && e.2.2.2 == m)
    has 3 lsig && has 4 msig

/-- UNIT_BIST_COMPLETE (R407, R541). Where the first failing word lies is a free value. -/
def execUnitBistComplete (reg : Fin 24) (fail : Bool) (lsig msig : Word) (s : State) : Host.Outcome State Fault Refusal :=
  s.upd (fun p =>
    let reg := reg.val
    let d := reg / 2
    let pg := pgREG d (reg % 2)
    let ph := p.spareEnt reg % 512
    if !(s.mode.mode == .run || s.mode.mode == .degraded) || !p.dieUp d || p.spareEnt reg / 0x4000 != 2 then p
    else
      let w := p.free 32
      let p := if fail then w.2 else p
      let p := ((p.setReg pg 0x3E8 lsig).setReg pg 0x3E0 msig).setReg pg 0x3F0
        (word [(63, 1), (62, fail.toNat), (0, if fail then w.1.toNat else 0)])
      if !fail && p.unitSigOk lsig msig then
        (p.setSpare reg 1 ph).logEvent 0x0B 2 none none pg (BitVec.ofNat 64 ph)
      else ((p.setSpare reg 3 ph).setRole d (physIdx ph) 3).logEvent 0x0C 2 none none pg (BitVec.ofNat 64 ph))

/-! ### Logs as they are read (R410, R529, R535) -/

/-- The four quads of an event record (R408). -/
def EvRec.quads (e : EvRec) : List Word :=
  let v := fun (x : Option Nat) (hi lo : Nat) => match x with | some n => [(hi, 1), (lo, n)] | none => []
  [BitVec.ofNat 64 e.seq, word [(56, e.code), (52, e.origin), (0, e.frame)],
   word (v e.lc 63 55 ++ v e.pid 54 47 ++ [(12, e.die), (0, e.block)]), e.detail]

/-- EVRD (R410). -/
def Pkg.cmdEvrd (p : Pkg) (index : Nat) : Pkg :=
  let q := match p.stw.events.find? (fun e => e.seq % 1024 == index) with | some e => e.quads | none => [0, 0, 0, 0]
  let p := p.setReg pgEVLOG 0xC00 (BitVec.ofNat 64 index)
  ((List.range 4).foldl (fun p i => p.setReg pgEVLOG (0xC08 + 8 * i) (q.getD i 0)) p).cmdOk pgEVLOG 0xC00

/-- MCRD (R535). The first quad of a record is its MCSEQ (R530). -/
def Pkg.cmdMcrd (p : Pkg) (index : Nat) : Pkg :=
  let q := (p.stw.mcs.find? (fun r => (r.headD 0).toNat % 256 == index)).getD []
  let p := p.setReg pgEVLOG 0xC40 (BitVec.ofNat 64 index)
  ((List.range 8).foldl (fun p i => p.setReg pgEVLOG (0xC48 + 8 * i) (q.getD i 0)) p).cmdOk pgEVLOG 0xC40

/-- EVRD. -/
def execEvrd (who : Requester) (index : Fin 1024) (s : State) : Host.Outcome State Fault Refusal :=
  s.upd (fun p => p.cmd who pgEVLOG 0xC00 (fun p => p.cmdEvrd index.val))

/-- MCRD. -/
def execMcrd (who : Requester) (index : Fin 256) (s : State) : Host.Outcome State Fault Refusal :=
  s.upd (fun p => p.cmd who pgEVLOG 0xC40 (fun p => p.cmdMcrd index.val))

/-- A write of MCLHEAD: N or more is discarded (R529). -/
def Pkg.writeMclhead (p : Pkg) (v : Word) : Pkg :=
  if p.mcRing ≤ fld v 11 0 then p else p.setReg pgSTW 0xC58 (BitVec.ofNat 64 (fld v 11 0))

/-- MCLHEAD_WRITE (R529). -/
def execMclheadWrite (who : Requester) (v : Word) (s : State) : Host.Outcome State Fault Refusal :=
  s.upd (fun p => p.cmd who pgSTW 0xC58 (fun p => p.writeMclhead v))

/-- QUOTA_OVERRUN: the event is raised at the tick at which CONSEC reaches a multiple of 3 (R73). -/
def execQuotaOverrun (pg : PageId) (s : State) : Host.Outcome State Fault Refusal :=
  s.upd (fun p =>
    let pg := pgOf pg
    if p.stw.overruns.contains pg then
      let stw := { p.stw with overruns := p.stw.overruns.filter (fun q => q != pg) }
      ({ p with stw := stw }).logEvent 0x0D 0 none none pg (p.reg pg 0x3F8)
    else p)

/-! ### Failures (R34, R293, R401, R404, R534) -/

/-- LOCKSTEP_MISMATCH: the two steward cores disagree, a hub failure (R401). -/
def execLockstepMismatch (s : State) : Host.Outcome State Fault Refusal :=
  s.upd (fun p => if p.stw.running then p.hubFail pgSTW else p)

/-- REGISTER_PARITY_ERROR: REGPAR sets; the die is fenced by command, or the package takes a checkstop (R34, R534). -/
def execRegisterParityError (pg : PageId) (s : State) : Host.Outcome State Fault Refusal :=
  s.upd (fun p =>
    let pg := pgOf pg
    if (blkOf pg).isNone || !p.answers pg then p
    else if pg < 49152 then (p.setEvent pg 3 4 { Det.none with agent := pg / 4096 }).askFence (pg / 4096) 7
    else (p.setEvent pg 3 5).raisePcs 1 pg)

/-- UNIT_ERROR: a corrected error counts toward SPARETHR; a hard failure waits for its handover (R404). -/
def execUnitError (d : Die) (i : Fin 20) (u : UnitFault) (s : State) : Host.Outcome State Fault Refusal :=
  s.upd (fun p =>
    let d := d.val
    let n := d * 20 + i.val
    let pg := pgL1D d i.val
    let lc := p.lcOfUnit d i.val
    if !p.dieUp d || lc.isNone then p
    else
      match u with
      | .corrected => (p.setEvent pg 16 1 { Det.none with lc := lc, agent := d }).unitCe n
      | .hard intact =>
        let p := p.setUnit n { p.unit n with hard := true, intact := intact }
        if intact then p
        else p.setEvent pg 17 4 { Det.none with pids := (lc.bind p.pidOf).toList, lc := lc, agent := d })

/-- HUB_PLL_LOSS_OF_LOCK: a loop of a powered hub domain loses lock (R293). -/
def execHubPllLossOfLock (k : Fin 36) (s : State) : Host.Outcome State Fault Refusal :=
  s.upd (fun p =>
    let k := k.val
    let on := if k = 1 then p.pw.island else p.pw.hubMain
    if !on || bit (p.reg pgHCLK 0x208) k then p
    else
      let p := p.setReg pgHCLK 0x200 (setBit (p.reg pgHCLK 0x200) k false)
      let p := p.setReg pgHCLK 0x208 (setBit (p.reg pgHCLK 0x208) k true)
      let det := { Det.none with detail := p.reg pgHCLK 0x208 }
      let cls := if k < 2 then 5 else if 24 ≤ k then 4 else 3
      let p := p.setEvent pgHCLK 16 cls det
      if k < 2 then p.raisePcs 1 pgHCLK
      else if k < 10 then (p.mcDisable (2 * (k - 2)) 2).mcDisable (2 * (k - 2) + 1) 2
      else if k < 12 then p.stackFail (k - 10)
      else if k < 18 then (List.range 4).foldl (fun p l => p.pcieDown (k - 12) l) p
      else if k < 22 then p.chainDown (k % 2 == 1)
      else if k < 24 then p.ucieLoss (k - 22)
      else if p.dieUp (k - 24) then p.fenceDie (k - 24) 2 else p)

end Sys2Proof.Machine
end

