-- ==== Sys2Proof/Machine/SvcFn.lean ====
section
/-! DEFINITION. The PCIe function of the service endpoint: configuration registers, D-states, INTA level, link, function
reset (R437 to R440, R448 to R453). -/

namespace Sys2Proof.Machine

/-! ### Configuration space (R438 to R440) -/

/-- The bits of a configuration dword that a write stores (R438, R439). Of Device Control the error enables and the payload size, of
Link Control the ASPM field, of Advanced Error Reporting the Unsupported Request bit (log entry 93). -/
def seCfgMask (n : Nat) : BitVec 32 :=
  match n with
  | 0x01 => 0x546
  | 0x03 => 0xFF
  | 0x04 => 0xF0000000
  | 0x05 | 0x07 => 0xFFFFFFFF
  | 0x06 => 0xC0000000
  | 0x0C => 0xFFFC0001
  | 0x0F => 0xFF
  | 0x11 => 0x100
  | 0x16 => 0xEF
  | 0x18 => 0x3
  | 0x42 | 0x43 => 0x100000
  | _ => 0

/-- Command: Memory Space Enable, Bus Master Enable, Interrupt Disable. -/
def Pkg.seMem (p : Pkg) : Bool := (p.seCfg 1).getLsbD 1
def Pkg.seMaster (p : Pkg) : Bool := (p.seCfg 1).getLsbD 2
def Pkg.seIntDis (p : Pkg) : Bool := (p.seCfg 1).getLsbD 10

/-- PMCSR: the function is in D3hot; PME_En; PME_Status (R450, R451). -/
def Pkg.seD3 (p : Pkg) : Bool := (p.seCfg 0x11).getLsbD 0
def Pkg.pmeEn (p : Pkg) : Bool := (p.seCfg 0x11).getLsbD 8
def Pkg.pmeStatus (p : Pkg) : Bool := (p.seCfg 0x11).getLsbD 15

/-- SESTAT[LINK]. -/
def Pkg.seLink (p : Pkg) : Bool := bit (p.reg pgSE 0x200) 4

/-- The function is in D0 (R450). -/
def Pkg.seD0 (p : Pkg) : Bool := !p.seD3 && !p.se.cold

/-- Requests of the host reach the function: the link is up. -/
def Pkg.seHears (p : Pkg) : Bool := p.powered pgSE && p.seLink && !p.pw.perst

/-! ### INTA (R448, R449) -/

/-- Some bit is 1 in INTSTAT and in INTCTL: Status[Interrupt Status]. -/
def Pkg.intStatus (p : Pkg) : Bool := (p.reg pgSE 0x208 &&& p.reg pgSE 0xC00) != 0

/-- The wire level without its D0 term, as PME uses it (R451), and the wire level (R448). -/
def Pkg.levelD0 (p : Pkg) : Bool := p.intStatus && !p.seIntDis
def Pkg.wireLevel (p : Pkg) : Bool := p.levelD0 && p.seD0

/-- SE sends a message to the service host: its PCI Express message code (0x20 Assert_INTA, 0x24 Deassert_INTA, 0x18
PM_PME). -/
def Pkg.seMessage (p : Pkg) (code : Nat) : Pkg := p.reply 0 0 [BitVec.ofNat 8 code] false

/-! ### The registers as a configuration read returns them (R438 to R440) -/

/-- PEND, HEAD, CHADDR and CHVALID are taken from the pages; `mode` is MODESTAT[MODE]. -/
def Pkg.seCfgRead (p : Pkg) (mode n : Nat) : BitVec 32 :=
  let w := fun (x : Nat) => BitVec.ofNat 32 x
  let v := p.seCfg n
  match n with
  | 0x00 => 0x4B121F6E
  | 0x01 => v ||| w (0x100000 + p.intStatus.toNat * 0x80000)
  | 0x02 => w (0x08800000 + Config.stepping.toNat)
  | 0x04 => v ||| 0x4
  | 0x06 => v ||| 0xC
  | 0x0B => 0x00011F6E
  | 0x0D => 0x40
  | 0x0F => v ||| 0x100
  | 0x10 => 0xC0035001
  | 0x11 => v ||| 0x8
  | 0x14 => 0x00029010
  | 0x15 => 0x10008002
  | 0x17 => 0x00000844
  | 0x18 => v ||| w (p.rf pgSE 0x200 14 12 * 0x10000 + p.rf pgSE 0x200 10 8 * 0x100000)
  | 0x1F => 0x1E
  | 0x24 => 0x01200009
  | 0x25 => 0x0C0A0000
  | 0x26 => w (p.head.toNat * 0x10000 + p.rf (pgCH false) 0x200 20 16 * 0x100 + p.rf (pgCH false) 0x200 21 21 * 0x80 + mode)
  | 0x28 => w p.frameNum
  | 0x29 => w p.se.framehi
  | 0x2A => w (p.rf pgSE 0x208 7 0)
  | 0x40 => 0x14820001
  | 0x52 => 0x00010003
  | 0x53 => BitVec.ofNat 32 (Config.serial.toNat % 2 ^ 32)
  | 0x54 => BitVec.ofNat 32 (Config.serial.toNat / 2 ^ 32)
  | _ => v

/-! ### Link and function reset -/

/-- SESTAT after training: width and speed are what the link reaches, a free value within R437 (log entry 1). -/
def Pkg.seTrain (p : Pkg) : Pkg :=
  let r := p.free 8
  let f := r.1.toNat
  r.2.setReg pgSE 0x200 (word [(12, f % 4 + 1), (8, 2 ^ (f / 4 % 3)), (4, 1)])

/-- The link is down. -/
def Pkg.seLinkOff (p : Pkg) : Pkg := p.setReg pgSE 0x200 0

/-- The state that a Function Level Reset and SVC_PERST_N reset (R452); PME_Status stays until the host clears it (R451). -/
def Pkg.seFnReset (p : Pkg) : Pkg :=
  let st := p.seCfg 0x11 &&& 0x8000
  let se := { p.se with cfg := tblSet (fun _ => 0) [] 0x11 st, inta := false, flr := false, evrFull := false }
  let p : Pkg := { p with se := se }
  [0xD00, 0xD08, 0xD10, 0x218].foldl (fun (p : Pkg) (off : Nat) => p.setReg pgSE off 0) p

/-! ### Event ring and mailbox registers (R454 to R456) -/

/-- N of the event ring; SIZELOG2 is cut to 4–12 (log entry 41). -/
def Pkg.evrSize (p : Pkg) : Nat := 2 ^ max 4 (min 12 (p.rf pgSE 0xD08 3 0))

/-- A write of EVRCFG; records created before EN became 1 are not copied (R454). -/
def Pkg.writeEvrcfg (p : Pkg) (v : Word) : Pkg :=
  let se := { p.se with evrSeq := p.stw.evSeq }
  let q : Pkg := if bit v 63 && !bit (p.reg pgSE 0xD08) 63 then { p with se := se } else p
  q.setReg pgSE 0xD08 (v &&& (maskBits 63 63 ||| maskBits 3 0))

/-- A write of EVRHEAD: N or more is discarded (R454). -/
def Pkg.writeEvrhead (p : Pkg) (v : Word) : Pkg :=
  let i := fld v 11 0
  if p.evrSize ≤ i then p else p.setReg pgSE 0xD10 (BitVec.ofNat 64 i)

/-- MBSTAT[STATE] is BUSY. -/
def Pkg.mbBusy (p : Pkg) : Bool := p.rf pgSE 0x210 1 0 == 1

/-- A write of MBREQ: discarded while BUSY, with ERRSTAT[MBBUSY] (R456). -/
def Pkg.writeMbreq (p : Pkg) (off : Nat) (v : Word) : Pkg :=
  if p.mbBusy then p.setEvent pgSE 17 1 else p.setReg pgSE off v

/-- A write of MBDB: TAG is stored, then GO is judged (R39, R456). -/
def Pkg.writeMbdb (p : Pkg) (v : Word) : Pkg :=
  let p := p.setReg pgSE 0xC80 (v &&& maskBits 15 0)
  if !bit v 31 then p
  else if p.busy pgSE ∨ p.mbBusy then p.cmdWrong pgSE 0xC80
  else
    let p := (p.setRf pgSE 0x210 31 16 (fld v 15 0)).setRf pgSE 0x210 1 0 1
    ((p.cmdPending pgSE 0xC80).wakeLatch 3).unripe .mailbox 0

/-! ### Mailbox requests and responses (R455 to R458) -/

/-- STATUS of a response (R458). -/
inductive MbStatus where
  | ok
  | badOpc
  | badArg
  | wrongState
  | sigFail
  | error
  deriving DecidableEq, Repr

/-- The code of a STATUS. -/
def MbStatus.code : MbStatus → Nat
  | .ok => 0
  | .badOpc => 1
  | .badArg => 2
  | .wrongState => 3
  | .sigFail => 4
  | .error => 5

/-- Quad `i` of the request. -/
def Pkg.mbReq (p : Pkg) (i : Nat) : Word := p.reg pgSE (0xC40 + 8 * i)

/-- A request with this opcode waits, and the steward's sampling cycle has taken it (R456). -/
def Pkg.mbHas (p : Pkg) (opc : Nat) : Bool := p.mbBusy && p.isRipe .mailbox 0 && fld (p.mbReq 0) 7 0 == opc

/-- The response: TAG, OPC and STATUS, seven result quads, DONE and INTSTAT[MBDONE]; the command ends (R38, R456). -/
def Pkg.mbRespond (p : Pkg) (st : MbStatus) (results : List Word) : Pkg :=
  let q : Pkg := p.setReg pgSE 0xCC0
    (word [(16, p.rf pgSE 0x210 31 16), (8, fld (p.mbReq 0) 7 0), (0, st.code)])
  let q := (List.range 7).foldl (fun (q : Pkg) (i : Nat) => q.setReg pgSE (0xCC8 + 8 * i) (results.getD i 0)) q
  ((q.setRf pgSE 0x210 1 0 2).cmdDone pgSE 0xC80 1).setRf pgSE 0x208 1 1 1

/-- The present steward serves the opcode (R457): the ROM loader IDENT and STWLOAD, the image IDENT, UNITFAIL and EXPSIG. -/
def Pkg.mbServes (p : Pkg) (opc : Nat) : Bool :=
  if p.stw.running then opc == 1 || opc == 3 || opc == 4 else opc == 1 || opc == 2

/-- The steward's sampling cycle ends a request whose opcode it does not serve with BAD_OPC (R456, R457). -/
def Pkg.mbTick (p : Pkg) : Pkg :=
  if p.mbBusy && !p.mbServes (fld (p.mbReq 0) 7 0) then p.mbRespond .badOpc [] else p

end Sys2Proof.Machine
end

