-- ==== Sys2Proof/Machine/Training.lean ====
section
/-! DEFINITION. Training and its retries, exclusion, LOADPROG and the rails of bring-up (R63, R416, R487 to R492, R553). -/

namespace Sys2Proof.Machine

/-! ### Parts (R63, R489) -/

/-- Frames before the next attempt: none when no attempt is due. -/
def Pkg.waitOf (p : Pkg) (t : Nat) : Nat := tblGet (fun _ => 0) p.boot.waits t

/-- The part never trains: the guest port of an unpopulated site (R1). -/
def Pkg.neverTrains (p : Pkg) (t : Nat) : Bool := decide (22 ≤ t ∧ t < 24) && !p.site (t - 22)

/-- A training attempt of a part starts: it is counted, and the part reads TRAINING (R489). -/
def Pkg.trainStart (p : Pkg) (t : Nat) : Pkg :=
  if p.neverTrains t then p
  else
  let pg := partPage t
  let bt := { p.boot with training := p.boot.training.filter (fun u => u != t) ++ [t], waits := tblErase p.boot.waits t }
  let p := (({ p with boot := bt }).addRf pg 0x200 63 48 1).setRf pg 0x200 3 0 1
  if 2 ≤ t ∧ t < 14 then p.setRf (pgMOCOR (t - 2)) 0x200 3 0 1
  else if 22 ≤ t ∧ t < 24 then { p with pw := { p.pw with gsw := tblSet (fun _ => false) p.pw.gsw (t - 22) true } }
  else p

/-- An attempt of a part failed: the next one starts `min(2^(n-1), 1024)` frames later (R63). A stack reads TRAINING through
the wait (R336), every other part DOWN. -/
def Pkg.trainFail (p : Pkg) (t : Nat) : Pkg :=
  let n := p.attempts t
  let bt := { p.boot with training := p.boot.training.filter (fun u => u != t),
                          waits := tblSet (fun _ => 0) p.boot.waits t (min (2 ^ (n - 1)) 1024 + 1) }
  let p := { p with boot := bt }
  if 14 ≤ t ∧ t < 22 then p
  else
    let p := p.setRf (partPage t) 0x200 3 0 0
    if 2 ≤ t ∧ t < 14 then p.setRf (pgMOCOR (t - 2)) 0x200 3 0 0 else p

/-- Every port whose page adopts its first copy starts its first attempt (R489); a die needs its rail, and is not fenced (R296). -/
def Pkg.firstAttempt (p : Pkg) (t : Nat) : Pkg :=
  let st := p.rf (partPage t) 0x200 3 0
  let ready :=
    if t = 0 then !p.head && st == 0
    else if t = 1 then !p.endCh && st == 0
    else if t < 14 then st == 0 && tblGet (fun _ => 0) p.pw.rails (t - 2) == 2 && !p.dieFenced (t - 2)
    else st == 0
  if ready && !p.boot.training.contains t && p.waitOf t == 0 then p.trainStart t else p

/-! ### What training reaches (R489) -/

/-- A part has finished its step (R489); no fence un-finishes it (R502). -/
def Pkg.partDone (p : Pkg) (t : Nat) : Pkg :=
  { p with boot := { p.boot with finished := p.boot.finished.filter (fun u => u != t) ++ [t] } }

/-- A Mocor link has trained: the failed lanes of each receive direction are known, the link is ACTIVE and the die's pages
answer; in LOAD the die enters D-IDLE (R283, R490, R62). -/
def Pkg.mocorTrained (p : Pkg) (md : ModeState) (d mask : Nat) : Pkg :=
  let f := fun (base : Nat) (l : Nat) => mask / 2 ^ (base + l) % 2 == 1
  if (goodLanes (f 0)).length < 16 ∨ (goodLanes (f 68)).length < 16 then p.trainFail (2 + d)
  else
    let p := (p.applyLanes d true (f 0)).applyLanes d false (f 68)
    let p := ((p.setRf (pgMP d) 0x200 3 0 2).setRf (pgMOCOR d) 0x200 3 0 2).dieClocks d
    let p := p.setLink d { DieLink.reset with disturbed := true }
    let bt := { p.boot with training := p.boot.training.filter (fun u => u != 2 + d) }
    let p := { p with boot := bt }
    if md.mode = .load then (p.setDieState d 1).partDone (2 + d) else p

/-- A stack has trained: its channels work and its controllers serve (R330, R336). -/
def Pkg.hbmTrained (p : Pkg) (k : Nat) : Pkg :=
  let p := ((p.partDone (14 + k)).setRf (pgHPHY k) 0x200 3 0 2).setRf (pgHPHY k) 0x200 15 8 0xFF
  [2 * k, 2 * k + 1].foldl (fun p n => if p.mcDisabled n then p else p.setRf (pgMC n) 0x200 3 0 1) p

/-- TRAINING_ATTEMPT_END: an attempt that runs ends (R489). `arg` is what training reached: the failed lanes of a Mocor link; the
failed lanes x 65,536 and the one-way delay of a chain link; the lanes x 256 and GT/s of a guest's; the lanes x 16 and SPEED of a
PCIe link. -/
def execTrainingAttemptEnd (part : Part) (ok : Bool) (arg : Nat) (s : State) : Host.Outcome State Fault Refusal :=
  s.upd (fun p =>
    let t := partNum part
    match part with
    | .pcie n link =>
      let pg := pgPE n.val
      let k := link.val
      let width := arg / 16
      let speed := arg % 16
      if ok ∧ p.answers pg ∧ p.blkState pg = 1 ∧ !p.linkUp n.val k ∧ [1, 2, 4, 8, 16].contains width ∧ 1 ≤ speed ∧ speed ≤ 5 then
        p.setRf pg 0x200 (16 * k + 15) (16 * k) (0x8000 + width * 256 + speed)
      else p
    | _ =>
      if !p.boot.training.contains t then p
      else if !ok then (if 22 ≤ t ∧ t < 24 then p.setGuest (t - 22) { p.guest (t - 22) with retrain := false } else p).trainFail t
      else
        let done := fun (p : Pkg) =>
          let bt := { p.boot with training := p.boot.training.filter (fun u => u != t) }
          { p with boot := bt }
        match part with
        | .chain down =>
          let pg := pgCH down
          let bad := maskLanes (arg / 65536)
          let w := chainWidth (8 - bad.length) 8
          if w = 3 then p.trainFail t
          else
            let p := ((done p).setRf pg 0x200 3 0 2).setRf pg 0x200 13 12 w
            let p := (p.setReg pg 0x208 (BitVec.ofNat 64 (arg % 65536))).setChPort down { ChPort.reset with bad := bad }
            if down then p.chdTrained else p
        | .mocor d => p.mocorTrained s.mode d.val arg
        | .hbm k => (done p).hbmTrained k.val
        | .guest n =>
          let p := done p
          let x := p.guest n.val
          if x.retrain then (p.setGuest n.val { x with retrain := false }).guestAgreed n.val (p.reg (pgGP n.val) 0x208)
          else ((p.setRf (pgGP n.val) 0x200 3 0 6).setReg (pgGP n.val) 0x210 0).setGuest n.val
            { x with width := arg / 256, rate := arg % 256 }
        | .ledger k => (done p).setRf (pgLSC k.val) 0x200 3 0 2
        | .pcie _ _ => p)

/-! ### Retries (R63, R296, R310, R465) -/

/-- LOAD_RETRY_ATTEMPT: the wait of a part has expired (R63). -/
def execLoadRetryAttempt (part : Part) (s : State) : Host.Outcome State Fault Refusal :=
  s.upd (fun p => if s.mode.mode = .load ∧ p.waitOf (partNum part) = 1 then p.trainStart (partNum part) else p)

/-- READMIT_RETRY_ATTEMPT: the wait between the attempts of a readmission, or of a chain port outside LOAD, has expired
(R296, R310, R465). -/
def execReadmitRetryAttempt (part : Part) (s : State) : Host.Outcome State Fault Refusal :=
  s.upd (fun p =>
    let t := partNum part
    if p.waitOf t ≠ 1 then p
    else if t < 2 then (if s.mode.mode = .load then p else p.trainStart t)
    else if p.boot.readmits.contains t ∧ p.attempts t < p.retryMax t then p.trainStart t
    else p)

/-! ### LOADPROG (R63, R491, R492) -/

/-- The part is excluded (EXCLSET, R487). -/
def Pkg.dieExcluded (p : Pkg) (d : Nat) : Bool := bit (p.reg pgSTW 0x230) d
def Pkg.guestExcluded (p : Pkg) (n : Nat) : Bool := bit (p.reg pgSTW 0x230) (16 + n)

/-- The parts of the four retried steps, in step order, and whether each is finished (R489): it trained or was excluded. -/
def Pkg.mocorDone (p : Pkg) (d : Nat) : Bool := p.boot.finished.contains (2 + d) || p.dieExcluded d
def Pkg.hbmDone (p : Pkg) (k : Nat) : Bool := p.boot.finished.contains (14 + k) || p.rf (pgHPHY k) 0x200 3 0 == 3
def Pkg.guestDone (p : Pkg) (n : Nat) : Bool := p.boot.finished.contains (22 + n) || p.guestExcluded n || !p.site n

/-- The unfinished parts with their step, in step order and by number. The chain position counts as its port with the larger
ATTEMPT. -/
def Pkg.unfinished (p : Pkg) : List (Nat × Nat) :=
  (if p.chainFinished then [] else [(if p.attempts 0 < p.attempts 1 then 1 else 0, 1)]) ++
  ((below 12 (fun d => !p.mocorDone d)).map (fun d => (2 + d, 2))) ++
  ((below 8 (fun k => !p.hbmDone k)).map (fun k => (14 + k, 3))) ++
  ((below 2 (fun n => !p.guestDone n)).map (fun n => (22 + n, 4)))

/-- LOADPROG[DONE]. -/
def Pkg.doneBits (p : Pkg) : Nat :=
  let u := p.unfinished
  [1, 2, 3, 4].foldl (fun a st => if u.any (fun e => e.2 == st) then a else a + 2 ^ (st - 1)) 0

/-- The pages that need not have left LOAD_HOLD (R492). -/
def Pkg.readyExempt (p : Pkg) (pg : Nat) : Bool :=
  let d := pg / 4096
  if d < 12 then p.dieFenced d || p.dieState d == 0
  else match blkOf pg with
    | some (.gp, n) | some (.gfw, n) => !p.site n || p.guestExcluded n
    | some (.mc, n) => p.rf (pgHPHY (n / 2)) 0x200 3 0 == 3
    | some (.hphy, k) => p.rf (pgHPHY k) 0x200 3 0 == 3
    | _ => false

/-- The conditions of LOADPROG[READY] (R492). -/
def Pkg.readyConds (p : Pkg) : Bool :=
  p.unfinished == [] && p.stw.mapBuilt && p.formed && (p.page pgSTW).live.isSome &&
    decide (p.cf pgSTW 0x410 51 12 * 4096 < hbmSize) &&
    allPages.all (fun pg => match blkOf pg with
      | some (b, _) => !b.hasCfg || !p.loadHold pg || p.readyExempt pg
      | none => true)

/-- LOADPROG[READY]: it becomes 1 at a tick and falls when a condition ceases to hold. -/
def Pkg.ready (p : Pkg) : Bool := bit (p.reg pgSTW 0x228) 8 && p.readyConds

/-- READY is judged at a tick in LOAD (R492). -/
def Pkg.storeReady (p : Pkg) : Pkg := p.setRf pgSTW 0x228 8 8 p.readyConds.toNat

/-- The core map is to be built: LOADPROG[DONE] bit 1 is 1 in LOAD, and no mailbox request that the steward has taken waits
(R491). -/
def Pkg.mapDue (p : Pkg) (md : ModeState) : Bool :=
  md.mode == .load && !(p.mbBusy && p.isRipe .mailbox 0) && !p.stw.mapBuilt && (List.range 12).all p.mocorDone

/-- CORE_MAP_BUILD: at the first tick with Mocor training done the steward builds every region's core map (R10, R491);
entries of an excluded or fenced die read FENCED with PHYS 0. READY is judged at the same tick. -/
def execCoreMapBuild (s : State) : Host.Outcome State Fault Refusal :=
  s.upd (fun p =>
    if !p.mapDue s.mode || !p.isRipe .map 0 then p
    else
      let p := (List.range 12).foldl (fun p d =>
        if p.dieFenced d then p.fenceMap d false else (p.buildRegion d 0).buildRegion d 1) p
      let p := { p with stw := { p.stw with mapBuilt := true } }
      p.storeReady)

/-- LOADPROG as it reads (R63). -/
def Pkg.loadprog (p : Pkg) : Word :=
  let tried := p.unfinished.filter (fun e => p.attempts e.1 != 0)
  let best := tried.foldl (fun (a : Nat × Nat × Nat) e => if a.1 < p.attempts e.1 then (p.attempts e.1, e.1, e.2) else a) (0, 0, 0)
  word [(32, best.1), (16, if best.2.2 = 0 then 0 else p.waitOf best.2.1 - 1), (12, best.2.2), (8, p.ready.toNat), (0, p.doneBits)]

/-! ### Exclusion (R487, R488) -/

/-- EXCLCMD carried out for a die. -/
def Pkg.excludeDie (p : Pkg) (d : Nat) : Pkg :=
  let mp := pgMP d
  let bt := { p.boot with training := p.boot.training.filter (fun t => t != 2 + d), waits := tblErase p.boot.waits (2 + d) }
  let p := ((({ p with boot := bt }).railOff d).dieReset d).setReg mp 0x200 (word [(32, 7), (12, 0xF), (0, 5)])
  let p := (p.setLink d DieLink.reset).setDieState d 4
  let p := if p.stw.mapBuilt then p.fenceMap d true else p
  ((p.setRf pgSTW 0x230 d d 1).partDone (2 + d)).logEvent 0x01 1 none none mp 7

/-- EXCLCMD carried out for a guest. -/
def Pkg.excludeGuest (p : Pkg) (n : Nat) : Pkg :=
  let pg := pgGP n
  let bt := { p.boot with training := p.boot.training.filter (fun t => t != 22 + n), waits := tblErase p.boot.waits (22 + n) }
  let p := { p with boot := bt, pw := { p.pw with gsw := tblSet (fun _ => false) p.pw.gsw n false } }
  let p := (p.setReg pg 0x200 (word [(32, 7), (0, 5)])).setGuest n { Guest.reset with before := p.reg pg 0x208 }
  ((p.setRf pgSTW 0x230 (16 + n) (16 + n) 1).partDone (22 + n)).logEvent 0x03 1 none none pg 7

/-- EXCLCMD (R487). -/
def Pkg.cmdExcl (p : Pkg) (md : ModeState) (who : Requester) (part : Nat) : Pkg :=
  let p := p.setReg pgSTW 0xC30 (BitVec.ofNat 64 part)
  if who ≠ .host then p.cmdDenied pgSTW 0xC30
  else if 12 ≤ part ∧ part ≠ 0x10 ∧ part ≠ 0x11 then p.cmdBadArg pgSTW 0xC30
  else if md.mode ≠ .load ∨ p.busy pgSTW then p.cmdWrong pgSTW 0xC30
  else if part < 12 then
    if p.dieFenced part then p.cmdWrong pgSTW 0xC30 else (p.excludeDie part).cmdOk pgSTW 0xC30
  else
    let st := p.gpState (part - 0x10)
    if st = 5 ∨ st = 7 then p.cmdWrong pgSTW 0xC30 else (p.excludeGuest (part - 0x10)).cmdOk pgSTW 0xC30

/-- EXCLCMD. -/
def execExclcmd (who : Requester) (part : Fin 32) (s : State) : Host.Outcome State Fault Refusal :=
  s.upd (fun p => p.cmd who pgSTW 0xC30 (fun p => p.cmdExcl s.mode who part.val))

/-! ### Rails (R416, R553) -/

/-- A rail faults or does not confirm a command: a die is fenced by command; the loss of a memory rail is the failure of its
stacks (R416, R331, R339). -/
def Pkg.railFault (p : Pkg) (r : Nat) : Pkg :=
  let p := { p with pw := { p.pw with railQ := p.pw.railQ.filter (fun q => q != r), bus := p.pw.bus.filter (fun q => q.vaddr != r) } }
  if r < 12 then
    let p := if p.answers (pgDPM r) then p.setEvent (pgDPM r) 19 4 { Det.none with agent := r } else p
    p.askFence r 7
  else
    let p := { p with pw := { p.pw with rails := tblErase p.pw.rails r } }
    if r = 14 then (p.stackFail 0).stackFail 1
    else (List.range 16).foldl (fun p n => p.mcDisable n 2) p

/-- VIDCMD: the voltage that a die's rail is commanded to, 0 before the first command (R416, R435). -/
def Pkg.vid (p : Pkg) (d : Nat) : Nat := p.rf (pgDPM d) 0x288 7 0

/-- The next request for a rail: ON when its turn has come, SETV when the die needs another voltage, else STAT (R416, R553,
R559, R560). -/
def Pkg.railNext (p : Pkg) (r : Nat) : RailReq :=
  if p.pw.railQ.head? = some r ∧ p.rail r = 0 then railReq r 2 0
  else if r < 12 ∧ p.rail r = 2 ∧ (p.slewing r).isNone ∧ p.vid r ≠ 0 ∧ p.vid r ≠ p.volt r then railReq r 1 (p.vid r)
  else railReq r 4 0

/-- A rail that was commanded on reports PGOOD: the next one is commanded. A die's loops lock; a die whose MPn serves starts
training (R296, R504, R553). -/
def Pkg.railUp (p : Pkg) (r : Nat) : Pkg :=
  let p := { p with pw := { p.pw with rails := tblSet (fun _ => 0) p.pw.rails r 2, railQ := p.pw.railQ.filter (fun q => q != r) } }
  if 12 ≤ r then p
  else
    let p := p.dieClocks r
    if p.loadHold (pgMP r) || !p.answers (pgMP r) then p else p.firstAttempt (2 + r)

/-- What a regulator's STATUS says of the request `q` (R416, R559, R560): a FAULT, or a missing PGOOD of an enabled rail, is the
rail's fault; BADV and BADCMD leave the command unconfirmed. -/
def Pkg.railAnswer (p : Pkg) (r : Nat) (q : RailReq) (st : Byte) : Pkg :=
  let pgood := st.getLsbD 7
  let taken := !st.getLsbD 5 && !st.getLsbD 4
  if st.getLsbD 6 then p.railFault r
  else
    let pw := p.pw
    let p := if !taken then p
      else if q.cmd = 2 then { p with pw := { pw with rails := tblSet (fun _ => 0) pw.rails r 1 } }
      else if q.cmd = 1 then { p with pw := { pw with bus := pw.bus ++ [q] } }
      else p
    match p.rail r, p.slewing r with
    | 1, _ => if pgood && st.getLsbD 3 then p.railUp r else p
    | 2, some w =>
      if !pgood then p
      else
        let pw := p.pw
        { p with pw := { pw with bus := pw.bus.filter (fun q => q.vaddr != r), volts := tblSet railBottom pw.volts r w.data.toNat } }
    | 2, none => if pgood then p else p.railFault r
    | _, _ => p

/-- LAST_RAIL_PGOOD: a transaction with the regulator of a rail: the steward sends its request, and the response is STATUS and
its CRC (R558). A response that fails its CRC counts as none (R559). Off rails that are not commanded are not polled. -/
def execLastRailPgood (r : Fin 15) (status crc : Byte) (s : State) : Host.Outcome State Fault Refusal :=
  s.upd (fun p =>
    let r := r.val
    if !p.pw.island || (p.rail r = 0 && p.pw.railQ.head? != some r) then p
    else
      let q := p.railNext r
      let p := { p with pw := { p.pw with sent := some q } }
      if crc ≠ crc8 [status] then p else p.railAnswer r q status)

/-- RAIL_CONFIRM_TIMEOUT: a rail faults or is not confirmed within 100 microseconds (R416). -/
def execRailConfirmTimeout (r : Fin 15) (s : State) : Host.Outcome State Fault Refusal :=
  s.upd (fun p => if p.rail r.val = 0 ∧ p.pw.railQ.head? ≠ some r.val then p else p.railFault r.val)

end Sys2Proof.Machine
end

