-- ==== Sys2Proof/Machine/Power.lean ====
section
/-! DEFINITION. Power: grants (R418 to R422), C-states (R424), DRIZZLE wake frames and policy (R426 to R429), telemetry
and thermal responses (R432, R433, R521 to R523), residency (R434). -/

namespace Sys2Proof.Machine

/-! ### Grants (R418 to R422) -/

/-- LIMIT and DIECAP as they act (R436). -/
def Pkg.limit (p : Pkg) : Nat := let l := p.cf pgHPWR 0x400 12 0; if l = 0 then 7000 else min 7600 (max 5200 l)
def Pkg.dieCap (p : Pkg) : Nat := let c := p.cf pgHPWR 0x400 28 16; if c = 0 then 600 else min 600 (max 150 c)

/-- The reservations of R418. -/
def Pkg.reserved (p : Pkg) : Nat :=
  (List.range 2).foldl (fun a n =>
    if p.populated / 2 ^ n % 2 = 0 ∨ p.gpState n = 5 then a
    else
      let cls := p.agreed n 27 24
      let offer := let c := p.cf (pgGP n) 0x400 3 0; if c = 0 then 3 else min c 3
      a + 100 * (if cls = 0 then offer else cls)) (950 + 800 + 120)

/-- A fenced die counts 150 until its rail is off (R419). -/
def Pkg.fencedTokens (p : Pkg) : Nat :=
  150 * (below 12 (fun d => p.dieFenced d && tblGet (fun _ => 0) p.pw.rails d == 2)).length

/-- The pool of the compute dies. -/
def Pkg.pool (p : Pkg) : Nat := p.limit - p.reserved - p.fencedTokens

/-- The floor of a die's state (R419). -/
def dieFloor (st : Nat) : Nat := match st with | 2 => 150 | 1 => 60 | 3 => 10 | _ => 0

/-- The grant that the steward holds for a die (R421). -/
def Pkg.counted (p : Pkg) (d : Nat) : Nat := tblGet (fun _ => 0) p.pw.counted d

/-- Sum over a list. -/
def sumOf (l : List Nat) : Nat := l.foldl (· + ·) 0

/-- The largest level at which the wants, each cut to it, fit the pool (R420); at most 600. -/
def fillLevel (wants : List Nat) (pool : Nat) : Nat :=
  ((List.range 601).reverse.find? (fun l => decide (sumOf (wants.map (fun w => min w l)) ≤ pool))).getD 0

/-- The targets: each want cut to the level, and what is left handed out from the lowest die up (R420). -/
def grantTargets (wants : List (Nat × Nat)) (pool : Nat) : List (Nat × Nat) :=
  let l := fillLevel (wants.map (·.2)) pool
  let left := pool - sumOf (wants.map (fun w => min w.2 l))
  (wants.foldl (fun (a : List (Nat × Nat) × Nat) w =>
    if l < w.2 ∧ 0 < a.2 then (a.1 ++ [(w.1, l + 1)], a.2 - 1) else (a.1 ++ [(w.1, min w.2 l)], a.2)) ([], left)).1

/-- A grant is sent to a die: a lowered one counts only when it is acknowledged (R421). -/
def Pkg.sendGrant (p : Pkg) (d g : Nat) : Pkg :=
  let r := 0x208 + 8 * d
  if (p.link d).paused.isSome then p.setEvent (pgDPM d) 18 1 { Det.none with detail := p.reg (pgDPM d) 0x200 }
  else
    let p := p.setRf pgHPWR r 28 16 g
    if g < p.counted d then { p with pw := { p.pw with owed := tblSet (fun _ => 0) p.pw.owed d g } }
    else
      let pw := { p.pw with counted := tblSet (fun _ => 0) p.pw.counted d g, owed := tblErase p.pw.owed d }
      (({ p with pw := pw }).setRf pgHPWR r 12 0 g).setRf (pgDPM d) 0x200 44 32 g

/-- The request that a die sends in a frame, between its floor and DIECAP: a free value, and DIECAP in LOAD and TEST (R419,
log entry 19). A die behind a paused link sends none. -/
def Pkg.request (p : Pkg) (md : Mode) (d : Nat) : Pkg :=
  let lo := dieFloor (p.dieState d)
  let r := 0x208 + 8 * d
  if (p.link d).paused.isSome then p
  else if md = .load ∨ md = .test then p.setRf pgHPWR r 44 32 p.dieCap
  else let f := p.free 16; f.2.setRf pgHPWR r 44 32 (lo + f.1.toNat % (p.dieCap + 1 - lo))

/-- The power-budget exchange of a tick (R420). -/
def Pkg.powerTick (p : Pkg) (md : Mode) : Pkg :=
  let dies := below 12 p.dieUp
  let p := (below 12 (fun d => !p.dieUp d)).foldl (fun p d =>
    let pw := { p.pw with counted := tblErase p.pw.counted d, owed := tblErase p.pw.owed d }
    { p with pw := pw }) p
  let p := dies.foldl (fun p d => p.request md d) p
  let wants := dies.map (fun d => (d, max (dieFloor (p.dieState d)) (min (p.rf pgHPWR (0x208 + 8 * d) 44 32) p.dieCap)))
  let targets := grantTargets wants p.pool
  let raise := decide (sumOf (targets.map (fun t => max t.2 (p.counted t.1))) ≤ p.pool)
  let p := targets.foldl (fun p t => p.sendGrant t.1 (if raise then t.2 else min t.2 (p.counted t.1))) p
  p.setReg pgHPWR 0x200 (word [(48, p.limit), (32, p.reserved), (16, sumOf ((List.range 12).map p.counted)), (0, p.pool)])

/-- GRANT_ACKNOWLEDGE: a die has brought its power down to a lowered grant (R421). -/
def execGrantAcknowledge (d : Die) (s : State) : Host.Outcome State Fault Refusal :=
  s.upd (fun p =>
    let d := d.val
    let g := tblGet (fun _ => 0) p.pw.owed d
    if g = 0 ∨ !p.dieUp d then p
    else
      let pw := { p.pw with counted := tblSet (fun _ => 0) p.pw.counted d g, owed := tblErase p.pw.owed d }
      (({ p with pw := pw }).setRf pgHPWR (0x208 + 8 * d) 12 0 g).setRf (pgDPM d) 0x200 44 32 g)

/-! ### Unit and cluster states (R424, R425) -/

/-- C-state of a unit: 0 C0, 1 C1, 2 C3. A unit with no logical core is in C3 unless it runs a self-test (R12, R424). -/
def Pkg.unitCst (p : Pkg) (md : Mode) (d i : Nat) : Nat :=
  if md = .drizzle then 2
  else
    match p.lcOfUnit d i with
    | none =>
      let e := p.spareEnt (2 * d + i / 10)
      if !p.stw.mapBuilt || (e / 0x4000 == 2 && physIdx e == i) then 0 else 2
    | some lc =>
      match (p.core lc).run with
      | .waiting _ => if (p.unit (d * 20 + i)).cst = 3 then 2 else 1
      | _ => 0

/-- UNITST (R435). -/
def Pkg.unitst (p : Pkg) (md : Mode) (d : Nat) : Word := word ((List.range 20).map (fun i => (2 * i, p.unitCst md d i)))

/-- A cluster is in CL3 (R424). -/
def Pkg.cl3 (p : Pkg) (md : Mode) (d k : Nat) : Bool :=
  (List.range 5).all (fun j => p.unitCst md d (5 * k + j) == 2) && (md == .drizzle || p.cf (pgDPM d) 0x400 40 40 == 1)

/-- C3_ENTRY: a unit in C1 for C3WAIT whole frames loses its L1s and translations (R424, R164, R212). -/
def execC3Entry (d : Die) (i : Fin 20) (s : State) : Host.Outcome State Fault Refusal :=
  s.upd (fun p =>
    let u := d.val * 20 + i.val
    let w := p.cf (pgDPM d.val) 0x400 39 32
    if p.dieUp d.val && w != 0 && p.unitCst s.mode.mode d.val i.val == 1 && decide (w ≤ (p.unit u).idle) then
      let p := p.unitLeave u
      p.setUnit u { p.unit u with cst := 3 }
    else p)

/-- RESRD (R435). -/
def Pkg.cmdResrd (p : Pkg) (d i : Nat) : Pkg :=
  let pg := pgDPM d
  let p := p.setReg pg 0xC00 (BitVec.ofNat 64 i)
  if 20 ≤ i then p.cmdBadArg pg 0xC00
  else
    let x := p.unit (d * 20 + i)
    let w := fun (n : Nat) => word [(10, n / 800), (0, n % 800)]
    (((p.setReg pg 0xC08 (w x.res0)).setReg pg 0xC10 (w x.res1)).setReg pg 0xC18 (w x.res3)).cmdOk pg 0xC00

/-- RESRD. -/
def execResrd (who : Requester) (d : Die) (unit : Fin 32) (s : State) : Host.Outcome State Fault Refusal :=
  s.upd (fun p => p.cmd who (pgDPM d.val) 0xC00 (fun p => p.cmdResrd d.val unit.val))

/-! ### DRIZZLE (R426 to R429) -/

/-- The source of a code is enabled. -/
def Pkg.srcOn (p : Pkg) (c : Nat) : Bool := !bit (p.cfg pgHPWR 0x408) (15 + c)

/-- The read of WATCHn (R428). -/
def Pkg.watchRead (p : Pkg) (n : Nat) : IoAns × Pkg :=
  let o := 0x410 + 24 * n
  p.ioRead 0x1E (p.cf pgHPWR o 58 52) (p.cf pgHPWR o 51 3 * 8) 8

/-- The masked word of WATCHn: none when the read is poisoned or gets an error response (R428). -/
def Pkg.watched (p : Pkg) (n : Nat) : Option Word × Pkg :=
  let o := 0x410 + 24 * n
  let r := p.watchRead n
  match r.1 with
  | .done b false => (some (BitVec.ofNat 64 (leNat b) &&& p.cfg pgHPWR (o + 8)), r.2)
  | _ => (none, r.2)

/-- The present frame is the first wake frame (R426). -/
def Pkg.firstWake (p : Pkg) : Bool := p.frameNum == (p.pw.f0 + p.wakeEvery) % 2 ^ 48

/-- WATCHn matches (R428); a word compared with CHANGED is recorded in the first wake frame, where it never matches. -/
def Pkg.watchMatch (p : Pkg) (n : Nat) : Bool × Pkg :=
  let o := 0x410 + 24 * n
  if p.cf pgHPWR o 63 63 = 0 then (false, p)
  else
    let v := p.cfg pgHPWR (o + 16) &&& p.cfg pgHPWR (o + 8)
    match p.watched n with
    | (none, p) => (true, p)
    | (some w, p) =>
      match p.cf pgHPWR o 62 61 with
      | 0 => (w == v, p)
      | 1 => (w != v, p)
      | 2 =>
        match tblGet (fun _ => none) p.pw.base n with
        | some b => (w != b && !p.firstWake, p)
        | none => (false, { p with pw := { p.pw with base := tblSet (fun _ => none) p.pw.base n (some w) } })
      | _ => (decide (v.toNat ≤ w.toNat), p)

/-- The temperature of a sample of "Thermal limits", in quarter degrees. -/
def Sensor.temp? : Sensor → Bool
  | .cluster _ _ | .dieHot _ | .hub _ | .hbm _ | .ledger _ => true
  | _ => false

/-- The home of a watched word cannot serve its read yet. -/
def Pkg.watchWaits (p : Pkg) (n : Nat) : Bool :=
  p.cf pgHPWR (0x410 + 24 * n) 63 63 != 0 && (match (p.watchRead n).1 with | .waiting => true | _ => false)

/-- WAKE_FRAME: the latches, the sensors, the WAITF targets and the watched words are sampled; the lowest code that matched
ends DRIZZLE at the next tick (R427, R429). While a watched word cannot be read yet, nothing is sampled (log entry 144). -/
def execWakeFrame (samples : List (Sensor × Int)) (s : State) : Host.Outcome State Fault Refusal :=
  s.upd (fun p =>
    if s.mode.mode ≠ .drizzle ∨ !p.isWake p.frameNum ∨ (List.range 16).any p.watchWaits then p
    else
      let t := let t := p.cf pgHPWR 0x408 55 48; if t = 0 then 95 else t
      let temp := samples.any (fun e => Sensor.temp? e.1 && decide ((4 * t : Nat) ≤ e.2))
      let waitf := (List.range 216).any (fun lc => match (p.core lc).run with | .waiting 0 => true | _ => false)
      let src := ([(1, temp), (6, waitf)] ++ [2, 3, 4, 5].map (fun c => (c, p.pw.latched.contains c))).filter
        (fun (e : Nat × Bool) => e.2 && p.srcOn e.1)
      let r : List Nat × Pkg := (List.range 16).foldl (fun (a : List Nat × Pkg) n =>
        let m := a.2.watchMatch n
        (if m.1 then a.1 ++ [0x10 + n] else a.1, m.2)) ([], p)
      let codes := src.map (·.1) ++ r.1
      let p := { r.2 with pw := { r.2.pw with latched := [] } }
      let p := codes.foldl (fun p c => let b := if c < 16 then c - 1 else c; p.setRf pgHPWR 0x368 b b 1) p
      match codes with
      | [] => p
      | c :: t => { p with stw := { p.stw with wakeMatch := some (t.foldl min c) } })

/-- The conditions of the DRIZZLE policy held through a frame (R429). -/
def Pkg.idleFrame (p : Pkg) (md : Mode) : Bool :=
  (List.range 12).all (fun d => p.dieFenced d || p.dieState d == 0 ||
    (List.range 20).all (fun i => p.unitCst md d i != 0 && !(p.unit (d * 20 + i)).progress)) &&
  !p.pw.doorbell && p.stw.modeCmd.isNone

/-- AUTOFR. -/
def Pkg.autoFr (p : Pkg) : Nat := let n := p.cf pgHPWR 0x408 47 32; if n = 0 then 1250 else n

/-! ### Telemetry (R521 to R523) -/

/-- Where a sample is published: page, register, high and low bit. -/
def Sensor.place : Sensor → Nat × Nat × Nat × Nat
  | .cluster d k => (pgTELEM d.val, 0x200, 16 * k.val + 15, 16 * k.val)
  | .dieHot d => (pgTELEM d.val, 0x208, 15, 0)
  | .dieVolt d => (pgTELEM d.val, 0x208, 31, 16)
  | .diePower d => (pgTELEM d.val, 0x208, 44, 32)
  | .aging d i => (pgTELEM d.val, 0x210 + 8 * (i.val / 4), 16 * (i.val % 4) + 15, 16 * (i.val % 4))
  | .hub q => (pgHTEL, 0x200, 16 * q.val + 15, 16 * q.val)
  | .hbm k => (pgHTEL, 0x208 + 8 * (k.val / 4), 16 * (k.val % 4) + 15, 16 * (k.val % 4))
  | .ledger k => (pgHTEL, 0x218, 16 * k.val + 15, 16 * k.val)
  | .rail r => if r.val < 4 then (pgHTEL, 0x220, 16 * r.val + 15, 16 * r.val)
    else (pgHTEL, 0x228, 16 * (r.val - 4) + 15, 16 * (r.val - 4))
  | .pkgPower => (pgHTEL, 0x230, 12, 0)

/-- A value in a field of `n` bits: temperatures signed, everything else saturating from 0. -/
def Sensor.code (x : Sensor) (n : Nat) (v : Int) : Nat :=
  if Sensor.temp? x then ofInt n v else min v.toNat (2 ^ n - 1)

/-- Aging monitors are sampled in these modes, unless AGEQ stops it (R69). -/
def Pkg.ages (p : Pkg) (md : Mode) (d : Nat) : Bool :=
  (match md with | .run | .degraded | .drizzle => true | _ => false) && p.ageQ d != 0

/-- The aging monitors of a die are sampled in rotation over its units: the unit that comes next after the samples of a frame, and
how many of the samples were in their turn (R521). -/
def Pkg.ageTurns (p : Pkg) (samples : List (Sensor × Int)) (d : Nat) : Nat × Nat :=
  samples.foldl (fun (a : Nat × Nat) e => match e.1 with
    | .aging x i => if x.val = d ∧ i.val = a.1 then ((a.1 + 1) % 20, a.2 + 1) else a
    | _ => a) (tblGet (fun _ => 0) p.pw.ageNext d, 0)

/-- The sample is one that the rotation of the aging monitors asks for, or of another sensor. -/
def Pkg.inTurn (p : Pkg) (md : Mode) (x : Sensor) : Bool :=
  match x with
  | .aging d i => p.ages md d.val && i.val == tblGet (fun _ => 0) p.pw.ageNext d.val
  | _ => true

/-- Publish a sample taken in frame `f`, with the temperatures that other pages show (R336, R367). -/
def Pkg.publish (p : Pkg) (md : Mode) (f : Nat) (e : Sensor × Int) : Pkg :=
  let (pg, off, hi, lo) := Sensor.place e.1
  if !p.answers pg || p.loadHold pg || !p.inTurn md e.1 then p
  else
    let p := p.setRf pg off hi lo (Sensor.code e.1 (hi + 1 - lo) e.2)
    let p := if pg = pgHTEL then p.setRf pg 0x218 47 32 (f % 65536) else p.setRf pg 0x208 63 48 (f % 65536)
    match e.1 with
    | .hbm k => p.setRf (pgHPHY k.val) 0x200 39 32 (ofInt 8 (e.2 / 4))
    | .ledger k => p.setRf (pgLSC k.val) 0x200 39 32 (ofInt 8 (e.2 / 4))
    | .diePower d => p.setRf (pgDPM d.val) 0x200 28 16 (Sensor.code e.1 13 e.2)
    | .aging d i => { p with pw := { p.pw with ageNext := tblSet (fun _ => 0) p.pw.ageNext d.val ((i.val + 1) % 20) } }
    | _ => p

/-! ### Thermal responses (R432, R433) -/

/-- Start a response at `start`, end it 3 degrees below `point` (both in quarter degrees); `ev` is the event of a start. -/
def Pkg.thermal (p : Pkg) (kind i : Nat) (start point v : Int) (ev : Pkg → Pkg) : Pkg :=
  if p.hot kind i then
    if v ≤ point - 12 then { p with pw := { p.pw with hot := p.pw.hot.filter (fun h => h != (kind, i)) } } else p
  else if start ≤ v then ev { p with pw := { p.pw with hot := p.pw.hot ++ [(kind, i)] } }
  else p

/-- THERMTRIP_N is driven low at 115 degrees. -/
def Pkg.tripAt (p : Pkg) (v : Int) : Pkg := if 460 ≤ v then { p with pw := { p.pw with trip := true } } else p

/-- A die over its grant lowers its fastest cluster by 100 MHz at once; among equals the highest index (R422, R423). -/
def Pkg.cutClock (p : Pkg) (d : Nat) : Pkg :=
  let freq := fun (k : Nat) => p.rf (pgDPM d) (0x208 + 8 * k) 23 16
  let k := [1, 2, 3].foldl (fun a k => if freq a ≤ freq k then k else a) 0
  if freq k ≤ 12 then p
  else (p.setRf (pgDPM d) (0x208 + 8 * k) 23 16 (freq k - 1)).setRf (pgDPM d) (0x208 + 8 * k) 27 24 1

/-- What a sample makes the package do. -/
def Pkg.react (p : Pkg) (e : Sensor × Int) : Pkg :=
  let v := e.2
  let hotEv := fun (p : Pkg) => p.setEvent pgHPWR 17 1
  match e.1 with
  | .cluster d k =>
    let d := d.val
    let i := 4 * d + k.val
    let t : Int := let t := p.cf (pgTELEM d) 0x448 7 0; if t = 0 then 400 else (4 * t : Nat)
    let ev := fun (p : Pkg) => p.setEvent (pgDPM d) 17 1 { Det.none with detail := p.reg (pgDPM d) 0x200 }
    ((p.thermal 0 i (t + 1) t v ev).thermal 1 i 420 420 v ev).tripAt v
  | .dieHot _ => p.tripAt v
  | .hub q => (p.thermal 2 q.val 420 420 v hotEv).tripAt v
  | .hbm k =>
    let p := (p.thermal 3 k.val 340 340 v hotEv).thermal 4 k.val 380 380 v hotEv
    if 420 ≤ v then (p.mcDisable (2 * k.val) 3).mcDisable (2 * k.val + 1) 3 else p
  | .ledger k => (p.thermal 5 k.val 380 380 v hotEv).thermal 6 k.val 420 420 v hotEv
  | .diePower d =>
    let d := d.val
    let g := p.rf (pgDPM d) 0x200 44 32
    if p.dieUp d ∧ !p.loadHold (pgDPM d) ∧ (g : Int) < v then
      (p.setEvent (pgDPM d) 16 1 { Det.none with detail := p.reg (pgDPM d) 0x200 }).cutClock d
    else p
  | _ => p

/-- THERMSTAT: the highest readings, in degrees (R436). -/
def Pkg.thermstat (p : Pkg) : Word :=
  let top := fun (l : List (Nat × Nat × Nat)) =>
    let v := l.foldl (fun (a : Int) e => max a (toInt 16 (p.rf e.1 e.2.1 (e.2.2 + 15) e.2.2))) 0
    min 255 (v / 4).toNat
  let dies := (below 12 p.dieUp).flatMap (fun d =>
    (pgTELEM d, 0x208, 0) :: (List.range 4).map (fun k => (pgTELEM d, 0x200, 16 * k)))
  word [(24, top [(pgHTEL, 0x218, 0), (pgHTEL, 0x218, 16)]),
        (16, top ((List.range 8).map (fun k => (pgHTEL, 0x208 + 8 * (k / 4), 16 * (k % 4))))),
        (8, top ((List.range 4).map (fun q => (pgHTEL, 0x200, 16 * q)))), (0, top dies)]

/-- Publish the samples of the frame just ended and react to them (R432, R521). -/
def Pkg.telemetryTick (p : Pkg) (md : Mode) (f : Nat) (samples : List (Sensor × Int)) : Pkg :=
  let p := samples.foldl (fun p e => (p.publish md f e).react e) p
  p.setReg pgHPWR 0x370 p.thermstat

/-! ### Cluster clocks (R416, R423) -/

/-- The clock and voltage of each cluster for the frame: below the cap, the grant and the voltage that a clock needs decide
what the manual gives no formula for, a free value (log entry 19). A clock takes its new step only when VDD_CDn is confirmed 25 mV
above the voltage it needs; until then the higher voltage is commanded. -/
def Pkg.clockTick (p : Pkg) (d : Nat) : Pkg :=
  let pg := pgDPM d
  if p.loadHold pg then p
  else
    let r : Nat × Pkg := (List.range 4).foldl (fun (a : Nat × Pkg) k =>
      let p := a.2
      let cap := let c := p.cf pg 0x400 (8 * k + 7) (8 * k); if c = 0 then 36 else min 36 (max 12 c)
      let f := p.free 8
      let v := f.2.free 8
      let old := max 12 (p.rf pg (0x208 + 8 * k) 23 16)
      let free := 12 + f.1.toNat % (cap - 11)
      let freq := if p.hot 1 (4 * d + k) then 12 else if p.hot 0 (4 * d + k) then min old free else free
      let volt := 115 + v.1.toNat % 71
      let lim := if p.hot 0 (4 * d + k) || p.hot 1 (4 * d + k) then 2 else if freq < cap then 1 else if cap < 36 then 3 else 0
      let ok := decide (volt + 5 ≤ p.volt d) || decide (freq ≤ p.rf pg (0x208 + 8 * k) 23 16)
      let set := fun (f x : Nat) => v.2.setReg pg (0x208 + 8 * k) (word [(24, lim), (16, f), (8, x)])
      (max a.1 volt,
       if ok then set freq (min volt (p.volt d - 5)) else if p.rf pg (0x208 + 8 * k) 23 16 = 0 then set 12 115 else v.2))
      (0, p)
    r.2.setReg pg 0x288 (BitVec.ofNat 64 (r.1 + 5))

/-! ### Package pins of switchable domains (R430, R431) -/

/-- What drives a group of package pins. -/
inductive PinDrive where
  | highZ
  | clamp0
  | clamp1
  | domain
  deriving DecidableEq, Repr

/-- The driving domain of a pin group: hub main for the sideband groups 0 to 3, a guest site for 4 and 5 (R430). -/
def Pkg.groupPowered (p : Pkg) (g : Nat) : Bool :=
  if g < 4 then p.pw.hubMain else p.site (g - 4) && tblGet (fun _ => false) p.pw.gsw (g - 4)

/-- A group's pins: high-impedance in OFF; driven by a powered domain; else as CLAMPCFG chooses, CLAMP0 before the first adoption
of HD.HPWR (R430, R431). A field of 0b11 acts as CLAMP0 (R436). -/
def Pkg.pinGroup (p : Pkg) (md : Mode) (g : Nat) : PinDrive :=
  if md = .off then .highZ
  else if p.groupPowered g then .domain
  else match p.cf pgHPWR 0x590 (2 * g + 1) (2 * g) with | 1 => .clamp1 | 2 => .highZ | _ => .clamp0

/-! ### Residency (R434) -/

/-- Add `len` reference cycles to a residency register. -/
def Pkg.resAdd (p : Pkg) (pg off len : Nat) : Pkg :=
  let w := p.reg pg off
  let n := fld w 63 10 * 800 + fld w 9 0 + len
  p.setReg pg off (word [(10, n / 800 % 2 ^ 54), (0, n % 800)])

/-- The frame just ended counts whole for the state that holds at its end. -/
def Pkg.residencyTick (p : Pkg) (md : Mode) (code len : Nat) : Pkg :=
  let p := p.resAdd pgHPWR (0x268 + 8 * code) len
  (List.range 12).foldl (fun p d =>
    match p.dieState d with
    | 0 => p.resAdd pgHPWR (0x2A8 + 8 * d) len
    | 4 => p.resAdd pgHPWR (0x308 + 8 * d) len
    | st =>
      let p := p.resAdd (pgDPM d) (match st with | 2 => 0x268 | 1 => 0x270 | _ => 0x278) len
      let p := (List.range 4).foldl (fun p k =>
        p.resAdd (pgDPM d) ((if p.cl3 md d k then 0x230 else 0x228) + 16 * k) len) p
      (List.range 20).foldl (fun p i =>
        let u := d * 20 + i
        let x := p.unit u
        match p.unitCst md d i with
        | 0 => p.setUnit u { x with res0 := x.res0 + len, idle := 0, cst := 0, progress := false }
        | 1 => p.setUnit u { x with res1 := x.res1 + len, idle := if x.progress then 0 else x.idle + 1, progress := false }
        | _ => p.setUnit u { x with res3 := x.res3 + len, progress := false }) p) p

end Sys2Proof.Machine
end

