-- ==== Sys2Proof/Machine/Adopt.lean ====
section
/-! DEFINITION. Configuration by two copies: validity, choice and adoption at the tick (R3, R40 to R46), and what the
adoption of a page does. -/

namespace Sys2Proof.Machine

/-! ### Fields of the copies (R3, R40) -/

/-- The bits that a register of a copy names; every other bit of the body is Reserved (log entry 23). -/
def cfgMask (b : Blk) (i off : Nat) : Word :=
  let m := fun (l : List (Nat × Nat)) => l.foldl (fun (a : Word) r => a ||| maskBits r.1 r.2) 0
  let k := (off - 0x400) / 8
  match b with
  | .dpm => if k = 0 then m [(40, 0)] else 0
  | .telem => if k < 8 then m [(63, 55), (51, 43), (7, 0)] else if k = 8 ∨ k = 9 then m [(7, 0)] else 0
  | .htel => if k < 16 then m [(63, 55), (51, 43), (7, 0)] else 0
  | .wdog => if k = 0 then m [(31, 16), (7, 0)] else 0
  | .ring => if k < 9 then m [(44, 0)] else if k = 9 then m [(11, 0)] else 0
  | .grid => if k = 0 then m [(63, 0)] else if k = 1 then m [(31, 0)] else 0
  | .ce | .hce =>
    if k < 32 then (if k % 2 = 0 then m [(63, 51), (47, 0)] else m [(51, 12)]) else if k = 32 then m [(7, 0)] else 0
  | .l2 | .l3 => if k = 0 then m [(15, 0)] else 0
  | .steward =>
    match k with
    | 0 => m [(42, 8), (4, 0)]
    | 1 => m [(32, 0)]
    | 2 | 3 => m [(51, 12)]
    | 4 => m [(63, 62), (60, 56), (51, 32), (23, 16)]
    | 5 => m [(8, 8), (4, 3), (1, 0)]
    | 6 => m [(47, 0)]
    | _ => 0
  | .frame => if k = 0 then m [(63, 63), (47, 0)] else 0
  | .hpwr =>
    if k = 0 then m [(28, 16), (12, 0)]
    else if k = 1 then m [(55, 32), (24, 24), (21, 0)]
    else if k < 50 then (if (k - 2) % 3 = 0 then m [(63, 61), (58, 3)] else m [(63, 0)])
    else if k = 50 then m [(11, 0)] else 0
  | .dma => if k = 0 then m [(63, 0)] else 0
  | .mp => if k = 0 then m [(7, 0)] else if k = 1 then m [(31, 0)] else 0
  | .mc => if k = 0 then m [(15, 0)] else if k = 1 then m [(8, 0)] else 0
  | .ds => if k = 0 then m [(15, 0)] else 0
  | .hphy => if k = 0 then m [(7, 0)] else 0
  | .le => if k < 2 then m [(51, 12)] else if k = 2 then m [(24, 4), (0, 0)] else if k = 3 then m [(7, 0)] else 0
  | .dmac => if k = 0 then m [(63, 63), (31, 31), (23, 8), (6, 0)] else if k = 1 then m [(51, 12), (3, 0)] else 0
  | .pe =>
    if k = 0 then m [(47, 12), (2, 0)] else if k < 5 then m [(63, 56), (51, 12)]
    else if k < 69 then m [(31, 24), (15, 0)] else 0
  | .ch =>
    if k = 0 then m [(9, 0)]
    else if i = 0 ∧ k < 65 then (if k % 2 = 1 then m [(63, 61), (56, 44), (42, 12)] else m [(63, 32), (24, 0)])
    else 0
  | .gp => if k = 0 then m [(15, 8), (3, 0)] else if k < 33 then m [(31, 24), (15, 0)] else 0
  | .gfw => if k < 64 then m [(63, 61), (56, 44), (36, 12)] else 0
  | _ => 0

/-- The body of a copy: 126 quads in ascending order. -/
def bodyBytes (t : Tbl Word) : List Byte := (List.range 126).flatMap (fun k => leBytes 8 (tblGet (fun _ => 0) t k).toNat)

/-- A copy is valid (R40). The CRC of an empty copy is not 0. -/
def copyValid (b : Blk) (i : Nat) (t : Tbl Word) : Bool :=
  t != [] &&
  fld (tblGet (fun _ => 0) t 127) 63 16 == 0 &&
  t.all (fun e => decide (126 ≤ e.1) || e.2 &&& ~~~cfgMask b i (0x400 + 8 * e.1) == 0) &&
  (tblGet (fun _ => 0) t 126).toNat == crc32c (bodyBytes t)

/-- SEQ of a copy. -/
def copySeq (t : Tbl Word) : Nat := fld (tblGet (fun _ => 0) t 127) 15 0

/-! ### What an adoption does -/

/-- MCLHEAD and MCLTAIL return to 0 when the ring's registers change (R535). -/
def Pkg.adoptSteward (p : Pkg) (old : Tbl Word) : Pkg :=
  let was := fun (off : Nat) => tblGet (fun _ => 0) old ((off - 0x400) / 8)
  let cfg := fun (w : Word) => (bit w 63, fld w 51 48)
  if was 0x418 == p.cfg pgSTW 0x418 && cfg (was 0x420) == cfg (p.cfg pgSTW 0x420) then p
  else (p.setRf pgSTW 0x340 11 0 0).setReg pgSTW 0xC58 0

/-- ENDCH of CHD: at 1 the link is kept down and reads ENDED; from 1 to 0 training starts again (R465). -/
def Pkg.adoptChd (p : Pkg) : Pkg :=
  let pg := pgCH true
  if p.endCh then
    let bt := { p.boot with training := p.boot.training.filter (fun t => t != 1), waits := tblErase p.boot.waits 1 }
    ((({ p with boot := bt }).setRf pg 0x200 3 0 4).setRf pg 0x200 13 12 3).chainNote
  else (if p.chState true = 4 then p.setRf pg 0x200 3 0 0 else p).firstAttempt 1

/-- What a page does when it adopts a copy; `old` is the live configuration before, none at the first adoption. -/
def Pkg.onAdopt (p : Pkg) (pg : Nat) (b : Blk) (i : Nat) (old : Option (Tbl Word)) : Pkg :=
  let was := old.getD []
  match b with
  | .l2 | .l3 => match cacheOfPage pg with | some c => p.adoptWays c | none => p
  | .ce => p.adoptCipher (pg / 4096) was
  | .hce => p.adoptCipher (12 + i) was
  | .steward => p.adoptSteward was
  | .le =>
    let same := [0, 1, 2].all (fun k => tblGet (fun _ => 0) was k == p.cfg pg (0x400 + 8 * k))
    if old.isSome && same && p.cf pg 0x410 0 0 == 1 then p else p.adoptAdmin
  | .ch => if i = 0 then p.firstAttempt 0 else p.adoptChd
  | .mc => if old.isNone && p.rf pg 0x200 3 0 == 0 && p.rf (pgHPHY (i / 2)) 0x200 3 0 == 2 then p.setRf pg 0x200 3 0 1 else p
  | .mp => if old.isNone then p.firstAttempt (2 + i) else p
  | .hphy => if old.isNone then p.firstAttempt (14 + i) else p
  | .gp => if old.isNone then p.firstAttempt (22 + i) else p
  | .frame => { p with fr := { p.fr with seedUsed := false } }
  | _ => p

/-! ### The tick (R42 to R46) -/

/-- Which copy a page adopts (R42): false A, true B. -/
def pickCopy (active : Option Nat) (a b : Bool) (sa sb : Nat) : Option Bool :=
  let ok := fun (valid : Bool) (s : Nat) => valid && (match active with | some x => newerSeq s x | none => true)
  match ok a sa, ok b sb with
  | true, true => some (newerSeq sb sa)
  | true, false => some false
  | false, true => some true
  | false, false => none

/-- A page checks both copies at a tick and adopts what qualifies. -/
def Pkg.adoptPage (p : Pkg) (pg : Nat) (b : Blk) (i : Nat) : Pkg :=
  let x := p.page pg
  let sel := p.reg pg 0x058
  let active := if bit sel 1 then some (fld sel 31 16) else none
  if active.isNone ∧ x.copyA = [] ∧ x.copyB = [] then p
  else
    let va := copyValid b i x.copyA
    let vb := copyValid b i x.copyB
    let sa := copySeq x.copyA
    let sb := copySeq x.copyB
    let newer := fun (s : Nat) => match active with | some y => newerSeq s y | none => false
    let rej := (newer sa && !va) || (newer sb && !vb)
    let p := if rej then p.setEvent pg 1 1 else p
    match pickCopy active va vb sa sb with
    | none => if rej == bit sel 2 then p else p.setRf pg 0x058 2 2 rej.toNat
    | some isB =>
      let t := if isB then x.copyB else x.copyA
      let x := p.page pg
      let p := p.setPage pg { x with live := some (t.filter (fun e => decide (e.1 < 126))) }
      let p := p.setReg pg 0x058 (word [(32, p.frameNum % 65536), (16, if isB then sb else sa), (2, rej.toNat), (1, 1),
                                        (0, isB.toNat)])
      let p := if p.loadHold pg then p.setRf pg 0x020 15 8 (if b == .l2 && !p.en pg then 2 else 1) else p
      p.onAdopt pg b i x.live

/-- Every page with copies that is powered makes its check. A die's pages hold copies once they answer (R44, R490). -/
def Pkg.adoptTick (p : Pkg) : Pkg :=
  p.pages.foldl (fun p e =>
    match blkOf e.1 with
    | some (b, i) => if b.hasCfg && p.answers e.1 then p.adoptPage e.1 b i else p
    | none => p) p

/-- HD.FRAME makes its check first: a copy adopted in LOAD applies its seed at its adopting tick (R66). -/
def Pkg.adoptSeed (p : Pkg) : Pkg := if p.answers pgFRAME then p.adoptPage pgFRAME .frame 0 else p

/-- The head applies its seed (R66): in LOAD, with SEEDEN 1 and a SEED above the present frame number; each copy once. -/
def Pkg.seedTick (p : Pkg) (load : Bool) : Pkg :=
  let w := p.cfg pgFRAME 0x400
  let seed := fld w 47 0
  if p.head && load && !p.fr.seedUsed && bit w 63 && decide (p.frameNum < seed) then
    let fr : FrameGen := { p.fr with num := BitVec.ofNat 48 seed, seedUsed := true }
    { p with fr := fr }
  else p

end Sys2Proof.Machine
end

