-- ==== Sys2Proof/Machine/HubDma.lean ====
section
/-! DEFINITION. Hub DMA channels: the immediate FILL and the descriptor rings (R493 to R500). -/

namespace Sys2Proof.Machine

/-! ### A channel and its registers (R493, R496) -/

def Pkg.chan (p : Pkg) (k : Nat) : DmaChan := tblGet (fun _ => DmaChan.reset) p.dma k
def Pkg.setChan (p : Pkg) (k : Nat) (x : DmaChan) : Pkg := { p with dma := tblSet (fun _ => DmaChan.reset) p.dma k x }

/-- The agent of every channel (R500). -/
def dmaAgent : Nat := 0x13

/-- The channel runs a descriptor, or runs at all (R496, R500). -/
def Pkg.dmaRings (p : Pkg) (k : Nat) : Bool := (p.chan k).desc.isSome
def Pkg.dmaBusy (p : Pkg) (k : Nat) : Bool := (p.chan k).fill || p.dmaRings k

/-- DMACFG and DMARING as they govern the channel: what runs keeps the values it started under (R44). -/
def Pkg.dmaCfg (p : Pkg) (k : Nat) : Word := if p.dmaBusy k then (p.chan k).cfg else p.cfg (pgDMAC k) 0x400
def Pkg.dmaRing (p : Pkg) (k : Nat) : Word := if p.dmaBusy k then (p.chan k).ring else p.cfg (pgDMAC k) 0x408

/-- DMACFG[EN], DMACFG[PID], and the number of descriptors of a ring: SIZELOG2 cut to 4–12 (R493). -/
def Pkg.dmaEn (p : Pkg) (k : Nat) : Bool := bit (p.dmaCfg k) 63
def Pkg.dmaPid (p : Pkg) (k : Nat) : Nat := fld (p.dmaCfg k) 6 0
def dmaRingSize (ring : Word) : Nat := 2 ^ min 12 (max 4 (fld ring 3 0))
def Pkg.dmaHead (p : Pkg) (k : Nat) : Nat := p.rf (pgDMAC k) 0x210 11 0
def Pkg.dmaTail (p : Pkg) (k : Nat) : Nat := p.rf (pgDMAC k) 0xC20 11 0

/-- The address of the descriptor at DMAHEAD. -/
def Pkg.dmaEntry (p : Pkg) (k : Nat) : Nat := fld (p.dmaRing k) 51 12 * 4096 + 32 * p.dmaHead k

/-- DMABUSY (R500). -/
def Pkg.dmaBusyWord (p : Pkg) : Word := word ((List.range 16).map (fun k => (k, (p.dmaBusy k).toNat)))

/-- Lines read and written by all channels (R500). -/
def Pkg.dmaLines (p : Pkg) (n : Nat) : Pkg := p.addRf pgDMA 0x208 63 0 n

/-- BUSY while a FILL or a descriptor runs. -/
def Pkg.dmaSetBusy (p : Pkg) (k : Nat) : Pkg := p.setRf (pgDMAC k) 0x020 4 4 (p.dmaBusy k).toNat

/-- The channel is HALTED with LASTST UNCORR (R494, R499). -/
def Pkg.dmaHalt (p : Pkg) (k : Nat) : Pkg :=
  let pid := p.dmaPid k
  let p := (p.setChan k DmaChan.reset).dmaSetBusy k
  let p := (p.setRf (pgDMAC k) 0x020 15 8 4).setRf (pgDMAC k) 0x020 3 0 6
  p.setEvent (pgDMAC k) 16 3 { Det.none with pids := [pid], agent := dmaAgent, detail := p.reg (pgDMAC k) 0x200 }

/-- The lines that a byte range touches. -/
def linesIn (addr len : Nat) : Nat := if len = 0 then 0 else (addr + len - 1) / 64 + 1 - addr / 64

/-! ### Immediate FILL (R494) -/

/-- The modes in which a FILL runs. -/
def fillMode (m : Mode) : Bool := match m with | .load | .run | .degraded | .quiesce => true | _ => false

/-- GO of FILLCMD. -/
def Pkg.cmdFill (p : Pkg) (md : Mode) (k : Nat) : Pkg :=
  let pg := pgDMAC k
  let base := p.rf pg 0xC00 51 6 * 64
  let n := p.rf pg 0xC08 31 0
  if p.blkState pg ≠ 1 ∨ !p.dmaEn k ∨ p.busy pg ∨ p.dmaBusy k ∨ !fillMode md then p.cmdWrong pg 0xC18
  else if n = 0 ∨ 0x80000000 < n ∨ hbmSize < base + 64 * n then p.cmdBadArg pg 0xC18
  else
    let p := p.setChan k { p.chan k with fill := true, cfg := p.cfg pg 0x400, ring := p.cfg pg 0x408 }
    ((p.setReg pg 0x200 (BitVec.ofNat 64 base)).setReg pg 0x208 0).cmdPending pg 0xC18

/-- FILL (R494). -/
def execFill (who : Requester) (ch : Fin 16) (s : State) : Host.Outcome State Fault Refusal :=
  s.upd (fun p => p.cmd who (pgDMAC ch.val) 0xC18 (fun p => p.cmdFill s.mode.mode ch.val))

/-- What became of a run of line writes. -/
inductive FillEnd where
  | all
  | halted
  | waits
  deriving DecidableEq, Repr

/-- Write up to `n` lines from FILLPOS on, one at a time; FILLPOS names the next line and FILLDONE counts. -/
def Pkg.fillLines (k : Nat) (bytes : List Byte) : Nat → Pkg → FillEnd × Pkg
  | 0, p => (.all, p)
  | n + 1, p =>
    let pg := pgDMAC k
    let pos := (p.reg pg 0x200).toNat
    match p.ioWrite dmaAgent (p.dmaPid k) pos bytes with
    | (.done _ _, p) =>
      let p := (p.setReg pg 0x200 (BitVec.ofNat 64 (pos + 64))).setReg pg 0x208 (p.reg pg 0x208 + 1)
      Pkg.fillLines k bytes n (p.dmaLines 1)
    | (.err _, p) => (.halted, p)
    | (.waiting, _) => (.waits, p)

/-- FILL_COMPLETE: the lines of a running FILL are written in ascending order, and OK is reported; an error response halts
the channel at the line that got it (R494). -/
def execFillComplete (ch : Fin 16) (s : State) : Host.Outcome State Fault Refusal :=
  s.upd (fun p =>
    let k := ch.val
    let pg := pgDMAC k
    if !(p.chan k).fill || !fillMode s.mode.mode then p
    else
      let n := p.rf pg 0xC08 31 0 - p.rf pg 0x208 31 0
      let bytes := (List.replicate 8 (leBytes 8 (p.reg pg 0xC10).toNat)).flatten
      match Pkg.fillLines k bytes n p with
      | (.all, p) => (p.setChan k DmaChan.reset).cmdDone pg 0xC18 1
      | (.halted, p) => (p.setRf pg 0x020 27 16 0xC18).dmaHalt k
      | (.waits, p) => p)

/-! ### Descriptor rings (R496 to R499) -/

/-- Descriptors are fetched in these modes, and not once the drain into QUIESCE has begun (R496, R60). -/
def dmaFetches (md : ModeState) : Bool :=
  (match md.mode with | .load | .run | .degraded => true | _ => false) && !md.quiescing

/-- A fetched descriptor runs on in these modes; agents that QUIESCE froze stand still (R60, R496). -/
def dmaRuns (md : ModeState) : Bool :=
  match md.mode with | .load | .run | .degraded => true | .quiesce => !md.forced | _ => false

/-- A quad of the running descriptor. -/
def DmaChan.quad (x : DmaChan) (i : Nat) : Word := (x.desc.getD []).getD i 0

/-- LEN and OP of a descriptor. -/
def DmaChan.len (x : DmaChan) : Nat := fld (x.quad 1) 31 0
def DmaChan.op (x : DmaChan) : Nat := fld (x.quad 0) 3 0

/-- A field, the operation, the alignment or the length breaks R497 or R498. -/
def DmaChan.bad (x : DmaChan) : Bool :=
  fld (x.quad 0) 63 56 != 0 || fld (x.quad 0) 45 4 != 0 || fld (x.quad 1) 63 32 != 0 || x.op == 0 || decide (3 < x.op) ||
    ((x.op == 3) != (x.len == 0)) || (x.op == 2 && ((x.quad 3).toNat % 64 != 0 || x.len % 64 != 0))

/-- A write of DMATAIL, from the service host and M (R496). -/
def Pkg.dmaBell (p : Pkg) (who : Requester) (k v : Nat) : Pkg :=
  let allowed := match who with | .host | .core _ => true | _ => false
  if !allowed then p
  else if p.blkState (pgDMAC k) ≠ 1 ∨ dmaRingSize (p.cfg (pgDMAC k) 0x408) ≤ v then p.setEvent (pgDMAC k) 17 1
  else p.setReg (pgDMAC k) 0xC20 (BitVec.ofNat 64 v)

/-- DMATAIL_DOORBELL. -/
def execDmatailDoorbell (who : Requester) (ch : Fin 16) (v : Word) (s : State) : Host.Outcome State Fault Refusal :=
  s.upd (fun p => p.cmd who (pgDMAC ch.val) 0xC20 (fun p => p.dmaBell who ch.val (fld v 11 0)))

/-- DMA_DESCRIPTOR_FETCH (R496, R499). -/
def execDmaDescriptorFetch (ch : Fin 16) (s : State) : Host.Outcome State Fault Refusal :=
  s.upd (fun p =>
    let k := ch.val
    if !dmaFetches s.mode || p.blkState (pgDMAC k) != 1 || !p.dmaEn k || p.dmaBusy k || p.dmaHead k == p.dmaTail k then p
    else
      match p.devRead dmaAgent (p.dmaPid k) (p.dmaEntry k) 32 with
      | (.waiting, _) => p
      | (.ok b false, p) =>
        let x : DmaChan := { fill := false, desc := some ((List.range 4).map (fun i => BitVec.ofNat 64 (leNat ((b.drop (8 * i)).take 8)))),
                             fin := none, cfg := p.cfg (pgDMAC k) 0x400, ring := p.cfg (pgDMAC k) 0x408 }
        (p.setChan k (if x.bad then { x with fin := some 2 } else x)).dmaSetBusy k
      | (_, p) => p.dmaHalt k)

/-- The descriptor of a channel that runs operation `op` and has not ended it. -/
def Pkg.dmaReady (p : Pkg) (md : ModeState) (k op : Nat) : Bool :=
  dmaRuns md && p.blkState (pgDMAC k) == 1 && p.dmaRings k && (p.chan k).fin.isNone && (p.chan k).op == op

/-- The operation of the running descriptor ends with a STATUS. -/
def Pkg.dmaEnd (p : Pkg) (k st : Nat) : Pkg := p.setChan k { p.chan k with fin := some st }

/-- The STATUS that an access which did not go through ends a descriptor with (R499). -/
def dmaStatus : DevAns → Nat
  | .xlate => 3
  | .ok _ false => 1
  | _ => 4

/-- One piece of a COPY, within one line of DST: read, then write. -/
def Pkg.copyPiece (p : Pkg) (k src dst len : Nat) : DevAns × Pkg :=
  match p.devRead dmaAgent (p.dmaPid k) src len with
  | (.ok b false, p) =>
    let r := p.devWrite dmaAgent (p.dmaPid k) dst b
    (r.1, r.2.dmaLines (linesIn src len + 1))
  | r => r

/-- The pieces of a COPY, line by line of DST, from the top when DST lies inside the source range (R498, R138). -/
def Pkg.copyRun (p : Pkg) (k src dst len : Nat) : DevAns × Pkg :=
  let pieces := lineParts dst len
  (if src < dst ∧ dst < src + len then pieces.reverse else pieces).foldl (fun (a : DevAns × Pkg) e =>
    match a.1 with
    | .ok _ false => a.2.copyPiece k (src + (e.1 - dst)) e.1 e.2
    | _ => a) (.ok [] false, p)

/-- A descriptor has run as far as it can: it ends with the STATUS of its last access, or waits in `p0`. -/
def Pkg.dmaDone (p0 : Pkg) (k : Nat) (r : DevAns × Pkg) : Pkg :=
  match r.1 with
  | .waiting => p0
  | st => r.2.dmaEnd k (dmaStatus st)

/-- COPY (R498). -/
def execCopy (ch : Fin 16) (s : State) : Host.Outcome State Fault Refusal :=
  s.upd (fun p =>
    let x := p.chan ch.val
    if p.dmaReady s.mode ch.val 1 then
      p.dmaDone ch.val (p.copyRun ch.val (x.quad 2).toNat (x.quad 3).toNat x.len)
    else p)

/-- The lines of a FILL from a descriptor: `bytes` into every line of DST. -/
def Pkg.patternRun (p : Pkg) (k dst len : Nat) (bytes : List Byte) : DevAns × Pkg :=
  (lineParts dst len).foldl (fun (a : DevAns × Pkg) e =>
    match a.1 with
    | .ok _ false => let w := a.2.devWrite dmaAgent (p.dmaPid k) e.1 bytes; (w.1, w.2.dmaLines 1)
    | _ => a) (.ok [] false, p)

/-- DESCRIPTOR_FILL: the pattern into every line of DST (R498). -/
def execDescriptorFill (ch : Fin 16) (s : State) : Host.Outcome State Fault Refusal :=
  s.upd (fun p =>
    let x := p.chan ch.val
    if p.dmaReady s.mode ch.val 2 then
      p.dmaDone ch.val (p.patternRun ch.val (x.quad 3).toNat x.len (List.replicate 8 (leBytes 8 (x.quad 2).toNat)).flatten)
    else p)

/-- NOP_DESCRIPTOR (R498). -/
def execNopDescriptor (ch : Fin 16) (s : State) : Host.Outcome State Fault Refusal :=
  s.upd (fun p => if p.dmaReady s.mode ch.val 3 then p.dmaEnd ch.val 1 else p)

/-- DMA_DESCRIPTOR_COMPLETION: DONE and STATUS are written, DMAHEAD advances, and the completion may interrupt; UNCORR halts
the channel, and so does a completion write that fails (R498, R499). -/
def execDmaDescriptorCompletion (ch : Fin 16) (s : State) : Host.Outcome State Fault Refusal :=
  s.upd (fun p =>
    let k := ch.val
    let x := p.chan k
    match x.fin with
    | none => p
    | some st =>
      if !dmaRuns s.mode || p.blkState (pgDMAC k) != 1 then p
      else
        let q := setFld (setBit (x.quad 0) 47 true) 55 48 st
        match p.devWrite dmaAgent (p.dmaPid k) (p.dmaEntry k) (leBytes 8 q.toNat) with
        | (.waiting, _) => p
        | (.ok _ _, p) =>
          let p := p.setRf (pgDMAC k) 0x210 11 0 ((p.dmaHead k + 1) % dmaRingSize x.ring)
          let p := (p.setChan k DmaChan.reset).dmaSetBusy k
          let p := if bit (x.quad 0) 46 ∧ bit x.cfg 31 then
              (p.notify (fld x.cfg 15 8) (fld x.cfg 6 0) (fld x.cfg 23 16)).2 else p
          if st = 4 then p.dmaHalt k else p
        | (_, p) => p.dmaHalt k)

/-- What RSTREQ of a channel does beside its registers: its descriptors are discarded (R499). -/
def Pkg.dmaDrop (p : Pkg) (k : Nat) : Pkg := p.setChan k DmaChan.reset

end Sys2Proof.Machine
end

