-- ==== Sys2Proof/Machine/Modes.lean ====
section
/-! DEFINITION. Package modes: LOSTSET, mode commands, the steward's evaluation at the tick, the entry work of each
transition, the drain into QUIESCE, power good and package reset (R54 to R62, R429, R504, R551, R554). -/

namespace Sys2Proof.Machine

/-! ### Codes and paths -/

/-- The code of a mode (R54). -/
def Mode.code : Mode → Nat
  | .off => 0 | .service => 1 | .load => 2 | .test => 3 | .run => 4 | .degraded => 5 | .drizzle => 6 | .quiesce => 7

/-- The mode of a code. -/
def modeOfCode (n : Nat) : Option Mode := [Mode.off, .service, .load, .test, .run, .degraded, .drizzle, .quiesce][n]?

/-- The transitions that a command of the service host starts (R55). -/
def hostPath : Mode → Mode → Bool
  | .service, .load | .load, .test | .load, .run | .quiesce, .load | .quiesce, .test
  | .run, .drizzle | .degraded, .drizzle | .drizzle, .run | .drizzle, .degraded
  | .run, .quiesce | .degraded, .quiesce | .drizzle, .quiesce => true
  | _, _ => false

/-- Every transition of the table (R55). -/
def modePath (a b : Mode) : Bool :=
  hostPath a b || b == .off ||
  match a, b with
  | .off, .service | .load, .quiesce | .run, .degraded | .degraded, .run => true
  | _, _ => false

/-- MODESTAT (R58). -/
def ModeState.word (md : ModeState) : Word :=
  Sys2Proof.Machine.word [(32, md.entfrm), (24, md.wake), (16, md.origin), (13, md.pcs.toNat), (12, md.forced.toNat),
    (8, match md.ret with | some m => m.code | none => 0),
    (4, match md.trans with | some t => t.target.code | none => md.mode.code), (0, md.mode.code)]

/-- A transition is in progress (R59). -/
def ModeState.moving (md : ModeState) : Bool := md.trans.isSome

/-! ### LOSTSET (R61) -/

/-- The die is lost: D-FENCED, D-OFF, or readmitted and not yet in D-RUN again (R61, R296). -/
def Pkg.dieLost (p : Pkg) (d : Nat) : Bool := p.dieState d == 4 || p.dieState d == 0 || (p.link d).ready

/-- LOSTSET bits stay 0 in these modes. -/
def lostMode (m : Mode) : Bool := match m with | .off | .service | .load => false | _ => true

/-- Bits from `lo`, one for each number below `n` for which the loss lasts. -/
def lossBits (lo n : Nat) (f : Nat → Bool) : Nat := ((List.range n).filter f).foldl (fun a k => a + 2 ^ (lo + k)) 0

/-- The losses that last. -/
def Pkg.lostNow (p : Pkg) (m : Mode) : Nat :=
  if !lostMode m then 0
  else
    lossBits 0 12 p.dieLost +
    lossBits 12 12 (fun d => p.linkRuns d && (p.rf (pgMP d) 0x200 13 12 != 0 || p.rf (pgMP d) 0x200 15 14 != 0)) +
    lossBits 24 16 p.mcDisabled +
    lossBits 40 2 (fun g => p.site g && p.gpState g == 5) +
    lossBits 42 1 (fun _ => p.fabric.lost) +
    lossBits 43 1 (fun _ => !p.head && p.fr.state == 2) +
    lossBits 44 1 (fun _ => (List.range 216).any (fun lc => p.cmapSt lc == 2)) +
    lossBits 45 1 (fun _ => !p.head && !p.chUp false) +
    lossBits 46 1 (fun _ => p.chain.eack && !p.chUp true)

/-- LOSTSET as it reads: the losses of the last tick, and a die lost since (R62). -/
def Pkg.lostset (p : Pkg) (m : Mode) : Nat :=
  if !lostMode m then 0 else (p.reg pgSTW 0x218).toNat ||| lossBits 0 12 p.dieLost

/-! ### Mode changes as the steward makes them (R55, R59) -/

/-- MODE takes a new value. -/
def ModeState.enter (md : ModeState) (m : Mode) (origin frame : Nat) : ModeState :=
  { md with mode := m, origin := origin, entfrm := frame % 65536, trans := none, drain := none, ret := none }

/-- What the mode evaluation of a tick works on: a checkstop was raised; the command that begins; the wake match; the
losses; the entry work of the transition in progress is complete at this tick; the frame. -/
structure ModeIn where
  pcs : Bool
  begin_ : Option Mode
  wake : Option Nat
  lost : Nat
  done : Bool
  frame : Nat
  deriving DecidableEq, Repr

/-- Step 1 (R59). -/
def ModeState.checkstop (md : ModeState) (frame : Nat) : ModeState :=
  let md := { md with pcs := true }
  match md.mode with
  | .run | .degraded | .drizzle | .load =>
    let e := md.enter .quiesce 4 frame
    { e with forced := true }
  | .quiesce => { md with forced := true, trans := none, drain := none }
  | .off | .service | .test => { md with trans := none }

/-- Step 2: a command begins its transition; out of DRIZZLE it is the cause WAKE reports (R59, R427). -/
def ModeState.begin_ (md : ModeState) (m : Mode) : ModeState :=
  { md with trans := some { target := m, origin := 1, done := false }, drain := if m = .quiesce then some 0 else none,
            wake := if md.mode = .drizzle then 0x21 else md.wake }

/-- The mode that an exit from DRIZZLE enters (R55). -/
def wakeTarget (lost : Nat) : Mode := if lost = 0 then .run else .degraded

/-- Step 3: a wake match begins the exit, or is only recorded (R59). -/
def ModeState.wakeUp (md : ModeState) (code lost : Nat) : ModeState :=
  if md.mode ≠ .drizzle then md
  else if md.moving then { md with wake := code }
  else { md with wake := code, trans := some { target := wakeTarget lost, origin := 3, done := false } }

/-- A loss, or its end, moves the package between RUN and DEGRADED; a transition begun at an earlier tick goes on (R59, R62). -/
def ModeState.shift (md : ModeState) (m : Mode) (frame : Nat) : ModeState :=
  { md with mode := m, origin := 2, entfrm := frame % 65536 }

/-- Step 4: LOSTSET is applied (R59). A bit that clears in DRIZZLE counts as a new loss when it becomes 1 again. -/
def ModeState.applyLost (md : ModeState) (lost frame : Nat) : ModeState :=
  match md.mode with
  | .run => if lost = 0 then md else md.shift .degraded frame
  | .degraded => if lost = 0 then md.shift .run frame else md
  | .drizzle =>
    let new := lost &&& (2 ^ 47 - 1 - md.lostAtEntry)
    let md := { md with lostAtEntry := md.lostAtEntry &&& lost }
    if new = 0 ∨ md.moving then md
    else { md with wake := 0x20, trans := some { target := .degraded, origin := 2, done := false } }
  | _ => md

/-- The mode evaluation of a tick (R59). Step 4 leaves a transition alone that step 2 or 3 began at this tick, and one whose
target MODE takes at this tick. -/
def ModeState.tick (md : ModeState) (i : ModeIn) : ModeState :=
  if i.pcs then md.checkstop i.frame
  else
    let md := { md with drain := md.drain.map (· + 1) }
    let md1 := match i.begin_ with | some m => md.begin_ m | none => md
    let md2 := match i.wake with | some c => md1.wakeUp c i.lost | none => md1
    if md2.moving && (!md.moving || i.begin_.isSome || i.done) then md2 else md2.applyLost i.lost i.frame

/-- MODE takes the target of the transition whose entry work is complete (R55, R59). -/
def ModeState.complete (md : ModeState) (t : Trans) (lost frame : Nat) : ModeState :=
  let m := if md.mode = .drizzle ∧ t.target ≠ .quiesce then wakeTarget lost else t.target
  let e := md.enter m t.origin frame
  if m = .drizzle then { e with ret := some (wakeTarget lost), lostAtEntry := lost } else e

/-! ### What an entry does to the package -/

/-- MODE_CHANGED is logged, SE.INTSTAT[MODE] sets, and a command whose target is reached reports OK (R57, R409, R448). -/
def Pkg.modeEntered (p : Pkg) (md : ModeState) : Pkg :=
  let p := (p.setRf pgSE 0x208 2 2 1).logEvent 0x10 md.origin none none pgSTW (BitVec.ofNat 64 (md.word.toNat % 2 ^ 32))
  match p.stw.modeCmd with
  | some (m, _) =>
    if m = md.mode then
      let stw := { p.stw with modeCmd := none }
      ({ p with stw := stw }).cmdDone pgSTW 0xC10 1
    else p
  | none => p

/-- Dies in one of the states `from_` move to `st` (R62). -/
def Pkg.moveDies (p : Pkg) (from_ : List Nat) (st : Nat) : Pkg :=
  (List.range 12).foldl (fun p d => if from_.contains (p.dieState d) then p.setDieState d st else p) p

/-- Entry into DRIZZLE: the L1s and translations of every unit leave, the dies enter D-DRIZZLE, the wake logic starts from
this frame (R55, R426, R427). -/
def Pkg.enterDrizzle (p : Pkg) : Pkg :=
  let p := (below 12 p.dieUp).foldl (fun p d => (List.range 20).foldl (fun p i => p.unitLeave (d * 20 + i)) p) p
  let p := p.moveDies [1, 2] 3
  let pw := { p.pw with f0 := p.frameNum, base := [], latched := [], idleFr := 0 }
  ({ p with pw := pw }).setReg pgHPWR 0x368 0

/-- Exit from DRIZZLE: the dies return to D-RUN (R55). -/
def Pkg.leaveDrizzle (p : Pkg) : Pkg :=
  (List.range 12).foldl (fun p d =>
    if p.dieState d = 3 then p.setDieState d (if (p.link d).ready then 1 else 2) else p) p

/-- Every partition is FREE; its GEN and a REKEY that waits stay. -/
def Pkg.freeParts (p : Pkg) : Pkg :=
  p.stw.parts.foldl (fun (p : Pkg) (e : Nat × Partition) =>
    p.setPart e.1 { Partition.reset with gen := e.2.gen, rekey := e.2.rekey }) p

/-- Entry into RUN from LOAD: PID 0 is DEFINED with MVEC0, every other PID is FREE, and the MAPPED cores start (R395, R501). -/
def Pkg.enterRun (p : Pkg) : Pkg :=
  let p := p.freeParts
  let stw := { p.stw with assigns := [], held := [], lcpid := [] }
  let p := { p with stw := stw, cores := [] }
  let p := p.setPart 0 { p.part 0 with st := .defined, vec := p.cf pgSTW 0x410 51 12 * 4096 }
  let p := (List.range 216).foldl (fun p lc => if p.mapped lc then p.startCore lc 0 else p) p
  p.moveDies [1] 2

/-- Hub main and hub PHY are switched on: every hub page outside the service island is as after reset, and the rails are
commanded in their order (R415, R486, R553). Unpopulated guest sites are inert (R1). -/
def Pkg.hubOn (p : Pkg) : Pkg :=
  let pw := { p.pw with hubMain := true, railQ := [14, 13, 12] ++ List.range 12 }
  let p := ({ p with pw := pw }).setReg pgHCLK 0x200 (BitVec.ofNat 64 (2 ^ 36 - 1))
  (List.range 2).foldl (fun p g => if p.site g then p else p.setRf (pgGP g) 0x200 3 0 7) p

/-- Entry into LOAD from SERVICE: fuse remaps, the head's chain address, and the training of the ledger stacks
(R324, R464, R484, R1). -/
def Pkg.enterLoad (p : Pkg) : Pkg :=
  let p := (List.range 16).foldl (fun p n =>
    let es := (Config.fuseMap n).take 256
    let t := (List.range es.length).map (fun i => (i, es.getD i 0))
    (p.setCtl n { p.ctl n with remap := t.filter (fun e => e.2 != 0) }).refreshRmcnt n) p
  ((p.headAddr true).trainStart 24).trainStart 25

/-- What QUIESCE to LOAD and QUIESCE to TEST do: caches are written back and emptied, units and cores are reset, every
partition is FREE, the ledger keeps queue pair 0 (R55, R364, R504). -/
def Pkg.leaveQuiesce (p : Pkg) : Pkg :=
  let p := (below 12 p.dieUp).foldl (fun p d => p.dieFlushAll d) p
  let p := p.units.foldl (fun (p : Pkg) (e : Nat × PhysUnit) =>
    p.setUnit e.1 { e.2 with itlb := [], dtlb := [], l2tlb := [], wc := [], watch := 0, progress := false, hung := false,
                             cst := 0, idle := 0 }) p
  let p := (List.range 128).foldl (fun p pid => p.setDcs pid false) p
  let p := p.freeParts
  let stw := { p.stw with assigns := [], held := [], lcpid := [] }
  let p := { p with stw := stw, cores := [], coh := { p.coh with drains := [], sweeps := [], dcsLines := [] } }
  (p.ledgerToLoad.moveDies [2, 3] 1).setRf pgSTW 0x228 8 8 0

/-- A fenced part that was not excluded is retried as one that has just been powered off (R504; log entry 140). -/
def Pkg.unfence (p : Pkg) : Pkg :=
  let p := (List.range 12).foldl (fun p d =>
    if !p.dieFenced d || p.dieExcluded d then p
    else
      ((((p.railOff d).dieReset d).setDieState d 0).setReg (pgMP d) 0x200 (word [(12, 0xF)])).setLink d DieLink.reset) p
  (List.range 2).foldl (fun p n =>
    if p.gpState n ≠ 5 ∨ p.guestExcluded n then p
    else (p.setReg (pgGP n) 0x200 0).setGuest n { Guest.reset with before := (p.guest n).before }) p

/-- A LOAD entered from QUIESCE counts the ACTIVE parts as finished and retries every other part (R504, R63). -/
def Pkg.retryParts (p : Pkg) : Pkg :=
  let active := fun (t : Nat) =>
    if t < 14 then p.linkRuns (t - 2) && p.dieState (t - 2) == 1 else p.rf (partPage t) 0x200 3 0 == 2
  let p := { p with boot := { p.boot with finished := ((List.range 22).map (· + 2)).filter active } }
  let p := p.unfence
  let off := below 12 (fun d => p.dieState d == 0 && tblGet (fun _ => 0) p.pw.rails d != 2 && !p.pw.railQ.contains d)
  let p := { p with pw := { p.pw with railQ := p.pw.railQ ++ off } }
  (List.range 24).foldl (fun p t => if (p.page (partPage t)).live.isSome then p.firstAttempt t else p) p

/-- The entry work of a transition that completes at its tick (R55). -/
def Pkg.entryWork (p : Pkg) (a b : Mode) : Pkg :=
  match a, b with
  | .service, .load => p.enterLoad
  | .load, .run => p.enterRun
  | .quiesce, .load => p.leaveQuiesce.retryParts
  | .quiesce, .test => p.leaveQuiesce
  | .run, .drizzle | .degraded, .drizzle => p.enterDrizzle
  | .drizzle, .run | .drizzle, .degraded => p.leaveDrizzle
  | _, .quiesce => p.moveDies [2, 3] 1
  | _, _ => p

/-- The entry work that has to be done before MODE changes is done (R55, R60, R486). -/
def Pkg.entryDone (p : Pkg) (md : ModeState) (t : Trans) : Bool :=
  match md.mode, t.target with
  | .service, .load => p.pw.hubMain && p.pw.railQ == []
  | _, .quiesce => md.drain.isNone
  | _, .drizzle => (List.range 216).all (fun lc => (p.core lc).io == [])
  | _, _ => true

/-- The entry work of the transition in progress is complete. -/
def Pkg.transDone (p : Pkg) (md : ModeState) : Bool :=
  match md.trans with
  | some t => p.entryDone md t
  | none => false

/-- A tick finds whether the entry work of the transition in progress is complete (R55). The units need a frame to stop for
DRIZZLE, so an entry that begins at this tick is not (R74's example). -/
def Pkg.markDone (p : Pkg) (md : ModeState) (begun : Bool) : ModeState :=
  { md with trans := md.trans.map (fun t =>
      { t with done := t.done || (p.entryDone md t && !(begun && t.target == .drizzle)) }) }

/-- LOSTSET is written from the losses of the mode (R61). -/
def Pkg.storeLost (p : Pkg) (m : Mode) : Pkg := p.setReg pgSTW 0x218 (BitVec.ofNat 64 (p.lostNow m))

/-- MODE_TRANSITION_COMPLETE: at the first tick at which the entry work is complete MODE takes the target, and LOSTSET shows
the losses of the new mode (R55, R61). A seed adopted in SERVICE is applied at the tick that enters LOAD (R66). -/
def execModeTransitionComplete (s : State) : Host.Outcome State Fault Refusal :=
  match s.mode.trans with
  | none => .next s
  | some t =>
    if !t.done then .next s
    else
      let p := s.pkg.seedTick (s.mode.mode == .service && t.target == .load)
      let md := s.mode.complete t (p.lostNow s.mode.mode) p.frameNum
      .next { s with mode := md, pkg := ((p.entryWork s.mode.mode md.mode).storeLost md.mode).modeEntered md }

/-! ### Mode commands (R57) -/

/-- HD.STEWARD is busy: a command runs or a transition is in progress (R59). -/
def Pkg.stwBusy (p : Pkg) (md : ModeState) : Bool := p.busy pgSTW || md.moving

/-- The transition is one that the service host commands and its acceptance condition holds (R55). -/
def Pkg.modeReady (p : Pkg) (a b : Mode) : Bool :=
  hostPath a b &&
  match a, b with
  | .service, .load => p.stw.running
  | .load, .run => p.ready
  | _, _ => true

/-- GO written to MODECMD with TARGET `t` (R57); from another requester than the service host it performs nothing, and TARGET
keeps its value. -/
def Pkg.cmdMode (p : Pkg) (md : ModeState) (who : Requester) (t : Nat) : Pkg :=
  if who ≠ .host then p.cmdDenied pgSTW 0xC10
  else
    let p := p.setReg pgSTW 0xC10 (BitVec.ofNat 64 (t % 16))
    match modeOfCode t with
    | none => p.cmdBadArg pgSTW 0xC10
    | some m =>
      if md.pcs || p.stwBusy md || !p.modeReady md.mode m then p.cmdWrong pgSTW 0xC10
      else
        let stw := { p.stw with modeCmd := some (m, false) }
        ({ p with stw := stw }).cmdPending pgSTW 0xC10

/-- MODECMD_LOAD. -/
def execModecmdLoad (who : Requester) (s : State) : Host.Outcome State Fault Refusal :=
  s.upd (fun p => p.cmd who pgSTW 0xC10 (fun p => p.cmdMode s.mode who 2))

/-- MODECMD_TEST. -/
def execModecmdTest (who : Requester) (s : State) : Host.Outcome State Fault Refusal :=
  s.upd (fun p => p.cmd who pgSTW 0xC10 (fun p => p.cmdMode s.mode who 3))

/-- MODECMD_RUN. -/
def execModecmdRun (who : Requester) (s : State) : Host.Outcome State Fault Refusal :=
  s.upd (fun p => p.cmd who pgSTW 0xC10 (fun p => p.cmdMode s.mode who 4))

/-- MODECMD_DEGRADED. -/
def execModecmdDegraded (who : Requester) (s : State) : Host.Outcome State Fault Refusal :=
  s.upd (fun p => p.cmd who pgSTW 0xC10 (fun p => p.cmdMode s.mode who 5))

/-- MODECMD_DRIZZLE. -/
def execModecmdDrizzle (who : Requester) (s : State) : Host.Outcome State Fault Refusal :=
  s.upd (fun p => p.cmd who pgSTW 0xC10 (fun p => p.cmdMode s.mode who 6))

/-- MODECMD_QUIESCE. -/
def execModecmdQuiesce (who : Requester) (s : State) : Host.Outcome State Fault Refusal :=
  s.upd (fun p => p.cmd who pgSTW 0xC10 (fun p => p.cmdMode s.mode who 7))

/-! ### The steward's evaluation at the tick (R59) -/

/-- The command that begins at this tick. -/
def Pkg.cmdToBegin (p : Pkg) (md : ModeState) : Option Mode :=
  match p.stw.modeCmd with
  | some (m, false) => if p.modeReady md.mode m && !md.moving then some m else none
  | _ => none

/-- A command that does not begin because its condition no longer holds ends with WRONG_STATE (R502). -/
def Pkg.cmdLapses (p : Pkg) (md : ModeState) : Pkg :=
  match p.stw.modeCmd with
  | some (m, false) =>
    if p.modeReady md.mode m then
      let stw := { p.stw with modeCmd := some (m, true) }
      { p with stw := stw }
    else
      let stw := { p.stw with modeCmd := none }
      (({ p with stw := stw }).cmdWrong pgSTW 0xC10).setRf pgSTW 0x020 4 4 0
  | _ => p

/-- A package checkstop ends an accepted command with SUPERSEDED (R58, R59 step 1). -/
def Pkg.supersede (p : Pkg) (md : ModeState) : Pkg :=
  let stw := { p.stw with modeCmd := none, wakeMatch := none }
  let p := if p.stw.modeCmd.isSome then ({ p with stw := stw }).cmdDone pgSTW 0xC10 6 else { p with stw := stw }
  if md.mode = .service then { p with pw := { p.pw with railQ := [] } } else p

/-- What the evaluation works on at a tick. -/
def Pkg.modeIn (p : Pkg) (md : ModeState) : ModeIn :=
  { pcs := p.stw.pcsRaised, begin_ := p.cmdToBegin md, wake := p.stw.wakeMatch, lost := p.lostNow md.mode,
    done := p.transDone md, frame := p.frameNum }

/-- The mode evaluation of a tick: the new mode state and what it does to the package (R59). -/
def Pkg.evalMode (p : Pkg) (md : ModeState) : ModeState × Pkg :=
  let i := p.modeIn md
  let md' := md.tick i
  let p := p.storeLost md'.mode
  let p := if i.pcs then p.supersede md else
    let p := p.cmdLapses md
    let stw := { p.stw with wakeMatch := none }
    let p : Pkg := { p with stw := stw }
    if md.mode = .drizzle ∧ md'.wake ≠ md.wake ∧ (md'.wake = 0x20 ∨ md'.wake = 0x21) then
      p.setRf pgHPWR 0x368 (md'.wake % 32 + 32) (md'.wake % 32 + 32) 1
    else p
  let stw := { p.stw with pcsRaised := false }
  let p : Pkg := { p with stw := stw }
  let p := if md'.mode = md.mode then p else (p.entryWork md.mode md'.mode).modeEntered md'
  let start := md'.mode == .service && md'.trans.isSome && !p.pw.hubMain && (p.page pgHPWR).live.isSome
  let p := if start then p.hubOn else p
  (p.markDone md' (!md.moving || i.begin_.isSome), p)

/-! ### The drain into QUIESCE (R60) -/

/-- Every agent of R60 has stopped: the cores, the ledger engine, and the hub DMA channels at a descriptor boundary. -/
def Pkg.drained (p : Pkg) : Bool :=
  (List.range 216).all (fun lc => (p.core lc).io == []) && p.ledger.slots.all (fun e => e.2.isNone) &&
    (List.range 16).all (fun k => !p.dmaRings k)

/-- DRAINLIM (R60). -/
def Pkg.drainLim (p : Pkg) : Nat := let n := p.cf pgSTW 0x400 42 32; if n = 0 then 125 else min 1024 n

/-- QUIESCE_DRAIN_COMPLETE (R60). -/
def execQuiesceDrainComplete (s : State) : Host.Outcome State Fault Refusal :=
  if s.mode.drain.isSome ∧ s.pkg.drained then .next { s with mode := { s.mode with drain := none, forced := false } }
  else .next s

/-- DRAIN_LIMIT_EXPIRY: the agents that remain are frozen where they stand, and FORCED tells whether any remained (R58, R60). -/
def execDrainLimitExpiry (s : State) : Host.Outcome State Fault Refusal :=
  match s.mode.drain with
  | some n =>
    if s.pkg.drainLim ≤ n then .next { s with mode := { s.mode with drain := none, forced := !s.pkg.drained } } else .next s
  | none => .next s

/-! ### The DRIZZLE policy (R429) -/

/-- DRIZZLE_AUTO_ENTRY: the steward begins the entry under its policy. -/
def execDrizzleAutoEntry (s : State) : Host.Outcome State Fault Refusal :=
  let md := s.mode
  if (md.mode = .run ∨ md.mode = .degraded) ∧ !md.moving ∧ s.pkg.stw.modeCmd = none ∧ s.pkg.cf pgHPWR 0x408 24 24 = 1 ∧
      s.pkg.autoFr ≤ s.pkg.pw.idleFr then
    .next { s with mode := { md with trans := some { target := .drizzle, origin := 2, done := false } } }
  else .next s

/-! ### Power good and package reset (R55, R551, R554) -/

/-- What outlives package reset: the ledger stacks, the populated sites, and the pins that others drive. -/
def Pkg.afterReset (p : Pkg) (head : Bool) (pw : Power) : Pkg :=
  let l := { Ledger.reset with ns := p.ledger.ns, seqMax := p.ledger.seqMax, pf := p.ledger.pf }
  { Pkg.reset head p.populated p.fresh with ledger := l, pw := { pw with perst := p.pw.perst, tap := p.pw.tap } }

/-- POWER_GOOD: the package enters SERVICE at frame 0; the strap is sampled (R55, R546). -/
def execPowerGood (head : Bool) (s : State) : Host.Outcome State Fault Refusal :=
  if s.mode.mode = .off then
    let p := s.pkg.afterReset head { Power.off with island := true }
    .next { s with mode := ModeState.reset, pkg := if p.pw.perst then p else p.seTrain }
  else .next s

/-- A fall of PKG_RESET_N: the engine runs the power-fail sequence and everything volatile is lost (R357, R554). -/
def State.packageReset (s : State) : State :=
  if s.mode.mode = .off then s
  else
    let p := (s.pkg.pfHold s.mode.mode).pfStop
    { s with mode := { ModeState.reset with mode := .off },
             pkg := p.afterReset p.head { Power.off with pwrFail := p.pw.pwrFail } }

/-- PKG_RESET. -/
def execPkgReset (s : State) : Host.Outcome State Fault Refusal := .next s.packageReset

/-- REFCLK_LOSS: as a fall of PKG_RESET_N. -/
def execRefclkLoss (s : State) : Host.Outcome State Fault Refusal := .next s.packageReset

end Sys2Proof.Machine
end

