-- ==== Sys2Proof/Machine/Collect.lean ====
section
/-! DEFINITION. What the steward and the dies do at every tick beside modes and power: quotas and overruns (R69 to R73),
the die service and its watches (R287, R288, R291), the conserved quantities (R413), and the collection of errors (R527 to
R532). -/

namespace Sys2Proof.Machine

/-! ### Quotas (R69, R71) -/

/-- Every sensor of a die but the aging monitors was sampled. -/
def dieSampled (samples : List (Sensor × Int)) (d : Nat) : Bool :=
  let has := fun (f : Sensor → Bool) => samples.any (fun e => f e.1)
  has (fun x => match x with | .dieHot y => y.val == d | _ => false) &&
  has (fun x => match x with | .dieVolt y => y.val == d | _ => false) &&
  has (fun x => match x with | .diePower y => y.val == d | _ => false) &&
  (List.range 4).all (fun k => has (fun x => match x with | .cluster y j => y.val == d && j.val == k | _ => false))

/-- Every sensor of the hub was sampled (R521). -/
def hubSampled (samples : List (Sensor × Int)) : Bool :=
  let has := fun (f : Sensor → Bool) => samples.any (fun e => f e.1)
  has (fun x => match x with | .pkgPower => true | _ => false) &&
  (List.range 4).all (fun k => has (fun x => match x with | .hub q => q.val == k | _ => false)) &&
  (List.range 8).all (fun k => has (fun x => match x with | .hbm q => q.val == k | _ => false)) &&
  (List.range 2).all (fun k => has (fun x => match x with | .ledger q => q.val == k | _ => false)) &&
  (List.range 6).all (fun k => has (fun x => match x with | .rail q => q.val == k | _ => false))

/-- The credit audit of a page in frame `f`: the books it censuses and those it censused. -/
def Pkg.auditWork (p : Pkg) (md : Mode) (f pg : Nat) : List (Nat × Nat) :=
  if p.quotaOn md f [.load, .run, .degraded, .quiesce, .drizzle] && p.blkState pg == 1 &&
      (match bookDie pg with | some d => p.dieUp d && !(p.link d).disturbed | none => true) then
    [(p.auditSize pg, (p.fabric.seen.filter (fun x => x.1 == pg)).length)]
  else []

/-- The modes of the telemetry, and of the power-budget exchange (R69). -/
def telemModes : List Mode := [.service, .load, .test, .run, .degraded, .drizzle, .quiesce]
def powerModes : List Mode := [.load, .test, .run, .degraded, .quiesce, .drizzle]

/-- The activities of a page in frame `f`: the work that each quota asks for and the work done (R69, R71). The audits of
HD.STEWARD are done at their tick; a die behind a paused link has no power-budget exchange. -/
def Pkg.quotaOf (p : Pkg) (md : Mode) (f : Nat) (samples : List (Sensor × Int)) (pg : Nat) : List (Nat × Nat) :=
  let done := (p.page pg).work
  let d := pg / 4096
  let when_ := fun (modes : List Mode) (c : Bool) (w : Nat × Nat) => if p.quotaOn md f modes && c then [w] else []
  if p.loadHold pg || !p.answers pg then []
  else
    match blkOf pg with
    | some (.mc, n) => when_ [.run, .degraded] (p.rf pg 0x200 3 0 == 1) (p.scrubLive n, done)
    | some (.ds, n) => when_ [.run, .degraded, .quiesce, .drizzle] true (p.audQ n, done)
    | some (.mp, n) =>
      when_ [.load, .run, .degraded, .quiesce] (p.mpState n == 2 && !(p.link n).disturbed) (p.margQ n, done) ++
        p.auditWork md f pg
    | some (.ring, _) | some (.grid, _) => p.auditWork md f pg
    | some (.hphy, k) =>
      when_ [.load, .run, .degraded, .quiesce] (p.rf pg 0x200 3 0 == 2 && p.fr.ticks % 1024 == 0) (p.calQ k, done)
    | some (.ch, i) =>
      when_ [.load, .run, .degraded, .quiesce, .drizzle] (p.rf pg 0x200 3 0 == 2) (p.chMargQ (i == 1), done)
    | some (.telem, _) =>
      when_ telemModes true (1, (dieSampled samples d).toNat) ++
        when_ [.run, .degraded, .drizzle] true (p.ageQ d, (p.ageTurns samples d).2)
    | some (.htel, _) => when_ telemModes true (1, (hubSampled samples).toNat)
    | some (.dpm, _) => when_ powerModes (p.dieUp d) (1, (p.link d).paused.isNone.toNat)
    | some (.hpwr, _) =>
      when_ powerModes true (1, ((List.range 12).all (fun d => !p.dieUp d || (p.link d).paused.isNone)).toNat)
    | _ => []

/-- An overrun is counted at the tick that starts the present frame, or a complete quota clears CONSEC (R71). The event of R73
is raised when CONSEC reaches a multiple of 3. -/
def Pkg.countOverrun (p : Pkg) (pg : Nat) (complete : Bool) : Pkg :=
  let old := p.rf pg 0x3F8 7 0
  if complete then (if old = 0 then p else p.setRf pg 0x3F8 7 0 0)
  else
    let p := ((p.addRf pg 0x3F8 63 32 1).setRf pg 0x3F8 31 16 (p.frameNum % 65536)).addRf pg 0x3F8 7 0 1
    let p := p.setEvent pg 2 1
    let new := p.rf pg 0x3F8 7 0
    if new ≠ old ∧ new % 3 = 0 then { p with stw := { p.stw with overruns := p.stw.overruns ++ [pg] } } else p

/-- The pages that run quotas (R69). -/
def quotaPages : List Nat :=
  (List.range 12).flatMap (fun d => [pgDPM d, pgTELEM d, pgRING d]) ++ [pgHPWR, pgHTEL, pgGRID] ++
    (List.range 12).map pgMP ++ (List.range 16).map pgMC ++ (List.range 16).map pgDS ++ (List.range 8).map pgHPHY ++
    [pgCH false, pgCH true]

/-- The quotas of frame `f` are judged, and the work of the next frame counts from 0 (R71, R72). Calibration slots count over
1,024 frames, by ticks (R68). -/
def Pkg.quotaTick (p : Pkg) (md : Mode) (f : Nat) (samples : List (Sensor × Int)) : Pkg :=
  quotaPages.foldl (fun p pg =>
    let p := match p.quotaOf md f samples pg with
      | [] => p
      | l => p.countOverrun pg (l.all (fun w => decide (w.1 ≤ w.2)))
    let keep : Bool := (match blkOf pg with | some (.hphy, _) => true | _ => false) && p.fr.ticks % 1024 != 0
    if keep || (p.page pg).work == 0 then p else p.setPage pg { p.page pg with work := 0 }) p

/-! ### Die service and watchdog (R287, R288, R291) -/

/-- The die service and the watchdog of a die work in the frame. -/
def Pkg.dieServes (p : Pkg) (d f : Nat) : Bool := p.dieUp d && (p.dieState d != 3 || p.isWake f)

/-- The duties done in the frame just ended, one bit each in the order of R288. -/
def Pkg.dutiesDone (p : Pkg) (md : Mode) (d : Nat) (samples : List (Sensor × Int)) : Nat :=
  let x := p.link d
  (if x.beat then 1 else 0) + (if x.paused.isNone then 2 else 0) + (if dieSampled samples d then 4 else 0) +
    (if p.loadHold (pgTELEM d) || !p.ages md d || decide (p.ageQ d ≤ (p.ageTurns samples d).2) then 8 else 0)

/-- The unit watch of a unit over the frame just ended (R291). -/
def Pkg.unitWatch (p : Pkg) (md : Mode) (d i : Nat) : Pkg :=
  let u := d * 20 + i
  let x := p.unit u
  let runs : Bool := match p.lcOfUnit d i with
    | some lc => (p.core lc).run == .executing && p.unitCst md d i == 0
    | none => false
  let n := if runs && !x.progress then satInc 16 x.watch 1 else 0
  if n = x.watch then p else p.setUnit u { x with watch := n }

/-- The watches over frame `f`. A page in LOAD_HOLD, and a frame in which the link was stalled or paused, count nothing
(R291, R292). -/
def Pkg.watchTick (p : Pkg) (md : Mode) (d f done : Nat) : Pkg :=
  if !p.wdogOn d || (p.link d).disturbed || (p.dieState d == 3 && !p.isWake f) then p
  else
    let pg := pgWDOG d
    let p := if done = 15 then p.setRf pg 0x200 47 40 0 else p.addRf pg 0x200 47 40 1
    (List.range 20).foldl (fun p i => p.unitWatch md d i) p

/-- A die at the tick that ends frame `f`: a missed heartbeat fences it; its duties and watches are judged; the die service
sends the HEART of the new frame in its sampling cycle, ahead of every other duty (R287, R288; log entry 18). -/
def Pkg.dieServiceTick (p : Pkg) (md : Mode) (d f : Nat) (samples : List (Sensor × Int)) : Pkg :=
  let x := p.link d
  let p :=
    if !p.dieServes d f then p
    else if !x.beat && !x.disturbed then
      (p.setEvent (pgMP d) 17 4 { Det.none with detail := p.reg (pgMP d) 0x200, agent := d }).fenceDie d 1
    else
      let done := p.dutiesDone md d samples
      (p.setRf (pgDSVC d) 0x200 3 0 done).watchTick md d f done
  let next := (f + 1) % 2 ^ 48
  if !p.dieServes d next then (if (p.link d).beat then p.setLink d { p.link d with beat := false } else p)
  else
    let sends := (p.link d).paused.isNone && p.rf (pgWDOG d) 0x200 32 32 == 0
    let p := p.setLink d { p.link d with beat := sends }
    if sends then (p.addRf (pgDSVC d) 0x200 63 32 1).setReg (pgMP d) 0x238 (BitVec.ofNat 64 next) else p

/-! ### Conserved quantities (R413, R414) -/

/-- Power tokens: the grants counted against the larger of the old and the new LIMIT (R421, R422). A failure holds the grants;
a second one in a row is unrepairable. -/
def Pkg.auditTokens (p : Pkg) : Pkg :=
  let used := sumOf ((List.range 12).map p.counted) + p.reserved + p.fencedTokens
  let top := max p.limit p.pw.oldLimit
  if used ≤ top then { p with stw := { p.stw with tokenFails := 0 } }
  else
    let n := p.stw.tokenFails + 1
    ({ p with stw := { p.stw with tokenFails := n } }).auditFail 0x21 pgSTW (used - top : Nat) (decide (2 ≤ n))

/-- The counts of a slice made again from its entries. -/
def Pkg.dirRecount (p : Pkg) (n : Nat) : Nat × Nat :=
  p.coh.dirs.foldl (fun (a : Nat × Nat) (s : Nat × DirSet) =>
    if s.1 / 32768 = n then s.2.ways.foldl (fun a e => let x := entLive e.2; (a.1 + x.1, a.2 + x.2)) a else a) (0, 0)

/-- LIVE + FENCED + FREE of every slice (R252). -/
def Pkg.auditDir (p : Pkg) (n : Nat) : Pkg :=
  let pg := pgDS n
  let sum := p.rf pg 0x200 19 0 + p.rf pg 0x200 39 20 + p.rf pg 0x200 59 40
  if sum = 524288 then p
  else
    let r := p.dirRecount n
    let ok := decide (r.1 + r.2 ≤ 524288)
    let p := p.setEvent pg 20 (if ok then 1 else 5) { Det.none with detail := p.reg pg 0x200 }
    let p := p.auditFail 0x22 pg ((sum : Int) - 524288) (!ok)
    if ok then p.setReg pg 0x200 (word [(40, 524288 - r.1 - r.2), (20, r.2), (0, r.1)]) else p

/-- The units whose UNITROLE reads in service, on dies that are not fenced (R13, R290). -/
def Pkg.unitsInService (p : Pkg) : Nat :=
  ((List.range 240).filter (fun u =>
    !p.dieFenced (u / 20) && p.rf (pgCLU (u / 20) (u % 20 / 5)) 0x200 (u % 5 * 4 + 3) (u % 5 * 4) == 1)).length

/-- The core map: MAPPED entries against the units they bind, and the three states against 216 (R13, R413). -/
def Pkg.auditMap (p : Pkg) : Pkg :=
  if !p.stw.mapBuilt then p
  else
    let all := List.range 216
    let mapped := all.filter p.mapped
    let units := p.unitsInService
    let built := (all.filter (fun lc => p.cmapSt lc != 0)).length
    if mapped.length = units ∧ built = 216 then p
    else p.auditFail 0x25 pgCMAP ((mapped.length : Int) - units + ((built : Int) - 216)) true

/-- Partition cores (R413). -/
def Pkg.auditParts (p : Pkg) : Pkg :=
  let own := (List.range 216).filter (fun lc => decide (p.lcpid lc < 128))
  let held := own.filter (fun lc => p.cmapSt lc == 1 || p.cmapSt lc == 3)
  if own.length = held.length then p else p.auditFail 0x26 pgSTW ((own.length : Int) - held.length) true

/-- The audits of the steward at a tick (R413). -/
def Pkg.auditTick (p : Pkg) (md : Mode) (f : Nat) : Pkg :=
  if !p.quotaOn md f [.run, .degraded, .quiesce, .drizzle] then p
  else ((List.range 16).foldl (fun p n => p.auditDir n) p.auditTokens).auditMap.auditParts

/-! ### Collection of errors (R527 to R532) -/

/-- The records of one event of a page (R527, R530): the quads after MCSEQ. A DCS event has one record for each PID. -/
def mcQuads (pg frame : Nat) (e : Ev) : List (List Word) :=
  let one := fun (pid : Option Nat) =>
    [word ([(56, e.cls), (48, if e.bit = 255 then 0xFF else e.bit), (44, pg / 4096), (32, pg % 4096)] ++
       (match pid with | some q => [(31, 1), (24, q)] | none => []) ++
       (match e.lc with | some l => [(16, l), (15, 1)] | none => [])),
     word [(48, min 0xFFFF e.count), (0, frame)], BitVec.ofNat 64 e.addr, e.detail, BitVec.ofNat 64 e.agent, 0, 0]
  if e.cls = 4 then (match e.pids with | [] => [one none] | l => l.map (fun q => one (some q)))
  else [one e.pids.getLast?]

/-- Events of a page in ascending order of their bit, those of one bit in their order. -/
def sortEvs (l : List Ev) : List Ev := (List.range 256).flatMap (fun b => l.filter (fun e => e.bit == b))

/-- The delivery core (R531). -/
def Pkg.deliveryCore (p : Pkg) : Option Nat :=
  let ok := fun lc => p.mapped lc && p.lcpid lc == 0 && (p.core lc).run != .stopped
  let c := p.cf pgSTW 0x420 23 16
  if c < 216 ∧ ok c then some c else (List.range 216).find? ok

/-- Set an identifier pending on the delivery core. -/
def Pkg.deliverMc (p : Pkg) (intid : Nat) : Pkg :=
  match p.deliveryCore with
  | some lc => p.setPending lc intid
  | none => p

/-- Copy a record into the ring by one full-line IoWr of PID 0 (R529): the steward's writes are carried out in order, and what
cannot be served yet waits (log entry 144). -/
def Pkg.ringWrite (p : Pkg) (rec : List Word) : Pkg :=
  p.inTake { agent := 0x1E, pid := 0, parts := [], op := .write (rec.flatMap (fun q => leBytes 8 q.toNat)) (2 ^ 64 - 1) false,
             src := .mclog, age := 0 }

/-- One record: numbered, kept in the steward's SRAM, copied into the ring when it is enabled (R529). -/
def Pkg.mcRecord (p : Pkg) (quads : List Word) : Pkg :=
  let n := p.stw.mcSeq + 1
  let rec_ := BitVec.ofNat 64 n :: quads
  let stw := { p.stw with mcSeq := n, mcs := (rec_ :: p.stw.mcs).take 256 }
  let p : Pkg := { p with stw := stw }
  if p.cf pgSTW 0x420 63 63 = 1 then p.ringWrite rec_ else p

/-- The events of a page are collected: the classes that made records, and the package after it. -/
def Pkg.collectPage (p : Pkg) (pg frame : Nat) : List Nat × Pkg :=
  let evs := (sortEvs (p.page pg).evs).filter (fun e => decide (e.cls ≠ 1) || p.cf pgSTW 0x420 62 62 == 1)
  let classes := (p.page pg).evs.map (fun e => e.cls)
  let p := p.setPage pg { p.page pg with evs := [] }
  let p := (evs.flatMap (mcQuads pg frame)).foldl (fun p q => p.mcRecord q) p
  (classes.filter (fun c => evs.any (fun e => e.cls == c)), p)

/-- The steward collects the events of the frame just ended (R527): records, the ring, the snapshot trigger, the interrupts.
A tick that collects a package checkstop sets neither interrupt (R531). -/
def Pkg.collectTick (p : Pkg) (frame : Nat) : Pkg :=
  let due := (p.pages.filter (fun (e : Nat × Page) => e.2.evs != [])).map (fun e => e.1)
  let r : List Nat × Pkg := due.foldl (fun (a : List Nat × Pkg) pg =>
    let x := a.2.collectPage pg frame
    (a.1 ++ x.1, x.2)) ([], p)
  let classes := r.1
  let p := r.2
  let p := if classes.any (fun c => decide (1 ≤ c) && bit (p.cfg pgSTW 0x420) (55 + c)) then p.snapTrigger 4 else p
  let attn := p.stw.attnNew
  let stw := { p.stw with attnNew := false }
  let p : Pkg := { p with stw := stw }
  if classes.contains 5 then p
  else
    let p := if classes ≠ [] ∧ p.cf pgSTW 0x420 63 63 = 1 then p.deliverMc (p.cf pgSTW 0x420 47 40) else p
    if attn then p.deliverMc (p.cf pgSTW 0x420 39 32) else p

end Sys2Proof.Machine
end

