-- ==== Sys2Proof/Machine/BlockReset.lean ====
section
/-! DEFINITION. Block reset by RSTREQ and by the end of a hub MBIST (R4, R31, R45, R537, R539). -/

namespace Sys2Proof.Machine

/-- What a block reset keeps of a page's registers (R4): the results of the last test (R537), the fields that a rule says only
something larger clears (R289, R292, R293, R331, R493), and a few that show what is not the block's own (log entry 40). -/
def keepMask (b : Blk) (off : Nat) (old : Word) : Word :=
  let all : Word := BitVec.allOnes 64
  if b.hasMisr && (off == 0x3E8 || off == 0x3F0) then all
  else match b with
    | .dsvc => if off = 0x200 then maskBits 63 32 else 0
    | .clk => if off = 0x200 then maskBits 29 24 else 0
    | .wdog => if off = 0x200 then maskBits 32 32 ||| maskBits 19 0 else 0
    | .clu => if off = 0x200 then all else 0
    | .hclk => if off = 0x208 then all else 0
    | .mc => if off = 0x200 ∧ 2 ≤ fld old 3 0 then all else 0
    | .dmac => if off = 0x200 ∨ off = 0x208 then all else 0
    | .se => if off = 0x200 then all else if off = 0x210 then maskBits 8 8 else 0
    | _ => 0

/-- The registers of a page after a block reset. -/
def keptRegs (pg : Nat) (b : Blk) (t : Tbl Word) : Tbl Word :=
  t.foldl (fun (r : Tbl Word) (e : Nat × Word) =>
    let m := keepMask b e.1 e.2
    tblSet (regReset pg) r e.1 ((e.2 &&& m) ||| (regReset pg e.1 &&& ~~~m))) []

/-- A cipher engine after a block reset: every slot is as after reset (R386), and HCE1 holds no namespace key (R375). -/
def Pkg.cipherDrop (p : Pkg) (e : Nat) : Pkg :=
  let ce := { p.ce with slots := tblDrop (fun k => decide (k / 16 = e)) p.ce.slots, engs := tblErase p.ce.engs e }
  let ce := if e = 13 then { ce with nsKeys := [] } else ce
  { p with ce := ce }

/-- A part of bring-up trains no more until its page starts it again. -/
def Pkg.forgetPart (p : Pkg) (t : Nat) : Pkg :=
  let bt := { p.boot with training := p.boot.training.filter (fun u => u != t), waits := tblErase p.boot.waits t }
  { p with boot := bt }

/-- The link of a die stands still at both ends: the reset of one end ends it. -/
def Pkg.linkDrop (p : Pkg) (d : Nat) : Pkg :=
  let x := p.link d
  let p := if p.linkRuns d then (p.setRf (pgMP d) 0x200 3 0 0).setRf (pgMOCOR d) 0x200 3 0 0 else p
  p.setLink d { DieLink.reset with ready := x.ready, admitted := x.admitted, railOff := x.railOff }

/-- The state of a block that stands outside its page. -/
def Pkg.blockInner (p : Pkg) (pg : Nat) (b : Blk) (i : Nat) : Pkg :=
  match b with
  | .l1d | .l2 | .l3 =>
    match cacheOfPage pg with
    | some c =>
      let lines := (p.cache c).sets.flatMap (fun e => (e.2.ways.filter (fun w => w.2.valid)).map (·.2.line))
      let p := lines.foldl (fun (p : Pkg) (l : Nat) => p.leaveArray c l) p
      let x := p.cache c
      (p.setCache c { x with ces := [], sweep := [], draining := false, invQueued := false, invRunning := false }).refreshLockstat c
    | none => p
  | .mc => p.setCtl i { MemCtl.reset with remap := (p.ctl i).remap, copying := (p.ctl i).copying }
  | .mcr => p.setCtl i { p.ctl i with remap := [], copying := none }
  | .ds =>
    let coh := { p.coh with
      dirs := tblDrop (fun k => decide (k / 32768 = i)) p.coh.dirs
      txns := p.coh.txns.filter (fun t => mcOf t.req.line != i)
      confq := p.coh.confq.filter (fun r => mcOf r.line != i)
      purge := tblDrop (fun k => decide (k / 16 = i)) p.coh.purge
      audit := tblErase p.coh.audit i }
    { p with coh := coh }
  | .hphy =>
    [2 * i, 2 * i + 1].foldl (fun p n => if p.rf (pgMC n) 0x200 3 0 = 1 then p.setRf (pgMC n) 0x200 3 0 0 else p)
      (p.forgetPart (14 + i))
  | .mp => (p.linkDrop i).forgetPart (2 + i)
  | .mocor => p.linkDrop (pg / 4096)
  | .ch => (p.setChPort (i == 1) ChPort.reset).forgetPart i
  | .gp => (p.setGuest i Guest.reset).forgetPart (22 + i)
  | .clu =>
    (List.range 5).foldl (fun (p : Pkg) (k : Nat) =>
      let u := pg / 4096 * 20 + 5 * i + k
      if (p.unit u).ces = [] then p else p.setUnit u { p.unit u with ces := [] }) p
  | .frame =>
    let fr := { p.fr with slips := 0, pherr := 0, state := 0, ofs := 0, outside := 0 }
    { p with fr := fr }
  | .le => p.ledgerClear
  | .ce => p.cipherDrop (pg / 4096)
  | .hce => p.cipherDrop (12 + i)
  | .dmac => p.dmaDrop i
  | .pe => p.setPe i { p.pe i with iotlb := [], inv := none }
  | .steward =>
    let stw := { p.stw with attnq := [], attnOvf := false, latches := [], chainPend := [] }
    { p with stw := stw }
  | _ => p

/-- The agents whose block a page is (R221, R266). -/
def blockAgents (pg : Nat) (b : Blk) (i : Nat) : List Nat :=
  match b with
  | .l3 => [pg / 4096]
  | .ce => [0x20 + pg / 4096]
  | .le => [0x10]
  | .hce => [0x11 + i]
  | .dma => [0x13]
  | .pe => [0x14 + i]
  | .gp => [0x1A + i]
  | .ch => [0x1C + i]
  | .steward => [0x1E]
  | .ds => [0x30 + i]
  | _ => []

/-- A block reset frees the quarantined TXIDs of its agents (R267); QUAR of a network page keeps counting those that stand
(R275). -/
def Pkg.resetQuarantine (p : Pkg) (pg : Nat) (b : Blk) (i : Nat) : Pkg :=
  match b with
  | .ring | .grid => p.refreshQuar pg
  | _ => (blockAgents pg b i).foldl (fun (p : Pkg) (a : Nat) => p.freeQuarantine a) p

/-- A block reset: the page returns to its reset state and keeps its copies; a block with configuration copies is in
LOAD_HOLD with no active copy, any other is ACTIVE (R45). A ledger stack, whose page adopts nothing, trains again at once (log
entry 40). Events already collected in the frame stand. -/
def Pkg.blockReset (p : Pkg) (pg : Nat) : Pkg :=
  match blkOf pg with
  | none => p
  | some (b, i) =>
    let p := p.blockInner pg b i
    let x := p.page pg
    let p := p.setPage pg { x with regs := keptRegs pg b x.regs, live := none, window := [], raised := false, work := 0 }
    let p := p.resetQuarantine pg b i
    match cacheOfPage pg, b with
    | some c, _ => p.refreshLockstat c
    | none, .gp => if p.site i then p else p.setRf pg 0x200 3 0 7
    | none, .lsc => p.trainStart (24 + i)
    | none, _ => p

/-- The package is in a mode in which the block may be reset: an LE block reset is allowed only in LOAD, TEST and QUIESCE
(R364). -/
def rstMode (b : Blk) (m : Mode) : Bool :=
  match b with
  | .le => match m with | .load | .test | .quiesce => true | _ => false
  | _ => true

/-- RSTREQ of a page (R31, R38, R45); its completion is the first command event after the reset. -/
def Pkg.cmdRstreq (p : Pkg) (md : ModeState) (pg : Nat) : Pkg :=
  match blkOf pg with
  | none => p
  | some (b, _) =>
    if p.busy pg ∨ (b == .steward && p.stwBusy md) = true ∨ rstMode b md.mode = false then p.cmdWrong pg 0x018
    else (p.blockReset pg).cmdOk pg 0x018

/-- RSTREQ. -/
def execRstreq (who : Requester) (pg : PageId) (s : State) : Host.Outcome State Fault Refusal :=
  s.upd (fun p => p.cmd who (pgOf pg) 0x018 (fun p => p.cmdRstreq s.mode (pgOf pg)))

end Sys2Proof.Machine
end

