-- ==== Sys2Proof/Machine/SelfTest.lean ====
section
/-! DEFINITION. Built-in self-test: die LBIST and MBIST, hub MBIST (R536 to R539). -/

namespace Sys2Proof.Machine

/-- Clear the signature and result of a page (R537). -/
def Pkg.clearSig (p : Pkg) (pg : Nat) : Pkg := (p.setReg pg 0x3E8 0).setReg pg 0x3F0 0

/-- The pages of a die. -/
def diePages (d : Nat) : List Nat := dieBlocks.flatMap (fun e => (List.range e.2.1).map (fun i => pgDie d (e.1 + i)))

/-- GO of BISTCMD with a TEST code (R538): DENIED from M, then the cases of R536. -/
def Pkg.cmdBist (p : Pkg) (md : ModeState) (who : Requester) (d test : Nat) : Pkg :=
  let pg := pgBIST d
  if (match who with | .host | .steward => false | _ => true) then p.cmdDenied pg 0xC00
  else
    let step4 : Bool := p.boot.readmits.contains (2 + d) && p.mpState d == 2
    if p.busy pg ∨ !(md.mode == .test || step4) then p.cmdWrong pg 0xC00
    else if test = 0 then p.cmdBadArg pg 0xC00
    else
      let p := (diePages d).foldl (fun (p : Pkg) (g : Nat) => if 2 ≤ test ∨ g = pg then p.clearSig g else p) p
      let p := p.setReg pg 0x200 (word [(0, if test = 2 then 2 else 1)])
      p.cmdPending pg 0xC00

/-- A write of GO and TEST to BISTCMD. -/
def Pkg.bistGo (p : Pkg) (md : ModeState) (who : Requester) (d test : Nat) : Pkg :=
  p.cmd who (pgBIST d) 0xC00 (fun p => (p.setReg (pgBIST d) 0xC00 (word [(0, test)])).cmdBist md who d test)

/-- LBIST (R538). -/
def execLbist (who : Requester) (d : Die) (s : State) : Host.Outcome State Fault Refusal :=
  s.upd (fun p => p.bistGo s.mode who d.val 1)

/-- MBIST (R538). -/
def execMbist (who : Requester) (d : Die) (s : State) : Host.Outcome State Fault Refusal :=
  s.upd (fun p => p.bistGo s.mode who d.val 2)

/-- LBIST_THEN_MBIST (R538). -/
def execLbistThenMbist (who : Requester) (d : Die) (s : State) : Host.Outcome State Fault Refusal :=
  s.upd (fun p => p.bistGo s.mode who d.val 3)

/-- ELAPSED counts the frames of a running test (R538). -/
def Pkg.bistTick (p : Pkg) : Pkg :=
  (below 12 p.dieTesting).foldl (fun (p : Pkg) (d : Nat) => p.addRf (pgBIST d) 0x200 63 48 1) p

/-- BISTRES of a page at the end of MBIST (R537). -/
def bistRes (fail : Option Word) : Word :=
  match fail with
  | some w => (w &&& maskBits 47 0) ||| maskBits 63 62
  | none => maskBits 63 63

/-- A page gets the signature of its test, a free value (log entry 1), and its result. -/
def Pkg.putSig (p : Pkg) (pg : Nat) (res : Word) : Pkg :=
  let r := p.free 64
  (r.2.setReg pg 0x3E8 r.1).setReg pg 0x3F0 res

/-- The end of a die test: the die resets except for the signatures, the results and CDn.BIST (R537, R538). Its link and its
clocks are no part of the test (R536). -/
def Pkg.bistReset (p : Pkg) (d : Nat) : Pkg :=
  let link := pgMOCOR d
  let bist := pgBIST d
  let keep := (diePages d).map (fun g => (g, p.reg g 0x3E8, p.reg g 0x3F0))
  let q := ((p.dieReset d).setPage link (p.page link)).setPage bist { Page.reset with regs := (p.page bist).regs.filter (fun e =>
    e.1 == 0x200 || e.1 == 0x020 || e.1 == 0xC00) }
  (keep.foldl (fun (q : Pkg) (e : Nat × Word × Word) => (q.setReg e.1 0x3E8 e.2.1).setReg e.1 0x3F0 e.2.2) q).dieClocks d

/-- BIST_COMPLETE (R538). `aborted`: the die was fenced or lost its rail; otherwise `fails` names the pages with a failing
word, each with bits 47:0 of BISTRES. -/
def execBistComplete (d : Die) (aborted : Bool) (fails : List (Fin 4096 × Word)) (s : State) :
    Host.Outcome State Fault Refusal :=
  s.upd (fun p =>
    let d := d.val
    let pg := pgBIST d
    if !p.dieTesting d then p
    else if aborted then
      if p.powered pg && !p.dieFenced d then p else (p.setRf pg 0x200 3 0 4).cmdDone pg 0xC00 7
    else if !p.powered pg || p.dieFenced d then p
    else
      let test := p.rf pg 0xC00 1 0
      let pages := if 2 ≤ test then diePages d else [pg]
      let bad := fun (g : Nat) => (fails.find? (fun e => e.1.val == g % 4096)).map (·.2)
      let p := pages.foldl (fun (p : Pkg) (g : Nat) => p.putSig g (bistRes (if 2 ≤ test then bad g else none))) p
      let n := if 2 ≤ test then (pages.filter (fun g => (bad g).isSome)).length else 0
      let p := (p.setRf pg 0x200 47 40 n).setRf pg 0x200 3 0 3
      (p.bistReset d).cmdDone pg 0xC00 1)

/-- BLKCTL[MBIST] is implemented: a hub page that holds a signature (R539). -/
def hasMbist (pg : Nat) : Bool :=
  decide (49152 ≤ pg) && match blkOf pg with | some (b, _) => b.hasMisr | none => false

/-- MBIST of a hub page (R536, R539). -/
def Pkg.cmdMbist (p : Pkg) (md : Mode) (pg : Nat) : Pkg :=
  if !hasMbist pg then p
  else if p.busy pg ∨ md ≠ .test ∨ p.loadHold pg then p.cmdWrong pg 0x018
  else (p.clearSig pg).cmdPending pg 0x018

/-- HUB_MBIST: a write of 1 to BLKCTL[MBIST]. -/
def execHubMbist (who : Requester) (pg : PageId) (s : State) : Host.Outcome State Fault Refusal :=
  s.upd (fun p => p.cmd who (pgOf pg) 0x018 (fun p => p.cmdMbist s.mode.mode (pgOf pg)))

/-- HUB_MBIST_COMPLETE: the page resets, keeping its results, and OK is reported (R539). -/
def execHubMbistComplete (pg : PageId) (failed : Option Word) (s : State) : Host.Outcome State Fault Refusal :=
  s.upd (fun p =>
    let g := pgOf pg
    if hasMbist g && p.busy g && p.rf g 0x020 27 16 == 0x018 && s.mode.mode == .test then
      ((p.blockReset g).putSig g (bistRes failed)).cmdDone g 0x018 1
    else p)

end Sys2Proof.Machine
end

