-- ==== Sys2Proof/Machine/PageRead.lean ====
section
/-! DEFINITION. What the registers of a page read as (R22, R26, R27, R29 to R48): values held elsewhere in the state are
computed here. -/

namespace Sys2Proof.Machine

/-! ### Header (R29 to R31, R565) -/

/-- BLKID (R29); INST of CHU and CHD is log entry 109. -/
def blkidWord (pg : Nat) (b : Blk) (i : Nat) : Word := word [(16, b.code), (8, i), (0, pg / 4096)]

/-- BLKCAP: bits 3:0 (R565); the block-specific bits are free (R30). -/
def blkcapWord (b : Blk) : Word :=
  (Config.blkcapHigh b.code).zeroExtend 64 <<< 32 ||| word [(3, b.hasMisr.toNat), (2, b.hasImm.toNat), (1, b.hasCfg.toNat), (0, 1)]

/-- BLKSTAT: HD.STEWARD is busy while a transition is in progress (R59). -/
def Pkg.blkstatWord (p : Pkg) (md : ModeState) (pg : Nat) (b : Blk) : Word :=
  if b == .steward then setFld (p.reg pg 0x020) 4 4 (p.stwBusy md).toNat else p.reg pg 0x020

/-! ### Live registers whose home is elsewhere -/

/-- Sixteen-bit entries, four to a register (R14, R15). -/
def pack16 (f : Nat → Nat) (k : Nat) : Word := word ((List.range 4).map (fun i => (16 * i, f (4 * k + i))))

/-- Live registers of HD.STEWARD (R58, R61 to R63, R400, R535). -/
def Pkg.stwLive (p : Pkg) (md : ModeState) (off : Nat) : Word :=
  if off = 0x210 then md.word
  else if off = 0x218 then BitVec.ofNat 64 (p.lostset md.mode)
  else if off = 0x220 then word ((List.range 12).map (fun d => (4 * d, p.dieState d)))
  else if off = 0x228 then p.loadprog
  else if 0x240 ≤ off ∧ off < 0x318 then word ((List.range 8).map (fun j => (8 * j, p.lcpid ((off - 0x240) + j))))
  else if 0x318 ≤ off ∧ off < 0x338 then
    word ((List.range 32).map (fun i => (2 * i, match (p.part ((off - 0x318) * 4 + i)).st with
      | .free => 0 | .defined => 1 | .checkstopped => 2)))
  else if off = 0x348 then
    let o := (62, p.stw.attnOvf.toNat)
    match p.stw.attnq with
    | [] => word [o]
    | g :: _ => word [(63, 1), o, (0, g)]
  else p.reg pgSTW off

/-- Live registers of HD.FRAME (R65); `pos` is TICKPOS at the access. -/
def Pkg.frameLive (p : Pkg) (pos off : Nat) : Word :=
  if off = 0x200 then BitVec.ofNat 64 p.frameNum
  else if off = 0x208 then BitVec.ofNat 64 pos
  else if off = 0x210 then
    word [(32, p.fr.slips), (16, p.fr.pherr), (2, (p.fr.ofs != 0).toNat), (0, if p.head then 3 else p.fr.state)]
  else if off = 0x218 then BitVec.ofNat 64 p.fr.ofs.toNat
  else p.reg pgFRAME off

/-- Live registers of HD.CMAP: core-map and spare entries (R14, R15). -/
def Pkg.cmapLive (p : Pkg) (off : Nat) : Word :=
  if 0x200 ≤ off ∧ off < 0x3B0 then pack16 p.cmapEnt ((off - 0x200) / 8)
  else if 0x3C0 ≤ off ∧ off < 0x3F0 then pack16 p.spareEnt ((off - 0x3C0) / 8)
  else 0

/-- Counters of the logical core on a unit (R518); a unit without one reads 0. -/
def Pkg.unitCounters (p : Pkg) (d i off : Nat) : Word :=
  match p.lcOfUnit d i with
  | none => 0
  | some lc =>
    let c := p.core lc
    if off = 0x300 then c.crGet 0x4A
    else if 0x308 ≤ off ∧ off ≤ 0x340 then c.crGet (0x42 + (off - 0x308) / 8)
    else if off = 0x348 then c.crGet 0x4C
    else word [(16, fld (c.crGet 0x18) 22 16), (0, lc)]

/-- UCECNT of a unit: WINDOW counts the last 1,024 frames (R290). -/
def Pkg.ucecnt (p : Pkg) (pg off d i : Nat) : Word :=
  let n := ((p.unit (d * 20 + i)).ces.filter (ceWindow p.fr.ticks)).length
  setFld (p.reg pg off) 15 0 (min n 0xFFFF)

/-- Live registers of CDn.DPM (R435). -/
def Pkg.dpmLive (p : Pkg) (md : Mode) (d off : Nat) : Word :=
  let pg := pgDPM d
  if off = 0x200 then setFld (p.reg pg off) 3 0 (p.dieState d)
  else if 0x208 ≤ off ∧ off ≤ 0x220 then setFld (p.reg pg off) 1 0 (p.cl3 md d ((off - 0x208) / 8)).toNat
  else if off = 0x280 then p.unitst md d
  else p.reg pg off

/-- Live registers of LE (R366). -/
def Pkg.leLive (p : Pkg) (md : Mode) (off : Nat) : Word :=
  if off = 0x200 then word [(32, p.freeSectors), (8, (p.holdup md).toNat), (0, p.lePhase)]
  else if off = 0x208 then
    let n := fun (s : Nat) => (p.ledger.qps.filter (fun e => e.2.st == s)).length
    word [(32, (p.ledger.ns.filter (fun e => e.2.isSome)).length), (16, n 3), (0, n 1)]
  else if off = 0x210 then BitVec.ofNat 64 p.lcmds.length
  else p.reg pgLE off

/-- Live registers of an engine's page (R389). -/
def Pkg.ceLive (p : Pkg) (e pg off : Nat) : Word :=
  if 0x200 ≤ off ∧ off < 0x280 then p.slotStat e ((off - 0x200) / 8)
  else if 0x280 ≤ off ∧ off < 0x300 then BitVec.ofNat 64 (p.cslot e ((off - 0x280) / 8)).use
  else p.reg pg off

/-- GENk: four generations to a register (R390). -/
def Pkg.keyvLive (p : Pkg) (off : Nat) : Word :=
  if 0x210 ≤ off ∧ off < 0x310 then pack16 (fun k => (p.part k).gen) ((off - 0x210) / 8) else p.reg pgKEYV off

/-- A live register, 0x200 to 0x3FF. -/
def Pkg.liveValue (p : Pkg) (md : ModeState) (pg : Nat) (b : Blk) (i pos off : Nat) : Word :=
  let d := pg / 4096
  match b with
  | .steward => p.stwLive md off
  | .frame => p.frameLive pos off
  | .cmap => p.cmapLive off
  | .evlog =>
    if off = 0x200 then BitVec.ofNat 64 p.stw.evSeq else if off = 0x208 then BitVec.ofNat 64 p.stw.mcSeq else p.reg pg off
  | .l1d => if 0x300 ≤ off ∧ off ≤ 0x350 then p.unitCounters d i off else p.reg pg off
  | .clu => if 0x208 ≤ off ∧ off ≤ 0x228 then p.ucecnt pg off d (5 * i + (off - 0x208) / 8) else p.reg pg off
  | .dpm => p.dpmLive md.mode d off
  | .hpwr => if off = 0x370 then p.thermstat else p.reg pg off
  | .le => p.leLive md.mode off
  | .ce => p.ceLive d pg off
  | .hce => p.ceLive (12 + i) pg off
  | .keyv => p.keyvLive off
  | .dma => if off = 0x200 then p.dmaBusyWord else p.reg pg off
  | .se => if off = 0x200 then setFld (p.reg pg off) 1 0 (if p.seD3 then 3 else 0) else p.reg pg off
  | _ => p.reg pg off

/-! ### Immediate registers -/

/-- TAIL of a slot as it reads: the last accepted value. -/
def Pkg.tailWord (p : Pkg) (e k : Nat) : Word := BitVec.ofNat 64 (p.cslot e k).tail

/-- An immediate register, 0xC00 to 0xFFF. Key registers read 0 (R376). -/
def Pkg.immValue (p : Pkg) (pg : Nat) (b : Blk) (i off : Nat) : Word :=
  match b with
  | .ledb =>
    let q := p.qp (64 * i + (off - 0xC00) / 16)
    BitVec.ofNat 64 (if off % 16 = 0 then q.sqt else q.cqh)
  | .cectx => if off < 0xC80 then p.tailWord (pg / 4096) ((off - 0xC00) / 8) else 0
  | .ce => if off < 0xC40 then 0 else p.reg pg off
  | .hce =>
    if off < 0xC40 then 0
    else if 0xC80 ≤ off ∧ off < 0xD00 then p.tailWord (12 + i) ((off - 0xC80) / 8)
    else p.reg pg off
  | .gw => if off = 0xC00 then BitVec.ofNat 64 p.frameNum else if 0xC40 ≤ off ∧ off < 0xC80 then p.reg pg off else 0
  | _ => p.reg pg off

/-! ### The whole page -/

/-- What the register at an offset reads as; `pos` is TICKPOS at the access (log entry 8). -/
def Pkg.pageValue (p : Pkg) (md : ModeState) (pos pg off : Nat) : Word :=
  match blkOf pg with
  | none => 0
  | some (b, i) =>
    if off < 0x080 then
      match off with
      | 0x000 => blkidWord pg b i
      | 0x008 => blkver b
      | 0x010 => blkcapWord b
      | 0x020 => p.blkstatWord md pg b
      | _ => p.reg pg off
    else if off < 0x200 then
      if bit (p.reg pg 0x048) 2 then tblGet (fun _ => 0) (p.page pg).window ((off - 0x080) / 8) else 0
    else if off < 0x400 then p.liveValue md pg b i pos off
    else if off < 0x800 then if b.hasCfg then tblGet (fun _ => 0) (p.page pg).copyA ((off - 0x400) / 8) else 0
    else if off < 0xC00 then if b.hasCfg then tblGet (fun _ => 0) (p.page pg).copyB ((off - 0x800) / 8) else 0
    else if b.hasImm then p.immValue pg b i off
    else 0

/-! ### Reach of a register (R25, R47) -/

/-- The immediate registers open to U and S (R25, R343, R377). -/
def tenantReg (b : Blk) (off : Nat) : Bool :=
  match b with
  | .ledb => decide (0xC00 ≤ off ∧ off < 0x1000)
  | .cectx => decide (0xC00 ≤ off ∧ off < 0xC80)
  | .hce => decide (0xC80 ≤ off ∧ off < 0xD00)
  | _ => false

/-- The PID whose cores may use a doorbell (R343, R377). -/
def Pkg.bellPid (p : Pkg) (pg : Nat) (b : Blk) (i off : Nat) : Nat :=
  match b with
  | .ledb => (p.qp (64 * i + (off - 0xC00) / 16)).pid
  | .cectx => p.slotPid (pg / 4096) ((off - 0xC00) / 8)
  | _ => p.slotPid (12 + i) ((off - 0xC80) / 8)

/-- A requester at U or S. -/
def Pkg.isTenant (p : Pkg) (who : Requester) : Bool :=
  match who with | .core lc => fld (p.core lc.val).psw 17 16 != 2 | _ => false

/-- The requester may access the register: tenants the doorbells of their blocks, the guest no snapshot window. -/
def Pkg.mayAccess (p : Pkg) (who : Requester) (pg off : Nat) : Bool :=
  p.reaches who pg && decide (off < 4096) && decide (off % 8 = 0) &&
  match blkOf pg with
  | none => false
  | some (b, _) =>
    if p.isTenant who then tenantReg b off
    else match who with | .guest _ => decide (off < 0x080 ∨ 0x200 ≤ off) | _ => true

/-- The requester may read the register: a doorbell of another partition is refused. -/
def Pkg.mayRead (p : Pkg) (who : Requester) (pg off : Nat) : Bool :=
  p.mayAccess who pg off &&
  (!p.isTenant who || match blkOf pg with | some (b, i) => p.bellOk who (p.bellPid pg b i off) | none => false)

/-! ### Reads (R27, R36, R254, R528) -/

/-- What a read of a width does to RC fields and to the attention queue. -/
def Pkg.readEffect (p : Pkg) (pg off : Nat) (w : ReadWidth) : Pkg :=
  if off = 0x038 ∧ w ≠ .high then p.setReg pg 0x038 0
  else
    match blkOf pg with
    | some (.ds, _) => if off = 0x210 ∧ w ≠ .high then p.setRf pg 0x210 15 8 0 else p
    | some (.steward, _) =>
      if off ≠ 0x348 ∨ w = .low then p
      else
        let stw := { p.stw with attnOvf := false, attnq := if w = .quad then p.stw.attnq.drop 1 else p.stw.attnq }
        { p with stw := stw }
    | _ => p

/-- A read of the register at `off`: its bytes for the width, none for an error response. -/
def Pkg.pageRead (p : Pkg) (md : ModeState) (who : Requester) (pg off : Nat) (w : ReadWidth) : Option (List Byte) × Pkg :=
  if !p.mayRead who pg off then (none, p)
  else
    let r := if pg = pgFRAME ∧ off = 0x208 then p.free 10 else (0, p)
    (some (readHalf (r.2.pageValue md (r.1.toNat % 801) pg off) w), r.2.readEffect pg off w)

end Sys2Proof.Machine
end

