-- ==== Sys2Proof/Machine/PageWrite.lean ====
section
/-! DEFINITION. Writes of registers (R27, R31, R34, R38, R39, R40): the header, the copies, and the immediate registers of
every block with their commands. -/

namespace Sys2Proof.Machine

/-! ### Error bits (R34) -/

/-- The bits of ERRSTAT, ERRMASK and INTEN that the page implements: those of R34 and those its chapter names. -/
def errBits (b : Blk) : Word :=
  let top := match b with
    | .l1d | .wdog | .hpwr | .dmac | .steward => 17
    | .l2 | .l3 | .dpm | .ch => 19
    | .ds | .ring | .grid | .se | .pe => 20
    | .mocor | .mp | .mc => 22
    | .gp | .ce | .hce => 21
    | .clk | .hclk | .gfw => 16
    | .lsc => 18
    | .le => 23
    | _ => 15
  maskBits 3 0 ||| (if top = 15 then 0 else maskBits top 16)

/-! ### Header writes -/

/-- The commands of a BLKCTL write that the page implements. -/
inductive BlkCmd where
  | rst
  | inv
  | mbist
  deriving DecidableEq, Repr

/-- CMD fields of BLKCTL written as 1 (R31, R539). -/
def blkCmds (pg : Nat) (v : Word) : List BlkCmd :=
  (if bit v 1 then [.rst] else []) ++ (if bit v 2 && (cacheOfPage pg).isSome then [.inv] else []) ++
    (if bit v 8 && hasMbist pg then [.mbist] else [])

/-- EN is written first (R39): a cache page judges it (R175, R177), an L3 page keeps 1 (R179). -/
def Pkg.writeBlkEn (p : Pkg) (pg : Nat) (b : Blk) (en : Bool) : Pkg :=
  match b with
  | .l1d | .l2 => match cacheOfPage pg with | some c => p.writeEn c en | none => p
  | .l3 => p
  | _ => p.setRf pg 0x018 0 0 en.toNat

/-- A write of BLKCTL (R31, R39): more than one command performs none. -/
def Pkg.writeBlkctl (p : Pkg) (md : ModeState) (pg : Nat) (b : Blk) (v : Word) : Pkg :=
  let p := p.writeBlkEn pg b (bit v 0)
  match blkCmds pg v with
  | [] => p
  | [.rst] => p.cmdRstreq md pg
  | [.inv] => p.invReq pg
  | [.mbist] => p.cmdMbist md.mode pg
  | _ => p.cmdBadArg pg 0x018

/-- A write in the common header; RO registers keep their value. -/
def Pkg.writeHeader (p : Pkg) (md : ModeState) (pg : Nat) (b : Blk) (off : Nat) (v : Word) : Pkg :=
  match off with
  | 0x018 => p.writeBlkctl md pg b v
  | 0x028 => (p.setReg pg 0x028 (p.reg pg 0x028 &&& ~~~v)).refreshIrq pg
  | 0x030 => p.setReg pg 0x030 (v &&& errBits b)
  | 0x040 => (p.setReg pg 0x040 (v &&& errBits b)).refreshIrq pg
  | 0x048 => if bit v 1 then p.cmdArm pg else p
  | _ => p

/-- A write into copy A or B is stored whole (R3, R43). -/
def Pkg.writeCopy (p : Pkg) (pg off : Nat) (v : Word) : Pkg :=
  let x := p.page pg
  if off < 0x800 then p.setPage pg { x with copyA := tblSet (fun _ => 0) x.copyA ((off - 0x400) / 8) v }
  else p.setPage pg { x with copyB := tblSet (fun _ => 0) x.copyB ((off - 0x800) / 8) v }

/-! ### Immediate registers by block -/

/-- Store fields, then run a command when its bit is 1 (R39). -/
def Pkg.fieldsThen (p : Pkg) (pg off : Nat) (v mask : Word) (go : Bool) (f : Pkg → Pkg) : Pkg :=
  let p := p.setReg pg off (v &&& mask)
  if go then f p else p

/-- PCMD (R397): OP selects the command. -/
def Pkg.writePcmd (p : Pkg) (md : Mode) (who : Requester) (v : Word) : Pkg :=
  let lc := fld v 23 16
  let pid := fld v 14 8
  let op := fld v 3 0
  let kept := v &&& (maskBits 23 16 ||| maskBits 14 8 ||| maskBits 3 0)
  let p := p.setReg pgSTW 0xC40 kept
  if !bit v 31 then p
  else if op = 0 ∨ 6 < op ∨ ((op = 2 ∨ op = 3) ∧ 216 ≤ lc) then p.cmdBadArg pgSTW 0xC40
  else
    let p := match op with
      | 1 => p.cmdDefine md pid
      | 2 => p.cmdAssign md who pid lc
      | 3 => p.cmdUnassign md who lc
      | 4 => p.cmdRestart md pid
      | 5 => p.cmdRelease md who pid
      | _ => p.cmdPcmdRekey md who pid
    p.setReg pgSTW 0xC40 kept

/-- Immediate registers of HD.STEWARD. -/
def Pkg.writeStwImm (p : Pkg) (md : ModeState) (who : Requester) (off : Nat) (v : Word) : Pkg :=
  match off with
  | 0xC00 => if bit v 0 then p.cmdSnaptrig else p
  | 0xC08 => if bit v 0 then p.cmdSnaparm else p
  | 0xC10 =>
    if who ≠ .host then (if bit v 4 then p.cmdMode md who (fld v 3 0) else p)
    else p.fieldsThen pgSTW off v (maskBits 3 0) (bit v 4) (fun p => p.cmdMode md who (fld v 3 0))
  | 0xC30 => p.fieldsThen pgSTW off v (maskBits 4 0) (bit v 31) (fun p => p.cmdExcl md who (fld v 4 0))
  | 0xC40 => p.writePcmd md.mode who v
  | 0xC48 => p.setReg pgSTW off (v &&& maskBits 51 12)
  | 0xC58 => p.writeMclhead v
  | _ => p

/-- Immediate registers of HD.EVLOG (R410, R535). -/
def Pkg.writeEvlogImm (p : Pkg) (off : Nat) (v : Word) : Pkg :=
  match off with
  | 0xC00 => p.fieldsThen pgEVLOG off v (maskBits 9 0) (bit v 31) (fun p => p.cmdEvrd (fld v 9 0))
  | 0xC40 => p.fieldsThen pgEVLOG off v (maskBits 7 0) (bit v 31) (fun p => p.cmdMcrd (fld v 7 0))
  | _ => p

/-- RMCMD and RMDATA of MCRn (R335). -/
def Pkg.writeMcrImm (p : Pkg) (md : Mode) (who : Requester) (n off : Nat) (v : Word) : Pkg :=
  let pg := pgMCR n
  match off with
  | 0xC00 =>
    let p := p.setRf pg off 7 0 (fld v 7 0)
    match bit v 31, bit v 30 with
    | true, true => p.cmdBadArg pg off
    | true, false => p.cmdSet md who n (fld v 7 0)
    | false, true => p.remapRead n (fld v 7 0)
    | false, false => p
  | 0xC08 => p.setReg pg off v
  | _ => p

/-- FENCECMD of MPn (R296). -/
def Pkg.writeFencecmd (p : Pkg) (md : ModeState) (who : Requester) (d : Nat) (v : Word) : Pkg :=
  match fld v 2 0 with
  | 0 => p
  | 1 => p.cmdFence who d
  | 2 => p.cmdReadmit md who d
  | 4 => p.cmdAdmit who d
  | _ => p.cmdBadArg (pgMP d) 0xC00

/-- FENCECMD of GPn (R309, R310). -/
def Pkg.writeGuestcmd (p : Pkg) (md : ModeState) (who : Requester) (g : Nat) (v : Word) : Pkg :=
  match fld v 1 0 with
  | 0 => p
  | 1 => p.cmdGuestFence who g
  | 2 => p.cmdGuestReadmit md g
  | _ => p.cmdBadArg (pgGP g) 0xC00

/-- Key registers and commands of a cipher engine (R376, R386, R389). -/
def Pkg.writeKeyImm (p : Pkg) (e pg off : Nat) (v : Word) : Pkg :=
  if off < 0xC40 then p.setReg pg off v
  else if off = 0xC40 then
    p.fieldsThen pg off v (maskBits 11 8 ||| maskBits 3 0) (bit v 31) (fun p => p.cmdKeyld e (fld v 3 0) (fld v 11 8))
  else if off = 0xC48 then p.fieldsThen pg off v (maskBits 3 0) (bit v 31) (fun p => p.cmdSlotrst e (fld v 3 0))
  else p

/-- Immediate registers of HD.KEYV (R390). -/
def Pkg.writeKeyvImm (p : Pkg) (md : Mode) (who : Requester) (off : Nat) (v : Word) : Pkg :=
  if 0xC00 ≤ off ∧ off ≤ 0xC18 then (if p.formed then p else p.setReg pgKEYV off v)
  else if off = 0xC20 then
    let p := p.setReg pgKEYV off (v &&& maskBits 14 8)
    match fld v 1 0 with
    | 0 => p
    | 1 => p.cmdForm md who
    | 2 => p.cmdRekey md who (fld v 14 8)
    | _ => p.cmdBadArg pgKEYV off
  else p

/-- Immediate registers of a hub DMA channel (R493, R496). -/
def Pkg.writeDmaImm (p : Pkg) (md : Mode) (who : Requester) (k off : Nat) (v : Word) : Pkg :=
  let pg := pgDMAC k
  match off with
  | 0xC00 => p.setReg pg off (v &&& maskBits 51 6)
  | 0xC08 => p.setReg pg off (v &&& maskBits 31 0)
  | 0xC10 => p.setReg pg off v
  | 0xC18 => if bit v 0 then p.cmdFill md k else p
  | 0xC20 => p.dmaBell who k (fld v 11 0)
  | _ => p

/-- Immediate registers of a root port (R482). -/
def Pkg.writePeImm (p : Pkg) (n off : Nat) (v : Word) : Pkg :=
  let pg := pgPE n
  match off with
  | 0xC00 =>
    p.fieldsThen pg off v (maskBits 24 24 ||| maskBits 17 16) (bit v 31) (fun p => p.cmdIoinv n (fld v 17 16) (bit v 24))
  | 0xC08 => p.setReg pg off (v &&& maskBits 47 12)
  | _ => p

/-- Immediate registers of SE (R448, R455, R459). -/
def Pkg.writeSeImm (p : Pkg) (off : Nat) (v : Word) : Pkg :=
  if off = 0xC00 then p.setReg pgSE off (v &&& maskBits 4 0)
  else if off = 0xC08 then p.setReg pgSE off (v &&& maskBits 51 30)
  else if 0xC40 ≤ off ∧ off < 0xC80 then p.writeMbreq off v
  else if off = 0xC80 then p.writeMbdb v
  else if off = 0xD00 then p.setReg pgSE off (v &&& maskBits 63 6)
  else if off = 0xD08 then p.writeEvrcfg v
  else if off = 0xD10 then p.writeEvrhead v
  else p

/-- A doorbell write: false for the error response that a refused one gets (R343, R377). -/
def Pkg.writeBell (p : Pkg) (who : Requester) (pg : Nat) (b : Blk) (i off : Nat) (v : Word) : Bool × Pkg :=
  let ok := p.bellOk who (p.bellPid pg b i off)
  match b with
  | .ledb => (ok, p.doorbell who (64 * i + (off - 0xC00) / 16) v.toNat (off % 16 == 0))
  | .cectx => (ok, p.tailBell who (pg / 4096) ((off - 0xC00) / 8) v.toNat)
  | _ => (ok && i == 0, p.tailBell who (12 + i) ((off - 0xC80) / 8) v.toNat)

/-- A write of an immediate register that is no doorbell. -/
def Pkg.writeImm (p : Pkg) (md : ModeState) (who : Requester) (pg : Nat) (b : Blk) (i off : Nat) (v : Word) : Pkg :=
  let d := pg / 4096
  match b with
  | .steward => p.writeStwImm md who off v
  | .evlog => p.writeEvlogImm off v
  | .ds =>
    if off = 0xC00 then
      p.fieldsThen pg off v (maskBits 18 4 ||| maskBits 3 0) (bit v 31) (fun p => p.cmdDirrd i (fld v 18 4) (fld v 3 0) .clean)
    else p
  | .mcr => p.writeMcrImm md.mode who i off v
  | .hphy => if off = 0xC00 ∧ bit v 0 then p.cmdExcludeStack md.mode who i else p
  | .mp => if off = 0xC00 then p.writeFencecmd md who i v else p
  | .gp => if off = 0xC00 then p.writeGuestcmd md who i v else p
  | .gw => if 0xC40 ≤ off ∧ off < 0xC80 then p.setReg pg off v else p
  | .le => if off = 0xC00 then p.fieldsThen pg off v (maskBits 7 0) (bit v 31) (fun p => p.cmdQprd (fld v 7 0)) else p
  | .ce => p.writeKeyImm d pg off v
  | .hce => p.writeKeyImm (12 + i) pg off v
  | .keyv => p.writeKeyvImm md.mode who off v
  | .dpm => if off = 0xC00 then p.fieldsThen pg off v (maskBits 4 0) (bit v 31) (fun p => p.cmdResrd d (fld v 4 0)) else p
  | .bist =>
    if off = 0xC00 then p.fieldsThen pg off v (maskBits 1 0) (bit v 31) (fun p => p.cmdBist md who d (fld v 1 0)) else p
  | .se => p.writeSeImm off v
  | .pe => p.writePeImm i off v
  | .dmac => p.writeDmaImm md.mode who i off v
  | _ => p

/-! ### The whole page -/

/-- A 64-bit write at a page offset (R27): false for an error response. Live registers are RO but for INTSTAT (R448). -/
def Pkg.pageWrite (p : Pkg) (md : ModeState) (who : Requester) (pg off : Nat) (v : Word) : Bool × Pkg :=
  match blkOf pg with
  | none => (false, p)
  | some (b, i) =>
    if !p.mayAccess who pg off then (false, p)
    else if off < 0x200 then (true, p.writeHeader md pg b off v)
    else if off < 0x400 then
      (true, if b == .se && off == 0x208 then p.setReg pg off (p.reg pg off &&& ~~~v) else p)
    else if off < 0xC00 then (true, if b.hasCfg then p.writeCopy pg off v else p)
    else if tenantReg b off then p.writeBell who pg b i off v
    else (true, if b.hasImm then p.writeImm md who pg b i off v else p)

/-! ### Rows -/

/-- A register read got an error response, which reaches its requester as R23 gives: SE logs the address (R442), the core takes
a machine check on the reading instruction, of which the row gives neither the length nor the operand (free values, log entry
137), the firewall logs the request. -/
def Pkg.readRefused (p : Pkg) (who : Requester) (pg off : Nat) : Pkg :=
  let pa := regAddr pg off
  let p := match who with
    | .host => p.seUr pa
    | .core lc =>
      let c := p.core lc.val
      if c.run ≠ CoreRun.executing then p
      else
        let f := p.free 6
        let t := { Trap.of 0x31 with opnd := f.1.toNat % 4 % 3, xaddr := pa, cls := 3 }
        f.2.takeTrap lc.val t c.ip (f.1.toNat / 4) c.rest 0x620
    | .guest g => if p.gpState g.val = 2 then p.fwLog g.val pa 1 7 else p
    | .steward | .agent _ => p
  p.reply 0 1 [] false

/-- REGISTER_WRITE (R27, R39). -/
def execRegisterWrite (who : Requester) (pg : PageId) (off : Nat) (v : Word) (s : State) :
    Host.Outcome State Fault Refusal :=
  s.upd (fun p =>
    let r := p.pageWrite s.mode who (pgOf pg) off v
    if r.1 then r.2 else r.2.writeRefused who (pgOf pg) off)

/-- A read of a register as a row: the bytes that the requester gets, or the error response. -/
def Pkg.readRow (p : Pkg) (md : ModeState) (who : Requester) (pg off : Nat) (w : ReadWidth) : Pkg :=
  match p.pageRead md who pg off w with
  | (some b, q) => q.reply 0 0 b false
  | (none, q) => q.readRefused who pg off

/-- ERRCOUNT_READ (R36). -/
def execErrcountRead (who : Requester) (pg : PageId) (w : ReadWidth) (s : State) : Host.Outcome State Fault Refusal :=
  s.upd (fun p => p.readRow s.mode who (pgOf pg) 0x038 w)

/-- CONFQ_READ (R254): a read of bits 31:0 clears HIGH. -/
def execConfqRead (who : Requester) (ds : Fin 16) (w : ReadWidth) (s : State) : Host.Outcome State Fault Refusal :=
  s.upd (fun p => p.readRow s.mode who (pgDS ds.val) 0x210 w)

/-- ATTNQ_READ (R528). -/
def execAttnqRead (who : Requester) (w : ReadWidth) (s : State) : Host.Outcome State Fault Refusal :=
  s.upd (fun p => p.readRow s.mode who pgSTW 0x348 w)

/-! ### The latch edge (R47, R51, R52) -/

/-- The live registers that a window latches (R47). -/
def Pkg.pictureOf (p : Pkg) (md : ModeState) (pos pg : Nat) : Tbl Word :=
  (List.range 48).foldl (fun (t : Tbl Word) (k : Nat) =>
    tblSet (fun _ => 0) t k (p.pageValue md pos pg (0x200 + 8 * k))) []

/-- A page at a latch edge at `pos` reference cycles in the frame: armed and powered, it latches; disarmed, it counts the
trigger as missed. -/
def Pkg.latchPage (p : Pkg) (md : ModeState) (pos pg : Nat) : Pkg :=
  if !bit (p.reg pg 0x048) 0 then (if p.powered pg then p.addRf pg 0x048 15 8 1 else p)
  else if !p.powered pg then p
  else
    let t := p.pictureOf md pos pg
    let p := p.setPage pg { p.page pg with window := t }
    let p := (p.setRf pg 0x048 2 2 1).setRf pg 0x048 0 0 0
    p.setReg pg 0x050 (word [(16, p.frameNum), (0, pos)])

/-- SNAPSHOT_LATCH: the earliest latch edge comes, at the tick or `off` reference cycles after it; `n` waiting triggers more fix
the same edge. A SNAPARM that waits for the tick re-arms first. Sources that fix one edge make one latch, and SNAPCAUSE names
all of them (R49, R51 to R53). -/
def execSnapshotLatch (off n : Nat) (s : State) : Host.Outcome State Fault Refusal :=
  s.upd (fun p =>
    let ticks := p.stw.latches.filter (fun l => l.1)
    let others := p.stw.latches.filter (fun l => !l.1)
    let k := if ticks.isEmpty then n + 1 else n
    let due := ticks ++ others.take k
    if due.isEmpty then p
    else
      let pos := if ticks.isEmpty then min off 800 else 0
      let p := allPages.foldl (fun (p : Pkg) (pg : Nat) => p.latchPage s.mode pos pg) p.rearm
      let src := due.foldl (fun (a : Nat) l => a ||| l.2.1) 0
      let late := due.any (fun l => l.2.2)
      let p := (p.setRf pgSTW 0x358 4 0 src).setRf pgSTW 0x358 8 8 late.toNat
      let stw := { p.stw with latches := others.drop k, lastEdge := some (p.frameNum, pos) }
      { p with stw := stw })

end Sys2Proof.Machine
end

