-- ==== Sys2Proof/Machine/Bus.lean ====
section
/-! DEFINITION. Accesses of logical cores outside HBM: register pages, chain windows, PCIe and guest windows (R18 to R23,
R187, R469, R476, R568). An access that something outside the package answers waits until the answer has come. -/

namespace Sys2Proof.Machine

/-- What an access outside HBM got. -/
inductive BusAns where
  | ok (b : List Byte) (poison : Bool)
  | err
  | wait
  deriving DecidableEq, Repr

/-! ### The accesses of the present instruction -/

/-- The lowest tag that no access of a core holds. -/
def Pkg.freeTag (p : Pkg) : Nat :=
  let used := p.cores.flatMap (fun e => e.2.io.map (fun a => a.tag) ++ e.2.posted.map (fun a => a.tag)) ++
    (p.coh.quarantine.filter (fun q => decide (q.1 < 12))).map (·.2)
  ((List.range 1024).find? (fun t => !used.contains t)).getD 1023

/-- The next access of the present execution when it was already made: an instruction that waits begins again, and finds
its earlier accesses and their answers here. -/
def Core.ioNext (c : Core) (pa len : Nat) (wr : List Byte) : Option IoAcc :=
  match c.io[c.ioPos]? with
  | some a => if a.pa = pa ∧ a.len = len ∧ a.wr = wr then some a else none
  | none => none

/-- Record an access made at this point of the execution; what stood here and after is no longer what it does. -/
def Pkg.ioPush (p : Pkg) (lc : Nat) (a : IoAcc) : Pkg :=
  let c := p.core lc
  p.setCore lc { c with io := c.io.take c.ioPos ++ [a], ioPos := c.ioPos + 1 }

/-- The execution has used one recorded access. -/
def Pkg.ioStep (p : Pkg) (lc : Nat) : Pkg := let c := p.core lc; p.setCore lc { c with ioPos := c.ioPos + 1 }

/-- Make an access once: `act` performs it and answers at once. -/
def Pkg.ioOnce (p : Pkg) (lc pa len : Nat) (wr : List Byte) (act : Pkg → Option (List Byte × Bool) × Pkg) : BusAns × Pkg :=
  let ans := fun (r : Option (List Byte × Bool)) => match r with | some (b, po) => BusAns.ok b po | none => BusAns.err
  match (p.core lc).ioNext pa len wr with
  | some a =>
    match a.answer with
    | some r => (ans r, p.ioStep lc)
    | none => (.wait, p)
  | none =>
    let r := act p
    (ans r.1, r.2.ioPush lc { pa := pa, len := len, wr := wr, tag := 0, answer := some r.1, age := 0 })

/-- Make an access that something outside answers: it is sent once, and the core waits for its answer. -/
def Pkg.ioAwait (p : Pkg) (lc pa len : Nat) (wr : List Byte) : BusAns × Pkg :=
  match (p.core lc).ioNext pa len wr with
  | some a =>
    match a.answer with
    | some (some (b, po)) => (.ok (b.take len) po, p.ioStep lc)
    | some none => (.err, p.ioStep lc)
    | none => (.wait, p)
  | none =>
    let t := p.freeTag
    (.wait, (p.ioPush lc { pa := pa, len := len, wr := wr, tag := t, answer := none, age := 0 }).reply t 0 wr false)

/-! ### Register pages (R22, R27) -/

/-- The register range (R18). -/
def inPages (pa : Nat) : Bool := decide (0xFF00000000000 ≤ pa ∧ pa < 0xFF00010000000)

/-- The width of a read that a page accepts (R27). -/
def readWidth (pa len : Nat) : Option ReadWidth :=
  if len = 8 ∧ pa % 8 = 0 then some .quad
  else if len = 4 ∧ pa % 4 = 0 then some (if pa % 8 = 0 then .low else .high)
  else none

/-- A read of the register range by a requester: its bytes, none for an error response. -/
def Pkg.pagesRead (p : Pkg) (md : ModeState) (who : Requester) (pa len : Nat) : Option (List Byte) × Pkg :=
  match readWidth pa len with
  | none => (none, p)
  | some w => p.pageRead md who ((pa - 0xFF00000000000) / 4096) (pa % 4096 / 8 * 8) w

/-- A write of the register range: false for an error response. -/
def Pkg.pagesWrite (p : Pkg) (md : ModeState) (who : Requester) (pa : Nat) (b : List Byte) : Bool × Pkg :=
  if b.length = 8 ∧ pa % 8 = 0 then
    p.pageWrite md who ((pa - 0xFF00000000000) / 4096) (pa % 4096) (BitVec.ofNat 64 (leNat b))
  else (false, p)

/-- A logical core as a requester. -/
def coreReq (lc : Nat) : Requester := if h : lc < 216 then .core ⟨lc, h⟩ else .agent lc

/-! ### Chain windows (R20, R469) -/

/-- The window is that of another package, and a port leads to it. -/
def Pkg.chainReach (p : Pkg) (pa : Nat) : Bool :=
  let n := (pa - 0x8000000000000) / 2 ^ 43
  p.chainValid && n != p.chainAddr && p.chUp (decide (p.chainAddr < n))

/-- Make an access of a chain window: its RREQ is sent once to the package of the window (R469). -/
def Pkg.chainAccess (p : Pkg) (lc pid pa len : Nat) (wr : List Byte) : BusAns × Pkg :=
  if !p.chainReach pa then (.err, p)
  else
    let made := ((p.core lc).ioNext pa len wr).isSome
    let r := p.ioAwait lc pa len wr
    let off := (pa - 0x8000000000000) % 2 ^ 43
    let rreq : ChainBody := .rreq (wr != []) off len ((BitVec.allOnes 64 >>> (64 - len)) <<< (off % 64)) pid p.freeTag wr
    if made then r else (r.1, r.2.chainTo ((pa - 0x8000000000000) / 2 ^ 43) rreq)

/-! ### Root ports (R476) -/

/-- The registers of a root port's type-1 header that a write stores (PRESUMED, log entry 16). -/
def rpMask (r : Nat) : BitVec 32 :=
  match r with
  | 1 => 0x547
  | 6 => 0x00FFFFFF
  | 8 => 0xFFF0FFF0
  | 9 => 0xFFF0FFF0
  | 10 | 11 => 0xFFFFFFFF
  | 15 => 0x007F00FF
  | _ => 0

/-- The bits of a dword that a write of bytes at `pa` names. -/
def dwordPart (pa : Nat) (b : List Byte) : BitVec 32 × BitVec 32 :=
  let sh := 8 * (pa % 4)
  (BitVec.ofNat 32 (leNat b * 2 ^ sh), BitVec.ofNat 32 ((2 ^ (8 * b.length) - 1) * 2 ^ sh))

/-- Write a root port's register. -/
def Pkg.rpWrite (p : Pkg) (n k r pa : Nat) (b : List Byte) : Pkg :=
  let x := p.pe n
  let old : BitVec 32 := BitVec.ofNat 32 (p.rpReg n k r)
  let w := dwordPart pa b
  let m := w.2 &&& rpMask r
  p.setPe n { x with rp := tblSet (fun _ => 0) x.rp (k * 1024 + r) ((old &&& ~~~m) ||| (w.1 &&& m)) }

/-- Read a root port's register: the bits that nothing stores are free values (log entry 16). -/
def Pkg.rpRead (p : Pkg) (n k r pa len : Nat) : List Byte × Pkg :=
  let f := p.free 32
  let v := BitVec.ofNat 32 (p.rpReg n k r) ||| (f.1 &&& ~~~(rpMask r))
  (((leBytes 4 v.toNat).drop (pa % 4)).take len, f.2)

/-! ### One access -/

/-- One read. -/
def Pkg.busReadPart (p : Pkg) (md : ModeState) (lc pid pa len : Nat) : BusAns × Pkg :=
  if inPages pa then
    p.ioOnce lc pa len [] (fun p =>
      let r := p.pagesRead md (coreReq lc) pa len
      (r.1.map (fun b => (b, false)), r.2))
  else if inChain pa then p.chainAccess lc pid pa len []
  else
    match (List.range 6).find? (fun n => inPcie n pa) with
    | some n =>
      match p.peRoute n pa with
      | .own k r => p.ioOnce lc pa len [] (fun p => let x := p.rpRead n k r pa len; (some (x.1, false), x.2))
      | .link _ => p.ioAwait lc pa len []
      | .absent => (.err, p)
    | none =>
      match (List.range 2).find? (fun g => inGuest g pa) with
      | some g => if p.gpState g = 2 then p.ioAwait lc pa len [] else (.err, p)
      | none => (.err, p)

/-- A posted write: the core goes on; `await` when something outside reports its outcome (R187, R568). -/
def Pkg.postWrite (p : Pkg) (lc pa : Nat) (b : List Byte) (await : Bool) : BusAns × Pkg :=
  p.ioOnce lc pa b.length b (fun p =>
    let t := p.freeTag
    let c := p.core lc
    let p := if await then p.setCore lc { c with posted := c.posted ++ [{ tag := t, pa := pa, age := 0 }] } else p
    (some ([], false), p.reply t 0 b false))

/-- One write. -/
def Pkg.busWritePart (p : Pkg) (md : ModeState) (lc pid pa : Nat) (b : List Byte) : BusAns × Pkg :=
  if inPages pa then
    p.ioOnce lc pa b.length b (fun p =>
      let r := p.pagesWrite md (coreReq lc) pa b
      (if r.1 then some ([], false) else none, r.2))
  else if inChain pa then p.chainAccess lc pid pa b.length b
  else
    match (List.range 6).find? (fun n => inPcie n pa) with
    | some n =>
      match p.peRoute n pa with
      | .own k r => p.ioOnce lc pa b.length b (fun p => (some ([], false), p.rpWrite n k r pa b))
      | .link config => p.postWrite lc pa b config
      | .absent => (.err, p)
    | none =>
      match (List.range 2).find? (fun g => inGuest g pa) with
      | some g => if p.gpState g = 2 then p.postWrite lc pa b false else (.err, p)
      | none => (.err, p)

/-! ### The whole access -/

/-- The single accesses of a piece of `len` bytes outside HBM. A chain window is reached line by line (R469). In a device
region an operand, at most 16 bytes, is one access, and a longer field is reached byte by byte (R187; DEDUCED, log entry
106). -/
def busParts (pa len : Nat) : List (Nat × Nat) :=
  if pa < devBase then lineParts pa len
  else if len ≤ 16 then [(pa, len)]
  else (List.range len).map (fun i => (pa + i, 1))

/-- A read of a logical core outside HBM. -/
def Pkg.coreBusRead (p : Pkg) (md : ModeState) (lc _pl pid pa len : Nat) : BusAns × Pkg :=
  (busParts pa len).foldl (fun (a : BusAns × Pkg) e =>
    match a.1 with
    | .ok b po =>
      match a.2.busReadPart md lc pid e.1 e.2 with
      | (.ok b2 po2, p) => (.ok (b ++ b2) (po || po2), p)
      | x => x
    | _ => a) (.ok [] false, p)

/-- A write of a logical core outside HBM. -/
def Pkg.coreBusWrite (p : Pkg) (md : ModeState) (lc _pl pid pa : Nat) (bs : List Byte) : BusAns × Pkg :=
  (busParts pa bs.length).foldl (fun (a : BusAns × Pkg) e =>
    match a.1 with
    | .ok _ _ => a.2.busWritePart md lc pid e.1 ((bs.drop (e.1 - pa)).take e.2)
    | _ => a) (.ok [] false, p)

end Sys2Proof.Machine
end

