-- ==== Sys2Proof/Machine/Flags.lean ====
section
/-! DEFINITION. Flags and conditions (R88, R89), the binary operations (R127 to R130), and packed decimals (R86, R131
to R134). Operands are numbers of `8 × size` bits. -/

namespace Sys2Proof.Machine

/-! ### The flags of the PSW (R78) -/

def pswC (w : Word) : Bool := bit w 0
def pswZ (w : Word) : Bool := bit w 1
def pswN (w : Word) : Bool := bit w 2
def pswV (w : Word) : Bool := bit w 3
def pswDV (w : Word) : Bool := bit w 4
def pswDVE (w : Word) : Bool := bit w 5

/-- Set Z, N, C and V; DV stays. -/
def setZNCV (w : Word) (z n c v : Bool) : Word := setFld w 3 0 (c.toNat + 2 * z.toNat + 4 * n.toNat + 8 * v.toNat)

/-- Set DV. -/
def setDV (w : Word) (b : Bool) : Word := setBit w 4 b

/-- The condition of R89. -/
def condHolds (w : Word) (cc : Nat) : Bool :=
  match cc with
  | 0x0 => pswZ w
  | 0x1 => !pswZ w
  | 0x2 => pswC w
  | 0x3 => !pswC w
  | 0x4 => pswN w
  | 0x5 => !pswN w
  | 0x6 => pswV w
  | 0x7 => !pswV w
  | 0x8 => !pswC w && !pswZ w
  | 0x9 => pswC w || pswZ w
  | 0xA => pswN w == pswV w
  | 0xB => pswN w != pswV w
  | 0xC => !pswZ w && pswN w == pswV w
  | 0xD => pswZ w || pswN w != pswV w
  | 0xE => pswDV w
  | _ => true

/-! ### Binary operations (R88, R127 to R130) -/

/-- A result of `n` bits and the flags Z, N, C, V. -/
structure BinRes where
  r : Nat
  z : Bool
  n : Bool
  c : Bool
  v : Bool
  deriving DecidableEq, Repr

/-- A result with Z and N from it (R88). -/
def binRes (n r : Nat) (c v : Bool) : BinRes :=
  { r := r % 2 ^ n, z := r % 2 ^ n == 0, n := decide (2 ^ (n - 1) ≤ r % 2 ^ n), c := c, v := v }

/-- An integer lies outside the signed range of `n` bits. -/
def outside (n : Nat) (i : Int) : Bool := decide (i < -(2 ^ (n - 1) : Int)) || decide ((2 ^ (n - 1) : Int) ≤ i)

/-- Addition with a carry in (R88). -/
def addFlags (n a b : Nat) (cin : Bool) : BinRes :=
  binRes n (a + b + cin.toNat) (decide (2 ^ n ≤ a + b + cin.toNat)) (outside n (toInt n a + toInt n b + cin.toNat))

/-- Subtraction with a borrow in (R88). -/
def subFlags (n a b : Nat) (bin : Bool) : BinRes :=
  binRes n (2 ^ n + a - (b + bin.toNat) + 2 ^ n) (decide (a < b + bin.toNat)) (outside n (toInt n a - toInt n b - bin.toNat))

/-- MUL: C and V tell that the signed product does not fit. -/
def mulFlags (n a b : Nat) : BinRes :=
  let o := outside n (toInt n a * toInt n b)
  binRes n (a * b) o o

/-- MULH and MULHU. -/
def mulhFlags (n a b : Nat) : BinRes := binRes n (ofInt (2 * n) (toInt n a * toInt n b) / 2 ^ n) false false
def mulhuFlags (n a b : Nat) : BinRes := binRes n (a * b / 2 ^ n) false false

/-- DIV and REM (R129); the divisor is not 0. -/
def divFlags (n a b : Nat) : BinRes :=
  let q := (toInt n a).tdiv (toInt n b)
  binRes n (ofInt n q) false (outside n q)
def remFlags (n a b : Nat) : BinRes := binRes n (ofInt n ((toInt n a).tmod (toInt n b))) false false
def divuFlags (n a b : Nat) : BinRes := binRes n (a / b) false false
def remuFlags (n a b : Nat) : BinRes := binRes n (a % b) false false

/-- Logic: C and V cleared. -/
def logicFlags (n r : Nat) : BinRes := binRes n r false false

/-- The complement in `n` bits. -/
def notBits (n a : Nat) : Nat := 2 ^ n - 1 - a % 2 ^ n

/-- SHL, SHR and SAR by k = count modulo n (R130). -/
def shlFlags (n a cnt : Nat) : BinRes :=
  let k := cnt % n
  if k = 0 then logicFlags n a else binRes n (a * 2 ^ k) (a / 2 ^ (n - k) % 2 == 1) false
def shrFlags (n a cnt : Nat) : BinRes :=
  let k := cnt % n
  if k = 0 then logicFlags n a else binRes n (a / 2 ^ k) (a / 2 ^ (k - 1) % 2 == 1) false
def sarFlags (n a cnt : Nat) : BinRes :=
  let k := cnt % n
  if k = 0 then logicFlags n a else binRes n (ofInt n (toInt n a / 2 ^ k)) (a / 2 ^ (k - 1) % 2 == 1) false

/-- ROL and ROR: C is the bit that came round when k ≠ 0. -/
def rolFlags (n a cnt : Nat) : BinRes :=
  let k := cnt % n
  let r := a * 2 ^ k % 2 ^ n + a / 2 ^ (n - k)
  if k = 0 then logicFlags n a else binRes n r (r % 2 == 1) false
def rorFlags (n a cnt : Nat) : BinRes :=
  let k := cnt % n
  let r := a / 2 ^ k + a % 2 ^ k * 2 ^ (n - k)
  if k = 0 then logicFlags n a else binRes n r (r / 2 ^ (n - 1) % 2 == 1) false

/-- BSWAP, POPC, CLZ and CTZ: Z; N, C and V cleared. -/
def countFlags (n r : Nat) : BinRes := { r := r % 2 ^ n, z := r % 2 ^ n == 0, n := false, c := false, v := false }
def bswapFlags (n a : Nat) : BinRes := countFlags n (leNat (leBytes (n / 8) a).reverse)
def popcFlags (n a : Nat) : BinRes := countFlags n (popCount n a)
/-- The number of leading zeros of an n-bit value. -/
def leadZeros (n a : Nat) : Nat := n - (below n (fun i => a / 2 ^ i % 2 == 1)).foldl (fun m i => max m (i + 1)) 0
def clzFlags (n a : Nat) : BinRes := countFlags n (leadZeros n a)
def ctzFlags (n a : Nat) : BinRes := countFlags n (lowOne n a)

/-- Write the flags of a result to the PSW. -/
def BinRes.setFlags (b : BinRes) (w : Word) : Word := setZNCV w b.z b.n b.c b.v

/-! ### Packed decimals (R86, R131) -/

/-- The nibbles of a packed decimal, most significant first. -/
def nibbles : List Byte → List Nat
  | [] => []
  | b :: t => b.toNat / 16 :: b.toNat % 16 :: nibbles t

/-- The value of digits, most significant first. -/
def digitsVal (ds : List Nat) : Nat := ds.foldl (fun a d => a * 10 + d) 0

/-- The digits and the sign of a packed decimal, none when it is malformed (R86). -/
def decParts (bs : List Byte) : Option (List Nat × Bool) :=
  let ns := nibbles bs
  let ds := ns.dropLast
  let sg := ns.getLastD 0
  if ds.all (fun d => decide (d < 10)) && (sg == 0xA || sg == 0xB || sg == 0xF) then some (ds, sg == 0xB) else none

/-- The value of a packed decimal, none when it is malformed. -/
def decVal (bs : List Byte) : Option Int :=
  (decParts bs).map (fun r => if r.2 then -(digitsVal r.1 : Int) else (digitsVal r.1 : Int))

/-- The `k` low decimal digits of a number, most significant first. -/
def decDigits : Nat → Nat → List Nat
  | 0, _ => []
  | k + 1, x => decDigits k (x / 10) ++ [x % 10]

/-- Bytes of a list of nibbles. -/
def packNibbles : List Nat → List Byte
  | a :: b :: t => BitVec.ofNat 8 (a * 16 + b) :: packNibbles t
  | _ => []

/-- A decimal result fitted to L bytes (R131): its bytes, the value as written, and DV. -/
structure DecRes where
  bytes : List Byte
  val : Int
  dv : Bool
  deriving DecidableEq, Repr

/-- Fit a value to L bytes. -/
def decFit (l : Nat) (v : Int) : DecRes :=
  let k := 2 * l - 1
  let mag := v.natAbs % 10 ^ k
  let neg := decide (v < 0) && mag != 0
  { bytes := packNibbles (decDigits k mag ++ [if neg then 0xB else 0xA]),
    val := if neg then -(mag : Int) else mag,
    dv := decide (10 ^ k ≤ v.natAbs) }

/-- The flags of a decimal result (R88): Z and N from the value as written, C and V cleared, DV. -/
def decFlags (w : Word) (r : DecRes) : Word :=
  setDV (setZNCV w (decide (r.val = 0)) (decide (r.val < 0)) false false) r.dv

/-- DSHR (R133): by `n` digits, rounding half away from zero to the right. -/
def decShift (v : Int) (n : Int) : Int :=
  if n < 0 then v * (10 ^ (-n).toNat : Int)
  else
    let d := 10 ^ n.toNat
    let q := (v.natAbs * 2 + d) / (2 * d)
    if v < 0 then -(q : Int) else q

end Sys2Proof.Machine
end

