-- ==== Sys2Proof/Machine/Operands.lean ====
section
/-! DEFINITION. The Pelmund instruction decoder: prefixes, opcode maps, signatures, operand kinds and specifier forms
(R108 to R122). It works on the bytes from IP upward and says how many of them it asked for. -/

namespace Sys2Proof.Machine

/-! ### Opcodes and signatures (R112 to R115) -/

/-- The operand kinds of R115. -/
inductive Kind where
  | v | d | m | a | p | x | e
  deriving DecidableEq, Repr

/-- One operand of a signature: its kind and its fixed size in bytes, none for the operand size. -/
abbrev OpSig := Kind × Option Nat

/-- The opcode is defined in R112 or R113. -/
def opDefined (op : Nat) : Bool :=
  (decide (0x01 ≤ op ∧ op ≤ 0x07)) || (decide (0x10 ≤ op ∧ op ≤ 0x2D)) || (decide (0x30 ≤ op ∧ op ≤ 0x39)) ||
  (decide (0x40 ≤ op ∧ op ≤ 0x44)) || (decide (0x50 ≤ op ∧ op ≤ 0x56)) || (decide (0x58 ≤ op ∧ op ≤ 0x69)) ||
  op == 0x70 || op == 0x71 || (decide (0x80 ≤ op ∧ op ≤ 0x85)) || (decide (0x90 ≤ op ∧ op ≤ 0xAF)) ||
  (decide (0xE000 ≤ op ∧ op ≤ 0xE009)) || (decide (0xE010 ≤ op ∧ op ≤ 0xE012))

/-- The opcode changes its signature under LOCK (R109). -/
def opLockSig (op : Nat) : Bool := decide (0x10 ≤ op ∧ op ≤ 0x13) || decide (0x20 ≤ op ∧ op ≤ 0x23)

/-- The signature of an opcode, with or without LOCK (R114). -/
def signature (op : Nat) (lock : Bool) : List OpSig :=
  let v : OpSig := (.v, none)
  let d : OpSig := (.d, none)
  let m : OpSig := (.m, none)
  let a : OpSig := (.a, none)
  let p : OpSig := (.p, none)
  let x : OpSig := (.x, some 16)
  let e : OpSig := (.e, some 16)
  let vb : OpSig := (.v, some 1)
  let vw : OpSig := (.v, some 4)
  let vq : OpSig := (.v, some 8)
  let db : OpSig := (.d, some 1)
  let dw : OpSig := (.d, some 4)
  let dq : OpSig := (.d, some 8)
  if opLockSig op && lock then [v, m]
  else if op = 0x02 then [v, d]
  else if op = 0x03 ∨ op = 0x04 then [v, dq]
  else if op = 0x05 then [a, dq]
  else if op = 0x06 then [m, m]
  else if op = 0x07 then [d]
  else if 0x10 ≤ op ∧ op ≤ 0x1A ∨ 0x20 ≤ op ∧ op ≤ 0x23 then [v, v, d]
  else if op = 0x1B ∨ op = 0x24 ∨ 0x2A ≤ op ∧ op ≤ 0x2D then [v, d]
  else if op = 0x1C ∨ op = 0x1D then [m]
  else if op = 0x1E ∨ op = 0x1F then [v, v]
  else if 0x25 ≤ op ∧ op ≤ 0x29 then [v, vb, d]
  else if 0x30 ≤ op ∧ op ≤ 0x33 then [p, p, p]
  else if op = 0x34 ∨ op = 0x38 then [p, p]
  else if op = 0x35 then [p, vb, p]
  else if op = 0x36 then [p, dq]
  else if op = 0x37 then [vq, p]
  else if op = 0x39 then [p, a, a]
  else if op = 0x40 then [a, a, (.m, some 4)]
  else if op = 0x41 ∨ op = 0x42 ∨ op = 0x44 then [a, a, vw]
  else if op = 0x43 then [a, vb, vw]
  else if 0x50 ≤ op ∧ op ≤ 0x53 then [x, x, e]
  else if op = 0x54 then [e]
  else if op = 0x55 then [e, a]
  else if op = 0x56 then [a, e]
  else if 0x58 ≤ op ∧ op ≤ 0x5B then [vq, vq, dq]
  else if op = 0x5C then [vq, vq]
  else if 0x5D ≤ op ∧ op ≤ 0x5F then [vq, dq]
  else if 0x60 ≤ op ∧ op ≤ 0x63 then [vw, vw, dw]
  else if op = 0x64 then [vw, vw]
  else if op = 0x65 then [vw, dw]
  else if op = 0x66 ∨ op = 0x68 then [vw, dq]
  else if op = 0x67 ∨ op = 0x69 then [vq, dw]
  else if op = 0x70 then [m, m, v]
  else if op = 0x71 then [m, m]
  else if op = 0x80 ∨ 0x90 ≤ op ∧ op ≤ 0x9F then [a]
  else if op = 0x81 then [a, dq]
  else if op = 0x82 ∨ op = 0x83 ∨ op = 0x85 then [vw]
  else if 0xA0 ≤ op ∧ op ≤ 0xAF then [db]
  else if op = 0xE000 then [vb, vq]
  else if op = 0xE002 ∨ op = 0xE003 ∨ op = 0xE004 ∨ op = 0xE008 ∨ op = 0xE009 then [a, vq]
  else if op = 0xE010 ∨ op = 0xE012 then [vb, dq]
  else if op = 0xE011 then [vq, vb]
  else []

/-- LOCK is allowed on the opcode (R111). -/
def lockAllowed (op : Nat) : Bool := opLockSig op || op == 0x1C || op == 0x1D || op == 0x70 || op == 0x71

/-- A size override is allowed on the opcode (R111). -/
def sizeAllowed (op : Nat) : Bool :=
  decide (0x02 ≤ op ∧ op ≤ 0x04) || op == 0x06 || op == 0x07 || decide (0x10 ≤ op ∧ op ≤ 0x2D) || op == 0x70 || op == 0x71

/-- SPACE is allowed on the opcode (R111). -/
def spaceAllowed (op : Nat) : Bool := decide (0x02 ≤ op ∧ op ≤ 0x71)

/-- REP is allowed on the opcode (R111). -/
def repAllowed (op : Nat) : Bool :=
  decide (0x02 ≤ op ∧ op ≤ 0x04) || op == 0x07 || opLockSig op || decide (0x50 ≤ op ∧ op ≤ 0x53)

/-- The forms that a kind allows (R115). -/
def formAllowed (k : Kind) (form : Nat) : Bool :=
  let dm := decide (1 ≤ form ∧ form ≤ 0xB) || form == 0xD || form == 0xE
  match k with
  | .v => decide (1 ≤ form)
  | .d | .m => dm
  | .a => decide (2 ≤ form ∧ form ≤ 5) || decide (8 ≤ form ∧ form ≤ 0xB) || form == 0xD || form == 0xE
  | .p => decide (2 ≤ form ∧ form ≤ 0xB) || form == 0xE
  | .x => decide (2 ≤ form ∧ form ≤ 0xB) || form == 0xD || form == 0xE
  | .e => form == 1

/-- Extension bytes of a form that is not indexed (R115, R116). -/
def ownBytes (form : Nat) (k : Kind) (size : Nat) : Nat :=
  match form with
  | 3 | 8 => 1
  | 4 => 2
  | 5 | 9 | 0xE => 4
  | 0xD => 8
  | 0xC => if k = .v then size else 0
  | _ => 0

/-! ### Decoded instructions -/

/-- One operand specifier after decoding (R116 to R118). -/
structure Spec where
  kind : Kind
  /-- Operand size in bytes; for kind p the length L. -/
  size : Nat
  form : Nat
  reg : Nat
  /-- Displacement, immediate or absolute address as stored, and its bytes. -/
  ext : Nat
  extBytes : Nat
  /-- Index register and scale of forms A and B. -/
  index : Nat
  scale : Nat
  deriving DecidableEq, Repr

/-- A decoded instruction. -/
structure Decoded where
  op : Nat
  lock : Bool
  rep : Bool
  order : Bool
  nt : Bool
  space : Bool
  /-- Operand size in bytes. -/
  size : Nat
  ops : List Spec
  len : Nat
  deriving DecidableEq, Repr

/-- Why decoding ends without an instruction: a decode fault with its code, the bytes asked for and the opcode if it is
known, or bytes that are missing from the list. -/
inductive DecErr where
  | fault (code needed : Nat) (op : Option Nat)
  | short (op : Option Nat)
  deriving DecidableEq, Repr

/-- The byte at position `k`. -/
def fetchAt (code : List Byte) (op : Option Nat) (k : Nat) : Except DecErr Nat :=
  match code[k]? with
  | some b => .ok b.toNat
  | none => .error (.short op)

/-- The prefix byte breaks R109 or R110 beside the prefixes already present. -/
def prefixBad (b : Nat) (ps : List Nat) : Bool :=
  decide (0xF9 ≤ b) || decide (4 ≤ ps.length) || ps.contains b ||
  (decide (0xF1 ≤ b ∧ b ≤ 0xF4) && ps.any (fun q => decide (0xF1 ≤ q ∧ q ≤ 0xF4))) ||
  (b == 0xF0 && ps.contains 0xF8) || (b == 0xF8 && ps.contains 0xF0)

/-- The prefix loop of R122: the prefixes and the position of the first opcode byte. -/
def decodePrefixes (code : List Byte) : Nat → Nat → List Nat → Except DecErr (List Nat × Nat)
  | 0, n, ps => .ok (ps, n)
  | k + 1, n, ps => do
    let b ← fetchAt code none n
    if b < 0xF0 then .ok (ps, n)
    else if prefixBad b ps then .error (.fault 0x04 (n + 1) none)
    else decodePrefixes code k (n + 1) (b :: ps)

/-- The operand size that the prefixes select, in bytes. -/
def prefixSize (ps : List Nat) : Nat :=
  if ps.contains 0xF1 then 1 else if ps.contains 0xF2 then 2 else if ps.contains 0xF3 then 4 else 8

/-- A prefix is not allowed on the opcode (R111). -/
def prefixesIllegal (ps : List Nat) (op : Nat) : Bool :=
  (ps.contains 0xF0 && !lockAllowed op) ||
  (ps.any (fun q => decide (0xF1 ≤ q ∧ q ≤ 0xF4)) && !sizeAllowed op) ||
  (ps.contains 0xF7 && !spaceAllowed op) || (ps.contains 0xF8 && !repAllowed op)

/-- The conditions of R111 on a specifier under LOCK (the first m operand is in memory) and REP (G13 is not written). -/
def specIllegal (ps : List Nat) (firstM : Bool) (k : Kind) (s : Nat) : Bool :=
  let form := s % 16
  (ps.contains 0xF0 && firstM && k == .m && !(decide (2 ≤ form ∧ form ≤ 0xB) || form == 0xD || form == 0xE)) ||
  (ps.contains 0xF8 && ((s == 0xD1 && (k == .d || k == .m)) || s == 0xD6 || s == 0xD7))

/-- Reserved mode by R115 and R119 at the specifier byte. -/
def specReserved (k : Kind) (size s : Nat) : Bool :=
  let form := s % 16
  let reg := s / 16
  !formAllowed k form ||
  (reg != 0 && (form == 0xB || form == 0xC || form == 0xD || form == 0xE)) ||
  (k == .e && decide (4 ≤ reg)) || (form == 0xC && decide (16 ≤ size))

/-- Little-endian value of `k` code bytes from position `n`. -/
def extValue (code : List Byte) (op : Option Nat) (n k : Nat) : Except DecErr Nat :=
  if n + k ≤ code.length then .ok (leNat ((code.drop n).take k)) else .error (.short op)

/-- One specifier of R122 at position `n`: the operand and the next position. -/
def decodeSpec (code : List Byte) (op : Nat) (ps : List Nat) (firstM : Bool) (sig : OpSig) (n : Nat) :
    Except DecErr (Spec × Nat) := do
  let k := sig.1
  let size := sig.2.getD (prefixSize ps)
  let s ← fetchAt code (some op) n
  let form := s % 16
  if specIllegal ps firstM k s then .error (.fault 0x04 (n + 1) (some op))
  else
    let indexed := form == 0xA || form == 0xB
    let lenByte := if k = .p then 1 else 0
    let need := (if indexed then 1 else ownBytes form k size) + lenByte
    if 15 < n + 1 + need then .error (.fault 0x02 (n + 1) (some op))
    else if specReserved k size s then .error (.fault 0x03 (n + 1) (some op))
    else
      let n := n + 1
      let lb ← (if k = .p then fetchAt code (some op) n else .ok 0)
      if 16 ≤ lb then .error (.fault 0x03 (n + 1) (some op))
      else
        let n := n + lenByte
        let size := if k = .p then lb + 1 else size
        if indexed then
          let x ← fetchAt code (some op) n
          let n := n + 1
          let disp := [0, 1, 2, 4].getD (x % 4) 0
          if 15 < n + disp then .error (.fault 0x02 n (some op))
          else
            let e ← extValue code (some op) n disp
            .ok ({ kind := k, size := size, form := form, reg := s / 16, ext := e, extBytes := disp, index := x / 16,
                   scale := 2 ^ (x / 4 % 4) }, n + disp)
        else
          let eb := ownBytes form k size
          let e ← extValue code (some op) n eb
          .ok ({ kind := k, size := size, form := form, reg := s / 16, ext := e, extBytes := eb, index := 0, scale := 0 },
            n + eb)

/-- The specifiers of a signature in order. -/
def decodeSpecs (code : List Byte) (op : Nat) (ps : List Nat) : List OpSig → Bool → Nat →
    Except DecErr (List Spec × Nat)
  | [], _, n => .ok ([], n)
  | sig :: t, firstM, n => do
    let r ← decodeSpec code op ps firstM sig n
    let rest ← decodeSpecs code op ps t (firstM && sig.1 != .m) r.2
    .ok (r.1 :: rest.1, rest.2)

/-- The decoder of R122. -/
def decodePelmund (code : List Byte) : Except DecErr Decoded := do
  let pr ← decodePrefixes code 6 0 []
  let ps := pr.1
  let n := pr.2
  let b ← fetchAt code none n
  let escaped := b == 0xE0
  let b2 ← (if escaped then fetchAt code none (n + 1) else .ok 0)
  let op := if escaped then 0xE000 + b2 else b
  let n := if escaped then n + 2 else n + 1
  if !opDefined op then .error (.fault 0x01 n (some op))
  else if prefixesIllegal ps op then .error (.fault 0x04 n (some op))
  else
    let lock := ps.contains 0xF0
    let r ← decodeSpecs code op ps (signature op lock) true n
    .ok { op := op, lock := lock, rep := ps.contains 0xF8, order := ps.contains 0xF5, nt := ps.contains 0xF6,
          space := ps.contains 0xF7, size := prefixSize ps, ops := r.1, len := r.2 }

/-- The bytes that decoding asked for, and the opcode it found. -/
def DecErr.needed (code : List Byte) : DecErr → Nat
  | .fault _ n _ => n
  | .short _ => code.length + 1

def DecErr.op : DecErr → Option Nat
  | .fault _ _ o => o
  | .short o => o

/-- The displacement of a specifier, sign-extended (R116). -/
def Spec.disp (s : Spec) : Int := if s.extBytes = 0 then 0 else toInt (8 * s.extBytes) s.ext

end Sys2Proof.Machine
end

