-- ==== Sys2Proof/Machine/Access.lean ====
section
/-! DEFINITION. How a logical core reaches its operands: forming addresses, checking them, reading sources and writing
destinations (R91, R92, R115 to R121, R185 to R188, R321). -/

namespace Sys2Proof.Machine

/-! ### Bytes at virtual addresses -/

/-- The pages that `n` bytes at `va` lie in: (address, length), lower page first; addresses wrap at 2^64. -/
def pieces (va n : Nat) : List (Nat × Nat) :=
  if n = 0 then []
  else
    let first := min n (4096 - va % 4096)
    if first = n then [(va, n)]
    else (va, first) :: (List.range ((n - first + 4095) / 4096)).map
      (fun i => ((va + first + i * 4096) % 2 ^ 64, min 4096 (n - first - i * 4096)))

/-- Check the translations of an access without leaving anything (R91): for each page, the accesses `accs` in turn. It
answers whether a byte is UC or in a device region. -/
def checkMem (x : Ctx) (va n : Nat) (accs : List Nat) : M Bool :=
  (pieces va n).foldlM (fun dev pc =>
    accs.foldlM (fun d a => do
      let t ← translate { x with dry := true } pc.1 a
      pure (d || t.attr != 0)) dev) false

/-- The machine check of a core access (R23, R321). -/
def machineCheck (x : Ctx) (acc pa cls : Nat) : Trap :=
  { Trap.of 0x31 with acc := acc, opnd := x.opnd, xaddr := pa, cls := cls }

/-- The memory operations of a unit stall while a cache that serves it drains (R175). -/
def stallDrain (x : Ctx) : M Unit := do
  let p ← get
  if p.pathStalled x.u 0 then throw .wait

/-- Read bytes at a physical address under an attribute. -/
def readPhys (x : Ctx) (md : ModeState) (pa attr len : Nat) : M (List Byte) := do
  stallDrain x
  if hbmSize ≤ pa ∨ hbmSize < pa + len then
    match ← liftP (fun p => p.coreBusRead md x.lc x.pl x.accPid pa len) with
    | .ok b false => pure b
    | .ok _ true => trap (machineCheck x 0 (pa / 64 * 64) 2)
    | .err => trap (machineCheck x 0 pa 3)
    | .wait => throw .ext
  else if attr = 0 then
    (lineParts pa len).foldlM (fun bs pc => do
      match ← liftP (fun p => p.cachedRead x.u pc.1 x.accPid pc.2 0 x.nt) with
      | .bytes b false => pure (bs ++ b)
      | .bytes _ true => trap (machineCheck x 0 (pc.1 / 64 * 64) 2)
      | .err _ => trap (machineCheck x 0 pc.1 3)
      | .waiting => throw .wait) []
  else
    match ← liftP (fun p => p.ioReadRange (x.u / 20) x.accPid pa len) with
    | .done b false => pure b
    | .done _ true => trap (machineCheck x 0 (pa / 64 * 64) 2)
    | .err _ => trap (machineCheck x 0 pa 3)
    | .waiting => throw .wait

/-- Write bytes at a physical address under an attribute. A write in a device region is posted: its error response is
kept for R568. -/
def writePhys (x : Ctx) (md : ModeState) (pa attr : Nat) (bs : List Byte) : M Unit := do
  stallDrain x
  if hbmSize ≤ pa ∨ hbmSize < pa + bs.length then
    match ← liftP (fun p => p.coreBusWrite md x.lc x.pl x.accPid pa bs) with
    | .ok _ _ => pure ()
    | .err =>
      if devBase ≤ pa then
        modify (fun p => p.setCore x.lc { p.core x.lc with failed := (p.core x.lc).failed ++ [pa] })
      else trap (machineCheck x 1 pa 3)
    | .wait => throw .ext
  else if attr = 0 then
    let _ ← (lineParts pa bs.length).foldlM (fun (k : Nat) pc => do
      match ← liftP (fun p => p.cachedWrite x.u pc.1 x.accPid ((bs.drop k).take pc.2) x.nt) with
      | .ok => pure (k + pc.2)
      | .err _ => trap (machineCheck x 1 pc.1 3)
      | .waiting => throw .wait) 0
  else
    match ← liftP (fun p => p.ioWriteRange (x.u / 20) x.accPid pa bs) with
    | .err _ => trap (machineCheck x 1 pa 3)
    | .waiting => throw .wait
    | _ => pure ()

/-- Read `n` bytes at a virtual address. -/
def readMem (x : Ctx) (md : ModeState) (va n : Nat) : M (List Byte) :=
  (pieces va n).foldlM (fun bs pc => do
    let t ← translate { x with dry := false } pc.1 0
    let b ← readPhys x md t.pa t.attr pc.2
    pure (bs ++ b)) []

/-- The translations of a destination, with A and D written (R208): (physical address, attribute, length). -/
def openMem (x : Ctx) (va n : Nat) : M (List (Nat × Nat × Nat)) :=
  (pieces va n).mapM (fun pc => do
    let t ← translate { x with dry := false } pc.1 1
    pure (t.pa, t.attr, pc.2))

/-- Write bytes through opened translations. -/
def putMem (x : Ctx) (md : ModeState) (ts : List (Nat × Nat × Nat)) (bs : List Byte) : M Unit := do
  let _ ← ts.foldlM (fun (k : Nat) t => do
    writePhys x md t.1 t.2.1 ((bs.drop k).take t.2.2)
    pure (k + t.2.2)) 0
  pure ()

/-! ### Operands -/

/-- Where an operand lies. A register operand keeps the value that the register had when its specifier was reached. -/
inductive Loc where
  | reg (n : Nat) (val : Word)
  | mem (va : Nat)
  | lit (v : Nat)
  | acc (n : Nat)
  deriving DecidableEq, Repr

/-- A formed operand: its specifier and number, its place, the address of the pointer it read, and whether its access is
UC or in a device region. -/
structure Rand where
  spec : Spec
  num : Nat
  loc : Loc
  ptr : Option Nat
  dev : Bool
  deriving DecidableEq, Repr

/-- The circumstances of one instruction. -/
structure Env where
  x : Ctx
  md : ModeState
  d : Decoded
  /-- Address of byte 1, and of the next instruction. -/
  ip : Nat
  next : Word
  deriving DecidableEq, Repr

/-- An address modulo 2^64. -/
def wrap64 (i : Int) : Nat := (i % (2 ^ 64 : Int)).toNat

/-- The step of forms 6 and 7 (R115). -/
def Spec.step (s : Spec) : Nat := s.size

/-- A non-canonical address carried by form D or read as a pointer (R120). -/
def requireCanonical (x : Ctx) (va acc : Nat) : M Unit :=
  if canonical va then pure () else trap { Trap.of 0x10 with acc := acc, opnd := x.opnd, xaddr := va }

/-- The access kinds that an operand of a kind is checked for. `dst` tells that a decimal operand is a destination. -/
def kindAccs (k : Kind) (dst : Bool) : List Nat :=
  match k with
  | .v | .x => [0]
  | .d => [1]
  | .m => [0, 1]
  | .p => if dst then [1] else [0]
  | .a | .e => []

/-- The main access kind of an operand, for XINFO. -/
def mainAcc (k : Kind) (dst : Bool) : Nat := (kindAccs k dst).headD 0

/-- The operand is the target of JMP, CALL or B.cc, whose address is judged when the branch is taken (R120, R147). -/
def isTarget (op : Nat) (s : Spec) : Bool :=
  s.kind == .a && (op == 0x80 || op == 0x81 || decide (0x90 ≤ op ∧ op ≤ 0x9F))

/-- The address of a memory form, with the registers as forms 6 and 7 leave them, and the pointer that forms 8 and 9
read (R116, R117). -/
def formAddr (e : Env) (c : Core) (s : Spec) (num acc : Nat) : M (Nat × Core × Option Nat) := do
  let x := { e.x with opnd := num }
  let g := (c.gGet s.reg).toNat
  match s.form with
  | 6 => pure (g, c.gSet s.reg (BitVec.ofNat 64 (g + s.step)), none)
  | 7 =>
    let a := wrap64 ((g : Int) - s.step)
    pure (a, c.gSet s.reg (BitVec.ofNat 64 a), none)
  | 8 | 9 =>
    let pa := wrap64 (g + s.disp)
    let _ ← checkMem x pa 8 [0]
    let b ← readMem x e.md pa 8
    let a := leNat b
    if !isTarget e.d.op s then requireCanonical x a acc
    pure (a, c, some pa)
  | 0xA | 0xB =>
    let base := if s.form = 0xA then g else e.ip
    pure (wrap64 (base + s.disp + (c.gGet s.index).toNat * s.scale), c, none)
  | 0xD =>
    if !isTarget e.d.op s then requireCanonical x s.ext acc
    pure (s.ext, c, none)
  | 0xE => pure (wrap64 (e.ip + s.disp), c, none)
  | _ => pure (wrap64 (g + s.disp), c, none)

/-- A short literal at its size; for a floating-point operand the integer in that format (R120). -/
def literal (fp : Bool) (size n : Nat) : Nat :=
  if !fp then n
  else if n = 0 then 0
  else
    let k := Nat.log2 n
    if size = 4 then (127 + k) * 2 ^ 23 + (n - 2 ^ k) * 2 ^ (23 - k) else (1023 + k) * 2 ^ 52 + (n - 2 ^ k) * 2 ^ (52 - k)

/-- An atomic operand (R77, R146): it lies within one line, outside device regions and chain windows, and its attribute is
WB or UC. A permission fault comes before guards and stage-2 faults (R92). -/
def checkAtomic (x : Ctx) (va n : Nat) : M Bool := do
  let misal := { Trap.of 0x11 with acc := 1, opnd := x.opnd, xaddr := va, misal := true }
  let p ← get
  let r := (checkMem x va n [0, 1]).run.run p
  set r.2
  let cross := decide (64 < va % 64 + n)
  match r.1 with
  | .error (.trap t) => if cross && (t.code == 0x12 || t.stage == 1) then trap misal else throw (.trap t)
  | .error e => throw e
  | .ok dev =>
    if cross then trap misal
    else do
      let t ← translate { x with dry := true } va 1
      if devBase ≤ t.pa ∨ (0x8000000000000 ≤ t.pa ∧ t.pa < 0x9000000000000) ∨ 2 ≤ t.attr then trap { Trap.of 0x11 with acc := 1, opnd := x.opnd, xaddr := va }
      else pure dev

/-- Form one operand and check its access (R91, R92). `atomic` marks the operand of an atomic access; `dst` a decimal
destination; `fp` a floating-point operand. -/
def formOperand (e : Env) (c : Core) (s : Spec) (num : Nat) (atomic dst fp : Bool) : M (Rand × Core) := do
  let x := { e.x with opnd := num }
  match s.form with
  | 1 =>
    if s.kind = .e then pure ({ spec := s, num := num, loc := .acc s.reg, ptr := none, dev := false }, c)
    else pure ({ spec := s, num := num, loc := .reg s.reg (c.gGet s.reg), ptr := none, dev := false }, c)
  | 0xC => pure ({ spec := s, num := num, loc := .lit s.ext, ptr := none, dev := false }, c)
  | 0xF => pure ({ spec := s, num := num, loc := .lit (literal fp s.size s.reg), ptr := none, dev := false }, c)
  | _ =>
    let (a, c, ptr) ← formAddr e c s num (mainAcc s.kind dst)
    let dev ← (if s.kind = .a then pure false
      else if atomic then checkAtomic x a s.size
      else checkMem x a s.size (kindAccs s.kind dst))
    pure ({ spec := s, num := num, loc := .mem a, ptr := ptr, dev := dev }, c)

/-- What an instruction says of its operands: which are atomic, decimal destinations, floating point. -/
structure OpUse where
  atomic : Nat → Bool
  dst : Nat → Bool
  fp : Nat → Bool

/-- No special operands. -/
def OpUse.plain : OpUse := { atomic := fun _ => false, dst := fun _ => false, fp := fun _ => false }

/-- Form all operands in specifier order (R121). -/
def formOperands (e : Env) (u : OpUse) : List Spec → Nat → Core → M (List Rand × Core)
  | [], _, c => pure ([], c)
  | s :: t, n, c => do
    let (r, c) ← formOperand e c s n (u.atomic n) (u.dst n) (u.fp n)
    let (rs, c) ← formOperands e u t (n + 1) c
    pure (r :: rs, c)

/-- The context of operand `r`. -/
def Env.at (e : Env) (r : Rand) : Ctx := { e.x with opnd := r.num }

/-- The bytes of a source operand. -/
def readBytes (e : Env) (r : Rand) : M (List Byte) :=
  match r.loc with
  | .mem a => readMem (e.at r) e.md a r.spec.size
  | .reg _ v => pure (leBytes r.spec.size v.toNat)
  | .lit v => pure (leBytes r.spec.size v)
  | .acc _ => pure []

/-- The value of a source operand at its size. -/
def readVal (e : Env) (r : Rand) : M Nat := do
  let b ← readBytes e r
  pure (leNat b)

/-- A pending write: opened destination and bytes, or a register. -/
inductive Dest where
  | mem (x : Ctx) (ts : List (Nat × Nat × Nat)) (bs : List Byte)
  | reg (n : Nat) (v : Nat)
  deriving DecidableEq, Repr

/-- Open a destination for its bytes; a register write is zero-extended (R120). -/
def openDest (e : Env) (r : Rand) (bs : List Byte) : M Dest :=
  match r.loc with
  | .mem a => do
    let ts ← openMem (e.at r) a bs.length
    pure (.mem (e.at r) ts bs)
  | .reg n _ => pure (.reg n (leNat bs))
  | _ => pure (.reg 16 0)

/-- The destination lies in a chain window, whose writes are answered from outside (R20). -/
def Dest.chain : Dest → Bool
  | .mem _ ts _ => ts.any (fun t => decide (hbmSize ≤ t.1 ∧ t.1 < devBase))
  | .reg _ _ => false

/-- Carry out one pending write. -/
def Dest.put (md : ModeState) (d : Dest) (c : Core) : M Core :=
  match d with
  | .mem x ts bs => do putMem x md ts bs; pure c
  | .reg n v => pure (c.gSet n (BitVec.ofNat 64 v))

/-- What an access would answer, without making it. -/
def peek {α : Type} (m : M α) : M α := do
  let p ← get
  let r := m.run.run p
  match r.1 with
  | .ok a => pure a
  | .error (.trap t) => set r.2; trap t
  | .error st => set r.2; throw st

/-- A trap undoes every write made in `m` (R91). -/
def undoOnTrap {α : Type} (m : M α) : M α := do
  let p ← get
  let r := m.run.run p
  match r.1 with
  | .ok a => set r.2; pure a
  | .error (.trap t) => set p; trap t
  | .error st => set r.2; throw st

/-- Run `m`, handing back a trap that it raises. -/
def attempt {α : Type} (m : M α) : M (Except Trap α) := do
  let p ← get
  let r := m.run.run p
  set r.2
  match r.1 with
  | .ok a => pure (.ok a)
  | .error (.trap t) => pure (.error t)
  | .error st => throw st

/-- Carry out pending writes in order, those that wait for an answer first. A trap while writing undoes the writes of the
instruction (R91). -/
def commitDests (md : ModeState) (ds : List Dest) (c : Core) : M Core := do
  undoOnTrap ((ds.filter Dest.chain ++ ds.filter (fun (d : Dest) => !d.chain)).foldlM
    (fun (c : Core) (d : Dest) => d.put md c) c)

/-- Write one value of the operand's size. -/
def writeVal (e : Env) (r : Rand) (v : Nat) (c : Core) : M Core := do
  let d ← openDest e r (leBytes r.spec.size v)
  commitDests e.md [d] c

end Sys2Proof.Machine
end

