-- ==== Sys2Proof/Machine/CpuRun.lean ====
section
/-! DEFINITION. Running one Pelmund instruction: when a core executes, fetching and decoding, privilege, the order of
causes, elements of restartable instructions, and completion (R91, R92, R99, R100, R123, R126, R568). -/

namespace Sys2Proof.Machine

/-- What a step answers. -/
abbrev Out := Host.Outcome State Fault Refusal

/-- A step that changes the package. -/
def State.put (s : State) (p : Pkg) : State := { s with pkg := p }

/-- Logical cores execute in this mode and are not being stopped (R54, R55, R60). -/
def ModeState.coresRun (m : ModeState) : Bool :=
  (m.mode == .run || m.mode == .degraded) && m.trans.isNone

/-- Logical core `lc` executes (R10, R54, R62, R291, R399). An instruction that waits for an answer from outside completes
while the cores are being stopped (R60). -/
def Pkg.coreReady (p : Pkg) (md : ModeState) (lc : Nat) : Bool :=
  (md.coresRun || ((md.mode == .run || md.mode == .degraded) && (p.core lc).io != [])) && p.mapped lc && decide (p.lcpid lc < 128) && p.dieState (lcDie lc) == 2 &&
    !(p.unit (p.unitOf lc)).hung && !(p.unit (p.unitOf lc)).hard && (p.core lc).run == .executing

/-- The context of the accesses of an instruction. -/
def Pkg.ctx (p : Pkg) (lc : Nat) (d : Decoded) : Ctx :=
  let c := p.core lc
  { lc := lc, u := p.unitOf lc, pl := c.pl, pid := fld (c.crGet 0x18) 22 16, nt := d.nt, space := d.space && c.pl == 1,
    order := d.order, opnd := 3, dry := false }

/-- A decoded instruction with nothing in it, for accesses before decoding. -/
def Decoded.zero : Decoded :=
  { op := 0, lock := false, rep := false, order := false, nt := false, space := false, size := 8, ops := [], len := 0 }

/-! ### Fetch (R92 step 1, R189, R205) -/

/-- Read `len` instruction bytes at a physical address: their values come with the command; the read fills the caches and
finds poison and errors. -/
def fetchPhys (x : Ctx) (md : ModeState) (pa attr len : Nat) : M Unit := do
  let q ← get
  if q.pathStalled x.u 1 then throw .wait
  let bad := fun (cls : Nat) => ({ Trap.of 0x30 with acc := 2, xaddr := pa / 64 * 64, cls := cls } : Trap)
  if hbmSize ≤ pa then
    match ← liftP (fun p => p.coreBusRead md x.lc x.pl x.accPid pa len) with
    | .ok _ false => pure ()
    | .ok _ true => trap (bad 2)
    | .err => trap (bad 3)
    | .wait => throw .ext
  else if attr = 0 then
    match ← liftP (fun p => p.cachedRead x.u pa x.accPid len 1 false) with
    | .bytes _ false => pure ()
    | .bytes _ true => trap (bad 2)
    | .err _ => trap (bad 3)
    | .waiting => throw .wait
  else
    match ← liftP (fun p => p.ioReadRange (x.u / 20) x.accPid pa len) with
    | .done _ false => pure ()
    | .done _ true => trap (bad 2)
    | .err _ => trap (bad 3)
    | .waiting => throw .wait

/-- Fetch `n` instruction bytes: each page is translated and each line read when its first byte is reached. -/
def fetchBytes (x : Ctx) (md : ModeState) (ip n : Nat) : M Unit :=
  (List.range n).foldlM (fun (_ : Unit) i => do
    let va := (ip + i) % 2 ^ 64
    if i = 0 ∨ va % 64 = 0 then
      let t ← translate x va 2
      fetchPhys x md t.pa t.attr (min (n - i) (64 - va % 64))) ()

/-! ### The result of a body -/

/-- What the body of an instruction leaves: the registers, what there is to count, a completion trap or a call, and
whether answers from outside are kept for the rest of a restartable instruction. -/
structure Done where
  c : Core
  t : Tally
  call : Option (Trap × Nat)
  keepIo : Bool
  deriving DecidableEq, Repr

/-- The body of an instruction. `stop` is the number of elements after which something outside stops it. -/
abbrev Body := Env → Core → Option Nat → M Done

/-- Write the registers of a core, keeping what other agents did to it meanwhile. -/
def Pkg.putRegs (p : Pkg) (lc : Nat) (c : Core) : Pkg :=
  let o := p.core lc
  p.setCore lc { c with pend := o.pend, failed := o.failed, posted := o.posted, io := o.io, ioPos := o.ioPos,
                        held := o.held, fence := o.fence }

/-- The instruction has completed: IP at the next instruction, nothing partly done. -/
def Env.finish (e : Env) (c : Core) (t : Tally) : Done :=
  { c := { c with ip := e.next, part := 0 }, t := { t with done := true, order := e.d.order }, call := none, keepIo := false }

/-! ### Elements under REP (R99, R100, R126) -/

/-- One element: the registers it leaves and what it gives to count. -/
abbrev Elem := Env → Core → M (Core × Tally)

/-- How a run of elements ended. -/
inductive LoopEnd where
  | finished
  | stopped (keepIo : Bool)
  deriving DecidableEq, Repr

/-- Run elements while G13 is not 0. The error response of a posted write stops them at the next boundary (R568). Every element before a stop is complete; a trap leaves its registers in the package
with the progress of R100. -/
def repLoop (e : Env) (el : Elem) : Nat → Option Nat → Bool → Core → Tally → M (LoopEnd × Core × Tally)
  | 0, _, _, c, t => pure (.finished, c, t)
  | k + 1, stop, did, c, t => do
    let p ← get
    if stop = some 0 ∨ (p.core e.x.lc).failed ≠ [] then pure (.stopped false, c, t)
    else
      let r := (el e c).run.run p
      match r.1 with
      | .ok (c', t') =>
        set (r.2.setCore e.x.lc { r.2.core e.x.lc with io := [], ioPos := 0 })
        let c' := { c'.gSet 13 (c'.gGet 13 - 1) with part := e.d.len }
        repLoop e el k (stop.map (· - 1)) true c' (t.add { t' with elems := t'.elems + 1 })
      | .error (.trap tr) =>
        let q := r.2.putRegs e.x.lc { c with part := e.d.len }
        set (if did then q.count e.x.lc e.x.pl t else q)
        trap tr
      | .error .wait | .error .again =>
        set p
        if did then pure (.stopped false, c, t) else throw .wait
      | .error .ext =>
        set r.2
        if did then pure (.stopped true, c, t) else throw .ext

/-- A body made of one element, repeated under REP. -/
def repBody (el : Elem) : Body := fun e c stop => do
  if e.d.rep then
    let (how, c, t) ← repLoop e el (c.gGet 13).toNat stop false c Tally.zero
    match how with
    | .finished => pure (e.finish c t)
    | .stopped k => pure { c := c, t := t, call := none, keepIo := k }
  else
    let (c, t) ← el e c
    pure (e.finish c t)

/-- A body that completes entirely or not at all. -/
def onceBody (el : Elem) : Body := fun e c _ => do
  let (c, t) ← el e c
  pure (e.finish c t)

/-! ### Counting accesses (R157) -/

/-- The operand is read, is written. -/
def Rand.reads (r : Rand) (dst : Bool) : Bool :=
  match r.spec.kind with | .v | .x | .m => true | .p => !dst | _ => false
def Rand.writes (r : Rand) (dst : Bool) : Bool :=
  match r.spec.kind with | .d | .m => true | .p => dst | _ => false

/-- The address of a memory operand. -/
def Rand.va (r : Rand) : List Nat := match r.loc with | .mem a => [a] | _ => []

/-- What the accesses of formed operands give to count. -/
def tallyRands (cls : Nat) (rs : List Rand) (dst : Nat → Bool) : Tally :=
  let loads := rs.flatMap (fun r =>
    (match r.ptr with | some a => [a] | none => []) ++ (if r.reads (dst r.num) then r.va else []))
  let stores := rs.flatMap (fun r => if r.writes (dst r.num) then r.va else [])
  let devs := rs.flatMap (fun r => if r.dev then (if r.reads (dst r.num) then r.va else []) ++
    (if r.writes (dst r.num) then r.va else []) else [])
  { Tally.zero with cls := cls, loads := loads, stores := stores, devs := devs }

/-! ### One instruction -/

/-- Take the machine check of a posted write that got an error response (R568). It ends a WAITF suspension as an interrupt
does (DEDUCED, log entry 113). -/
def Pkg.takePosted (p : Pkg) (lc pa : Nat) : Pkg :=
  let c := p.core lc
  let t := { Trap.of 0x31 with acc := 1, xaddr := pa, cls := 3 }
  let p := p.setCore lc { c.endWait with failed := c.failed.erase pa }
  (p.takeTrap lc t c.ip 0 c.rest 0x620).count lc c.pl { Tally.zero with traps := 1 }

/-- End an instruction that stopped: a trap is taken, a wait leaves no effect, an answer from outside is awaited. -/
def stopInstr (s : State) (lc : Nat) (ilen : Nat) (p : Pkg) (st : Stop) : State :=
  match st with
  | .trap t =>
    let c := s.pkg.core lc
    let p := p.takeTrap lc t c.ip ilen ((p.core lc).part != 0 || pswRP c.psw) (t.code * 32)
    s.put (p.count lc c.pl { Tally.zero with traps := 1 })
  | .wait | .again => s
  | .ext => s.put (p.setCore lc { p.core lc with ioPos := 0 })

/-- The unit of a core has made progress in this frame (R291, R429). -/
def Pkg.noteProgress (p : Pkg) (lc : Nat) : Pkg :=
  let u := p.unitOf lc
  if (p.unit u).progress then p else p.setUnit u { p.unit u with progress := true }

/-- The length that XINFO[ILEN] reports for a cause after completion: that of a call, and 0 for a completion trap, whose saved
IP is the next instruction, which is not decoded (R93; DEDUCED, log entry 105). -/
def Trap.endLen (t : Trap) (ilen : Nat) : Nat := if t.code = 0x22 then 0 else ilen

/-- End an instruction that completed or stopped at an element boundary. -/
def endInstr (s : State) (lc : Nat) (ilen : Nat) (p : Pkg) (d : Done) : State :=
  let pl := (s.pkg.core lc).pl
  let p := p.putRegs lc d.c
  let p := p.setCore lc { p.core lc with io := if d.keepIo then (p.core lc).io else [], ioPos := 0, held := none }
  let p := (p.count lc pl d.t).noteProgress lc
  match d.call with
  | none => s.put p
  | some (t, off) =>
    s.put ((p.takeTrap lc t d.c.ip (t.endLen ilen) false off).count lc pl { Tally.zero with traps := 1 })

/-- Run a decoded instruction after its bytes are fetched: privilege, then the body (R92). -/
def runDecoded (priv : Decoded → Nat → Option Trap) (body : Body) (e : Env) (c : Core) (stop : Option Nat) : M Done := do
  if e.d.space && c.pl == 0 then trap (Trap.of 0x08)
  else
    match priv e.d c.pl with
    | some t => trap t
    | none => body e c stop

/-- The instruction must wait for accesses made before it: ORDER stands on it or on the one before (R188). -/
def Core.mustWait (c : Core) (order : Bool) : Bool := (order || c.fence) && c.posted != []

/-- An instruction begins: it holds back the next one when it carries ORDER (R188). -/
def Pkg.beginInstr (p : Pkg) (lc : Nat) (order : Bool) : Pkg := p.setCore lc { p.core lc with fence := order }

/-- One Pelmund instruction of logical core `lc` (R92, R122, R123). `row` says which opcodes the command's row covers. -/
def runCpu (lc : Nat) (f : Fetch) (mn : String) (row : Nat → Bool) (priv : Decoded → Nat → Option Trap) (body : Body)
    (s : State) : Out :=
  let p := s.pkg
  if !p.coreReady s.mode lc then .next s
  else
    match (if (p.core lc).io = [] then (p.core lc).failed else []) with
    | pa :: _ => .next (s.put (p.takePosted lc pa))
    | [] =>
      let c := p.core lc
      let ip := c.ip.toNat
      match decodePelmund f.code with
      | .ok d =>
        if !row d.op then .refused (.illFormed mn)
        else if c.mustWait d.order then .next s
        else
          let p := p.beginInstr lc d.order
          let x := p.ctx lc d
          let e : Env := { x := x, md := s.mode, d := d, ip := ip, next := c.ip + BitVec.ofNat 64 d.len }
          let r := (fetchBytes x s.mode ip d.len).run.run p
          match r.1 with
          | .error st => .next (stopInstr s lc 0 r.2 st)
          | .ok _ =>
            let r := (runDecoded priv body e c f.stop).run.run r.2
            match r.1 with
            | .ok dn => .next (endInstr s lc d.len r.2 dn)
            | .error st => .next (stopInstr s lc d.len r.2 st)
      | .error er =>
        if (match er.op with | some op => !row op | none => false) then .refused (.illFormed mn)
        else
          let x := p.ctx lc Decoded.zero
          let r := (fetchBytes x s.mode ip (er.needed f.code)).run.run (p.beginInstr lc false)
          match r.1, er with
          | .error st, _ => .next (stopInstr s lc 0 r.2 st)
          | .ok _, .fault code _ _ => .next (stopInstr s lc 0 r.2 (.trap (Trap.of code)))
          | .ok _, .short _ => .refused (.illFormed mn)

/-- No privilege check. -/
def anyLevel : Decoded → Nat → Option Trap := fun _ _ => none

/-- One opcode. -/
def op1 (n : Nat) : Nat → Bool := fun op => op == n

end Sys2Proof.Machine
end

