-- ==== Sys2Proof/Machine/Binary.lean ====
section
/-! DEFINITION. Binary arithmetic and logic (R127 to R130), and the atomic read-modify-write that LOCK uses (R128,
R146). -/

namespace Sys2Proof.Machine

/-! ### Atomic accesses (R146) -/

/-- One atomic access to the memory operand `r`: `f` gives the new value from the old, none for no store. `iop`,
`operand` and `carry` are what an uncached access sends to the home (R233). It answers the old value; an address that no memory has gets the error
response of a read (R18, R23). -/
def atomicUpdate (e : Env) (r : Rand) (iop : Nat) (operand : List Byte) (carry : Bool) (f : Nat → Option Nat) : M Nat := do
  let x := e.at r
  let n := r.spec.size
  match r.loc with
  | .mem a =>
    let t ← translate { x with dry := false } a 0
    if t.attr = 0 ∨ hbmSize ≤ t.pa then
      let b ← readPhys x e.md t.pa t.attr n
      match f (leNat b) with
      | some v =>
        let t ← translate { x with dry := false } a 1
        writePhys x e.md t.pa t.attr (leBytes n v)
      | none => pure ()
      pure (leNat b)
    else
      stallDrain x
      match ← liftP (fun p => p.ioAtom (x.u / 20) x.accPid t.pa n iop operand carry) with
      | .done b false =>
        let old := leNat (b.take n)
        if (f old).isSome then
          let _ ← translate { x with dry := false } a 1
        pure old
      | .done _ true => trap (machineCheck x 1 (t.pa / 64 * 64) 2)
      | .err _ => trap (machineCheck x 1 t.pa 3)
      | .waiting => throw .wait
  | .reg _ v => pure (v.toNat % 2 ^ (8 * n))
  | _ => pure 0

/-! ### Elements -/

/-- The prefix LOCK makes operand number `k` atomic. -/
def lockUse (e : Env) (k : Nat) : OpUse := { OpUse.plain with atomic := fun i => e.d.lock && i == k }

/-- Three operands, op2 = f op0 op1; under LOCK two, op1 = f op1 op0 as one atomic access (R128). `iop` is the operation
of R233; `useC` tells that the flag C comes in. -/
def bin3Elem (iop : Nat) (useC : Bool) (f : Nat → Nat → Nat → Bool → BinRes) : Elem := fun e c => do
  let n := 8 * e.d.size
  let cin := useC && pswC c.psw
  let (rs, c) ← formOperands e (lockUse e 1) e.d.ops 0 c
  match rs with
  | [a, b, d] =>
    let va ← readVal e a
    let vb ← readVal e b
    let r := f n va vb cin
    let c ← writeVal e d r.r c
    pure ({ c with psw := r.setFlags c.psw }, tallyRands 0x11 rs (fun _ => false))
  | [a, m] =>
    let va ← readVal e a
    let old ← atomicUpdate e m iop (leBytes e.d.size va) cin (fun o => some (f n o va cin).r)
    pure ({ c with psw := (f n old va cin).setFlags c.psw }, tallyRands 0x11 rs (fun _ => false))
  | _ => pure (c, Tally.zero)

/-- Two operands, op1 = f op0. -/
def bin2Elem (f : Nat → Nat → BinRes) : Elem := fun e c => do
  let (rs, c) ← formOperands e OpUse.plain e.d.ops 0 c
  match rs with
  | [a, d] =>
    let va ← readVal e a
    let r := f (8 * e.d.size) va
    let c ← writeVal e d r.r c
    pure ({ c with psw := r.setFlags c.psw }, tallyRands 0x11 rs (fun _ => false))
  | _ => pure (c, Tally.zero)

/-- One operand, op0 = f op0, atomic under LOCK. -/
def bin1Elem (iop : Nat) (f : Nat → Nat → BinRes) : Elem := fun e c => do
  let n := 8 * e.d.size
  let (rs, c) ← formOperands e (lockUse e 0) e.d.ops 0 c
  match rs with
  | [m] =>
    if e.d.lock then
      let old ← atomicUpdate e m iop (leBytes e.d.size 1) false (fun o => some (f n o).r)
      pure ({ c with psw := (f n old).setFlags c.psw }, tallyRands 0x11 rs (fun _ => false))
    else
      let v ← readVal e m
      let r := f n v
      let c ← writeVal e m r.r c
      pure ({ c with psw := r.setFlags c.psw }, tallyRands 0x11 rs (fun _ => false))
  | _ => pure (c, Tally.zero)

/-- Two operands, flags only. -/
def cmpElem (f : Nat → Nat → Nat → BinRes) : Elem := fun e c => do
  let (rs, c) ← formOperands e OpUse.plain e.d.ops 0 c
  match rs with
  | [a, b] =>
    let va ← readVal e a
    let vb ← readVal e b
    pure ({ c with psw := (f (8 * e.d.size) va vb).setFlags c.psw }, tallyRands 0x11 rs (fun _ => false))
  | _ => pure (c, Tally.zero)

/-- Three operands with a divisor: divide by zero (R129) comes after the reads and before the write (R92). -/
def divElem (f : Nat → Nat → Nat → BinRes) : Elem := fun e c => do
  let (rs, c) ← formOperands e OpUse.plain e.d.ops 0 c
  match rs with
  | [a, b, d] =>
    let va ← readVal e a
    let vb ← readVal e b
    if vb = 0 then trap (Trap.of 0x21)
    else
      let r := f (8 * e.d.size) va vb
      let c ← writeVal e d r.r c
      pure ({ c with psw := r.setFlags c.psw }, tallyRands 0x11 rs (fun _ => false))
  | _ => pure (c, Tally.zero)

/-- A shift or rotate: op2 = op0 by the byte op1. -/
def shiftElem (f : Nat → Nat → Nat → BinRes) : Elem := fun e c => do
  let (rs, c) ← formOperands e OpUse.plain e.d.ops 0 c
  match rs with
  | [a, k, d] =>
    let va ← readVal e a
    let vk ← readVal e k
    let r := f (8 * e.d.size) va vk
    let c ← writeVal e d r.r c
    pure ({ c with psw := r.setFlags c.psw }, tallyRands 0x11 rs (fun _ => false))
  | _ => pure (c, Tally.zero)

/-! ### Instructions -/

/-- ADD. -/
def execAdd (lc : Lc) (f : Fetch) (s : State) : Out :=
  runCpu lc f "ADD" (op1 0x10) anyLevel (repBody (bin3Elem 2 false (fun n a b _ => addFlags n a b false))) s
/-- SUB. -/
def execSub (lc : Lc) (f : Fetch) (s : State) : Out :=
  runCpu lc f "SUB" (op1 0x11) anyLevel (repBody (bin3Elem 3 false (fun n a b _ => subFlags n a b false))) s
/-- ADC. -/
def execAdc (lc : Lc) (f : Fetch) (s : State) : Out :=
  runCpu lc f "ADC" (op1 0x12) anyLevel (repBody (bin3Elem 2 true addFlags)) s
/-- SBB. -/
def execSbb (lc : Lc) (f : Fetch) (s : State) : Out :=
  runCpu lc f "SBB" (op1 0x13) anyLevel (repBody (bin3Elem 3 true subFlags)) s
/-- MUL. -/
def execMul (lc : Lc) (f : Fetch) (s : State) : Out :=
  runCpu lc f "MUL" (op1 0x14) anyLevel (onceBody (bin3Elem 0 false (fun n a b _ => mulFlags n a b))) s
/-- MULH. -/
def execMulh (lc : Lc) (f : Fetch) (s : State) : Out :=
  runCpu lc f "MULH" (op1 0x15) anyLevel (onceBody (bin3Elem 0 false (fun n a b _ => mulhFlags n a b))) s
/-- MULHU. -/
def execMulhu (lc : Lc) (f : Fetch) (s : State) : Out :=
  runCpu lc f "MULHU" (op1 0x16) anyLevel (onceBody (bin3Elem 0 false (fun n a b _ => mulhuFlags n a b))) s
/-- DIV. -/
def execDiv (lc : Lc) (f : Fetch) (s : State) : Out :=
  runCpu lc f "DIV" (op1 0x17) anyLevel (onceBody (divElem divFlags)) s
/-- DIVU. -/
def execDivu (lc : Lc) (f : Fetch) (s : State) : Out :=
  runCpu lc f "DIVU" (op1 0x18) anyLevel (onceBody (divElem divuFlags)) s
/-- REM. -/
def execRem (lc : Lc) (f : Fetch) (s : State) : Out :=
  runCpu lc f "REM" (op1 0x19) anyLevel (onceBody (divElem remFlags)) s
/-- REMU. -/
def execRemu (lc : Lc) (f : Fetch) (s : State) : Out :=
  runCpu lc f "REMU" (op1 0x1A) anyLevel (onceBody (divElem remuFlags)) s
/-- NEG. -/
def execNeg (lc : Lc) (f : Fetch) (s : State) : Out :=
  runCpu lc f "NEG" (op1 0x1B) anyLevel (onceBody (bin2Elem (fun n a => subFlags n 0 a false))) s
/-- INC. -/
def execInc (lc : Lc) (f : Fetch) (s : State) : Out :=
  runCpu lc f "INC" (op1 0x1C) anyLevel (onceBody (bin1Elem 2 (fun n a => addFlags n a 1 false))) s
/-- DEC. -/
def execDec (lc : Lc) (f : Fetch) (s : State) : Out :=
  runCpu lc f "DEC" (op1 0x1D) anyLevel (onceBody (bin1Elem 3 (fun n a => subFlags n a 1 false))) s
/-- CMP. -/
def execCmp (lc : Lc) (f : Fetch) (s : State) : Out :=
  runCpu lc f "CMP" (op1 0x1E) anyLevel (onceBody (cmpElem (fun n a b => subFlags n a b false))) s
/-- TEST. -/
def execTest (lc : Lc) (f : Fetch) (s : State) : Out :=
  runCpu lc f "TEST" (op1 0x1F) anyLevel (onceBody (cmpElem (fun n a b => logicFlags n (a &&& b)))) s
/-- AND. -/
def execAnd (lc : Lc) (f : Fetch) (s : State) : Out :=
  runCpu lc f "AND" (op1 0x20) anyLevel (repBody (bin3Elem 4 false (fun n a b _ => logicFlags n (a &&& b)))) s
/-- OR. -/
def execOr (lc : Lc) (f : Fetch) (s : State) : Out :=
  runCpu lc f "OR" (op1 0x21) anyLevel (repBody (bin3Elem 5 false (fun n a b _ => logicFlags n (a ||| b)))) s
/-- XOR. -/
def execXor (lc : Lc) (f : Fetch) (s : State) : Out :=
  runCpu lc f "XOR" (op1 0x22) anyLevel (repBody (bin3Elem 6 false (fun n a b _ => logicFlags n (a ^^^ b)))) s
/-- ANDN: op0 and not op1. -/
def execAndn (lc : Lc) (f : Fetch) (s : State) : Out :=
  runCpu lc f "ANDN" (op1 0x23) anyLevel (repBody (bin3Elem 7 false (fun n a b _ => logicFlags n (a &&& notBits n b)))) s
/-- NOT. -/
def execNot (lc : Lc) (f : Fetch) (s : State) : Out :=
  runCpu lc f "NOT" (op1 0x24) anyLevel (onceBody (bin2Elem (fun n a => logicFlags n (notBits n a)))) s
/-- SHL. -/
def execShl (lc : Lc) (f : Fetch) (s : State) : Out :=
  runCpu lc f "SHL" (op1 0x25) anyLevel (onceBody (shiftElem shlFlags)) s
/-- SHR. -/
def execShr (lc : Lc) (f : Fetch) (s : State) : Out :=
  runCpu lc f "SHR" (op1 0x26) anyLevel (onceBody (shiftElem shrFlags)) s
/-- SAR. -/
def execSar (lc : Lc) (f : Fetch) (s : State) : Out :=
  runCpu lc f "SAR" (op1 0x27) anyLevel (onceBody (shiftElem sarFlags)) s
/-- ROL. -/
def execRol (lc : Lc) (f : Fetch) (s : State) : Out :=
  runCpu lc f "ROL" (op1 0x28) anyLevel (onceBody (shiftElem rolFlags)) s
/-- ROR. -/
def execRor (lc : Lc) (f : Fetch) (s : State) : Out :=
  runCpu lc f "ROR" (op1 0x29) anyLevel (onceBody (shiftElem rorFlags)) s
/-- BSWAP. -/
def execBswap (lc : Lc) (f : Fetch) (s : State) : Out :=
  runCpu lc f "BSWAP" (op1 0x2A) anyLevel (onceBody (bin2Elem bswapFlags)) s
/-- POPC. -/
def execPopc (lc : Lc) (f : Fetch) (s : State) : Out :=
  runCpu lc f "POPC" (op1 0x2B) anyLevel (onceBody (bin2Elem popcFlags)) s
/-- CLZ. -/
def execClz (lc : Lc) (f : Fetch) (s : State) : Out :=
  runCpu lc f "CLZ" (op1 0x2C) anyLevel (onceBody (bin2Elem clzFlags)) s
/-- CTZ. -/
def execCtz (lc : Lc) (f : Fetch) (s : State) : Out :=
  runCpu lc f "CTZ" (op1 0x2D) anyLevel (onceBody (bin2Elem ctzFlags)) s

end Sys2Proof.Machine
end

