-- ==== Sys2Proof/Machine/Atomics.lean ====
section
/-! DEFINITION. CAS and XADD (R145, R146). -/

namespace Sys2Proof.Machine

/-- Operand 0 of an atomic instruction lies in memory cached by WB. -/
def isWb (r : Rand) : Bool := match r.loc with | .mem _ => !r.dev | _ => false

/-- CAS op0, op1 (expected), op2 (new). A miss stands once operand 0 was read, also while the write of operand 1 waits for
its answer (DEDUCED, log entry 118). -/
def execCas (lc : Lc) (f : Fetch) (s : State) : Out :=
  runCpu lc f "CAS" (op1 0x70) anyLevel (onceBody (fun e c => do
    let n := e.d.size
    let (rs, c) ← formOperands e { OpUse.plain with atomic := (· == 0) } e.d.ops 0 c
    match rs with
    | [a, b, v] =>
      -- a poisoned operand 0 comes first (R92)
      if isWb a then
        let _ ← readVal e a
      let want ← readVal e b
      let new ← readVal e v
      let p ← get
      -- a miss that was already decided keeps what its one atomic access read
      let old ← (match (p.core e.x.lc).held with
        | some o => pure o
        | none => atomicUpdate e a 1 (leBytes n want ++ leBytes n new) false (fun o => if o = want then some new else none))
      let r := subFlags (8 * n) old want false
      let hit := old == want
      let dests ← (if hit then (match a.loc with
          | .reg k _ => pure [Dest.reg k new]
          | _ => pure [])
        else do
          let d ← openDest e b (leBytes n old)
          pure [d])
      modify (fun p => p.setCore e.x.lc { p.core e.x.lc with held := if hit then none else some old })
      let c ← commitDests e.md dests c
      pure ({ c with psw := r.setFlags c.psw }, tallyRands 0x16 rs (fun _ => false))
    | _ => pure (c, Tally.zero))) s

/-- XADD op0, op1. With operand 1 in a chain window its write is answered first (DEDUCED, log entry 118). -/
def execXadd (lc : Lc) (f : Fetch) (s : State) : Out :=
  runCpu lc f "XADD" (op1 0x71) anyLevel (onceBody (fun e c => do
    let n := e.d.size
    let (rs, c) ← formOperands e { OpUse.plain with atomic := (· == 0) } e.d.ops 0 c
    match rs with
    | [a, b] =>
      if isWb a then
        let _ ← readVal e a
      let add ← readVal e b
      let db ← openDest e b (leBytes n 0)
      let upd := atomicUpdate e a 2 (leBytes n add) false (fun o => some ((o + add) % 2 ^ (8 * n)))
      let dest := fun (old : Nat) => match db with
        | .mem x ts _ => Dest.mem x ts (leBytes n old)
        | .reg k _ => Dest.reg k old
      -- a chain window answers the write of operand 1 before operand 0 is written
      if db.chain then
        let old ← peek upd
        let _ ← commitDests e.md [dest old] c
      let (old, c) ← undoOnTrap (do
        let old ← upd
        let da := match a.loc with | .reg k _ => [Dest.reg k (addFlags (8 * n) old add false).r] | _ => []
        let c ← commitDests e.md (if db.chain then da else da ++ [dest old]) c
        pure (old, c))
      let r := addFlags (8 * n) old add false
      pure ({ c with psw := r.setFlags c.psw }, tallyRands 0x16 rs (fun _ => false))
    | _ => pure (c, Tally.zero))) s

end Sys2Proof.Machine
end

