-- ==== Sys2Proof/Machine/Control.lean ====
section
/-! DEFINITION. Control flow, calls, RETX and WAITF (R83, R98, R147, R148), interrupt delivery (R103) and the machine
check of a posted write (R568). -/

namespace Sys2Proof.Machine

/-- A branch target must be canonical (R147). -/
def checkTarget (a : Nat) : M Unit :=
  if canonical a then pure () else trap { Trap.of 0x10 with acc := 2, opnd := 0, xaddr := a }

/-- JMP. -/
def execJmp (lc : Lc) (f : Fetch) (s : State) : Out :=
  runCpu lc f "JMP" (op1 0x80) anyLevel (fun e c _ => do
    let (rs, c) ← formOperands e OpUse.plain e.d.ops 0 c
    match rs with
    | [a] =>
      let t := a.va.headD 0
      checkTarget t
      let d := e.finish c { tallyRands 0x17 rs (fun _ => false) with branch := 1 }
      pure { d with c := { d.c with ip := BitVec.ofNat 64 t } }
    | _ => pure (e.finish c Tally.zero)) s

/-- CALL: the address of the next instruction to operand 1, then IP = target. -/
def execCall (lc : Lc) (f : Fetch) (s : State) : Out :=
  runCpu lc f "CALL" (op1 0x81) anyLevel (fun e c _ => do
    match e.d.ops with
    | [sa, sb] =>
      let (a, c) ← formOperand e c sa 0 false false false
      let t := a.va.headD 0
      checkTarget t
      let (b, c) ← formOperand e c sb 1 false false false
      let c ← writeVal e b e.next.toNat c
      let d := e.finish c { tallyRands 0x17 [a, b] (fun _ => false) with branch := 1 }
      pure { d with c := { d.c with ip := BitVec.ofNat 64 t } }
    | _ => pure (e.finish c Tally.zero)) s

/-- B.cc. The pointer of form 8 or 9 is read whether or not the branch is taken (DEDUCED, log entry 115). -/
def execBCc (lc : Lc) (f : Fetch) (s : State) : Out :=
  runCpu lc f "B_CC" (fun op => decide (0x90 ≤ op ∧ op ≤ 0x9F)) anyLevel (fun e c _ => do
    let (rs, c) ← formOperands e OpUse.plain e.d.ops 0 c
    match rs with
    | [a] =>
      let d := e.finish c { tallyRands 0x17 rs (fun _ => false) with branch := 1 }
      if condHolds c.psw (e.d.op % 16) then
        let t := a.va.headD 0
        checkTarget t
        pure { d with c := { d.c with ip := BitVec.ofNat 64 t } }
      else pure d
    | _ => pure (e.finish c Tally.zero)) s

/-- SET.cc. -/
def execSetCc (lc : Lc) (f : Fetch) (s : State) : Out :=
  runCpu lc f "SET_CC" (fun op => decide (0xA0 ≤ op ∧ op ≤ 0xAF)) anyLevel (onceBody (fun e c => do
    let (rs, c) ← formOperands e OpUse.plain e.d.ops 0 c
    match rs with
    | [a] =>
      let c ← writeVal e a (condHolds c.psw (e.d.op % 16)).toNat c
      pure (c, tallyRands 0x17 rs (fun _ => false))
    | _ => pure (c, Tally.zero))) s

/-- SCALL and MCALL: the call is taken as a synchronous cause after the operand is read (R83, R95, R147). -/
def callBody (code : Nat) : Body := fun e c _ => do
  let (rs, c) ← formOperands e OpUse.plain e.d.ops 0 c
  match rs with
  | [a] =>
    let v ← readVal e a
    let d := e.finish c (tallyRands 0x17 rs (fun _ => false))
    pure { d with call := some ({ Trap.of code with xaddr := v }, 0xC00) }
  | _ => pure (e.finish c Tally.zero)

/-- SCALL; at M it raises privilege. -/
def execScall (lc : Lc) (f : Fetch) (s : State) : Out :=
  runCpu lc f "SCALL" (op1 0x82) (fun _ pl => if pl = 2 then some (Trap.of 0x08) else none) (callBody 0x50) s

/-- MCALL; at U it raises privilege. -/
def execMcall (lc : Lc) (f : Fetch) (s : State) : Out :=
  runCpu lc f "MCALL" (op1 0x83) (fun _ pl => if pl = 0 then some (Trap.of 0x08) else none) (callBody 0x51) s

/-- RETX; at U, or with a saved PSW that it refuses, it raises privilege (R98). -/
def execRetx (lc : Lc) (f : Fetch) (s : State) : Out :=
  runCpu lc f "RETX" (op1 0x84) (fun _ pl => if pl = 0 then some (Trap.of 0x08) else none) (fun e c _ =>
    match c.retx with
    | none => trap (Trap.of 0x08)
    | some c' =>
      let d := e.finish c { Tally.zero with cls := 0x17, branch := 1 }
      pure { d with c := { c' with part := 0 } }) s

/-- WAITF: with n 0 it completes and sets Z; otherwise the core suspends for n ticks (R148). -/
def execWaitf (lc : Lc) (f : Fetch) (s : State) : Out :=
  runCpu lc f "WAITF" (op1 0x85) anyLevel (fun e c _ => do
    let (rs, c) ← formOperands e OpUse.plain e.d.ops 0 c
    match rs with
    | [a] =>
      let n ← readVal e a
      let d := e.finish c (tallyRands 0x17 rs (fun _ => false))
      if n = 0 then pure { d with c := { d.c with psw := setBit d.c.psw 1 true } }
      else pure { d with c := { d.c with run := .waiting n } }
    | _ => pure (e.finish c Tally.zero)) s

/-- The core may leave WAITF: its mode and die let it execute. -/
def Pkg.coreLive (p : Pkg) (md : ModeState) (lc : Nat) : Bool :=
  md.coresRun && p.mapped lc && decide (p.lcpid lc < 128) && p.dieState (lcDie lc) == 2 &&
    !(p.unit (p.unitOf lc)).hung

/-- WAITF_RESUME: the target tick has passed; Z is set and execution goes on (R148). -/
def execWaitfResume (lc : Lc) (s : State) : Out :=
  let c := s.pkg.core lc
  match c.run with
  | .waiting 0 =>
    if s.pkg.coreLive s.mode lc then .next (s.put (s.pkg.setCore lc { c with run := .executing, psw := setBit c.psw 1 true }))
    else .next s
  | _ => .next s

/-- The core stands where an interrupt or a posted machine check can be taken: between instructions, at an element
boundary or in WAITF. An instruction that waits for an answer from outside completes first (R99, R107). -/
def Pkg.interruptible (p : Pkg) (md : ModeState) (lc : Nat) : Bool :=
  p.coreLive md lc && (p.core lc).io == [] && (match (p.core lc).run with | .executing => true | .waiting _ => true | _ => false)

/-- INTERRUPT_DELIVERY: the highest deliverable INTID is taken (R95, R103, R107). -/
def execInterruptDelivery (lc : Lc) (s : State) : Out :=
  let p := s.pkg
  let c := p.core lc
  if !p.interruptible s.mode lc then .next s
  else
    match c.nextInt with
    | none => .next s
    | some i => .next (s.put ((p.setCore lc (c.interrupt i)).count lc c.pl { Tally.zero with traps := 1 }))

/-- DEVICE_WRITE_MACHINE_CHECK: the error response of the posted write at `pa` is taken (R568). -/
def execDeviceWriteMachineCheck (lc : Lc) (pa : Nat) (s : State) : Out :=
  let p := s.pkg
  if p.interruptible s.mode lc ∧ (p.core lc).failed.contains pa then .next (s.put (p.takePosted lc pa))
  else .next s

/-- ILLEGAL_OPCODE: a reserved opcode raises illegal opcode (R112, R113). -/
def execIllegalOpcode (lc : Lc) (f : Fetch) (s : State) : Out :=
  runCpu lc f "ILLEGAL_OPCODE" (fun op => !opDefined op) anyLevel (fun e c _ => pure (e.finish c Tally.zero)) s

end Sys2Proof.Machine
end

