-- ==== Sys2Proof/Machine/DecimalOps.lean ====
section
/-! DEFINITION. Decimal arithmetic (R131 to R134) and EDIT (R135, R136). -/

namespace Sys2Proof.Machine

/-- The decimal value of the bytes of operand `r`, or decimal data (R131). -/
def decOperand (r : Rand) (bs : List Byte) : M Int :=
  match decVal bs with
  | some v => pure v
  | none => trap { Trap.of 0x20 with opnd := r.num }

/-- Operand `k` is a decimal destination. -/
def decUse (k : Nat) : OpUse := { OpUse.plain with dst := fun i => i == k }

/-- Write a decimal result with its flags; with DVE a set DV ends in the completion trap 0x22 (R132). -/
def decDone (e : Env) (rs : List Rand) (d : Rand) (v : Int) (c : Core) : M Done := do
  let r := decFit d.spec.size v
  let w ← openDest e d r.bytes
  let c ← commitDests e.md [w] c
  let c := { c with psw := decFlags c.psw r }
  let t := { tallyRands 0x12 rs (fun i => i == d.num) with dv := r.dv.toNat }
  let fin := e.finish c t
  if r.dv && pswDVE c.psw then pure { fin with call := some (Trap.of 0x22, 0x440) } else pure fin

/-- Two decimal sources and a destination; `f` answers none for a zero divisor. -/
def dec3Body (f : Int → Int → Option Int) : Body := fun e c _ => do
  let (rs, c) ← formOperands e (decUse 2) e.d.ops 0 c
  match rs with
  | [a, b, d] =>
    let ba ← readBytes e a
    let bb ← readBytes e b
    let va ← decOperand a ba
    let vb ← decOperand b bb
    match f va vb with
    | some v => decDone e rs d v c
    | none => trap (Trap.of 0x21)
  | _ => pure (e.finish c Tally.zero)

/-- DADD. -/
def execDadd (lc : Lc) (f : Fetch) (s : State) : Out :=
  runCpu lc f "DADD" (op1 0x30) anyLevel (dec3Body (fun a b => some (a + b))) s
/-- DSUB. -/
def execDsub (lc : Lc) (f : Fetch) (s : State) : Out :=
  runCpu lc f "DSUB" (op1 0x31) anyLevel (dec3Body (fun a b => some (a - b))) s
/-- DMUL. -/
def execDmul (lc : Lc) (f : Fetch) (s : State) : Out :=
  runCpu lc f "DMUL" (op1 0x32) anyLevel (dec3Body (fun a b => some (a * b))) s
/-- DDIV: truncated toward zero. -/
def execDdiv (lc : Lc) (f : Fetch) (s : State) : Out :=
  runCpu lc f "DDIV" (op1 0x33) anyLevel (dec3Body (fun a b => if b = 0 then none else some (a.tdiv b))) s

/-- DCMP: Z if equal, N if op0 < op1; C, V and DV cleared. -/
def execDcmp (lc : Lc) (f : Fetch) (s : State) : Out :=
  runCpu lc f "DCMP" (op1 0x34) anyLevel (fun e c _ => do
    let (rs, c) ← formOperands e OpUse.plain e.d.ops 0 c
    match rs with
    | [a, b] =>
      let ba ← readBytes e a
      let bb ← readBytes e b
      let va ← decOperand a ba
      let vb ← decOperand b bb
      let psw := setDV (setZNCV c.psw (va == vb) (decide (va < vb)) false false) false
      pure (e.finish { c with psw := psw } (tallyRands 0x12 rs (fun _ => false)))
    | _ => pure (e.finish c Tally.zero)) s

/-- DSHR: op1 is a signed byte, value-checked to −31 to +31 (R133). -/
def execDshr (lc : Lc) (f : Fetch) (s : State) : Out :=
  runCpu lc f "DSHR" (op1 0x35) anyLevel (fun e c _ => do
    let (rs, c) ← formOperands e (decUse 2) e.d.ops 0 c
    match rs with
    | [a, k, d] =>
      let ba ← readBytes e a
      let vk ← readVal e k
      let n := toInt 8 vk
      if n < -31 ∨ 31 < n then trap { Trap.of 0x01 with opnd := 1 }
      else
        let va ← decOperand a ba
        decDone e rs d (decShift va n) c
    | _ => pure (e.finish c Tally.zero)) s

/-- CVTDB: the value modulo 2^64; V when it lies outside the quad range, DV unchanged (R134). -/
def execCvtdb (lc : Lc) (f : Fetch) (s : State) : Out :=
  runCpu lc f "CVTDB" (op1 0x36) anyLevel (fun e c _ => do
    let (rs, c) ← formOperands e OpUse.plain e.d.ops 0 c
    match rs with
    | [a, d] =>
      let ba ← readBytes e a
      let v ← decOperand a ba
      let c ← writeVal e d (ofInt 64 v) c
      let psw := setZNCV c.psw (v == 0) (decide (v < 0)) false (outside 64 v)
      pure (e.finish { c with psw := psw } (tallyRands 0x12 rs (fun _ => false)))
    | _ => pure (e.finish c Tally.zero)) s

/-- CVTBD: a signed quad as packed decimal. -/
def execCvtbd (lc : Lc) (f : Fetch) (s : State) : Out :=
  runCpu lc f "CVTBD" (op1 0x37) anyLevel (fun e c _ => do
    let (rs, c) ← formOperands e (decUse 1) e.d.ops 0 c
    match rs with
    | [a, d] =>
      let v ← readVal e a
      decDone e rs d (toInt 64 v) c
    | _ => pure (e.finish c Tally.zero)) s

/-- DMOV: re-signed and fitted to the length of operand 1. -/
def execDmov (lc : Lc) (f : Fetch) (s : State) : Out :=
  runCpu lc f "DMOV" (op1 0x38) anyLevel (fun e c _ => do
    let (rs, c) ← formOperands e (decUse 1) e.d.ops 0 c
    match rs with
    | [a, d] =>
      let ba ← readBytes e a
      let v ← decOperand a ba
      decDone e rs d v c
    | _ => pure (e.finish c Tally.zero)) s

/-! ### EDIT (R135, R136) -/

/-- The operand bytes that follow a pattern code, and the digits it takes; none for END and reserved codes. -/
def editCode (b : Nat) : Option (Nat × Nat) :=
  if 0x01 ≤ b ∧ b ≤ 0x1F then some (0, b)
  else if 0x21 ≤ b ∧ b ≤ 0x3F then some (0, b - 0x20)
  else if 0x41 ≤ b ∧ b ≤ 0x5F then some (b - 0x40, 0)
  else if 0x61 ≤ b ∧ b ≤ 0x7F then some (b - 0x60, 0)
  else if b = 0x80 then some (1, 0)
  else if b = 0x81 then some (2, 0)
  else none

/-- Read the pattern up to END: its bytes without END, and its digits. None when END does not stand in the first `fuel`
bytes or a reserved code comes before it. Each byte is read when it is reached. -/
def readPattern (e : Env) (x : Ctx) (va : Nat) : Nat → Nat → List Byte → Nat → M (Option (List Byte × Nat))
  | 0, _, _, _ => pure none
  | k + 1, skip, acc, digs => do
    let a := (va + acc.length) % 2 ^ 64
    let _ ← checkMem x a 1 [0]
    let b ← readMem x e.md a 1
    if skip ≠ 0 then readPattern e x va k (skip - 1) (acc ++ b) digs
    else if leNat b = 0 then pure (some (acc, digs))
    else
      match editCode (leNat b) with
      | none => pure none
      | some (n, d) => readPattern e x va k n (acc ++ b) (digs + d)

/-- EDIT's own state: position in the pattern, items left of the present code and its base code, fill byte, significance,
digits taken. -/
structure EditSt where
  pos : Nat
  code : Nat
  left : Nat
  fill : Byte
  sig : Bool
  dig : Nat
  deriving DecidableEq, Repr

/-- The start of a pattern. -/
def EditSt.start : EditSt := { pos := 0, code := 0, left := 0, fill := 0x20, sig := false, dig := 0 }

/-- The next destination byte of the pattern, none at its end. `byte` reads one pattern byte; digits and sign are those of
the source. The fuel bounds the codes that write nothing. -/
def editNext (byte : Nat → M Byte) (ds : List Nat) (neg : Bool) : Nat → EditSt → M (Option (Byte × EditSt))
  | 0, _ => pure none
  | k + 1, st => do
    if st.left = 0 then
      let b ← byte st.pos
      let v := b.toNat
      if v = 0x80 then
        let f ← byte (st.pos + 1)
        editNext byte ds neg k { st with pos := st.pos + 2, fill := f }
      else if v = 0x81 then
        let pl ← byte (st.pos + 1)
        let mi ← byte (st.pos + 2)
        pure (some (if neg then mi else pl, { st with pos := st.pos + 3 }))
      else
        match editCode v with
        | none => pure none
        | some _ =>
          editNext byte ds neg k
            { st with pos := st.pos + 1, code := v / 32 * 32, left := v % 32, sig := st.sig || v / 32 == 1 }
    else
      let st' := { st with left := st.left - 1 }
      if st.code = 0 ∨ st.code = 0x20 then
        let d := ds.getD st.dig 0
        let sig := st.sig || d != 0
        pure (some (if sig then BitVec.ofNat 8 (0x30 + d) else st.fill, { st' with sig := sig, dig := st.dig + 1 }))
      else
        let b ← byte st.pos
        let st' := { st' with pos := st.pos + 1 }
        pure (some (if st.code = 0x60 ∨ st.sig then b else st.fill, st'))

/-- Run the pattern past `n` destination bytes without writing. -/
def editSkip (byte : Nat → M Byte) (ds : List Nat) (neg : Bool) : Nat → EditSt → M EditSt
  | 0, st => pure st
  | n + 1, st => do
    match ← editNext byte ds neg 4100 st with
    | some (_, st) => editSkip byte ds neg n st
    | none => pure st

/-- Keep the progress of a byte-wise restartable instruction (R100): G13 and PSW[RP]; the registers of the operands move
on completion only (DEDUCED from R101, log entry 11). -/
def progress (e : Env) (c0 : Core) (done : Nat) : Core :=
  { (c0.gSet 13 (BitVec.ofNat 64 done)) with psw := setBit c0.psw 7 true, part := e.d.len }

/-- Completion of a byte-wise restartable instruction (R100). -/
def completed (c : Core) : Core := { (c.gSet 13 0) with psw := setBit c.psw 7 false }

/-- One step of a byte-wise loop: the element of offset `i`, answering whether the loop goes on. -/
abbrev ByteStep (σ : Type) := Nat → σ → M (Option σ)

/-- Run byte elements from offset `i`; the error response of a posted write stops them at the next boundary (R568); a trap
leaves the progress in the package. It answers the offset reached, the elements run, and whether the loop ended by
itself. -/
def byteLoop {σ : Type} (e : Env) (c0 : Core) (el : ByteStep σ) : Nat → Option Nat → Nat → Nat → σ →
    M (Nat × Nat × σ × LoopEnd)
  | 0, _, i, n, s => pure (i, n, s, .finished)
  | k + 1, stop, i, n, s => do
    let p ← get
    if stop = some 0 ∨ (p.core e.x.lc).failed ≠ [] then pure (i, n, s, .stopped false)
    else
      let r := (el i s).run.run p
      match r.1 with
      | .ok none => set r.2; pure (i, n, s, .finished)
      | .ok (some s') =>
        set (r.2.setCore e.x.lc { r.2.core e.x.lc with io := [], ioPos := 0 })
        byteLoop e c0 el k (stop.map (· - 1)) (i + 1) (n + 1) s'
      | .error (.trap t) =>
        let q := r.2.putRegs e.x.lc (progress e c0 i)
        set (q.count e.x.lc e.x.pl { Tally.zero with elems := n })
        trap t
      | .error .wait | .error .again =>
        set p
        if n = 0 then throw .wait else pure (i, n, s, .stopped false)
      | .error .ext =>
        set r.2
        if n = 0 then throw .ext else pure (i, n, s, .stopped true)

/-- End a byte-wise loop: completion with `fin`, or a stop with its progress (R100); a stop before the first element
leaves everything as it stood. -/
def byteEnd (e : Env) (c0 : Core) (cls : Nat) (i n : Nat) (how : LoopEnd) (fin : M Core) : M Done := do
  let t := { Tally.zero with elems := n, cls := cls, openUops := true }
  match how with
  | .finished =>
    let c ← fin
    pure (e.finish (completed c) t)
  | .stopped k =>
    pure { c := if n = 0 then c0 else progress e c0 i, t := t, call := none, keepIo := k }

/-- The offset at which a byte-wise restartable instruction begins (R100). -/
def startOffset (c : Core) : Nat := if pswRP c.psw then (c.gGet 13).toNat else 0

/-- One byte of the pattern of EDIT. -/
def editByte (e : Env) (b : Rand) (i : Nat) : M Byte := do
  let bs ← readMem (e.at b) e.md ((b.va.headD 0 + i) % 2 ^ 64) 1
  pure (bs.headD 0)

/-- The nibbles of a decimal operand as they stand: its digits, and whether it is negative and not zero. -/
def rawParts (bs : List Byte) : List Nat × Bool :=
  let ns := bs.flatMap (fun b => [b.toNat / 16, b.toNat % 16])
  let ds := ns.dropLast
  (ds, ns.getLast? == some 0xB && ds.any (· != 0))

/-- The next destination byte of EDIT, from the source and the pattern as they stand when it is computed (R136). -/
def editCompute (e : Env) (a b : Rand) (st : EditSt) : M (Option (Byte × EditSt)) := do
  let now ← readBytes e a
  let r := rawParts now
  editNext (editByte e b) r.1 r.2 4100 st

/-- One destination byte of EDIT. The translations of its place come before a machine check of what it reads (R92). -/
def editStep (e : Env) (a b d : Rand) : ByteStep EditSt := fun i st => do
  let va := (d.va.headD 0 + i) % 2 ^ 64
  match ← attempt (editCompute e a b st) with
  | .ok none => pure none
  | .error t =>
    if 0x30 ≤ t.code then
      let _ ← checkMem (e.at d) va 1 [1]
    trap t
  | .ok (some (v, st)) =>
    let _ ← checkMem (e.at d) va 1 [1]
    let ts ← openMem (e.at d) va 1
    putMem (e.at d) e.md ts [v]
    pure (some st)

/-- EDIT. -/
def execEdit (lc : Lc) (f : Fetch) (s : State) : Out :=
  runCpu lc f "EDIT" (op1 0x39) anyLevel (fun e c0 stop => do
    let (rs, c) ← formOperands e OpUse.plain e.d.ops 0 c0
    match rs with
    | [a, b, d] =>
      -- translation faults of the pattern come before a machine check on the source (R92)
      let pr ← attempt (readPattern e (e.at b) (b.va.headD 0) 4096 0 [] 0)
      match pr with
      | .error t => if t.code < 0x30 then trap t
      | .ok _ => pure ()
      let ba ← readBytes e a
      let r ← (match pr with | .error t => trap t | .ok r => pure r)
      match r with
      | none => trap { Trap.of 0x01 with opnd := 1 }
      | some (_, digs) =>
        if digs ≠ 2 * a.spec.size - 1 then trap { Trap.of 0x01 with opnd := 1 }
        else
          match decParts ba with
          | none => trap { Trap.of 0x20 with opnd := 0 }
          | some (ds, sg) =>
            let neg := sg && digitsVal ds != 0
            let start := startOffset c0
            let st ← editSkip (editByte e b) ds neg start EditSt.start
            let (i, n, _, how) ← byteLoop e c0 (editStep e a b d) (4096 * 32) stop start 0 st
            byteEnd e c0 0x12 i n how
              (pure { c with psw := setZNCV c.psw (digitsVal ds == 0) neg false false })
    | _ => pure (e.finish c Tally.zero)) s

end Sys2Proof.Machine
end

