-- ==== Sys2Proof/Machine/Fields.lean ====
section
/-! DEFINITION. Field instructions (R137, R138). -/

namespace Sys2Proof.Machine

/-- A length operand is value-checked to 0–4,096 (R124). -/
def checkLength (n : Nat) : M Unit := if 4096 < n then trap { Trap.of 0x01 with opnd := 2 } else pure ()

/-- Read one byte of operand `r` at offset `i`, checked first. -/
def fieldByte (e : Env) (r : Rand) (i : Nat) : M Byte := do
  let va := (r.va.headD 0 + i) % 2 ^ 64
  let _ ← checkMem (e.at r) va 1 [0]
  let b ← readMem (e.at r) e.md va 1
  pure (b.headD 0)

/-- Write one byte of operand `r` at offset `i`, checked first. -/
def fieldPut (e : Env) (r : Rand) (i : Nat) (v : Byte) : M Unit := do
  let va := (r.va.headD 0 + i) % 2 ^ 64
  let _ ← checkMem (e.at r) va 1 [1]
  let ts ← openMem (e.at r) va 1
  putMem (e.at r) e.md ts [v]

/-- One byte of FSCAN: it stops at the length, and at a byte whose bit is 1 in the set. -/
def fscanStep (e : Env) (a b : Rand) (n : Nat) : ByteStep Bool := fun i _ => do
  if n ≤ i then pure none
  else
    let v ← fieldByte e a i
    let m ← fieldByte e b (v.toNat / 8)
    if m.toNat / 2 ^ (v.toNat % 8) % 2 = 1 then pure none else pure (some false)

/-- One byte of FXLAT: replaced by the byte of the table that it selects. The table byte's address is known once the byte is
read, so its faults follow (R92). -/
def fxlatStep (e : Env) (a b : Rand) : ByteStep Bool := fun i _ => do
  let _ ← checkMem (e.at a) ((a.va.headD 0 + i) % 2 ^ 64) 1 [0, 1]
  let v ← fieldByte e a i
  let w ← fieldByte e b v.toNat
  fieldPut e a i w
  pure (some false)

/-- One byte of FMOVE: from the highest byte down when the destination starts inside the source above its start, else upward
(R138). -/
def fmoveStep (e : Env) (a b : Rand) (n : Nat) : ByteStep Bool := fun i _ => do
  let src := a.va.headD 0
  let dst := b.va.headD 0
  let k := if src < dst ∧ dst < src + n then n - 1 - i else i
  let _ ← checkMem (e.at a) ((src + k) % 2 ^ 64) 1 [0]
  let _ ← checkMem (e.at b) ((dst + k) % 2 ^ 64) 1 [1]
  let v ← fieldByte e a k
  fieldPut e b k v
  pure (some false)

/-- FSCAN: the first byte whose bit is 1 in the set; its offset, or the length, goes to operand 2. -/
def execFscan (lc : Lc) (f : Fetch) (s : State) : Out :=
  runCpu lc f "FSCAN" (op1 0x40) anyLevel (fun e c0 stop => do
    let (rs, c) ← formOperands e OpUse.plain e.d.ops 0 c0
    match rs with
    | [a, b, l] =>
      let n ← readVal e l
      checkLength n
      let start := startOffset c0
      let (i, k, _, how) ← byteLoop e c0 (fscanStep e a b n) (n + 1 - start) stop start 0 false
      let i := min i n
      -- the byte that matched is an element too
      byteEnd e c0 0x13 i (if how = .finished ∧ i < n then k + 1 else k) how (do
        let c ← writeVal e l i c
        pure { c with psw := setZNCV c.psw (decide (i < n)) false false false })
    | _ => pure (e.finish c Tally.zero)) s

/-- FXLAT: each byte of the field is replaced through the table. -/
def execFxlat (lc : Lc) (f : Fetch) (s : State) : Out :=
  runCpu lc f "FXLAT" (op1 0x41) anyLevel (fun e c0 stop => do
    let (rs, c) ← formOperands e OpUse.plain e.d.ops 0 c0
    match rs with
    | [a, b, l] =>
      let n ← readVal e l
      checkLength n
      let start := startOffset c0
      let (i, k, _, how) ← byteLoop e c0 (fxlatStep e a b) (n - start) stop start 0 false
      byteEnd e c0 0x13 i k how (pure c)
    | _ => pure (e.finish c Tally.zero)) s

/-- FMOVE. -/
def execFmove (lc : Lc) (f : Fetch) (s : State) : Out :=
  runCpu lc f "FMOVE" (op1 0x42) anyLevel (fun e c0 stop => do
    let (rs, c) ← formOperands e OpUse.plain e.d.ops 0 c0
    match rs with
    | [a, b, l] =>
      let n ← readVal e l
      checkLength n
      let start := startOffset c0
      let (i, k, _, how) ← byteLoop e c0 (fmoveStep e a b n) (n - start) stop start 0 false
      byteEnd e c0 0x13 i k how (pure c)
    | _ => pure (e.finish c Tally.zero)) s

/-- FFILL: the byte op1 into op2 bytes at addr(0); every page is translated before anything is written. The extent of the
field is known once operand 2 is read, so the faults of its pages follow those of the operands (R92; DEDUCED, log entry
107). -/
def execFfill (lc : Lc) (f : Fetch) (s : State) : Out :=
  runCpu lc f "FFILL" (op1 0x43) anyLevel (fun e c _ => do
    let (rs, c) ← formOperands e OpUse.plain e.d.ops 0 c
    match rs with
    | [a, b, l] =>
      let n ← readVal e l
      let va := a.va.headD 0
      if n ≤ 4096 then
        let _ ← checkMem (e.at a) va n [1]
      let v ← readBytes e b
      checkLength n
      let bs := List.replicate n (v.headD 0)
      let ts ← openMem (e.at a) va n
      let c ← commitDests e.md [.mem (e.at a) ts bs] c
      pure (e.finish c { Tally.zero with cls := 0x13, openUops := true })
    | _ => pure (e.finish c Tally.zero)) s

/-- The first pair of bytes that differ. -/
def firstDiff : List Byte → List Byte → Option (Byte × Byte)
  | x :: xs, y :: ys => if x = y then firstDiff xs ys else some (x, y)
  | _, _ => none

/-- FCMP: unsigned bytes up to the first difference; every page of both fields is translated and read. -/
def execFcmp (lc : Lc) (f : Fetch) (s : State) : Out :=
  runCpu lc f "FCMP" (op1 0x44) anyLevel (fun e c _ => do
    let (rs, c) ← formOperands e OpUse.plain e.d.ops 0 c
    match rs with
    | [a, b, l] =>
      let n ← readVal e l
      checkLength n
      let _ ← checkMem (e.at a) (a.va.headD 0) n [0]
      let _ ← checkMem (e.at b) (b.va.headD 0) n [0]
      let x ← readMem (e.at a) e.md (a.va.headD 0) n
      let y ← readMem (e.at b) e.md (b.va.headD 0) n
      let psw := match firstDiff x y with
        | none => setZNCV c.psw true false false false
        | some (u, v) => setZNCV c.psw false false (decide (u.toNat < v.toNat)) false
      pure (e.finish { c with psw := psw } { Tally.zero with cls := 0x13, openUops := true })
    | _ => pure (e.finish c Tally.zero)) s

end Sys2Proof.Machine
end

