-- ==== Sys2Proof/Machine/Float.lean ====
section
/-! DEFINITION. IEEE 754 binary32 and binary64 on exact numbers (R79, R139, R142 to R144): rounding to nearest, ties to
even, with the default results and the sticky bits. -/

namespace Sys2Proof.Machine

/-- A format: precision (with the hidden bit), exponent width. -/
structure Fmt where
  prec : Nat
  ew : Nat
  deriving DecidableEq, Repr

def fmtS : Fmt := { prec := 24, ew := 8 }
def fmtD : Fmt := { prec := 53, ew := 11 }

def Fmt.width (f : Fmt) : Nat := f.prec + f.ew
/-- Exponent of the last bit of the smallest normal number: the subnormal quantum. -/
def Fmt.qmin (f : Fmt) : Int := -(2 ^ (f.ew - 1) : Int) + 3 - f.prec
/-- The largest exponent field of a finite number. -/
def Fmt.emax (f : Fmt) : Nat := 2 ^ f.ew - 2

/-- A number: NaN (signalling or not), infinity, or ± mant × 2^exp. -/
inductive Fp where
  | nan (sig : Bool)
  | inf (neg : Bool)
  | fin (neg : Bool) (mant : Nat) (exp : Int)
  deriving DecidableEq, Repr

/-- Unpack a format. -/
def Fmt.unpack (f : Fmt) (x : Nat) : Fp :=
  let frac := x % 2 ^ (f.prec - 1)
  let e := x / 2 ^ (f.prec - 1) % 2 ^ f.ew
  let neg := x / 2 ^ (f.width - 1) % 2 == 1
  if e = 2 ^ f.ew - 1 then (if frac = 0 then .inf neg else .nan (frac / 2 ^ (f.prec - 2) == 0))
  else if e = 0 then .fin neg frac f.qmin
  else .fin neg (frac + 2 ^ (f.prec - 1)) (f.qmin + e - 1)

/-- The sticky bits of R78. -/
structure Sticky where
  fi : Bool
  fz : Bool
  fo : Bool
  fu : Bool
  fx : Bool
  deriving DecidableEq, Repr

def Sticky.none : Sticky := { fi := false, fz := false, fo := false, fu := false, fx := false }
def Sticky.or (a b : Sticky) : Sticky :=
  { fi := a.fi || b.fi, fz := a.fz || b.fz, fo := a.fo || b.fo, fu := a.fu || b.fu, fx := a.fx || b.fx }

/-- Add sticky bits to the PSW. -/
def Sticky.toPsw (s : Sticky) (w : Word) : Word :=
  w ||| word [(14, s.fi.toNat), (13, s.fz.toNat), (12, s.fo.toNat), (11, s.fu.toNat), (10, s.fx.toNat)]

/-- A result in a format and its sticky bits. -/
structure FpRes where
  bits : Nat
  st : Sticky
  deriving DecidableEq, Repr

/-- The number of bits of a number. -/
def bitLen (m : Nat) : Nat := if m = 0 then 0 else Nat.log2 m + 1

/-- The sign bit of a format. -/
def Fmt.sign (f : Fmt) (neg : Bool) : Nat := neg.toNat * 2 ^ (f.width - 1)
def Fmt.infBits (f : Fmt) (neg : Bool) : Nat := f.sign neg + (2 ^ f.ew - 1) * 2 ^ (f.prec - 1)

/-- A quiet NaN: which one is left open by IEEE 754 (`Config.nanResult`). -/
def Fmt.nanBits (f : Fmt) (a b : Nat) : Nat :=
  let w := (Config.nanResult f.width (BitVec.ofNat _ a) (BitVec.ofNat _ b)).toNat
  f.infBits (w / 2 ^ (f.width - 1) % 2 == 1) + 2 ^ (f.prec - 2) + w % 2 ^ (f.prec - 2)

/-- m × 2^e rounded to a multiple of 2^q, ties to even; `stk` tells of a further non-zero part below. It answers the
multiple and whether it is inexact. -/
def roundQ (m : Nat) (e q : Int) (stk : Bool) : Nat × Bool :=
  if q ≤ e then (m * 2 ^ (e - q).toNat, stk)
  else
    let k := (q - e).toNat
    let t := m / 2 ^ k
    let r := m % 2 ^ k
    let half := 2 ^ (k - 1)
    let up := decide (half < r) || (r == half && (stk || t % 2 == 1))
    (t + up.toNat, r != 0 || stk)

/-- Round ± m × 2^e (with a sticky part) into a format. -/
def Fmt.round (f : Fmt) (neg : Bool) (m : Nat) (e : Int) (stk : Bool) : FpRes :=
  if m = 0 ∧ !stk then { bits := f.sign neg, st := Sticky.none }
  else
    let top := e + bitLen m
    let q := max f.qmin (top - f.prec)
    let (t, inex) := roundQ m e q stk
    -- tiny: below the smallest normal number, before rounding or after rounding to full precision
    let before := decide (top - f.prec < f.qmin)
    let (t', _) := roundQ m e (top - f.prec) stk
    let after := before && !(decide (2 ^ f.prec ≤ t') && decide (top - f.prec + 1 = f.qmin))
    let tiny := if Config.tininessBefore then before else after
    -- a carry out of the rounding moves the exponent
    let (t, q) := if 2 ^ f.prec ≤ t then (t / 2, q + 1) else (t, q)
    let field := if t < 2 ^ (f.prec - 1) then 0 else (q - f.qmin + 1).toNat
    if f.emax < field then
      { bits := f.infBits neg, st := { Sticky.none with fo := true, fx := true } }
    else
      { bits := f.sign neg + (if field = 0 then t else field * 2 ^ (f.prec - 1) + (t - 2 ^ (f.prec - 1))),
        st := { Sticky.none with fu := tiny && inex, fx := inex } }

/-- A NaN operand: the result is a quiet NaN, invalid when one is signalling. -/
def Fmt.nanOp (f : Fmt) (sig : Bool) (a b : Nat) : FpRes := { bits := f.nanBits a b, st := { Sticky.none with fi := sig } }

/-- An operand is a signalling NaN, or any NaN. -/
def Fp.isSig : Fp → Bool | .nan s => s | _ => false
def Fp.isNan : Fp → Bool | .nan _ => true | _ => false

/-- ± m × 2^e as an integer multiple of 2^q, for q ≤ e. -/
def signedAt (neg : Bool) (m : Nat) (e q : Int) : Int :=
  let v : Int := (m * 2 ^ (e - q).toNat : Nat)
  if neg then -v else v

/-- Addition. -/
def Fmt.add (f : Fmt) (a b : Nat) (sub : Bool) : FpRes :=
  let x := f.unpack a
  let y := f.unpack b
  if x.isNan || y.isNan then f.nanOp (x.isSig || y.isSig) a b
  else
    match x, y with
    | .inf s, .inf t => if s = (t != sub) then { bits := f.infBits s, st := Sticky.none } else f.nanOp true a b
    | .inf s, _ => { bits := f.infBits s, st := Sticky.none }
    | _, .inf t => { bits := f.infBits (t != sub), st := Sticky.none }
    | .fin s m e, .fin t n g =>
      let t := t != sub
      let q := min e g
      let v := signedAt s m e q + signedAt t n g q
      -- an exact zero sum is +0 unless both terms are negative
      if v = 0 then { bits := f.sign (s && t), st := Sticky.none }
      else f.round (decide (v < 0)) v.natAbs q false
    | _, _ => f.nanOp false a b

/-- Multiplication. -/
def Fmt.mul (f : Fmt) (a b : Nat) : FpRes :=
  let x := f.unpack a
  let y := f.unpack b
  if x.isNan || y.isNan then f.nanOp (x.isSig || y.isSig) a b
  else
    match x, y with
    | .inf s, .inf t => { bits := f.infBits (s != t), st := Sticky.none }
    | .inf s, .fin t n _ => if n = 0 then f.nanOp true a b else { bits := f.infBits (s != t), st := Sticky.none }
    | .fin s m _, .inf t => if m = 0 then f.nanOp true a b else { bits := f.infBits (s != t), st := Sticky.none }
    | .fin s m e, .fin t n g => f.round (s != t) (m * n) (e + g) false
    | _, _ => f.nanOp false a b

/-- Division. -/
def Fmt.div (f : Fmt) (a b : Nat) : FpRes :=
  let x := f.unpack a
  let y := f.unpack b
  if x.isNan || y.isNan then f.nanOp (x.isSig || y.isSig) a b
  else
    match x, y with
    | .inf _, .inf _ => f.nanOp true a b
    | .inf s, .fin t _ _ => { bits := f.infBits (s != t), st := Sticky.none }
    | .fin s _ _, .inf t => { bits := f.sign (s != t), st := Sticky.none }
    | .fin s m e, .fin t n g =>
      if n = 0 then
        (if m = 0 then f.nanOp true a b else { bits := f.infBits (s != t), st := { Sticky.none with fz := true } })
      else
        let k := 2 * f.prec + 4
        f.round (s != t) (m * 2 ^ k / n) (e - g - k) (m * 2 ^ k % n != 0)
    | _, _ => f.nanOp false a b

/-- Integer square root, one result bit per step from bit `k - 1` down. -/
def isqrt : Nat → Nat → Nat → Nat
  | 0, _, r => r
  | k + 1, x, r =>
    let r' := r + 2 ^ k
    isqrt k x (if r' * r' ≤ x then r' else r)

/-- Square root. -/
def Fmt.sqrt (f : Fmt) (a : Nat) : FpRes :=
  match f.unpack a with
  | .nan s => f.nanOp s a a
  | .inf s => if s then f.nanOp true a a else { bits := f.infBits false, st := Sticky.none }
  | .fin s m e =>
    if m = 0 then { bits := f.sign s, st := Sticky.none }
    else if s then f.nanOp true a a
    else
      let k := 2 * f.prec + 4 + (e % 2).toNat
      let x := m * 2 ^ k
      let r := isqrt (bitLen x / 2 + 1) x 0
      f.round false r ((e - k) / 2) (r * r != x)

/-- The order of two numbers that are not NaN: less, equal, greater. -/
def Fmt.less (f : Fmt) (a b : Nat) : Option Ordering :=
  let x := f.unpack a
  let y := f.unpack b
  let val := fun (z : Fp) => match z with
    | .inf s => (if s then -1 else 1, (0 : Int))
    | .fin s m e => (0, signedAt s m e f.qmin)
    | .nan _ => (0, 0)
  if x.isNan || y.isNan then none
  else
    let (i, u) := val x
    let (j, v) := val y
    some (if (i : Int) < j then .lt else if j < i then .gt else compare u v)

/-- Conversion to a signed quad (R144). -/
def Fmt.toQuad (f : Fmt) (a : Nat) : FpRes :=
  let bad : FpRes := { bits := 2 ^ 63, st := { Sticky.none with fi := true } }
  match f.unpack a with
  | .fin s m e =>
    let (t, inex) := roundQ m e 0 false
    if (if s then decide (2 ^ 63 < t) else decide (2 ^ 63 ≤ t)) then bad
    else { bits := ofInt 64 (if s then -(t : Int) else t), st := { Sticky.none with fx := inex } }
  | _ => bad

/-- Conversion from a signed quad. -/
def Fmt.ofQuad (f : Fmt) (a : Nat) : FpRes :=
  let v := toInt 64 a
  f.round (decide (v < 0)) v.natAbs 0 false

/-- Conversion between the formats. -/
def Fmt.convert (f g : Fmt) (a : Nat) : FpRes :=
  match f.unpack a with
  | .nan s => g.nanOp s a 0
  | .inf s => { bits := g.infBits s, st := Sticky.none }
  | .fin s m e => g.round s m e false

/-- One step of MAC.F32 (R139): the product is exact in binary64, the addition rounds. A product that IEEE 754 calls invalid,
or a signalling NaN source, sets FI too (DEDUCED, log entry 116). -/
def macF32Step (acc a b : Nat) : FpRes :=
  let p := fmtD.mul (fmtS.convert fmtD a).bits (fmtS.convert fmtD b).bits
  let sa := (fmtS.unpack a).isSig || (fmtS.unpack b).isSig
  let r := fmtD.add acc p.bits false
  { bits := r.bits, st := (r.st.or { p.st with fx := false, fu := false }).or { Sticky.none with fi := sa } }

end Sys2Proof.Machine
end

