-- ==== Sys2Proof/Machine/FloatOps.lean ====
section
/-! DEFINITION. Floating-point instructions (R142 to R144). -/

namespace Sys2Proof.Machine

/-- Operands below `k` are floating-point sources: a short literal is converted to their format (R120). -/
def fpUse (k : Nat) : OpUse := { OpUse.plain with fp := fun i => decide (i < k) }

/-- op2 = f op0 op1. -/
def fp2Elem (f : Nat → Nat → FpRes) : Elem := fun e c => do
  let (rs, c) ← formOperands e (fpUse 2) e.d.ops 0 c
  match rs with
  | [a, b, d] =>
    let x ← readVal e a
    let y ← readVal e b
    let r := f x y
    let c ← writeVal e d r.bits c
    pure ({ c with psw := r.st.toPsw c.psw }, tallyRands 0x15 rs (fun _ => false))
  | _ => pure (c, Tally.zero)

/-- op1 = f op0; `fp` tells that the source is floating-point. -/
def fp1Elem (fp : Bool) (f : Nat → FpRes) : Elem := fun e c => do
  let (rs, c) ← formOperands e (fpUse fp.toNat) e.d.ops 0 c
  match rs with
  | [a, d] =>
    let x ← readVal e a
    let r := f x
    let c ← writeVal e d r.bits c
    pure ({ c with psw := r.st.toPsw c.psw }, tallyRands 0x15 rs (fun _ => false))
  | _ => pure (c, Tally.zero)

/-- The flags of FCMP (R143). -/
def fcmpFlags (w : Word) (o : Option Ordering) : Word :=
  match o with
  | some .lt => setZNCV w false true true false
  | some .eq => setZNCV w true false false false
  | some .gt => setZNCV w false false false false
  | none => setZNCV w false false false true

/-- FCMP: flags only; FI for a signalling NaN. -/
def fcmpElem (m : Fmt) : Elem := fun e c => do
  let (rs, c) ← formOperands e (fpUse 2) e.d.ops 0 c
  match rs with
  | [a, b] =>
    let x ← readVal e a
    let y ← readVal e b
    let st := { Sticky.none with fi := (m.unpack x).isSig || (m.unpack y).isSig }
    pure ({ c with psw := st.toPsw (fcmpFlags c.psw (m.less x y)) }, tallyRands 0x15 rs (fun _ => false))
  | _ => pure (c, Tally.zero)

/-- FADD.D. -/
def execFaddD (lc : Lc) (f : Fetch) (s : State) : Out :=
  runCpu lc f "FADD_D" (op1 0x58) anyLevel (onceBody (fp2Elem (fun a b => fmtD.add a b false))) s
/-- FSUB.D. -/
def execFsubD (lc : Lc) (f : Fetch) (s : State) : Out :=
  runCpu lc f "FSUB_D" (op1 0x59) anyLevel (onceBody (fp2Elem (fun a b => fmtD.add a b true))) s
/-- FMUL.D. -/
def execFmulD (lc : Lc) (f : Fetch) (s : State) : Out :=
  runCpu lc f "FMUL_D" (op1 0x5A) anyLevel (onceBody (fp2Elem fmtD.mul)) s
/-- FDIV.D. -/
def execFdivD (lc : Lc) (f : Fetch) (s : State) : Out :=
  runCpu lc f "FDIV_D" (op1 0x5B) anyLevel (onceBody (fp2Elem fmtD.div)) s
/-- FCMP.D. -/
def execFcmpD (lc : Lc) (f : Fetch) (s : State) : Out :=
  runCpu lc f "FCMP_D" (op1 0x5C) anyLevel (onceBody (fcmpElem fmtD)) s
/-- FSQRT.D. -/
def execFsqrtD (lc : Lc) (f : Fetch) (s : State) : Out :=
  runCpu lc f "FSQRT_D" (op1 0x5D) anyLevel (onceBody (fp1Elem true fmtD.sqrt)) s
/-- CVTDQ. -/
def execCvtdq (lc : Lc) (f : Fetch) (s : State) : Out :=
  runCpu lc f "CVTDQ" (op1 0x5E) anyLevel (onceBody (fp1Elem true fmtD.toQuad)) s
/-- CVTQD. -/
def execCvtqd (lc : Lc) (f : Fetch) (s : State) : Out :=
  runCpu lc f "CVTQD" (op1 0x5F) anyLevel (onceBody (fp1Elem false fmtD.ofQuad)) s
/-- FADD.S. -/
def execFaddS (lc : Lc) (f : Fetch) (s : State) : Out :=
  runCpu lc f "FADD_S" (op1 0x60) anyLevel (onceBody (fp2Elem (fun a b => fmtS.add a b false))) s
/-- FSUB.S. -/
def execFsubS (lc : Lc) (f : Fetch) (s : State) : Out :=
  runCpu lc f "FSUB_S" (op1 0x61) anyLevel (onceBody (fp2Elem (fun a b => fmtS.add a b true))) s
/-- FMUL.S. -/
def execFmulS (lc : Lc) (f : Fetch) (s : State) : Out :=
  runCpu lc f "FMUL_S" (op1 0x62) anyLevel (onceBody (fp2Elem fmtS.mul)) s
/-- FDIV.S. -/
def execFdivS (lc : Lc) (f : Fetch) (s : State) : Out :=
  runCpu lc f "FDIV_S" (op1 0x63) anyLevel (onceBody (fp2Elem fmtS.div)) s
/-- FCMP.S. -/
def execFcmpS (lc : Lc) (f : Fetch) (s : State) : Out :=
  runCpu lc f "FCMP_S" (op1 0x64) anyLevel (onceBody (fcmpElem fmtS)) s
/-- FSQRT.S. -/
def execFsqrtS (lc : Lc) (f : Fetch) (s : State) : Out :=
  runCpu lc f "FSQRT_S" (op1 0x65) anyLevel (onceBody (fp1Elem true fmtS.sqrt)) s
/-- CVTSQ. -/
def execCvtsq (lc : Lc) (f : Fetch) (s : State) : Out :=
  runCpu lc f "CVTSQ" (op1 0x66) anyLevel (onceBody (fp1Elem true fmtS.toQuad)) s
/-- CVTQS. -/
def execCvtqs (lc : Lc) (f : Fetch) (s : State) : Out :=
  runCpu lc f "CVTQS" (op1 0x67) anyLevel (onceBody (fp1Elem false fmtS.ofQuad)) s
/-- CVTSD. -/
def execCvtsd (lc : Lc) (f : Fetch) (s : State) : Out :=
  runCpu lc f "CVTSD" (op1 0x68) anyLevel (onceBody (fp1Elem true (fmtS.convert fmtD))) s
/-- CVTDS. -/
def execCvtds (lc : Lc) (f : Fetch) (s : State) : Out :=
  runCpu lc f "CVTDS" (op1 0x69) anyLevel (onceBody (fp1Elem true (fmtD.convert fmtS))) s

end Sys2Proof.Machine
end

