-- ==== Sys2Proof/Machine/Frame.lean ====
section
/-! DEFINITION. The frame tick: the frame number advances and every block does its sampling-cycle work, in one fixed order
(R64, R66, R74). -/

namespace Sys2Proof.Machine

/-! ### Counters that the tick moves -/

/-- The flit and wait counters of the networks count what the commands do not show: a free value (log entry 1; R519, R520). -/
def Pkg.netCounters (p : Pkg) (pg sel cnt n : Nat) (evs : List Nat) : Pkg :=
  if !p.answers pg then p
  else
    (List.range n).foldl (fun p i =>
      let w := p.cfg pg (sel + 8 * i)
      if bit w 63 && evs.contains (fld w 7 0) then
        let f := p.free 32
        f.2.setReg pg (cnt + 8 * i) (f.2.reg pg (cnt + 8 * i) + f.1.setWidth 64)
      else p) p

/-- The counters of every die and of the hub. -/
def Pkg.netCounterTick (p : Pkg) : Pkg :=
  ((List.range 12).foldl (fun p d => p.netCounters (pgTELEM d) 0x400 0x240 8 [1, 2]) p).netCounters pgHTEL 0x400 0x280 16 [7, 8]

/-- One tick less to wait for a core in WAITF (R148). -/
def CoreRun.tick : CoreRun → CoreRun
  | .waiting n => .waiting (n - 1)
  | r => r

/-- WAITF counts the ticks of every mode in which its core may resume, QUIESCE among them; a core held for a drain counts too
(R148). -/
def Pkg.waitTick (p : Pkg) (md : Mode) : Pkg :=
  match md with
  | .run | .degraded | .drizzle | .quiesce =>
    let p := p.cores.foldl (fun (p : Pkg) (e : Nat × Core) =>
      match e.2.run with
      | .waiting n => if n = 0 then p else p.setCore e.1 { e.2 with run := .waiting (n - 1) }
      | _ => p) p
    let stw := { p.stw with held := p.stw.held.map (fun e => (e.1, e.2.map (fun h => (h.1, h.2.tick)))) }
    { p with stw := stw }
  | _ => p

/-- Waits between training attempts and of guests whose link is lost; the readmissions that fall due (R63, R309, R401). -/
def Pkg.countdowns (p : Pkg) : Pkg :=
  let bt := { p.boot with waits := p.boot.waits.map (fun e => (e.1, if 1 < e.2 then e.2 - 1 else e.2)) }
  let p := ({ p with boot := bt }).bistTick
  let p := (List.range 2).foldl (fun p g =>
    match (p.guest g).loss with
    | some n => p.setGuest g { p.guest g with loss := some (n + 1) }
    | none => p) p
  let stw := { p.stw with autoReadmit := p.stw.autoReadmit.map (fun e => (e.1, if 1 < e.2 then e.2 - 1 else e.2)), moved := [] }
  { p with stw := stw }

/-- ROTHOURS in frames for one of the 24 parts of the rotation period (R402, R406). -/
def Pkg.rotPart (p : Pkg) : Nat := let h := p.cf pgSTW 0x400 31 16; (if h = 0 then 168 else h) * 18750000

/-- The rotation of spare entry s falls due at the start of part s (R406). -/
def Pkg.rotate (p : Pkg) (md : Mode) : Pkg :=
  if md ≠ .run ∧ md ≠ .degraded then p
  else
    let t := p.stw.rotTick % (24 * p.rotPart)
    let s := t / p.rotPart
    let due := t % p.rotPart == 0 && p.cf pgSTW 0x400 1 1 == 0 && !p.stw.rotWait.contains s
    let stw := { p.stw with rotTick := t + 1, rotWait := if due then p.stw.rotWait ++ [s] else p.stw.rotWait }
    { p with stw := stw }

/-- Frames in which the conditions of the DRIZZLE policy held (R429). -/
def Pkg.idleTick (p : Pkg) (md : ModeState) : Pkg :=
  let on := (md.mode == .run || md.mode == .degraded) && !md.moving && p.idleFrame md.mode
  let pw := { p.pw with idleFr := if on then p.pw.idleFr + 1 else 0, doorbell := false }
  { p with pw := pw }

/-- The fences that the steward commands at this tick, and the events that waited for it (R294, R295). -/
def Pkg.stewardQueue (p : Pkg) : Pkg :=
  let due := p.stw.fences
  let stw := { p.stw with fences := [] }
  let p := due.foldl (fun (p : Pkg) (e : Nat × Nat) => p.fenceDie e.1 e.2) { p with stw := stw }
  let logs := p.tickLog
  logs.foldl (fun (p : Pkg) (e : LogReq) =>
    p.logEvent e.1 e.2.1 e.2.2.1 (e.2.2.1.bind p.pidOf) e.2.2.2.1 e.2.2.2.2) { p with tickLog := [] }

/-! ### The tick -/

/-- The frame number after a tick, and the count of ticks, which no jump changes (R64, R68). -/
def FrameGen.advance (fr : FrameGen) : FrameGen := { fr with num := fr.num + 1, ticks := fr.ticks + 1 }

/-- What precedes adoption: the frame that ended is judged, and every part of the hub counts the tick. -/
def Pkg.tickBefore (p : Pkg) (md : ModeState) (len : Nat) (phase : Option Int) (samples : List (Sensor × Int)) : Pkg :=
  let f := p.frameNum
  let wake : Bool := md.mode != .drizzle || p.isWake f
  let p := p.clearSent.alignTick len phase
  let p := { p with fr := p.fr.advance }
  let p := p.quotaTick md.mode f samples
  let p := if wake then p.telemetryTick md.mode f samples else p
  let p := (List.range 12).foldl (fun p d => p.dieServiceTick md.mode d f samples) p
  let p := (p.idleTick md).residencyTick md.mode md.mode.code len
  let p := ((List.range 12).foldl (fun p d => p.linkTick d) p |>.chainPortTick false).chainPortTick true
  let p := ((p.bookTick.ageTick.inAge.inServe).chainTick.headAddr (md.mode == .load)).ledgerTick
  (List.range 14).foldl (fun p e => p.auditUse e) p

/-- The seed and the steward's own work before it evaluates the mode (R59, R66, R401, R527). -/
def Pkg.tickSteward (p : Pkg) (md : ModeState) (f : Nat) : Pkg :=
  let p := (p.adoptSeed.seedTick (md.mode == .load)).mbTick
  ((((p.stewardQueue).auditTick md.mode f).collectTick f).countdowns.waitTick md.mode).rotate md.mode

/-- What the new frame starts with (R53, R467). -/
def Pkg.tickAfter (p : Pkg) : Pkg := p.netCounterTick.snapTick.headFrame

/-- Grants and clocks of the new frame. LIMIT as adopted at this tick governs the grants; the audit of the next tick still allows
the LIMIT before it (R420, R422, R423). -/
def Pkg.powerClocks (p : Pkg) (md : ModeState) (oldLimit : Nat) : Pkg :=
  let wake : Bool := md.mode != .drizzle || p.isWake p.frameNum
  let on : Bool := match md.mode with | .off | .service => false | _ => true
  let p := { p with pw := { p.pw with oldLimit := oldLimit } }
  let p := if on ∧ wake ∧ p.stw.tokenFails = 0 then p.powerTick md.mode else p
  if on ∧ wake then (below 12 p.dieUp).foldl (fun p d => p.clockTick d) p else p

/-- The requests that wait at this tick for what they ask: their commands take effect from here on (R74). -/
def Pkg.ripeNow (p : Pkg) (md : ModeState) : List (Nat × Nat) :=
  let of := fun (k : Wait) (l : List Nat) => l.map (fun n => (k.code, n))
  of .assign (p.stw.assigns.map (·.1)) ++
  of .restart ((p.stw.parts.filter (fun e => e.2.restart)).map (·.1)) ++
  of .release ((p.stw.parts.filter (fun e => e.2.release.isSome)).map (·.1)) ++
  of .spare ((List.range 24).flatMap (fun r => (p.asking r).map (fun i => r / 2 * 20 + i))) ++
  of .rotate p.stw.rotWait ++
  of .admission (below 12 (fun d => (p.link d).admitted)) ++
  of .rail (below 12 p.railEnds) ++
  of .image (if p.stw.image && !p.stw.running then [0] else []) ++
  of .rearm (if p.stw.armAll then [0] else []) ++
  of .map (if p.mapDue md then [0] else []) ++
  of .keys (if p.keysDue then [0] else []) ++
  of .mailbox (if p.mbBusy then [0] else []) ++
  of .rekey ((p.stw.parts.filter (fun e => e.2.rekey.isSome)).map (·.1)) ++
  of .remap ((List.range 16).filter (fun n => (p.ctl n).rowReqs != [])) ++
  of .guest ((List.range 2).filter (fun g => (p.guest g).ack.isSome))

/-- What a tick leaves to the frame it starts: the requests it found, and the adopted copies, which govern what is started
after the sampling cycle (R44, R74), and the grants of this tick (R422). -/
def Pkg.tickEnd (p : Pkg) (md : ModeState) : Pkg :=
  let p := p.adoptTick.powerClocks md p.limit
  let p := if md.mode = .load then p.storeReady else p
  { p with stw := { p.stw with ripe := p.ripeNow md } }

/-- FRAME_TICK: a frame ends; one of a length other than 800 is asked to correct the phase (R64, R67). Nothing happens in
OFF. -/
def execFrameTick (len : Nat) (phase : Option Int) (samples : List (Sensor × Int)) (s : State) :
    Host.Outcome State Fault Refusal :=
  if s.mode.mode = .off then .next s
  else
    let f := s.pkg.frameNum
    let p := (s.pkg.tickBefore s.mode (s.pkg.frameLen (len != 800)) phase samples).tickSteward s.mode f
    let r := p.evalMode s.mode
    .next { s with mode := r.1, pkg := r.2.tickAfter.tickEnd r.1 }

end Sys2Proof.Machine
end

