-- ==== Sys2Proof/Machine/GuestPage.lean ====
section
/-! DEFINITION. Requests of a guest (R303, R305, R308): its own page GWn under the page rules, HBM through its firewall. -/

namespace Sys2Proof.Machine

/-- MRD: a guest read. A range in the page of GWn is read as any register is (R25, R27, R47). -/
def Pkg.guestRead (p : Pkg) (md : ModeState) (g : Fin 2) (h : BitVec 128) : Pkg :=
  let a := ogp h 63 0
  let len := ogp h 111 100 + 1
  let tag := ogp h 123 112
  if inGw g a len then
    match p.pagesRead md (.guest g) a len with
    | (some b, p) => p.reply tag 0 b false
    | (none, p) => p.reply tag 3 [] false
  else
    match p.firewall g a len true false with
    | none => (p.fwDeny g h).reply tag 1 [] false
    | some pid =>
      p.inTake { agent := 0x1A + g, pid := pid, parts := [(a, len)], op := .read, src := .guest g tag, age := 0 }

/-- MRD. -/
def execMrd (g : Fin 2) (hdr : BitVec 128) (s : State) : Host.Outcome State Fault Refusal :=
  s.upd (fun p => p.onOgp s.mode g.val hdr 1 true (fun p => p.guestRead s.mode g hdr))

/-- A posted guest write: into its own page as any register is written, or through the firewall. -/
def Pkg.guestWrite (p : Pkg) (md : ModeState) (g : Fin 2) (h : BitVec 128) (bytes : List Byte) : Pkg :=
  let a := ogp h 63 0
  let len := ogp h 111 100 + 1
  if inGw g a len then (p.pagesWrite md (.guest g) a (bytes.take len)).2
  else
    match p.firewall g a len false true with
    | none => p.fwDeny g h
    | some pid =>
      p.inTake { agent := 0x1A + g, pid := pid, parts := [(a, len)], op := .write (bytes.take len) (2 ^ len - 1) false,
                 src := .guest g 0, age := 0 }

/-- MWR. -/
def execMwr (g : Fin 2) (hdr : BitVec 128) (bytes : List Byte) (s : State) : Host.Outcome State Fault Refusal :=
  s.upd (fun p => p.onOgp s.mode g.val hdr 2 true (fun p => p.guestWrite s.mode g hdr bytes))

end Sys2Proof.Machine
end

