-- ==== Sys2Proof/Machine/Mac.lean ====
section
/-! DEFINITION. Multiply-accumulate (R139 to R141). -/

namespace Sys2Proof.Machine

/-- An accumulator. -/
def Core.maGet (c : Core) (i : Nat) : Nat := (c.ma.toList.getD i 0).toNat
def Core.maSet (c : Core) (i v : Nat) : Core := if h : i < 4 then { c with ma := c.ma.set i (BitVec.ofNat 128 v) h } else c

/-- The elements of `k` bytes of a source. -/
def chunks (k : Nat) (bs : List Byte) : List Nat := (List.range (bs.length / k)).map (fun i => leNat ((bs.drop (i * k)).take k))

/-- The signed dot product of two sources in elements of `k` bytes. -/
def dot (k : Nat) (a b : List Byte) : Int :=
  ((chunks k a).zip (chunks k b)).foldl (fun s p => s + toInt (8 * k) p.1 * toInt (8 * k) p.2) 0

/-- MAn after an integer element. -/
def macInt (k acc : Nat) (a b : List Byte) : Nat := ofInt 128 ((acc : Int) + dot k a b)

/-- MAn after an F32 element, with the sticky bits. -/
def macF32 (acc : Nat) (a b : List Byte) : FpRes :=
  ((chunks 4 a).zip (chunks 4 b)).foldl (fun r p =>
    let q := macF32Step r.bits p.1 p.2
    { bits := q.bits, st := r.st.or q.st }) { bits := acc % 2 ^ 64, st := Sticky.none }

/-- One element of MAC: both sources are translated, then read, then added. -/
def macElem (f : Nat → List Byte → List Byte → Nat × Sticky) : Elem := fun e c => do
  let (rs, c) ← formOperands e OpUse.plain e.d.ops 0 c
  match rs with
  | [a, b, m] =>
    let x ← readBytes e a
    let y ← readBytes e b
    let n := m.spec.reg
    let r := f (c.maGet n) x y
    let c := c.maSet n r.1
    pure ({ c with psw := r.2.toPsw c.psw }, { tallyRands 0x14 rs (fun _ => false) with macel := 1 })
  | _ => pure (c, Tally.zero)

/-- MAC.B8. -/
def execMacB8 (lc : Lc) (f : Fetch) (s : State) : Out :=
  runCpu lc f "MAC_B8" (op1 0x50) anyLevel (repBody (macElem (fun acc a b => (macInt 1 acc a b, Sticky.none)))) s
/-- MAC.H16. -/
def execMacH16 (lc : Lc) (f : Fetch) (s : State) : Out :=
  runCpu lc f "MAC_H16" (op1 0x51) anyLevel (repBody (macElem (fun acc a b => (macInt 2 acc a b, Sticky.none)))) s
/-- MAC.W32. -/
def execMacW32 (lc : Lc) (f : Fetch) (s : State) : Out :=
  runCpu lc f "MAC_W32" (op1 0x52) anyLevel (repBody (macElem (fun acc a b => (macInt 4 acc a b, Sticky.none)))) s
/-- MAC.F32. -/
def execMacF32 (lc : Lc) (f : Fetch) (s : State) : Out :=
  runCpu lc f "MAC_F32" (op1 0x53) anyLevel (repBody (macElem (fun acc a b => let r := macF32 acc a b; (r.bits, r.st)))) s

/-- MACLR: MAn = 0. -/
def execMaclr (lc : Lc) (f : Fetch) (s : State) : Out :=
  runCpu lc f "MACLR" (op1 0x54) anyLevel (onceBody (fun e c => do
    let (rs, c) ← formOperands e OpUse.plain e.d.ops 0 c
    match rs with
    | [m] => pure (c.maSet m.spec.reg 0, tallyRands 0x14 rs (fun _ => false))
    | _ => pure (c, Tally.zero))) s

/-- MARD: the 16 bytes of MAn to addr(1). -/
def execMard (lc : Lc) (f : Fetch) (s : State) : Out :=
  runCpu lc f "MARD" (op1 0x55) anyLevel (onceBody (fun e c => do
    let (rs, c) ← formOperands e OpUse.plain e.d.ops 0 c
    match rs with
    | [m, a] =>
      let va := a.va.headD 0
      let dev ← checkMem (e.at a) va 16 [1]
      let ts ← openMem (e.at a) va 16
      let c ← commitDests e.md [.mem (e.at a) ts (leBytes 16 (c.maGet m.spec.reg))] c
      let t := tallyRands 0x14 rs (fun _ => false)
      pure (c, { t with stores := [va], devs := if dev then [va] else [] })
    | _ => pure (c, Tally.zero))) s

/-- MAWR: MAn from the 16 bytes at addr(0). -/
def execMawr (lc : Lc) (f : Fetch) (s : State) : Out :=
  runCpu lc f "MAWR" (op1 0x56) anyLevel (onceBody (fun e c => do
    let (rs, c) ← formOperands e OpUse.plain e.d.ops 0 c
    match rs with
    | [a, m] =>
      let va := a.va.headD 0
      let dev ← checkMem (e.at a) va 16 [0]
      let b ← readMem (e.at a) e.md va 16
      let t := tallyRands 0x14 rs (fun _ => false)
      pure (c.maSet m.spec.reg (leNat b), { t with loads := t.loads ++ [va], devs := if dev then [va] else [] })
    | _ => pure (c, Tally.zero))) s

end Sys2Proof.Machine
end

