-- ==== Sys2Proof/Machine/Moves.lean ====
section
/-! DEFINITION. Moves (R125, R126). -/

namespace Sys2Proof.Machine

/-- An element that reads one value and writes one: operand 1 = f (operand 0), no flag changes. -/
def moveElem (f : Env → Rand → Nat → Nat) : Elem := fun e c => do
  let (rs, c) ← formOperands e OpUse.plain e.d.ops 0 c
  match rs with
  | [a, b] =>
    let v ← readVal e a
    let c ← writeVal e b (f e a v) c
    pure (c, tallyRands 0x10 rs (fun _ => false))
  | _ => pure (c, Tally.zero)

/-- NOP. -/
def execNop (lc : Lc) (f : Fetch) (s : State) : Out :=
  runCpu lc f "NOP" (op1 0x01) anyLevel (onceBody (fun _ c => pure (c, { Tally.zero with cls := 0x10 }))) s

/-- MOV: op1 = op0. -/
def execMov (lc : Lc) (f : Fetch) (s : State) : Out :=
  runCpu lc f "MOV" (op1 0x02) anyLevel (repBody (moveElem (fun _ _ v => v))) s

/-- MOVZ: op1 = op0 zero-extended to 64 bits. -/
def execMovz (lc : Lc) (f : Fetch) (s : State) : Out :=
  runCpu lc f "MOVZ" (op1 0x03) anyLevel (repBody (moveElem (fun _ _ v => v))) s

/-- MOVS: op1 = op0 sign-extended to 64 bits. -/
def execMovs (lc : Lc) (f : Fetch) (s : State) : Out :=
  runCpu lc f "MOVS" (op1 0x04) anyLevel (repBody (moveElem (fun _ a v => sext (8 * a.spec.size) 64 v))) s

/-- MOVA: op1 = addr(0). -/
def execMova (lc : Lc) (f : Fetch) (s : State) : Out :=
  runCpu lc f "MOVA" (op1 0x05) anyLevel (onceBody (fun e c => do
    let (rs, c) ← formOperands e OpUse.plain e.d.ops 0 c
    match rs with
    | [a, b] =>
      let c ← writeVal e b (a.va.headD 0) c
      pure (c, tallyRands 0x10 rs (fun _ => false))
    | _ => pure (c, Tally.zero))) s

/-- XCHG: op0 to operand 1, then op1 to operand 0. -/
def execXchg (lc : Lc) (f : Fetch) (s : State) : Out :=
  runCpu lc f "XCHG" (op1 0x06) anyLevel (onceBody (fun e c => do
    let (rs, c) ← formOperands e OpUse.plain e.d.ops 0 c
    match rs with
    | [a, b] =>
      let va ← readBytes e a
      let vb ← readBytes e b
      let d1 ← openDest e b va
      let d0 ← openDest e a vb
      let c ← commitDests e.md [d1, d0] c
      pure (c, tallyRands 0x10 rs (fun _ => false))
    | _ => pure (c, Tally.zero))) s

/-- CLR: writes 0. -/
def execClr (lc : Lc) (f : Fetch) (s : State) : Out :=
  runCpu lc f "CLR" (op1 0x07) anyLevel (repBody (fun e c => do
    let (rs, c) ← formOperands e OpUse.plain e.d.ops 0 c
    match rs with
    | [a] =>
      let c ← writeVal e a 0 c
      pure (c, tallyRands 0x10 rs (fun _ => false))
    | _ => pure (c, Tally.zero))) s

end Sys2Proof.Machine
end

