-- ==== Sys2Proof/Machine/Descriptor.lean ====
section
/-! DEFINITION. The expansion ROM of the service endpoint (R445) with its page descriptor table (R446, R447): what every
page tells of its own fields. -/

namespace Sys2Proof.Machine

/-! ### Field descriptors (R447) -/

/-- Access codes of R447. -/
inductive Acc where
  | ro
  | rw
  | w1c
  | wo
  | rc
  | cfg
  | cmd
  deriving DecidableEq, Repr

/-- ACC (R447). -/
def Acc.code : Acc → Nat
  | .ro => 0 | .rw => 1 | .w1c => 2 | .wo => 3 | .rc => 4 | .cfg => 5 | .cmd => 6

/-- A field of a register, as a field table gives it: name, access, highest and lowest bit, reset value. -/
structure FieldRow where
  name : String
  acc : Acc
  msb : Nat
  lsb : Nat
  reset : Word := 0
  deriving DecidableEq, Repr

/-- A field descriptor: a field of the register at an offset of the page. -/
structure FieldDef where
  name : String
  off : Nat
  row : FieldRow
  deriving DecidableEq, Repr

/-- The fields of a register; a field without a name of its own carries that of the register. -/
def regFields (reg : String) (off : Nat) (fs : List FieldRow) : List FieldDef :=
  fs.map (fun f => { name := if f.name = "" then reg else reg ++ "[" ++ f.name ++ "]", off := off, row := f })

/-- A register that is one field. -/
def wholeReg (reg : String) (off : Nat) (acc : Acc := .ro) : List FieldDef := regFields reg off [⟨"", acc, 63, 0, 0⟩]

/-- A configuration register, by its place in copy A: the place in copy B lies 0x400 above, and descriptors for it as well
would not fit in the ROM (log entry 141). -/
def cfgFields (reg : String) (off : Nat) (fs : List (String × Nat × Nat)) : List FieldDef :=
  regFields reg off (fs.map (fun f => FieldRow.mk f.1 .cfg f.2.1 f.2.2 0))

/-- The first `n` members of an array of registers. -/
def regArray (n : Nat) (f : Nat → List FieldDef) : List FieldDef := (List.range n).flatMap f

/-- The name of a register that the field tables number. An array that they write with a letter keeps the letter in its name:
its members differ in their offsets, and numbered names would not fit in the ROM (log entry 141). -/
def nth (s : String) (k : Nat) : String := s ++ toString k

/-- `n` fields of one name, `w` bits apart, from the lowest. -/
def packed (s : String) (n w width : Nat) (acc : Acc := .ro) : List FieldRow :=
  (List.range n).map (fun k => { name := s, acc := acc, msb := w * k + width - 1, lsb := w * k })

/-- Error bits: each stands in ERRSTAT, ERRMASK and INTEN (R34). -/
def errFields (bits : List (Nat × String)) : List FieldDef :=
  let rows := fun (a : Acc) => bits.map (fun b => FieldRow.mk b.2 a b.1 b.1 0)
  regFields "ERRSTAT" 0x028 (rows .w1c) ++ regFields "ERRMASK" 0x030 (rows .rw) ++ regFields "INTEN" 0x040 (rows .rw)

/-- A counter of 64 bits. -/
def countReg (reg : String) (off : Nat) : List FieldDef := regFields reg off [⟨"COUNT", .ro, 63, 0, 0⟩]

/-! ### The fields of every page type -/

/-- The common header (R29 to R36, R46, R48), the ends of the copies (R40) and the results of tests (R537). The reset values
of INST and DIE differ by page, so a record that several pages share cannot give them; they are left to the part (log entry
141). -/
def headerFields (b : Blk) : List FieldDef :=
  regFields "BLKID" 0x000
    [⟨"TYPE", .ro, 31, 16, BitVec.ofNat 64 b.code⟩, ⟨"INST", .ro, 15, 8, Config.romInst b.code⟩,
     ⟨"DIE", .ro, 3, 0, Config.romDie b.code⟩] ++
  regFields "BLKVER" 0x008
    [⟨"DESIGN", .ro, 31, 16, 0x4B12⟩, ⟨"STEP", .ro, 15, 8, Config.stepping.zeroExtend 64⟩,
     ⟨"LAYOUT", .ro, 7, 0, (Config.layout b.code).zeroExtend 64⟩] ++
  regFields "BLKCAP" 0x010
    [⟨"MISR", .ro, 3, 3, BitVec.ofNat 64 b.hasMisr.toNat⟩, ⟨"IMM", .ro, 2, 2, BitVec.ofNat 64 b.hasImm.toNat⟩,
     ⟨"CFG", .ro, 1, 1, BitVec.ofNat 64 b.hasCfg.toNat⟩, ⟨"SNAP", .ro, 0, 0, 1⟩] ++
  regFields "BLKCTL" 0x018
    ((match b with | .l1d | .l2 | .l3 => [⟨"INVREQ", .cmd, 2, 2, 0⟩] | _ => []) ++
     [⟨"RSTREQ", .cmd, 1, 1, 0⟩, ⟨"EN", .rw, 0, 0, 1⟩]) ++
  regFields "BLKSTAT" 0x020
    [⟨"LASTCMD", .ro, 27, 16, 0⟩, ⟨"STATE", .ro, 15, 8, if b.hasCfg then 0 else 1⟩, ⟨"BUSY", .ro, 4, 4, 0⟩,
     ⟨"LASTST", .ro, 3, 0, 0⟩] ++
  errFields [(3, "REGPAR"), (2, "QOVR"), (1, "CFGREJ"), (0, "CMDSTATE")] ++
  regFields "ERRCOUNT" 0x038 [⟨"COUNT", .rc, 31, 0, 0⟩] ++
  regFields "SNAPCTL" 0x048
    [⟨"MISSED", .ro, 15, 8, 0⟩, ⟨"VALID", .ro, 2, 2, 0⟩, ⟨"ARM", .cmd, 1, 1, 0⟩, ⟨"ARMED", .ro, 0, 0, 1⟩] ++
  regFields "SNAPFRAME" 0x050 [⟨"FRAME", .ro, 63, 16, 0⟩, ⟨"TICKOFF", .ro, 9, 0, 0⟩] ++
  (if b.hasCfg then
    regFields "CFGSEL" 0x058
      [⟨"ADOPTFRM", .ro, 47, 32, 0⟩, ⟨"SEQ", .ro, 31, 16, 0⟩, ⟨"REJ", .ro, 2, 2, 0⟩, ⟨"VALID", .ro, 1, 1, 0⟩,
       ⟨"COPY", .ro, 0, 0, 0⟩] ++
    regFields "A_CRC" 0x7F0 [⟨"CRC", .cfg, 31, 0, 0⟩] ++ regFields "A_SEQ" 0x7F8 [⟨"SEQ", .cfg, 15, 0, 0⟩] ++
    regFields "B_CRC" 0xBF0 [⟨"CRC", .cfg, 31, 0, 0⟩] ++ regFields "B_SEQ" 0xBF8 [⟨"SEQ", .cfg, 15, 0, 0⟩]
   else []) ++
  (if b.hasMisr then
    regFields "BISTSIG" 0x3E8 [⟨"SIG", .ro, 63, 0, 0⟩] ++
    regFields "BISTRES" 0x3F0
      [⟨"DONE", .ro, 63, 63, 0⟩, ⟨"FAIL", .ro, 62, 62, 0⟩, ⟨"WAYFAIL", .ro, 47, 32, 0⟩, ⟨"ARRAY", .ro, 31, 24, 0⟩,
       ⟨"WORD", .ro, 23, 0, 0⟩]
   else [])

/-- QOVRSTAT of a block that runs quota work (R71). -/
def quotaFields : List FieldDef :=
  regFields "QOVRSTAT" 0x3F8 [⟨"TOTAL", .ro, 63, 32, 0⟩, ⟨"LASTFRM", .ro, 31, 16, 0⟩, ⟨"CONSEC", .ro, 7, 0, 0⟩]

/-- CLK, CLU, WDOG and the other small pages of a die (R287 to R292, R538, R541). -/
def dieFields : Blk → List FieldDef
  | .dsvc => regFields "DSSTAT" 0x200 [⟨"HBSENT", .ro, 63, 32, 0⟩, ⟨"DONE", .ro, 3, 0, 0⟩]
  | .clk =>
    errFields [(16, "UNLOCK")] ++
    regFields "CLKSTAT" 0x200 [⟨"LOSS", .ro, 29, 24, 0⟩, ⟨"FABRIC", .ro, 23, 16, 0⟩, ⟨"LOCK", .ro, 5, 0, 0⟩]
  | .wdog =>
    errFields [(17, "DIEEXP"), (16, "UHANG")] ++
    regFields "WDSTAT" 0x200 [⟨"DIECNT", .ro, 47, 40, 0⟩, ⟨"DIEEXP", .ro, 32, 32, 0⟩, ⟨"HUNG", .ro, 19, 0, 0⟩] ++
    cfgFields "WDCFG" 0x400 [("UNITLIM", 31, 16), ("DIELIM", 7, 0)]
  | .bist =>
    regFields "BISTSTAT" 0x200 [⟨"ELAPSED", .ro, 63, 48, 0⟩, ⟨"FAILPG", .ro, 47, 40, 0⟩, ⟨"STATE", .ro, 3, 0, 0⟩] ++
    regFields "BISTCMD" 0xC00 [⟨"GO", .cmd, 31, 31, 0⟩, ⟨"TEST", .rw, 1, 0, 0⟩]
  | .clu =>
    regFields "UNITROLE" 0x200 (packed "ROLE" 5 4 4) ++
    regArray 5 (fun u => regFields "UCECNTu" (0x208 + 8 * u) [⟨"TOTAL", .ro, 63, 32, 0⟩, ⟨"WINDOW", .ro, 15, 0, 0⟩])
  | .reg =>
    regFields "UBIST" 0x3D8 [⟨"FRAME", .ro, 31, 16, 0⟩, ⟨"UNIT", .ro, 8, 0, 0⟩] ++
    regFields "USIGM" 0x3E0 [⟨"SIG", .ro, 63, 0, 0⟩]
  | .dpm =>
    quotaFields ++
    errFields [(19, "VRFAULT"), (18, "NOGRANT"), (17, "THROTTLE"), (16, "OVERBUDGET")] ++
    regFields "DPMSTAT" 0x200 [⟨"GRANT", .ro, 44, 32, 0⟩, ⟨"POWER", .ro, 28, 16, 0⟩, ⟨"DSTATE", .ro, 3, 0, 0⟩] ++
    regArray 4 (fun k => regFields "CLUSTATk" (0x208 + 8 * k)
      [⟨"LIMIT", .ro, 27, 24, 0⟩, ⟨"FREQ", .ro, 23, 16, 0⟩, ⟨"VOLT", .ro, 15, 8, 0⟩, ⟨"STATE", .ro, 1, 0, 0⟩]) ++
    regArray 4 (fun k => wholeReg "RESCL0k" (0x228 + 16 * k) ++ wholeReg "RESCL3k" (0x230 + 16 * k)) ++
    wholeReg "RESDRUN" 0x268 ++ wholeReg "RESDIDLE" 0x270 ++ wholeReg "RESDDRZ" 0x278 ++
    regFields "UNITST" 0x280 (packed "CST" 20 2 2) ++ regFields "VIDCMD" 0x288 [⟨"VOLT", .ro, 7, 0, 0⟩] ++
    cfgFields "DPMCFG" 0x400
      [("CL3AUTO", 40, 40), ("C3WAIT", 39, 32), ("CLUFMAX", 31, 24), ("CLUFMAX", 23, 16), ("CLUFMAX", 15, 8),
       ("CLUFMAX", 7, 0)] ++
    regFields "RESRD" 0xC00 [⟨"GO", .cmd, 31, 31, 0⟩, ⟨"UNIT", .rw, 4, 0, 0⟩] ++
    regArray 3 (fun k => wholeReg (nth "RESDATA" k) (0xC08 + 8 * k))
  | .telem =>
    quotaFields ++
    regFields "SENS0" 0x200 (packed "TCLUk" 4 16 16) ++
    regFields "SENS1" 0x208
      [⟨"SAMPFRM", .ro, 63, 48, 0⟩, ⟨"POWER", .ro, 44, 32, 0⟩, ⟨"VDD", .ro, 31, 16, 0⟩, ⟨"THOT", .ro, 15, 0, 0⟩] ++
    regArray 5 (fun k => regFields (nth "AGE" k) (0x210 + 8 * k) (packed "AGE" 4 16 16)) ++
    regArray 8 (fun k => countReg (nth "DEVC" k) (0x240 + 8 * k)) ++
    regArray 8 (fun k => cfgFields (nth "DEVSEL" k) (0x400 + 8 * k)
      [("EN", 63, 63), ("PIDEN", 62, 62), ("PID", 61, 55), ("NETMASK", 51, 48), ("INSTALL", 47, 47), ("INST", 46, 43),
       ("EVENT", 7, 0)]) ++
    cfgFields "AGEQ" 0x440 [("AGEQ", 7, 0)] ++ cfgFields "TELCFG" 0x448 [("TJTHR", 7, 0)]
  | _ => []

/-- Registers of the cache pages (R180 to R184) and of the unit counters (R518). -/
def cacheFields : Blk → List FieldDef
  | .l1d =>
    errFields [(17, "UE"), (16, "CE")] ++ wholeReg "CYCLE" 0x300 ++
    regArray 8 (fun k => wholeReg (nth "PMC" k) (0x308 + 8 * k)) ++
    regFields "PMOVF" 0x348
      [⟨"MFROZEN", .ro, 17, 17, 0⟩, ⟨"TFROZEN", .ro, 16, 16, 0⟩, ⟨"CYCOVF", .ro, 8, 8, 0⟩, ⟨"OVF", .ro, 7, 0, 0⟩] ++
    regFields "LCID" 0x350 [⟨"PID", .ro, 22, 16, 0⟩, ⟨"LC", .ro, 7, 0, 0⟩]
  | .l2 | .l3 =>
    errFields [(19, "DEPLETED"), (18, "WAYOFF"), (17, "UE"), (16, "CE")] ++
    regFields "WAYSTAT" 0x200 [⟨"AUTODIS", .ro, 31, 16, 0⟩, ⟨"WAYDIS", .ro, 15, 0, 0⟩] ++
    regArray 4 (fun j => regFields (nth "CECNT" j) (0x210 + 8 * j) (packed "CNT" 4 16 16)) ++
    cfgFields "WAYDISCFG" 0x400 [("MASK", 15, 0)]
  | _ => []

/-- Books and links (R273 to R277, R297 to R300). -/
def fabricFields : Blk → List FieldDef
  | .ring | .grid =>
    quotaFields ++ errFields [(20, "REPFAIL"), (19, "MISROUTE"), (18, "OVERFLOW"), (17, "TIMEOUT"), (16, "CREDIT")] ++
    regFields "CENSUS" 0x200 [⟨"BOOKS", .ro, 63, 48, 0⟩, ⟨"UNBAL", .ro, 47, 32, 0⟩, ⟨"LASTBOOK", .ro, 15, 0, 0⟩] ++
    regFields "REPAIR" 0x208 [⟨"FRAMES", .ro, 23, 16, 0⟩, ⟨"STATE", .ro, 1, 0, 0⟩] ++
    countReg "TMOCNT" 0x210 ++ countReg "LATECNT" 0x218 ++ regFields "QUAR" 0x220 [⟨"COUNT", .ro, 15, 0, 0⟩] ++
    countReg "DROPCNT" 0x228
  | .mocor | .mp =>
    errFields
      [(22, "FENCE"), (21, "STALL"), (20, "NARROW"), (19, "LANEFAIL"), (18, "CRCTHR"), (17, "HBMISS"), (16, "CRC")] ++
    regFields "LINKSTAT" 0x200
      [⟨"ATTEMPT", .ro, 63, 48, 0⟩, ⟨"RXGOOD", .ro, 22, 16, 0⟩, ⟨"RXW", .ro, 15, 14, 3⟩, ⟨"TXW", .ro, 13, 12, 3⟩,
       ⟨"LSTATE", .ro, 3, 0, 0⟩] ++
    regArray 3 (fun k => regFields (nth "LANEMAP" k) (0x208 + 8 * k) [⟨"LANES", .ro, 63, 0, 0⟩]) ++
    countReg "CRCCNT" 0x220 ++ countReg "REPLAY" 0x228 ++
    regFields "REPAIRS" 0x230 [⟨"ISOLNONE", .ro, 31, 16, 0⟩, ⟨"COUNT", .ro, 15, 0, 0⟩]
  | _ => []

/-- The routing registers of RING and GRID, and what MPn holds beyond a link's other end (R276, R277, R298 to R300). -/
def fabricCfgFields : Blk → List FieldDef
  | .ring =>
    regArray 9 (fun s => cfgFields "ROUTEs" (0x400 + 8 * s)
      ((List.range 9).flatMap (fun j => [("DIR", 5 * j + 4, 5 * j + 4), ("HOPS", 5 * j + 3, 5 * j)]))) ++
    cfgFields "RTMO" 0x448 [("URGBASE", 11, 8), ("TMO", 7, 0)]
  | .grid =>
    cfgFields "GTMO" 0x400
      [("STW", 63, 56), ("CH", 55, 48), ("GP", 47, 40), ("PE", 39, 32), ("DMA", 31, 24), ("HCE", 23, 16), ("LE", 15, 8),
       ("HOME", 7, 0)] ++
    cfgFields "GURG" 0x408 [("URGBASE", 31, 0)]
  | .mp =>
    quotaFields ++ regFields "LINKSTAT" 0x200 [⟨"FCAUSE", .ro, 39, 32, 0⟩] ++
    regFields "HBLAST" 0x238 [⟨"FRAME", .ro, 47, 0, 0⟩] ++
    cfgFields "MARGQ" 0x400 [("MARGQ", 7, 0)] ++
    cfgFields "MLCFG" 0x408 [("RETRY", 31, 24), ("MARGMIN", 23, 16), ("CRCTHR", 15, 0)] ++
    regFields "FENCECMD" 0xC00 [⟨"ADMIT", .cmd, 2, 2, 0⟩, ⟨"READMIT", .cmd, 1, 1, 0⟩, ⟨"FENCE", .cmd, 0, 0, 0⟩]
  | _ => []

/-- Memory and directory (R253 to R256, R332 to R336). -/
def memFields : Blk → List FieldDef
  | .mc =>
    quotaFields ++
    errFields
      [(22, "DISABLED"), (21, "ROWREQ"), (20, "SUE"), (19, "SCE"), (18, "POISON"), (17, "UE"), (16, "CE")] ++
    regFields "MCSTAT" 0x200 [⟨"DCAUSE", .ro, 7, 4, 0⟩, ⟨"STATE", .ro, 3, 0, 0⟩] ++
    regFields "ERRLOG" 0x208
      [⟨"KIND", .ro, 63, 60, 0⟩, ⟨"NSYM", .ro, 59, 56, 0⟩, ⟨"PCH", .ro, 55, 53, 0⟩, ⟨"BANK", .ro, 52, 48, 0⟩,
       ⟨"ROW", .ro, 46, 32, 0⟩, ⟨"LINE", .ro, 31, 28, 0⟩, ⟨"FSYM", .ro, 22, 16, 0⟩, ⟨"FRAME", .ro, 15, 0, 0⟩] ++
    countReg "CECNT" 0x210 ++ countReg "UECNT" 0x218 ++ countReg "POISONCNT" 0x220 ++
    regFields "SCRUBPOS" 0x228 [⟨"LINE", .ro, 26, 0, 0⟩] ++ countReg "SCRUBPASS" 0x230 ++ countReg "FIXCNT" 0x238 ++
    cfgFields "SCRUBQ" 0x400 [("SCRUBQ", 15, 0)] ++ cfgFields "ECCCFG" 0x408 [("REMAPTHR", 8, 1), ("MODE", 0, 0)]
  | .mcr =>
    regFields "RMCNT" 0x200
      [⟨"FREE", .ro, 56, 48, 256⟩, ⟨"STEWARD", .ro, 40, 32, 0⟩, ⟨"HOST", .ro, 24, 16, 0⟩, ⟨"FUSE", .ro, 8, 0, 0⟩] ++
    regFields "KEYSTAT" 0x208 [⟨"READY", .ro, 0, 0, 0⟩] ++
    regFields "RMCMD" 0xC00 [⟨"SET", .cmd, 31, 31, 0⟩, ⟨"READ", .cmd, 30, 30, 0⟩, ⟨"INDEX", .rw, 7, 0, 0⟩] ++
    regFields "RMDATA" 0xC08 [⟨"ENTRY", .rw, 63, 0, 0⟩]
  | .ds =>
    quotaFields ++ errFields [(20, "BAL"), (19, "DCS"), (18, "PROTO"), (17, "AUDIT"), (16, "DCE")] ++
    regFields "DIRCNT" 0x200 [⟨"FREE", .ro, 59, 40, 524288⟩, ⟨"FENCED", .ro, 39, 20, 0⟩, ⟨"LIVE", .ro, 19, 0, 0⟩] ++
    regFields "PURGE" 0x208 [⟨"REMAIN", .ro, 31, 16, 0⟩, ⟨"FENCEVEC", .ro, 11, 0, 0⟩] ++
    regFields "CONFQ" 0x210 [⟨"HIGH", .rc, 15, 8, 0⟩, ⟨"OCC", .ro, 7, 0, 0⟩] ++
    countReg "STALE" 0x218 ++ countReg "BACKINV" 0x220 ++ countReg "PIDSWAP" 0x228 ++ countReg "POISONWR" 0x230 ++
    regFields "DCSVEC0" 0x238 [⟨"PIDS", .ro, 63, 0, 0⟩] ++ regFields "DCSVEC1" 0x240 [⟨"PIDS", .ro, 63, 0, 0⟩] ++
    cfgFields "AUDQ" 0x400 [("AUDQ", 15, 0)] ++
    regFields "DIRRD" 0xC00 [⟨"GO", .cmd, 31, 31, 0⟩, ⟨"SET", .rw, 18, 4, 0⟩, ⟨"WAY", .rw, 3, 0, 0⟩] ++
    regFields "DIRDATA" 0xC08 [⟨"ENTRY", .ro, 63, 0, 0⟩]
  | .hphy =>
    quotaFields ++
    regFields "PHYSTAT" 0x200
      [⟨"ATTEMPT", .ro, 63, 48, 0⟩, ⟨"TEMP", .ro, 39, 32, 0⟩, ⟨"TRAINED", .ro, 15, 8, 0⟩, ⟨"STATE", .ro, 3, 0, 0⟩] ++
    regFields "CALCNT" 0x208 [⟨"FAIL", .ro, 63, 32, 0⟩, ⟨"DONE", .ro, 31, 0, 0⟩] ++
    cfgFields "CALQ" 0x400 [("CALQ", 7, 0)] ++ regFields "PHYCMD" 0xC00 [⟨"EXCLUDE", .cmd, 0, 0, 0⟩]
  | .dma =>
    cfgFields "DMAWGT" 0x400 ((List.range 16).map (fun k => ("WGTk", 4 * k + 3, 4 * k))) ++
    regFields "DMABUSY" 0x200 [⟨"BUSY", .ro, 15, 0, 0⟩] ++ countReg "DMALINES" 0x208
  | .dmac =>
    errFields [(17, "DBBAD"), (16, "UNCORR")] ++
    cfgFields "DMACFG" 0x400 [("EN", 63, 63), ("INTEN", 31, 31), ("INTID", 23, 16), ("LC", 15, 8), ("PID", 6, 0)] ++
    cfgFields "DMARING" 0x408 [("BASE", 51, 12), ("SIZELOG2", 3, 0)] ++
    regFields "FILLPOS" 0x200 [⟨"ADDR", .ro, 51, 6, 0⟩] ++ regFields "FILLDONE" 0x208 [⟨"LINES", .ro, 31, 0, 0⟩] ++
    regFields "DMAHEAD" 0x210 [⟨"INDEX", .ro, 11, 0, 0⟩] ++ regFields "FILLBASE" 0xC00 [⟨"ADDR", .rw, 51, 6, 0⟩] ++
    regFields "FILLLEN" 0xC08 [⟨"LINES", .rw, 31, 0, 0⟩] ++ regFields "FILLPAT" 0xC10 [⟨"PAT", .rw, 63, 0, 0⟩] ++
    regFields "FILLCMD" 0xC18 [⟨"GO", .cmd, 0, 0, 0⟩] ++ regFields "DMATAIL" 0xC20 [⟨"INDEX", .rw, 11, 0, 0⟩]
  | _ => []

/-- Ledger store and cipher engines (R366, R367, R387 to R390). -/
def ledgerFields : Blk → List FieldDef
  | .le =>
    errFields
      [(23, "PFAIL"), (22, "MIRFAIL"), (21, "MEDIA"), (20, "AUDIT"), (19, "DBBAD"), (18, "DBDENY"), (17, "RING"),
       (16, "UNCORR")] ++
    regFields "LESTAT" 0x200 [⟨"FREE", .ro, 54, 32, 0⟩, ⟨"HOLDUP", .ro, 8, 8, 0⟩, ⟨"PHASE", .ro, 3, 0, 0⟩] ++
    regFields "QPCNT" 0x208 [⟨"NS", .ro, 39, 32, 0⟩, ⟨"HALTED", .ro, 24, 16, 0⟩, ⟨"ACTIVE", .ro, 8, 0, 0⟩] ++
    regFields "INFLIGHT" 0x210 [⟨"SLOTS", .ro, 12, 0, 0⟩] ++ regFields "COMMITSEQ" 0x218 [⟨"SEQ", .ro, 63, 0, 0⟩] ++
    regFields "PFLOG" 0x220 [⟨"ROLLED", .ro, 31, 16, 0⟩, ⟨"FINISHED", .ro, 15, 0, 0⟩] ++ countReg "MIRCNT" 0x228 ++
    cfgFields "ADMSQ" 0x400 [("BASE", 51, 12)] ++ cfgFields "ADMCQ" 0x408 [("BASE", 51, 12)] ++
    cfgFields "ADMCFG" 0x410 [("INTEN", 24, 24), ("LC", 23, 16), ("INTID", 15, 8), ("SIZELOG2", 7, 4), ("EN", 0, 0)] ++
    cfgFields "MIRCFG" 0x418 [("MIRTMO", 7, 0)] ++
    regFields "QPRD" 0xC00 [⟨"GO", .cmd, 31, 31, 0⟩, ⟨"QPID", .rw, 7, 0, 0⟩] ++
    regFields "QPDATA" 0xC08
      [⟨"SQT", .ro, 59, 48, 0⟩, ⟨"SQH", .ro, 43, 32, 0⟩, ⟨"INFL", .ro, 27, 16, 0⟩, ⟨"PRIO", .ro, 15, 15, 0⟩,
       ⟨"PID", .ro, 14, 8, 0⟩, ⟨"HCAUSE", .ro, 7, 4, 0⟩, ⟨"STATE", .ro, 3, 0, 0⟩]
  | .ledb =>
    regArray 64 (fun q => regFields "SQTq" (0xC00 + 16 * q) [⟨"INDEX", .rw, 11, 0, 0⟩] ++
      regFields "CQHq" (0xC08 + 16 * q) [⟨"INDEX", .rw, 11, 0, 0⟩])
  | .lsc =>
    errFields [(18, "FAILED"), (17, "UE"), (16, "CE")] ++
    regFields "LSSTAT" 0x200 [⟨"ATTEMPT", .ro, 63, 48, 0⟩, ⟨"TEMP", .ro, 39, 32, 0⟩, ⟨"STATE", .ro, 3, 0, 0⟩] ++
    countReg "CECNT" 0x208 ++ countReg "UECNT" 0x210
  | .ce | .hce =>
    errFields
      [(21, "AUTH"), (20, "AUDIT"), (19, "EXHAUST"), (18, "HALT"), (17, "DBBAD"), (16, "DBDENY")] ++
    regArray 16 (fun k =>
      cfgFields "SLOTCFGk" (0x400 + 16 * k)
        [("EN", 63, 63), ("PID", 62, 56), ("SIZELOG2", 55, 52), ("INTEN", 51, 51), ("INTID", 47, 40), ("LC", 39, 32),
         ("LIM", 31, 0)] ++
      cfgFields "SLOTRINGk" (0x408 + 16 * k) [("BASE", 51, 12)]) ++
    cfgFields "ENGCFG" 0x500 [("URGMAX", 7, 0)] ++
    regArray 16 (fun k =>
      regFields "SLOTSTATk" (0x200 + 8 * k)
        [⟨"HEAD", .ro, 43, 32, 0⟩, ⟨"HCAUSE", .ro, 15, 12, 0⟩, ⟨"KIND", .ro, 11, 8, 0⟩, ⟨"SWK", .ro, 7, 7, 0⟩,
         ⟨"EXH", .ro, 6, 6, 0⟩, ⟨"SUSP", .ro, 5, 5, 0⟩, ⟨"STATE", .ro, 3, 0, 0⟩] ++
      regFields "SLOTUSEk" (0x280 + 8 * k) [⟨"USE", .ro, 32, 0, 0⟩]) ++
    regArray 8 (fun k => regFields (nth "KEYW" k) (0xC00 + 8 * k) [⟨"KEY", .wo, 63, 0, 0⟩]) ++
    regFields "KEYLD" 0xC40 [⟨"GO", .cmd, 31, 31, 0⟩, ⟨"KIND", .rw, 11, 8, 0⟩, ⟨"SLOT", .rw, 3, 0, 0⟩] ++
    regFields "SLOTRST" 0xC48 [⟨"GO", .cmd, 31, 31, 0⟩, ⟨"SLOT", .rw, 3, 0, 0⟩]
  | .cectx => regArray 16 (fun k => regFields "TAILk" (0xC00 + 8 * k) [⟨"INDEX", .rw, 11, 0, 0⟩])
  | .keyv =>
    regFields "KVSTAT" 0x200 [⟨"LROOT", .ro, 1, 1, 0⟩, ⟨"FORMED", .ro, 0, 0, 0⟩] ++
    regArray 32 (fun k => regFields "GENk" (0x210 + 8 * k) (packed "GEN" 4 16 16)) ++
    regArray 4 (fun k => regFields (nth "EPOCH" k) (0xC00 + 8 * k) [⟨"LABEL", .rw, 63, 0, 0⟩]) ++
    regFields "KVCMD" 0xC20 [⟨"PID", .rw, 14, 8, 0⟩, ⟨"REKEY", .cmd, 1, 1, 0⟩, ⟨"FORM", .cmd, 0, 0, 0⟩]
  | _ => []

/-- HD.STEWARD (R53, R57, R58, R61 to R63, R397, R400, R402, R487, R535). -/
def stewardFields : List FieldDef :=
  quotaFields ++ errFields [(17, "AUDIT"), (16, "ASGNREJ")] ++
  regFields "MODESTAT" 0x210
    [⟨"ENTFRM", .ro, 47, 32, 0⟩, ⟨"WAKE", .ro, 31, 24, 0⟩, ⟨"ORIGIN", .ro, 19, 16, 0⟩, ⟨"PCS", .ro, 13, 13, 0⟩,
     ⟨"FORCED", .ro, 12, 12, 0⟩, ⟨"RET", .ro, 11, 8, 0⟩, ⟨"TARGET", .ro, 7, 4, 1⟩, ⟨"MODE", .ro, 3, 0, 1⟩] ++
  regFields "LOSTSET" 0x218
    [⟨"CHD", .ro, 46, 46, 0⟩, ⟨"CHU", .ro, 45, 45, 0⟩, ⟨"VACANT", .ro, 44, 44, 0⟩, ⟨"ALIGN", .ro, 43, 43, 0⟩,
     ⟨"CREDIT", .ro, 42, 42, 0⟩, ⟨"GUEST", .ro, 41, 40, 0⟩, ⟨"MC", .ro, 39, 24, 0⟩, ⟨"NARROW", .ro, 23, 12, 0⟩,
     ⟨"DIE", .ro, 11, 0, 0⟩] ++
  regFields "DIESTAT" 0x220 (packed "DIE" 12 4 4) ++
  regFields "LOADPROG" 0x228
    [⟨"MAXATT", .ro, 47, 32, 0⟩, ⟨"WAIT", .ro, 26, 16, 0⟩, ⟨"STUCK", .ro, 15, 12, 0⟩, ⟨"READY", .ro, 8, 8, 0⟩,
     ⟨"DONE", .ro, 3, 0, 0⟩] ++
  regFields "EXCLSET" 0x230 [⟨"GUEST", .ro, 17, 16, 0⟩, ⟨"DIE", .ro, 11, 0, 0⟩] ++
  regArray 27 (fun k => regFields "LCPIDk" (0x240 + 8 * k)
    ((List.range 8).map (fun j => ⟨"ENTRY", .ro, 8 * j + 7, 8 * j, 0x80⟩))) ++
  regArray 4 (fun k => regFields "PSTATEk" (0x318 + 8 * k) (packed "STATE" 32 2 2)) ++
  regFields "AUDSTAT" 0x338 [⟨"LAST", .ro, 23, 16, 0⟩, ⟨"FAILS", .ro, 15, 0, 0⟩] ++
  regFields "MCLTAIL" 0x340 [⟨"INDEX", .ro, 11, 0, 0⟩] ++
  regFields "ATTNQ" 0x348
    [⟨"VALID", .ro, 63, 63, 0⟩, ⟨"OVF", .rc, 62, 62, 0⟩, ⟨"DIE", .ro, 15, 12, 0⟩, ⟨"BLOCK", .ro, 11, 0, 0⟩] ++
  countReg "MCDROP" 0x350 ++
  regFields "SNAPCAUSE" 0x358 [⟨"IGNCH", .ro, 23, 16, 0⟩, ⟨"LATE", .ro, 8, 8, 0⟩, ⟨"SRC", .ro, 4, 0, 0⟩] ++
  regFields "SNAPTGT" 0x360 [⟨"ORIG", .ro, 52, 48, 0⟩, ⟨"FRAME", .ro, 47, 0, 0⟩] ++
  cfgFields "STWPOL" 0x400
    [("DRAINLIM", 42, 32), ("ROTHOURS", 31, 16), ("SPARETHR", 15, 8), ("NOREADMIT", 4, 4), ("NOSCRUB", 3, 3),
     ("NOREMAP", 2, 2), ("NOROT", 1, 1), ("NOSPARE", 0, 0)] ++
  cfgFields "STWPOL2" 0x408 [("EVNOTE", 32, 32), ("EVINTID", 31, 24), ("EVLC", 23, 16), ("SCRUBMAX", 15, 0)] ++
  cfgFields "MVEC0" 0x410 [("VEC", 51, 12)] ++ cfgFields "MCLBASE" 0x418 [("BASE", 51, 12)] ++
  cfgFields "MCLCFG" 0x420
    [("EN", 63, 63), ("CEREC", 62, 62), ("SNAPCLS", 60, 56), ("SIZELOG2", 51, 48), ("MCINTID", 47, 40),
     ("ATTNINTID", 39, 32), ("MCLC", 23, 16)] ++
  cfgFields "SNAPSRC" 0x428 [("CHAINOUT", 8, 8), ("CHAININ", 4, 4), ("PINEN", 3, 3), ("MATCHEN", 1, 1), ("SWEN", 0, 0)] ++
  cfgFields "SNAPMATCH" 0x430 [("FRAME", 47, 0)] ++
  regFields "SNAPTRIG" 0xC00 [⟨"TRIG", .cmd, 0, 0, 0⟩] ++ regFields "SNAPARM" 0xC08 [⟨"ARMALL", .cmd, 0, 0, 0⟩] ++
  regFields "MODECMD" 0xC10 [⟨"GO", .cmd, 4, 4, 0⟩, ⟨"TARGET", .rw, 3, 0, 0⟩] ++
  regFields "EXCLCMD" 0xC30 [⟨"GO", .cmd, 31, 31, 0⟩, ⟨"PART", .rw, 4, 0, 0⟩] ++
  regFields "PCMD" 0xC40 [⟨"GO", .cmd, 31, 31, 0⟩, ⟨"LC", .rw, 23, 16, 0⟩, ⟨"PID", .rw, 14, 8, 0⟩, ⟨"OP", .rw, 3, 0, 0⟩] ++
  regFields "PARG" 0xC48 [⟨"VEC", .rw, 51, 12, 0⟩] ++ regFields "MCLHEAD" 0xC58 [⟨"INDEX", .rw, 11, 0, 0⟩]

/-- The other pages of the service island (R14, R15, R65, R293, R410, R436, R523, R535). -/
def islandFields : Blk → List FieldDef
  | .steward => stewardFields
  | .frame =>
    regFields "FRAMENUM" 0x200 [⟨"FRAME", .ro, 47, 0, 0⟩] ++ regFields "TICKPOS" 0x208 [⟨"POS", .ro, 9, 0, 0⟩] ++
    regFields "ALIGN" 0x210
      [⟨"SLIPS", .ro, 63, 32, 0⟩, ⟨"PHERR", .ro, 31, 16, 0⟩, ⟨"MISMATCH", .ro, 2, 2, 0⟩, ⟨"STATE", .ro, 1, 0, 0⟩] ++
    regFields "FRMOFS" 0x218 [⟨"OFS", .ro, 47, 0, 0⟩] ++ cfgFields "FRAMESEED" 0x400 [("SEEDEN", 63, 63), ("SEED", 47, 0)]
  | .cmap =>
    let entries := fun (reg : String) (off : Nat) => regFields reg off
      ((List.range 4).flatMap (fun i =>
        [⟨"STATE", .ro, 16 * i + 15, 16 * i + 14, 0⟩, ⟨"PHYS", .ro, 16 * i + 8, 16 * i, 0⟩]))
    regArray 54 (fun k => entries "CMAPk" (0x200 + 8 * k)) ++
    regArray 6 (fun k => entries "SPSTk" (0x3C0 + 8 * k))
  | .evlog =>
    wholeReg "EVSEQ" 0x200 ++ wholeReg "MCSEQ" 0x208 ++
    regFields "EVRD" 0xC00 [⟨"GO", .cmd, 31, 31, 0⟩, ⟨"INDEX", .rw, 9, 0, 0⟩] ++
    regArray 4 (fun k => wholeReg (nth "EVDATA" k) (0xC08 + 8 * k)) ++
    regFields "MCRD" 0xC40 [⟨"GO", .cmd, 31, 31, 0⟩, ⟨"INDEX", .rw, 7, 0, 0⟩] ++
    regArray 8 (fun k => wholeReg (nth "MCDATA" k) (0xC48 + 8 * k))
  | .hclk =>
    errFields [(16, "UNLOCK")] ++ regFields "HCLKSTAT" 0x200 [⟨"LOCK", .ro, 35, 0, 2⟩] ++
    regFields "HCLKLOSS" 0x208 [⟨"LOSS", .ro, 35, 0, 0⟩]
  | .hpwr =>
    quotaFields ++ errFields [(17, "HOT"), (16, "GSWFAULT")] ++
    regFields "PKGSTAT" 0x200
      [⟨"LIMIT", .ro, 60, 48, 0⟩, ⟨"RESV", .ro, 44, 32, 0⟩, ⟨"GRANTED", .ro, 28, 16, 0⟩, ⟨"POOL", .ro, 12, 0, 0⟩] ++
    regArray 12 (fun d => regFields "GRANTd" (0x208 + 8 * d)
      [⟨"REQ", .ro, 44, 32, 0⟩, ⟨"GRANT", .ro, 28, 16, 0⟩, ⟨"ACK", .ro, 12, 0, 0⟩]) ++
    regArray 8 (fun m => wholeReg "RESMODEm" (0x268 + 8 * m)) ++
    regArray 12 (fun d => wholeReg "RESDOFFd" (0x2A8 + 8 * d) ++ wholeReg "RESDFENd" (0x308 + 8 * d)) ++
    regFields "WAKESET" 0x368 [⟨"HOST", .ro, 33, 33, 0⟩, ⟨"LOSS", .ro, 32, 32, 0⟩, ⟨"WATCH", .ro, 31, 16, 0⟩, ⟨"SRC", .ro, 5, 0, 0⟩] ++
    regFields "THERMSTAT" 0x370
      [⟨"LDG", .ro, 31, 24, 0⟩, ⟨"HBM", .ro, 23, 16, 0⟩, ⟨"HUB", .ro, 15, 8, 0⟩, ⟨"TJ", .ro, 7, 0, 0⟩] ++
    cfgFields "PKGCFG" 0x400 [("DIECAP", 28, 16), ("LIMIT", 12, 0)] ++
    cfgFields "DRZCFG" 0x408 [("TEMPWAKE", 55, 48), ("AUTOFR", 47, 32), ("AUTO", 24, 24), ("SRCDIS", 21, 16), ("K", 15, 0)] ++
    regArray 16 (fun n =>
      cfgFields "WATCHn" (0x410 + 24 * n) [("EN", 63, 63), ("COND", 62, 61), ("PID", 58, 52), ("ADDR", 51, 3)] ++
      cfgFields "WMASKn" (0x418 + 24 * n) [("", 63, 0)] ++ cfgFields "WVALn" (0x420 + 24 * n) [("", 63, 0)]) ++
    cfgFields "CLAMPCFG" 0x590 ((List.range 6).map (fun g => ("GRP", 2 * g + 1, 2 * g)))
  | .htel =>
    quotaFields ++ regFields "HSENS0" 0x200 (packed "THUBq" 4 16 16) ++ regFields "HSENS1" 0x208 (packed "THBM" 4 16 16) ++
    regFields "HSENS2" 0x210 ((List.range 4).map (fun k => ⟨"THBM", .ro, 16 * k + 15, 16 * k, 0⟩)) ++
    regFields "HSENS3" 0x218 [⟨"SAMPFRM", .ro, 47, 32, 0⟩, ⟨"TLS1", .ro, 31, 16, 0⟩, ⟨"TLS0", .ro, 15, 0, 0⟩] ++
    regFields "HVOLT0" 0x220
      [⟨"VDDQ_HBM", .ro, 63, 48, 0⟩, ⟨"VDD_IO", .ro, 47, 32, 0⟩, ⟨"VDD_PHY", .ro, 31, 16, 0⟩, ⟨"VDD_HUB", .ro, 15, 0, 0⟩] ++
    regFields "HVOLT1" 0x228 [⟨"VDD_LDG", .ro, 31, 16, 0⟩, ⟨"VPP_HBM", .ro, 15, 0, 0⟩] ++
    regFields "HPOWER" 0x230 [⟨"PKG", .ro, 12, 0, 0⟩] ++
    regArray 16 (fun k => countReg (nth "HEVC" k) (0x280 + 8 * k)) ++
    regArray 16 (fun k => cfgFields (nth "HEVSEL" k) (0x400 + 8 * k)
      [("EN", 63, 63), ("PIDEN", 62, 62), ("PID", 61, 55), ("NETMASK", 51, 48), ("INSTALL", 47, 47), ("INST", 46, 43),
       ("EVENT", 7, 0)])
  | _ => []

/-- The ports (R307, R311, R448, R455, R459, R473, R474, R482). -/
def portFields : Blk → List FieldDef
  | .pe =>
    errFields [(20, "MSIDROP"), (19, "POISON"), (18, "XLATE"), (17, "UR"), (16, "LINK")] ++
    regFields "PELNK" 0x200 ((List.range 4).flatMap (fun k =>
      [⟨"UP", .ro, 16 * k + 15, 16 * k + 15, 0⟩, ⟨"WIDTH", .ro, 16 * k + 12, 16 * k + 8, 0⟩,
       ⟨"SPEED", .ro, 16 * k + 3, 16 * k, 0⟩])) ++
    countReg "URCNT" 0x208 ++ countReg "XLCNT" 0x210 ++ regFields "ERRADDR" 0x218 [⟨"ADDR", .ro, 47, 0, 0⟩] ++
    cfgFields "PECFG" 0x400 [("MSIADDR", 47, 12), ("BIFUR", 2, 0)] ++
    regArray 4 (fun k => cfgFields "PELINKk" (0x408 + 8 * k) [("EN", 63, 63), ("PID", 62, 56), ("ROOT", 51, 12)]) ++
    regArray 64 (fun v => cfgFields "MSIMAPv" (0x428 + 8 * v)
      [("EN", 31, 31), ("PID", 30, 24), ("LC", 15, 8), ("INTID", 7, 0)]) ++
    regFields "IOINV" 0xC00 [⟨"GO", .cmd, 31, 31, 0⟩, ⟨"SCOPE", .rw, 24, 24, 0⟩, ⟨"LINK", .rw, 17, 16, 0⟩] ++
    regFields "IOADDR" 0xC08 [⟨"ADDR", .rw, 47, 12, 0⟩]
  | .ch =>
    quotaFields ++ errFields [(19, "DENY"), (18, "ENUM"), (17, "LINK"), (16, "CRC")] ++
    regFields "CHSTAT" 0x200
      [⟨"ATTEMPT", .ro, 63, 48, 0⟩, ⟨"GEN", .ro, 39, 32, 0⟩, ⟨"AVALID", .ro, 21, 21, 0⟩, ⟨"CHADDR", .ro, 20, 16, 0⟩,
       ⟨"WIDTH", .ro, 13, 12, 3⟩, ⟨"LSTATE", .ro, 3, 0, 0⟩] ++
    regFields "LINKDLY" 0x208 [⟨"DLY", .ro, 15, 0, 0⟩] ++ countReg "CRCCNT" 0x210 ++ countReg "DENYCNT" 0x218 ++
    regFields "DENYADDR" 0x220 [⟨"SRC", .ro, 47, 43, 0⟩, ⟨"OFS", .ro, 42, 0, 0⟩] ++
    cfgFields "CHCFG" 0x400 [("WAKEOUT", 9, 9), ("ENDCH", 8, 8), ("MARGQ", 7, 0)] ++
    regArray 32 (fun k =>
      cfgFields "EXPQ0k" (0x408 + 16 * k)
        [("EN", 63, 63), ("R", 62, 62), ("W", 61, 61), ("PID", 56, 50), ("SIZE", 49, 44), ("OFS", 42, 12)] ++
      cfgFields "EXPQ1k" (0x410 + 16 * k) [("SRCMASK", 63, 32), ("PA", 24, 0)])
  | .gp =>
    errFields
      [(21, "NEGFAIL"), (20, "CAPCHG"), (19, "FENCE"), (18, "INTDROP"), (17, "LINK"), (16, "PROTO")] ++
    regFields "GLINK" 0x200 [⟨"ATTEMPT", .ro, 63, 48, 0⟩, ⟨"FCAUSE", .ro, 39, 32, 0⟩, ⟨"LSTATE", .ro, 3, 0, 0⟩] ++
    regFields "AGREED" 0x208 [⟨"CAP", .ro, 63, 0, 0⟩] ++ regFields "PEER" 0x210 [⟨"CAP", .ro, 63, 0, 0⟩] ++
    countReg "INTDROPCNT" 0x218 ++ cfgFields "GOFFER" 0x400 [("RETRY", 15, 8), ("PWRCLS", 3, 0)] ++
    regArray 32 (fun v => cfgFields "INTMAPv" (0x408 + 8 * v)
      [("EN", 31, 31), ("PID", 30, 24), ("LC", 15, 8), ("INTID", 7, 0)]) ++
    regFields "FENCECMD" 0xC00 [⟨"READMIT", .cmd, 1, 1, 0⟩, ⟨"FENCE", .cmd, 0, 0, 0⟩]
  | .gfw =>
    errFields [(16, "DENY")] ++ regFields "DENYADDR" 0x200 [⟨"ADDR", .ro, 63, 0, 0⟩] ++
    regFields "DENYINFO" 0x208 [⟨"TYPE", .ro, 31, 28, 0⟩, ⟨"LEN", .ro, 11, 0, 0⟩] ++ countReg "DENYCNT" 0x210 ++
    regArray 64 (fun k => cfgFields "WINk" (0x400 + 8 * k)
      [("EN", 63, 63), ("W", 62, 62), ("R", 61, 61), ("PID", 56, 50), ("SIZE", 49, 44), ("BASE", 36, 12)])
  | .gw => wholeReg "GFRAME" 0xC00 ++ regArray 8 (fun k => wholeReg (nth "GMBOX" k) (0xC40 + 8 * k) .rw)
  | .se =>
    errFields [(20, "PERST"), (19, "FLR"), (18, "EVROVF"), (17, "MBBUSY"), (16, "UR")] ++
    regFields "SESTAT" 0x200
      [⟨"SPEED", .ro, 14, 12, 0⟩, ⟨"WIDTH", .ro, 10, 8, 0⟩, ⟨"LINK", .ro, 4, 4, 0⟩, ⟨"DSTATE", .ro, 1, 0, 0⟩] ++
    (let bits := fun (a : Acc) => [FieldRow.mk "PCS" a 4 4 0, ⟨"EVROVF", a, 3, 3, 0⟩, ⟨"MODE", a, 2, 2, 0⟩, ⟨"MBDONE", a, 1, 1, 0⟩,
      ⟨"EVENT", a, 0, 0, 0⟩]
     regFields "INTSTAT" 0x208 (bits .w1c) ++ regFields "INTCTL" 0xC00 (bits .rw)) ++
    regFields "MBSTAT" 0x210 [⟨"TAG", .ro, 31, 16, 0⟩, ⟨"LOADER", .ro, 8, 8, 1⟩, ⟨"STATE", .ro, 1, 0, 0⟩] ++
    regFields "EVRTAIL" 0x218 [⟨"INDEX", .ro, 11, 0, 0⟩] ++ regFields "ERRADDR" 0x220 [⟨"ADDR", .ro, 51, 0, 0⟩] ++
    countReg "URCNT" 0x228 ++ regFields "STAGEBASE" 0xC08 [⟨"BASE", .rw, 51, 30, 0⟩] ++
    regArray 8 (fun k => regFields (nth "MBREQ" k) (0xC40 + 8 * k) [⟨"REQ", .rw, 63, 0, 0⟩]) ++
    regFields "MBDB" 0xC80 [⟨"GO", .cmd, 31, 31, 0⟩, ⟨"TAG", .rw, 15, 0, 0⟩] ++
    regFields "MBRSP0" 0xCC0 [⟨"TAG", .ro, 31, 16, 0⟩, ⟨"OPC", .ro, 15, 8, 0⟩, ⟨"STATUS", .ro, 7, 0, 0⟩] ++
    regArray 7 (fun k => regFields (nth "MBRSP" (k + 1)) (0xCC8 + 8 * k) [⟨"RESULT", .ro, 63, 0, 0⟩]) ++
    regFields "EVRBASE" 0xD00 [⟨"BASE", .rw, 63, 6, 0⟩] ++
    regFields "EVRCFG" 0xD08 [⟨"EN", .rw, 63, 63, 0⟩, ⟨"SIZELOG2", .rw, 3, 0, 0⟩] ++
    regFields "EVRHEAD" 0xD10 [⟨"INDEX", .rw, 11, 0, 0⟩]
  | _ => []

/-- The fields of a page type in the order of its layout record: ascending offset, descending bit (R447). -/
def layoutOf (b : Blk) : List FieldDef :=
  let lockstat := if b = .l2 then regFields "LOCKSTAT" 0x208 [⟨"LOCKGRP", .ro, 28, 16, 0⟩, ⟨"LOCKWAYS", .ro, 15, 0, 0⟩] else []
  (headerFields b ++ dieFields b ++ cacheFields b ++ lockstat ++ fabricFields b ++ fabricCfgFields b ++ memFields b ++
    ledgerFields b ++ islandFields b ++ portFields b).mergeSort
    (fun x y => decide (x.off < y.off ∨ (x.off = y.off ∧ y.row.msb ≤ x.row.msb)))

/-! ### The table (R446, R447) -/

/-- The block types in the order of the census. -/
def layoutTypes : List Blk := (dieBlocks ++ hubBlocks).map (fun e => e.2.2)

/-- A sixteen-byte entry, quad 0 first. -/
def entry16 (q0 q1 : Nat) : List Byte := leBytes 8 q0 ++ leBytes 8 q1

/-- Table offset of a page type's layout record; the records follow the page entries in the order of the census (log entry
141). -/
def layoutOffset (b : Blk) : Nat :=
  64 + 16 * 622 + ((layoutTypes.takeWhile (fun c => c != b)).map (fun c => 2 + 16 * (layoutOf c).length)).sum

/-- Table offset of the string table: it follows the last layout record (log entry 141). -/
def stringOffset : Nat := 64 + 16 * 622 + (layoutTypes.map (fun c => 2 + 16 * (layoutOf c).length)).sum

/-- The names, each once. -/
def stringTable : List String := (layoutTypes.flatMap (fun b => (layoutOf b).map (·.name))).eraseDups

/-- The bytes of the string table: every name ends in 0x00. -/
def stringBytes : List Byte := stringTable.flatMap (fun s => s.toUTF8.toList.map (fun c => BitVec.ofNat 8 c.toNat) ++ [0])

/-- String-table offset of a name. -/
def nameOffset (s : String) : Nat := ((stringTable.takeWhile (fun t => t != s)).map (fun t => t.utf8ByteSize + 1)).sum

/-- The page entry (R446); every window register follows the default of R47, so WINMAP is 0 (R518, log entry 141). -/
def pageEntry (pg : Nat) : List Byte :=
  match blkOf pg with
  | none => []
  | some (b, _) =>
    entry16 (b.code * 2 ^ 48 + (Config.layout b.code).toNat * 2 ^ 40 + pg % 4096 * 2 ^ 16 + pg / 4096)
      (layoutOffset b * 2 ^ 32)

/-- A field descriptor's sixteen bytes (R447). -/
def fieldEntry (f : FieldDef) : List Byte :=
  entry16 (nameOffset f.name * 2 ^ 32 + f.row.acc.code * 2 ^ 29 + f.row.msb * 2 ^ 22 + f.row.lsb * 2 ^ 16 + f.off)
    f.row.reset.toNat

/-- A layout record (R447). -/
def layoutRecord (b : Blk) : List Byte := leBytes 2 (layoutOf b).length ++ (layoutOf b).flatMap fieldEntry

/-- The header of the table (R446); its quads 4 to 7 are 0 (log entry 141). -/
def tableHeader : List Byte :=
  [622, layoutOffset .dsvc, stringOffset, Config.stepping.toNat, 0, 0, 0, 0].flatMap (leBytes 8)

/-- The page descriptor table. -/
def descriptorTable : List Byte :=
  tableHeader ++ allPages.flatMap pageEntry ++ layoutTypes.flatMap layoutRecord ++ stringBytes

/-! ### The ROM (R445) -/

/-- The header's fixed bytes: the signature, the pointer to the PCI data structure and that structure. The bytes that R445
does not give (the code, the class, the image length, ...) are the part's. -/
def romHeadByte (off : Nat) : Option Byte :=
  match off with
  | 0x00 => some 0x55
  | 0x01 => some 0xAA
  | 0x18 => some 0x1C
  | 0x19 => some 0x00
  | 0x1C => some 0x50
  | 0x1D => some 0x43
  | 0x1E => some 0x49
  | 0x1F => some 0x52
  | 0x20 => some 0x6E
  | 0x21 => some 0x1F
  | 0x22 => some 0x12
  | 0x23 => some 0x4B
  | 0x31 => some 0x80
  | _ =>
    if 0x108 ≤ off ∧ off < 0x110 then (leBytes 8 0x1000)[off - 0x108]?
    else if 0x110 ≤ off ∧ off < 0x118 then (leBytes 8 0x20000)[off - 0x110]?
    else none

/-- A byte of the ROM, its two CRCs apart. -/
def romBodyByte (off : Nat) : Byte :=
  if off < 0x1000 then (romHeadByte off).getD (Config.expansionRom off)
  else if off < 0x20000 then Config.expansionRom off
  else descriptorTable.getD (off - 0x20000) (Config.expansionRom off)

/-- The CRC-32C of the ROM with its last 8 bytes as 0; the header's own copy of it is taken as 0 too (log entry 141). -/
def romCrc : Nat :=
  crc32c ((List.range 0x40000).map (fun o =>
    if 0x3FFF8 ≤ o ∨ (0x118 ≤ o ∧ o < 0x120) then 0 else romBodyByte o))

/-- A byte of the expansion ROM (R445). -/
def romByte (off : Nat) : Byte :=
  if 0x118 ≤ off ∧ off < 0x120 then (leBytes 8 romCrc).getD (off - 0x118) 0
  else if 0x3FFF8 ≤ off then (leBytes 8 romCrc).getD (off - 0x3FFF8) 0
  else romBodyByte off

end Sys2Proof.Machine
end

