-- ==== Sys2Proof/Machine/Service.lean ====
section
/-! DEFINITION. The rows of the service endpoint: BAR accesses, configuration writes, INTA and PME, function and link resets,
the event ring, the mailbox opcodes of the steward, and the test access port (R437 to R459, R542, R543, R561). -/

namespace Sys2Proof.Machine

/-! ### BAR0 and BAR2 (R441 to R444) -/

/-- The function takes memory requests: its link is up and no function reset runs. -/
def Pkg.seTakes (p : Pkg) : Bool := p.seHears && !p.se.flr && !p.se.cold

/-- A memory request is claimed: Memory Space Enable is 1 and the function is in D0 (R442, R450). -/
def Pkg.seClaims (p : Pkg) : Bool := p.seMem && p.seD0

/-- Unsupported Request for a request that is not recorded (R442). -/
def Pkg.barUnclaimed (p : Pkg) (op : BusOp) : Pkg :=
  match op with
  | .read _ => p.reply 0 1 [] false
  | .write _ => p

/-- A request refused under R442. -/
def Pkg.barRefused (p : Pkg) (pa : Nat) (op : BusOp) : Pkg :=
  match op with
  | .read _ => (p.seUr pa).reply 0 1 [] false
  | .write _ => p.seUrWrite pa

/-- A BAR0 request that the function claims: it reaches its page with reach H (R441). -/
def Pkg.bar0 (p : Pkg) (md : ModeState) (off : Nat) (op : BusOp) : Pkg :=
  let pa := 0xFF00000000000 + off
  match op with
  | .read n =>
    match p.pagesRead md .host pa n with
    | (some b, q) => q.reply 0 0 b false
    | (none, q) => q.barRefused pa op
  | .write b =>
    match p.pagesWrite md .host pa b with
    | (true, q) => q
    | (false, q) => q.barRefused pa op

/-- BAR0_ACCESS (R441, R442). -/
def execBar0Access (off : Nat) (op : BusOp) (s : State) : Host.Outcome State Fault Refusal :=
  s.upd (fun p =>
    if !p.seTakes || !decide (off < 2 ^ 28) then p
    else if !p.seClaims then p.barUnclaimed op
    else p.bar0 s.mode off op)

/-- The steward load area (R443). -/
def Pkg.loadArea (p : Pkg) (off : Nat) (op : BusOp) : Pkg :=
  match op with
  | .read n => p.reply 0 0 (memBytes p.se.load off n) false
  | .write b =>
    let se := { p.se with load := memSetBytes p.se.load off b }
    { p with se := se }

/-- Length of a request. -/
def busLen : BusOp → Nat
  | .read n => n
  | .write b => b.length

/-- The physical address of an offset of BAR2 in HBM (R443). -/
def Pkg.stageAddr (p : Pkg) (off : Nat) : Nat := p.rf pgSE 0xC08 51 30 * 2 ^ 30 + off

/-- An HBM access of BAR2, as agent 0x1E under PID 0 (R444). -/
def Pkg.bar2Hbm (p : Pkg) (off : Nat) (op : BusOp) : Pkg :=
  let pa := p.stageAddr off
  if hbmSize < pa + busLen op then p.barRefused pa op
  else
    let n := busLen op
    p.inTake { agent := 0x1E, pid := 0, parts := [(pa, n)],
               op := match op with | .read _ => .read | .write b => .write b (2 ^ n - 1) false, src := .host pa, age := 0 }

/-- A request to BAR2 that the function claims (R443). The address recorded for an offset without a target is that of the
window (log entry 42). -/
def Pkg.bar2 (p : Pkg) (md : Mode) (off : Nat) (op : BusOp) : Pkg :=
  match md with
  | .off => p
  | .service =>
    if !p.stw.running && decide (off + busLen op ≤ 0x200000) then p.loadArea off op
    else p.barRefused (p.stageAddr off) op
  | _ => p.bar2Hbm off op

/-- A request to the expansion ROM: a read returns its bytes, a write is discarded, for the ROM is mask ROM (R445). -/
def Pkg.romAccess (p : Pkg) (off : Nat) (op : BusOp) : Pkg :=
  match op with
  | .read n => p.reply 0 0 ((List.range n).map (fun i => romByte (off + i))) false
  | .write _ => p

/-- Enable of the Expansion ROM BAR (R438). -/
def Pkg.romOn (p : Pkg) : Bool := (p.seCfg 0x0C).getLsbD 0

/-- BAR2_ACCESS (R443, R445): a window is claimed within its size, the ROM while its Enable is 1. -/
def execBar2Access (win : SeWindow) (off : Nat) (op : BusOp) (s : State) : Host.Outcome State Fault Refusal :=
  s.upd (fun p =>
    if !p.seTakes then p
    else
      match win with
      | .bar2 =>
        if !decide (off < 2 ^ 30) then p
        else if !p.seClaims then p.barUnclaimed op
        else p.bar2 s.mode.mode off op
      | .rom =>
        if !decide (off + busLen op ≤ 0x40000) then p
        else if !p.seClaims || !p.romOn then p.barUnclaimed op
        else p.romAccess off op)

/-! ### Configuration space (R438 to R440, R450, R453) -/

/-- Initiate Function Level Reset: ERRSTAT[FLR] sets, and configuration requests get retry status until it ends (R453). -/
def Pkg.startFlr (p : Pkg) : Pkg :=
  let se := { p.se with flr := true }
  ({ p with se := se }).setEvent pgSE 19 1

/-- A write of PMCSR: PowerState takes D0 and D3hot only, PME_Status is cleared by a 1 (R439, R450, R451). -/
def Pkg.writePmcsr (p : Pkg) (v : BitVec 32) : Pkg :=
  let old := p.seCfg 0x11
  let ps : BitVec 32 := if v &&& 3 = 0 ∨ v &&& 3 = 3 then v &&& 3 else old &&& 3
  p.setSeCfg 0x11 (ps ||| (v &&& 0x100) ||| (old &&& ~~~v &&& 0x8000))

/-- A configuration write that the function takes. -/
def Pkg.seCfgWrite (p : Pkg) (n : Nat) (v : BitVec 32) : Pkg :=
  match n with
  | 0x11 => p.writePmcsr v
  | 0x16 =>
    let old := p.seCfg n
    let p := p.setSeCfg n ((v &&& seCfgMask n) ||| (old &&& ~~~v &&& 0x80000))
    if v.getLsbD 15 then p.startFlr else p
  | 0x41 => p.setSeCfg n (p.seCfg n &&& ~~~v)
  | _ =>
    let m := seCfgMask n
    p.setSeCfg n ((p.seCfg n &&& ~~~m) ||| (v &&& m))

/-- SE_CONFIG_WRITE. -/
def execSeConfigWrite (off : Nat) (v : BitVec 32) (s : State) : Host.Outcome State Fault Refusal :=
  s.upd (fun p =>
    if !p.seTakes || !decide (off < 4096) || off % 4 != 0 then p
    else p.seCfgWrite (off / 4) v)

/-- FRAMELO_READ: FRAME bits 47:32 are latched into FRAMEHI (R440). -/
def execFrameloRead (s : State) : Host.Outcome State Fault Refusal :=
  s.upd (fun p =>
    if !p.seTakes then p
    else
      let se := { p.se with framehi := p.frameNum / 2 ^ 32 % 2 ^ 16 }
      let v := p.seCfgRead s.mode.mode.code 0x28
      ({ p with se := se }).reply 0 0 (leBytes 4 v.toNat) false)

/-- FUNCTION_LEVEL_RESET (R453). -/
def execFunctionLevelReset (s : State) : Host.Outcome State Fault Refusal :=
  s.upd (fun p => if p.seTakes then p.startFlr else p)

/-- FLR_COMPLETE: requests received and not yet forwarded are discarded too (R452, R453). -/
def execFlrComplete (s : State) : Host.Outcome State Fault Refusal :=
  s.upd (fun p => if p.se.flr then (p.inDrop 0x1E).seFnReset else p)

/-! ### The link and its reset pin (R437, R450 to R452) -/

/-- SVC_PERST: SVC_PERST_N is asserted. -/
def execSvcPerst (s : State) : Host.Outcome State Fault Refusal :=
  s.upd (fun p =>
    if p.pw.perst then p
    else
      let pw := { p.pw with perst := true }
      let p : Pkg := { p with pw := pw }
      if !p.powered pgSE then p else ((p.inDrop 0x1E).setEvent pgSE 20 1).seFnReset.seLinkOff)

/-- SVC_PERST_RELEASE: SVC_PERST_N is deasserted; the link trains, and in D3cold SVC_WAKE_N is released and PM_PME is sent
(R451). -/
def execSvcPerstRelease (s : State) : Host.Outcome State Fault Refusal :=
  s.upd (fun p =>
    if !p.pw.perst then p
    else
      let pw := { p.pw with perst := false }
      let p : Pkg := { p with pw := pw }
      if !p.powered pgSE then p
      else
        let wake := p.se.wakeN
        let se := { p.se with cold := false, wakeN := false }
        let p := ({ p with se := se }).seTrain
        if wake then p.seMessage 0x18 else p)

/-- SE_LINK_DOWN: SESTAT[LINK] reads 0; a function in D3hot is in D3cold (R437, R450). -/
def execSeLinkDown (s : State) : Host.Outcome State Fault Refusal :=
  s.upd (fun p =>
    if !p.seLink then p
    else
      let se := { p.se with cold := p.seD3 }
      ({ p with se := se }).seLinkOff)

/-! ### INTA and PME (R449, R451) -/

/-- INTA_UPDATE: when the link can transmit, a level that differs from the last message sends the other one. -/
def execIntaUpdate (s : State) : Host.Outcome State Fault Refusal :=
  s.upd (fun p =>
    if !p.seHears || p.wireLevel == p.se.inta then p
    else
      let se := { p.se with inta := p.wireLevel }
      ({ p with se := se }).seMessage (if p.wireLevel then 0x20 else 0x24))

/-- PME: the wire level computed as for D0 is 1 in D3hot or D3cold with PME_En, and no PME is signalled yet. -/
def execPme (s : State) : Host.Outcome State Fault Refusal :=
  s.upd (fun p =>
    if !p.powered pgSE || !p.pmeEn || !(p.seD3 || p.se.cold) || !p.levelD0 || p.pmeStatus then p
    else
      let q := p.setSeCfg 0x11 (p.seCfg 0x11 ||| 0x8000)
      if p.se.cold then
        let se := { q.se with wakeN := true }
        { q with se := se }
      else if p.seHears then q.seMessage 0x18
      else q)

/-! ### The event ring (R454) -/

/-- The oldest record of the steward log that is not yet copied. -/
def Pkg.evrNext (p : Pkg) : Option EvRec :=
  (p.stw.events.filter (fun e => decide (p.se.evrSeq < e.seq))).getLast?

/-- The ring runs: EN, Bus Master Enable, D0, and a link that is up. -/
def Pkg.evrRuns (p : Pkg) : Bool := bit (p.reg pgSE 0xD08) 63 && p.seMaster && p.seD0 && p.seTakes

/-- The ring is full: EVROVF is raised once (R454). -/
def Pkg.evrOverflow (p : Pkg) : Pkg :=
  if p.se.evrFull then p
  else
    let se := { p.se with evrFull := true }
    let p : Pkg := { p with se := se }
    (p.setRf pgSE 0x208 3 3 1).setEvent pgSE 18 1

/-- The record is written to host memory at EVRBASE + 32 x EVRTAIL, and EVRTAIL advances. -/
def Pkg.evrCopy (p : Pkg) (e : EvRec) : Pkg :=
  let t := p.rf pgSE 0x218 11 0
  let se := { p.se with evrSeq := e.seq, evrFull := false }
  let p : Pkg := { p with se := se }
  (p.setReg pgSE 0x218 (BitVec.ofNat 64 ((t + 1) % p.evrSize))).reply
    (p.rf pgSE 0xD00 63 6 * 64 + 32 * t) 0 (e.quads.flatMap (fun q => leBytes 8 q.toNat)) false

/-- EVENT_RING_COPY. -/
def execEventRingCopy (s : State) : Host.Outcome State Fault Refusal :=
  s.upd (fun p =>
    if !p.evrRuns then p
    else
      match p.evrNext with
      | none => p
      | some e =>
        if (p.rf pgSE 0x218 11 0 + 1) % p.evrSize = p.rf pgSE 0xD10 11 0 then p.evrOverflow else p.evrCopy e)

/-- EVRHEAD_WRITE (R454). -/
def execEvrheadWrite (who : Requester) (v : Word) (s : State) : Host.Outcome State Fault Refusal :=
  s.upd (fun p => p.cmd who pgSE 0xD10 (fun p => p.writeEvrhead v))

/-! ### The mailbox (R455 to R458) -/

/-- MAILBOX_GO: MBDB is written with GO (R456). -/
def execMailboxGo (who : Requester) (tag : BitVec 16) (s : State) : Host.Outcome State Fault Refusal :=
  s.upd (fun p => p.cmd who pgSE 0xC80 (fun p => p.writeMbdb (BitVec.ofNat 64 (2 ^ 31 + tag.toNat))))

/-- The version at expansion-ROM offset 0x100 (R445). -/
def romVersion : Word := BitVec.ofNat 64 (leNat ((List.range 8).map (fun i => romByte (0x100 + i))))

/-- IDENT. -/
def execIdent (s : State) : Host.Outcome State Fault Refusal :=
  s.upd (fun p =>
    if !p.mbHas 1 then p
    else
      p.mbRespond .ok [BitVec.ofNat 64 (p.rf pgSE 0x210 8 8), if p.stw.running then p.stw.imageVer else romVersion,
        BitVec.ofNat 64 p.chainAddr])

/-- The length that STWLOAD takes: a multiple of 64 from 64 to 2 MiB. -/
def stwLenOk (n : Nat) : Bool := n != 0 && n % 64 == 0 && decide (n ≤ 0x200000)

/-- STWLOAD: the vendor signature that ends the staged image is checked; `sigOk` says whether it verifies. -/
def execStwload (sigOk : Bool) (s : State) : Host.Outcome State Fault Refusal :=
  s.upd (fun p =>
    let n := (p.mbReq 1).toNat
    if !p.mbHas 2 then p
    else if p.stw.running then p.mbRespond .badOpc []
    else if s.mode.mode ≠ .service then p.mbRespond .wrongState []
    else if !stwLenOk n then p.mbRespond .badArg []
    else if !sigOk then p.mbRespond .sigFail []
    else
      let stw := { p.stw with image := true, imageVer := Config.imageVersion (memBytes p.se.load 0 n) }
      (({ p with stw := stw }).unripe .image 0).mbRespond .ok [])

/-- STEWARD_IMAGE_START: at the tick after a successful STWLOAD the image starts; LOADER becomes 0. -/
def execStewardImageStart (s : State) : Host.Outcome State Fault Refusal :=
  s.upd (fun p =>
    if !p.stw.image || p.stw.running || !p.isRipe .image 0 then p
    else
      let stw := { p.stw with running := true }
      ({ p with stw := stw }).setRf pgSE 0x210 8 8 0)

/-- The identifiers of an UNITFAIL request: four to a quad, quads 2 to 7. -/
def Pkg.failIds (p : Pkg) (n : Nat) : List Nat :=
  (List.range n).map (fun k => fld (p.mbReq (2 + k / 4)) (16 * (k % 4) + 8) (16 * (k % 4)))

/-- The list of failed units is replaced (R10, R457). -/
def Pkg.setFailed (p : Pkg) (ids : List Nat) : Pkg :=
  (List.range 240).foldl (fun (p : Pkg) (u : Nat) =>
    p.setUnit u { p.unit u with failed := ids.contains (physId (u / 20) (u % 20)) }) p

/-- UNITFAIL. An invalid identifier ends it with WRONG_STATE, and the page that carried the command out reports the wrong-state
response (R8, R38; log entry 139). -/
def execUnitfail (s : State) : Host.Outcome State Fault Refusal :=
  s.upd (fun p =>
    let n := (p.mbReq 1).toNat
    let allowed : Bool := s.mode.mode == .service || (s.mode.mode == .load && !p.stw.mapBuilt)
    if !p.mbHas 3 then p
    else if !p.stw.running then p.mbRespond .badOpc []
    else if !allowed then p.mbRespond .wrongState []
    else if 24 < n then p.mbRespond .badArg []
    else if !(p.failIds n).all physOk then (p.mbRespond .wrongState []).cmdWrong pgSE 0xC80
    else (p.setFailed (p.failIds n)).mbRespond .ok [])

/-! ### The expected-signature file (R542, R543) -/

/-- Entry `e` of the file: TYPE, LAYOUT, TEST, MISR. -/
def sigEntry (f : List Byte) (e : Nat) : Nat × Nat × Nat × Word :=
  let b := f.drop (64 + 16 * e)
  (leNat (b.take 2), leNat ((b.drop 2).take 1), leNat ((b.drop 3).take 1), BitVec.ofNat 64 (leNat ((b.drop 8).take 8)))

/-- Entries of the file that its header counts. -/
def sigEntries (f : List Byte) : List (Nat × Nat × Nat × Word) :=
  (List.range (leNat ((f.drop 6).take 2))).map (sigEntry f)

/-- No two entries name the same TYPE, LAYOUT and TEST. -/
def sigDistinct : List (Nat × Nat × Nat × Word) → Bool
  | [] => true
  | e :: t => t.all (fun x => !(x.1 == e.1 && x.2.1 == e.2.1 && x.2.2.1 == e.2.2.1)) && sigDistinct t

/-- The file passes the checks of R543 against R542's layout. -/
def sigFileOk (f : List Byte) : Bool :=
  let n := leNat ((f.drop 6).take 2)
  f.length == 64 + 16 * n && decide (1 ≤ n) && decide (n ≤ 1024) && f.take 4 == [0x4B, 0x48, 0x53, 0x47] &&
    leNat ((f.drop 4).take 2) == 1 && leNat ((f.drop 8).take 2) == 0x4B12 &&
    leNat ((f.drop 10).take 1) == Config.stepping.toNat &&
    leNat ((f.drop 60).take 4) == crc32c (f.take 60 ++ [0, 0, 0, 0] ++ f.drop 64) && sigDistinct (sigEntries f)

/-- Length and address that EXPSIG takes: in HBM, 64-byte aligned, 64 + 16 x count. -/
def sigPlaceOk (pa len : Nat) : Bool :=
  pa % 64 == 0 && decide (pa + len ≤ hbmSize) && len % 16 == 0 && decide (80 ≤ len) && decide (len ≤ 64 + 16 * 1024)

/-- EXPSIG. While the read waits for a home, the request stays BUSY. -/
def execExpsig (s : State) : Host.Outcome State Fault Refusal :=
  s.upd (fun p =>
    let pa := (p.mbReq 1).toNat
    let len := (p.mbReq 2).toNat
    if !p.mbHas 4 then p
    else if !p.stw.running then p.mbRespond .badOpc []
    else if s.mode.mode == .off || s.mode.mode == .service then p.mbRespond .wrongState []
    else if !sigPlaceOk pa len then p.mbRespond .badArg []
    else
      match p.ioReadRange 0x1E 0 pa len with
      | (.waiting, _) => p
      | (.err _, q) => q.mbRespond .error []
      | (.done f po, q) =>
        if po then q.mbRespond .error []
        else if !sigFileOk f then q.mbRespond .badArg []
        else
          let stw := { q.stw with expsig := some (sigEntries f) }
          ({ q with stw := stw }).mbRespond .ok [])

/-! ### The test access port (R561) -/

/-- The TAP instruction that takes effect: while PKG_RESET_N is high only BYPASS and IDCODE. -/
def tapActs (resetHigh : Bool) (ir : Nat) : Nat := if resetHigh && decide (1 < ir) then 0 else ir

/-- IDCODE: the part number in bits 27:12, 1 in bit 0 (IEEE 1149.1), the remaining fields as the part has them. -/
def idcode : BitVec 32 := (Config.idcodeRest &&& 0xF0000FFE) ||| 0x04B12001

/-- TAP_INSTRUCTION. -/
def execTapInstruction (ir : Nat) (s : State) : Host.Outcome State Fault Refusal :=
  s.upd (fun p =>
    let ir := tapActs (s.mode.mode != .off) ir
    let pw := { p.pw with tap := ir }
    let p : Pkg := { p with pw := pw }
    if ir = 1 then p.reply 0 0 (leBytes 4 idcode.toNat) false else p)

end Sys2Proof.Machine
end

