-- ==== Sys2Proof/Machine/CacheMaint.lean ====
section
/-! DEFINITION. Cache maintenance by line and way locking (R153, R154, R167, R168). -/

namespace Sys2Proof.Machine

/-- A die writes a dirty line back to memory and keeps it clean (R153). -/
def Pkg.dieClean (p : Pkg) (d line : Nat) : Pkg :=
  match p.dline d line with
  | some x =>
    if x.st = .m ∧ !x.evicting then
      let (ok, p) := p.lineWrite line x.pid x.data x.poison
      if ok then
        let p := p.putDline d line (some { x with st := .e })
        (dieArrays d).foldl (fun p c => p.cacheModify c line (fun w => { w with dirty := false })) p
      else p
    else p
  | none => p

/-- CWB and CINV of one line of a PID on every die (R153). -/
def Pkg.maintLine (p : Pkg) (line pid : Nat) (inval : Bool) : Pkg :=
  (List.range 12).foldl (fun p d =>
    match p.dline d line with
    | some x => if x.pid ≠ pid then p else if inval then Pkg.settle 60 [line] (p.dieEvict d line) else p.dieClean d line
    | none => p) p

/-- CWBA and CINVA: every line of a PID on every die. -/
def Pkg.maintAll (p : Pkg) (pid : Nat) (inval : Bool) : Pkg :=
  (List.range 12).foldl (fun p d =>
    let ls := ((p.dieLines d).filter (fun e => e.2.pid == pid)).map (·.1)
    ls.foldl (fun p l => if inval then Pkg.settle 60 [l] (p.dieEvict d l) else p.dieClean d l) p) p

/-- A way of a set, by number, that `f` holds of; the lowest. -/
def CSet.findWay (s : CSet) (n : Nat) (f : CWay → Bool) : Option Nat := (List.range n).find? (fun w => f (s.way w))

/-- How one line of a CLOCKW ended. -/
inductive LockRes where
  | locked | refused | waiting
  | err (status : Nat)
  deriving DecidableEq, Repr

/-- Write one way of array `c` in the set of a line and refresh LOCKSTAT. -/
def Pkg.putWay (p : Pkg) (c line w : Nat) (x : CWay) : Pkg :=
  let i := cacheSet c line
  (p.setCache c ((p.cache c).putSet i (((p.cache c).set i).putWay w x))).refreshLockstat c

/-- Fill a line for a lock: the die has it by a shared read, and the L2 reads it from its L3 (R167). -/
def Pkg.lockFill (p : Pkg) (u line pid : Nat) : Pkg :=
  let c3 := cL3 (u / 20 * 2 + sliceOf line)
  match p.cacheHit c3 line pid with
  | some w => p.cacheTouch c3 line w false
  | none => p.fillL3 c3 line pid false

/-- CLOCKW of one line into the L2 of the cluster of unit `u` (R154, R167). The line is fetched by a shared read. A line
found in a way being swept is swept at once and placed anew (R172). -/
def Pkg.lockLine (p : Pkg) (u line pid : Nat) : LockRes × Pkg :=
  let c := cL2 (clusterOf u)
  if !p.cacheOn c then (.refused, p)
  else if p.sliceHeld u line then (.waiting, p)
  else
    let set := fun (p : Pkg) => (p.cache c).set (cacheSet c line)
    let p := p.sweepHits u line pid
    let mine := (set p).findWay 16 (fun w => w.locked && w.line == line && w.pid == pid)
    let here := (set p).findWay 16 (fun w => w.valid && !w.locked && w.line == line && w.pid == pid)
    let count := ((List.range 16).filter (fun w => ((set p).way w).locked)).length
    match mine, here with
    | some w, _ =>
      if ((set p).way w).valid then (.locked, p)
      else
        match p.dieAcquire (u / 20) line pid false with
        | (.ok, p) =>
          -- a copy in an unlocked way moves into the locked one
          let copy := (set p).findWay 16 (fun w => w.valid && !w.locked && w.line == line && w.pid == pid)
          let dirty := match copy with | some k => ((set p).way k).dirty | none => false
          let p := match copy with | some k => p.putWay c line k CWay.empty | none => p.lockFill u line pid
          let p := p.putWay c line w { valid := true, line := line, pid := pid, dirty := dirty, locked := true, stale := false }
          (.locked, p.cacheTouch c line w false)
        | (.err st, p) => (.err st, p)
        | (.waiting, p) => (.waiting, p)
    | none, some w =>
      if 8 ≤ count then (.refused, p)
      else (.locked, p.putWay c line w { (set p).way w with locked := true })
    | none, none =>
      if 8 ≤ count then (.refused, p)
      else
        match p.dieAcquire (u / 20) line pid false with
        | (.ok, p) =>
          let p := p.cachePath u line pid 2 false
          match (set p).findWay 16 (fun w => w.valid && w.line == line && w.pid == pid) with
          | some w => (.locked, p.putWay c line w { (set p).way w with locked := true })
          | none => (.refused, p)
        | (.err st, p) => (.err st, p)
        | (.waiting, p) => (.waiting, p)

/-- CUNLOCK of one line in every L2 of the package (R154, R168): a full way becomes an ordinary one, an empty way is
released. -/
def Pkg.unlockLine (p : Pkg) (line pid : Nat) : Pkg :=
  (List.range 48).foldl (fun p k =>
    let c := cL2 k
    let s := (p.cache c).set (cacheSet c line)
    match s.findWay 16 (fun w => w.locked && w.line == line && w.pid == pid) with
    | some w => p.putWay c line w (if (s.way w).valid then { s.way w with locked := false } else CWay.empty)
    | none => p) p

end Sys2Proof.Machine
end

