-- ==== Sys2Proof/Machine/System.lean ====
section
/-! DEFINITION. System instructions (R81, R105, R149 to R154, R511). -/

namespace Sys2Proof.Machine

/-- The value of a specifier that names no memory, known once the instruction is decoded. -/
def earlyVal (c : Core) (s : Spec) : Option Nat :=
  match s.form with
  | 1 => some ((c.gGet s.reg).toNat % 2 ^ (8 * s.size))
  | 0xC => some s.ext
  | 0xF => some s.reg
  | _ => none

/-- The fault of an access to control register `n` named by operand `k` (R81). An undefined number is judged like a
value-checked operand, with OPND the operand that names it, and a register that no level writes is no M-only register
(both DEDUCED, log entry 111). -/
def crFault (n pl k : Nat) (write : Bool) : Option Trap :=
  let need := if write then crWriteLevel n else crReadLevel n
  if !crDefined n then some { Trap.of 0x01 with opnd := k }
  else if pl < need then some { Trap.of 0x08 with toM := need == 2 && pl == 1 }
  else none

/-- Raise a fault if there is one. -/
def raise (o : Option Trap) : M Unit := match o with | some t => trap t | none => pure ()

/-- The privilege fault of a value known at decoding, judged in step 3 of R92. -/
def earlyPriv (c : Core) (o : Option Spec) (f : Nat → Option Trap) : M Unit :=
  match o.bind (earlyVal c) with
  | some v => raise ((f v).filter (fun t => t.code == 0x08))
  | none => pure ()

/-- RDCR. -/
def execRdcr (lc : Lc) (f : Fetch) (s : State) : Out :=
  runCpu lc f "RDCR" (op1 0xE010) anyLevel (onceBody (fun e c => do
    earlyPriv c e.d.ops.head? (fun n => crFault n c.pl 0 false)
    let (rs, c) ← formOperands e OpUse.plain e.d.ops 0 c
    match rs with
    | [a, b] =>
      let n ← readVal e a
      raise (crFault n c.pl 0 false)
      let p ← get
      -- pending bits are read as they stand now
      let v := { c with pend := (p.core e.x.lc).pend }.crRead n c.pl
      let c ← writeVal e b v.toNat c
      pure (c, tallyRands 0x18 rs (fun _ => false))
    | _ => pure (c, Tally.zero))) s

/-- WRCR. -/
def execWrcr (lc : Lc) (f : Fetch) (s : State) : Out :=
  runCpu lc f "WRCR" (op1 0xE011) anyLevel (onceBody (fun e c => do
    earlyPriv c e.d.ops[1]? (fun n => crFault n c.pl 1 true)
    let (rs, c) ← formOperands e OpUse.plain e.d.ops 0 c
    match rs with
    | [a, b] =>
      let v ← readVal e a
      let n ← readVal e b
      raise (crFault n c.pl 1 true)
      let t := tallyRands 0x18 rs (fun _ => false)
      if n = 0x28 then
        let p ← get
        match p.ipiSend e.x.lc c.pl (BitVec.ofNat 64 v) with
        | .ok p => set p; pure (c, t)
        | .error tr => trap tr
      else pure (c.crWrite n c.pl (BitVec.ofNat 64 v), t)
    | _ => pure (c, Tally.zero))) s

/-- IPISEND: a write of `v` to the control register by a core at S or M (R105); a fault is taken at its IP. The row gives
no instruction bytes, so the length that XINFO[ILEN] reports is a free value and IP stays (log entry 12). -/
def execIpisend (lc : Lc) (v : Word) (s : State) : Out :=
  let p := s.pkg
  if !p.coreReady s.mode lc then .next s
  else
    let c := p.core lc
    let r : Except Trap Pkg := match crFault 0x28 c.pl 1 true with
      | some t => .error t
      | none => p.ipiSend lc c.pl v
    match r with
    | .ok p => .next (s.put p)
    | .error t =>
      let (w, p) := p.free 4
      .next (stopInstr s lc w.toNat p (.trap t))

/-- The fault of a read of counter `n` (R511). -/
def ctrFault (c : Core) (n : Nat) : Option Trap :=
  if n ≤ 8 then (if c.pl = 0 ∧ !bit (c.crGet 0x4B) 1 then some (Trap.of 0x08) else none)
  else if n = 0x10 ∨ n = 0x11 then none
  else some { Trap.of 0x01 with opnd := 0 }

/-- RDCTR. TICKPOS is where the reference stands in the frame, which the model does not hold: a free value of its range
(log entry 8). -/
def execRdctr (lc : Lc) (f : Fetch) (s : State) : Out :=
  runCpu lc f "RDCTR" (op1 0xE012) anyLevel (onceBody (fun e c => do
    earlyPriv c e.d.ops.head? (ctrFault c)
    let (rs, c) ← formOperands e OpUse.plain e.d.ops 0 c
    match rs with
    | [a, b] =>
      let n ← readVal e a
      raise (ctrFault c n)
      let p ← get
      let v ← (if n = 0x10 then pure p.frameNum
        else if n = 0x11 then liftP (fun p => let (w, p) := p.free 64; (w.toNat % 801, p))
        else pure (if n = 0 then c.crGet 0x4A else c.crRead (0x41 + n) c.pl).toNat)
      let c ← writeVal e b v c
      pure (c, tallyRands 0x18 rs (fun _ => false))
    | _ => pure (c, Tally.zero))) s

/-! ### TINV and TSYNC -/

/-- The privilege fault of a TINV scope (R149). -/
def tinvPriv (pl scope : Nat) : Option Trap :=
  if pl = 1 ∧ (scope = 2 ∨ scope = 3) then some { Trap.of 0x08 with toM := true } else none

/-- A TINV argument breaks the check of its scope (R150). -/
def tinvBad (pl scope a : Nat) : Bool :=
  match scope with
  | 0 => !canonical a
  | 2 => a / 2 ^ 48 != 0 || a / 2 ^ 7 % 32 != 0
  | 3 => a / 2 ^ 7 != 0
  | 4 => pl == 2 && a / 2 ^ 7 != 0
  | _ => false

/-- TINV: it takes effect in every unit at once (R150, R151, R218). -/
def execTinv (lc : Lc) (f : Fetch) (s : State) : Out :=
  runCpu lc f "TINV" (op1 0xE000) (fun _ pl => if pl = 0 then some (Trap.of 0x08) else none) (onceBody (fun e c => do
    earlyPriv c e.d.ops.head? (tinvPriv c.pl)
    let (rs, c) ← formOperands e OpUse.plain e.d.ops 0 c
    match rs with
    | [a, b] =>
      let scope ← readVal e a
      let arg ← readVal e b
      raise (tinvPriv c.pl scope)
      if 4 < scope then trap { Trap.of 0x01 with opnd := 0 }
      else if tinvBad c.pl scope arg then trap { Trap.of 0x01 with opnd := 1 }
      else
        let pid := if scope = 2 ∨ scope = 3 ∨ (scope = 4 ∧ c.pl = 2) then arg % 128 else e.x.pid
        modify (fun p => p.tinvAll scope pid (c.pl == 2) arg)
        pure (c, tallyRands 0x18 rs (fun _ => false))
    | _ => pure (c, Tally.zero))) s

/-- TSYNC: every TINV has taken effect already (R151). -/
def execTsync (lc : Lc) (f : Fetch) (s : State) : Out :=
  runCpu lc f "TSYNC" (op1 0xE001) (fun _ pl => if pl = 0 then some (Trap.of 0x08) else none)
    (onceBody (fun _ c => pure (c, { Tally.zero with cls := 0x18 }))) s

/-! ### Cache maintenance and way locking -/

/-- The pages of the range of a maintenance instruction: (physical address, attribute, length), none for a skipped page.
A walk-device or walk-data fault is raised (R152). -/
def rangePages (e : Env) (r : Rand) (va n : Nat) : M (List (Option (Nat × Nat × Nat))) :=
  (pieces va n).mapM (fun pc => do
    let p ← get
    let t := (translate { e.at r with dry := false } pc.1 0).run.run p
    set t.2
    match t.1 with
    | .ok x => pure (some (x.pa, x.attr, pc.2))
    | .error (.trap tr) => if tr.code = 0x13 ∨ tr.code = 0x14 then trap tr else pure none
    | .error st => throw st)

/-- Treat the lines of the pages of a range in turn: a skipped page counts as refused, one outside HBM has no line. -/
def rangeLines (act : Env → Nat → Nat → M Bool) (e : Env) (pages : List (Option (Nat × Nat × Nat))) : M Bool :=
  pages.foldlM (fun ok pg =>
    match pg with
    | none => pure false
    | some (pa, attr, len) =>
      if hbmSize ≤ pa then pure ok
      else (lineParts pa len).foldlM (fun ok pc => do
        let r ← act e (pc.1 / 64) attr
        pure (ok && r)) ok) true

/-- A range that crosses bit 47 is named by operand 0, a length out of range by operand 1 (DEDUCED, log entry 117).
A range instruction: `act` treats one line of HBM under the caller's PID, given the attribute, and answers false when
the line is refused (R152). -/
def rangeElem (act : Env → Nat → Nat → M Bool) : Elem := fun e c => do
  let (rs, c) ← formOperands e OpUse.plain e.d.ops 0 c
  match rs with
  | [a, b] =>
    let n ← readVal e b
    let va := a.va.headD 0
    if 0x200000 < n then trap { Trap.of 0x01 with opnd := 1 }
    else if n ≠ 0 ∧ va / 2 ^ 47 ≠ (va + n - 1) / 2 ^ 47 then trap { Trap.of 0x01 with opnd := 0 }
    else
      let pages ← rangePages e a va n
      stallDrain e.x
      let p0 ← get
      let r := (rangeLines act e pages).run.run p0
      match r.1 with
      | .ok ok =>
        set r.2
        pure ({ c with psw := setBit c.psw 1 ok }, tallyRands 0x18 rs (fun _ => false))
      | .error st => throw st
  | _ => pure (c, Tally.zero)

/-- Write a line back, and invalidate it. -/
def maintAct (inval : Bool) (e : Env) (line _attr : Nat) : M Bool := do
  modify (fun p => p.maintLine line e.x.pid inval)
  pure true

/-- CINV: dirty copies are written back, then every copy is invalidated. -/
def execCinv (lc : Lc) (f : Fetch) (s : State) : Out :=
  runCpu lc f "CINV" (op1 0xE002) anyLevel (onceBody (rangeElem (maintAct true))) s

/-- CWB: dirty copies are written back and stay clean. -/
def execCwb (lc : Lc) (f : Fetch) (s : State) : Out :=
  runCpu lc f "CWB" (op1 0xE003) anyLevel (onceBody (rangeElem (maintAct false))) s

/-- CFLUSH: as CINV, with every write-back accepted. -/
def execCflush (lc : Lc) (f : Fetch) (s : State) : Out :=
  runCpu lc f "CFLUSH" (op1 0xE004) anyLevel (onceBody (rangeElem (maintAct true))) s

/-- The forms without a range act on every line of the caller's partition and set Z (R153). -/
def allElem (inval : Bool) : Elem := fun e c => do
  stallDrain e.x
  modify (fun p => p.maintAll e.x.pid inval)
  pure ({ c with psw := setBit c.psw 1 true }, { Tally.zero with cls := 0x18 })

/-- CINVA. -/
def execCinva (lc : Lc) (f : Fetch) (s : State) : Out :=
  runCpu lc f "CINVA" (op1 0xE005) (fun _ pl => if pl = 0 then some (Trap.of 0x08) else none) (onceBody (allElem true)) s
/-- CWBA. -/
def execCwba (lc : Lc) (f : Fetch) (s : State) : Out :=
  runCpu lc f "CWBA" (op1 0xE006) (fun _ pl => if pl = 0 then some (Trap.of 0x08) else none) (onceBody (allElem false)) s
/-- CFLUSHA. -/
def execCflusha (lc : Lc) (f : Fetch) (s : State) : Out :=
  runCpu lc f "CFLUSHA" (op1 0xE007) (fun _ pl => if pl = 0 then some (Trap.of 0x08) else none) (onceBody (allElem true)) s

/-- M only: from S it is handled at M (R90, R149). -/
def mOnly (pl : Nat) : Option Trap := if pl = 2 then none else some { Trap.of 0x08 with toM := pl == 1 }

/-- Lock a line in the L2 of the core's cluster. A line that is not WB is never cached and is refused (DEDUCED, log entry
13). -/
def lockAct (e : Env) (line attr : Nat) : M Bool := do
  if attr ≠ 0 then pure false
  else
    match ← liftP (fun p => p.lockLine e.x.u line e.x.pid) with
    | .locked => pure true
    | .refused => pure false
    | .err _ => trap { Trap.of 0x31 with opnd := 0, xaddr := line * 64, cls := 3 }
    | .waiting => throw .wait

/-- Release the ways locked for a line. -/
def unlockAct (e : Env) (line _attr : Nat) : M Bool := do
  modify (fun p => p.unlockLine line e.x.pid)
  pure true

/-- CLOCKW: each line of the range is filled into a locked way of the L2 of the core's cluster. -/
def execClockw (lc : Lc) (f : Fetch) (s : State) : Out :=
  runCpu lc f "CLOCKW" (op1 0xE008) (fun _ pl => mOnly pl) (onceBody (rangeElem lockAct)) s

/-- CUNLOCK: every L2 releases the ways locked for the lines of the range that carry the caller's PID. -/
def execCunlock (lc : Lc) (f : Fetch) (s : State) : Out :=
  runCpu lc f "CUNLOCK" (op1 0xE009) (fun _ pl => mOnly pl) (onceBody (rangeElem unlockAct)) s

end Sys2Proof.Machine
end

