-- ==== Sys2Proof/Machine/Dispatch.lean ====
section
/-! DEFINITION. The dispatch of commands to their meanings, one arm per row of the table. -/

namespace Sys2Proof.Machine

/-- The effect of a command on everything but the queue. -/
def exec (i : Instr) (s : State) : Host.Outcome State Fault Refusal :=
  match i with
  | .powerGood head => Sys2Proof.Machine.execPowerGood head s
  | .pkgReset => Sys2Proof.Machine.execPkgReset s
  | .refclkLoss => Sys2Proof.Machine.execRefclkLoss s
  | .powerFail => Sys2Proof.Machine.execPowerFail s
  | .holdupStop => Sys2Proof.Machine.execHoldupStop s
  | .frameTick len phase samples => Sys2Proof.Machine.execFrameTick len phase samples s
  | .quotaOverrun p => Sys2Proof.Machine.execQuotaOverrun p s
  | .registerWrite who p off v => Sys2Proof.Machine.execRegisterWrite who p off v s
  | .errcountRead who p w => Sys2Proof.Machine.execErrcountRead who p w s
  | .confqRead who ds w => Sys2Proof.Machine.execConfqRead who ds w s
  | .attnqRead who w => Sys2Proof.Machine.execAttnqRead who w s
  | .rstreq who p => Sys2Proof.Machine.execRstreq who p s
  | .invreq who p => Sys2Proof.Machine.execInvreq who p s
  | .arm who p => Sys2Proof.Machine.execArm who p s
  | .snaptrig who => Sys2Proof.Machine.execSnaptrig who s
  | .snaparm who => Sys2Proof.Machine.execSnaparm who s
  | .snaparmRearm => Sys2Proof.Machine.execSnaparmRearm s
  | .snapInEdge => Sys2Proof.Machine.execSnapInEdge s
  | .snapshotLatch off n => Sys2Proof.Machine.execSnapshotLatch off n s
  | .modecmdLoad who => Sys2Proof.Machine.execModecmdLoad who s
  | .modecmdTest who => Sys2Proof.Machine.execModecmdTest who s
  | .modecmdRun who => Sys2Proof.Machine.execModecmdRun who s
  | .modecmdDegraded who => Sys2Proof.Machine.execModecmdDegraded who s
  | .modecmdDrizzle who => Sys2Proof.Machine.execModecmdDrizzle who s
  | .modecmdQuiesce who => Sys2Proof.Machine.execModecmdQuiesce who s
  | .modeTransitionComplete => Sys2Proof.Machine.execModeTransitionComplete s
  | .quiesceDrainComplete => Sys2Proof.Machine.execQuiesceDrainComplete s
  | .drainLimitExpiry => Sys2Proof.Machine.execDrainLimitExpiry s
  | .loadRetryAttempt part => Sys2Proof.Machine.execLoadRetryAttempt part s
  | .coreMapBuild => Sys2Proof.Machine.execCoreMapBuild s
  | .coreSpareHandover reg => Sys2Proof.Machine.execCoreSpareHandover reg s
  | .wearRotation reg => Sys2Proof.Machine.execWearRotation reg s
  | .unitBistComplete reg fail lsig msig => Sys2Proof.Machine.execUnitBistComplete reg fail lsig msig s
  | .interruptDelivery lc => Sys2Proof.Machine.execInterruptDelivery lc s
  | .deviceWriteMachineCheck lc pa => Sys2Proof.Machine.execDeviceWriteMachineCheck lc pa s
  | .nop lc f => Sys2Proof.Machine.execNop lc f s
  | .mov lc f => Sys2Proof.Machine.execMov lc f s
  | .movz lc f => Sys2Proof.Machine.execMovz lc f s
  | .movs lc f => Sys2Proof.Machine.execMovs lc f s
  | .mova lc f => Sys2Proof.Machine.execMova lc f s
  | .xchg lc f => Sys2Proof.Machine.execXchg lc f s
  | .clr lc f => Sys2Proof.Machine.execClr lc f s
  | .add lc f => Sys2Proof.Machine.execAdd lc f s
  | .sub lc f => Sys2Proof.Machine.execSub lc f s
  | .adc lc f => Sys2Proof.Machine.execAdc lc f s
  | .sbb lc f => Sys2Proof.Machine.execSbb lc f s
  | .mul lc f => Sys2Proof.Machine.execMul lc f s
  | .mulh lc f => Sys2Proof.Machine.execMulh lc f s
  | .mulhu lc f => Sys2Proof.Machine.execMulhu lc f s
  | .div lc f => Sys2Proof.Machine.execDiv lc f s
  | .divu lc f => Sys2Proof.Machine.execDivu lc f s
  | .rem lc f => Sys2Proof.Machine.execRem lc f s
  | .remu lc f => Sys2Proof.Machine.execRemu lc f s
  | .neg lc f => Sys2Proof.Machine.execNeg lc f s
  | .inc lc f => Sys2Proof.Machine.execInc lc f s
  | .dec lc f => Sys2Proof.Machine.execDec lc f s
  | .cmp lc f => Sys2Proof.Machine.execCmp lc f s
  | .test lc f => Sys2Proof.Machine.execTest lc f s
  | .and lc f => Sys2Proof.Machine.execAnd lc f s
  | .or lc f => Sys2Proof.Machine.execOr lc f s
  | .xor lc f => Sys2Proof.Machine.execXor lc f s
  | .andn lc f => Sys2Proof.Machine.execAndn lc f s
  | .not lc f => Sys2Proof.Machine.execNot lc f s
  | .shl lc f => Sys2Proof.Machine.execShl lc f s
  | .shr lc f => Sys2Proof.Machine.execShr lc f s
  | .sar lc f => Sys2Proof.Machine.execSar lc f s
  | .rol lc f => Sys2Proof.Machine.execRol lc f s
  | .ror lc f => Sys2Proof.Machine.execRor lc f s
  | .bswap lc f => Sys2Proof.Machine.execBswap lc f s
  | .popc lc f => Sys2Proof.Machine.execPopc lc f s
  | .clz lc f => Sys2Proof.Machine.execClz lc f s
  | .ctz lc f => Sys2Proof.Machine.execCtz lc f s
  | .dadd lc f => Sys2Proof.Machine.execDadd lc f s
  | .dsub lc f => Sys2Proof.Machine.execDsub lc f s
  | .dmul lc f => Sys2Proof.Machine.execDmul lc f s
  | .ddiv lc f => Sys2Proof.Machine.execDdiv lc f s
  | .dcmp lc f => Sys2Proof.Machine.execDcmp lc f s
  | .dshr lc f => Sys2Proof.Machine.execDshr lc f s
  | .cvtdb lc f => Sys2Proof.Machine.execCvtdb lc f s
  | .cvtbd lc f => Sys2Proof.Machine.execCvtbd lc f s
  | .dmov lc f => Sys2Proof.Machine.execDmov lc f s
  | .edit lc f => Sys2Proof.Machine.execEdit lc f s
  | .fscan lc f => Sys2Proof.Machine.execFscan lc f s
  | .fxlat lc f => Sys2Proof.Machine.execFxlat lc f s
  | .fmove lc f => Sys2Proof.Machine.execFmove lc f s
  | .ffill lc f => Sys2Proof.Machine.execFfill lc f s
  | .fcmp lc f => Sys2Proof.Machine.execFcmp lc f s
  | .macB8 lc f => Sys2Proof.Machine.execMacB8 lc f s
  | .macH16 lc f => Sys2Proof.Machine.execMacH16 lc f s
  | .macW32 lc f => Sys2Proof.Machine.execMacW32 lc f s
  | .macF32 lc f => Sys2Proof.Machine.execMacF32 lc f s
  | .maclr lc f => Sys2Proof.Machine.execMaclr lc f s
  | .mard lc f => Sys2Proof.Machine.execMard lc f s
  | .mawr lc f => Sys2Proof.Machine.execMawr lc f s
  | .faddD lc f => Sys2Proof.Machine.execFaddD lc f s
  | .fsubD lc f => Sys2Proof.Machine.execFsubD lc f s
  | .fmulD lc f => Sys2Proof.Machine.execFmulD lc f s
  | .fdivD lc f => Sys2Proof.Machine.execFdivD lc f s
  | .fcmpD lc f => Sys2Proof.Machine.execFcmpD lc f s
  | .fsqrtD lc f => Sys2Proof.Machine.execFsqrtD lc f s
  | .cvtdq lc f => Sys2Proof.Machine.execCvtdq lc f s
  | .cvtqd lc f => Sys2Proof.Machine.execCvtqd lc f s
  | .faddS lc f => Sys2Proof.Machine.execFaddS lc f s
  | .fsubS lc f => Sys2Proof.Machine.execFsubS lc f s
  | .fmulS lc f => Sys2Proof.Machine.execFmulS lc f s
  | .fdivS lc f => Sys2Proof.Machine.execFdivS lc f s
  | .fcmpS lc f => Sys2Proof.Machine.execFcmpS lc f s
  | .fsqrtS lc f => Sys2Proof.Machine.execFsqrtS lc f s
  | .cvtsq lc f => Sys2Proof.Machine.execCvtsq lc f s
  | .cvtqs lc f => Sys2Proof.Machine.execCvtqs lc f s
  | .cvtsd lc f => Sys2Proof.Machine.execCvtsd lc f s
  | .cvtds lc f => Sys2Proof.Machine.execCvtds lc f s
  | .cas lc f => Sys2Proof.Machine.execCas lc f s
  | .xadd lc f => Sys2Proof.Machine.execXadd lc f s
  | .jmp lc f => Sys2Proof.Machine.execJmp lc f s
  | .call lc f => Sys2Proof.Machine.execCall lc f s
  | .scall lc f => Sys2Proof.Machine.execScall lc f s
  | .mcall lc f => Sys2Proof.Machine.execMcall lc f s
  | .retx lc f => Sys2Proof.Machine.execRetx lc f s
  | .waitf lc f => Sys2Proof.Machine.execWaitf lc f s
  | .waitfResume lc => Sys2Proof.Machine.execWaitfResume lc s
  | .bCc lc f => Sys2Proof.Machine.execBCc lc f s
  | .setCc lc f => Sys2Proof.Machine.execSetCc lc f s
  | .tinv lc f => Sys2Proof.Machine.execTinv lc f s
  | .tsync lc f => Sys2Proof.Machine.execTsync lc f s
  | .cinv lc f => Sys2Proof.Machine.execCinv lc f s
  | .cwb lc f => Sys2Proof.Machine.execCwb lc f s
  | .cflush lc f => Sys2Proof.Machine.execCflush lc f s
  | .cinva lc f => Sys2Proof.Machine.execCinva lc f s
  | .cwba lc f => Sys2Proof.Machine.execCwba lc f s
  | .cflusha lc f => Sys2Proof.Machine.execCflusha lc f s
  | .clockw lc f => Sys2Proof.Machine.execClockw lc f s
  | .cunlock lc f => Sys2Proof.Machine.execCunlock lc f s
  | .rdcr lc f => Sys2Proof.Machine.execRdcr lc f s
  | .wrcr lc f => Sys2Proof.Machine.execWrcr lc f s
  | .ipisend lc v => Sys2Proof.Machine.execIpisend lc v s
  | .rdctr lc f => Sys2Proof.Machine.execRdctr lc f s
  | .cacheDisable who p => Sys2Proof.Machine.execCacheDisable who p s
  | .cacheDrainComplete p => Sys2Proof.Machine.execCacheDrainComplete p s
  | .cacheEnable who p => Sys2Proof.Machine.execCacheEnable who p s
  | .cacheError p e way line => Sys2Proof.Machine.execCacheError p e way line s
  | .waySweepComplete p way => Sys2Proof.Machine.execWaySweepComplete p way s
  | .rds q => Sys2Proof.Machine.execRds q s
  | .rdo q => Sys2Proof.Machine.execRdo q s
  | .upg q => Sys2Proof.Machine.execUpg q s
  | .wbd q => Sys2Proof.Machine.execWbd q s
  | .evc q => Sys2Proof.Machine.execEvc q s
  | .iord q off len dist => Sys2Proof.Machine.execIord q off len dist s
  | .iowr q off len op => Sys2Proof.Machine.execIowr q off len op s
  | .conflictQueueServe line => Sys2Proof.Machine.execConflictQueueServe line s
  | .snpinv d h => Sys2Proof.Machine.execSnpinv d h s
  | .snpshr d h fwdto => Sys2Proof.Machine.execSnpshr d h fwdto s
  | .snpfwd d h fwdto => Sys2Proof.Machine.execSnpfwd d h fwdto s
  | .cmpMessage dst h grant df => Sys2Proof.Machine.execCmpMessage dst h grant df s
  | .ack toHome d h => Sys2Proof.Machine.execAck toHome d h s
  | .snprsp d h resp => Sys2Proof.Machine.execSnprsp d h resp s
  | .err dst h status => Sys2Proof.Machine.execErr dst h status s
  | .data src dst h bytes dirty poison => Sys2Proof.Machine.execData src dst h bytes dirty poison s
  | .wbdata src h bytes mask dirty poison => Sys2Proof.Machine.execWbdata src h bytes mask dirty poison s
  | .directoryAudit ds code => Sys2Proof.Machine.execDirectoryAudit ds code s
  | .dcsSweepComplete pid => Sys2Proof.Machine.execDcsSweepComplete pid s
  | .directoryPurge ds d => Sys2Proof.Machine.execDirectoryPurge ds d s
  | .purgeComplete d => Sys2Proof.Machine.execPurgeComplete d s
  | .lastCoreDrain d pid => Sys2Proof.Machine.execLastCoreDrain d pid s
  | .dirrd who ds set way code => Sys2Proof.Machine.execDirrd who ds set way code s
  | .transactionTimeout agent txid => Sys2Proof.Machine.execTransactionTimeout agent txid s
  | .lateMessage agent txid => Sys2Proof.Machine.execLateMessage agent txid s
  | .creditCensus p book drift ended => Sys2Proof.Machine.execCreditCensus p book drift ended s
  | .creditRepair p book => Sys2Proof.Machine.execCreditRepair p book s
  | .creditRepairComplete p book => Sys2Proof.Machine.execCreditRepairComplete p book s
  | .repairLimitExpiry p book => Sys2Proof.Machine.execRepairLimitExpiry p book s
  | .mocorDataFlit e flit => Sys2Proof.Machine.execMocorDataFlit e flit s
  | .idle e flit => Sys2Proof.Machine.execIdle e flit s
  | .mark e flit => Sys2Proof.Machine.execMark e flit s
  | .heart e flit => Sys2Proof.Machine.execHeart e flit s
  | .pause e flit => Sys2Proof.Machine.execPause e flit s
  | .resume e flit => Sys2Proof.Machine.execResume e flit s
  | .linkStall e => Sys2Proof.Machine.execLinkStall e s
  | .marginCheck e lane margin delay => Sys2Proof.Machine.execMarginCheck e lane margin delay s
  | .laneRepair l near far => Sys2Proof.Machine.execLaneRepair l near far s
  | .pauseTimeout l => Sys2Proof.Machine.execPauseTimeout l s
  | .linkDown d c => Sys2Proof.Machine.execLinkDown d c s
  | .pllLossOfLock d k => Sys2Proof.Machine.execPllLossOfLock d k s
  | .hubPllLossOfLock k => Sys2Proof.Machine.execHubPllLossOfLock k s
  | .dieWatchExpiry d => Sys2Proof.Machine.execDieWatchExpiry d s
  | .unitHung d ix intact => Sys2Proof.Machine.execUnitHung d ix intact s
  | .fence who d => Sys2Proof.Machine.execFence who d s
  | .readmit who d => Sys2Proof.Machine.execReadmit who d s
  | .readmitComplete d ok => Sys2Proof.Machine.execReadmitComplete d ok s
  | .admitDie who d => Sys2Proof.Machine.execAdmitDie who d s
  | .admitRebuild d => Sys2Proof.Machine.execAdmitRebuild d s
  | .dieRailOff d => Sys2Proof.Machine.execDieRailOff d s
  | .autoReadmit d => Sys2Proof.Machine.execAutoReadmit d s
  | .mrd g hdr => Sys2Proof.Machine.execMrd g hdr s
  | .mwr g hdr bytes => Sys2Proof.Machine.execMwr g hdr bytes s
  | .matom g hdr bytes => Sys2Proof.Machine.execMatom g hdr bytes s
  | .cpl g hdr bytes => Sys2Proof.Machine.execCpl g hdr bytes s
  | .int g hdr => Sys2Proof.Machine.execInt g hdr s
  | .ogpErr g hdr => Sys2Proof.Machine.execOgpErr g hdr s
  | .cap g hdr block => Sys2Proof.Machine.execCap g hdr block s
  | .capack g hdr block => Sys2Proof.Machine.execCapack g hdr block s
  | .guestLinkLossExpiry g => Sys2Proof.Machine.execGuestLinkLossExpiry g s
  | .guestFenceCommand who g => Sys2Proof.Machine.execGuestFenceCommand who g s
  | .guestReadmit who g => Sys2Proof.Machine.execGuestReadmit who g s
  | .guestReadmitComplete g ok => Sys2Proof.Machine.execGuestReadmitComplete g ok s
  | .patrolScrubRead mc dist => Sys2Proof.Machine.execPatrolScrubRead mc dist s
  | .scrubBoostEnd mc => Sys2Proof.Machine.execScrubBoostEnd mc s
  | .rowRemap mc => Sys2Proof.Machine.execRowRemap mc s
  | .set who mc index => Sys2Proof.Machine.execSet who mc index s
  | .read who mc index => Sys2Proof.Machine.execRead who mc index s
  | .remapCopyComplete mc => Sys2Proof.Machine.execRemapCopyComplete mc s
  | .calibration hs pc ok => Sys2Proof.Machine.execCalibration hs pc ok s
  | .exclude who hs => Sys2Proof.Machine.execExclude who hs s
  | .sqtDoorbell who q v => Sys2Proof.Machine.execSqtDoorbell who q v s
  | .cqhDoorbell who q v => Sys2Proof.Machine.execCqhDoorbell who q v s
  | .entryFetch => Sys2Proof.Machine.execEntryFetch s
  | .ledgerRead slot => Sys2Proof.Machine.execLedgerRead slot s
  | .write slot => Sys2Proof.Machine.execWrite slot s
  | .writeMirrored slot => Sys2Proof.Machine.execWriteMirrored slot s
  | .flush slot => Sys2Proof.Machine.execFlush slot s
  | .compareAndWrite slot => Sys2Proof.Machine.execCompareAndWrite slot s
  | .identify slot => Sys2Proof.Machine.execIdentify slot s
  | .createNamespace slot => Sys2Proof.Machine.execCreateNamespace slot s
  | .deleteNamespace slot => Sys2Proof.Machine.execDeleteNamespace slot s
  | .createQp slot => Sys2Proof.Machine.execCreateQp slot s
  | .deleteQp slot => Sys2Proof.Machine.execDeleteQp slot s
  | .resetQp slot => Sys2Proof.Machine.execResetQp slot s
  | .getLog slot => Sys2Proof.Machine.execGetLog slot s
  | .writeAdmission slot stack => Sys2Proof.Machine.execWriteAdmission slot stack s
  | .completionPosting slot => Sys2Proof.Machine.execCompletionPosting slot s
  | .recovery => Sys2Proof.Machine.execRecovery s
  | .recoveryComplete => Sys2Proof.Machine.execRecoveryComplete s
  | .mirrorTimeout slot => Sys2Proof.Machine.execMirrorTimeout slot s
  | .stackFailure ls => Sys2Proof.Machine.execStackFailure ls s
  | .qprd who q => Sys2Proof.Machine.execQprd who q s
  | .form who => Sys2Proof.Machine.execForm who s
  | .memoryKeyLoad => Sys2Proof.Machine.execMemoryKeyLoad s
  | .rekey who pid => Sys2Proof.Machine.execRekey who pid s
  | .rekeyApply pid => Sys2Proof.Machine.execRekeyApply pid s
  | .keyld who e slot kind => Sys2Proof.Machine.execKeyld who e slot kind s
  | .slotrst who e slot => Sys2Proof.Machine.execSlotrst who e slot s
  | .tailDoorbell who e slot v => Sys2Proof.Machine.execTailDoorbell who e slot v s
  | .descriptorFetch e slot => Sys2Proof.Machine.execDescriptorFetch e slot s
  | .suspendedResume e => Sys2Proof.Machine.execSuspendedResume e s
  | .derive e slot => Sys2Proof.Machine.execDerive e slot s
  | .encrypt e slot n => Sys2Proof.Machine.execEncrypt e slot n s
  | .decrypt e slot n => Sys2Proof.Machine.execDecrypt e slot n s
  | .mac e slot n => Sys2Proof.Machine.execMac e slot n s
  | .verify e slot n => Sys2Proof.Machine.execVerify e slot n s
  | .translate e slot => Sys2Proof.Machine.execTranslate e slot s
  | .descriptorCompletion e slot => Sys2Proof.Machine.execDescriptorCompletion e slot s
  | .define who pid => Sys2Proof.Machine.execDefine who pid s
  | .assign who pid lc => Sys2Proof.Machine.execAssign who pid lc s
  | .unassign who lc => Sys2Proof.Machine.execUnassign who lc s
  | .restart who pid => Sys2Proof.Machine.execRestart who pid s
  | .release who pid => Sys2Proof.Machine.execRelease who pid s
  | .pcmdRekey who pid => Sys2Proof.Machine.execPcmdRekey who pid s
  | .assignmentApply lc => Sys2Proof.Machine.execAssignmentApply lc s
  | .restartApply pid => Sys2Proof.Machine.execRestartApply pid s
  | .releaseApply pid => Sys2Proof.Machine.execReleaseApply pid s
  | .evrd who index => Sys2Proof.Machine.execEvrd who index s
  | .mcrd who index => Sys2Proof.Machine.execMcrd who index s
  | .mclheadWrite who v => Sys2Proof.Machine.execMclheadWrite who v s
  | .grantAcknowledge d => Sys2Proof.Machine.execGrantAcknowledge d s
  | .lastRailPgood r status crc => Sys2Proof.Machine.execLastRailPgood r status crc s
  | .railConfirmTimeout r => Sys2Proof.Machine.execRailConfirmTimeout r s
  | .gswFault g => Sys2Proof.Machine.execGswFault g s
  | .c3Entry d ix => Sys2Proof.Machine.execC3Entry d ix s
  | .wakeFrame samples => Sys2Proof.Machine.execWakeFrame samples s
  | .drizzleAutoEntry => Sys2Proof.Machine.execDrizzleAutoEntry s
  | .resrd who d unit => Sys2Proof.Machine.execResrd who d unit s
  | .bar0Access off op => Sys2Proof.Machine.execBar0Access off op s
  | .bar2Access win off op => Sys2Proof.Machine.execBar2Access win off op s
  | .frameloRead => Sys2Proof.Machine.execFrameloRead s
  | .intaUpdate => Sys2Proof.Machine.execIntaUpdate s
  | .pme => Sys2Proof.Machine.execPme s
  | .functionLevelReset => Sys2Proof.Machine.execFunctionLevelReset s
  | .flrComplete => Sys2Proof.Machine.execFlrComplete s
  | .svcPerst => Sys2Proof.Machine.execSvcPerst s
  | .eventRingCopy => Sys2Proof.Machine.execEventRingCopy s
  | .evrheadWrite who v => Sys2Proof.Machine.execEvrheadWrite who v s
  | .mailboxGo who tag => Sys2Proof.Machine.execMailboxGo who tag s
  | .ident => Sys2Proof.Machine.execIdent s
  | .stwload sigOk => Sys2Proof.Machine.execStwload sigOk s
  | .stewardImageStart => Sys2Proof.Machine.execStewardImageStart s
  | .unitfail => Sys2Proof.Machine.execUnitfail s
  | .expsig => Sys2Proof.Machine.execExpsig s
  | .enum addr gen => Sys2Proof.Machine.execEnum addr gen s
  | .eack => Sys2Proof.Machine.execEack s
  | .genup gen => Sys2Proof.Machine.execGenup gen s
  | .frame num phErr corr inside src gen wake => Sys2Proof.Machine.execFrame num phErr corr inside src gen wake s
  | .alignmentLost => Sys2Proof.Machine.execAlignmentLost s
  | .snap fromUp orig target gen wake => Sys2Proof.Machine.execSnap fromUp orig target gen wake s
  | .rreq fromUp src dst gen wake wr off len mask pid tag bytes => Sys2Proof.Machine.execRreq fromUp src dst gen wake wr off len mask pid tag bytes s
  | .rrsp src dst gen wake tag status bytes => Sys2Proof.Machine.execRrsp src dst gen wake tag status bytes s
  | .mirror src dst gen wake slot srcNs peerNs lba seq sectors stack => Sys2Proof.Machine.execMirror src dst gen wake slot srcNs peerNs lba seq sectors stack s
  | .mack src dst gen wake slot ok => Sys2Proof.Machine.execMack src dst gen wake slot ok s
  | .chainJoin => Sys2Proof.Machine.execChainJoin s
  | .deviceDmaWrite pe link addr bytes ep => Sys2Proof.Machine.execDeviceDmaWrite pe link addr bytes ep s
  | .deviceDmaRead pe link addr len => Sys2Proof.Machine.execDeviceDmaRead pe link addr len s
  | .msiWrite pe link addr v => Sys2Proof.Machine.execMsiWrite pe link addr v s
  | .ioinv who pe link byAddr => Sys2Proof.Machine.execIoinv who pe link byAddr s
  | .ioinvComplete pe => Sys2Proof.Machine.execIoinvComplete pe s
  | .pcieLinkDown pe link => Sys2Proof.Machine.execPcieLinkDown pe link s
  | .exclcmd who part => Sys2Proof.Machine.execExclcmd who part s
  | .fill who ch => Sys2Proof.Machine.execFill who ch s
  | .fillComplete ch => Sys2Proof.Machine.execFillComplete ch s
  | .dmatailDoorbell who ch v => Sys2Proof.Machine.execDmatailDoorbell who ch v s
  | .dmaDescriptorFetch ch => Sys2Proof.Machine.execDmaDescriptorFetch ch s
  | .copy ch => Sys2Proof.Machine.execCopy ch s
  | .descriptorFill ch => Sys2Proof.Machine.execDescriptorFill ch s
  | .nopDescriptor ch => Sys2Proof.Machine.execNopDescriptor ch s
  | .dmaDescriptorCompletion ch => Sys2Proof.Machine.execDmaDescriptorCompletion ch s
  | .lbist who d => Sys2Proof.Machine.execLbist who d s
  | .mbist who d => Sys2Proof.Machine.execMbist who d s
  | .lbistThenMbist who d => Sys2Proof.Machine.execLbistThenMbist who d s
  | .bistComplete d aborted fails => Sys2Proof.Machine.execBistComplete d aborted fails s
  | .hubMbist who p => Sys2Proof.Machine.execHubMbist who p s
  | .hubMbistComplete p failed => Sys2Proof.Machine.execHubMbistComplete p failed s
  | .tapInstruction ir => Sys2Proof.Machine.execTapInstruction ir s
  | .illegalOpcode lc f => Sys2Proof.Machine.execIllegalOpcode lc f s
  | .trainingAttemptEnd part ok arg => Sys2Proof.Machine.execTrainingAttemptEnd part ok arg s
  | .readmitRetryAttempt part => Sys2Proof.Machine.execReadmitRetryAttempt part s
  | .invreqComplete p => Sys2Proof.Machine.execInvreqComplete p s
  | .chainLinkDown down => Sys2Proof.Machine.execChainLinkDown down s
  | .ucieLinkLoss g => Sys2Proof.Machine.execUcieLinkLoss g s
  | .pcieCompletion pe tag status ep bytes => Sys2Proof.Machine.execPcieCompletion pe tag status ep bytes s
  | .seConfigWrite off v => Sys2Proof.Machine.execSeConfigWrite off v s
  | .svcPerstRelease => Sys2Proof.Machine.execSvcPerstRelease s
  | .seLinkDown => Sys2Proof.Machine.execSeLinkDown s
  | .lockstepMismatch => Sys2Proof.Machine.execLockstepMismatch s
  | .registerParityError p => Sys2Proof.Machine.execRegisterParityError p s
  | .unitError d ix u => Sys2Proof.Machine.execUnitError d ix u s

end Sys2Proof.Machine
end

