-- ==== Sys2Proof/Machine/NetCycle.lean ====
section
/-! DEFINITION. One cycle of the networks, which a step on an empty queue makes (log entry 121): flits land, receivers take
them, outputs grant, and what waits gains urgency (R258 to R271, R282). -/

namespace Sys2Proof.Machine

/-! ### Landing -/

/-- The flits that a message makes on a Mocor link: a lead byte and 16 bytes, or 80 on DAT, in payloads of 26 (R281). -/
def mocorFlits (net : Nat) : Nat := if net = 3 then 4 else 1

/-- The retry buffer of the end that sends on a Mocor book (R282): `n` flits are sent and kept, or with `acked` those of one
message are acknowledged. -/
def Pkg.retryBook (p : Pkg) (b : Nat × Nat) (acked : Bool) : Pkg :=
  if bookKind b.2 ≠ 3 then p
  else
    let n := mocorFlits (bookNet b.2)
    p.modSide (bookIndex b.2) (bookDir b.2 == 1) (fun e =>
      if acked then { e with retry := e.retry.drop n }
      else { e with tx := (e.tx + n) % 1024, retry := e.retry ++ (List.range n).map (fun i => (e.tx + 1 + i) % 1024) })

/-- Put a flit in place of another, or take it out. -/
def Pkg.swapFlit (p : Pkg) (f : Flit) (g : Option Flit) : Pkg :=
  { p with coh := { p.coh with net := match g with | some g => p.coh.net.replace f g | none => p.coh.net.erase f } }

/-- A flit on the wires reaches its receiver: it takes a free buffer, or is dropped (R271). -/
def Pkg.landFlit (p : Pkg) (f : Flit) : Pkg :=
  match f.wire, f.place with
  | true, some b =>
    let p := p.retryBook b true
    if p.bufferFree b then p.swapFlit f (some { f with wire := false })
    else (p.swapFlit f none).dropFlit (if bookKind b.2 = 3 ∧ bookDir b.2 = 0 then pgGRID
      else if bookKind b.2 = 3 then pgRING (bookIndex b.2) else b.1) 18
  | _, _ => p

/-- The credit returns on the wires reach their senders (R269). -/
def Pkg.landCredits (p : Pkg) : Pkg :=
  p.fabric.books.foldl (fun (p : Pkg) (e : Nat × Book) =>
    if e.2.rets = 0 then p
    else p.setBook (e.1 / 65536, e.1 % 65536) { e.2 with spent := e.2.spent - e.2.rets, rets := 0 }) p

/-! ### Receivers -/

/-- A flit at the end of a part begins the next; it waits while its interface holds it back (R261). -/
def Pkg.nextPart (p : Pkg) : Nat → Flit → Flit
  | 0, f => f
  | k + 1, f =>
    match f.wire, f.path, f.legs with
    | false, [], l :: rest =>
      let r := p.legBooks f.msg.body.net l
      if p.routeHeld r.2 then f else p.nextPart k { f with legs := rest, path := r.1, route := r.2 }
    | _, _, _ => f

/-- The flit stands at a stop that is not its destination: it crossed the last link of its route and was not ejected
(R260). -/
def Flit.misrouted (f : Flit) : Option Nat :=
  match f.wire, f.path, f.route, f.place with
  | false, [], some (d, s, j, _), some b => if s ≠ j ∧ b.1 = pgRING d ∧ bookKind b.2 ≠ 5 then some d else none
  | _, _, _, _ => none

/-- The flit waits in the last buffer of its way. -/
def Flit.arrived (f : Flit) : Bool := !f.wire && f.path.isEmpty && f.legs.isEmpty && f.misrouted.isNone

/-- How many flits a receiver takes from one buffer in a cycle: a slice up to 4 REQ messages (R235). -/
def takesPerCycle (b : Option (Nat × Nat)) : Nat :=
  match b with
  | some b => if b.1 = pgGRID ∧ bookKind b.2 = 5 ∧ bookIndex b.2 % 8 = 0 ∧ bookNet b.2 = 0 then 4 else 1
  | none => 1

/-- Messages that arrive in one cycle, in the order in which their receivers take them: WbD, EvC, then requests by agent
(R235), then the other networks'. -/
def arrivalOrder (l : List Flit) : List Flit :=
  let isReq := fun (f : Flit) => match f.msg.body with | .req _ => true | _ => false
  l.filter (fun f => f.msg.body == .wbd) ++ l.filter (fun f => f.msg.body == .evc) ++
  (List.range 64).flatMap (fun a => l.filter (fun f => isReq f && f.msg.src == a)) ++
  l.filter (fun f => f.msg.body.net != 0)

/-- The flits at the heads of the last buffers of their ways. -/
def Pkg.arrivals (p : Pkg) : List Flit :=
  arrivalOrder ((p.coh.net.zipIdx.filter (fun e => e.1.arrived &&
    decide (((p.coh.net.take e.2).filter (fun g => g.place == e.1.place && !g.wire)).length < takesPerCycle e.1.place))).map
      (·.1))

/-- Misrouted flits are dropped, receivers take what arrived, and the homes go on. -/
def Pkg.receive (p : Pkg) : Pkg :=
  let p := p.coh.net.foldl (fun (p : Pkg) (f : Flit) =>
    match f.misrouted with
    | some d => ((p.swapFlit f none).returnCredit f.place).dropFlit (pgRING d) 19
    | none => p) p
  let p := p.arrivals.foldl (fun (p : Pkg) (f : Flit) =>
    if p.takes f.msg then ((p.swapFlit f none).returnCredit f.place).deliver f.msg else p) p
  let p := Pkg.homeRun 64 p
  p.coh.confq.foldl (fun (p : Pkg) (r : HomeReq) => Pkg.homeRun 8 (p.serveNext r.line)) p

/-! ### Arbitration (R265) -/

/-- The output that a book belongs to: the two slots of grid DAT are one for both virtual channels. -/
def outputOf (b : Nat × Nat) : Nat × Nat := if b.1 = pgGRID ∧ bookNet b.2 = 3 then (b.1, b.2 - bookVc b.2 * 8192) else b

/-- The flits that an output grants in a cycle. -/
def grantsPerCycle (b : Nat × Nat) : Nat :=
  if b.1 = pgGRID ∧ bookNet b.2 = 3 then 2 else takesPerCycle (some b)

/-- The number of an input in the round robin order. -/
def Flit.input (f : Flit) : Nat := match f.place with | some b => b.1 * 65536 + b.2 + 1 | none => 0

/-- The head flit of its buffer, or of what its sender has for the injection port, with its next book. -/
def Pkg.competes (p : Pkg) (i : Nat) (f : Flit) : Option (Nat × Nat) :=
  match f.wire, f.path with
  | false, b :: _ =>
    if (p.coh.net.take i).any (fun g => !g.wire && g.place == f.place && (f.place.isSome || g.path.head? == some b)) then none
    else some b
  | _, _ => none

/-- The better of two competing flits at an output that last granted input `last`: the more urgent one, among equals the
first input after the last granted. -/
def better (last : Nat) (f g : Flit) : Bool :=
  let turn := fun (x : Flit) => (x.input + 2 ^ 48 - last - 1) % 2 ^ 48
  decide (g.msg.urg < f.msg.urg) || (f.msg.urg == g.msg.urg && decide (turn f < turn g))

/-- A flit is granted: it goes onto the wires of its next book, a credit is spent, and the credit of the buffer it leaves
returns. -/
def Pkg.grantFlit (p : Pkg) (f : Flit) (b : Nat × Nat) : Pkg :=
  let p := (p.swapFlit f none).returnCredit f.place
  let p := p.setBook b { p.book b with spent := (p.book b).spent + 1 }
  let p := p.setBook (outputOf b) { p.book (outputOf b) with last := f.input }
  let p := p.retryBook b false
  { p with coh := { p.coh with net := p.coh.net ++ [{ f with place := some b, path := f.path.tail, wire := true, wait := 0 }] } }

/-- An output grants up to `n` of the flits that compete for it, each with a credit for its book. -/
def Pkg.grantOutput (o : Nat × Nat) : Nat → List (Flit × (Nat × Nat)) → Pkg → Pkg
  | 0, _, p => p
  | k + 1, cs, p =>
    let ok := cs.filter (fun c => p.bookOpen c.2)
    match ok with
    | [] => p
    | c :: rest =>
      let w := rest.foldl (fun (a c : Flit × (Nat × Nat)) => if better (p.book o).last c.1 a.1 then c else a) c
      Pkg.grantOutput o k (cs.erase w) (p.grantFlit w.1 w.2)

/-- Every output of every stop and square, and every Mocor link, grants. -/
def Pkg.arbitrate (p : Pkg) : Pkg :=
  let cs := p.coh.net.zipIdx.filterMap (fun e => (p.competes e.2 e.1).map (fun b => (e.1, b)))
  ((cs.map (fun c => outputOf c.2)).eraseDups).foldl (fun (p : Pkg) (o : Nat × Nat) =>
    Pkg.grantOutput o (grantsPerCycle o) (cs.filter (fun c => outputOf c.2 == o)) p) p

/-- A flit that waits in a buffer gains urgency every 256 cycles, up to 15 (R264). -/
def Flit.age (f : Flit) : Flit :=
  if f.wire ∨ f.place.isNone then f
  else if f.wait < 255 then { f with wait := f.wait + 1 }
  else { f with wait := 0, msg := { f.msg with urg := min 15 (f.msg.urg + 1) } }

/-- One cycle of every network. -/
def Pkg.netCycle (p : Pkg) : Pkg :=
  let p := p.coh.net.foldl (fun (p : Pkg) (f : Flit) => p.landFlit f) p.landCredits
  let p := { p with coh := { p.coh with net := p.coh.net.map (p.nextPart 6) } }
  let p := p.receive
  let p := { p with coh := { p.coh with net := p.coh.net.map (p.nextPart 6) } }
  let p := p.arbitrate
  ({ p with coh := { p.coh with net := p.coh.net.map Flit.age } }).inServe

end Sys2Proof.Machine
end

