-- ==== Sys2Proof/Machine/Step.lean ====
section
/-! DEFINITION. One step of the block: the command at the front of the queue is carried out. -/

namespace Sys2Proof.Machine

/-- The block when no command waits: its networks go through one cycle, and nothing else happens (DESIGN CHOICE, log entries
20 and 121); in OFF nothing is powered. -/
def State.idle (s : State) : State := if s.mode.mode = .off then s else { s with pkg := s.pkg.netCycle }

/-- Take the command at the front of the queue and run it on the state with the queue's rest; on an empty queue the networks
move. -/
def step (s : State) : Host.Outcome State Fault Refusal :=
  match s.pending with
  | [] => .next s.idle
  | c :: rest => exec c { s with pending := rest }

/-- The state with the command that a word spells at the front of its queue; no row of the table gives bits, so no word
spells one. -/
def State.withFetchWord (s : State) (nbits w : Nat) : State :=
  match decodeTableWord nbits w with
  | some c => { s with pending := c :: s.pending }
  | none => s

end Sys2Proof.Machine
end

