-- ==== Sys2Proof/Safety.lean ====
section
/-! DEFINITION. The terms that claims use: a command that completes, what a step leaves alone, and a command status. -/

namespace Sys2Proof.Machine

/-- The command completes in `s`: it answers a next state, and `P` holds of it. -/
def Completes (c : Instr) (s : State) (P : State → Prop) : Prop := ∃ t, exec c s = .next t ∧ P t

/-- Nothing differs but the registers of the pages. -/
def OnlyPages (s t : State) : Prop := t = { s with pkg := { s.pkg with pages := t.pkg.pages } }

/-- Nothing differs but the registers of the pages and what was last sent out. -/
def OnlyPagesOut (s t : State) : Prop := t = { s with pkg := { s.pkg with pages := t.pkg.pages, out := t.pkg.out } }

/-- Nothing differs but the registers of the pages and the steward. -/
def OnlyPagesStw (s t : State) : Prop := t = { s with pkg := { s.pkg with pages := t.pkg.pages, stw := t.pkg.stw } }

/-- Nothing differs but the registers of the pages, the steward and one more part `f` of the package. -/
def OnlyPkg (s t : State) : Prop := t = { s with pkg := t.pkg }

/-- The last command of a page: LASTST and LASTCMD (R32). -/
def LastCmd (p : Pkg) (pg off st : Nat) : Prop := p.rf pg 0x020 3 0 = st ∧ p.rf pg 0x020 27 16 = off

/-! ### Instructions of a logical core -/

/-- The operation `m` succeeds in package `p`: it answers `a` and leaves `q`. -/
def Yields {α : Type} (m : M α) (p : Pkg) (a : α) (q : Pkg) : Prop := m.run.run p = (.ok a, q)

/-- The operation `m` stops in package `p` with `st` and leaves `q`. -/
def Stops {α : Type} (m : M α) (p : Pkg) (st : Stop) (q : Pkg) : Prop := m.run.run p = (.error st, q)

/-- The circumstances of the decoded instruction `d` at the IP of core `lc`. -/
def envOf (s : State) (lc : Nat) (d : Decoded) : Env :=
  { x := (s.pkg.beginInstr lc d.order).ctx lc d, md := s.mode, d := d, ip := (s.pkg.core lc).ip.toNat,
    next := (s.pkg.core lc).ip + BitVec.ofNat 64 d.len }

/-- Core `lc` executes the instruction `d` whose bytes the command delivers: the core runs, no machine check of a posted
write comes first at an instruction boundary, neither its ORDER nor that of the instruction before has anything to wait for,
SPACE is not used at U, and the bytes are fetched, which leaves `q`. -/
structure Begins (s : State) (lc : Lc) (f : Fetch) (d : Decoded) (q : Pkg) : Prop where
  ready : s.pkg.coreReady s.mode lc = true
  noCheck : (s.pkg.core lc).io = [] → (s.pkg.core lc).failed = []
  decoded : decodePelmund f.code = .ok d
  ordered : (s.pkg.core lc).mustWait d.order = false
  spaced : d.space = true → (s.pkg.core lc).pl ≠ 0
  fetched : Yields (fetchBytes (envOf s lc d).x s.mode (s.pkg.core lc).ip.toNat d.len) (s.pkg.beginInstr lc d.order) () q

/-- The control registers that count (R508, R513): PMC0 to PMC7, CYCLE and PMOVF. -/
def countsCr (n : Nat) : Bool := decide (0x42 ≤ n ∧ n ≤ 0x4A) || n == 0x4C

/-- The instruction has ended in package `q`: the registers of the core are those of `c`, its IP is `ip`, nothing is partly
done; but for its counters and what they signal nothing differs from `q`. -/
structure Ends (s : State) (lc : Lc) (q : Pkg) (c : Core) (ip : Word) (t : State) : Prop where
  g : (t.pkg.core lc).g = c.g
  ma : (t.pkg.core lc).ma = c.ma
  psw : (t.pkg.core lc).psw = c.psw
  run : (t.pkg.core lc).run = c.run
  ip : (t.pkg.core lc).ip = ip
  part : (t.pkg.core lc).part = 0
  cr : ∀ n, countsCr n = false → (t.pkg.core lc).crGet n = c.crGet n
  others : ∀ k, k ≠ lc.val → t.pkg.core k = q.core k
  units : ∀ u, t.pkg.unit u = { q.unit u with progress := (t.pkg.unit u).progress }
  rest : t = { s with pkg := { q with cores := t.pkg.cores, units := t.pkg.units, fresh := t.pkg.fresh } }

end Sys2Proof.Machine
end

