-- ==== Sys2Proof/Certificates/Slice0/Obligations.lean ====
section
/-! DEFINITION. The statements about this model that are to be proved. -/

section

open Sys2Proof Sys2Proof.Machine

/-! ### The queue and the outcome of a step -/

/-- A step takes the command at the front of the queue and runs it on the state with the queue's rest (the model's form of
a block that takes commands, R38). -/
def Obligations.StepRunsTheFrontCommand : Prop :=
  ∀ (c : Instr) (rest : List Instr) (s : State), step { s with pending := c :: rest } = exec c { s with pending := rest }

/-- No command touches the commands that wait. On an empty queue the networks go through one cycle, which changes neither the
queue nor the mode, and in OFF nothing (the model's choice, log entries 20 and 121; the commands themselves are those of
R38). -/
def Obligations.CommandsLeaveTheQueue : Prop :=
  (∀ c s t, exec c s = .next t → t.pending = s.pending) ∧
  (∀ s, s.pending = [] → step s = .next s.idle ∧ s.idle.pending = [] ∧ s.idle.mode = s.mode ∧
    (s.mode.mode = .off → s.idle = s))

/-- The bytes that the front end delivers with the rows of Pelmund instructions. -/
def bytesOf : Instr → Option Fetch
  | .nop _ f | .mov _ f | .movz _ f | .movs _ f | .mova _ f | .xchg _ f | .clr _ f | .add _ f | .sub _ f
  | .adc _ f | .sbb _ f | .mul _ f | .mulh _ f | .mulhu _ f | .div _ f | .divu _ f | .rem _ f | .remu _ f
  | .neg _ f | .inc _ f | .dec _ f | .cmp _ f | .test _ f | .and _ f | .or _ f | .xor _ f | .andn _ f | .not _ f
  | .shl _ f | .shr _ f | .sar _ f | .rol _ f | .ror _ f | .bswap _ f | .popc _ f | .clz _ f | .ctz _ f
  | .dadd _ f | .dsub _ f | .dmul _ f | .ddiv _ f | .dcmp _ f | .dshr _ f | .cvtdb _ f | .cvtbd _ f | .dmov _ f
  | .edit _ f | .fscan _ f | .fxlat _ f | .fmove _ f | .ffill _ f | .fcmp _ f | .macB8 _ f | .macH16 _ f
  | .macW32 _ f | .macF32 _ f | .maclr _ f | .mard _ f | .mawr _ f | .faddD _ f | .fsubD _ f | .fmulD _ f
  | .fdivD _ f | .fcmpD _ f | .fsqrtD _ f | .cvtdq _ f | .cvtqd _ f | .faddS _ f | .fsubS _ f | .fmulS _ f
  | .fdivS _ f | .fcmpS _ f | .fsqrtS _ f | .cvtsq _ f | .cvtqs _ f | .cvtsd _ f | .cvtds _ f | .cas _ f
  | .xadd _ f | .jmp _ f | .call _ f | .scall _ f | .mcall _ f | .retx _ f | .waitf _ f | .bCc _ f | .setCc _ f
  | .tinv _ f | .tsync _ f | .cinv _ f | .cwb _ f | .cflush _ f | .cinva _ f | .cwba _ f | .cflusha _ f
  | .clockw _ f | .cunlock _ f | .rdcr _ f | .wrcr _ f | .rdctr _ f | .illegalOpcode _ f => some f
  | _ => none

/-- No command ends in a fault, and the only refusal is that of an instruction row whose delivered bytes are not an
instruction of that row: a row that carries no bytes always answers a next state (R38, R108, R112). -/
def Obligations.OnlyForeignBytesAreRefused : Prop :=
  ∀ c s, (∃ t, exec c s = .next t) ∨ (∃ f mn, bytesOf c = some f ∧ exec c s = .refused (.illFormed mn))

/-! ### Package modes -/

/-- Each of the six rows with the mode it asks for. -/
def modeRows (who : Requester) : List (Instr × Mode) :=
  [(.modecmdLoad who, .load), (.modecmdTest who, .test), (.modecmdRun who, .run), (.modecmdDegraded who, .degraded),
   (.modecmdDrizzle who, .drizzle), (.modecmdQuiesce who, .quiesce)]

/-- A mode command of the service host whose transition and acceptance condition hold is PENDING with BUSY, and waits for a
tick while the mode stays; in any other case it ends WRONG_STATE; a requester other than the host gets DENIED, and TARGET
keeps its value (R55, R57). -/
def Obligations.ModeCommandsAreJudged : Prop :=
  (∀ s e, e ∈ modeRows .host → s.pkg.commands .host pgSTW = true → s.mode.pcs = false → s.pkg.stwBusy s.mode = false →
    s.pkg.modeReady s.mode.mode e.2 = true →
    Completes e.1 s (fun t => t.pkg.stw = { s.pkg.stw with modeCmd := some (e.2, false) } ∧ t.mode = s.mode ∧
      LastCmd t.pkg pgSTW 0xC10 2 ∧ t.pkg.busy pgSTW = true ∧ t.pkg.rf pgSTW 0xC10 3 0 = e.2.code ∧ OnlyPagesStw s t)) ∧
  (∀ s e, e ∈ modeRows .host → s.pkg.commands .host pgSTW = true →
    s.mode.pcs = true ∨ s.pkg.stwBusy s.mode = true ∨ s.pkg.modeReady s.mode.mode e.2 = false →
    Completes e.1 s (fun t => t.pkg.stw.modeCmd = s.pkg.stw.modeCmd ∧ t.mode = s.mode ∧ LastCmd t.pkg pgSTW 0xC10 3 ∧
      OnlyPagesStw s t)) ∧
  (∀ s who e, who ≠ .host → e ∈ modeRows who → s.pkg.commands who pgSTW = true →
    Completes e.1 s (fun t => LastCmd t.pkg pgSTW 0xC10 5 ∧ t.pkg.rf pgSTW 0xC10 3 0 = s.pkg.rf pgSTW 0xC10 3 0 ∧
      t.mode = s.mode ∧ OnlyPages s t))

/-- Every agent of R60 has stopped: no core waits inside an instruction, the ledger engine has completed what it fetched, and
no hub DMA channel runs a descriptor. -/
def agentsStopped (p : Pkg) : Prop :=
  (∀ lc, lc < 216 → (p.core lc).io = []) ∧ (∀ e ∈ p.ledger.slots, e.2 = none) ∧
  (∀ k, k < 16 → (p.chan k).desc = none)

/-- DRAINLIM in frames: 125 at 0, and 1,024 at most (R60). -/
def drainFrames (p : Pkg) : Nat := if p.cf pgSTW 0x400 42 32 = 0 then 125 else min 1024 (p.cf pgSTW 0x400 42 32)

/-- DRZCFG[AUTOFR] in frames: 1,250 at 0 (R429, R435). -/
def autoFrames (p : Pkg) : Nat := if p.cf pgHPWR 0x408 47 32 = 0 then 1250 else p.cf pgHPWR 0x408 47 32

/-- A transition whose entry work a tick found done completes: MODE takes the target (out of DRIZZLE, RUN or DEGRADED as
LOSTSET says), ORIGIN, ENTFRM and RET are recorded, MODE_CHANGED is logged, SE.INTSTAT[MODE] sets and the command whose
target is reached reports OK. A drain ends when all agents have stopped, or at its limit with FORCED telling whether any
had not. Under its policy the steward begins the entry into DRIZZLE (R55, R57, R58, R60, R409, R429, R448). -/
def Obligations.TransitionsComplete : Prop :=
  (∀ s tr, s.mode.trans = some tr → tr.done = true →
    Completes .modeTransitionComplete s (fun t =>
      t.mode.mode = (if s.mode.mode = .drizzle ∧ tr.target ≠ .quiesce then wakeTarget (s.pkg.lostNow s.mode.mode)
        else tr.target) ∧
      t.mode.trans = none ∧ t.mode.drain = none ∧ t.mode.origin = tr.origin ∧
      (s.mode.mode ≠ .service → t.mode.entfrm = s.pkg.frameNum % 65536) ∧
      (t.mode.ret = if t.mode.mode = .drizzle then some (wakeTarget (s.pkg.lostNow s.mode.mode)) else none) ∧
      t.mode.pcs = s.mode.pcs ∧ t.mode.forced = s.mode.forced ∧ t.pkg.rf pgSE 0x208 2 2 = 1 ∧
      (t.pkg.stw.events.head?.map (fun e => (e.code, e.origin))) = some (0x10, tr.origin) ∧
      (∀ b, s.pkg.stw.modeCmd = some (t.mode.mode, b) → t.pkg.stw.modeCmd = none ∧ LastCmd t.pkg pgSTW 0xC10 1 ∧
        t.pkg.busy pgSTW = false) ∧
      t.pending = s.pending)) ∧
  (∀ s, (∀ tr, s.mode.trans = some tr → tr.done = false) → exec .modeTransitionComplete s = .next s) ∧
  (∀ s, s.mode.drain ≠ none → agentsStopped s.pkg →
    Completes .quiesceDrainComplete s (fun t => t = { s with mode := { s.mode with drain := none, forced := false } })) ∧
  (∀ s, s.mode.drain = none ∨ ¬ agentsStopped s.pkg → exec .quiesceDrainComplete s = .next s) ∧
  (∀ s n, s.mode.drain = some n → drainFrames s.pkg ≤ n →
    Completes .drainLimitExpiry s (fun t => ∃ b, t = { s with mode := { s.mode with drain := none, forced := b } } ∧
      (b = true ↔ ¬ agentsStopped s.pkg))) ∧
  (∀ s, (∀ n, s.mode.drain = some n → n < drainFrames s.pkg) → exec .drainLimitExpiry s = .next s) ∧
  (∀ s, s.mode.mode = .run ∨ s.mode.mode = .degraded → s.mode.trans = none → s.pkg.stw.modeCmd = none →
    s.pkg.cf pgHPWR 0x408 24 24 = 1 → autoFrames s.pkg ≤ s.pkg.pw.idleFr →
    Completes .drizzleAutoEntry s (fun t =>
      t = { s with mode := { s.mode with trans := some { target := .drizzle, origin := 2, done := false } } }))

/-- MODE takes `m` at this tick, with ORIGIN `o` and the frame in ENTFRM. -/
def entersMode (i : ModeIn) (m : Mode) (o : Nat) (md' : ModeState) : Prop :=
  md'.mode = m ∧ md'.origin = o ∧ md'.entfrm = i.frame % 65536

/-- A transition towards `m` with ORIGIN `o` is in progress, and MODE is still that of `md`. -/
def beginsTo (md : ModeState) (m : Mode) (o : Nat) (md' : ModeState) : Prop :=
  md'.mode = md.mode ∧ ∃ tr, md'.trans = some tr ∧ tr.target = m ∧ tr.origin = o

/-- What the evaluation of a tick makes of MODESTAT `md`, in the order of R59: a package checkstop comes before everything;
a command begins its transition; in DRIZZLE a wake match begins the exit, or is only recorded; LOSTSET is applied unless a
transition began at this tick or MODE takes a target at it. -/
def tickRule (md : ModeState) (i : ModeIn) (md' : ModeState) : Prop :=
  (i.pcs = true → md'.pcs = true ∧ md'.trans = none ∧
    (md.mode = .run ∨ md.mode = .degraded ∨ md.mode = .drizzle ∨ md.mode = .load →
      entersMode i .quiesce 4 md' ∧ md'.forced = true ∧ md'.drain = none) ∧
    (md.mode = .quiesce → md'.mode = .quiesce ∧ md'.forced = true ∧ md'.drain = none) ∧
    (md.mode = .service ∨ md.mode = .test → md'.mode = md.mode)) ∧
  (i.pcs = false → md'.pcs = md.pcs ∧ md'.forced = md.forced ∧
    (∀ m, i.begin_ = some m → beginsTo md m 1 md' ∧ md'.drain = (if m = .quiesce then some 0 else none) ∧
      (md.mode = .drizzle → md'.wake = i.wake.getD 0x21)) ∧
    (i.begin_ = none → md'.drain = md.drain.map (· + 1)) ∧
    (∀ c, i.begin_ = none → md.mode = .drizzle → md.trans = none → i.wake = some c →
      beginsTo md (wakeTarget i.lost) 3 md' ∧ md'.wake = c) ∧
    (i.begin_ = none → md.mode = .drizzle → md.trans = none → i.wake = none →
      if i.lost &&& (2 ^ 47 - 1 - md.lostAtEntry) = 0 then md'.trans = none ∧ md'.wake = md.wake
      else beginsTo md .degraded 2 md' ∧ md'.wake = 0x20) ∧
    (i.begin_ = none → (md.trans = none ∨ i.done = false) → (md.mode = .run ∧ i.lost ≠ 0 → entersMode i .degraded 2 md') ∧
      (md.mode = .degraded ∧ i.lost = 0 → entersMode i .run 2 md') ∧
      (md.mode = .run ∧ i.lost = 0 ∨ md.mode = .degraded ∧ i.lost ≠ 0 → md' = { md with drain := md.drain.map (· + 1) })))

/-- A tick of a package that is on evaluates the mode on what the steward has just found, by the rule of R59; a checkstop that
was raised, a command that waits, a wake match and LOSTSET are its inputs. It takes no command off the queue. In OFF a
tick does nothing (R59, R64). -/
def Obligations.FrameTickEvaluatesTheMode : Prop :=
  (∀ s len ph sm, s.mode.mode ≠ .off →
    Completes (.frameTick len ph sm) s (fun t => t.pending = s.pending ∧
      ∃ q md, q = (s.pkg.tickBefore s.mode (s.pkg.frameLen (len != 800)) ph sm).tickSteward s.mode s.pkg.frameNum ∧
        tickRule s.mode (q.modeIn s.mode) md ∧ t.mode = { md with trans := t.mode.trans } ∧
        t.mode.trans.map (fun x => (x.target, x.origin)) = md.trans.map (fun x => (x.target, x.origin)))) ∧
  (∀ (q : Pkg) (md : ModeState), (q.modeIn md).pcs = q.stw.pcsRaised ∧ (q.modeIn md).wake = q.stw.wakeMatch ∧ (q.modeIn md).frame = q.frameNum ∧
    (q.modeIn md).lost = q.lostNow md.mode ∧
    ∀ m, (q.modeIn md).begin_ = some m ↔ q.stw.modeCmd = some (m, false) ∧ q.modeReady md.mode m = true ∧ md.trans = none) ∧
  (∀ s len ph sm, s.mode.mode = .off → exec (.frameTick len ph sm) s = .next s)

/-- Power good enters SERVICE with frame 0 and nothing kept but the ledger stacks; a fall of PKG_RESET_N or a lost
reference clock enters OFF from every mode, and what is volatile is as after reset (R55, R544, R554). -/
def Obligations.PowerGoodAndPackageReset : Prop :=
  (∀ s head, s.mode.mode = .off →
    Completes (.powerGood head) s (fun t => t.mode = ModeState.reset ∧ t.pkg.pw.island = true ∧ t.pkg.frameNum = 0 ∧
      t.pkg.head = head ∧ t.pkg.stw = Steward.reset ∧ t.pkg.cores = [] ∧ t.pkg.hbm = Hbm.reset ∧
      t.pkg.ledger.ns = s.pkg.ledger.ns ∧ (s.pkg.pw.perst = false → t.pkg.seLink = true) ∧ t.pending = s.pending)) ∧
  (∀ s head, s.mode.mode ≠ .off → exec (.powerGood head) s = .next s) ∧
  (∀ s c, c = .pkgReset ∨ c = .refclkLoss → s.mode.mode ≠ .off →
    Completes c s (fun t => t.mode.mode = .off ∧ t.mode.trans = none ∧ t.pkg.pages = [] ∧ t.pkg.stw = Steward.reset ∧
      t.pkg.cores = [] ∧ t.pkg.hbm = Hbm.reset ∧ t.pkg.coh = Coh.reset ∧ t.pkg.pw.island = false ∧
      t.pkg.head = ((s.pkg.pfHold s.mode.mode).pfStop).head ∧ t.pkg.ledger.qps = [] ∧ t.pkg.ledger.slots = [] ∧
      t.pkg.ledger.ns = ((s.pkg.pfHold s.mode.mode).pfStop).ledger.ns))

/-- The mode and its transition agree: a transition in progress is one that the service host or the steward may start, a
drain runs only towards QUIESCE, and MODESTAT[RET] names a mode exactly in DRIZZLE. -/
def ModeInv (md : ModeState) : Prop :=
  (∀ tr, md.trans = some tr → hostPath md.mode tr.target = true) ∧
  (∀ n, md.drain = some n → ∃ tr, md.trans = some tr ∧ tr.target = .quiesce) ∧
  (md.ret.isSome = true ↔ md.mode = .drizzle)

/-- The mode invariant, that the mode, its transition, its drain and RET agree, holds right after reset (R55, R58). -/
def Obligations.ModeInvariantAtReset : Prop := ModeInv State.reset.mode

/-- Every step keeps the mode invariant: a transition in progress is one that the service host or the steward may start, a
drain runs only towards QUIESCE, and MODESTAT[RET] names a mode exactly in DRIZZLE (R55, R58 to R60). -/
def Obligations.EveryStepKeepsTheModeInvariant : Prop :=
  ∀ s t, ModeInv s.mode → step s = .next t → ModeInv t.mode

/-- The package mode changes only along the table of R55. -/
def Obligations.ModeChangesOnlyAlongTheTable : Prop :=
  ∀ s t, ModeInv s.mode → step s = .next t → t.mode.mode ≠ s.mode.mode → modePath s.mode.mode t.mode.mode = true

/-- Only the steward's evaluation, the end of a transition or of a drain, the policy of DRIZZLE and power change anything of
MODESTAT or of a transition (R55): every other command of the table leaves them. -/
def Obligations.OnlyEightRowsTouchTheMode : Prop :=
  ∀ c s t, exec c s = .next t → t.mode ≠ s.mode →
    (∃ head, c = .powerGood head) ∨ c = .pkgReset ∨ c = .refclkLoss ∨ (∃ len ph sm, c = .frameTick len ph sm) ∨
    c = .modeTransitionComplete ∨ c = .quiesceDrainComplete ∨ c = .drainLimitExpiry ∨ c = .drizzleAutoEntry

/-- TEST is left only for OFF, and only by a fall of PKG_RESET_N or what acts as one (R56, R551). -/
def Obligations.TestIsLeftOnlyForOff : Prop :=
  ∀ s t, ModeInv s.mode → s.mode.mode = .test → step s = .next t → t.mode.mode ≠ .test →
    t.mode.mode = .off ∧ (s.pending.head? = some .pkgReset ∨ s.pending.head? = some .refclkLoss)

/-! ### Partitions -/

/-- The conditions of R398 under which a partition command is allowed in a mode of R397. -/
def pcmdAllowed (p : Pkg) (md : Mode) : Instr → Prop
  | .define _ pid => pid.val ≠ 0 ∧ (p.part pid.val).st = .free
  | .assign _ pid lc => (p.part pid.val).st = .defined ∧ p.mapped lc.val = true ∧
    ∀ q, p.pidOf lc.val = some q → (p.part q).st ≠ .checkstopped
  | .unassign _ lc => ∃ q, p.pidOf lc.val = some q ∧ (p.part q).st ≠ .checkstopped
  | .restart _ pid => pid.val ≠ 0 ∧ (p.part pid.val).st = .checkstopped ∧ (p.part pid.val).logged = true
  | .release _ pid => pid.val ≠ 0 ∧ (p.part pid.val).st = .defined ∧ p.hasCores pid.val = false ∧ (p.part pid.val).gen < 0xFFFF
  | .pcmdRekey _ pid => p.rekeyOk md pid.val = true ∧ ((p.part pid.val).st = .checkstopped ∨
    ((p.part pid.val).st = .defined ∧ p.hasCores pid.val = false))
  | _ => False

/-- Of the steward only the entry of one partition differs, and the note that a tick has seen its request. -/
def OnlyPart (pid : Nat) (s t : State) : Prop :=
  t.pkg.stw = { s.pkg.stw with parts := t.pkg.stw.parts, ripe := t.pkg.stw.ripe } ∧ ∀ q, q ≠ pid → t.pkg.part q = s.pkg.part q

/-- Of the steward only the recorded assignment of one core differs, and the note that a tick has seen it. -/
def OnlyAssign (lc : Nat) (s t : State) : Prop :=
  t.pkg.stw = { s.pkg.stw with assigns := t.pkg.stw.assigns, ripe := t.pkg.stw.ripe } ∧
  ∀ k, k ≠ lc → tblGet (fun _ => none) t.pkg.stw.assigns k = tblGet (fun _ => none) s.pkg.stw.assigns k

/-- The partition commands judge their conditions at once: an allowed one records what the tick will do, sets LASTST OK and
LASTCMD, and leaves every core and every other partition; DEFINE takes effect at once. A command that is not allowed ends
WRONG_STATE and records nothing; a DEFINE whose VEC lies outside HBM ends BAD_ARG (R397, R398). -/
def Obligations.PartitionCommandsAreJudgedAtOnce : Prop :=
  (∀ s who pid, s.pkg.commands who pgSTW = true → pcmdMode s.mode.mode = true → pid.val ≠ 0 →
    s.pkg.rf pgSTW 0xC48 51 12 * 4096 < hbmSize → (s.pkg.part pid.val).st = .free →
    Completes (.define who pid) s (fun t => OnlyPagesStw s t ∧ LastCmd t.pkg pgSTW 0xC40 1 ∧
      t.pkg.part pid.val = { s.pkg.part pid.val with st := .defined, vec := s.pkg.rf pgSTW 0xC48 51 12 * 4096 } ∧
      OnlyPart pid.val s t)) ∧
  (∀ s who pid lc, s.pkg.commands who pgSTW = true → pcmdMode s.mode.mode = true → (s.pkg.part pid.val).st = .defined →
    s.pkg.mapped lc.val = true → (∀ q, s.pkg.pidOf lc.val = some q → (s.pkg.part q).st ≠ .checkstopped) →
    Completes (.assign who pid lc) s (fun t => OnlyPagesStw s t ∧ LastCmd t.pkg pgSTW 0xC40 1 ∧
      tblGet (fun _ => none) t.pkg.stw.assigns lc.val = some (pid.val, originOf who) ∧ OnlyAssign lc.val s t)) ∧
  (∀ s who lc q, s.pkg.commands who pgSTW = true → pcmdMode s.mode.mode = true → s.pkg.pidOf lc.val = some q →
    (s.pkg.part q).st ≠ .checkstopped →
    Completes (.unassign who lc) s (fun t => OnlyPagesStw s t ∧ LastCmd t.pkg pgSTW 0xC40 1 ∧
      tblGet (fun _ => none) t.pkg.stw.assigns lc.val = some (0x80, originOf who) ∧ OnlyAssign lc.val s t)) ∧
  (∀ s who pid, s.pkg.commands who pgSTW = true → pcmdMode s.mode.mode = true → pid.val ≠ 0 →
    (s.pkg.part pid.val).st = .checkstopped → (s.pkg.part pid.val).logged = true →
    Completes (.restart who pid) s (fun t => OnlyPagesStw s t ∧ LastCmd t.pkg pgSTW 0xC40 1 ∧
      t.pkg.part pid.val = { s.pkg.part pid.val with restart := true } ∧ OnlyPart pid.val s t)) ∧
  (∀ s who pid, s.pkg.commands who pgSTW = true → pcmdMode s.mode.mode = true → pid.val ≠ 0 →
    (s.pkg.part pid.val).st = .defined → s.pkg.hasCores pid.val = false → (s.pkg.part pid.val).gen < 0xFFFF →
    Completes (.release who pid) s (fun t => OnlyPagesStw s t ∧ LastCmd t.pkg pgSTW 0xC40 1 ∧
      t.pkg.part pid.val = { s.pkg.part pid.val with release := some (originOf who) } ∧ OnlyPart pid.val s t)) ∧
  (∀ s who pid, s.pkg.commands who pgSTW = true → pcmdMode s.mode.mode = true → s.pkg.rekeyOk s.mode.mode pid.val = true →
    (s.pkg.part pid.val).st = .checkstopped ∨
      ((s.pkg.part pid.val).st = .defined ∧ s.pkg.hasCores pid.val = false) →
    Completes (.pcmdRekey who pid) s (fun t => OnlyPagesStw s t ∧ LastCmd t.pkg pgSTW 0xC40 1 ∧
      t.pkg.part pid.val = { s.pkg.part pid.val with rekey := some (originOf who) } ∧ OnlyPart pid.val s t)) ∧
  (∀ s who pid, s.pkg.commands who pgSTW = true → pcmdMode s.mode.mode = true →
    hbmSize ≤ s.pkg.rf pgSTW 0xC48 51 12 * 4096 →
    Completes (.define who pid) s (fun t => OnlyPages s t ∧ LastCmd t.pkg pgSTW 0xC40 4)) ∧
  (∀ s who pid lc c, s.pkg.commands who pgSTW = true →
    (pcmdMode s.mode.mode = false ∨ ¬ pcmdAllowed s.pkg s.mode.mode c) →
    (pcmdMode s.mode.mode = true → s.pkg.rf pgSTW 0xC48 51 12 * 4096 < hbmSize) →
    c ∈ [Instr.define who pid, .assign who pid lc, .unassign who lc, .restart who pid, .release who pid, .pcmdRekey who pid] →
    Completes c s (fun t => OnlyPagesStw s t ∧ t.pkg.stw.parts = s.pkg.stw.parts ∧
      t.pkg.stw.assigns = s.pkg.stw.assigns ∧ LastCmd t.pkg pgSTW 0xC40 3))

/-- Another core of the die of `lc` than `lc` itself belongs to partition `q`. -/
def dieShares (p : Pkg) (lc q : Nat) : Prop := ∃ k, k < 18 ∧ lcDie lc * 18 + k ≠ lc ∧ p.lcpid (lcDie lc * 18 + k) = q

/-- Once a tick has seen what was recorded (R74), the steward applies it: an idle core starts at the reset vector of its new
partition; a core that executes at M goes on under its new one, with its registers, while its die keeps another core of the
old partition; an unassigned core stops; an assignment whose conditions do not hold is dropped, with ASGNREJ and an event;
a restarted partition is DEFINED and its MAPPED cores restart; a released one is FREE and will be re-keyed; CYCLE and
PMMCTL are kept (R398, R399, R514). -/
def Obligations.RecordedAssignmentsTakeEffect : Prop :=
  (∀ s lc pid o, tblGet (fun _ => none) s.pkg.stw.assigns lc.val = some (pid, o) → s.pkg.isRipe .assign lc.val = true →
    pid < 128 → s.pkg.mapped lc.val = true → (s.pkg.part pid).st = .defined → (s.pkg.core lc.val).run = .idle →
    s.pkg.pidOf lc.val = none → tblGet (fun _ => none) s.pkg.stw.held lc.val = none →
    Completes (.assignmentApply lc) s (fun t => t.pkg.lcpid lc.val = pid ∧
      t.pkg.core lc.val = (s.pkg.core lc.val).restart (s.pkg.part pid).vec (pid * 0x10000 + lc.val) ∧
      (t.pkg.core lc.val).ip = BitVec.ofNat 64 (s.pkg.part pid).vec ∧ (t.pkg.core lc.val).psw = pswReset ∧
      (t.pkg.core lc.val).run = .executing ∧
      (t.pkg.core lc.val).crGet 0x4A = (s.pkg.core lc.val).crGet 0x4A ∧
      (t.pkg.core lc.val).crGet 0x4F = (s.pkg.core lc.val).crGet 0x4F ∧
      tblGet (fun _ => none) t.pkg.stw.assigns lc.val = none ∧ t.pkg.pages = s.pkg.pages ∧
      ∀ k, k ≠ lc.val → t.pkg.core k = s.pkg.core k ∧ t.pkg.lcpid k = s.pkg.lcpid k)) ∧
  (∀ s lc pid o q, tblGet (fun _ => none) s.pkg.stw.assigns lc.val = some (pid, o) → s.pkg.isRipe .assign lc.val = true →
    pid < 128 → s.pkg.mapped lc.val = true → (s.pkg.part pid).st = .defined → (s.pkg.core lc.val).run = .executing →
    (s.pkg.core lc.val).pl = 2 → s.pkg.pidOf lc.val = some q → dieShares s.pkg lc.val q →
    tblGet (fun _ => none) s.pkg.stw.held lc.val = none →
    Completes (.assignmentApply lc) s (fun t => t.pkg.lcpid lc.val = pid ∧
      (t.pkg.core lc.val).run = .executing ∧ (t.pkg.core lc.val).ip = (s.pkg.core lc.val).ip ∧
      (t.pkg.core lc.val).g = (s.pkg.core lc.val).g ∧ (t.pkg.core lc.val).psw = (s.pkg.core lc.val).psw ∧
      fld ((t.pkg.core lc.val).crGet 0x18) 22 16 = pid ∧ tblGet (fun _ => none) t.pkg.stw.assigns lc.val = none)) ∧
  (∀ s lc o, tblGet (fun _ => none) s.pkg.stw.assigns lc.val = some (0x80, o) → s.pkg.isRipe .assign lc.val = true →
    s.pkg.mapped lc.val = true →
    (s.pkg.core lc.val).run = .idle → tblGet (fun _ => none) s.pkg.stw.held lc.val = none →
    Completes (.assignmentApply lc) s (fun t => t.pkg.lcpid lc.val = 0x80 ∧ (t.pkg.core lc.val).run = .idle ∧
      tblGet (fun _ => none) t.pkg.stw.assigns lc.val = none)) ∧
  (∀ s lc o q, tblGet (fun _ => none) s.pkg.stw.assigns lc.val = some (0x80, o) → s.pkg.isRipe .assign lc.val = true →
    s.pkg.mapped lc.val = true → (s.pkg.core lc.val).run = .executing → (s.pkg.core lc.val).pl = 2 →
    s.pkg.pidOf lc.val = some q → tblGet (fun _ => none) s.pkg.stw.held lc.val = none →
    Completes (.assignmentApply lc) s (fun t => t.pkg.lcpid lc.val = 0x80 ∧ (t.pkg.core lc.val).run = .idle ∧
      tblGet (fun _ => none) t.pkg.stw.assigns lc.val = none)) ∧
  (∀ s lc pid o, tblGet (fun _ => none) s.pkg.stw.assigns lc.val = some (pid, o) → s.pkg.isRipe .assign lc.val = true →
    (s.pkg.mapped lc.val = false ∨ (pid < 128 ∧ (s.pkg.part pid).st ≠ .defined) ∨
      ((s.pkg.core lc.val).run = .executing ∧ (s.pkg.core lc.val).pl ≠ 2 ∧
        tblGet (fun _ => none) s.pkg.stw.held lc.val = none)) →
    Completes (.assignmentApply lc) s (fun t => t.pkg.stw.lcpid = s.pkg.stw.lcpid ∧
      (bit (s.pkg.reg pgSTW 0x030) 16 = false → bit (t.pkg.reg pgSTW 0x028) 16 = true) ∧
      tblGet (fun _ => none) t.pkg.stw.assigns lc.val = none ∧ t.pkg.stw.evSeq = s.pkg.stw.evSeq + 1 ∧
      ∃ e, t.pkg.stw.events.head? = some e ∧ e.code = 0x11 ∧ e.lc = some lc.val)) ∧
  (∀ s pid, (s.pkg.part pid.val).restart = true → s.pkg.isRipe .restart pid.val = true →
    Completes (.restartApply pid) s (fun t => (t.pkg.part pid.val).st = .defined ∧ (t.pkg.part pid.val).restart = false ∧
      (∀ lc, lc < 216 → s.pkg.lcpid lc = pid.val → s.pkg.mapped lc = true →
        (t.pkg.core lc).run = .executing ∧ (t.pkg.core lc).ip = BitVec.ofNat 64 (s.pkg.part pid.val).vec ∧
        (t.pkg.core lc).psw = pswReset) ∧
      (∀ lc, s.pkg.lcpid lc ≠ pid.val → t.pkg.core lc = s.pkg.core lc))) ∧
  (∀ s pid o, (s.pkg.part pid.val).release = some o → s.pkg.isRipe .release pid.val = true →
    (s.pkg.part pid.val).st = .defined →
    Completes (.releaseApply pid) s (fun t => (t.pkg.part pid.val).st = .free ∧ (t.pkg.part pid.val).vec = 0 ∧
      (t.pkg.part pid.val).release = none ∧ (t.pkg.part pid.val).rekey = some o ∧ t.pkg.pages = s.pkg.pages ∧
      t.pkg.cores = s.pkg.cores))

/-! ### Sparing, rotation and self-test of units -/

/-- The unit with index `i` in service asks for a handover (it reached SPARETHR or failed hard, R404), and a tick has seen it. -/
def asksSpare (p : Pkg) (reg i : Nat) : Prop :=
  ((p.unit (reg / 2 * 20 + i)).hard = true ∨ (p.unit (reg / 2 * 20 + i)).spareReq = true) ∧
  (p.lcOfUnit (reg / 2) i).isSome = true ∧ p.isRipe .spare (reg / 2 * 20 + i) = true

/-- The newest event of the log is `code`, of logical core `lc`. -/
def Logged (p : Pkg) (code : Nat) (lc : Option Nat) : Prop :=
  ∃ e, p.stw.events.head? = some e ∧ e.code = code ∧ e.lc = lc

/-- A unit that reached SPARETHR or failed hard hands its logical core to the READY spare of its region, the lowest of the
units that ask first (log entry 70); without a READY spare a unit that did not fail hard keeps its core. A rotation that is due
gives the oldest unit's core to the READY spare, and waits without one, with SPARE_UNAVAILABLE logged once. The tested unit
becomes READY or FAILED. CORE_SPARED, CORE_ROTATED, BIST_PASS and BIST_FAIL are logged (R11, R12, R404, R406, R407, R541). -/
def Obligations.SparesTakeOverLogicalCores : Prop :=
  (∀ s (reg : Fin 24) i lc, pcmdMode s.mode.mode = true → s.pkg.dieUp (reg.val / 2) = true →
    s.pkg.stw.moved.contains reg.val = false → i / 10 = reg.val % 2 → asksSpare s.pkg reg.val i →
    (∀ j, j < i → j / 10 = reg.val % 2 → ¬ asksSpare s.pkg reg.val j) →
    s.pkg.lcOfUnit (reg.val / 2) i = some lc → s.pkg.spareEnt reg.val / 0x4000 = 1 →
    (s.pkg.unit (reg.val / 2 * 20 + physIdx (s.pkg.cmapEnt lc % 512))).intact = true →
    Completes (.coreSpareHandover reg) s (fun t =>
      t.pkg.cmapEnt lc = 0x4000 + s.pkg.spareEnt reg.val % 512 ∧
      t.pkg.spareEnt reg.val = 0xC000 + s.pkg.cmapEnt lc % 512 ∧ reg.val ∈ t.pkg.stw.moved ∧ Logged t.pkg 0x08 (some lc))) ∧
  (∀ s (reg : Fin 24), pcmdMode s.mode.mode = true → s.pkg.dieUp (reg.val / 2) = true →
    s.pkg.stw.moved.contains reg.val = false → s.pkg.spareEnt reg.val / 0x4000 ≠ 1 →
    (∀ i, i / 10 = reg.val % 2 → asksSpare s.pkg reg.val i → (s.pkg.unit (reg.val / 2 * 20 + i)).hard = false) →
    Completes (.coreSpareHandover reg) s (fun t => t.pkg.stw.cmap = s.pkg.stw.cmap ∧ t.pkg.cores = s.pkg.cores ∧
      t.pkg.stw.spare = s.pkg.stw.spare ∧ t.pkg.stw.moved = s.pkg.stw.moved)) ∧
  (∀ s (reg : Fin 24) lc, s.mode.mode = .run ∨ s.mode.mode = .degraded → s.pkg.dieUp (reg.val / 2) = true →
    s.pkg.stw.moved.contains reg.val = false → reg.val ∈ s.pkg.stw.rotWait → s.pkg.isRipe .rotate reg.val = true →
    s.pkg.cf pgSTW 0x400 1 1 = 0 → s.pkg.spareEnt reg.val / 0x4000 = 1 →
    (∀ i, i < 20 → (s.pkg.unit (reg.val / 2 * 20 + i)).hard = false ∧ (s.pkg.unit (reg.val / 2 * 20 + i)).spareReq = false) →
    (s.pkg.oldest (reg.val / 2) (((List.range 10).map (fun k => reg.val % 2 * 10 + k)).filter
      (fun i => (s.pkg.lcOfUnit (reg.val / 2) i).isSome))).bind (fun i => s.pkg.lcOfUnit (reg.val / 2) i) = some lc →
    (s.pkg.unit (reg.val / 2 * 20 + physIdx (s.pkg.cmapEnt lc % 512))).intact = true →
    Completes (.wearRotation reg) s (fun t =>
      t.pkg.cmapEnt lc = 0x4000 + s.pkg.spareEnt reg.val % 512 ∧
      t.pkg.spareEnt reg.val = 0x8000 + s.pkg.cmapEnt lc % 512 ∧ reg.val ∉ t.pkg.stw.rotWait ∧
      Logged t.pkg 0x09 (some lc))) ∧
  (∀ s (reg : Fin 24), s.mode.mode = .run ∨ s.mode.mode = .degraded → s.pkg.dieUp (reg.val / 2) = true →
    s.pkg.stw.moved.contains reg.val = false → reg.val ∈ s.pkg.stw.rotWait → s.pkg.isRipe .rotate reg.val = true →
    s.pkg.cf pgSTW 0x400 1 1 = 0 → s.pkg.spareEnt reg.val / 0x4000 ≠ 1 →
    (∀ i, i < 20 → (s.pkg.unit (reg.val / 2 * 20 + i)).hard = false ∧ (s.pkg.unit (reg.val / 2 * 20 + i)).spareReq = false) →
    Completes (.wearRotation reg) s (fun t => t.pkg.stw.rotWait = s.pkg.stw.rotWait ∧ t.pkg.stw.cmap = s.pkg.stw.cmap ∧
      reg.val ∈ t.pkg.stw.rotNoted ∧ (reg.val ∈ s.pkg.stw.rotNoted → t = s) ∧
      (reg.val ∉ s.pkg.stw.rotNoted → Logged t.pkg 0x0A none))) ∧
  (∀ s (reg : Fin 24) lsig msig, s.mode.mode = .run ∨ s.mode.mode = .degraded → s.pkg.dieUp (reg.val / 2) = true →
    s.pkg.spareEnt reg.val / 0x4000 = 2 → s.pkg.unitSigOk lsig msig = true →
    Completes (.unitBistComplete reg false lsig msig) s (fun t =>
      t.pkg.spareEnt reg.val = 0x4000 + s.pkg.spareEnt reg.val % 512 ∧
      t.pkg.reg (pgREG (reg.val / 2) (reg.val % 2)) 0x3E8 = lsig ∧
      t.pkg.reg (pgREG (reg.val / 2) (reg.val % 2)) 0x3E0 = msig ∧
      ∃ e, t.pkg.stw.events.head? = some e ∧ e.code = 0x0B)) ∧
  (∀ s (reg : Fin 24) lsig msig, s.mode.mode = .run ∨ s.mode.mode = .degraded → s.pkg.dieUp (reg.val / 2) = true →
    s.pkg.spareEnt reg.val / 0x4000 = 2 →
    Completes (.unitBistComplete reg true lsig msig) s (fun t =>
      t.pkg.spareEnt reg.val = 0xC000 + s.pkg.spareEnt reg.val % 512 ∧
      ∃ e, t.pkg.stw.events.head? = some e ∧ e.code = 0x0C))

/-! ### Logs, quotas and failures -/

/-- EVRD and MCRD deliver the record with the asked index, MCLHEAD takes an index below N and discards any other, and a quota overrun that is due
is logged with QUOTASTAT (R73, R410, R529, R535). -/
def stewardLogsAreReadClaim : Prop :=
  (∀ s who index e, s.pkg.commands who pgEVLOG = true →
    s.pkg.stw.events.find? (fun e => e.seq % 1024 == index.val) = some e →
    Completes (.evrd who index) s (fun t => OnlyPages s t ∧ LastCmd t.pkg pgEVLOG 0xC00 1 ∧
      ∀ i, i < 4 → t.pkg.reg pgEVLOG (0xC08 + 8 * i) = e.quads.getD i 0)) ∧
  (∀ s who index r, s.pkg.commands who pgEVLOG = true →
    s.pkg.stw.mcs.find? (fun r => (r.headD 0).toNat % 256 == index.val) = some r →
    Completes (.mcrd who index) s (fun t => OnlyPages s t ∧ LastCmd t.pkg pgEVLOG 0xC40 1 ∧
      ∀ i, i < 8 → t.pkg.reg pgEVLOG (0xC48 + 8 * i) = r.getD i 0)) ∧
  (∀ s who v, s.pkg.commands who pgSTW = true → fld v 11 0 < s.pkg.mcRing →
    Completes (.mclheadWrite who v) s (fun t => OnlyPages s t ∧ t.pkg.rf pgSTW 0xC58 11 0 = fld v 11 0)) ∧
  (∀ s who v, s.pkg.commands who pgSTW = true → s.pkg.mcRing ≤ fld v 11 0 → exec (.mclheadWrite who v) s = .next s) ∧
  (∀ s (pg : PageId), pgOf pg ∈ s.pkg.stw.overruns →
    Completes (.quotaOverrun pg) s (fun t => pgOf pg ∉ t.pkg.stw.overruns ∧ t.pkg.stw.evSeq = s.pkg.stw.evSeq + 1 ∧
      ∃ e, t.pkg.stw.events.head? = some e ∧ e.code = 0x0D ∧ e.detail = s.pkg.reg (pgOf pg) 0x3F8))

/-- What a failure of the steward, of a register, of a unit or of a clock loop does (R34, R293, R401, R404). -/
def failuresAreRaisedClaim : Prop :=
  (∀ s, s.pkg.stw.running = true →
    Completes .lockstepMismatch s (fun t => t.pkg.stw.pcsRaised = true ∧ t.pkg.rf pgSE 0x208 4 4 = 1 ∧
      ∃ e, t.pkg.stw.events.head? = some e ∧ e.code = 0x14)) ∧
  (∀ s (pg : PageId), (blkOf (pgOf pg)).isSome = true → s.pkg.answers (pgOf pg) = true → 49152 ≤ pgOf pg →
    Completes (.registerParityError pg) s (fun t => t.pkg.stw.pcsRaised = true ∧
      (bit (s.pkg.reg (pgOf pg) 0x030) 3 = false → bit (t.pkg.reg (pgOf pg) 0x028) 3 = true))) ∧
  (∀ s (pg : PageId), (blkOf (pgOf pg)).isSome = true → s.pkg.answers (pgOf pg) = true → pgOf pg < 49152 →
    Completes (.registerParityError pg) s (fun t => (∃ c, (pgOf pg / 4096, c) ∈ t.pkg.stw.fences) ∧
      t.pkg.stw.pcsRaised = s.pkg.stw.pcsRaised)) ∧
  (∀ s d i intact, s.pkg.dieUp d.val = true → (s.pkg.lcOfUnit d.val i.val).isSome = true →
    Completes (.unitError d i (.hard intact)) s (fun t =>
      t.pkg.unit (d.val * 20 + i.val) = { s.pkg.unit (d.val * 20 + i.val) with hard := true, intact := intact } ∧
      (intact = true → t.pkg.pages = s.pkg.pages) ∧
      (intact = false → bit (s.pkg.reg (pgL1D d.val i.val) 0x030) 17 = false →
        bit (t.pkg.reg (pgL1D d.val i.val) 0x028) 17 = true))) ∧
  (∀ s d i, s.pkg.dieUp d.val = true → (s.pkg.lcOfUnit d.val i.val).isSome = true →
    bit (s.pkg.reg (pgL1D d.val i.val) 0x030) 16 = false →
    Completes (.unitError d i .corrected) s (fun t => bit (t.pkg.reg (pgL1D d.val i.val) 0x028) 16 = true ∧
      t.pkg.cores = s.pkg.cores ∧ t.pkg.stw.cmap = s.pkg.stw.cmap)) ∧
  (∀ s (k : Fin 36), k.val < 2 → (if k.val = 1 then s.pkg.pw.island else s.pkg.pw.hubMain) = true →
    bit (s.pkg.reg pgHCLK 0x208) k.val = false →
    Completes (.hubPllLossOfLock k) s (fun t => t.pkg.stw.pcsRaised = true ∧
      bit (t.pkg.reg pgHCLK 0x208) k.val = true ∧ bit (t.pkg.reg pgHCLK 0x200) k.val = false))

/-- The logs of the steward, and what failures do (R34, R73, R293, R401, R404, R410, R529, R535). -/
def Obligations.LogsAreReadAndFailuresRaised : Prop := stewardLogsAreReadClaim ∧ failuresAreRaisedClaim

/-! ### Compute dies: fence, readmission, admission -/

/-- The row, mode and requester conditions of a FENCECMD command: it may be sent, and its page is not in LOAD_HOLD. -/
def fenceCmdReady (s : State) (who : Requester) (d : Die) : Prop :=
  s.pkg.commands who (pgMP d.val) = true ∧ fenceBy who = true ∧ s.pkg.loadHold (pgMP d.val) = false

/-- The package is in a mode of R296. -/
def readmitMode (s : State) : Prop := s.mode.mode = .run ∨ s.mode.mode = .degraded ∨ s.mode.mode = .quiesce

/-- FENCECMD of a die: FENCE isolates it with cause COMMAND, READMIT takes its rail off and queues it to be switched on again,
ADMIT records that its core map is to be rebuilt; each in a wrong state ends WRONG_STATE, from another requester DENIED.
READMIT ends OK with the link ACTIVE and the tests done, or FAILED after the last attempt. Once a tick has seen it, ADMIT
rebuilds the map and the rail of a purged die goes off; the steward may issue READMIT itself (R294, R296, R300, R401, R419). -/
def Obligations.DieFenceReadmitAdmit : Prop :=
  (∀ s who d, fenceCmdReady s who d → s.pkg.mpState d.val ≠ 5 → s.pkg.mpState d.val ≠ 0 → s.pkg.dieFenced d.val = false →
    (s.pkg.busy (pgMP d.val) = false ∨ 2 + d.val ∈ s.pkg.boot.readmits) →
    Completes (.fence who d) s (fun t => t.pkg.dieState d.val = 4 ∧ t.pkg.mpState d.val = 5 ∧
      t.pkg.rf (pgMP d.val) 0x200 39 32 = 7 ∧ LastCmd t.pkg (pgMP d.val) 0xC00 1 ∧ t.mode = s.mode ∧
      (∀ k, k < 18 → (t.pkg.core (d.val * 18 + k)).run ≠ .executing) ∧
      (∃ r ∈ t.pkg.tickLog, r.1 = 0x01 ∧ r.2.1 = originOf who) ∧
      (∀ e, e ≠ d.val → t.pkg.dieState e = s.pkg.dieState e))) ∧
  (∀ s who d, fenceCmdReady s who d → s.pkg.mpState d.val = 5 ∨ s.pkg.mpState d.val = 0 ∨
    (s.pkg.busy (pgMP d.val) = true ∧ 2 + d.val ∉ s.pkg.boot.readmits) →
    Completes (.fence who d) s (fun t => LastCmd t.pkg (pgMP d.val) 0xC00 3 ∧ OnlyPagesStw s t)) ∧
  (∀ s who d, fenceCmdReady s who d → s.pkg.busy (pgMP d.val) = false → s.pkg.mpState d.val = 5 →
    readmitMode s → (∀ n, n < 16 → s.pkg.fenceVec n / 2 ^ d.val % 2 = 0) →
    Completes (.readmit who d) s (fun t => t.pkg.dieState d.val = 0 ∧ t.pkg.mpState d.val = 0 ∧
      tblGet (fun _ => 0) t.pkg.pw.rails d.val = 0 ∧ t.pkg.pw.railQ.getLast? = some d.val ∧
      2 + d.val ∈ t.pkg.boot.readmits ∧ LastCmd t.pkg (pgMP d.val) 0xC00 2 ∧ t.pkg.busy (pgMP d.val) = true)) ∧
  (∀ s who d, fenceCmdReady s who d → s.pkg.busy (pgMP d.val) = true ∨ s.pkg.mpState d.val ≠ 5 ∨ ¬ readmitMode s ∨
    (∃ n, n < 16 ∧ s.pkg.fenceVec n / 2 ^ d.val % 2 = 1) →
    Completes (.readmit who d) s (fun t => LastCmd t.pkg (pgMP d.val) 0xC00 3 ∧ OnlyPagesStw s t)) ∧
  (∀ s who d, fenceCmdReady s who d → s.pkg.busy (pgMP d.val) = false → (s.pkg.link d.val).ready = true →
    s.pkg.dieState d.val = 1 → s.pkg.dieAdopted d.val = true →
    Completes (.admitDie who d) s (fun t => t.pkg.link d.val = { s.pkg.link d.val with admitted := true } ∧
      LastCmd t.pkg (pgMP d.val) 0xC00 1 ∧ t.pkg.stw = { s.pkg.stw with ripe := t.pkg.stw.ripe } ∧
      t.pkg.cores = s.pkg.cores)) ∧
  (∀ s who d, fenceCmdReady s who d → s.pkg.busy (pgMP d.val) = true ∨ (s.pkg.link d.val).ready = false ∨
    s.pkg.dieState d.val ≠ 1 ∨ s.pkg.dieAdopted d.val = false →
    Completes (.admitDie who d) s (fun t => LastCmd t.pkg (pgMP d.val) 0xC00 3 ∧ OnlyPagesStw s t)) ∧
  (∀ s who d c, s.pkg.commands who (pgMP d.val) = true → fenceBy who = false →
    c ∈ [Instr.fence who d, .readmit who d, .admitDie who d] →
    Completes c s (fun t => LastCmd t.pkg (pgMP d.val) 0xC00 5 ∧ OnlyPages s t)) ∧
  (∀ s d, 2 + d.val ∈ s.pkg.boot.readmits → s.pkg.mpState d.val = 2 →
    s.pkg.rf (pgBIST d.val) 0x200 3 0 = 3 →
    Completes (.readmitComplete d true) s (fun t => t.pkg.dieState d.val = 1 ∧ (t.pkg.link d.val).ready = true ∧
      2 + d.val ∉ t.pkg.boot.readmits ∧ LastCmd t.pkg (pgMP d.val) 0xC00 1 ∧
      t.pkg.busy (pgMP d.val) = false ∧ ∃ e, t.pkg.stw.events.head? = some e ∧ e.code = 0x02 ∧ e.detail = 1)) ∧
  (∀ s d, 2 + d.val ∈ s.pkg.boot.readmits → s.pkg.rf (pgBIST d.val) 0x200 3 0 = 4 ∨
    (s.pkg.retryMax (2 + d.val) ≤ s.pkg.attempts (2 + d.val) ∧ 2 + d.val ∉ s.pkg.boot.training ∧ s.pkg.mpState d.val = 0) →
    Completes (.readmitComplete d false) s (fun t => t.pkg.dieState d.val = 0 ∧
      tblGet (fun _ => 0) t.pkg.pw.rails d.val = 0 ∧ 2 + d.val ∉ t.pkg.boot.readmits ∧
      LastCmd t.pkg (pgMP d.val) 0xC00 6)) ∧
  (∀ s d, (s.pkg.link d.val).admitted = true → s.pkg.isRipe .admission d.val = true →
    Completes (.admitRebuild d) s (fun t => t.pkg.dieState d.val = 2 ∧ (t.pkg.link d.val).admitted = false ∧
      (t.pkg.link d.val).ready = false ∧
      ∀ k, k < 18 → t.pkg.lcpid (d.val * 18 + k) = 0x80 ∧ t.pkg.core (d.val * 18 + k) = Core.reset ∧
        (t.pkg.cmapSt (d.val * 18 + k) = 1 ∨ t.pkg.cmapSt (d.val * 18 + k) = 2))) ∧
  (∀ s d, s.pkg.dieFenced d.val = true → (s.pkg.link d.val).railOff = true →
    s.pkg.isRipe .rail d.val = true → (∀ n, n < 16 → s.pkg.fenceVec n / 2 ^ d.val % 2 = 0) →
    Completes (.dieRailOff d) s (fun t => tblGet (fun _ => 0) t.pkg.pw.rails d.val = 0 ∧
      (t.pkg.link d.val).railOff = false ∧ t.pkg.dieState d.val = 4)) ∧
  (∀ s d, tblGet (fun _ => 0) s.pkg.stw.autoReadmit d.val = 1 → s.pkg.cf pgSTW 0x400 4 4 = 0 →
    s.pkg.dieFenced d.val = true → s.pkg.loadHold (pgMP d.val) = false → s.pkg.busy (pgMP d.val) = false →
    s.pkg.mpState d.val = 5 → readmitMode s →
    (∀ n, n < 16 → s.pkg.fenceVec n / 2 ^ d.val % 2 = 0) →
    Completes (.autoReadmit d) s (fun t => t.pkg.dieState d.val = 0 ∧ 2 + d.val ∈ t.pkg.boot.readmits ∧
      tblGet (fun _ => 0) t.pkg.stw.autoReadmit d.val = 0))

/-! ### Links -/

/-- The flit passes its checks: the link runs, its CRC is right and its TYPE is known (R279, R280). -/
def flitIntact (s : State) (e : FlitEnd) (f : BitVec 256) : Prop :=
  s.pkg.endRuns e = true ∧ flitFld f 255 240 = crc16 240 (flitFld f 239 0) ∧ flitFld f 218 216 < 6

/-- The flit is accepted next at an end: it is intact and its SEQ follows (R279 to R282). -/
def flitInOrder (s : State) (e : FlitEnd) (f : BitVec 256) : Prop :=
  flitIntact s e f ∧ flitFld f 239 230 = ((s.pkg.flitEnd e).seq + 1) % 1024

/-- The rows of the flits that arrive at an end. -/
def flitRows (e : FlitEnd) (f : BitVec 256) : List Instr :=
  [.mocorDataFlit e f, .idle e f, .mark e f, .heart e f, .pause e f, .resume e f]

/-- Flits of Mocor and chain links: an intact flit in order is accepted, its SEQ is the last one received, and its TYPE acts:
a heartbeat is noted, PAUSE and RESUME begin and end a repair at the end they reach, and of DATA the message bytes not yet
whole are kept; a damaged flit is discarded and counted, a flit out of order is discarded, and on a link that does not run
nothing happens (R280 to R282, R285, R287, R460, R461). -/
def Obligations.FlitsAreAcceptedInOrder : Prop :=
  (∀ s e f c, flitInOrder s e f → c ∈ flitRows e f →
    Completes c s (fun t => (t.pkg.flitEnd e).seq = flitFld f 239 230 ∧
      (t.pkg.flitEnd e).discard = false ∧ t.mode = s.mode ∧ t.pkg.hbm = s.pkg.hbm ∧ t.pkg.cores = s.pkg.cores)) ∧
  (∀ s d f, flitInOrder s (.mocor d true) f → flitFld f 218 216 = 3 →
    Completes (.heart (.mocor d true) f) s (fun t => (t.pkg.link d.val).beat = true ∧
      t.pkg.reg (pgMP d.val) 0x238 = BitVec.ofNat 64 (flitFld f 47 0))) ∧
  (∀ s d h f, flitInOrder s (.mocor d h) f → flitFld f 218 216 = 4 →
    Completes (.pause (.mocor d h) f) s (fun t => (t.pkg.flitEnd (.mocor d h)).peerMask = flitFld f 67 0 ∧
      t.pkg.rf (linkPage d.val h) 0x200 3 0 = 4 ∧ (t.pkg.link d.val).disturbed = true)) ∧
  (∀ s down f, flitInOrder s (.chain down) f → flitFld f 218 216 = 4 →
    Completes (.pause (.chain down) f) s (fun t => (t.pkg.flitEnd (.chain down)).peerMask = flitFld f 67 0 ∧
      t.pkg.chState down = 3 ∧ (t.pkg.chPort down).paused.isSome = true)) ∧
  (∀ s d f, flitInOrder s (.mocor d false) f → flitFld f 218 216 = 5 → s.pkg.rf (pgMOCOR d.val) 0x200 3 0 = 4 →
    Completes (.resume (.mocor d false) f) s (fun t => t.pkg.rf (pgMOCOR d.val) 0x200 3 0 = 2)) ∧
  (∀ s down f, flitInOrder s (.chain down) f → flitFld f 218 216 = 5 → s.pkg.chState down = 3 →
    Completes (.resume (.chain down) f) s (fun t => t.pkg.chState down = 2 ∧ (t.pkg.chPort down).paused = none)) ∧
  (∀ s d h f, flitInOrder s (.mocor d h) f → flitFld f 218 216 = 0 →
    Completes (.mocorDataFlit (.mocor d h) f) s (fun t => (t.pkg.flitEnd (.mocor d h)).rx =
      (takeMessages 8 ((s.pkg.flitEnd (.mocor d h)).rx ++ leBytes 26 (flitFld f 207 0))).2)) ∧
  (∀ s e f c, s.pkg.endRuns e = true → ¬ flitIntact s e f → c ∈ flitRows e f →
    Completes c s (fun t => (t.pkg.flitEnd e).seq = (s.pkg.flitEnd e).seq ∧ (t.pkg.flitEnd e).discard = true ∧
      (t.pkg.flitEnd e).crcFr = (s.pkg.flitEnd e).crcFr + 1)) ∧
  (∀ s e f c, flitIntact s e f → flitFld f 239 230 ≠ ((s.pkg.flitEnd e).seq + 1) % 1024 → c ∈ flitRows e f →
    Completes c s (fun t => (t.pkg.flitEnd e).seq = (s.pkg.flitEnd e).seq ∧ (t.pkg.flitEnd e).discard = true ∧
      (t.pkg.flitEnd e).crcFr = (s.pkg.flitEnd e).crcFr)) ∧
  (∀ s e f c, s.pkg.endRuns e = false → c ∈ flitRows e f → exec c s = .next s)

/-- Stall, repair and failure of a link, and the watchdog: the eighth NAK in a row stalls the link; a lane whose margin is too
low becomes failing; a repair resumes the link on its good lanes or ends it, and a pause that lasts too long ends it; a link
that fails fences its die with the cause of R294; a die or unit that makes no progress is noted (R282 to R285, R287, R289,
R291, R294, R461). -/
def Obligations.LinkFaultsStallRepairOrFence : Prop :=
  (∀ s d h, 8 ≤ (s.pkg.flitEnd (.mocor d h)).naks → s.pkg.mpState d.val = 2 →
    Completes (.linkStall (.mocor d h)) s (fun t => t.pkg.mpState d.val = 3 ∧ t.pkg.rf (pgMOCOR d.val) 0x200 3 0 = 3 ∧
      (t.pkg.link d.val).stalled = true)) ∧
  (∀ s down, 8 ≤ (s.pkg.flitEnd (.chain down)).naks → s.pkg.chState down = 2 →
    Completes (.linkStall (.chain down)) s (fun t => (t.pkg.chPort down).stalled = true)) ∧
  (∀ s e, (s.pkg.flitEnd e).naks < 8 → exec (.linkStall e) s = .next s) ∧
  (∀ s e lane m delay, s.pkg.marginOn s.mode e = true →
    Completes (.marginCheck e lane m delay) s (fun t =>
      (t.pkg.page (marginPage e)).work = (s.pkg.page (marginPage e)).work + 1 ∧
      (m < s.pkg.marginMin e → s.pkg.laneGone e lane.val = false → lane.val ∈ (t.pkg.flitEnd e).failing) ∧
      (s.pkg.marginMin e ≤ m → t.pkg.flitEnd e = s.pkg.flitEnd e) ∧
      (∀ down, e = .chain down → t.pkg.reg (pgCH down) 0x208 = delay.setWidth 64))) ∧
  (∀ s e lane m delay, s.pkg.marginOn s.mode e = false → exec (.marginCheck e lane m delay) s = .next s) ∧
  (∀ s d n, (s.pkg.link d.val).paused = some (n + 1) → (s.pkg.link d.val).stalled = false →
    (s.pkg.link d.val).hub.failing = [] → (s.pkg.link d.val).die.failing = [] →
    s.pkg.wantsIsolation d.val true = false → s.pkg.wantsIsolation d.val false = false →
    s.pkg.rf (pgMP d.val) 0x200 15 14 ≠ 3 → s.pkg.rf (pgMOCOR d.val) 0x200 15 14 ≠ 3 →
    Completes (.laneRepair (.mocor d) [] []) s (fun t => t.pkg.mpState d.val = 2 ∧ t.pkg.rf (pgMOCOR d.val) 0x200 3 0 = 2 ∧
      (t.pkg.link d.val).paused = none ∧ ∃ e, t.pkg.stw.events.head? = some e ∧ e.code = 0x0E)) ∧
  (∀ s d n near far, (s.pkg.link d.val).paused = some (n + 1) →
    Completes (.laneRepair (.mocor d) near far) s (fun t => t.pkg.dieState d.val = 4 ∨ (t.pkg.mpState d.val = 2 ∧
      t.pkg.rf (pgMOCOR d.val) 0x200 3 0 = 2 ∧ (t.pkg.link d.val).paused = none ∧ (t.pkg.link d.val).stalled = false))) ∧
  (∀ s down n near far, (s.pkg.chPort down).paused = some (n + 1) → s.pkg.chUp down = true →
    Completes (.laneRepair (.chain down) near far) s (fun t => (t.pkg.chPort down).paused = none ∧
      (t.pkg.chPort down).stalled = false ∧ (t.pkg.chState down = 2 ∨ t.pkg.chUp down = false))) ∧
  (∀ s d n, (s.pkg.link d.val).paused = some n → 2 ≤ n →
    Completes (.pauseTimeout (.mocor d)) s (fun t => t.pkg.dieState d.val = 4 ∧
      (s.pkg.dieFenced d.val = false → t.pkg.rf (pgMP d.val) 0x200 39 32 = 8))) ∧
  (∀ s down n, (s.pkg.chPort down).paused = some n → 2 ≤ n →
    Completes (.pauseTimeout (.chain down)) s (fun t => t.pkg.chUp down = false)) ∧
  (∀ s d c, s.pkg.linkRuns d.val = true → s.pkg.dieFenced d.val = false →
    Completes (.linkDown d c) s (fun t => t.pkg.dieState d.val = 4 ∧
      t.pkg.rf (pgMP d.val) 0x200 39 32 = (match c with | .lanes => 3 | _ => 2))) ∧
  (∀ s d k, s.pkg.dieUp d.val = true →
    Completes (.pllLossOfLock d k) s (fun t => t.pkg.dieState d.val = 4 ∧ t.pkg.rf (pgMP d.val) 0x200 39 32 = 2 ∧
      t.pkg.rf (pgCLK d.val) 0x200 (24 + k.val) (24 + k.val) = 1 ∧ t.pkg.rf (pgCLK d.val) 0x200 k.val k.val = 0)) ∧
  (∀ s d, s.pkg.wdogOn d.val = true → s.pkg.rf (pgWDOG d.val) 0x200 32 32 = 0 →
    (if s.pkg.cf (pgWDOG d.val) 0x400 7 0 = 0 then 4 else s.pkg.cf (pgWDOG d.val) 0x400 7 0) ≤
      s.pkg.rf (pgWDOG d.val) 0x200 47 40 →
    Completes (.dieWatchExpiry d) s (fun t => t.pkg.rf (pgWDOG d.val) 0x200 32 32 = 1)) ∧
  (∀ s d i intact, s.pkg.wdogOn d.val = true →
    s.pkg.rf (pgCLU d.val (i.val / 5)) 0x200 (i.val % 5 * 4 + 3) (i.val % 5 * 4) = 1 →
    (if s.pkg.cf (pgWDOG d.val) 0x400 31 16 = 0 then 1250 else s.pkg.cf (pgWDOG d.val) 0x400 31 16) ≤
      (s.pkg.unit (d.val * 20 + i.val)).watch →
    Completes (.unitHung d i intact) s (fun t => t.pkg.rf (pgWDOG d.val) 0x200 i.val i.val = 1 ∧
      t.pkg.unit (d.val * 20 + i.val) =
        { s.pkg.unit (d.val * 20 + i.val) with hung := true, hard := true, intact := intact }))

/-! ### Training and bring-up -/

/-- Training, retries, exclusion, the core map and the rails of bring-up: an attempt that succeeds brings its part up, one that
fails is made again after the back-off of R63; once every Mocor link has finished the core map is built; EXCLCMD fences a die
or a guest; a rail that reports PGOOD with a good CRC is confirmed, and one that does not confirm fences its die or disables
its stacks (R1, R10, R63, R416, R480, R487 to R492, R553, R558, R559). -/
def Obligations.BringUpTrainsAndExcludes : Prop :=
  (∀ s k (n : Nat), 24 + k.val ∈ s.pkg.boot.training →
    Completes (.trainingAttemptEnd (.ledger k) true n) s (fun t => t.pkg.rf (pgLSC k.val) 0x200 3 0 = 2 ∧
      24 + k.val ∉ t.pkg.boot.training)) ∧
  (∀ s k (n : Nat), 14 + k.val ∈ s.pkg.boot.training →
    Completes (.trainingAttemptEnd (.hbm k) true n) s (fun t => t.pkg.rf (pgHPHY k.val) 0x200 3 0 = 2 ∧
      t.pkg.rf (pgHPHY k.val) 0x200 15 8 = 0xFF ∧ 14 + k.val ∉ t.pkg.boot.training)) ∧
  (∀ s g (n : Nat), 22 + g.val ∈ s.pkg.boot.training → (s.pkg.guest g.val).retrain = false →
    Completes (.trainingAttemptEnd (.guest g) true n) s (fun t => t.pkg.rf (pgGP g.val) 0x200 3 0 = 6)) ∧
  (∀ s d, 2 + d.val ∈ s.pkg.boot.training → s.mode.mode = .load →
    Completes (.trainingAttemptEnd (.mocor d) true 0) s (fun t => t.pkg.mpState d.val = 2 ∧ t.pkg.dieState d.val = 1 ∧
      t.pkg.rf (pgMP d.val) 0x200 22 16 = 68 ∧ t.pkg.rf (pgMP d.val) 0x200 15 14 = 0)) ∧
  (∀ s down (n : Nat), partNum (.chain down) ∈ s.pkg.boot.training → n < 65536 →
    Completes (.trainingAttemptEnd (.chain down) true n) s (fun t => t.pkg.chState down = 2 ∧
      t.pkg.rf (pgCH down) 0x200 13 12 = 0 ∧ t.pkg.rf (pgCH down) 0x208 15 0 = n)) ∧
  (∀ s n link w v, s.pkg.answers (pgPE n.val) = true → s.pkg.blkState (pgPE n.val) = 1 →
    s.pkg.linkUp n.val link.val = false → w ∈ [1, 2, 4, 8, 16] → 1 ≤ v → v ≤ 5 →
    Completes (.trainingAttemptEnd (.pcie n link) true (w * 16 + v)) s (fun t =>
      t.pkg.rf (pgPE n.val) 0x200 (16 * link.val + 15) (16 * link.val) = 0x8000 + w * 256 + v)) ∧
  (∀ s part (n : Nat), partNum part ∈ s.pkg.boot.training → partNum part < 26 →
    Completes (.trainingAttemptEnd part false n) s (fun t => partNum part ∉ t.pkg.boot.training ∧
      t.pkg.waitOf (partNum part) = min (2 ^ (s.pkg.attempts (partNum part) - 1)) 1024 + 1)) ∧
  (∀ s part, s.mode.mode = .load → s.pkg.waitOf (partNum part) = 1 → (∀ g, part = .guest g → s.pkg.site g.val = true) →
    Completes (.loadRetryAttempt part) s (fun t => partNum part ∈ t.pkg.boot.training ∧ t.pkg.waitOf (partNum part) = 0)) ∧
  (∀ s part, s.pkg.waitOf (partNum part) = 1 → (∀ g, part = .guest g → s.pkg.site g.val = true) →
    (partNum part < 2 ∧ s.mode.mode ≠ .load) ∨ (2 ≤ partNum part ∧ partNum part ∈ s.pkg.boot.readmits ∧
      s.pkg.attempts (partNum part) < s.pkg.retryMax (partNum part)) →
    Completes (.readmitRetryAttempt part) s (fun t => partNum part ∈ t.pkg.boot.training ∧
      t.pkg.waitOf (partNum part) = 0)) ∧
  (∀ s, s.mode.mode = .load → s.pkg.stw.mapBuilt = false → s.pkg.isRipe .map 0 = true → s.pkg.mbBusy = false →
    (∀ d, d < 12 → 2 + d ∈ s.pkg.boot.finished ∨ s.pkg.dieExcluded d = true) →
    Completes .coreMapBuild s (fun t => t.pkg.stw.mapBuilt = true ∧
      ∀ d k, d < 12 → k < 18 → (s.pkg.dieFenced d = true → t.pkg.cmapSt (d * 18 + k) = 3) ∧
        (s.pkg.dieFenced d = false → t.pkg.cmapSt (d * 18 + k) = 1 ∨ t.pkg.cmapSt (d * 18 + k) = 2))) ∧
  (∀ s (part : Fin 32), s.pkg.commands .host pgSTW = true → s.mode.mode = .load → s.pkg.busy pgSTW = false →
    part.val < 12 → s.pkg.dieFenced part.val = false →
    Completes (.exclcmd .host part) s (fun t => t.pkg.dieState part.val = 4 ∧
      tblGet (fun _ => 0) t.pkg.pw.rails part.val = 0 ∧ LastCmd t.pkg pgSTW 0xC30 1 ∧
      t.pkg.rf pgSTW 0x230 part.val part.val = 1)) ∧
  (∀ s (part : Fin 32) (g : Fin 2), s.pkg.commands .host pgSTW = true → s.mode.mode = .load → s.pkg.busy pgSTW = false →
    part.val = 16 + g.val → s.pkg.gpState g.val ≠ 5 → s.pkg.gpState g.val ≠ 7 →
    Completes (.exclcmd .host part) s (fun t => t.pkg.gpState g.val = 5 ∧ LastCmd t.pkg pgSTW 0xC30 1 ∧
      t.pkg.rf pgSTW 0x230 part.val part.val = 1)) ∧
  (∀ s (part : Fin 32), s.pkg.commands .host pgSTW = true → 12 ≤ part.val → part.val ≠ 0x10 → part.val ≠ 0x11 →
    Completes (.exclcmd .host part) s (fun t => LastCmd t.pkg pgSTW 0xC30 4 ∧ OnlyPages s t)) ∧
  (∀ s (r : Fin 15) (status : Byte), s.pkg.pw.island = true → s.pkg.pw.railQ.head? = some r.val → s.pkg.rail r.val = 0 →
    status.getLsbD 7 = true → status.getLsbD 6 = false → status.getLsbD 5 = false → status.getLsbD 4 = false →
    status.getLsbD 3 = true →
    Completes (.lastRailPgood r status (crc8 [status])) s (fun t => t.pkg.rail r.val = 2 ∧ r.val ∉ t.pkg.pw.railQ ∧
      t.pkg.pw.sent = some { vaddr := r.val, cmd := 2, data := 0, crc := crc8 [BitVec.ofNat 8 (r.val * 16 + 2), 0, 0] })) ∧
  (∀ s (r : Fin 15) (status crc : Byte), s.pkg.pw.island = true → s.pkg.rail r.val ≠ 0 ∨ s.pkg.pw.railQ.head? = some r.val →
    crc ≠ crc8 [status] →
    Completes (.lastRailPgood r status crc) s (fun t => ∃ q, t = { s with pkg := { s.pkg with pw :=
      { s.pkg.pw with sent := some q } } } ∧ q.vaddr = r.val)) ∧
  (∀ s (r : Fin 15), r.val < 12 → s.pkg.rail r.val ≠ 0 ∨ s.pkg.pw.railQ.head? = some r.val →
    Completes (.railConfirmTimeout r) s (fun t => (∃ c, (r.val, c) ∈ t.pkg.stw.fences) ∧ r.val ∉ t.pkg.pw.railQ)) ∧
  (∀ s (r : Fin 15), 12 ≤ r.val → s.pkg.rail r.val ≠ 0 ∨ s.pkg.pw.railQ.head? = some r.val →
    Completes (.railConfirmTimeout r) s (fun t => t.pkg.rail r.val = 0 ∧
      (r.val ≠ 14 → ∀ n, n < 16 → t.pkg.mcDisabled n = true)))
/-! ### Guest ports -/

/-- A legal message of an ACTIVE guest: its header names the TYPE and its reserved fields are 0; a request is one the port
takes now (R301 to R303). -/
def ogpLegal (s : State) (g : Fin 2) (h : BitVec 128) (ty : Nat) (request : Bool) : Prop :=
  s.pkg.gpState g.val = 2 ∧ s.pkg.answers (pgGP g.val) = true ∧ ogp h 127 124 = ty ∧ ogp h 93 88 = 0 ∧ ogp h 79 64 = 0 ∧
    (request = true → s.pkg.inbound s.mode (pgGP g.val) = true ∧ ogp h 111 100 + 1 ≤ s.pkg.mrs g.val ∧
      ogp h 63 0 % 4096 + (ogp h 111 100 + 1) ≤ 4096)

/-- The address of a message's range (R302). -/
def ogpAddr (h : BitVec 128) : Nat := ogp h 63 0

/-- LEN: bytes of a message's data (R302). -/
def ogpLen (h : BitVec 128) : Nat := ogp h 111 100 + 1

/-- The rows of OGP with the TYPE of each, and whether it is a request (R303). -/
def ogpRows (g : Fin 2) (h : BitVec 128) (b : List Byte) : List (Instr × Nat × Bool) :=
  [(.mrd g h, 1, true), (.mwr g h b, 2, true), (.matom g h b, 3, true), (.cpl g h b, 4, false), (.int g h, 5, false),
   (.ogpErr g h, 6, false)]

/-- What a guest asks of HBM: an access of `n` bytes by its port under PID `pid` (R305, R307). -/
def guestAsks (g : Fin 2) (h : BitVec 128) (pid n : Nat) (op : InOp) (tag : Nat) : Inbound :=
  { agent := 0x1A + g.val, pid := pid, parts := [(ogpAddr h, n)], op := op, src := .guest g.val tag, age := 0 }

/-- The operand bytes of an atomic operation: two operands with OP 1 (R303). -/
def atomLen (h : BitVec 128) : Nat := if ogp h 96 94 = 1 then ogpLen h / 2 else ogpLen h

/-- The request `x` is what the row asks of HBM, through a window of the firewall that grants it (R303, R307). -/
def guestGranted (s : State) : Instr → Inbound → Prop
  | .mrd g h, x => ogpLegal s g h 1 true ∧ inGw g.val (ogpAddr h) (ogpLen h) = false ∧
    ∃ pid, s.pkg.firewall g.val (ogpAddr h) (ogpLen h) true false = some pid ∧
      x = guestAsks g h pid (ogpLen h) .read (ogp h 123 112)
  | .mwr g h b, x => ogpLegal s g h 2 true ∧ inGw g.val (ogpAddr h) (ogpLen h) = false ∧
    ∃ pid, s.pkg.firewall g.val (ogpAddr h) (ogpLen h) false true = some pid ∧
      x = guestAsks g h pid (ogpLen h) (.write (b.take (ogpLen h)) (2 ^ ogpLen h - 1) false) 0
  | .matom g h b, x => ogpLegal s g h 3 true ∧ inGw g.val (ogpAddr h) (ogpLen h) = false ∧ ogp h 96 94 ≠ 0 ∧
    atomLen h ∈ [1, 2, 4, 8] ∧ ogpAddr h % atomLen h = 0 ∧
    ∃ pid, s.pkg.firewall g.val (ogpAddr h) (atomLen h) true true = some pid ∧
      x = guestAsks g h pid (atomLen h) (.atom (ogp h 96 94) (b.take (ogpLen h))) (ogp h 123 112)
  | _, _ => False

/-- Guest messages: a read returns the bytes that the firewall lets it see, a write and an atomic operation act under the
PID of their window, in the order of the port (log entry 144), and the event of R513 is counted; a denied request is recorded
and has no effect; a range in the page of GWn is an access of that page; an operand that the table of R303 does not allow
gets STATUS 3; a message of the wrong TYPE, with a reserved field not 0 or with a range too long is a protocol error, and
a port that is not ACTIVE serves nothing; an interrupt reaches its core or is dropped and counted; a report of severity 2
fences, one below has no effect; a completion answers its access, and an unknown TAG is a protocol error (R301 to R303,
R305 to R309). -/
def guestMessagesPassTheFirewallClaim : Prop :=
  (∀ s g h pid b po q, ogpLegal s g h 1 true → inGw g.val (ogpAddr h) (ogpLen h) = false →
    s.pkg.firewall g.val (ogpAddr h) (ogpLen h) true false = some pid → s.pkg.inWaits (0x1A + g.val) = false →
    s.pkg.readParts (0x1A + g.val) pid [(ogpAddr h, ogpLen h)] = (.done b po, q) →
    Completes (.mrd g h) s (fun t => t.mode = s.mode ∧ t.pkg =
      (q.evCount none 12 g.val (some pid) 4 (lineParts (ogpAddr h) (ogpLen h)).length).reply (ogp h 123 112)
        (if po then 2 else 0) b po)) ∧
  (∀ s g h b pid a q, ogpLegal s g h 2 true → inGw g.val (ogpAddr h) (ogpLen h) = false →
    s.pkg.firewall g.val (ogpAddr h) (ogpLen h) false true = some pid → s.pkg.inWaits (0x1A + g.val) = false →
    s.pkg.writeParts (0x1A + g.val) pid [(ogpAddr h, ogpLen h)] (b.take (ogpLen h)) (2 ^ ogpLen h - 1) false = (a, q) →
    a ≠ .waiting →
    Completes (.mwr g h b) s (fun t => t.mode = s.mode ∧ t.pkg =
      q.evCount none 12 g.val (some pid) 4 (lineParts (ogpAddr h) (ogpLen h)).length)) ∧
  (∀ s g h b pid d po q, ogpLegal s g h 3 true → inGw g.val (ogpAddr h) (ogpLen h) = false → atomLen h ∈ [1, 2, 4, 8] →
    ogpAddr h % atomLen h = 0 → ogp h 96 94 ≠ 0 → s.pkg.firewall g.val (ogpAddr h) (atomLen h) true true = some pid →
    s.pkg.inWaits (0x1A + g.val) = false →
    s.pkg.ioAtom (0x1A + g.val) pid (ogpAddr h) (atomLen h) (ogp h 96 94) (b.take (ogpLen h)) = (.done d po, q) →
    Completes (.matom g h b) s (fun t => t.mode = s.mode ∧ t.pkg =
      (q.evCount none 12 g.val (some pid) 4 (lineParts (ogpAddr h) (atomLen h)).length).reply (ogp h 123 112)
        (if po then 2 else 0) d po)) ∧
  (∀ s c x, guestGranted s c x → s.pkg.inWaits x.agent = true ∨ (s.pkg.inTry x).1 = .waiting →
    Completes c s (fun t => t = { s with pkg := { s.pkg with inq := s.pkg.inq ++ [x] } })) ∧
  (∀ s c x st q, guestGranted s c x → s.pkg.inWaits x.agent = false → s.pkg.inTry x = (.err st, q) →
    (∀ g h b, c ≠ .mwr g h b) →
    Completes c s (fun t => t.mode = s.mode ∧ t.pkg.hbm = q.hbm ∧ ∃ tag, x.src = .guest (x.agent - 0x1A) tag ∧
      t.pkg.out = some { tag := tag, status := 3, bytes := [], poison := false })) ∧
  (∀ s g h, ogpLegal s g h 1 true → inGw g.val (ogpAddr h) (ogpLen h) = false →
    s.pkg.firewall g.val (ogpAddr h) (ogpLen h) true false = none →
    Completes (.mrd g h) s (fun t => t.pkg.hbm = s.pkg.hbm ∧ t.pkg.coh = s.pkg.coh ∧
      t.pkg.reg (pgGFW g.val) 0x200 = BitVec.ofNat 64 (ogpAddr h) ∧
      t.pkg.out = some { tag := ogp h 123 112, status := 1, bytes := [], poison := false })) ∧
  (∀ s g h b, ogpLegal s g h 2 true → inGw g.val (ogpAddr h) (ogpLen h) = false →
    s.pkg.firewall g.val (ogpAddr h) (ogpLen h) false true = none →
    Completes (.mwr g h b) s (fun t => t.pkg.hbm = s.pkg.hbm ∧ t.pkg.coh = s.pkg.coh ∧ t.pkg.out = s.pkg.out ∧
      t.pkg.reg (pgGFW g.val) 0x200 = BitVec.ofNat 64 (ogpAddr h))) ∧
  (∀ s g h b, ogpLegal s g h 3 true → inGw g.val (ogpAddr h) (ogpLen h) = false → atomLen h ∈ [1, 2, 4, 8] →
    ogpAddr h % atomLen h = 0 → ogp h 96 94 ≠ 0 → s.pkg.firewall g.val (ogpAddr h) (atomLen h) true true = none →
    Completes (.matom g h b) s (fun t => t.pkg.hbm = s.pkg.hbm ∧ t.pkg.coh = s.pkg.coh ∧
      t.pkg.reg (pgGFW g.val) 0x200 = BitVec.ofNat 64 (ogpAddr h) ∧
      t.pkg.out = some { tag := ogp h 123 112, status := 1, bytes := [], poison := false })) ∧
  (∀ s g h b, ogpLegal s g h 3 true →
    inGw g.val (ogpAddr h) (ogpLen h) = true ∨ ¬ atomLen h ∈ [1, 2, 4, 8] ∨ ogpAddr h % atomLen h ≠ 0 ∨ ogp h 96 94 = 0 →
    Completes (.matom g h b) s (fun t => t = { s with pkg := { s.pkg with out := t.pkg.out } } ∧
      t.pkg.out = some { tag := ogp h 123 112, status := 3, bytes := [], poison := false })) ∧
  (∀ s g h r q, ogpLegal s g h 1 true → inGw g.val (ogpAddr h) (ogpLen h) = true →
    s.pkg.pagesRead s.mode (.guest g) (ogpAddr h) (ogpLen h) = (r, q) →
    Completes (.mrd g h) s (fun t => t.mode = s.mode ∧ t.pkg = match r with
      | some b => q.reply (ogp h 123 112) 0 b false
      | none => q.reply (ogp h 123 112) 3 [] false)) ∧
  (∀ s g h b, ogpLegal s g h 2 true → inGw g.val (ogpAddr h) (ogpLen h) = true →
    Completes (.mwr g h b) s (fun t => t.mode = s.mode ∧
      t.pkg = (s.pkg.pagesWrite s.mode (.guest g) (ogpAddr h) (b.take (ogpLen h))).2)) ∧
  (∀ s g h b off, ogpLegal s g h 2 true → inGw g.val (ogpAddr h) (ogpLen h) = true → ogp h 111 100 = 7 → b.length = 8 →
    off = ogpAddr h % 4096 → off % 8 = 0 → 0xC40 ≤ off → off < 0xC80 →
    Completes (.mwr g h b) s (fun t => OnlyPages s t ∧ t.pkg.reg (pgGW g.val) off = BitVec.ofNat 64 (leNat b))) ∧
  (∀ s g h b e, e ∈ ogpRows g h b → s.pkg.gpState g.val = 2 → s.pkg.answers (pgGP g.val) = true →
    (e.2.2 = true → s.pkg.inbound s.mode (pgGP g.val) = true) →
    (ogp h 127 124 ≠ e.2.1 ∨ ogp h 93 88 ≠ 0 ∨ ogp h 79 64 ≠ 0 ∨
      (e.2.2 = true ∧ (s.pkg.mrs g.val < ogpLen h ∨ 4096 < ogpAddr h % 4096 + ogpLen h))) →
    Completes e.1 s (fun t => t.mode = s.mode ∧ t.pkg.hbm = s.pkg.hbm ∧ t.pkg.rf (pgGP g.val) 0x200 3 0 = 5 ∧
      t.pkg.rf (pgGP g.val) 0x200 39 32 = 2)) ∧
  (∀ s g h b e, e ∈ ogpRows g h b → s.pkg.gpState g.val ≠ 2 ∨ s.pkg.answers (pgGP g.val) = false ∨
      (e.2.2 = true ∧ s.pkg.inbound s.mode (pgGP g.val) = false) → exec e.1 s = .next s) ∧
  (∀ s g h lc a, ogpLegal s g h 5 false → ogp h 87 80 < 32 → ogp h 87 80 < s.pkg.agreed g.val 23 16 →
    bit (s.pkg.cfg (pgGP g.val) (0x408 + 8 * ogp h 87 80)) 31 = true →
    lc = fld (s.pkg.cfg (pgGP g.val) (0x408 + 8 * ogp h 87 80)) 15 8 →
    a = fld (s.pkg.cfg (pgGP g.val) (0x408 + 8 * ogp h 87 80)) 7 0 → 0x10 ≤ a → lc < 216 → s.pkg.mapped lc = true →
    s.pkg.lcpid lc = fld (s.pkg.cfg (pgGP g.val) (0x408 + 8 * ogp h 87 80)) 30 24 →
    Completes (.int g h) s (fun t => t.pkg.core lc = { s.pkg.core lc with pend := (s.pkg.core lc).pend ||| BitVec.ofNat 256 (2 ^ a) } ∧
      t.pkg.pages = s.pkg.pages ∧ 5 ∈ t.pkg.pw.latched)) ∧
  (∀ s g h, ogpLegal s g h 5 false → 32 ≤ ogp h 87 80 ∨ s.pkg.agreed g.val 23 16 ≤ ogp h 87 80 ∨
      bit (s.pkg.cfg (pgGP g.val) (0x408 + 8 * (ogp h 87 80 % 32))) 31 = false ∨
      s.pkg.lcpid (fld (s.pkg.cfg (pgGP g.val) (0x408 + 8 * (ogp h 87 80 % 32))) 15 8) ≠
        fld (s.pkg.cfg (pgGP g.val) (0x408 + 8 * (ogp h 87 80 % 32))) 30 24 →
    (s.pkg.reg (pgGP g.val) 0x218).toNat < 2 ^ 64 - 1 →
    Completes (.int g h) s (fun t => t.pkg.cores = s.pkg.cores ∧
      t.pkg.reg (pgGP g.val) 0x218 = s.pkg.reg (pgGP g.val) 0x218 + 1)) ∧
  (∀ s g h, ogpLegal s g h 6 false → 2 ≤ ogp h 87 80 →
    Completes (.ogpErr g h) s (fun t => t.pkg.rf (pgGP g.val) 0x200 3 0 = 5 ∧ t.pkg.rf (pgGP g.val) 0x200 39 32 = 3)) ∧
  (∀ s g h, ogpLegal s g h 6 false → ogp h 87 80 < 2 → exec (.ogpErr g h) s = .next s) ∧
  (∀ s g h b, ogpLegal s g h 4 false →
    (∀ lc, lc < 216 → (s.pkg.core lc).io = [] ∧ (s.pkg.core lc).posted = []) →
    Completes (.cpl g h b) s (fun t => t.pkg.rf (pgGP g.val) 0x200 3 0 = 5 ∧ t.pkg.rf (pgGP g.val) 0x200 39 32 = 2)) ∧
  (∀ s g h b lc a, ogpLegal s g h 4 false → lc < 216 → (s.pkg.core lc).io = [a] → a.tag = ogp h 123 112 →
    inGuest g.val a.pa = true → a.answer = none → (s.pkg.core lc).posted = [] →
    Completes (.cpl g h b) s (fun t => (t.pkg.core lc).io = [{ a with answer := some (if ogp h 99 97 = 0
        then some (b.take (ogpLen h), false) else none) }] ∧ t.pkg.pages = s.pkg.pages))

/-- The guest's offer is answered with the agreed block; equal blocks make the port ACTIVE, at once or, in a readmission, at a
tick; a block that differs or an offer that is no offer fails the negotiation, which is tried again after its back-off; a
port that trained wider or faster than agreed retrains first (log entry 146). A lost link has 2 frames; a fence names its cause and
ORIGIN, stops the load switch and is logged at the tick; a readmission turns the switch on, trains, and ends ACTIVE or
FAILED; a command not allowed in its state ends WRONG_STATE (R304, R309 to R311, R408, R417). -/
def guestPortNegotiatesAndFencesClaim : Prop :=
  (∀ s g h w, s.pkg.gpState g.val = 6 → ogp h 127 124 = 7 → offerOk w = true →
    fld (agreeBlock w (s.pkg.hubOffer g.val)) 63 56 = 1 →
    Completes (.cap g h w) s (fun t => OnlyPages s t ∧ t.pkg.reg (pgGP g.val) 0x210 = w ∧
      t.pkg.reg (pgGP g.val) 0x208 = agreeBlock w (s.pkg.hubOffer g.val))) ∧
  (∀ s g h w, s.pkg.gpState g.val = 6 → ogp h 127 124 = 7 →
    offerOk w = false ∨ fld (agreeBlock w (s.pkg.hubOffer g.val)) 63 56 ≠ 1 →
    Completes (.cap g h w) s (fun t => t.pkg.reg (pgGP g.val) 0x210 = w ∧ t.pkg.rf (pgGP g.val) 0x200 3 0 = 0 ∧
      tblGet (fun _ => 0) t.pkg.boot.waits (22 + g.val) = min (2 ^ (s.pkg.rf (pgGP g.val) 0x200 63 48 - 1)) 1024 + 1)) ∧
  (∀ s g h w, s.pkg.gpState g.val = 6 → ogp h 127 124 = 8 → s.pkg.reg (pgGP g.val) 0x210 ≠ 0 →
    w = s.pkg.reg (pgGP g.val) 0x208 → (s.pkg.guest g.val).width ≤ fld w 47 40 → (s.pkg.guest g.val).rate ≤ fld w 39 32 →
    22 + g.val ∉ s.pkg.boot.readmits →
    Completes (.capack g h w) s (fun t => t.mode = s.mode ∧ t.pkg.rf (pgGP g.val) 0x200 3 0 = 2 ∧
      22 + g.val ∈ t.pkg.boot.finished)) ∧
  (∀ s g h w, s.pkg.gpState g.val = 6 → ogp h 127 124 = 8 → s.pkg.reg (pgGP g.val) 0x210 ≠ 0 →
    w = s.pkg.reg (pgGP g.val) 0x208 → (s.pkg.guest g.val).width ≤ fld w 47 40 → (s.pkg.guest g.val).rate ≤ fld w 39 32 →
    22 + g.val ∈ s.pkg.boot.readmits →
    Completes (.capack g h w) s (fun t => (t.pkg.guest g.val).ack = some w ∧ t.pkg.pages = s.pkg.pages)) ∧
  (∀ s g h w, s.pkg.gpState g.val = 6 → ogp h 127 124 = 8 → s.pkg.reg (pgGP g.val) 0x210 ≠ 0 →
    w = s.pkg.reg (pgGP g.val) 0x208 → fld w 47 40 < (s.pkg.guest g.val).width ∨ fld w 39 32 < (s.pkg.guest g.val).rate →
    Completes (.capack g h w) s (fun t => t.pkg.rf (pgGP g.val) 0x200 3 0 = 1 ∧ 22 + g.val ∈ t.pkg.boot.training ∧
      (t.pkg.guest g.val).width = fld w 47 40 ∧ (t.pkg.guest g.val).rate = fld w 39 32)) ∧
  (∀ s g h w, s.pkg.gpState g.val = 6 → ogp h 127 124 = 8 → s.pkg.reg (pgGP g.val) 0x210 ≠ 0 →
    w ≠ s.pkg.reg (pgGP g.val) 0x208 →
    Completes (.capack g h w) s (fun t => t.pkg.rf (pgGP g.val) 0x200 3 0 = 0 ∧
      tblGet (fun _ => 0) t.pkg.boot.waits (22 + g.val) ≠ 0)) ∧
  (∀ s g h w, s.pkg.gpState g.val ≠ 6 → exec (.cap g h w) s = .next s ∧ exec (.capack g h w) s = .next s) ∧
  (∀ s g, s.pkg.gpState g.val = 2 → (s.pkg.guest g.val).loss = none →
    Completes (.ucieLinkLoss g) s (fun t => (t.pkg.guest g.val).loss = some 0 ∧ t.pkg.stw.evSeq = s.pkg.stw.evSeq)) ∧
  (∀ s g n, (s.pkg.guest g.val).loss = some n → 2 ≤ n → s.pkg.gpState g.val ≠ 5 → s.pkg.gpState g.val ≠ 7 →
    Completes (.guestLinkLossExpiry g) s (fun t => t.pkg.gpState g.val = 5 ∧ t.pkg.rf (pgGP g.val) 0x200 39 32 = 1 ∧
      tblGet (fun _ => false) t.pkg.pw.gsw g.val = false)) ∧
  (∀ s g, (∀ n, (s.pkg.guest g.val).loss = some n → n < 2) → exec (.guestLinkLossExpiry g) s = .next s) ∧
  (∀ s who g, s.pkg.commands who (pgGP g.val) = true → s.pkg.loadHold (pgGP g.val) = false →
    s.pkg.gpState g.val ≠ 0 → s.pkg.gpState g.val ≠ 5 → s.pkg.gpState g.val ≠ 7 →
    Completes (.guestFenceCommand who g) s (fun t => t.pkg.gpState g.val = 5 ∧ t.pkg.rf (pgGP g.val) 0x200 39 32 = 7 ∧
      LastCmd t.pkg (pgGP g.val) 0xC00 1 ∧ tblGet (fun _ => false) t.pkg.pw.gsw g.val = false ∧
      t.pkg.tickLog = s.pkg.tickLog ++ [(0x03, originOf who, none, pgGP g.val, BitVec.ofNat 64 7)])) ∧
  (∀ s who g, s.pkg.commands who (pgGP g.val) = true → s.pkg.loadHold (pgGP g.val) = true ∨
      s.pkg.gpState g.val = 0 ∨ s.pkg.gpState g.val = 5 ∨ s.pkg.gpState g.val = 7 →
    Completes (.guestFenceCommand who g) s (fun t => OnlyPagesStw s t ∧ LastCmd t.pkg (pgGP g.val) 0xC00 3)) ∧
  (∀ s who g, s.pkg.commands who (pgGP g.val) = true → s.pkg.loadHold (pgGP g.val) = false →
    s.pkg.busy (pgGP g.val) = false → s.pkg.gpState g.val = 5 → readmitMode s →
    Completes (.guestReadmit who g) s (fun t => t.pkg.rf (pgGP g.val) 0x200 3 0 = 1 ∧ LastCmd t.pkg (pgGP g.val) 0xC00 2 ∧
      tblGet (fun _ => false) t.pkg.pw.gsw g.val = true ∧ 22 + g.val ∈ t.pkg.boot.readmits ∧
      22 + g.val ∈ t.pkg.boot.training)) ∧
  (∀ s who g, s.pkg.commands who (pgGP g.val) = true → s.pkg.loadHold (pgGP g.val) = true ∨
      s.pkg.busy (pgGP g.val) = true ∨ s.pkg.gpState g.val ≠ 5 ∨ ¬ readmitMode s →
    Completes (.guestReadmit who g) s (fun t => OnlyPagesStw s t ∧ LastCmd t.pkg (pgGP g.val) 0xC00 3)) ∧
  (∀ s g, 22 + g.val ∈ s.pkg.boot.readmits → (s.pkg.guest g.val).ack ≠ none → s.pkg.isRipe .guest g.val = true →
    Completes (.guestReadmitComplete g true) s (fun t => t.pkg.rf (pgGP g.val) 0x200 3 0 = 2 ∧
      LastCmd t.pkg (pgGP g.val) 0xC00 1 ∧ 22 + g.val ∉ t.pkg.boot.readmits ∧ t.pkg.rf (pgGP g.val) 0x200 39 32 = 0)) ∧
  (∀ s g, 22 + g.val ∈ s.pkg.boot.readmits → s.pkg.canRetry (22 + g.val) false = false →
    Completes (.guestReadmitComplete g false) s (fun t => t.pkg.rf (pgGP g.val) 0x200 3 0 = 5 ∧
      LastCmd t.pkg (pgGP g.val) 0xC00 6 ∧ 22 + g.val ∉ t.pkg.boot.readmits ∧
      tblGet (fun _ => false) t.pkg.pw.gsw g.val = false)) ∧
  (∀ s g ok, 22 + g.val ∉ s.pkg.boot.readmits ∨
      (ok = true ∧ ((s.pkg.guest g.val).ack = none ∨ s.pkg.isRipe .guest g.val = false)) ∨
      (ok = false ∧ s.pkg.canRetry (22 + g.val) false = true) →
    exec (.guestReadmitComplete g ok) s = .next s) ∧
  (∀ s g, tblGet (fun _ => false) s.pkg.pw.gsw g.val = true → s.pkg.gpState g.val ≠ 5 → s.pkg.gpState g.val ≠ 7 →
    Completes (.gswFault g) s (fun t => t.pkg.gpState g.val = 5 ∧ t.pkg.rf (pgGP g.val) 0x200 39 32 = 4 ∧
      tblGet (fun _ => false) t.pkg.pw.gsw g.val = false))

/-- Guest messages and the guest port (R303 to R311). -/
def Obligations.GuestPortsPassNegotiateAndFence : Prop := guestMessagesPassTheFirewallClaim ∧ guestPortNegotiatesAndFencesClaim

/-! ### PCIe root ports -/

/-- A device request is taken: the package runs, the port is out of LOAD_HOLD and its link is up (R54, R477). -/
def deviceTaken (s : State) (pe : Fin 6) (link : Fin 4) : Prop :=
  s.pkg.inbound s.mode (pgPE pe.val) = true ∧ s.pkg.linkUp pe.val link.val = true

/-- The PID of link `link` of a port (R477). -/
def linkPid (s : State) (pe : Fin 6) (link : Fin 4) : Nat := fld (s.pkg.cfg (pgPE pe.val) (0x408 + 8 * link.val)) 62 56

/-- The write is one to the MSI address of a port, on a link that translates (R477, R480). -/
def isMsi (s : State) (pe : Fin 6) (link : Fin 4) (addr n : Nat) : Prop :=
  bit (s.pkg.cfg (pgPE pe.val) (0x408 + 8 * link.val)) 63 = true ∧ n = 4 ∧ addr = s.pkg.cf (pgPE pe.val) 0x400 47 12 * 4096

/-- Device requests are translated and carried out under the link's PID, in the order of the port (log entry 144), or refused
and recorded, a read with Unsupported Request; poison in or out sets an event; a port that serves nothing leaves the state; a
4-byte write to the MSI address becomes an interrupt or is dropped; IOINV empties the IOTLB once no request of the port waits;
a link that goes down stays down for its accesses alone; a completion answers the access that waits for it: its data, all ones
for a failed configuration read, an error for a failed memory access, and with retry status nothing (R54, R60, R475 to R482). -/
def Obligations.DeviceRequestsAreTranslated : Prop :=
  (∀ s pe link addr b q, deviceTaken s pe link → ¬ isMsi s pe link addr.toNat b.length →
    s.pkg.ioParts pe.val link.val addr.toNat b.length true = (none, q) →
    Completes (.deviceDmaWrite pe link addr b false) s (fun t => t.pkg.hbm = q.hbm ∧ t.pkg.out = q.out ∧
      t.pkg.reg (pgPE pe.val) 0x218 = BitVec.ofNat 64 (addr.toNat % 2 ^ 48))) ∧
  (∀ s pe link addr b l q a r, deviceTaken s pe link → ¬ isMsi s pe link addr.toNat b.length →
    s.pkg.ioParts pe.val link.val addr.toNat b.length true = (some l, q) → q.inWaits (0x14 + pe.val) = false →
    q.writeParts (0x14 + pe.val) (linkPid s pe link) l b (2 ^ b.length - 1) false = (a, r) → a ≠ .waiting →
    Completes (.deviceDmaWrite pe link addr b false) s (fun t => t.mode = s.mode ∧ t.pkg =
      r.evCount none 11 pe.val (some (linkPid s pe link)) 4 (l.flatMap (fun e => lineParts e.1 e.2)).length)) ∧
  (∀ s pe link addr b l q a r, deviceTaken s pe link → ¬ isMsi s pe link addr.toNat b.length →
    s.pkg.ioParts pe.val link.val addr.toNat b.length true = (some l, q) → q.inWaits (0x14 + pe.val) = false →
    q.writeParts (0x14 + pe.val) (linkPid s pe link) l b (2 ^ b.length - 1) true = (a, r) → a ≠ .waiting →
    bit (r.reg (pgPE pe.val) 0x030) 19 = false →
    Completes (.deviceDmaWrite pe link addr b true) s (fun t => t.mode = s.mode ∧ t.pkg.hbm = r.hbm ∧
      bit (t.pkg.reg (pgPE pe.val) 0x028) 19 = true)) ∧
  (∀ s pe link addr len l b q r, deviceTaken s pe link →
    s.pkg.ioParts pe.val link.val addr.toNat len false = (some l, q) → q.inWaits (0x14 + pe.val) = false →
    q.readParts (0x14 + pe.val) (linkPid s pe link) l = (.done b false, r) →
    Completes (.deviceDmaRead pe link addr len) s (fun t => t.mode = s.mode ∧ t.pkg =
      (r.evCount none 11 pe.val (some (linkPid s pe link)) 4 (l.flatMap (fun e => lineParts e.1 e.2)).length).reply 0 0 b false)) ∧
  (∀ s pe link addr len l b q r, deviceTaken s pe link →
    s.pkg.ioParts pe.val link.val addr.toNat len false = (some l, q) → q.inWaits (0x14 + pe.val) = false →
    q.readParts (0x14 + pe.val) (linkPid s pe link) l = (.done b true, r) → bit (r.reg (pgPE pe.val) 0x030) 19 = false →
    Completes (.deviceDmaRead pe link addr len) s (fun t => t.pkg.hbm = r.hbm ∧
      bit (t.pkg.reg (pgPE pe.val) 0x028) 19 = true ∧
      t.pkg.out = some { tag := 0, status := 0, bytes := b, poison := true })) ∧
  (∀ s pe link addr len q, deviceTaken s pe link → s.pkg.ioParts pe.val link.val addr.toNat len false = (none, q) →
    Completes (.deviceDmaRead pe link addr len) s (fun t => t.pkg.hbm = q.hbm ∧
      t.pkg.reg (pgPE pe.val) 0x218 = BitVec.ofNat 64 (addr.toNat % 2 ^ 48) ∧
      t.pkg.out = some { tag := 0, status := 1, bytes := [], poison := false })) ∧
  (∀ s pe link addr len l q, deviceTaken s pe link →
    s.pkg.ioParts pe.val link.val addr.toNat len false = (some l, q) →
    q.inWaits (0x14 + pe.val) = true ∨ (q.readParts (0x14 + pe.val) (linkPid s pe link) l).1 = .waiting →
    Completes (.deviceDmaRead pe link addr len) s (fun t => t = { s with pkg := { q with inq := q.inq ++
      [{ agent := 0x14 + pe.val, pid := linkPid s pe link, parts := l, op := .read, src := .pcie pe.val addr.toNat, age := 0 }] } })) ∧
  (∀ s pe link addr b ep l q, deviceTaken s pe link → ¬ isMsi s pe link addr.toNat b.length →
    s.pkg.ioParts pe.val link.val addr.toNat b.length true = (some l, q) →
    q.inWaits (0x14 + pe.val) = true ∨
      (q.writeParts (0x14 + pe.val) (linkPid s pe link) l b (2 ^ b.length - 1) ep).1 = .waiting →
    Completes (.deviceDmaWrite pe link addr b ep) s (fun t => t = { s with pkg := { q with inq := q.inq ++
      [{ agent := 0x14 + pe.val, pid := linkPid s pe link, parts := l, op := .write b (2 ^ b.length - 1) ep,
         src := .pcie pe.val addr.toNat, age := 0 }] } })) ∧
  (∀ s pe link addr b ep len v, ¬ deviceTaken s pe link → exec (.deviceDmaWrite pe link addr b ep) s = .next s ∧
    exec (.deviceDmaRead pe link addr len) s = .next s ∧ exec (.msiWrite pe link addr v) s = .next s) ∧
  (∀ s pe link addr v, exec (.msiWrite pe link addr v) s = exec (.deviceDmaWrite pe link addr (leBytes 4 v.toNat) false) s) ∧
  (∀ s pe link addr v lc a, deviceTaken s pe link → isMsi s pe link addr.toNat 4 → s.pkg.inWaits (0x14 + pe.val) = false →
    v.toNat < 64 → bit (s.pkg.cfg (pgPE pe.val) (0x428 + 8 * v.toNat)) 31 = true →
    fld (s.pkg.cfg (pgPE pe.val) (0x428 + 8 * v.toNat)) 30 24 = linkPid s pe link →
    lc = fld (s.pkg.cfg (pgPE pe.val) (0x428 + 8 * v.toNat)) 15 8 → a = fld (s.pkg.cfg (pgPE pe.val) (0x428 + 8 * v.toNat)) 7 0 →
    0x10 ≤ a → lc < 216 → s.pkg.mapped lc = true →
    s.pkg.lcpid lc = fld (s.pkg.cfg (pgPE pe.val) (0x428 + 8 * v.toNat)) 30 24 →
    Completes (.msiWrite pe link addr v) s (fun t =>
      t.pkg.core lc = { s.pkg.core lc with pend := (s.pkg.core lc).pend ||| BitVec.ofNat 256 (2 ^ a) } ∧
      t.pkg.pages = s.pkg.pages ∧ t.pkg.hbm = s.pkg.hbm)) ∧
  (∀ s pe link addr v, deviceTaken s pe link → isMsi s pe link addr.toNat 4 → s.pkg.inWaits (0x14 + pe.val) = false →
    (64 ≤ v.toNat ∨ bit (s.pkg.cfg (pgPE pe.val) (0x428 + 8 * (v.toNat % 64))) 31 = false ∨
      fld (s.pkg.cfg (pgPE pe.val) (0x428 + 8 * (v.toNat % 64))) 30 24 ≠ linkPid s pe link) →
    bit (s.pkg.reg (pgPE pe.val) 0x030) 20 = false →
    Completes (.msiWrite pe link addr v) s (fun t => t.pkg.cores = s.pkg.cores ∧ t.pkg.hbm = s.pkg.hbm ∧
      bit (t.pkg.reg (pgPE pe.val) 0x028) 20 = true)) ∧
  (∀ s who pe link byAddr, s.pkg.commands who (pgPE pe.val) = true → s.pkg.blkState (pgPE pe.val) = 1 →
    s.pkg.busy (pgPE pe.val) = false →
    Completes (.ioinv who pe link byAddr) s (fun t => LastCmd t.pkg (pgPE pe.val) 0xC00 2 ∧
      (t.pkg.pe pe.val).inv = some (link.val, byAddr, s.pkg.rf (pgPE pe.val) 0xC08 47 12 * 4096) ∧
      (t.pkg.pe pe.val).iotlb = (s.pkg.pe pe.val).iotlb)) ∧
  (∀ s who pe link byAddr, s.pkg.commands who (pgPE pe.val) = true → s.pkg.blkState (pgPE pe.val) ≠ 1 ∨
      s.pkg.busy (pgPE pe.val) = true →
    Completes (.ioinv who pe link byAddr) s (fun t => OnlyPagesStw s t ∧ LastCmd t.pkg (pgPE pe.val) 0xC00 3)) ∧
  (∀ s pe link byAddr a, (s.pkg.pe pe.val).inv = some (link, byAddr, a) → s.pkg.inWaits (0x14 + pe.val) = false →
    Completes (.ioinvComplete pe) s (fun t => LastCmd t.pkg (pgPE pe.val) 0xC00 1 ∧ (t.pkg.pe pe.val).inv = none ∧
      (∀ e, e ∈ (t.pkg.pe pe.val).iotlb ↔ e ∈ (s.pkg.pe pe.val).iotlb ∧
        (e.link ≠ link ∨ (byAddr = true ∧ ¬ (e.vbase ≤ a ∧ a < e.vbase + e.size)))))) ∧
  (∀ s pe, (s.pkg.pe pe.val).inv = none ∨ s.pkg.inWaits (0x14 + pe.val) = true → exec (.ioinvComplete pe) s = .next s) ∧
  (∀ s pe link, s.pkg.linkUp pe.val link.val = true →
    Completes (.pcieLinkDown pe link) s (fun t => t.pkg.linkUp pe.val link.val = false ∧ OnlyPagesStw s t ∧
      ∀ k : Fin 4, k ≠ link → t.pkg.linkUp pe.val k.val = s.pkg.linkUp pe.val k.val)) ∧
  (∀ s pe link, s.pkg.linkUp pe.val link.val = false → exec (.pcieLinkDown pe link) s = .next s) ∧
  (∀ s pe tag ep b lc a, lc < 216 → (s.pkg.core lc).io = [a] → (s.pkg.core lc).posted = [] → a.tag = tag →
    inPcie pe.val a.pa = true → a.answer = none →
    Completes (.pcieCompletion pe tag 0 ep b) s (fun t =>
      (t.pkg.core lc).io = [{ a with answer := some (some (b, ep)) }] ∧ t.pkg.pages = s.pkg.pages)) ∧
  (∀ s pe tag (st : Fin 8) ep b lc a, st ≠ 0 → st ≠ 2 → lc < 216 → (s.pkg.core lc).io = [a] → (s.pkg.core lc).posted = [] →
    a.tag = tag → inPcie pe.val a.pa = true → a.answer = none →
    Completes (.pcieCompletion pe tag st ep b) s (fun t => t.pkg.pages = s.pkg.pages ∧
      (t.pkg.core lc).io = [{ a with answer := some (if a.pa - (0xC000000000000 + pe.val * 0x400000000000) < 0x10000000
        then some (List.replicate 8 (0xFF : Byte), false) else none) }])) ∧
  (∀ s pe tag ep b, exec (.pcieCompletion pe tag 2 ep b) s = .next s)

/-! ### Memory controllers -/

/-- The patrol scrub reads the next line while its quota of the frame is due, and moves on; it leaves memory alone. SET of a remap
entry by the service host takes effect at once in LOAD and after a copy of the row elsewhere, and is refused with BAD_ARG for an
entry that R325 does not allow, with WRONG_STATE while a SET runs, with DENIED for other requesters; READ shows an entry. The
steward remaps a requested row that a tick has seen, into the lowest free remap row, or logs that none is left. A calibration is
counted, and sixteen failures in a row of a channel disable its controller; EXCLUDE disables both controllers of a stack, in LOAD
(R322, R325, R326, R327, R330, R331, R335, R336, R403). -/
def Obligations.MemoryIsScrubbedRemappedCalibrated : Prop :=
  (∀ s mc d, s.pkg.scrubDue s.mode.mode mc.val = true → (s.pkg.ctl mc.val).scrubPch < 7 →
    Completes (.patrolScrubRead mc d) s (fun t => (t.pkg.ctl mc.val).scrubPch = (s.pkg.ctl mc.val).scrubPch + 1 ∧
      t.pkg.hbm.mem = s.pkg.hbm.mem)) ∧
  (∀ s mc d, s.pkg.scrubDue s.mode.mode mc.val = true → (s.pkg.ctl mc.val).scrubPch = 7 →
    Completes (.patrolScrubRead mc d) s (fun t => (t.pkg.ctl mc.val).scrubPch = 0 ∧ t.pkg.hbm.mem = s.pkg.hbm.mem ∧
      t.pkg.rf (pgMC mc.val) 0x228 26 0 = (s.pkg.rf (pgMC mc.val) 0x228 26 0 + 1) % 2 ^ 24)) ∧
  (∀ s mc d, s.pkg.scrubDue s.mode.mode mc.val = false → exec (.patrolScrubRead mc d) s = .next s) ∧
  (∀ s mc, (s.pkg.ctl mc.val).boost ≠ 1 → exec (.scrubBoostEnd mc) s = .next s) ∧
  (∀ s mc, (s.pkg.ctl mc.val).boost = 1 →
    Completes (.scrubBoostEnd mc) s (fun t => t.pkg.ctl mc.val = { s.pkg.ctl mc.val with boost := 0 } ∧
      t.pkg.pages = s.pkg.pages ∧ t.pkg.hbm.mem = s.pkg.hbm.mem)) ∧
  (∀ s mc i, s.pkg.commands .host (pgMCR mc.val) = true → s.mode.mode = .load → s.pkg.busy (pgMCR mc.val) = false →
    s.pkg.remapBad mc.val i.val (s.pkg.reg (pgMCR mc.val) 0xC08) = false →
    Completes (.set .host mc i) s (fun t => t.pkg.remapEnt mc.val i.val = s.pkg.reg (pgMCR mc.val) 0xC08 ∧
      LastCmd t.pkg (pgMCR mc.val) 0xC00 1 ∧ t.pkg.hbm.mem = s.pkg.hbm.mem ∧
      ∀ k, k ≠ i.val → t.pkg.remapEnt mc.val k = s.pkg.remapEnt mc.val k)) ∧
  (∀ s mc i, s.pkg.commands .host (pgMCR mc.val) = true → s.mode.mode ∈ [.run, .degraded, .quiesce] → s.pkg.busy (pgMCR mc.val) = false →
    s.pkg.remapBad mc.val i.val (s.pkg.reg (pgMCR mc.val) 0xC08) = false →
    remapCopies (s.pkg.remapEnt mc.val i.val) (s.pkg.reg (pgMCR mc.val) 0xC08) = true →
    Completes (.set .host mc i) s (fun t => (t.pkg.ctl mc.val).copying = some (i.val, s.pkg.reg (pgMCR mc.val) 0xC08, false) ∧
      LastCmd t.pkg (pgMCR mc.val) 0xC00 2 ∧ t.pkg.remapEnt mc.val i.val = s.pkg.remapEnt mc.val i.val)) ∧
  (∀ s mc i, s.pkg.commands .host (pgMCR mc.val) = true → s.mode.mode ∈ [.load, .run, .degraded, .quiesce] →
    s.pkg.busy (pgMCR mc.val) = false → s.pkg.remapBad mc.val i.val (s.pkg.reg (pgMCR mc.val) 0xC08) = true →
    Completes (.set .host mc i) s (fun t => LastCmd t.pkg (pgMCR mc.val) 0xC00 4 ∧ OnlyPages s t)) ∧
  (∀ s mc i, s.pkg.commands .host (pgMCR mc.val) = true → s.pkg.busy (pgMCR mc.val) = true ∨
      s.mode.mode ∉ [.load, .run, .degraded, .quiesce] →
    Completes (.set .host mc i) s (fun t => LastCmd t.pkg (pgMCR mc.val) 0xC00 3 ∧ OnlyPagesStw s t)) ∧
  (∀ s who mc i, s.pkg.commands who (pgMCR mc.val) = true → who ≠ .host → who ≠ .steward →
    Completes (.set who mc i) s (fun t => LastCmd t.pkg (pgMCR mc.val) 0xC00 5 ∧ OnlyPages s t)) ∧
  (∀ s who mc i, s.pkg.commands who (pgMCR mc.val) = true →
    Completes (.read who mc i) s (fun t => OnlyPages s t ∧ LastCmd t.pkg (pgMCR mc.val) 0xC00 1 ∧
      t.pkg.reg (pgMCR mc.val) 0xC08 = s.pkg.remapEnt mc.val i.val)) ∧
  (∀ s mc i e, (s.pkg.ctl mc.val).copying = some (i, e, false) →
    Completes (.remapCopyComplete mc) s (fun t => (t.pkg.ctl mc.val).copying = none ∧ t.pkg.remapEnt mc.val i = e ∧
      LastCmd t.pkg (pgMCR mc.val) 0xC00 1 ∧ t.pkg.busy (pgMCR mc.val) = false)) ∧
  (∀ s mc row rest i k, s.mode.mode = .load → s.pkg.loadHold pgSTW = false → s.pkg.cf pgSTW 0x400 2 2 = 0 →
    s.pkg.busy (pgMCR mc.val) = false → (s.pkg.ctl mc.val).rowReqs = row :: rest → s.pkg.isRipe .remap mc.val = true →
    s.pkg.entryFor mc.val row.1 row.2.1 row.2.2 = some i → s.pkg.freeSpare mc.val row.1 row.2.1 = some k →
    s.pkg.remapBad mc.val i (word [(63, 1), (61, 2), (56, row.1), (48, row.2.1), (32, row.2.2), (16, k)]) = false →
    Completes (.rowRemap mc) s (fun t => (t.pkg.ctl mc.val).rowReqs = rest ∧ Logged t.pkg 0x05 none ∧
      t.pkg.remapEnt mc.val i = word [(63, 1), (61, 2), (56, row.1), (48, row.2.1), (32, row.2.2), (16, k)])) ∧
  (∀ s mc row rest, s.mode.mode ∈ [.load, .run, .degraded, .quiesce] → s.pkg.loadHold pgSTW = false →
    s.pkg.cf pgSTW 0x400 2 2 = 0 → s.pkg.busy (pgMCR mc.val) = false → (s.pkg.ctl mc.val).rowReqs = row :: rest →
    s.pkg.isRipe .remap mc.val = true →
    s.pkg.freeSpare mc.val row.1 row.2.1 = none ∨ s.pkg.entryFor mc.val row.1 row.2.1 row.2.2 = none →
    Completes (.rowRemap mc) s (fun t => (t.pkg.ctl mc.val).rowReqs = rest ∧ Logged t.pkg 0x06 none ∧
      ∀ i, t.pkg.remapEnt mc.val i = s.pkg.remapEnt mc.val i)) ∧
  (∀ s mc, s.pkg.loadHold pgSTW = true ∨ s.pkg.cf pgSTW 0x400 2 2 ≠ 0 ∨ s.pkg.busy (pgMCR mc.val) = true ∨
      s.pkg.isRipe .remap mc.val = false → exec (.rowRemap mc) s = .next s) ∧
  (∀ s mc, (s.pkg.ctl mc.val).copying = none → exec (.remapCopyComplete mc) s = .next s) ∧
  (∀ s hs pc ok, s.pkg.calDue s.mode.mode hs.val = false → exec (.calibration hs pc ok) s = .next s) ∧
  (∀ s hs pc, s.pkg.calDue s.mode.mode hs.val = true →
    Completes (.calibration hs pc true) s (fun t =>
      tblGet (fun _ => 0) (t.pkg.ctl (2 * hs.val + pc.val / 8)).calFail (pc.val % 8 / 2) = 0 ∧
      t.pkg.rf (pgHPHY hs.val) 0x208 31 0 = min (s.pkg.rf (pgHPHY hs.val) 0x208 31 0 + 1) (2 ^ 32 - 1) ∧
      t.pkg.rf (pgHPHY hs.val) 0x208 63 32 = s.pkg.rf (pgHPHY hs.val) 0x208 63 32)) ∧
  (∀ s hs pc, s.pkg.calDue s.mode.mode hs.val = true →
    tblGet (fun _ => 0) (s.pkg.ctl (2 * hs.val + pc.val / 8)).calFail (pc.val % 8 / 2) = 15 →
    Completes (.calibration hs pc false) s (fun t => t.pkg.mcDisabled (2 * hs.val + pc.val / 8) = true)) ∧
  (∀ s hs, s.pkg.commands .host (pgHPHY hs.val) = true → s.mode.mode = .load → s.pkg.rf (pgHPHY hs.val) 0x200 3 0 ≠ 3 →
    Completes (.exclude .host hs) s (fun t => t.pkg.rf (pgHPHY hs.val) 0x200 3 0 = 3 ∧
      t.pkg.mcDisabled (2 * hs.val) = true ∧ t.pkg.mcDisabled (2 * hs.val + 1) = true ∧
      LastCmd t.pkg (pgHPHY hs.val) 0xC00 1)) ∧
  (∀ s hs, s.pkg.commands .host (pgHPHY hs.val) = true → s.mode.mode ≠ .load ∨ s.pkg.rf (pgHPHY hs.val) 0x200 3 0 = 3 →
    Completes (.exclude .host hs) s (fun t => OnlyPagesStw s t ∧ LastCmd t.pkg (pgHPHY hs.val) 0xC00 3)) ∧
  (∀ s who hs, s.pkg.commands who (pgHPHY hs.val) = true → who ≠ .host →
    Completes (.exclude who hs) s (fun t => OnlyPages s t ∧ LastCmd t.pkg (pgHPHY hs.val) 0xC00 5))

/-! ### Power -/

/-- An acknowledged grant counts at its lowered value, of that die alone; a unit in C1 for C3WAIT frames enters C3 and loses its
translations; RESRD shows the three residencies of a unit, and takes no number of 20 or more; a wake frame whose watched words can
be read (log entry 144) clears the latches, and each enabled source that matched, a latch or a temperature of WAKETEMP, is
recorded and ends DRIZZLE with the lowest code; any other frame samples nothing (R421, R424, R427 to R429, R435). -/
def powerCommandsTakeEffectClaim : Prop :=
  (∀ s d, tblGet (fun _ => 0) s.pkg.pw.owed d.val ≠ 0 → s.pkg.dieUp d.val = true →
    Completes (.grantAcknowledge d) s (fun t =>
      tblGet (fun _ => 0) t.pkg.pw.counted d.val = tblGet (fun _ => 0) s.pkg.pw.owed d.val ∧
      tblGet (fun _ => 0) t.pkg.pw.owed d.val = 0 ∧
      t.pkg.rf (pgDPM d.val) 0x200 44 32 = tblGet (fun _ => 0) s.pkg.pw.owed d.val % 2 ^ 13 ∧
      ∀ e, e ≠ d.val → tblGet (fun _ => 0) t.pkg.pw.counted e = tblGet (fun _ => 0) s.pkg.pw.counted e)) ∧
  (∀ s d, tblGet (fun _ => 0) s.pkg.pw.owed d.val = 0 ∨ s.pkg.dieUp d.val = false →
    exec (.grantAcknowledge d) s = .next s) ∧
  (∀ s d i, s.pkg.dieUp d.val = false ∨ s.pkg.cf (pgDPM d.val) 0x400 39 32 = 0 ∨ s.pkg.unitCst s.mode.mode d.val i.val ≠ 1 ∨
      (s.pkg.unit (d.val * 20 + i.val)).idle < s.pkg.cf (pgDPM d.val) 0x400 39 32 → exec (.c3Entry d i) s = .next s) ∧
  (∀ s d i, s.pkg.dieUp d.val = true → s.pkg.cf (pgDPM d.val) 0x400 39 32 ≠ 0 →
    s.pkg.unitCst s.mode.mode d.val i.val = 1 → s.pkg.cf (pgDPM d.val) 0x400 39 32 ≤ (s.pkg.unit (d.val * 20 + i.val)).idle →
    Completes (.c3Entry d i) s (fun t => (t.pkg.unit (d.val * 20 + i.val)).cst = 3 ∧
      (t.pkg.unit (d.val * 20 + i.val)).dtlb = [] ∧ (t.pkg.unit (d.val * 20 + i.val)).itlb = [] ∧
      (t.pkg.unit (d.val * 20 + i.val)).l2tlb = [])) ∧
  (∀ s who d u, s.pkg.commands who (pgDPM d.val) = true → u.val < 20 →
    Completes (.resrd who d u) s (fun t => OnlyPages s t ∧ LastCmd t.pkg (pgDPM d.val) 0xC00 1 ∧
      t.pkg.reg (pgDPM d.val) 0xC08 = word [(10, (s.pkg.unit (d.val * 20 + u.val)).res0 / 800),
        (0, (s.pkg.unit (d.val * 20 + u.val)).res0 % 800)] ∧
      t.pkg.reg (pgDPM d.val) 0xC10 = word [(10, (s.pkg.unit (d.val * 20 + u.val)).res1 / 800),
        (0, (s.pkg.unit (d.val * 20 + u.val)).res1 % 800)] ∧
      t.pkg.reg (pgDPM d.val) 0xC18 = word [(10, (s.pkg.unit (d.val * 20 + u.val)).res3 / 800),
        (0, (s.pkg.unit (d.val * 20 + u.val)).res3 % 800)])) ∧
  (∀ s who d u, s.pkg.commands who (pgDPM d.val) = true → 20 ≤ u.val →
    Completes (.resrd who d u) s (fun t => OnlyPages s t ∧ LastCmd t.pkg (pgDPM d.val) 0xC00 4)) ∧
  (∀ s sm, s.mode.mode = .drizzle → s.pkg.isWake s.pkg.frameNum = true → (∀ n, n < 16 → s.pkg.watchWaits n = false) →
    Completes (.wakeFrame sm) s (fun t => t.pkg.pw.latched = [] ∧ t.mode = s.mode ∧
      (∀ c, c ∈ [2, 3, 4, 5] → c ∈ s.pkg.pw.latched → s.pkg.srcOn c = true →
        bit (t.pkg.reg pgHPWR 0x368) (c - 1) = true ∧ ∃ k, t.pkg.stw.wakeMatch = some k ∧ k ≤ c) ∧
      (∀ x v, (x, v) ∈ sm → Sensor.temp? x = true →
        (4 * (if s.pkg.cf pgHPWR 0x408 55 48 = 0 then 95 else s.pkg.cf pgHPWR 0x408 55 48 : Nat) : Int) ≤ v →
        s.pkg.srcOn 1 = true → bit (t.pkg.reg pgHPWR 0x368) 0 = true ∧ t.pkg.stw.wakeMatch = some 1))) ∧
  (∀ s sm, s.mode.mode ≠ .drizzle ∨ s.pkg.isWake s.pkg.frameNum = false ∨ (∃ n, n < 16 ∧ s.pkg.watchWaits n = true) →
    exec (.wakeFrame sm) s = .next s)

/-- A power failure is latched and moves a running ledger engine into its hold-up; when the hold-up ends nothing is in flight
and the namespaces stay; outside a hold-up its end does nothing (R357). -/
def powerFailureIsHeldUpClaim : Prop :=
  (∀ s, s.pkg.pw.island = true → s.pkg.lePhase ≠ 0 →
    Completes .powerFail s (fun t => t.pkg.pw.pwrFail = true ∧ t.pkg.lePhase = 3 ∧ t.mode = s.mode)) ∧
  (∀ s, s.pkg.pw.island = false →
    Completes .powerFail s (fun t => t = { s with pkg := { s.pkg with pw := { s.pkg.pw with pwrFail := true } } })) ∧
  (∀ s, s.pkg.lePhase = 3 → Completes .holdupStop s (fun t => t.pkg.ledger.slots = [] ∧ t.pkg.ledger.ns = s.pkg.ledger.ns ∧
    t.pkg.pages = s.pkg.pages)) ∧
  (∀ s, s.pkg.lePhase ≠ 3 → exec .holdupStop s = .next s)

/-- Power management and the hold-up of a power failure (R357, R421, R424, R427, R429, R435). -/
def Obligations.PowerCommandsAndPowerFailure : Prop := powerCommandsTakeEffectClaim ∧ powerFailureIsHeldUpClaim

/-! ### Pelmund instructions: operands and results -/

/-- A row of the table that carries an instruction. -/
abbrev CpuRow : Type := Lc → Fetch → Instr

/-- Three operands, op2 from op0 and op1: opcode, row, and the result with its flags from the operand bits, the two values
and the carry flag. -/
def threeRows : List (Nat × CpuRow × (Nat → Nat → Nat → Bool → BinRes)) :=
  [(0x10, .add, fun n a b _ => addFlags n a b false), (0x11, .sub, fun n a b _ => subFlags n a b false),
   (0x12, .adc, addFlags), (0x13, .sbb, subFlags), (0x14, .mul, fun n a b _ => mulFlags n a b),
   (0x15, .mulh, fun n a b _ => mulhFlags n a b), (0x16, .mulhu, fun n a b _ => mulhuFlags n a b),
   (0x20, .and, fun n a b _ => logicFlags n (a &&& b)), (0x21, .or, fun n a b _ => logicFlags n (a ||| b)),
   (0x22, .xor, fun n a b _ => logicFlags n (a ^^^ b)), (0x23, .andn, fun n a b _ => logicFlags n (a &&& notBits n b)),
   (0x25, .shl, fun n a b _ => shlFlags n a b), (0x26, .shr, fun n a b _ => shrFlags n a b),
   (0x27, .sar, fun n a b _ => sarFlags n a b), (0x28, .rol, fun n a b _ => rolFlags n a b),
   (0x29, .ror, fun n a b _ => rorFlags n a b)]

/-- A three-operand instruction of `rows` whose operands can be formed, read and written leaves its result in operand 2 and
its flags in the PSW; nothing else of the core changes but IP (R88, R121, R128, R130). -/
def threeRowsHold (rows : List (Nat × CpuRow × (Nat → Nat → Nat → Bool → BinRes))) : Prop :=
  ∀ e ∈ rows, ∀ s lc f d q a b w c q1 va q2 vb q3 r c' q4, Begins s lc f d q → d.op = e.1 → d.lock = false →
    d.rep = false → Yields (formOperands (envOf s lc d) OpUse.plain d.ops 0 (s.pkg.core lc)) q ([a, b, w], c) q1 →
    Yields (readVal (envOf s lc d) a) q1 va q2 → Yields (readVal (envOf s lc d) b) q2 vb q3 →
    r = e.2.2 (8 * d.size) va vb (pswC (s.pkg.core lc).psw) → Yields (writeVal (envOf s lc d) w r.r c) q3 c' q4 →
    Completes (e.2.1 lc f) s (Ends s lc q4 { c' with psw := r.setFlags c'.psw } (envOf s lc d).next)

/-- Addition, subtraction, multiplication and logic in three operands: each completes, with its result in operand 2 and its
flags, and changes nothing else (R88, R121, R128). -/
def Obligations.ThreeOperandInstructions : Prop := threeRowsHold (threeRows.take 11)

/-- Two operands, op1 from op0. -/
def twoRows : List (Nat × CpuRow × (Nat → Nat → BinRes)) :=
  [(0x1B, .neg, fun n a => subFlags n 0 a false), (0x24, .not, fun n a => logicFlags n (notBits n a)),
   (0x2A, .bswap, bswapFlags), (0x2B, .popc, popcFlags), (0x2C, .clz, clzFlags), (0x2D, .ctz, ctzFlags)]

/-- One operand, read and written: opcode, row, the operation sent to a home, and the result. -/
def oneRows : List (Nat × CpuRow × Nat × (Nat → Nat → BinRes)) :=
  [(0x1C, .inc, 2, fun n a => addFlags n a 1 false), (0x1D, .dec, 3, fun n a => subFlags n a 1 false)]

/-- Flags only. -/
def compareRows : List (Nat × CpuRow × (Nat → Nat → Nat → BinRes)) :=
  [(0x1E, .cmp, fun n a b => subFlags n a b false), (0x1F, .test, fun n a b => logicFlags n (a &&& b))]

/-- The instructions of two operands and of one write their result and its flags, the comparisons flags only, and nothing else
changes but IP and what an operand form steps (R116, R127, R128, R130). -/
def twoOperandInstructionsClaim : Prop :=
  (∀ e ∈ twoRows, ∀ s lc f d q a w c q1 va q2 r c' q3, Begins s lc f d q → d.op = e.1 →
    Yields (formOperands (envOf s lc d) OpUse.plain d.ops 0 (s.pkg.core lc)) q ([a, w], c) q1 →
    Yields (readVal (envOf s lc d) a) q1 va q2 → r = e.2.2 (8 * d.size) va →
    Yields (writeVal (envOf s lc d) w r.r c) q2 c' q3 →
    Completes (e.2.1 lc f) s (Ends s lc q3 { c' with psw := r.setFlags c'.psw } (envOf s lc d).next)) ∧
  (∀ e ∈ oneRows, ∀ s lc f d q m c q1 v q2 r c' q3, Begins s lc f d q → d.op = e.1 → d.lock = false →
    Yields (formOperands (envOf s lc d) OpUse.plain d.ops 0 (s.pkg.core lc)) q ([m], c) q1 →
    Yields (readVal (envOf s lc d) m) q1 v q2 → r = e.2.2.2 (8 * d.size) v →
    Yields (writeVal (envOf s lc d) m r.r c) q2 c' q3 →
    Completes (e.2.1 lc f) s (Ends s lc q3 { c' with psw := r.setFlags c'.psw } (envOf s lc d).next)) ∧
  (∀ e ∈ compareRows, ∀ s lc f d q a b c q1 va q2 vb q3, Begins s lc f d q → d.op = e.1 →
    Yields (formOperands (envOf s lc d) OpUse.plain d.ops 0 (s.pkg.core lc)) q ([a, b], c) q1 →
    Yields (readVal (envOf s lc d) a) q1 va q2 → Yields (readVal (envOf s lc d) b) q2 vb q3 →
    Completes (e.2.1 lc f) s (Ends s lc q3 { c with psw := (e.2.2 (8 * d.size) va vb).setFlags c.psw } (envOf s lc d).next))

/-- Division and remainder. -/
def divideRows : List (Nat × CpuRow × (Nat → Nat → Nat → BinRes)) :=
  [(0x17, .div, divFlags), (0x18, .divu, divuFlags), (0x19, .rem, remFlags), (0x1A, .remu, remuFlags)]

/-- Division completes for every divisor but 0, for which it takes trap 0x21 after its operands are read and before
anything is written (R92, R129). -/
def divisionCompletesClaim : Prop :=
  ∀ e ∈ divideRows, ∀ s lc f d q a b w c q1 va q2 vb q3, Begins s lc f d q → d.op = e.1 →
    Yields (formOperands (envOf s lc d) OpUse.plain d.ops 0 (s.pkg.core lc)) q ([a, b, w], c) q1 →
    Yields (readVal (envOf s lc d) a) q1 va q2 → Yields (readVal (envOf s lc d) b) q2 vb q3 →
    (∀ r c' q4, vb ≠ 0 → r = e.2.2 (8 * d.size) va vb → Yields (writeVal (envOf s lc d) w r.r c) q3 c' q4 →
      Completes (e.2.1 lc f) s (Ends s lc q4 { c' with psw := r.setFlags c'.psw } (envOf s lc d).next)) ∧
    (vb = 0 → exec (e.2.1 lc f) s = .next (stopInstr s lc d.len q3 (.trap (Trap.of 0x21))))

/-- Division by R129: a divisor of 0 takes trap 0x21 and nothing is written, every other divisor completes; DIV of the most
negative value by −1 gives the most negative value with V, REM of the same gives 0, and otherwise DIV clears V. -/
def Obligations.DivisionFollowsItsRule : Prop :=
  divisionCompletesClaim ∧
  (∀ n : Nat, n = 8 ∨ n = 16 ∨ n = 32 ∨ n = 64 →
    (divFlags n (2 ^ (n - 1)) (2 ^ n - 1)).r = 2 ^ (n - 1) ∧ (divFlags n (2 ^ (n - 1)) (2 ^ n - 1)).v = true ∧
    (remFlags n (2 ^ (n - 1)) (2 ^ n - 1)).r = 0 ∧
    ∀ a b : BitVec n, b ≠ 0 → ¬ (a = BitVec.intMin n ∧ b = BitVec.allOnes n) → (divFlags n a.toNat b.toNat).v = false)

/-- The results and flags of addition, subtraction, multiplication and logic, written with the arithmetic of bit vectors:
Z and N follow the result, C is the carry or the borrow, V the signed overflow (R88, R128). -/
def Obligations.ArithmeticFlags : Prop :=
  ∀ (n : Nat) (a b : BitVec n), n = 8 ∨ n = 16 ∨ n = 32 ∨ n = 64 →
    (addFlags n a.toNat b.toNat false = { r := (a + b).toNat, z := a + b == 0, n := (a + b).msb,
                                          c := BitVec.uaddOverflow a b, v := BitVec.saddOverflow a b }) ∧
    (subFlags n a.toNat b.toNat false = { r := (a - b).toNat, z := a == b, n := (a - b).msb,
                                          c := BitVec.usubOverflow a b, v := BitVec.ssubOverflow a b }) ∧
    (addFlags n a.toNat b.toNat true).r = (a + b + 1).toNat ∧ (subFlags n a.toNat b.toNat true).r = (a - b - 1).toNat ∧
    (mulFlags n a.toNat b.toNat = { r := (a * b).toNat, z := a * b == 0, n := (a * b).msb,
                                    c := BitVec.smulOverflow a b, v := BitVec.smulOverflow a b }) ∧
    (logicFlags n (a.toNat &&& b.toNat) = { r := (a &&& b).toNat, z := a &&& b == 0, n := (a &&& b).msb, c := false, v := false }) ∧
    (logicFlags n (a.toNat &&& notBits n b.toNat)).r = (a &&& ~~~b).toNat ∧
    (b ≠ 0 → (divuFlags n a.toNat b.toNat).r = (a / b).toNat ∧ (remuFlags n a.toNat b.toNat).r = (a % b).toNat ∧
      (divFlags n a.toNat b.toNat).r = (BitVec.sdiv a b).toNat ∧ (remFlags n a.toNat b.toNat).r = (BitVec.srem a b).toNat)

/-- The results of shifts and rotates: the count is taken modulo the operand size; a count of 0 leaves the value and clears
C; otherwise C is the last bit shifted out or brought round (R130). -/
def shiftResults : Prop :=
  ∀ (n : Nat) (a : BitVec n) (cnt k : Nat), n = 8 ∨ n = 16 ∨ n = 32 ∨ n = 64 → k = cnt % n →
    (shlFlags n a.toNat cnt).r = (a <<< k).toNat ∧ (shrFlags n a.toNat cnt).r = (a >>> k).toNat ∧
    (sarFlags n a.toNat cnt).r = (a.sshiftRight k).toNat ∧ (rolFlags n a.toNat cnt).r = (a.rotateLeft k).toNat ∧
    (rorFlags n a.toNat cnt).r = (a.rotateRight k).toNat ∧
    (∀ r ∈ [shlFlags n a.toNat cnt, shrFlags n a.toNat cnt, sarFlags n a.toNat cnt, rolFlags n a.toNat cnt,
        rorFlags n a.toNat cnt], r.z = (r.r == 0) ∧ r.n = (BitVec.ofNat n r.r).msb ∧ (k = 0 → r.r = a.toNat ∧ r.v = false)) ∧
    (k = 0 → (shlFlags n a.toNat cnt).c = false ∧ (shrFlags n a.toNat cnt).c = false ∧ (sarFlags n a.toNat cnt).c = false ∧
      (rolFlags n a.toNat cnt).c = false ∧ (rorFlags n a.toNat cnt).c = false) ∧
    (k ≠ 0 → (shlFlags n a.toNat cnt).c = a.getLsbD (n - k) ∧ (shrFlags n a.toNat cnt).c = a.getLsbD (k - 1) ∧
      (sarFlags n a.toNat cnt).c = a.getLsbD (k - 1) ∧ (rolFlags n a.toNat cnt).c = a.getLsbD (n - k) ∧
      (rorFlags n a.toNat cnt).c = a.getLsbD (k - 1))

/-- Shifts and rotates by R130: the instructions complete, with these results and flags. -/
def Obligations.ShiftsFollowTheirRule : Prop := threeRowsHold (threeRows.drop 11) ∧ shiftResults

/-- Register and literal operands need no memory: forming them leaves the package, a register is read as it stands, and a
write to one is zero-extended and touches no other register (R115, R120). -/
def Obligations.RegisterOperands : Prop :=
  (∀ e c sp num at_ ds fp p, sp.form = 1 → sp.kind ≠ .e → Yields (formOperand e c sp num at_ ds fp) p
    ({ spec := sp, num := num, loc := .reg sp.reg (c.gGet sp.reg), ptr := none, dev := false }, c) p) ∧
  (∀ e r n v p, r.loc = .reg n v → Yields (readVal e r) p (v.toNat % 2 ^ (8 * r.spec.size)) p) ∧
  (∀ e r n v x c p, r.loc = .reg n v → n < 16 → ∃ c', Yields (writeVal e r x c) p c' p ∧
    c'.gGet n = BitVec.ofNat 64 (x % 2 ^ (8 * r.spec.size)) ∧ (∀ k, k ≠ n → c'.gGet k = c.gGet k) ∧
    c'.psw = c.psw ∧ c'.ip = c.ip ∧ c'.ma = c.ma ∧ c'.cr = c.cr) ∧
  (∀ e r v p, r.loc = .lit v → Yields (readVal e r) p (v % 2 ^ (8 * r.spec.size)) p)

/-- The rows that LOCK makes atomic, with three-operand results: opcode, row, operation sent to a home, use of C, result. -/
def lockRows : List (Nat × CpuRow × Nat × Bool × (Nat → Nat → Nat → Bool → BinRes)) :=
  [(0x10, .add, 2, false, fun n a b _ => addFlags n a b false), (0x11, .sub, 3, false, fun n a b _ => subFlags n a b false),
   (0x12, .adc, 2, true, addFlags), (0x13, .sbb, 3, true, subFlags),
   (0x20, .and, 4, false, fun n a b _ => logicFlags n (a &&& b)), (0x21, .or, 5, false, fun n a b _ => logicFlags n (a ||| b)),
   (0x22, .xor, 6, false, fun n a b _ => logicFlags n (a ^^^ b)),
   (0x23, .andn, 7, false, fun n a b _ => logicFlags n (a &&& notBits n b))]

/-- Atomic instructions: LOCK, CAS and XADD read, compute and write in one access; CAS writes its new value when the old
one is the expected one and returns the old value otherwise; XADD returns the old value and writes the sum, a write of operand 1
into a chain window being answered first (log entry 118) (R109, R128, R145, R146). -/
def Obligations.AtomicInstructions : Prop :=
  (∀ e ∈ lockRows, ∀ s lc f d q a m c q1 va q2 cin old q3, Begins s lc f d q → d.op = e.1 → d.lock = true → d.rep = false →
    Yields (formOperands (envOf s lc d) (lockUse (envOf s lc d) 1) d.ops 0 (s.pkg.core lc)) q ([a, m], c) q1 →
    Yields (readVal (envOf s lc d) a) q1 va q2 → cin = (e.2.2.2.1 && pswC (s.pkg.core lc).psw) →
    Yields (atomicUpdate (envOf s lc d) m e.2.2.1 (leBytes d.size va) cin
      (fun o => some (e.2.2.2.2 (8 * d.size) o va cin).r)) q2 old q3 →
    Completes (e.2.1 lc f) s (Ends s lc q3 { c with psw := (e.2.2.2.2 (8 * d.size) old va cin).setFlags c.psw }
      (envOf s lc d).next)) ∧
  (∀ e ∈ oneRows, ∀ s lc f d q m c q1 old q2, Begins s lc f d q → d.op = e.1 → d.lock = true →
    Yields (formOperands (envOf s lc d) (lockUse (envOf s lc d) 0) d.ops 0 (s.pkg.core lc)) q ([m], c) q1 →
    Yields (atomicUpdate (envOf s lc d) m e.2.2.1 (leBytes d.size 1) false (fun o => some (e.2.2.2 (8 * d.size) o).r)) q1
      old q2 →
    Completes (e.2.1 lc f) s (Ends s lc q2 { c with psw := (e.2.2.2 (8 * d.size) old).setFlags c.psw } (envOf s lc d).next)) ∧
  (∀ s lc f d q a b v c q1 x q2 want q3 new q4 old q5, Begins s lc f d q → d.op = 0x70 →
    Yields (formOperands (envOf s lc d) { OpUse.plain with atomic := (· == 0) } d.ops 0 (s.pkg.core lc)) q ([a, b, v], c) q1 →
    (isWb a = true → Yields (readVal (envOf s lc d) a) q1 x q2) → (isWb a = false → q2 = q1) →
    Yields (readVal (envOf s lc d) b) q2 want q3 → Yields (readVal (envOf s lc d) v) q3 new q4 → (q4.core lc).held = none →
    Yields (atomicUpdate (envOf s lc d) a 1 (leBytes d.size want ++ leBytes d.size new) false
      (fun o => if o = want then some new else none)) q4 old q5 →
    (∀ va, old = want → a.loc = .mem va → Completes (.cas lc f) s
      (Ends s lc q5 { c with psw := (subFlags (8 * d.size) old want false).setFlags c.psw } (envOf s lc d).next)) ∧
    (∀ k v0, old = want → a.loc = .reg k v0 → Completes (.cas lc f) s
      (Ends s lc q5 { c.gSet k (BitVec.ofNat 64 new) with psw := (subFlags (8 * d.size) old want false).setFlags c.psw }
        (envOf s lc d).next)) ∧
    (∀ dst q6 c' q7, old ≠ want → Yields (openDest (envOf s lc d) b (leBytes d.size old)) q5 dst q6 →
      Yields (commitDests s.mode [dst] c) (q6.setCore lc { q6.core lc with held := some old }) c' q7 → Completes (.cas lc f) s
      (Ends s lc q7 { c' with psw := (subFlags (8 * d.size) old want false).setFlags c'.psw } (envOf s lc d).next))) ∧
  (∀ s lc f d q a b c q1 x q2 add q3 db q4 upd da dst, Begins s lc f d q → d.op = 0x71 →
    Yields (formOperands (envOf s lc d) { OpUse.plain with atomic := (· == 0) } d.ops 0 (s.pkg.core lc)) q ([a, b], c) q1 →
    (isWb a = true → Yields (readVal (envOf s lc d) a) q1 x q2) → (isWb a = false → q2 = q1) →
    Yields (readVal (envOf s lc d) b) q2 add q3 → Yields (openDest (envOf s lc d) b (leBytes d.size 0)) q3 db q4 →
    upd = atomicUpdate (envOf s lc d) a 2 (leBytes d.size add) false (fun o => some ((o + add) % 2 ^ (8 * d.size))) →
    da = (fun old => match a.loc with | .reg k _ => [Dest.reg k (addFlags (8 * d.size) old add false).r] | _ => []) →
    dst = (fun old => match db with | .mem x ts _ => Dest.mem x ts (leBytes d.size old) | .reg k _ => .reg k old) →
    (∀ old q5 c' q6, db.chain = false → Yields upd q4 old q5 → Yields (commitDests s.mode (da old ++ [dst old]) c) q5 c' q6 →
      Completes (.xadd lc f) s (Ends s lc q6 { c' with psw := (addFlags (8 * d.size) old add false).setFlags c'.psw }
        (envOf s lc d).next)) ∧
    (∀ old0 c0 q5 old q6 c' q7, db.chain = true → Yields (peek upd) q4 old0 q4 →
      Yields (commitDests s.mode [dst old0] c) q4 c0 q5 → Yields upd q5 old q6 → Yields (commitDests s.mode (da old) c) q6 c' q7 →
      Completes (.xadd lc f) s (Ends s lc q7 { c' with psw := (addFlags (8 * d.size) old add false).setFlags c'.psw }
        (envOf s lc d).next)))

/-- Moves of a value: opcode, row and the value written. -/
def moveRows : List (Nat × CpuRow × (Rand → Nat → Nat)) :=
  [(0x02, .mov, fun _ v => v), (0x03, .movz, fun _ v => v), (0x04, .movs, fun a v => sext (8 * a.spec.size) 64 v)]

/-- Moves write their operand and no flag (R125); NOP only moves IP; MOVA writes an address; XCHG writes both operands; CLR
writes 0. -/
def moveInstructionsClaim : Prop :=
  (∀ s lc f d q, Begins s lc f d q → d.op = 0x01 →
    Completes (.nop lc f) s (Ends s lc q (s.pkg.core lc) (envOf s lc d).next)) ∧
  (∀ e ∈ moveRows, ∀ s lc f d q a w c q1 v q2 c' q3, Begins s lc f d q → d.op = e.1 → d.rep = false →
    Yields (formOperands (envOf s lc d) OpUse.plain d.ops 0 (s.pkg.core lc)) q ([a, w], c) q1 →
    Yields (readVal (envOf s lc d) a) q1 v q2 → Yields (writeVal (envOf s lc d) w (e.2.2 a v) c) q2 c' q3 →
    Completes (e.2.1 lc f) s (Ends s lc q3 c' (envOf s lc d).next)) ∧
  (∀ s lc f d q a w va c q1 c' q2, Begins s lc f d q → d.op = 0x05 →
    Yields (formOperands (envOf s lc d) OpUse.plain d.ops 0 (s.pkg.core lc)) q ([a, w], c) q1 → a.loc = .mem va →
    Yields (writeVal (envOf s lc d) w va c) q1 c' q2 →
    Completes (.mova lc f) s (Ends s lc q2 c' (envOf s lc d).next)) ∧
  (∀ s lc f d q a b c q1 x q2 y q3 d1 q4 d0 q5 c' q6, Begins s lc f d q → d.op = 0x06 →
    Yields (formOperands (envOf s lc d) OpUse.plain d.ops 0 (s.pkg.core lc)) q ([a, b], c) q1 →
    Yields (readBytes (envOf s lc d) a) q1 x q2 → Yields (readBytes (envOf s lc d) b) q2 y q3 →
    Yields (openDest (envOf s lc d) b x) q3 d1 q4 → Yields (openDest (envOf s lc d) a y) q4 d0 q5 →
    Yields (commitDests s.mode [d1, d0] c) q5 c' q6 →
    Completes (.xchg lc f) s (Ends s lc q6 c' (envOf s lc d).next)) ∧
  (∀ s lc f d q a c q1 c' q2, Begins s lc f d q → d.op = 0x07 → d.rep = false →
    Yields (formOperands (envOf s lc d) OpUse.plain d.ops 0 (s.pkg.core lc)) q ([a], c) q1 →
    Yields (writeVal (envOf s lc d) a 0 c) q1 c' q2 →
    Completes (.clr lc f) s (Ends s lc q2 c' (envOf s lc d).next))

/-- The instructions of two operands and of one, comparisons and moves (R125 to R130). -/
def Obligations.TwoOperandAndMoveInstructions : Prop := twoOperandInstructionsClaim ∧ moveInstructionsClaim

/-- The rows that REP repeats. -/
def repRows : List (Nat × CpuRow) :=
  [(0x02, .mov), (0x03, .movz), (0x04, .movs), (0x07, .clr), (0x10, .add), (0x11, .sub), (0x12, .adc), (0x13, .sbb),
   (0x20, .and), (0x21, .or), (0x22, .xor), (0x23, .andn), (0x50, .macB8), (0x51, .macH16), (0x52, .macW32), (0x53, .macF32)]

/-- Under REP a count of 0 in G13 does nothing but move IP; a MOV with a count of 1 writes its element, leaves 0 in G13 and
completes; one that is stopped after one of several elements has written that element, counted G13 down by 1 and left IP at the
instruction, which is partly done (R99, R100, R126). -/
def Obligations.RepeatedInstructions : Prop :=
  (∀ e ∈ repRows, ∀ s lc f d q, Begins s lc f d q → d.op = e.1 → d.rep = true → (s.pkg.core lc).gGet 13 = 0 →
    Completes (e.2 lc f) s (Ends s lc q (s.pkg.core lc) (envOf s lc d).next)) ∧
  (∀ s lc f d q a w c q1 v q2 c' q3, Begins s lc f d q → d.op = 0x02 → d.rep = true → (q.core lc).failed = [] →
    ((s.pkg.core lc).gGet 13).toNat = 1 → f.stop ≠ some 0 →
    Yields (formOperands (envOf s lc d) OpUse.plain d.ops 0 (s.pkg.core lc)) q ([a, w], c) q1 →
    Yields (readVal (envOf s lc d) a) q1 v q2 → Yields (writeVal (envOf s lc d) w v c) q2 c' q3 →
    Completes (.mov lc f) s (Ends s lc q3 (c'.gSet 13 (c'.gGet 13 - 1)) (envOf s lc d).next)) ∧
  (∀ s lc f d q a w c q1 v q2 c' q3, Begins s lc f d q → d.op = 0x02 → d.rep = true → (q.core lc).failed = [] →
    1 < ((s.pkg.core lc).gGet 13).toNat → f.stop = some 1 →
    Yields (formOperands (envOf s lc d) OpUse.plain d.ops 0 (s.pkg.core lc)) q ([a, w], c) q1 →
    Yields (readVal (envOf s lc d) a) q1 v q2 → Yields (writeVal (envOf s lc d) w v c) q2 c' q3 →
    Completes (.mov lc f) s (fun t => (t.pkg.core lc).g = (c'.gSet 13 (c'.gGet 13 - 1)).g ∧ (t.pkg.core lc).ip = c'.ip ∧
      (t.pkg.core lc).psw = c'.psw ∧ (t.pkg.core lc).part = d.len ∧ t.pkg.hbm = q3.hbm))

/-- The core `t` has entered level `lv` from `c` (R95): the save registers of the level hold IP, PSW and the code, IP is at
its vector, interrupts are masked, the level's save registers are in use, and the general registers stay. -/
structure Entered (c t : Core) (lv cause : Nat) (ip0 psw0 : Word) (off : Nat) : Prop where
  ip : t.ip = c.crGet (if lv = 2 then 0x02 else 0x01) + BitVec.ofNat 64 off
  savedIp : t.crGet (if lv = 2 then 0x10 else 0x08) = ip0
  savedPsw : t.crGet (if lv = 2 then 0x11 else 0x09) = psw0
  code : fld (t.crGet (if lv = 2 then 0x12 else 0x0A)) 7 0 = cause
  pl : pswPL t.psw = lv
  imask : pswIMASK t.psw = 15
  xs : pswXS t.psw = true
  rp : pswRP t.psw = false
  flags : fld t.psw 5 0 = fld psw0 5 0
  g : t.g = c.g
  ma : t.ma = c.ma
  part : t.part = 0

/-- Decimal sources: DADD, DSUB, DMUL and DDIV with the value of their result; none for a zero divisor. -/
def decimalRows : List (Nat × CpuRow × (Int → Int → Option Int)) :=
  [(0x30, .dadd, fun a b => some (a + b)), (0x31, .dsub, fun a b => some (a - b)), (0x32, .dmul, fun a b => some (a * b)),
   (0x33, .ddiv, fun a b => if b = 0 then none else some (a.tdiv b))]

/-- The instruction leaves the decimal value `v`, fitted to operand `w`: written and flagged. It completes unless DV sets
while DVE is 1, when the completion trap 0x22 follows: the handler's level is entered with IP after the instruction (R93, R95,
R131, R132). -/
def decimalDone (c : Instr) (s : State) (lc : Lc) (d : Decoded) (w : Rand) (v : Int) (k : Core) (q : Pkg) : Prop :=
  ∀ dst q1 k' q2 r, r = decFit w.spec.size v → Yields (openDest (envOf s lc d) w r.bytes) q dst q1 →
    Yields (commitDests s.mode [dst] k) q1 k' q2 →
    ((r.dv && pswDVE k'.psw) = false →
      Completes c s (Ends s lc q2 { k' with psw := decFlags k'.psw r } (envOf s lc d).next)) ∧
    ((r.dv && pswDVE k'.psw) = true → pswXS k'.psw = false →
      Completes c s (fun t => Entered k' (t.pkg.core lc) (if pswPL k'.psw = 2 then 2 else 1) 0x22 (envOf s lc d).next
        (decFlags k'.psw r) 0x440 ∧ t.pkg.hbm = q2.hbm))

/-- Decimal instructions: sources that are packed decimals give the exact value, fitted to the destination with its flags
(DCMP: flags only, CVTDB: a quad modulo 2^64 with V); the first malformed source takes trap 0x20 and names its operand, a zero
divisor 0x21, a shift count outside −31 to 31 trap 0x01 (R131 to R134). -/
def decimalInstructionsClaim : Prop :=
  (∀ e ∈ decimalRows, ∀ s lc f d q a b w c q1 ba q2 bb q3, Begins s lc f d q → d.op = e.1 →
    Yields (formOperands (envOf s lc d) (decUse 2) d.ops 0 (s.pkg.core lc)) q ([a, b, w], c) q1 →
    Yields (readBytes (envOf s lc d) a) q1 ba q2 → Yields (readBytes (envOf s lc d) b) q2 bb q3 →
    (∀ va vb v, decVal ba = some va → decVal bb = some vb → e.2.2 va vb = some v →
      decimalDone (e.2.1 lc f) s lc d w v c q3) ∧
    (decVal ba = none → exec (e.2.1 lc f) s = .next (stopInstr s lc d.len q3 (.trap { Trap.of 0x20 with opnd := a.num }))) ∧
    (∀ va, decVal ba = some va → decVal bb = none →
      exec (e.2.1 lc f) s = .next (stopInstr s lc d.len q3 (.trap { Trap.of 0x20 with opnd := b.num }))) ∧
    (∀ va vb, decVal ba = some va → decVal bb = some vb → e.2.2 va vb = none →
      exec (e.2.1 lc f) s = .next (stopInstr s lc d.len q3 (.trap (Trap.of 0x21))))) ∧
  (∀ s lc f d q a b c q1 ba q2 bb q3, Begins s lc f d q → d.op = 0x34 →
    Yields (formOperands (envOf s lc d) OpUse.plain d.ops 0 (s.pkg.core lc)) q ([a, b], c) q1 →
    Yields (readBytes (envOf s lc d) a) q1 ba q2 → Yields (readBytes (envOf s lc d) b) q2 bb q3 →
    (∀ va vb, decVal ba = some va → decVal bb = some vb → Completes (.dcmp lc f) s (Ends s lc q3
      { c with psw := setDV (setZNCV c.psw (va == vb) (decide (va < vb)) false false) false } (envOf s lc d).next)) ∧
    (decVal ba = none → exec (.dcmp lc f) s = .next (stopInstr s lc d.len q3 (.trap { Trap.of 0x20 with opnd := a.num }))) ∧
    (∀ va, decVal ba = some va → decVal bb = none →
      exec (.dcmp lc f) s = .next (stopInstr s lc d.len q3 (.trap { Trap.of 0x20 with opnd := b.num })))) ∧
  (∀ s lc f d q a b w c q1 ba q2 vk q3, Begins s lc f d q → d.op = 0x35 →
    Yields (formOperands (envOf s lc d) (decUse 2) d.ops 0 (s.pkg.core lc)) q ([a, b, w], c) q1 →
    Yields (readBytes (envOf s lc d) a) q1 ba q2 → Yields (readVal (envOf s lc d) b) q2 vk q3 →
    (∀ va, -31 ≤ toInt 8 vk → toInt 8 vk ≤ 31 → decVal ba = some va →
      decimalDone (.dshr lc f) s lc d w (decShift va (toInt 8 vk)) c q3) ∧
    (-31 ≤ toInt 8 vk → toInt 8 vk ≤ 31 → decVal ba = none →
      exec (.dshr lc f) s = .next (stopInstr s lc d.len q3 (.trap { Trap.of 0x20 with opnd := a.num }))) ∧
    (toInt 8 vk < -31 ∨ 31 < toInt 8 vk →
      exec (.dshr lc f) s = .next (stopInstr s lc d.len q3 (.trap { Trap.of 0x01 with opnd := 1 })))) ∧
  (∀ s lc f d q a w c q1 ba q2, Begins s lc f d q → d.op = 0x36 →
    Yields (formOperands (envOf s lc d) OpUse.plain d.ops 0 (s.pkg.core lc)) q ([a, w], c) q1 →
    Yields (readBytes (envOf s lc d) a) q1 ba q2 →
    (∀ v c' q3, decVal ba = some v → Yields (writeVal (envOf s lc d) w (ofInt 64 v) c) q2 c' q3 →
      Completes (.cvtdb lc f) s (Ends s lc q3
        { c' with psw := setZNCV c'.psw (v == 0) (decide (v < 0)) false (outside 64 v) } (envOf s lc d).next)) ∧
    (decVal ba = none → exec (.cvtdb lc f) s = .next (stopInstr s lc d.len q2 (.trap { Trap.of 0x20 with opnd := a.num })))) ∧
  (∀ s lc f d q a w c q1 v q2, Begins s lc f d q → d.op = 0x37 →
    Yields (formOperands (envOf s lc d) (decUse 1) d.ops 0 (s.pkg.core lc)) q ([a, w], c) q1 →
    Yields (readVal (envOf s lc d) a) q1 v q2 → decimalDone (.cvtbd lc f) s lc d w (toInt 64 v) c q2) ∧
  (∀ s lc f d q a w c q1 ba q2, Begins s lc f d q → d.op = 0x38 →
    Yields (formOperands (envOf s lc d) (decUse 1) d.ops 0 (s.pkg.core lc)) q ([a, w], c) q1 →
    Yields (readBytes (envOf s lc d) a) q1 ba q2 →
    (∀ v, decVal ba = some v → decimalDone (.dmov lc f) s lc d w v c q2) ∧
    (decVal ba = none → exec (.dmov lc f) s = .next (stopInstr s lc d.len q2 (.trap { Trap.of 0x20 with opnd := a.num }))))

/-- Fitting a value to L bytes keeps its 2L−1 low digits and its sign, sets DV when digits are lost, and what is written
reads back as a packed decimal of that value; it carries sign 0xB below zero and 0xA otherwise, at zero too. A shift to the right
rounds half away from zero, one to the left multiplies (R86, R131, R133). -/
def decimalResultsReadBackClaim : Prop :=
  (∀ (l : Nat) (v : Int), 1 ≤ l → l ≤ 16 →
    (decFit l v).bytes.length = l ∧ decVal (decFit l v).bytes = some (decFit l v).val ∧
    ((decFit l v).dv = true ↔ (10 ^ (2 * l - 1) : Nat) ≤ v.natAbs) ∧
    (v.natAbs < 10 ^ (2 * l - 1) → (decFit l v).val = v) ∧
    (decFit l v).val.natAbs = v.natAbs % 10 ^ (2 * l - 1) ∧
    ((decFit l v).bytes.getLastD 0).toNat % 16 = if (decFit l v).val < 0 then 0xB else 0xA) ∧
  (∀ (v : Int) (n : Nat), decShift v (-n) = v * 10 ^ n ∧
    2 * (v - decShift v n * 10 ^ n).natAbs ≤ 10 ^ n ∧
    (2 * (v - decShift v n * 10 ^ n).natAbs = 10 ^ n → v.natAbs ≤ (decShift v n * 10 ^ n).natAbs))

/-- Decimal instructions, and what they write (R86, R93, R95, R131 to R134). -/
def Obligations.DecimalInstructionsAreExact : Prop := decimalInstructionsClaim ∧ decimalResultsReadBackClaim

/-- A byte-wise restartable instruction has ended: G13 and RP are 0 (R100). -/
def byteDone (c : Core) : Core := { c.gSet 13 0 with psw := setBit c.psw 7 false }

/-- FSCAN, FXLAT and FMOVE: opcode, row, the treatment of one byte, and the steps beyond the length (FSCAN looks at the end). -/
def fieldLoopRows : List (Nat × CpuRow × (Env → Rand → Rand → Nat → ByteStep Bool) × Nat) :=
  [(0x40, .fscan, fscanStep, 1), (0x41, .fxlat, fun e a b _ => fxlatStep e a b, 0), (0x42, .fmove, fmoveStep, 0)]

/-- Field instructions and EDIT: their bytes are treated in turn from the offset at which the execution begins, and they
complete with G13 and RP cleared, or stop with the bytes done in G13, RP set and IP at the instruction; FFILL and FCMP do the whole
field at once. A length above 4,096 takes trap 0x01 before anything is treated, and so does a pattern of EDIT that has no END,
holds a reserved code or asks for another number of digits; a malformed source of EDIT takes 0x20 (R92, R100, R124, R135 to
R138). -/
def Obligations.FieldInstructions : Prop :=
  (∀ s lc f d q a b l c q1 n q2 i k x q3 c' q4, Begins s lc f d q → d.op = 0x40 →
    Yields (formOperands (envOf s lc d) OpUse.plain d.ops 0 (s.pkg.core lc)) q ([a, b, l], c) q1 →
    Yields (readVal (envOf s lc d) l) q1 n q2 → n ≤ 4096 →
    Yields (byteLoop (envOf s lc d) (s.pkg.core lc) (fscanStep (envOf s lc d) a b n) (n + 1 - startOffset (s.pkg.core lc))
      f.stop (startOffset (s.pkg.core lc)) 0 false) q2 (i, k, x, .finished) q3 →
    Yields (writeVal (envOf s lc d) l (min i n) c) q3 c' q4 →
    Completes (.fscan lc f) s (Ends s lc q4
      (byteDone { c' with psw := setZNCV c'.psw (decide (min i n < n)) false false false }) (envOf s lc d).next)) ∧
  (∀ s lc f d q a b l c q1 n q2 i k x q3, Begins s lc f d q → d.op = 0x41 →
    Yields (formOperands (envOf s lc d) OpUse.plain d.ops 0 (s.pkg.core lc)) q ([a, b, l], c) q1 →
    Yields (readVal (envOf s lc d) l) q1 n q2 → n ≤ 4096 →
    Yields (byteLoop (envOf s lc d) (s.pkg.core lc) (fxlatStep (envOf s lc d) a b) (n - startOffset (s.pkg.core lc))
      f.stop (startOffset (s.pkg.core lc)) 0 false) q2 (i, k, x, .finished) q3 →
    Completes (.fxlat lc f) s (Ends s lc q3 (byteDone c) (envOf s lc d).next)) ∧
  (∀ s lc f d q a b l c q1 n q2 i k x q3, Begins s lc f d q → d.op = 0x42 →
    Yields (formOperands (envOf s lc d) OpUse.plain d.ops 0 (s.pkg.core lc)) q ([a, b, l], c) q1 →
    Yields (readVal (envOf s lc d) l) q1 n q2 → n ≤ 4096 →
    Yields (byteLoop (envOf s lc d) (s.pkg.core lc) (fmoveStep (envOf s lc d) a b n) (n - startOffset (s.pkg.core lc))
      f.stop (startOffset (s.pkg.core lc)) 0 false) q2 (i, k, x, .finished) q3 →
    Completes (.fmove lc f) s (Ends s lc q3 (byteDone c) (envOf s lc d).next)) ∧
  (∀ s lc f d q a b l c q1 v q2 n q3 dev q4 ts q5 c' q6 va, Begins s lc f d q → d.op = 0x43 →
    Yields (formOperands (envOf s lc d) OpUse.plain d.ops 0 (s.pkg.core lc)) q ([a, b, l], c) q1 → a.loc = .mem va →
    Yields (readVal (envOf s lc d) l) q1 n q2 → n ≤ 4096 → Yields (checkMem ((envOf s lc d).at a) va n [1]) q2 dev q3 →
    Yields (readBytes (envOf s lc d) b) q3 v q4 → Yields (openMem ((envOf s lc d).at a) va n) q4 ts q5 →
    Yields (commitDests s.mode [.mem ((envOf s lc d).at a) ts (List.replicate n (v.headD 0))] c) q5 c' q6 →
    Completes (.ffill lc f) s (Ends s lc q6 c' (envOf s lc d).next)) ∧
  (∀ s lc f d q a b l c q1 n q2 d1 q3 d2 q4 x q5 y q6 va vb, Begins s lc f d q → d.op = 0x44 →
    Yields (formOperands (envOf s lc d) OpUse.plain d.ops 0 (s.pkg.core lc)) q ([a, b, l], c) q1 →
    a.loc = .mem va → b.loc = .mem vb → Yields (readVal (envOf s lc d) l) q1 n q2 → n ≤ 4096 →
    Yields (checkMem ((envOf s lc d).at a) va n [0]) q2 d1 q3 → Yields (checkMem ((envOf s lc d).at b) vb n [0]) q3 d2 q4 →
    Yields (readMem ((envOf s lc d).at a) s.mode va n) q4 x q5 → Yields (readMem ((envOf s lc d).at b) s.mode vb n) q5 y q6 →
    (x = y → Completes (.fcmp lc f) s (Ends s lc q6 { c with psw := setZNCV c.psw true false false false }
      (envOf s lc d).next)) ∧
    (∀ pre u v x' y', x = pre ++ u :: x' → y = pre ++ v :: y' → u ≠ v → Completes (.fcmp lc f) s
      (Ends s lc q6 { c with psw := setZNCV c.psw false false (decide (u.toNat < v.toNat)) false } (envOf s lc d).next))) ∧
  (∀ s lc f d q a b w c q1 r q2 ba q3, Begins s lc f d q → d.op = 0x39 →
    Yields (formOperands (envOf s lc d) OpUse.plain d.ops 0 (s.pkg.core lc)) q ([a, b, w], c) q1 →
    Yields (readPattern (envOf s lc d) ((envOf s lc d).at b) (b.va.headD 0) 4096 0 [] 0) q1 r q2 →
    Yields (readBytes (envOf s lc d) a) q2 ba q3 →
    (∀ pat digs ds sg st q4 i k x q5, r = some (pat, digs) → digs = 2 * a.spec.size - 1 → decParts ba = some (ds, sg) →
      Yields (editSkip (editByte (envOf s lc d) b) ds (sg && digitsVal ds != 0) (startOffset (s.pkg.core lc)) EditSt.start) q3
        st q4 →
      Yields (byteLoop (envOf s lc d) (s.pkg.core lc) (editStep (envOf s lc d) a b w) (4096 * 32)
        f.stop (startOffset (s.pkg.core lc)) 0 st) q4 (i, k, x, .finished) q5 →
      Completes (.edit lc f) s (Ends s lc q5 (byteDone { c with
        psw := setZNCV c.psw (digitsVal ds == 0) (sg && digitsVal ds != 0) false false }) (envOf s lc d).next)) ∧
    (r = none ∨ (∃ pat digs, r = some (pat, digs) ∧ digs ≠ 2 * a.spec.size - 1) →
      exec (.edit lc f) s = .next (stopInstr s lc d.len q3 (.trap { Trap.of 0x01 with opnd := 1 }))) ∧
    (∀ pat, r = some (pat, 2 * a.spec.size - 1) → decParts ba = none →
      exec (.edit lc f) s = .next (stopInstr s lc d.len q3 (.trap { Trap.of 0x20 with opnd := 0 })))) ∧
  (∀ e ∈ fieldLoopRows, ∀ s lc f d q a b l c q1 n q2 i k x keep q3, Begins s lc f d q → d.op = e.1 →
    Yields (formOperands (envOf s lc d) OpUse.plain d.ops 0 (s.pkg.core lc)) q ([a, b, l], c) q1 →
    Yields (readVal (envOf s lc d) l) q1 n q2 → n ≤ 4096 →
    Yields (byteLoop (envOf s lc d) (s.pkg.core lc) (e.2.2.1 (envOf s lc d) a b n) (n + e.2.2.2 - startOffset (s.pkg.core lc))
      f.stop (startOffset (s.pkg.core lc)) 0 false) q2 (i, k, x, .stopped keep) q3 → k ≠ 0 →
    Completes (e.2.1 lc f) s (fun t => (t.pkg.core lc).g = ((s.pkg.core lc).gSet 13 (BitVec.ofNat 64 i)).g ∧
      (t.pkg.core lc).psw = setBit (s.pkg.core lc).psw 7 true ∧ (t.pkg.core lc).ip = (s.pkg.core lc).ip ∧
      (t.pkg.core lc).part = d.len ∧ t.pkg.hbm = q3.hbm)) ∧
  (∀ s lc f d q a b l c q1 n q2 v q3, Begins s lc f d q → d.op = 0x43 →
    Yields (formOperands (envOf s lc d) OpUse.plain d.ops 0 (s.pkg.core lc)) q ([a, b, l], c) q1 →
    Yields (readVal (envOf s lc d) l) q1 n q2 → 4096 < n → Yields (readBytes (envOf s lc d) b) q2 v q3 →
    exec (.ffill lc f) s = .next (stopInstr s lc d.len q3 (.trap { Trap.of 0x01 with opnd := 2 }))) ∧
  (∀ e ∈ ([(0x40, .fscan), (0x41, .fxlat), (0x42, .fmove), (0x44, .fcmp)] : List (Nat × CpuRow)), ∀ s lc f d q a b l c q1 n q2,
    Begins s lc f d q → d.op = e.1 →
    Yields (formOperands (envOf s lc d) OpUse.plain d.ops 0 (s.pkg.core lc)) q ([a, b, l], c) q1 →
    Yields (readVal (envOf s lc d) l) q1 n q2 → 4096 < n →
    exec (e.2 lc f) s = .next (stopInstr s lc d.len q2 (.trap { Trap.of 0x01 with opnd := 2 })))

/-- MAC rows: the accumulator after an element, and its sticky bits. -/
def macRows : List (Nat × CpuRow × (Nat → List Byte → List Byte → Nat × Sticky)) :=
  [(0x50, .macB8, fun acc a b => (macInt 1 acc a b, Sticky.none)), (0x51, .macH16, fun acc a b => (macInt 2 acc a b, Sticky.none)),
   (0x52, .macW32, fun acc a b => (macInt 4 acc a b, Sticky.none)),
   (0x53, .macF32, fun acc a b => ((macF32 acc a b).bits, (macF32 acc a b).st))]

/-- Multiply-accumulate: an element adds to its accumulator and to no other register; MACLR, MARD and MAWR clear, store and
load one (R139 to R141). -/
def macInstructionsClaim : Prop :=
  (∀ e ∈ macRows, ∀ s lc f d q a b m c q1 x q2 y q3 r, Begins s lc f d q → d.op = e.1 → d.rep = false →
    Yields (formOperands (envOf s lc d) OpUse.plain d.ops 0 (s.pkg.core lc)) q ([a, b, m], c) q1 →
    Yields (readBytes (envOf s lc d) a) q1 x q2 → Yields (readBytes (envOf s lc d) b) q2 y q3 →
    r = e.2.2 (c.maGet m.spec.reg) x y →
    Completes (e.2.1 lc f) s (Ends s lc q3 { c.maSet m.spec.reg r.1 with psw := r.2.toPsw c.psw } (envOf s lc d).next)) ∧
  (∀ s lc f d q m c q1, Begins s lc f d q → d.op = 0x54 →
    Yields (formOperands (envOf s lc d) OpUse.plain d.ops 0 (s.pkg.core lc)) q ([m], c) q1 →
    Completes (.maclr lc f) s (Ends s lc q1 (c.maSet m.spec.reg 0) (envOf s lc d).next)) ∧
  (∀ s lc f d q m a va c q1 dev q2 ts q3 c' q4, Begins s lc f d q → d.op = 0x55 →
    Yields (formOperands (envOf s lc d) OpUse.plain d.ops 0 (s.pkg.core lc)) q ([m, a], c) q1 → a.loc = .mem va →
    Yields (checkMem ((envOf s lc d).at a) va 16 [1]) q1 dev q2 → Yields (openMem ((envOf s lc d).at a) va 16) q2 ts q3 →
    Yields (commitDests s.mode [.mem ((envOf s lc d).at a) ts (leBytes 16 (c.maGet m.spec.reg))] c) q3 c' q4 →
    Completes (.mard lc f) s (Ends s lc q4 c' (envOf s lc d).next)) ∧
  (∀ s lc f d q m a va c q1 dev q2 b q3, Begins s lc f d q → d.op = 0x56 →
    Yields (formOperands (envOf s lc d) OpUse.plain d.ops 0 (s.pkg.core lc)) q ([a, m], c) q1 → a.loc = .mem va →
    Yields (checkMem ((envOf s lc d).at a) va 16 [0]) q1 dev q2 → Yields (readMem ((envOf s lc d).at a) s.mode va 16) q2 b q3 →
    Completes (.mawr lc f) s (Ends s lc q3 (c.maSet m.spec.reg (leNat b)) (envOf s lc d).next)) ∧
  (∀ (c : Core) (i j v : Nat), i < 4 → (c.maSet i v).maGet i = v % 2 ^ 128 ∧ (j ≠ i → (c.maSet i v).maGet j = c.maGet j) ∧
    (c.maSet i v).g = c.g ∧ (c.maSet i v).psw = c.psw)

/-- Floating-point rows with three operands. -/
def float3Rows : List (Nat × CpuRow × (Nat → Nat → FpRes)) :=
  [(0x58, .faddD, fun a b => fmtD.add a b false), (0x59, .fsubD, fun a b => fmtD.add a b true), (0x5A, .fmulD, fmtD.mul),
   (0x5B, .fdivD, fmtD.div), (0x60, .faddS, fun a b => fmtS.add a b false), (0x61, .fsubS, fun a b => fmtS.add a b true),
   (0x62, .fmulS, fmtS.mul), (0x63, .fdivS, fmtS.div)]

/-- Floating-point rows with two operands; the flag tells that the source is floating-point. -/
def float2Rows : List (Nat × CpuRow × Bool × (Nat → FpRes)) :=
  [(0x5D, .fsqrtD, true, fmtD.sqrt), (0x5E, .cvtdq, true, fmtD.toQuad), (0x5F, .cvtqd, false, fmtD.ofQuad),
   (0x65, .fsqrtS, true, fmtS.sqrt), (0x66, .cvtsq, true, fmtS.toQuad), (0x67, .cvtqs, false, fmtS.ofQuad),
   (0x68, .cvtsd, true, fmtS.convert fmtD), (0x69, .cvtds, true, fmtD.convert fmtS)]

/-- Floating-point comparisons. -/
def floatCmpRows : List (Nat × CpuRow × Fmt) := [(0x5C, .fcmpD, fmtD), (0x64, .fcmpS, fmtS)]

/-- Floating-point instructions write their result and add to the sticky bits of the PSW; comparisons write Z, N, C and V
(R142 to R144). -/
def floatInstructionsClaim : Prop :=
  (∀ e ∈ float3Rows, ∀ s lc f d q a b w c q1 x q2 y q3 c' q4, Begins s lc f d q → d.op = e.1 →
    Yields (formOperands (envOf s lc d) (fpUse 2) d.ops 0 (s.pkg.core lc)) q ([a, b, w], c) q1 →
    Yields (readVal (envOf s lc d) a) q1 x q2 → Yields (readVal (envOf s lc d) b) q2 y q3 →
    Yields (writeVal (envOf s lc d) w (e.2.2 x y).bits c) q3 c' q4 →
    Completes (e.2.1 lc f) s (Ends s lc q4 { c' with psw := (e.2.2 x y).st.toPsw c'.psw } (envOf s lc d).next)) ∧
  (∀ e ∈ float2Rows, ∀ s lc f d q a w c q1 x q2 c' q3, Begins s lc f d q → d.op = e.1 →
    Yields (formOperands (envOf s lc d) (fpUse e.2.2.1.toNat) d.ops 0 (s.pkg.core lc)) q ([a, w], c) q1 →
    Yields (readVal (envOf s lc d) a) q1 x q2 → Yields (writeVal (envOf s lc d) w (e.2.2.2 x).bits c) q2 c' q3 →
    Completes (e.2.1 lc f) s (Ends s lc q3 { c' with psw := (e.2.2.2 x).st.toPsw c'.psw } (envOf s lc d).next)) ∧
  (∀ e ∈ floatCmpRows, ∀ s lc f d q a b c q1 x q2 y q3, Begins s lc f d q → d.op = e.1 →
    Yields (formOperands (envOf s lc d) (fpUse 2) d.ops 0 (s.pkg.core lc)) q ([a, b], c) q1 →
    Yields (readVal (envOf s lc d) a) q1 x q2 → Yields (readVal (envOf s lc d) b) q2 y q3 →
    Completes (e.2.1 lc f) s (Ends s lc q3 { c with
      psw := Sticky.toPsw { Sticky.none with fi := (e.2.2.unpack x).isSig || (e.2.2.unpack y).isSig }
        (fcmpFlags c.psw (e.2.2.less x y)) } (envOf s lc d).next))

/-- Multiply-accumulate and floating-point instructions (R139 to R144). -/
def Obligations.MacAndFloatInstructions : Prop := macInstructionsClaim ∧ floatInstructionsClaim

/-! ### Pelmund instructions: control, traps and the system -/

/-- The conditions of the table of R89. -/
def conditionTable (z n c v dv : Bool) : List Bool :=
  [z, !z, c, !c, n, !n, v, !v, !c && !z, c || z, n == v, n != v, !z && n == v, z || n != v, dv, true]

/-- Control flow: JMP, CALL and a taken B.cc go to a canonical target and take trap 0x10 on another, SET.cc writes the
condition, which is that of the table, WAITF suspends for n ticks or sets Z at once, RETX restores the saved IP and PSW of its
level, or takes trap 0x08 on a saved PSW that it refuses (R89, R98, R147, R148). -/
def Obligations.ControlFlow : Prop :=
  (∀ s lc f d q a va c q1, Begins s lc f d q → d.op = 0x80 →
    Yields (formOperands (envOf s lc d) OpUse.plain d.ops 0 (s.pkg.core lc)) q ([a], c) q1 → a.loc = .mem va →
    (canonical va = true → Completes (.jmp lc f) s (Ends s lc q1 c (BitVec.ofNat 64 va))) ∧
    (canonical va = false → exec (.jmp lc f) s =
      .next (stopInstr s lc d.len q1 (.trap { Trap.of 0x10 with acc := 2, opnd := 0, xaddr := va })))) ∧
  (∀ s lc f d q sa sb a va c q1 b c1 q2 c' q3, Begins s lc f d q → d.op = 0x81 → d.ops = [sa, sb] →
    Yields (formOperand (envOf s lc d) (s.pkg.core lc) sa 0 false false false) q (a, c) q1 → a.loc = .mem va →
    (canonical va = true → Yields (formOperand (envOf s lc d) c sb 1 false false false) q1 (b, c1) q2 →
      Yields (writeVal (envOf s lc d) b (envOf s lc d).next.toNat c1) q2 c' q3 →
      Completes (.call lc f) s (Ends s lc q3 c' (BitVec.ofNat 64 va))) ∧
    (canonical va = false → exec (.call lc f) s =
      .next (stopInstr s lc d.len q1 (.trap { Trap.of 0x10 with acc := 2, opnd := 0, xaddr := va })))) ∧
  (∀ s lc f d q a va c q1, Begins s lc f d q → 0x90 ≤ d.op → d.op ≤ 0x9F →
    Yields (formOperands (envOf s lc d) OpUse.plain d.ops 0 (s.pkg.core lc)) q ([a], c) q1 → a.loc = .mem va →
    (condHolds c.psw (d.op % 16) = true → canonical va = true →
      Completes (.bCc lc f) s (Ends s lc q1 c (BitVec.ofNat 64 va))) ∧
    (condHolds c.psw (d.op % 16) = true → canonical va = false → exec (.bCc lc f) s =
      .next (stopInstr s lc d.len q1 (.trap { Trap.of 0x10 with acc := 2, opnd := 0, xaddr := va }))) ∧
    (condHolds c.psw (d.op % 16) = false → Completes (.bCc lc f) s (Ends s lc q1 c (envOf s lc d).next))) ∧
  (∀ s lc f d q a c q1 c' q2, Begins s lc f d q → 0xA0 ≤ d.op → d.op ≤ 0xAF →
    Yields (formOperands (envOf s lc d) OpUse.plain d.ops 0 (s.pkg.core lc)) q ([a], c) q1 →
    Yields (writeVal (envOf s lc d) a (if condHolds c.psw (d.op % 16) then 1 else 0) c) q1 c' q2 →
    Completes (.setCc lc f) s (Ends s lc q2 c' (envOf s lc d).next)) ∧
  (∀ s lc f d q a c q1 n q2, Begins s lc f d q → d.op = 0x85 →
    Yields (formOperands (envOf s lc d) OpUse.plain d.ops 0 (s.pkg.core lc)) q ([a], c) q1 →
    Yields (readVal (envOf s lc d) a) q1 n q2 →
    (n = 0 → Completes (.waitf lc f) s (Ends s lc q2 { c with psw := setBit c.psw 1 true } (envOf s lc d).next)) ∧
    (n ≠ 0 → Completes (.waitf lc f) s (Ends s lc q2 { c with run := .waiting n } (envOf s lc d).next))) ∧
  (∀ s lc f d q c, Begins s lc f d q → d.op = 0x84 → (s.pkg.core lc).pl ≠ 0 → (s.pkg.core lc).retx = some c →
    Completes (.retx lc f) s (Ends s lc q c c.ip)) ∧
  (∀ s lc f d q, Begins s lc f d q → d.op = 0x84 → (s.pkg.core lc).pl ≠ 0 → (s.pkg.core lc).retx = none →
    exec (.retx lc f) s = .next (stopInstr s lc d.len q (.trap (Trap.of 0x08)))) ∧
  (∀ (w : Word) (k : Nat), k < 16 → condHolds w k =
    (conditionTable (bit w 1) (bit w 2) (bit w 0) (bit w 3) (bit w 4)).getD k false) ∧
  (∀ (c : Core) (b : Nat), b = (if c.pl = 2 then 0x10 else 0x08) → c.pl < pswPL (c.crGet (b + 1)) ∨
    pswPL (c.crGet (b + 1)) = 3 ∨ c.crGet (b + 1) &&& 0xFFFFFFFFFF0C0040 ≠ 0 → c.retx = none) ∧
  (∀ (c : Core) (b : Nat), c.pl = 1 ∨ c.pl = 2 → b = (if c.pl = 2 then 0x10 else 0x08) → pswPL (c.crGet (b + 1)) ≤ c.pl →
    pswPL (c.crGet (b + 1)) ≠ 3 → c.crGet (b + 1) &&& 0xFFFFFFFFFF0C0040 = 0 →
    c.retx = some { c with psw := c.crGet (b + 1), ip := c.crGet b })

/-- A synchronous cause enters the level that handles it: its own level for U and S causes, M for causes of M, and M with
NEST when the save registers of S are in use; at M with those of M in use the core stops (R90, R95, R97). -/
def trapsEnterTheirLevelClaim : Prop :=
  (∀ s lc len p t (c : Core) (lv : Nat), c = p.core lc → lv = t.level c.pl → c.pl ≤ 2 → t.code < 256 →
    ¬(pswXS c.psw = true ∧ c.pl = lv) →
    Entered c ((stopInstr s lc len p (.trap t)).pkg.core lc) lv t.code (s.pkg.core lc).ip c.psw (t.code * 32)) ∧
  (∀ s lc len p t (c : Core), c = p.core lc → c.pl = 1 → t.level 1 = 1 → pswXS c.psw = true → t.code < 256 →
    Entered c ((stopInstr s lc len p (.trap t)).pkg.core lc) 2 t.code (s.pkg.core lc).ip c.psw (t.code * 32) ∧
    bit (((stopInstr s lc len p (.trap t)).pkg.core lc).crGet 0x12) 29 = true) ∧
  (∀ s lc len p t, (p.core lc).pl = 2 → pswXS (p.core lc).psw = true → t.level 2 = 2 →
    ((stopInstr s lc len p (.trap t)).pkg.core lc).run = .stopped)

/-- A system call ends its instruction and enters S or M with the operand in XADDR and IP after the call (R83, R95); an
interrupt clears its pending bit and enters the level of ILVL, in WAITF with the IP of that instruction's end and Z telling whether its time
had come; none is taken while an instruction waits for an answer (R95, R103, R107, R148); a posted write that failed enters M
(R568); a reserved opcode takes trap 0x01 (R112, R113); WAITF resumes with Z set once its time has come (R148). -/
def callsAndInterruptsEnterTheirLevelClaim : Prop :=
  (∀ s lc f d q a c q1 v q2, Begins s lc f d q → d.op = 0x82 →
    Yields (formOperands (envOf s lc d) OpUse.plain d.ops 0 (s.pkg.core lc)) q ([a], c) q1 →
    Yields (readVal (envOf s lc d) a) q1 v q2 → (s.pkg.core lc).pl = 0 ∨ (s.pkg.core lc).pl = 1 → c.psw = (s.pkg.core lc).psw →
    ¬(pswXS c.psw = true ∧ c.pl = 1) →
    Completes (.scall lc f) s (fun t => Entered c (t.pkg.core lc) 1 0x50 (envOf s lc d).next c.psw 0xC00 ∧
      (t.pkg.core lc).crGet 0x0B = BitVec.ofNat 64 v ∧ t.pkg.hbm = q2.hbm)) ∧
  (∀ s lc f d q a c q1 v q2, Begins s lc f d q → d.op = 0x83 →
    Yields (formOperands (envOf s lc d) OpUse.plain d.ops 0 (s.pkg.core lc)) q ([a], c) q1 →
    Yields (readVal (envOf s lc d) a) q1 v q2 → (s.pkg.core lc).pl = 1 ∨ (s.pkg.core lc).pl = 2 → c.psw = (s.pkg.core lc).psw →
    ¬(pswXS c.psw = true ∧ c.pl = 2) →
    Completes (.mcall lc f) s (fun t => Entered c (t.pkg.core lc) 2 0x51 (envOf s lc d).next c.psw 0xC00 ∧
      (t.pkg.core lc).crGet 0x13 = BitVec.ofNat 64 v ∧ t.pkg.hbm = q2.hbm)) ∧
  (∀ s lc i, s.pkg.interruptible s.mode lc = true → (s.pkg.core lc).nextInt = some i → (s.pkg.core lc).run = .executing →
    Completes (.interruptDelivery lc) s (fun t =>
      Entered (s.pkg.core lc) (t.pkg.core lc) ((s.pkg.core lc).intLevel i) 0x40 (s.pkg.core lc).ip (s.pkg.core lc).psw 0x800 ∧
      t.pkg.hbm = s.pkg.hbm ∧ t.pkg.pages = s.pkg.pages)) ∧
  (∀ s lc i n, s.pkg.interruptible s.mode lc = true → (s.pkg.core lc).nextInt = some i → (s.pkg.core lc).run = .waiting n →
    Completes (.interruptDelivery lc) s (fun t =>
      Entered (s.pkg.core lc) (t.pkg.core lc) ((s.pkg.core lc).intLevel i) 0x40 (s.pkg.core lc).ip
        (setBit (s.pkg.core lc).psw 1 (n == 0)) 0x800 ∧
      (t.pkg.core lc).run = .executing ∧ t.pkg.hbm = s.pkg.hbm ∧ t.pkg.pages = s.pkg.pages)) ∧
  (∀ s lc, s.pkg.interruptible s.mode lc = false ∨ (s.pkg.core lc).nextInt = none → exec (.interruptDelivery lc) s = .next s) ∧
  (∀ (s : State) lc, (s.pkg.core lc).io ≠ [] → s.pkg.interruptible s.mode lc = false) ∧
  (∀ s lc pa, s.pkg.interruptible s.mode lc = false ∨ pa ∉ (s.pkg.core lc).failed →
    exec (.deviceWriteMachineCheck lc pa) s = .next s) ∧
  (∀ s lc, (s.pkg.core lc).run ≠ .waiting 0 ∨ s.pkg.coreLive s.mode lc = false → exec (.waitfResume lc) s = .next s) ∧
  (∀ (c : Core) i, c.nextInt = some i → c.deliverable i = true ∧ (∀ j, i < j → j < 256 → c.deliverable j = false) ∧
    (c.interrupt i).pend.getLsbD i = false ∧ ∀ j, j ≠ i → (c.interrupt i).pend.getLsbD j = c.pend.getLsbD j) ∧
  (∀ s lc pa, s.pkg.interruptible s.mode lc = true → pa ∈ (s.pkg.core lc).failed → (s.pkg.core lc).run = .executing →
    ¬(pswXS (s.pkg.core lc).psw = true ∧ (s.pkg.core lc).pl = 2) → (s.pkg.core lc).pl ≤ 2 →
    Completes (.deviceWriteMachineCheck lc pa) s (fun t =>
      Entered (s.pkg.core lc) (t.pkg.core lc) 2 0x31 (s.pkg.core lc).ip (s.pkg.core lc).psw 0x620 ∧
      (t.pkg.core lc).crGet 0x13 = BitVec.ofNat 64 pa ∧ (t.pkg.core lc).failed = (s.pkg.core lc).failed.erase pa)) ∧
  (∀ s lc f n op q, s.pkg.coreReady s.mode lc = true → ((s.pkg.core lc).io = [] → (s.pkg.core lc).failed = []) →
    decodePelmund f.code = .error (.fault 0x01 n (some op)) → opDefined op = false →
    Yields (fetchBytes (s.pkg.ctx lc Decoded.zero) s.mode (s.pkg.core lc).ip.toNat n)
      (s.pkg.beginInstr lc false) () q →
    Completes (.illegalOpcode lc f) s (fun t => t = stopInstr s lc 0 q (.trap (Trap.of 0x01)))) ∧
  (∀ s lc, (s.pkg.core lc).run = .waiting 0 → s.pkg.coreLive s.mode lc = true →
    Completes (.waitfResume lc) s (fun t => t = { s with pkg := s.pkg.setCore lc { s.pkg.core lc with
      run := .executing, psw := setBit (s.pkg.core lc).psw 1 true } }))

/-- Every entry into a level: synchronous causes, calls, interrupts, machine checks (R83, R90, R95, R97, R103, R568). -/
def Obligations.TrapsCallsAndInterruptsEnterTheirLevel : Prop := trapsEnterTheirLevelClaim ∧ callsAndInterruptsEnterTheirLevelClaim

/-- The rows that a level may not run: opcode, row, and whether the level may not. -/
def privilegedRows : List (Nat × CpuRow × (Nat → Bool)) :=
  [(0x82, .scall, fun pl => pl == 2), (0x83, .mcall, fun pl => pl == 0), (0x84, .retx, fun pl => pl == 0),
   (0xE000, .tinv, fun pl => pl == 0), (0xE001, .tsync, fun pl => pl == 0), (0xE005, .cinva, fun pl => pl == 0),
   (0xE006, .cwba, fun pl => pl == 0), (0xE007, .cflusha, fun pl => pl == 0), (0xE008, .clockw, fun pl => pl != 2),
   (0xE009, .cunlock, fun pl => pl != 2)]

/-- A privileged instruction at a level that may not run it takes trap 0x08 before its operands are touched; an instruction of
a core that does not execute leaves the state (R54, R90, R92, R98, R147, R149). -/
def Obligations.PrivilegedInstructionsTrap : Prop :=
  (∀ e ∈ privilegedRows, ∀ s lc f d q, Begins s lc f d q → d.op = e.1 → e.2.2 (s.pkg.core lc).pl = true →
    ∃ t : Trap, t.code = 0x08 ∧ exec (e.2.1 lc f) s = .next (stopInstr s lc d.len q (.trap t))) ∧
  (∀ e ∈ privilegedRows, ∀ s lc f, s.pkg.coreReady s.mode lc = false → exec (e.2.1 lc f) s = .next s) ∧
  (∀ e ∈ threeRows, ∀ s lc f, s.pkg.coreReady s.mode lc = false → exec (e.2.1 lc f) s = .next s)

/-- TINV leaves no translation of a unit that its scope names (R150, R218): `pid` is the partition, `m` that the caller runs
at M. -/
def tinvLeavesNoneClaim : Prop :=
  ∀ (x y : PhysUnit) (scope pid a : Nat) (m : Bool), y = tinvUnit scope pid m a x →
    (∀ e, e ∈ y.itlb ++ y.dtlb ++ y.l2tlb → e ∈ x.itlb ++ x.dtlb ++ x.l2tlb ∧
      ((e.mregime = false ∧ e.pid = pid) ∨ (m = true ∧ e.mregime = true) →
        scope ≠ 1 ∧ (scope = 0 → ¬(e.vbase < a / 4096 * 4096 + 4096 ∧ a / 4096 * 4096 < e.vbase + e.size))) ∧
      (e.mregime = false → e.pid = pid → scope ≠ 3 ∧
        (scope = 2 → ¬(e.s2base < a / 4096 * 4096 + 4096 ∧ a / 4096 * 4096 < e.s2base + e.s2size)))) ∧
    (∀ e, e ∈ y.wc → e ∈ x.wc ∧ (e.mregime = false → e.pid = pid →
      scope ≠ 3 ∧ scope ≠ 4 ∧ (e.stage2 = false → scope ≠ 1) ∧ (e.stage2 = true → scope ≠ 2) ∧
      (e.stage2 = false → scope = 0 → e.prefix_ ≠ a % 2 ^ 48 / lvlSize e.lvl)))

/-- System instructions: control registers and counters are read and written at a level that may and fault as R81 gives
otherwise, IPISEND sets an interrupt pending, drops it for a target that is VACANT, FENCED or none, and takes trap 0x08 at U or
for a core of another partition, TINV empties the translations of its scope in every unit, TSYNC completes (R81, R104, R105, R149
to R151, R218, R511). -/
def systemInstructionsClaim : Prop :=
  (∀ s lc f d q a w c q1 n q2 c' q3, Begins s lc f d q → d.op = 0xE010 →
    Yields (earlyPriv (s.pkg.core lc) d.ops.head? (fun n => crFault n (s.pkg.core lc).pl 0 false)) q () q →
    Yields (formOperands (envOf s lc d) OpUse.plain d.ops 0 (s.pkg.core lc)) q ([a, w], c) q1 →
    Yields (readVal (envOf s lc d) a) q1 n q2 → crFault n c.pl 0 false = none →
    Yields (writeVal (envOf s lc d) w (Core.crRead { c with pend := (q2.core lc).pend } n c.pl).toNat c) q2 c' q3 →
    Completes (.rdcr lc f) s (Ends s lc q3 c' (envOf s lc d).next)) ∧
  (∀ s lc f d q a b c q1 v q2 n q3, Begins s lc f d q → d.op = 0xE011 →
    Yields (earlyPriv (s.pkg.core lc) d.ops[1]? (fun n => crFault n (s.pkg.core lc).pl 1 true)) q () q →
    Yields (formOperands (envOf s lc d) OpUse.plain d.ops 0 (s.pkg.core lc)) q ([a, b], c) q1 →
    Yields (readVal (envOf s lc d) a) q1 v q2 → Yields (readVal (envOf s lc d) b) q2 n q3 →
    crFault n c.pl 1 true = none → n ≠ 0x28 →
    Completes (.wrcr lc f) s (Ends s lc q3 (c.crWrite n c.pl (BitVec.ofNat 64 v)) (envOf s lc d).next)) ∧
  (∀ s lc f d q a b c q1 v q2 q3 q4, Begins s lc f d q → d.op = 0xE011 →
    Yields (earlyPriv (s.pkg.core lc) d.ops[1]? (fun n => crFault n (s.pkg.core lc).pl 1 true)) q () q →
    Yields (formOperands (envOf s lc d) OpUse.plain d.ops 0 (s.pkg.core lc)) q ([a, b], c) q1 →
    Yields (readVal (envOf s lc d) a) q1 v q2 → Yields (readVal (envOf s lc d) b) q2 0x28 q3 →
    crFault 0x28 c.pl 1 true = none → q3.ipiSend lc c.pl (BitVec.ofNat 64 v) = .ok q4 →
    Completes (.wrcr lc f) s (Ends s lc q4 c (envOf s lc d).next)) ∧
  (∀ s lc f d q a w c q1 n q2 t, Begins s lc f d q → d.op = 0xE010 →
    Yields (earlyPriv (s.pkg.core lc) d.ops.head? (fun n => crFault n (s.pkg.core lc).pl 0 false)) q () q →
    Yields (formOperands (envOf s lc d) OpUse.plain d.ops 0 (s.pkg.core lc)) q ([a, w], c) q1 →
    Yields (readVal (envOf s lc d) a) q1 n q2 → crFault n c.pl 0 false = some t →
    exec (.rdcr lc f) s = .next (stopInstr s lc d.len q2 (.trap t))) ∧
  (∀ s lc f d q a b c q1 v q2 n q3 t, Begins s lc f d q → d.op = 0xE011 →
    Yields (earlyPriv (s.pkg.core lc) d.ops[1]? (fun n => crFault n (s.pkg.core lc).pl 1 true)) q () q →
    Yields (formOperands (envOf s lc d) OpUse.plain d.ops 0 (s.pkg.core lc)) q ([a, b], c) q1 →
    Yields (readVal (envOf s lc d) a) q1 v q2 → Yields (readVal (envOf s lc d) b) q2 n q3 → crFault n c.pl 1 true = some t →
    exec (.wrcr lc f) s = .next (stopInstr s lc d.len q3 (.trap t))) ∧
  (∀ s lc f d q a w c q1 q2 c' q3, Begins s lc f d q → d.op = 0xE012 →
    Yields (earlyPriv (s.pkg.core lc) d.ops.head? (ctrFault (s.pkg.core lc))) q () q →
    Yields (formOperands (envOf s lc d) OpUse.plain d.ops 0 (s.pkg.core lc)) q ([a, w], c) q1 →
    Yields (readVal (envOf s lc d) a) q1 0x11 q2 →
    Yields (writeVal (envOf s lc d) w ((q2.free 64).1.toNat % 801) c) (q2.free 64).2 c' q3 →
    Completes (.rdctr lc f) s (Ends s lc q3 c' (envOf s lc d).next)) ∧
  (∀ s lc f d q a w c q1 n q2 c' q3, Begins s lc f d q → d.op = 0xE012 →
    Yields (earlyPriv (s.pkg.core lc) d.ops.head? (ctrFault (s.pkg.core lc))) q () q →
    Yields (formOperands (envOf s lc d) OpUse.plain d.ops 0 (s.pkg.core lc)) q ([a, w], c) q1 →
    Yields (readVal (envOf s lc d) a) q1 n q2 → ctrFault c n = none → n ≠ 0x11 →
    Yields (writeVal (envOf s lc d) w (if n = 0x10 then q2.frameNum
      else (if n = 0 then c.crGet 0x4A else c.crRead (0x41 + n) c.pl).toNat) c) q2 c' q3 →
    Completes (.rdctr lc f) s (Ends s lc q3 c' (envOf s lc d).next)) ∧
  (∀ s lc f d q a b c q1 scope q2 arg q3, Begins s lc f d q → d.op = 0xE000 → (s.pkg.core lc).pl ≠ 0 →
    Yields (earlyPriv (s.pkg.core lc) d.ops.head? (tinvPriv (s.pkg.core lc).pl)) q () q →
    Yields (formOperands (envOf s lc d) OpUse.plain d.ops 0 (s.pkg.core lc)) q ([a, b], c) q1 →
    Yields (readVal (envOf s lc d) a) q1 scope q2 → Yields (readVal (envOf s lc d) b) q2 arg q3 →
    tinvPriv c.pl scope = none → scope ≤ 4 → tinvBad c.pl scope arg = false →
    Completes (.tinv lc f) s (Ends s lc (q3.tinvAll scope
      (if scope = 2 ∨ scope = 3 ∨ (scope = 4 ∧ c.pl = 2) then arg % 128 else (envOf s lc d).x.pid) (c.pl == 2) arg) c
      (envOf s lc d).next)) ∧
  (∀ s lc f d q, Begins s lc f d q → d.op = 0xE001 → (s.pkg.core lc).pl ≠ 0 →
    Completes (.tsync lc f) s (Ends s lc q (s.pkg.core lc) (envOf s lc d).next)) ∧
  (∀ s lc v target, s.pkg.coreReady s.mode lc = true → (s.pkg.core lc).pl = 1 ∨ (s.pkg.core lc).pl = 2 → fld v 63 24 = 0 →
    fld v 15 8 = 0 → target = fld v 23 16 → target < 216 → s.pkg.lcpid target = s.pkg.lcpid lc → s.pkg.mapped target = true →
    0x10 ≤ fld v 7 0 →
    Completes (.ipisend lc v) s (fun t => (t.pkg.core target).pend = (s.pkg.core target).pend ||| BitVec.ofNat 256 (2 ^ fld v 7 0) ∧
      (∀ k, k ≠ target → t.pkg.core k = s.pkg.core k) ∧ t.pkg.pages = s.pkg.pages ∧ t.pkg.hbm = s.pkg.hbm)) ∧
  (∀ s lc v, s.pkg.coreReady s.mode lc = true → (s.pkg.core lc).pl = 1 ∨ (s.pkg.core lc).pl = 2 → fld v 63 24 = 0 →
    fld v 15 8 = 0 → ((s.pkg.core lc).pl = 1 ∧ 216 ≤ fld v 23 16) ∨
      (((s.pkg.core lc).pl = 2 ∨ s.pkg.lcpid (fld v 23 16) = s.pkg.lcpid lc) ∧
        (fld v 7 0 < 0x10 ∨ s.pkg.cmapSt (fld v 23 16) = 2 ∨ s.pkg.cmapSt (fld v 23 16) = 3)) →
    exec (.ipisend lc v) s = .next s) ∧
  (∀ s lc v, s.pkg.coreReady s.mode lc = true → (s.pkg.core lc).pl = 0 → exec (.ipisend lc v) s =
    .next (stopInstr s lc (s.pkg.free 4).1.toNat (s.pkg.free 4).2 (.trap (Trap.of 0x08)))) ∧
  (∀ s lc v, s.pkg.coreReady s.mode lc = true → (s.pkg.core lc).pl = 1 → fld v 63 24 = 0 → fld v 15 8 = 0 →
    fld v 23 16 < 216 → s.pkg.lcpid (fld v 23 16) ≠ s.pkg.lcpid lc → exec (.ipisend lc v) s =
    .next (stopInstr s lc (s.pkg.free 4).1.toNat (s.pkg.free 4).2 (.trap { Trap.of 0x08 with toM := true }))) ∧
  tinvLeavesNoneClaim

/-- The range instructions of cache maintenance: what each does to a line. -/
def rangeRows : List (Nat × CpuRow × (Env → Nat → Nat → M Bool)) :=
  [(0xE002, .cinv, maintAct true), (0xE003, .cwb, maintAct false), (0xE004, .cflush, maintAct true),
   (0xE008, .clockw, lockAct), (0xE009, .cunlock, unlockAct)]

/-- Cache maintenance, while no cache of the unit drains: a range instruction treats each line of HBM of its range and sets Z
when none was refused; a range longer than 2 MiB takes trap 0x01, one that crosses bit 47 too (which operand it names: log entry
117); the forms without a range act on every line of the caller's partition and set Z (R152 to R154, R175). -/
def cacheMaintenanceInstructionsClaim : Prop :=
  (∀ e ∈ rangeRows, ∀ s lc f d q a va b c q1 n q2 pages q3 ok q4, Begins s lc f d q → d.op = e.1 →
    (0xE008 ≤ d.op → (s.pkg.core lc).pl = 2) →
    Yields (formOperands (envOf s lc d) OpUse.plain d.ops 0 (s.pkg.core lc)) q ([a, b], c) q1 → a.loc = .mem va →
    Yields (readVal (envOf s lc d) b) q1 n q2 → n ≤ 0x200000 → n = 0 ∨ va / 2 ^ 47 = (va + n - 1) / 2 ^ 47 →
    Yields (rangePages (envOf s lc d) a va n) q2 pages q3 →
    Yields (stallDrain (envOf s lc d).x) q3 () q3 → Yields (rangeLines e.2.2 (envOf s lc d) pages) q3 ok q4 →
    Completes (e.2.1 lc f) s (Ends s lc q4 { c with psw := setBit c.psw 1 ok } (envOf s lc d).next)) ∧
  (∀ e ∈ rangeRows, ∀ s lc f d q a va b c q1 n q2, Begins s lc f d q → d.op = e.1 →
    (0xE008 ≤ d.op → (s.pkg.core lc).pl = 2) →
    Yields (formOperands (envOf s lc d) OpUse.plain d.ops 0 (s.pkg.core lc)) q ([a, b], c) q1 → a.loc = .mem va →
    Yields (readVal (envOf s lc d) b) q1 n q2 → 0x200000 < n ∨ (n ≠ 0 ∧ va / 2 ^ 47 ≠ (va + n - 1) / 2 ^ 47) →
    exec (e.2.1 lc f) s = .next (stopInstr s lc d.len q2 (.trap { Trap.of 0x01 with opnd := if 0x200000 < n then 1 else 0 }))) ∧
  (∀ e ∈ ([(0xE005, .cinva, true), (0xE006, .cwba, false), (0xE007, .cflusha, true)] : List (Nat × CpuRow × Bool)),
    ∀ s lc f d q, Begins s lc f d q → d.op = e.1 → (s.pkg.core lc).pl ≠ 0 → Yields (stallDrain (envOf s lc d).x) q () q →
    Completes (e.2.1 lc f) s (Ends s lc (q.maintAll (envOf s lc d).x.pid e.2.2)
      { s.pkg.core lc with psw := setBit (s.pkg.core lc).psw 1 true } (envOf s lc d).next))

/-- System instructions and cache maintenance (R81, R104, R105, R149 to R154, R175, R218, R511). -/
def Obligations.SystemAndCacheInstructions : Prop := systemInstructionsClaim ∧ cacheMaintenanceInstructionsClaim

/-! ### Register pages -/

/-- Who asks, the page and the register offset of the rows that are commands of a page. -/
def commandPage : Instr → Option (Requester × Nat × Nat)
  | .rstreq who p | .invreq who p | .cacheDisable who p | .cacheEnable who p | .hubMbist who p => some (who, pgOf p, 0x018)
  | .arm who p => some (who, pgOf p, 0x048)
  | .snaptrig who => some (who, pgSTW, 0xC00)
  | .snaparm who => some (who, pgSTW, 0xC08)
  | .modecmdLoad who | .modecmdTest who | .modecmdRun who | .modecmdDegraded who | .modecmdDrizzle who
  | .modecmdQuiesce who => some (who, pgSTW, 0xC10)
  | .exclcmd who _ => some (who, pgSTW, 0xC30)
  | .define who _ | .assign who _ _ | .unassign who _ | .restart who _ | .release who _ | .pcmdRekey who _ => some (who, pgSTW, 0xC40)
  | .mclheadWrite who _ => some (who, pgSTW, 0xC58)
  | .evrd who _ => some (who, pgEVLOG, 0xC00)
  | .mcrd who _ => some (who, pgEVLOG, 0xC40)
  | .dirrd who d _ _ _ => some (who, pgDS d.val, 0xC00)
  | .fence who d | .readmit who d | .admitDie who d => some (who, pgMP d.val, 0xC00)
  | .guestFenceCommand who g | .guestReadmit who g => some (who, pgGP g.val, 0xC00)
  | .set who n _ | .read who n _ => some (who, pgMCR n.val, 0xC00)
  | .exclude who h => some (who, pgHPHY h.val, 0xC00)
  | .qprd who _ => some (who, pgLE, 0xC00)
  | .form who | .rekey who _ => some (who, pgKEYV, 0xC20)
  | .keyld who e _ _ => some (who, cePage e.val, 0xC40)
  | .slotrst who e _ => some (who, cePage e.val, 0xC48)
  | .resrd who d _ => some (who, pgDPM d.val, 0xC00)
  | .evrheadWrite who _ => some (who, pgSE, 0xD10)
  | .mailboxGo who _ => some (who, pgSE, 0xC80)
  | .ioinv who n _ _ => some (who, pgPE n.val, 0xC00)
  | .fill who c => some (who, pgDMAC c.val, 0xC18)
  | .dmatailDoorbell who c _ => some (who, pgDMAC c.val, 0xC20)
  | .lbist who d | .mbist who d | .lbistThenMbist who d => some (who, pgBIST d.val, 0xC00)
  | _ => none

/-- A command of a page from a requester that may not issue it leaves the page alone and gets an error response: U and S issue no
command of a page, a guest none, an engine none, M those of the pages that its reach covers, the service host all of them, the
steward all but those of HD.CMAP. The error response is the answer, with nothing else for the steward and an engine; SE
records its address for the service host; the core takes its machine check at the next boundary, the firewall records a guest's
(R16, R23, R25, R308, R442, R568). -/
def Obligations.CommandsNeedReach : Prop :=
  (∀ c who pg off s, commandPage c = some (who, pg, off) → s.pkg.commands who pg = false →
    Completes c s (fun t => t = { s with pkg := s.pkg.writeRefused who pg off })) ∧
  (∀ (p : Pkg) pg off, p.writeRefused .steward pg off = p.reply 0 1 [] false) ∧
  (∀ (p : Pkg) a pg off, p.writeRefused (.agent a) pg off = p.reply 0 1 [] false) ∧
  (∀ (p : Pkg) (lc : Lc) pg off, p.writeRefused (.core lc) pg off = (p.setCore lc { p.core lc with
    failed := (p.core lc).failed ++ [regAddr pg off] }).reply 0 1 [] false) ∧
  (∀ (p : Pkg) pg off, pg < 65536 → off < 4096 → (p.writeRefused .host pg off).reg pgSE 0x220 = BitVec.ofNat 64 (regAddr pg off) ∧
    (p.writeRefused .host pg off).out = some { tag := 0, status := 1, bytes := [], poison := false } ∧
    (p.writeRefused .host pg off).cores = p.cores ∧ (p.writeRefused .host pg off).hbm = p.hbm) ∧
  (∀ (p : Pkg) (g : Fin 2) pg off, p.gpState g.val = 2 →
    (p.writeRefused (.guest g) pg off).reg (pgGFW g.val) 0x200 = BitVec.ofNat 64 (regAddr pg off) ∧
    (p.writeRefused (.guest g) pg off).cores = p.cores ∧ (p.writeRefused (.guest g) pg off).hbm = p.hbm) ∧
  (∀ (p : Pkg) (lc : Lc) pg, (p.core lc).pl ≠ 2 → p.commands (.core lc) pg = false) ∧
  (∀ (p : Pkg) g pg, p.commands (.guest g) pg = false) ∧
  (∀ (p : Pkg) a pg, p.commands (.agent a) pg = false) ∧
  (∀ (p : Pkg) pg b i, blkOf pg = some (b, i) → p.commands .host pg = p.answers pg ∧
    p.commands .steward pg = (p.answers pg && b != .cmap))

/-- Writes of registers: one that its requester may not make gets an error response (R23); RO registers keep
their value; ERRSTAT clears the bits written as 1; ERRMASK keeps its named bits; a configuration copy is stored and leaves the
live configuration (R25, R27, R34, R42, R43). -/
def registerWritesTakeEffectClaim : Prop :=
  (∀ s who pg off v, s.pkg.mayAccess who (pgOf pg) off = false →
    Completes (.registerWrite who pg off v) s (fun t => t = { s with pkg := s.pkg.writeRefused who (pgOf pg) off })) ∧
  (∀ s who pg off v b i, s.pkg.mayAccess who (pgOf pg) off = true → blkOf (pgOf pg) = some (b, i) → b ≠ .se ∨ off ≠ 0x208 →
    0x200 ≤ off → off < 0x400 → exec (.registerWrite who pg off v) s = .next s) ∧
  (∀ s who v pg, pgOf pg = pgSE → s.pkg.mayAccess who pgSE 0x208 = true →
    Completes (.registerWrite who pg 0x208 v) s (fun t => OnlyPages s t ∧
      t.pkg.reg pgSE 0x208 = s.pkg.reg pgSE 0x208 &&& ~~~v)) ∧
  (∀ s who pg v, s.pkg.mayAccess who (pgOf pg) 0x028 = true →
    Completes (.registerWrite who pg 0x028 v) s (fun t => OnlyPagesStw s t ∧
      t.pkg.reg (pgOf pg) 0x028 = s.pkg.reg (pgOf pg) 0x028 &&& ~~~v ∧
      (∀ q o, q ≠ pgOf pg ∨ o ≠ 0x028 → t.pkg.reg q o = s.pkg.reg q o))) ∧
  (∀ s who pg v b i, s.pkg.mayAccess who (pgOf pg) 0x030 = true → blkOf (pgOf pg) = some (b, i) →
    Completes (.registerWrite who pg 0x030 v) s (fun t => OnlyPages s t ∧ t.pkg.reg (pgOf pg) 0x030 = v &&& errBits b ∧
      (∀ q o, q ≠ pgOf pg ∨ o ≠ 0x030 → t.pkg.reg q o = s.pkg.reg q o))) ∧
  (∀ s who pg off v b i, s.pkg.mayAccess who (pgOf pg) off = true → blkOf (pgOf pg) = some (b, i) → b.hasCfg = true →
    0x400 ≤ off → off < 0xC00 →
    Completes (.registerWrite who pg off v) s (fun t => OnlyPages s t ∧
      (off < 0x800 → tblGet (fun _ => 0) (t.pkg.page (pgOf pg)).copyA ((off - 0x400) / 8) = v) ∧
      (0x800 ≤ off → tblGet (fun _ => 0) (t.pkg.page (pgOf pg)).copyB ((off - 0x800) / 8) = v) ∧
      (∀ q o, t.pkg.cfg q o = s.pkg.cfg q o ∧ t.pkg.reg q o = s.pkg.reg q o)))

/-- Reads that change what they read: ERRCOUNT and CONFQ's HIGH clear when their low half is read, ATTNQ gives up its front
entry on a read of its 64 bits and keeps it on a read of half, of which the lower clears nothing. A read that its requester may not
make gets an error response and changes no page: for a core that executes the machine check of the reading instruction, of which
the row does not give the length or the operand (log entry 137) (R23, R25, R36, R254, R528). -/
def readsThatClearClaim : Prop :=
  (∀ s who pg w, s.pkg.mayRead who (pgOf pg) 0x038 = true →
    Completes (.errcountRead who pg w) s (fun t => OnlyPagesOut s t ∧
      t.pkg.out = some { tag := 0, status := 0, bytes := readHalf (s.pkg.reg (pgOf pg) 0x038) w, poison := false } ∧
      t.pkg.reg (pgOf pg) 0x038 = (if w = .high then s.pkg.reg (pgOf pg) 0x038 else 0) ∧
      (∀ q o, q ≠ pgOf pg ∨ o ≠ 0x038 → t.pkg.reg q o = s.pkg.reg q o))) ∧
  (∀ s who d w, s.pkg.mayRead who (pgDS d.val) 0x210 = true →
    Completes (.confqRead who d w) s (fun t => OnlyPagesOut s t ∧
      t.pkg.out = some { tag := 0, status := 0, bytes := readHalf (s.pkg.reg (pgDS d.val) 0x210) w, poison := false } ∧
      (w ≠ .high → t.pkg.rf (pgDS d.val) 0x210 15 8 = 0) ∧
      t.pkg.rf (pgDS d.val) 0x210 7 0 = s.pkg.rf (pgDS d.val) 0x210 7 0)) ∧
  (∀ s who g rest, s.pkg.mayRead who pgSTW 0x348 = true → s.pkg.stw.attnq = g :: rest →
    Completes (.attnqRead who .quad) s (fun t => t.pkg.stw = { s.pkg.stw with attnq := rest, attnOvf := false } ∧
      t.pkg.pages = s.pkg.pages ∧ t.pkg.out = some { tag := 0, status := 0, poison := false,
                                                      bytes := leBytes 8 (word [(63, 1), (62, s.pkg.stw.attnOvf.toNat), (0, g)]).toNat })) ∧
  (∀ s who w, s.pkg.mayRead who pgSTW 0x348 = true → w ≠ .quad →
    Completes (.attnqRead who w) s (fun t => t.pkg.stw.attnq = s.pkg.stw.attnq ∧ t.pkg.pages = s.pkg.pages ∧
      (w = .low → t.pkg.stw = s.pkg.stw))) ∧
  (∀ s who pg d w c q off, (c, q, off) ∈ [(Instr.errcountRead who pg w, pgOf pg, 0x038), (.confqRead who d w, pgDS d.val, 0x210),
      (.attnqRead who w, pgSTW, 0x348)] → s.pkg.mayRead who q off = false →
    Completes c s (fun t => t = { s with pkg := s.pkg.readRefused who q off })) ∧
  (∀ (p : Pkg) (lc : Lc) pg off, (p.core lc).run = .executing → ¬(pswXS (p.core lc).psw = true ∧ (p.core lc).pl = 2) →
    (p.core lc).pl ≤ 2 →
    Entered (p.core lc) ((p.readRefused (.core lc) pg off).core lc) 2 0x31 (p.core lc).ip (p.core lc).psw 0x620 ∧
    ((p.readRefused (.core lc) pg off).core lc).crGet 0x13 = BitVec.ofNat 64 (regAddr pg off) ∧
    (p.readRefused (.core lc) pg off).hbm = p.hbm)

/-- Register writes, and the reads that change what they read (R23, R25, R27, R34, R36, R42, R43, R254, R528). -/
def Obligations.RegistersAreWrittenAndRead : Prop := registerWritesTakeEffectClaim ∧ readsThatClearClaim

/-- RSTREQ of a page other than the steward's clears its errors, leaves no active copy and keeps both configuration copies; a
block with configuration is in LOAD_HOLD; it is refused while the block is busy, and for the ledger engine in a mode that does not
allow it (R31, R45, R364). -/
def Obligations.BlockResetKeepsTheCopies : Prop :=
  (∀ s who pg b i, s.pkg.commands who (pgOf pg) = true → s.pkg.busy (pgOf pg) = false → blkOf (pgOf pg) = some (b, i) →
    b ≠ .steward → rstMode b s.mode.mode = true →
    Completes (.rstreq who pg) s (fun t => LastCmd t.pkg (pgOf pg) 0x018 1 ∧ (t.pkg.page (pgOf pg)).live = none ∧
      (t.pkg.page (pgOf pg)).copyA = (s.pkg.page (pgOf pg)).copyA ∧ (t.pkg.page (pgOf pg)).copyB = (s.pkg.page (pgOf pg)).copyB ∧
      t.pkg.reg (pgOf pg) 0x028 = 0 ∧ t.pkg.reg (pgOf pg) 0x038 = 0 ∧
      (b.hasCfg = true → t.pkg.loadHold (pgOf pg) = true) ∧ t.mode = s.mode)) ∧
  (∀ s who pg, s.pkg.commands who (pgOf pg) = true → (blkOf (pgOf pg)).isSome = true → s.pkg.busy (pgOf pg) = true →
    Completes (.rstreq who pg) s (fun t => LastCmd t.pkg (pgOf pg) 0x018 3 ∧ OnlyPagesStw s t)) ∧
  (∀ s who pg b i, s.pkg.commands who (pgOf pg) = true → blkOf (pgOf pg) = some (b, i) → rstMode b s.mode.mode = false →
    Completes (.rstreq who pg) s (fun t => LastCmd t.pkg (pgOf pg) 0x018 3 ∧ OnlyPagesStw s t)) ∧
  (∀ m, rstMode .le m = true ↔ m = .load ∨ m = .test ∨ m = .quiesce)

/-- A cache is disabled behind a drain that leaves no dirty line, enabled again with its contents, and invalidated only while
it is disabled, after the drain when one runs; a disabling or enabling in the wrong order is refused; the first corrected errors of
an L2 or L3 way are counted by way and move no line; a swept way is out of use, and one that errors disabled is logged
(R170 to R178). -/
def Obligations.CachesAreDisabledAndInvalidated : Prop :=
  (∀ s who pg c, s.pkg.commands who (pgOf pg) = true → cacheOfPage (pgOf pg) = some c → canDisable c = true →
    s.pkg.en (cachePage c) = true → s.pkg.enRefused c false = false → s.pkg.loadHold (cachePage c) = false →
    Completes (.cacheDisable who pg) s (fun t => t.pkg.en (cachePage c) = false ∧ t.pkg.blkState (cachePage c) = 2 ∧
      t.pkg.busy (cachePage c) = true ∧ t.pkg.cache c = { s.pkg.cache c with draining := true } ∧ t.pkg.hbm = s.pkg.hbm)) ∧
  (∀ s pg c, cacheOfPage (pgOf pg) = some c → (s.pkg.cache c).draining = true → (s.pkg.cache c).invQueued = false →
    Completes (.cacheDrainComplete pg) s (fun t => (t.pkg.cache c).draining = false ∧ LastCmd t.pkg (cachePage c) 0x018 1 ∧
      t.pkg.busy (cachePage c) = false ∧ t.pkg.hbm = s.pkg.hbm ∧
      ∀ e ∈ (t.pkg.cache c).sets, ∀ w ∈ e.2.ways, w.2.dirty = false)) ∧
  (∀ s who pg c, s.pkg.commands who (pgOf pg) = true → cacheOfPage (pgOf pg) = some c → canDisable c = true →
    s.pkg.en (cachePage c) = false → s.pkg.enRefused c true = false → s.pkg.loadHold (cachePage c) = false →
    Completes (.cacheEnable who pg) s (fun t => OnlyPages s t ∧ t.pkg.en (cachePage c) = true ∧
      t.pkg.blkState (cachePage c) = 1)) ∧
  (∀ s who pg c, s.pkg.commands who (pgOf pg) = true → cacheOfPage (pgOf pg) = some c → canDisable c = true →
    s.pkg.blkState (pgOf pg) = 2 → (s.pkg.cache c).invRunning = false → (s.pkg.cache c).invQueued = false →
    (s.pkg.cache c).draining = false →
    Completes (.invreq who pg) s (fun t => t.pkg.cache c = { s.pkg.cache c with invRunning := true } ∧
      LastCmd t.pkg (cachePage c) 0x018 2 ∧ t.pkg.busy (cachePage c) = true)) ∧
  (∀ s who pg c, s.pkg.commands who (pgOf pg) = true → cacheOfPage (pgOf pg) = some c → s.pkg.blkState (pgOf pg) ≠ 2 →
    Completes (.invreq who pg) s (fun t => t.pkg.caches = s.pkg.caches ∧ LastCmd t.pkg (pgOf pg) 0x018 3)) ∧
  (∀ s pg c, cacheOfPage (pgOf pg) = some c → (s.pkg.cache c).invRunning = true →
    Completes (.invreqComplete pg) s (fun t => (t.pkg.cache c).sets = [] ∧ (t.pkg.cache c).invRunning = false ∧
      LastCmd t.pkg (cachePage c) 0x018 1 ∧ t.pkg.hbm = s.pkg.hbm)) ∧
  (∀ s who pg c, s.pkg.commands who (pgOf pg) = true → cacheOfPage (pgOf pg) = some c → canDisable c = true →
    s.pkg.blkState (pgOf pg) = 2 → (s.pkg.cache c).invRunning = false → (s.pkg.cache c).invQueued = false →
    (s.pkg.cache c).draining = true →
    Completes (.invreq who pg) s (fun t => t.pkg.cache c = { s.pkg.cache c with invQueued := true } ∧
      LastCmd t.pkg (pgOf pg) 0x018 2)) ∧
  (∀ s pg c, cacheOfPage (pgOf pg) = some c → (s.pkg.cache c).draining = true → (s.pkg.cache c).invQueued = true →
    Completes (.cacheDrainComplete pg) s (fun t => (t.pkg.cache c).draining = false ∧ (t.pkg.cache c).invRunning = true ∧
      (t.pkg.cache c).invQueued = false ∧ t.pkg.hbm = s.pkg.hbm)) ∧
  (∀ s who pg c, s.pkg.commands who (pgOf pg) = true → cacheOfPage (pgOf pg) = some c → canDisable c = true →
    (s.pkg.en (cachePage c) = true → s.pkg.enRefused c false = true →
      Completes (.cacheDisable who pg) s (fun t => OnlyPagesStw s t ∧ LastCmd t.pkg (cachePage c) 0x018 3)) ∧
    (s.pkg.en (cachePage c) = false → s.pkg.enRefused c true = true →
      Completes (.cacheEnable who pg) s (fun t => OnlyPagesStw s t ∧ LastCmd t.pkg (cachePage c) 0x018 3))) ∧
  (∀ s pg c, cacheOfPage (pgOf pg) = some c → (s.pkg.cache c).draining = false → exec (.cacheDrainComplete pg) s = .next s) ∧
  (∀ s pg c way line, s.pkg.answers (pgOf pg) = true → s.pkg.loadHold (pgOf pg) = false → cacheOfPage (pgOf pg) = some c →
    480 ≤ c → (tblGet (fun _ => []) (s.pkg.cache c).ces way.val).length < 3 →
    Completes (.cacheError pg .corrected way line) s (fun t =>
      t.pkg.rf (cachePage c) (0x210 + way.val / 4 * 8) (way.val % 4 * 16 + 15) (way.val % 4 * 16) =
        min (s.pkg.rf (cachePage c) (0x210 + way.val / 4 * 8) (way.val % 4 * 16 + 15) (way.val % 4 * 16) + 1) 65535 ∧
      (t.pkg.cache c).sets = (s.pkg.cache c).sets ∧ t.pkg.hbm = s.pkg.hbm)) ∧
  (∀ s pg e way line, s.pkg.loadHold (pgOf pg) = true → exec (.cacheError pg e way line) s = .next s) ∧
  (∀ s pg c (way : Fin 16) tag, cacheOfPage (pgOf pg) = some c → 480 ≤ c →
    (s.pkg.cache c).sweep.find? (fun t => t % 16 == way.val) = some tag → tag < 16 →
    Completes (.waySweepComplete pg way) s (fun t => t.pkg.rf (cachePage c) 0x200 way.val way.val = 1 ∧
      t.pkg.rf (cachePage c) 0x200 (16 + way.val) (16 + way.val) = 1 ∧ tag ∉ (t.pkg.cache c).sweep ∧
      ∃ e, t.pkg.stw.events.head? = some e ∧ e.code = 0x04))

/-! ### The lightning snapshot and power failure -/

/-- The latch edges that SNAPSHOT_LATCH joins: those of the tick, with the `n` oldest others, or the `n` + 1 oldest others. -/
def dueLatches (s : State) (n : Nat) : List (Bool × Nat × Bool) :=
  if s.pkg.stw.latches.filter (fun l => l.1) = [] then (s.pkg.stw.latches.filter (fun l => !l.1)).take (n + 1)
  else s.pkg.stw.latches.filter (fun l => l.1) ++ (s.pkg.stw.latches.filter (fun l => !l.1)).take n

/-- Triggers fix latch edges, at once or, with CHAINOUT, 8 frames on for the whole chain. Sources that fix one edge make one latch,
with all of them in SNAPCAUSE: every armed page that is powered latches the frame and the place in it and is disarmed, one that is
not armed counts the trigger as missed, and the re-arming of SNAPARM, which a tick brings, comes first. Arming clears MISSED, that of
SNAPARM too (log entry 110) (R47 to R53, R547). -/
def Obligations.SnapshotsLatchArmedPages : Prop :=
  (∀ s who pg, s.pkg.commands who (pgOf pg) = true →
    Completes (.arm who pg) s (fun t => OnlyPages s t ∧ bit (t.pkg.reg (pgOf pg) 0x048) 0 = true ∧
      LastCmd t.pkg (pgOf pg) 0x048 1 ∧ (bit (s.pkg.reg (pgOf pg) 0x048) 0 = false → t.pkg.rf (pgOf pg) 0x048 15 8 = 0))) ∧
  (∀ s who, s.pkg.commands who pgSTW = true → s.pkg.snapSrc 0 = true → s.pkg.snapSrc 8 = false →
    Completes (.snaptrig who) s (fun t => t.pkg.stw = { s.pkg.stw with latches := s.pkg.stw.latches ++ [(false, 1, false)] } ∧
      LastCmd t.pkg pgSTW 0xC00 1)) ∧
  (∀ s who, s.pkg.commands who pgSTW = true → s.pkg.snapSrc 0 = false →
    Completes (.snaptrig who) s (fun t => t.pkg.stw.latches = s.pkg.stw.latches ∧ LastCmd t.pkg pgSTW 0xC00 3)) ∧
  (∀ s who, s.pkg.commands who pgSTW = true →
    Completes (.snaparm who) s (fun t => t.pkg.stw = { s.pkg.stw with armAll := true, ripe := t.pkg.stw.ripe } ∧
      t.pkg.isRipe .rearm 0 = false ∧ LastCmd t.pkg pgSTW 0xC08 1)) ∧
  (∀ s who, s.pkg.commands who pgSTW = true → s.pkg.snapSrc 0 = true → s.pkg.snapSrc 8 = true →
    Completes (.snaptrig who) s (fun t => t.pkg.stw.latches = s.pkg.stw.latches ∧ LastCmd t.pkg pgSTW 0xC00 1 ∧
      t.pkg.stw.chainPend = s.pkg.stw.chainPend ++ [(s.pkg.chainAddr, (s.pkg.frameNum + s.pkg.fr.ofs.toNat + 8) % 2 ^ 48, 17)] ∧
      t.pkg.reg pgSTW 0x360 = word [(48, s.pkg.chainAddr), (0, (s.pkg.frameNum + s.pkg.fr.ofs.toNat + 8) % 2 ^ 48)])) ∧
  (∀ s, s.pkg.stw.armAll = false ∨ s.pkg.isRipe .rearm 0 = false → exec .snaparmRearm s = .next s) ∧
  (∀ s, s.pkg.snapSrc 3 = false ∨ (∃ l ∈ s.pkg.stw.latches, l.1 = false ∧ l.2.1 = 8) → exec .snapInEdge s = .next s) ∧
  (∀ s, s.pkg.stw.armAll = true → s.pkg.isRipe .rearm 0 = true →
    Completes .snaparmRearm s (fun t => t.pkg.stw = { s.pkg.stw with armAll := false } ∧ OnlyPagesStw s t ∧
      ∀ pg ∈ allPages, s.pkg.powered pg = true → bit (t.pkg.reg pg 0x048) 0 = true ∧
        (bit (s.pkg.reg pg 0x048) 0 = false → t.pkg.rf pg 0x048 15 8 = 0))) ∧
  (∀ s, s.pkg.snapSrc 3 = true → s.pkg.snapSrc 8 = false → (∀ l ∈ s.pkg.stw.latches, l.1 = true ∨ l.2.1 ≠ 8) →
    Completes .snapInEdge s (fun t => t = { s with pkg := { s.pkg with stw := { s.pkg.stw with
      latches := s.pkg.stw.latches ++ [(false, 8, false)] } } })) ∧
  (∀ s off n pos, dueLatches s n ≠ [] → pos = (if s.pkg.stw.latches.filter (fun l => l.1) = [] then min off 800 else 0) →
    Completes (.snapshotLatch off n) s (fun t =>
      t.pkg.stw.latches = (s.pkg.stw.latches.filter (fun l => !l.1)).drop
        (if s.pkg.stw.latches.filter (fun l => l.1) = [] then n + 1 else n) ∧
      t.pkg.stw.lastEdge = some (s.pkg.frameNum, pos) ∧ OnlyPagesStw s t ∧
      (∀ k, k < 5 → bit (t.pkg.reg pgSTW 0x358) k = (dueLatches s n).any (fun l => l.2.1.testBit k)) ∧
      bit (t.pkg.reg pgSTW 0x358) 8 = (dueLatches s n).any (fun l => l.2.2) ∧
      (∀ pg ∈ allPages, s.pkg.powered pg = true → bit (s.pkg.rearm.reg pg 0x048) 0 = true →
        bit (t.pkg.reg pg 0x048) 0 = false ∧ bit (t.pkg.reg pg 0x048) 2 = true ∧
        t.pkg.reg pg 0x050 = word [(16, s.pkg.frameNum), (0, pos)]) ∧
      (∀ pg ∈ allPages, s.pkg.powered pg = true → bit (s.pkg.rearm.reg pg 0x048) 0 = false →
        (t.pkg.page pg).window = (s.pkg.page pg).window ∧
        t.pkg.rf pg 0x048 15 8 = min (s.pkg.rf pg 0x048 15 8 + 1) 255) ∧
      (∀ pg, pg ≠ pgSTW → s.pkg.powered pg = false → t.pkg.page pg = s.pkg.page pg))) ∧
  (∀ s off n, s.pkg.stw.latches = [] → exec (.snapshotLatch off n) s = .next s)

/-! ### Coherence -/

/-- A calm home: no transaction is open anywhere and no eviction awaits its data. -/
def homeCalm (p : Pkg) : Prop := p.coh.txns = [] ∧ p.coh.wbWait = []

/-- The home answers requests for the line of `q`: the line is in HBM, served (R567), its PID is not checkstopped, no copying
SET holds its row, and no request for it waits. -/
def homeServes (p : Pkg) (q : CohReq) : Prop :=
  q.line * 64 < hbmSize ∧ p.serveOf q.line = .served ∧ p.dcs q.pid.val = false ∧ p.rowHeld q.line = false ∧
    p.coh.confq.any (fun r => r.line == q.line) = false

/-- The directory can take the line: it has no entry, and way `w` of its set is free. -/
def dirTakes (p : Pkg) (line w : Nat) : Prop :=
  p.dirFind line = none ∧ p.dirVictim (dirKey line) = some w ∧ (p.dirSet (dirKey line)).ent w = none

/-- A message that a row brings comes to its receiver: it is the first of its way in flight, whose way is open, or it comes from
a sender outside the model (log entry 126); the receiver takes it. -/
def comesIn (p : Pkg) (m : Msg) : Prop :=
  match findIdx? (fun f => decide (f.msg.plain = m.plain)) p.coh.net with
  | some (i, f) => p.channelHead i f.msg = true ∧ p.ride f = .arrives ∧ p.takes f.msg = true
  | none => p.takes m = true

/-- That message with the urgency with which it arrives (R264). -/
def arrived (p : Pkg) (m : Msg) : Msg :=
  match findIdx? (fun f => decide (f.msg.plain = m.plain)) p.coh.net with | some (_, f) => f.msg | none => m

/-- The last messages put on their way. -/
def Sent (t : State) (l : List Msg) : Prop := l <:+ t.pkg.coh.net.map (·.msg)

/-- Those of them that answer `m`. -/
def Answers (t : State) (m : Msg) (l : List MsgBody) : Prop := Sent t (l.map m.answer)

/-- The request of a row as a message. -/
def reqMsg (q : CohReq) (r : HomeReq) : Msg := { r with urg := q.urg.val }.msg

/-- A die sends a request: it is trained and not fenced, the PID can be read, no eviction of the line is pending (R225), the code
of the entry is clean, and the message comes in. -/
def dieSends (p : Pkg) (q : CohReq) (k : ReqKind) : Prop :=
  p.dieUp q.src.val = true ∧ q.readable = true ∧ q.code = .clean ∧ (∀ x, p.dline q.src.val q.line = some x → x.evicting = false) ∧
    comesIn p (reqMsg q (mkReq k q.line q.pid.val q.src.val q.txid.val))

/-- The same for an eviction. -/
def dieEvictsNow (p : Pkg) (q : CohReq) (b : MsgBody) : Prop :=
  p.dieUp q.src.val = true ∧ q.readable = true ∧ q.code = .clean ∧
    comesIn p (rowMsg q.toMsgHead q.src.val 0x3F b)

/-- The request of an IORD or IOWR row. -/
def ioReq (q : CohReq) (k : ReqKind) (off : Fin 64) (len op : Nat) (ready : Bool) : HomeReq :=
  { mkReq k q.line q.pid.val q.src.val q.txid.val with off := off.val, len := len, op := op, ready := ready }

/-- An agent sends it. -/
def agentSends (p : Pkg) (q : CohReq) (r : HomeReq) : Prop :=
  p.agentUp q.src.val = true ∧ q.readable = true ∧ q.code = .clean ∧ (∀ x, p.dline q.src.val q.line = some x → x.evicting = false) ∧
    comesIn p (reqMsg q r)

/-- What an IoWr leaves in its line (R233, R241): a write merges its bytes under the mask, an operation replaces the `len` bytes at
`off` by its result; the carry of ADD and SUB is bit 0 of the byte that follows the operand. -/
def ioResult (r : HomeReq) (old bytes : List Byte) (mask : Nat) : List Byte :=
  if r.op = 0 then mergeBytes old bytes 0 mask
  else
    putSlice old r.off (leBytes r.len (ioAtomic r.op r.len (leNat ((old.drop r.off).take r.len)) bytes
      (decide (r.op = 2 ∨ r.op = 3) && (bytes.getD r.len 0).getLsbD 0)))

/-- Requests at a calm home (R234 to R242): a line without an entry comes from memory with E or M and its entry then names the
requester; a sharer's UPG needs no data; an IORD reads; an IOWR waits for its WbData and then writes exactly its line, the whole
line of a full write, else the bytes merged or the operation's result, which an operation also sends back; an eviction ends with
Ack and frees its entry; and a request that waited is served. -/
def Obligations.HomesServeRequests : Prop :=
  (∀ s q w e, homeCalm s.pkg → homeServes s.pkg q → dirTakes s.pkg q.line w → s.pkg.decode q.line = .data [] →
    e ∈ [(Instr.rds q, ReqKind.rds), (.rdo q, .rdo), (.upg q, .upg)] → dieSends s.pkg q e.2 →
    Completes e.1 s (fun t =>
      (∃ b, Answers t (arrived s.pkg (reqMsg q (mkReq e.2 q.line q.pid.val q.src.val q.txid.val)))
        [.data b false false, .cmp (if e.2 = .rds then 2 else 3) true]) ∧
      (t.pkg.dirSet (dirKey q.line)).ent w = some
        { own := true, fenced := 2 ^ q.src.val &&& s.pkg.fenceVec (mcOf q.line) != 0, busy := true, pid := q.pid.val,
          pres := 2 ^ q.src.val, tag := q.line / 32768 } ∧
      t.mode = s.mode ∧ t.pkg.cores = s.pkg.cores ∧ t.pkg.hbm.mem = s.pkg.hbm.mem)) ∧
  (∀ s q w e, dieSends s.pkg q .upg → homeCalm s.pkg → homeServes s.pkg q → s.pkg.dirFind q.line = some (w, e) →
    e.own = false → e.pid = q.pid.val → e.pres = 2 ^ q.src.val → entOk (s.pkg.fenceVec (mcOf q.line)) e = true →
    Completes (.upg q) s (fun t =>
      Answers t (arrived s.pkg (reqMsg q (mkReq .upg q.line q.pid.val q.src.val q.txid.val))) [.cmp 3 false] ∧
      t.mode = s.mode ∧ t.pkg.cores = s.pkg.cores ∧ t.pkg.hbm = s.pkg.hbm)) ∧
  (∀ s q off len dist, agentSends s.pkg q (ioReq q .iord off len 0 true) → 1 ≤ len → off.val + len ≤ 64 → homeCalm s.pkg →
    homeServes s.pkg q → s.pkg.dirFind q.line = none → (s.pkg.disturb q.line dist).decode q.line = .data [] →
    Completes (.iord q off len dist) s (fun t => t.pkg.coh.txns = [] ∧
      (∃ b, Answers t (arrived s.pkg (reqMsg q (ioReq q .iord off len 0 true))) [.data b false false, .cmp 0 true]) ∧
      t.mode = s.mode ∧ t.pkg.cores = s.pkg.cores ∧ t.pkg.hbm.mem = s.pkg.hbm.mem)) ∧
  (∀ s q off len op, agentSends s.pkg q (ioReq q .iowr off len (ioOpCode op) false) → ioLenOk op off.val len = true →
    homeCalm s.pkg → homeServes s.pkg q → s.pkg.dirFind q.line = none →
    (∀ w ∈ s.pkg.coh.wb, ¬ (w.src = q.src.val ∧ w.line = q.line ∧ w.txid = q.txid.val)) →
    Completes (.iowr q off len op) s (fun t => t.mode = s.mode ∧ t.pkg.cores = s.pkg.cores ∧ t.pkg.hbm = s.pkg.hbm ∧
      ∃ x, t.pkg.coh.txns = [x] ∧ x.snoops = [] ∧ x.granted = false ∧
        x.req = { ioReq q .iowr off len (ioOpCode op) false with
          urg := (arrived s.pkg (reqMsg q (ioReq q .iowr off len (ioOpCode op) false))).urg })) ∧
  (∀ s (src : Fin 64) (h : MsgHead) bytes (mask : Word) (dirty poison : Bool) x, s.pkg.agentUp src.val = true →
    h.readable = true → comesIn s.pkg (rowMsg h src.val 0x3F (.wbData bytes mask.toNat dirty poison)) →
    s.pkg.coh.txns = [x] → s.pkg.coh.confq = [] → x.snoops = [] → x.snooped = [] → x.await = [] → x.granted = false →
    x.inval = false → x.then_ = none → x.req.kind = .iowr → x.req.src = src.val → x.req.txid = h.txid.val →
    x.req.line = h.line → x.req.ready = false → s.pkg.serveOf h.line = .served → bytes.length = 64 →
    (∀ old, x.data = some old → old.length = 64 → x.req.off + x.req.len ≤ 64 →
      ¬ (x.req.op = 0 ∧ mask = BitVec.allOnes 64) →
      Completes (.wbdata src h bytes mask dirty poison) s (fun t => t.pkg.coh.txns = [] ∧
        Sent t ((if x.req.op = 0 then [] else
          [x.req.answer (.data ((old.drop x.req.off).take x.req.len) false x.poison)]) ++
            [x.req.answer (.cmp 0 (x.req.op != 0))]) ∧
        memBytes t.pkg.hbm.mem (s.pkg.cell h.line * 64) 64 = ioResult x.req old bytes mask.toNat ∧
        (∀ a, a < s.pkg.cell h.line * 64 ∨ s.pkg.cell h.line * 64 + 64 ≤ a →
          memByte t.pkg.hbm.mem a = memByte s.pkg.hbm.mem a) ∧ t.mode = s.mode ∧ t.pkg.cores = s.pkg.cores)) ∧
    (x.req.op = 0 → mask = BitVec.allOnes 64 →
      Completes (.wbdata src h bytes mask dirty poison) s (fun t => t.pkg.coh.txns = [] ∧
        Sent t [x.req.answer (.cmp 0 false)] ∧ memBytes t.pkg.hbm.mem (s.pkg.cell h.line * 64) 64 = bytes ∧
        (∀ a, a < s.pkg.cell h.line * 64 ∨ s.pkg.cell h.line * 64 + 64 ≤ a →
          memByte t.pkg.hbm.mem a = memByte s.pkg.hbm.mem a) ∧ t.mode = s.mode ∧ t.pkg.cores = s.pkg.cores))) ∧
  (∀ s q w e, dieEvictsNow s.pkg q .evc → homeCalm s.pkg → s.pkg.dirFind q.line = some (w, e) → e.pid = q.pid.val →
    e.busy = false → entOk (s.pkg.fenceVec (mcOf q.line)) e = true → e.pres = 2 ^ q.src.val →
    Completes (.evc q) s (fun t => Answers t (arrived s.pkg (rowMsg q.toMsgHead q.src.val 0x3F .evc)) [.ack] ∧
      (t.pkg.dirSet (dirKey q.line)).ent w = none ∧ t.pkg.hbm = s.pkg.hbm ∧ t.mode = s.mode)) ∧
  (∀ s q w e m b (mask : Nat) (dirty poison : Bool), dieEvictsNow s.pkg q .wbd → homeCalm s.pkg →
    s.pkg.dirFind q.line = some (w, e) → e.pid = q.pid.val → entOk (s.pkg.fenceVec (mcOf q.line)) e = true →
    e.pres / 2 ^ q.src.val % 2 = 1 → s.pkg.serveOf q.line = .served → b.length = 64 →
    s.pkg.coh.wb.find? (wbDataOf (rowMsg q.toMsgHead q.src.val 0x3F .wbd)) = some m → m.body = .wbData b mask dirty poison →
    Completes (.wbd q) s (fun t => Answers t (arrived s.pkg (rowMsg q.toMsgHead q.src.val 0x3F .wbd)) [.ack] ∧
      (t.pkg.dirSet (dirKey q.line)).ent w = none ∧ memBytes t.pkg.hbm.mem (s.pkg.cell q.line * 64) 64 = b ∧
      (∀ a, a < s.pkg.cell q.line * 64 ∨ s.pkg.cell q.line * 64 + 64 ≤ a →
        memByte t.pkg.hbm.mem a = memByte s.pkg.hbm.mem a) ∧ t.mode = s.mode)) ∧
  (∀ s line pid d (txid w : Nat), homeCalm s.pkg → s.pkg.coh.confq = [mkReq .rds line pid d txid] → dirTakes s.pkg line w →
    s.pkg.serveOf line = .served → s.pkg.dcs pid = false → s.pkg.rowHeld line = false → s.pkg.decode line = .data [] →
    Completes (.conflictQueueServe line) s (fun t => t.pkg.coh.confq = [] ∧
      (∃ b, Sent t [(mkReq .rds line pid d txid).answer (.data b false false), (mkReq .rds line pid d txid).answer (.cmp 2 true)]) ∧
      t.mode = s.mode))

/-- A line of the message's PID that a die holds, not being evicted, in an L3 slice that answers. -/
def dieHolds (p : Pkg) (d : Die) (h : MsgHead) (x : DLine) : Prop :=
  p.dieUp d.val = true ∧ h.readable = true ∧ p.l3Up d.val h.line = true ∧ p.dline d.val h.line = some x ∧ x.pid = h.pid.val ∧
    x.evicting = false ∧ p.readyTxn = none

/-- What a snooped die in M also sends to the home, then its SnpRsp. -/
def snoopEnds (x : DLine) : List MsgBody :=
  (if x.st = .m then [.wbData x.data (2 ^ 64 - 1) true x.poison] else []) ++ [.snpRsp 1]

/-- Snoops at a die (R239): SNPINV takes the line, SNPSHR forwards it and leaves it shared, SNPFWD forwards it and takes it,
dirty data goes to the home too, and a die without the line answers that it is absent; one whose eviction of it is pending
answers wb-in-flight with the data from M, else absent (R244). -/
def dieSnoopRules : Prop :=
  (∀ s d h x, dieHolds s.pkg d h x → comesIn s.pkg (rowMsg h 0x3F d.val .snpInv) →
    Completes (.snpinv d h) s (fun t => t.pkg.dline d.val h.line = none ∧
      Answers t (arrived s.pkg (rowMsg h 0x3F d.val .snpInv)) (snoopEnds x) ∧ t.mode = s.mode ∧ t.pkg.hbm = s.pkg.hbm)) ∧
  (∀ s d h (fwd : Fin 64) x, dieHolds s.pkg d h x → x.st ≠ .s → comesIn s.pkg (rowMsg h 0x3F d.val (.snpShr fwd.val)) →
    Completes (.snpshr d h fwd) s (fun t => t.pkg.dline d.val h.line = some { x with st := .s } ∧
      Sent t ({ (arrived s.pkg (rowMsg h 0x3F d.val (.snpShr fwd.val))).answer (.data x.data false x.poison) with dst := fwd.val } ::
        (snoopEnds x).map (arrived s.pkg (rowMsg h 0x3F d.val (.snpShr fwd.val))).answer) ∧
      t.mode = s.mode ∧ t.pkg.hbm = s.pkg.hbm)) ∧
  (∀ s d h (fwd : Fin 64) x, dieHolds s.pkg d h x → x.st ≠ .s → comesIn s.pkg (rowMsg h 0x3F d.val (.snpFwd fwd.val)) →
    Completes (.snpfwd d h fwd) s (fun t => t.pkg.dline d.val h.line = none ∧
      Sent t [{ (arrived s.pkg (rowMsg h 0x3F d.val (.snpFwd fwd.val))).answer (.data x.data (x.st == .m) x.poison) with dst := fwd.val },
        (arrived s.pkg (rowMsg h 0x3F d.val (.snpFwd fwd.val))).answer (.snpRsp 1)] ∧
      t.mode = s.mode ∧ t.pkg.hbm = s.pkg.hbm)) ∧
  (∀ s d h (fwd : Fin 64) x c, (s.pkg.dline d.val h.line = none ∨ s.pkg.dline d.val h.line = some x ∧ x.pid = h.pid.val ∧
      x.evicting = true ∧ s.pkg.l3Up d.val h.line = true) → s.pkg.dieUp d.val = true → h.readable = true → s.pkg.readyTxn = none →
    c ∈ [(Instr.snpinv d h, MsgBody.snpInv), (.snpshr d h fwd, .snpShr fwd.val), (.snpfwd d h fwd, .snpFwd fwd.val)] →
    comesIn s.pkg (rowMsg h 0x3F d.val c.2) →
    Completes c.1 s (fun t => Answers t (arrived s.pkg (rowMsg h 0x3F d.val c.2))
        (if s.pkg.dline d.val h.line = some x ∧ x.st = .m then [.wbData x.data (2 ^ 64 - 1) true x.poison, .snpRsp 2]
          else [.snpRsp 0]) ∧ t.pkg.coh.dies = s.pkg.coh.dies ∧ t.mode = s.mode ∧ t.pkg.hbm = s.pkg.hbm))

/-- A pending eviction of the line by the sender holds its request back (R225). -/
def pendingEvict (p : Pkg) (q : CohReq) : Bool := match p.dline q.src.val q.line with | some x => x.evicting | none => false

/-- The message rows: the head of each, and whether its sender and receiver can exchange it (R221, R225, R232, R295). -/
def messageRow (p : Pkg) : Instr → Option (MsgHead × Bool)
  | .rds q | .rdo q | .upg q => some (q.toMsgHead, p.dieUp q.src.val && !pendingEvict p q)
  | .wbd q | .evc q => some (q.toMsgHead, p.dieUp q.src.val)
  | .iord q off len _ => some (q.toMsgHead, p.agentUp q.src.val && decide (1 ≤ len ∧ off.val + len ≤ 64) && !pendingEvict p q)
  | .iowr q off len op => some (q.toMsgHead, p.agentUp q.src.val && ioLenOk op off.val len && !pendingEvict p q)
  | .snpinv d h | .snpshr d h _ | .snpfwd d h _ | .ack _ d h => some (h, p.dieUp d.val)
  | .cmpMessage dst h _ _ => some (h, p.agentUp dst.val)
  | .snprsp d h resp => some (h, p.dieUp d.val && decide (resp.val < 3))
  | .err dst h st => some (h, p.agentUp dst.val && decide (1 ≤ st.val ∧ st.val ≤ 3))
  | .data src dst h _ _ _ =>
    some (h, (src.val == 0x3F || p.dieUp src.val) && (dst.val == 0x3F || p.agentUp dst.val) && src != dst)
  | .wbdata src h _ _ _ _ => some (h, p.agentUp src.val)
  | _ => none

/-- Messages that cannot be served (R221, R249, R267): one that its sender and receiver cannot exchange does nothing; one whose
PID cannot be read is a package checkstop; an answer that no transaction awaits frees its TXID from quarantine, or else is a
domain checkstop of its PID. -/
def strayMessageRules : Prop :=
  (∀ s c h, messageRow s.pkg c = some (h, false) → exec c s = .next s) ∧
  (∀ s c h, messageRow s.pkg c = some (h, true) → h.readable = false →
    Completes c s (fun t => t.pkg.stw.pcsRaised = true ∧ t.pkg.coh = s.pkg.coh ∧ t.mode = s.mode)) ∧
  (∀ s (dst : Fin 64) (src : Fin 64) (h : MsgHead) g df bytes (dirty poison : Bool) c, s.pkg.agentUp dst.val = true → dst.val ≠ 0x3F →
    src.val = 0x3F → h.readable = true → s.pkg.agentReqs dst.val = [] → s.pkg.coh.txns = [] →
    c ∈ [(Instr.cmpMessage dst h g df, MsgBody.cmp g.val df), (.data src dst h bytes dirty poison, .data bytes dirty poison),
      (.err dst h 2, .err 2)] → comesIn s.pkg (rowMsg h 0x3F dst.val c.2) →
    ((dst.val, h.txid.val) ∈ s.pkg.coh.quarantine →
      Completes c.1 s (fun t => (dst.val, h.txid.val) ∉ t.pkg.coh.quarantine ∧ t.pkg.coh.txns = [] ∧ t.mode = s.mode)) ∧
    ((dst.val, h.txid.val) ∉ s.pkg.coh.quarantine →
      Completes c.1 s (fun t => t.pkg.dcs h.pid.val = true ∧ t.mode = s.mode))) ∧
  (∀ s (d : Die) (h : MsgHead) (resp : Fin 4) c, s.pkg.dieUp d.val = true → h.readable = true → resp.val < 3 →
    s.pkg.coh.txns = [] → (0x30 + mcOf h.line, h.txid.val) ∉ s.pkg.coh.quarantine →
    c ∈ [(Instr.ack true d h, MsgBody.ack), (.snprsp d h resp, .snpRsp resp.val)] →
    comesIn s.pkg (rowMsg h d.val 0x3F c.2) → Completes c.1 s (fun t => t.pkg.dcs h.pid.val = true ∧ t.mode = s.mode))

/-- The requester holds what Cmp refers to: the Data of the transaction, or with DF 0 its own copy (R238). -/
def cmpData (p : Pkg) (d line : Nat) (q : AgentReq) (df : Bool) (b : List Byte) (poison : Bool) : Prop :=
  (∃ dirty, q.data = some (b, dirty, poison)) ∨
    (df = false ∧ q.data = none ∧ ∃ k, p.dline d line = some k ∧ k.data = b ∧ k.poison = poison)

/-- A transaction at the home that awaits the SnpRsp of die `d`. -/
def awaitsRsp (p : Pkg) (d : Die) (h : MsgHead) (x : Txn) : Prop :=
  p.dieUp d.val = true ∧ h.readable = true ∧ p.coh.txns = [x] ∧ x.req.line = h.line ∧ x.req.txid = h.txid.val ∧
    x.req.pid = h.pid.val ∧ d.val ∈ x.snooped ∧ x.held = [] ∧ x.await = [] ∧ x.granted = false ∧ x.inval = false ∧
    x.then_ = none ∧ x.req.ready = true

/-- Completions and answers (R225, R232, R234, R237, R238): Cmp with its data makes the die hold the line as granted and sends
Ack; Data completes an IoRd whose Cmp has come; Err ends a request with its status; Ack ends a transaction or an eviction; a
SnpRsp absent clears the sender's bit of a shared line, one that says wb-in-flight makes the home wait for its WbData, and the
last SnpRsp lets the home grant. A message that cannot be served is handled as R221, R249 and R267 say. -/
def Obligations.DiesAnswerSnoopsAndComplete : Prop :=
  dieSnoopRules ∧ strayMessageRules ∧
  (∀ s (d : Die) (dst : Fin 64) (h : MsgHead) (g : Fin 4) df b poison q, dst.val = d.val → s.pkg.dieUp d.val = true →
    h.readable = true → comesIn s.pkg (rowMsg h 0x3F dst.val (.cmp g.val df)) → s.pkg.agentReqs d.val = [q] →
    q.txid = h.txid.val → q.line = h.line → q.pid = h.pid.val → (q.kind = .rds ∨ q.kind = .rdo ∨ q.kind = .upg) →
    cmpData s.pkg d.val h.line q df b poison → s.pkg.readyTxn = none →
    Completes (.cmpMessage dst h g df) s (fun t => t.pkg.agentReqs d.val = [] ∧
      t.pkg.dline d.val h.line = some
        { st := if g.val = 1 then .s else if g.val = 2 then .e else .m, pid := q.pid, data := b, poison := poison,
          evicting := false, evTx := 0 } ∧
      Answers t (arrived s.pkg (rowMsg h 0x3F dst.val (.cmp g.val df))) [.ack] ∧ t.mode = s.mode ∧ t.pkg.hbm = s.pkg.hbm)) ∧
  (∀ s (src dst : Fin 64) (h : MsgHead) b dirty poison q, s.pkg.agentUp dst.val = true → dst.val ≠ 0x3F →
    (src.val = 0x3F ∨ s.pkg.dieUp src.val = true) → src ≠ dst → h.readable = true →
    comesIn s.pkg (rowMsg h src.val dst.val (.data b dirty poison)) → s.pkg.agentReqs dst.val = [q] → q.txid = h.txid.val →
    q.line = h.line → q.pid = h.pid.val → q.kind = .iord → q.cmp = some (0, true) → s.pkg.readyTxn = none →
    Completes (.data src dst h b dirty poison) s (fun t => t.pkg.agentReqs dst.val = [] ∧
      [(dst.val, h.txid.val, 0, b, poison)] <:+ t.pkg.coh.answers ∧ t.pkg.pages = s.pkg.pages ∧ t.mode = s.mode)) ∧
  (∀ s (dst : Fin 64) (h : MsgHead) (st : Fin 8) q, s.pkg.agentUp dst.val = true → 1 ≤ st.val → st.val ≤ 3 → h.readable = true →
    comesIn s.pkg (rowMsg h 0x3F dst.val (.err st.val)) → s.pkg.agentReqs dst.val = [q] → q.txid = h.txid.val →
    (st.val = 1 → q.kind.caches = false) → s.pkg.readyTxn = none →
    Completes (.err dst h st) s (fun t => t.pkg.agentReqs dst.val = [] ∧
      [(dst.val, h.txid.val, st.val, [], false)] <:+ t.pkg.coh.answers ∧ t.pkg.pages = s.pkg.pages ∧ t.mode = s.mode)) ∧
  (∀ s (d : Die) (h : MsgHead) x, s.pkg.dieUp d.val = true → h.readable = true → comesIn s.pkg (rowMsg h 0x3F d.val .ack) →
    s.pkg.dline d.val h.line = some x → x.evicting = true → x.evTx = h.txid.val → x.pid = h.pid.val → s.pkg.readyTxn = none →
    Completes (.ack false d h) s (fun t => t.pkg.dline d.val h.line = none ∧ t.pkg.pages = s.pkg.pages ∧ t.mode = s.mode)) ∧
  (∀ s (d : Die) (h : MsgHead) x, s.pkg.dieUp d.val = true → h.readable = true → comesIn s.pkg (rowMsg h d.val 0x3F .ack) →
    s.pkg.coh.txns = [x] → x.req.line = h.line → x.req.txid = h.txid.val → x.req.src = d.val → x.req.pid = h.pid.val →
    x.granted = true →
    Completes (.ack true d h) s (fun t => t.pkg.coh.txns = [] ∧ t.mode = s.mode ∧ t.pkg.hbm = s.pkg.hbm)) ∧
  (∀ s (d : Die) (h : MsgHead) x w e, awaitsRsp s.pkg d h x → comesIn s.pkg (rowMsg h d.val 0x3F (.snpRsp 1)) →
    x.snoops = [d.val] → x.req.kind = .rdo → s.pkg.dirFind h.line = some (w, e) → e.own = true →
    (∀ f ∈ s.pkg.coh.net, ∀ b mask dirty poison, f.msg.body = .wbData b mask dirty poison → f.msg.line ≠ h.line) →
    Completes (.snprsp d h 1) s (fun t => Sent t [x.req.answer (.cmp 3 true)] ∧
      (t.pkg.dirSet (dirKey h.line)).ent w = some
        { e with
          own := true, pres := 2 ^ x.req.src, pid := x.req.pid,
          fenced := 2 ^ x.req.src &&& s.pkg.fenceVec (mcOf h.line) != 0 } ∧ t.mode = s.mode ∧ t.pkg.hbm = s.pkg.hbm)) ∧
  (∀ s (d : Die) (h : MsgHead) x, awaitsRsp s.pkg d h x → comesIn s.pkg (rowMsg h d.val 0x3F (.snpRsp 2)) →
    x.snoops = [d.val] → x.data = none →
    Completes (.snprsp d h 2) s (fun t => t.pkg.coh.txns = [{ x with snoops := [], await := [d.val] }] ∧
      t.pkg.coh.dirs = s.pkg.coh.dirs ∧ t.mode = s.mode ∧ t.pkg.hbm = s.pkg.hbm)) ∧
  (∀ s (d d2 : Die) (h : MsgHead) x w e, awaitsRsp s.pkg d h x → comesIn s.pkg (rowMsg h d.val 0x3F (.snpRsp 0)) →
    x.snoops = [d.val, d2.val] → d ≠ d2 → s.pkg.dirFind h.line = some (w, e) → e.own = false →
    Completes (.snprsp d h 0) s (fun t => t.pkg.coh.txns = [{ x with snoops := [d2.val] }] ∧
      (t.pkg.dirSet (dirKey h.line)).ent w = some { e with pres := e.pres &&& (0xFFF - 2 ^ d.val) } ∧
      t.mode = s.mode ∧ t.pkg.hbm = s.pkg.hbm))

/-- The directory's own work: the audit reads entry after entry in the modes of R69 and a free one passes (R229), an entry can be
read in ACTIVE, and its code acts (R229, R256), a purge reads set after set and its end clears FENCEVEC (R247), a drain ends and
the cores it held go on (R248), a sweep ends with the DCS event (R250). Where there is no such work the row does nothing. -/
def Obligations.DirectoryWorkAdvances : Prop :=
  (∀ s (n : Fin 16), s.pkg.quotaOn s.mode.mode s.pkg.frameNum [.run, .degraded, .quiesce, .drizzle] = true →
    s.pkg.loadHold (pgDS n.val) = false → (s.pkg.page (pgDS n.val)).work < s.pkg.audQ n.val →
    (s.pkg.dirSet (n.val * 32768 + tblGet (fun _ => 0) s.pkg.coh.audit n.val / 16)).ent
      (tblGet (fun _ => 0) s.pkg.coh.audit n.val % 16) = none →
    Completes (.directoryAudit n .clean) s (fun t =>
      tblGet (fun _ => 0) t.pkg.coh.audit n.val = (tblGet (fun _ => 0) s.pkg.coh.audit n.val + 1) % 524288 ∧
      (t.pkg.page (pgDS n.val)).work = (s.pkg.page (pgDS n.val)).work + 1 ∧
      t = { s with pkg := { s.pkg with pages := t.pkg.pages, coh := { s.pkg.coh with audit := t.pkg.coh.audit } } })) ∧
  (∀ s (n : Fin 16) code, (s.pkg.quotaOn s.mode.mode s.pkg.frameNum [.run, .degraded, .quiesce, .drizzle] = false ∨
      s.pkg.loadHold (pgDS n.val) = true ∨ s.pkg.audQ n.val ≤ (s.pkg.page (pgDS n.val)).work) →
    exec (.directoryAudit n code) s = .next s) ∧
  (∀ s who (n : Fin 16) (set : Fin 32768) (way : Fin 16) code, s.pkg.commands who (pgDS n.val) = true →
    s.pkg.blkState (pgDS n.val) = 1 → s.pkg.busy (pgDS n.val) = false →
    Completes (.dirrd who n set way code) s (fun t => LastCmd t.pkg (pgDS n.val) 0xC00 1 ∧ t.mode = s.mode ∧
      t.pkg.coh = s.pkg.coh ∧
      t.pkg.reg (pgDS n.val) 0xC08 = dirWord ((s.pkg.dirSet (n.val * 32768 + set.val)).ent way.val) ∧
      (code = .clean ∨ (s.pkg.dirSet (n.val * 32768 + set.val)).ent way.val = none → OnlyPages s t) ∧
      (code = .uncorrectable → (s.pkg.dirSet (n.val * 32768 + set.val)).ent way.val ≠ none → t.pkg.stw.pcsRaised = true))) ∧
  (∀ s who (n : Fin 16) (set : Fin 32768) (way : Fin 16) code, s.pkg.commands who (pgDS n.val) = true →
    s.pkg.blkState (pgDS n.val) ≠ 1 →
    Completes (.dirrd who n set way code) s (fun t => LastCmd t.pkg (pgDS n.val) 0xC00 3 ∧ OnlyPagesStw s t ∧
      t.pkg.reg (pgDS n.val) 0xC08 = s.pkg.reg (pgDS n.val) 0xC08)) ∧
  (∀ s (n : Fin 16) (d : Die), 1 ≤ tblGet (fun _ => 0) s.pkg.coh.purge (n.val * 16 + d.val) →
    tblGet (fun _ => 0) s.pkg.coh.purge (n.val * 16 + d.val) ≤ 32768 →
    Completes (.directoryPurge n d) s (fun t =>
      tblGet (fun _ => 0) t.pkg.coh.purge (n.val * 16 + d.val) =
        tblGet (fun _ => 0) s.pkg.coh.purge (n.val * 16 + d.val) + 1 ∧ t.mode = s.mode ∧ t.pkg.cores = s.pkg.cores)) ∧
  (∀ s (n : Fin 16) (d : Die), (tblGet (fun _ => 0) s.pkg.coh.purge (n.val * 16 + d.val) = 0 ∨
      32768 < tblGet (fun _ => 0) s.pkg.coh.purge (n.val * 16 + d.val)) → exec (.directoryPurge n d) s = .next s) ∧
  (∀ s (d : Die), s.pkg.purgeDone d.val = true →
    Completes (.purgeComplete d) s (fun t => (∀ n, n < 16 → t.pkg.rf (pgDS n) 0x208 d.val d.val = 0) ∧
      t = { s with pkg := { s.pkg with pages := t.pkg.pages, coh := { s.pkg.coh with purge := t.pkg.coh.purge } } })) ∧
  (∀ s (d : Die), s.pkg.purgeDone d.val = false → exec (.purgeComplete d) s = .next s) ∧
  (∀ s (d : Die) (pid : Pid), (d.val, pid.val) ∈ s.pkg.coh.drains →
    Completes (.lastCoreDrain d pid) s (fun t => (d.val, pid.val) ∉ t.pkg.coh.drains ∧ t.mode = s.mode)) ∧
  (∀ s (d : Die) (pid : Pid), (d.val, pid.val) ∉ s.pkg.coh.drains → exec (.lastCoreDrain d pid) s = .next s) ∧
  (∀ s (pid : Pid), tblGet (fun _ => 0) s.pkg.coh.sweeps pid.val ≠ 0 →
    Completes (.dcsSweepComplete pid) s (fun t => tblGet (fun _ => 0) t.pkg.coh.sweeps pid.val = 0 ∧
      (t.pkg.part pid.val).logged = true ∧
      ∃ e, t.pkg.stw.events.head? = some e ∧ e.code = 0x0F ∧ e.pid = some pid.val ∧
        e.detail = BitVec.ofNat 64 (tblGet (fun _ => 0) s.pkg.coh.sweeps pid.val - 1))) ∧
  (∀ s (pid : Pid), tblGet (fun _ => 0) s.pkg.coh.sweeps pid.val = 0 → exec (.dcsSweepComplete pid) s = .next s)

/-! ### Timeouts and credit books -/

/-- A request of agent `a` with this TXID that has seen more ticks than its timeout allows. -/
def expired (p : Pkg) (a txid : Nat) : Option AgentReq :=
  (p.agentReqs a).find? (fun q => q.txid == txid && decide (p.agentTmo a < q.age))

/-- Timeouts (R266, R268): an uncached access that has expired gets an error response, a coherent request or a home's snoop is a
domain checkstop of its PID, each with its TXID in quarantine; a device access of a die's core gets an error response; a port's
request that has waited too long ends; and where nothing has expired nothing happens. -/
def timeoutRules : Prop :=
  (∀ s (a : Fin 64) (txid : Fin 1024) q, expired s.pkg a.val txid.val = some q → q.kind.caches = false →
    Completes (.transactionTimeout a txid) s (fun t => (∀ r ∈ t.pkg.agentReqs a.val, r.txid ≠ txid.val) ∧
      (a.val, txid.val) ∈ t.pkg.coh.quarantine ∧ [(a.val, txid.val, 1, [], false)] <:+ t.pkg.coh.answers ∧
      t.pkg.coh.txns = s.pkg.coh.txns ∧ t.mode = s.mode)) ∧
  (∀ s (a : Fin 64) (txid : Fin 1024) q, expired s.pkg a.val txid.val = some q → q.kind.caches = true → q.pid < 128 →
    Completes (.transactionTimeout a txid) s (fun t => (∀ r ∈ t.pkg.agentReqs a.val, r.txid ≠ txid.val) ∧
      (a.val, txid.val) ∈ t.pkg.coh.quarantine ∧ t.pkg.dcs q.pid = true ∧ t.mode = s.mode)) ∧
  (∀ s (a : Fin 64) (txid : Fin 1024) x, expired s.pkg a.val txid.val = none → s.pkg.coh.txns = [x] → x.req.txid = txid.val →
    a.val = 0x30 + mcOf x.req.line → x.snoops ≠ [] → s.pkg.agentTmo a.val < x.age → x.req.pid < 128 →
    Completes (.transactionTimeout a txid) s (fun t => (a.val, txid.val) ∈ t.pkg.coh.quarantine ∧
      t.pkg.dcs x.req.pid = true ∧ t.mode = s.mode)) ∧
  (∀ s (a : Fin 64) (txid : Fin 1024) lc x, expired s.pkg a.val txid.val = none → s.pkg.coh.txns = [] → a.val < 12 →
    lc / 18 = a.val → (s.pkg.core lc).io = [x] → x.tag = txid.val → x.answer = none → s.pkg.agentTmo a.val < x.age →
    Completes (.transactionTimeout a txid) s (fun t => (t.pkg.core lc).io = [{ x with answer := some none }] ∧
      (a.val, txid.val) ∈ t.pkg.coh.quarantine ∧ t.mode = s.mode)) ∧
  (∀ s (a : Fin 64) (txid : Fin 1024) x, expired s.pkg a.val txid.val = none → s.pkg.coh.txns = [] →
    (a.val < 12 → s.pkg.deviceWaits a.val txid.val (fun n => decide (s.pkg.agentTmo a.val < n)) = false) →
    s.pkg.inq.find? (fun x => x.agent == a.val) = some x → s.pkg.agentTmo a.val < x.age →
    Completes (.transactionTimeout a txid) s (fun t => t.pkg.inq = s.pkg.inq.erase x ∧
      t.pkg.coh = s.pkg.coh ∧ t.pkg.hbm = s.pkg.hbm ∧ t.mode = s.mode)) ∧
  (∀ s (a : Fin 64) (txid : Fin 1024), expired s.pkg a.val txid.val = none → s.pkg.coh.txns = [] →
    (a.val < 12 → s.pkg.deviceWaits a.val txid.val (fun n => decide (s.pkg.agentTmo a.val < n)) = false) →
    (∀ x ∈ s.pkg.inq, x.agent ≠ a.val ∨ x.age ≤ s.pkg.agentTmo a.val) → exec (.transactionTimeout a txid) s = .next s)

/-- H + R + O less G of a book as its census finds it: as latched at the tick where an audit overran, and what an error on the
wires has done since (R72, R270). -/
def censusDiff (p : Pkg) (b : Nat × Nat) (drift : Int) : Int := (p.book b).mark.getD (p.bookDiff b) + drift

/-- The census takes the book: the audit runs on its page, the page has it, it is not under repair, and this audit has not taken it
yet (R69, R270, R274). -/
def censusTakes (s : State) (b : Nat × Nat) : Prop :=
  s.pkg.censusRuns s.mode b.1 = true ∧ bookOf b.1 b.2 = true ∧ (∀ x ∈ s.pkg.fabric.repairs, ¬ (x.1 = b.1 ∧ x.2.1 = b.2)) ∧
    b ∉ s.pkg.fabric.seen

/-- Timeouts quarantine their TXID and a late message frees it (R266 to R268); a census that balances is counted, one that
does not makes the book due for repair and is shown in LASTBOOK, and one that is not due does nothing; a repair ends when the
wires and buffers are empty, with H at G, or, after 16 frames, fences the die or is a package checkstop (R270 to R272). -/
def Obligations.TimeoutsAndBooksAreRepaired : Prop :=
  timeoutRules ∧
  (∀ s (a : Fin 64) (txid : Fin 1024), (a.val, txid.val) ∈ s.pkg.coh.quarantine →
    Completes (.lateMessage a txid) s (fun t => (a.val, txid.val) ∉ t.pkg.coh.quarantine ∧
      t.pkg.rf (agentPage a.val) 0x218 63 0 = min (s.pkg.rf (agentPage a.val) 0x218 63 0 + 1) (2 ^ 64 - 1) ∧
      t = { s with pkg := { s.pkg with pages := t.pkg.pages, coh := { s.pkg.coh with quarantine := t.pkg.coh.quarantine } } })) ∧
  (∀ s (a : Fin 64) (txid : Fin 1024), (a.val, txid.val) ∉ s.pkg.coh.quarantine → exec (.lateMessage a txid) s = .next s) ∧
  (∀ s pg book drift, censusTakes s (pgOf pg, book.toNat) → censusDiff s.pkg (pgOf pg, book.toNat) drift = 0 →
    Completes (.creditCensus pg book drift true) s (fun t =>
      tblGet (fun _ => (0, 0)) t.pkg.fabric.counts (pgOf pg) =
        ((tblGet (fun _ => (0, 0)) s.pkg.fabric.counts (pgOf pg)).1 + 1,
          (tblGet (fun _ => (0, 0)) s.pkg.fabric.counts (pgOf pg)).2) ∧
      (pgOf pg, book.toNat) ∈ t.pkg.fabric.seen ∧ t.pkg.fabric.bad = s.pkg.fabric.bad ∧
      (t.pkg.book (pgOf pg, book.toNat)).spent = (s.pkg.book (pgOf pg, book.toNat)).spent - drift ∧
      t = { s with pkg := { s.pkg with fabric := t.pkg.fabric } })) ∧
  (∀ s pg book drift ended, censusTakes s (pgOf pg, book.toNat) →
    (ended = false ∨ censusDiff s.pkg (pgOf pg, book.toNat) drift ≠ 0) →
    Completes (.creditCensus pg book drift ended) s (fun t => (pgOf pg, book.toNat) ∈ t.pkg.fabric.bad ∧
      (tblGet (fun _ => (0, 0)) t.pkg.fabric.counts (pgOf pg)).2 =
        (tblGet (fun _ => (0, 0)) s.pkg.fabric.counts (pgOf pg)).2 + 1 ∧
      (∀ b n, blkOf (pgOf pg) = some (b, n) → b ≠ .mp → t.pkg.rf (pgOf pg) 0x200 15 0 = book.toNat) ∧ t.mode = s.mode)) ∧
  (∀ s pg book drift ended, ¬ censusTakes s (pgOf pg, book.toNat) → exec (.creditCensus pg book drift ended) s = .next s) ∧
  (∀ s pg book, (pgOf pg, book.toNat) ∈ s.pkg.fabric.due →
    Completes (.creditRepair pg book) s (fun t =>
      t.pkg.fabric.repairs = s.pkg.fabric.repairs ++ [(pgOf pg, book.toNat, 0)] ∧
      t.pkg.fabric.due = s.pkg.fabric.due.erase (pgOf pg, book.toNat) ∧
      t = { s with pkg := { s.pkg with pages := t.pkg.pages, fabric := t.pkg.fabric } })) ∧
  (∀ s pg book, (pgOf pg, book.toNat) ∉ s.pkg.fabric.due → exec (.creditRepair pg book) s = .next s) ∧
  (∀ s pg book (n : Nat), s.pkg.repairAge (pgOf pg) book.toNat = some n → s.pkg.onWires (pgOf pg, book.toNat) = 0 →
    s.pkg.buffered (pgOf pg, book.toNat) = 0 → (s.pkg.book (pgOf pg, book.toNat)).rets = 0 →
    Completes (.creditRepairComplete pg book) s (fun t => t.pkg.repairAge (pgOf pg) book.toNat = none ∧
      (t.pkg.book (pgOf pg, book.toNat)).spent = 0 ∧
      t = { s with pkg := { s.pkg with pages := t.pkg.pages, fabric := t.pkg.fabric } })) ∧
  (∀ s pg book, (s.pkg.repairAge (pgOf pg) book.toNat = none ∨ s.pkg.onWires (pgOf pg, book.toNat) ≠ 0 ∨
      s.pkg.buffered (pgOf pg, book.toNat) ≠ 0 ∨ (s.pkg.book (pgOf pg, book.toNat)).rets ≠ 0) →
    exec (.creditRepairComplete pg book) s = .next s) ∧
  (∀ s pg book (n : Nat) (d : Die), (pgOf pg = pgMP d.val ∨ pgOf pg = pgRING d.val) →
    s.pkg.repairAge (pgOf pg) book.toNat = some n → 16 ≤ n → s.pkg.dieFenced d.val = false →
    Completes (.repairLimitExpiry pg book) s (fun t => t.pkg.dieState d.val = 4 ∧
      t.pkg.rf (pgMP d.val) 0x200 39 32 = 5 ∧ t.pkg.repairAge (pgOf pg) book.toNat = none)) ∧
  (∀ s pg book (n : Nat), pgOf pg = pgGRID → s.pkg.repairAge (pgOf pg) book.toNat = some n → 16 ≤ n →
    Completes (.repairLimitExpiry pg book) s (fun t => t.pkg.stw.pcsRaised = true ∧
      t.pkg.repairAge (pgOf pg) book.toNat = none ∧ t.mode = s.mode)) ∧
  (∀ s pg book, (∀ n, s.pkg.repairAge (pgOf pg) book.toNat = some n → n < 16) →
    exec (.repairLimitExpiry pg book) s = .next s)
/-! ### The ledger engine -/

/-- The command in slot `k` has ended with a STATUS and RESULT; its completion is still to be posted. -/
def lcmdEnded (p : Pkg) (k : Nat) (c : LedgerCmd) (st res : Nat) : Prop :=
  p.lcmd k = some { c with fin := some (st, res), adm := none, buf := none, mirror := none }

/-- A doorbell that is accepted: it reaches, its requester may write it, the engine is not in PF_HOLD, the queue pair is
ACTIVE and the value is below its size (R343). -/
def bellTaken (p : Pkg) (who : Requester) (q : Fin 256) (v : Word) : Prop :=
  p.reaches who (pgLEDB (q.val / 64)) = true ∧ p.bellOk who (p.qp q.val).pid = true ∧ p.lePhase ≠ 3 ∧
    (p.qp q.val).st = 1 ∧ v.toNat % 4096 < (p.qp q.val).size

/-- Queue pairs (R342 to R346, R352, R358, R361, R364, R366): doorbells move their index, are discarded in PF_HOLD, or set DBBAD
or DBDENY; an entry is fetched into a slot; a completion is posted, and a queue pair being deleted is gone with its last one;
queue pairs are created, reset, deleted and read; a Flush waits for the commands before it; recovery starts at a power-up. -/
def Obligations.LedgerQueuesAdvance : Prop :=
  (∀ s who q v, bellTaken s.pkg who q v →
    Completes (.sqtDoorbell who q v) s (fun t => t.pkg.qp q.val = { s.pkg.qp q.val with sqt := v.toNat % 4096 } ∧
      (∀ j, j ≠ q.val → t.pkg.qp j = s.pkg.qp j) ∧ t.pkg.ledger.slots = s.pkg.ledger.slots ∧
      t.pkg.ledger.ns = s.pkg.ledger.ns ∧ t.mode = s.mode)) ∧
  (∀ s who q v, bellTaken s.pkg who q v →
    (v.toNat % 4096 + (s.pkg.qp q.val).size - (s.pkg.qp q.val).cqh) % (s.pkg.qp q.val).size ≤ (s.pkg.qp q.val).unread →
    Completes (.cqhDoorbell who q v) s (fun t => t.pkg.qp q.val = { s.pkg.qp q.val with cqh := v.toNat % 4096 } ∧
      (∀ j, j ≠ q.val → t.pkg.qp j = s.pkg.qp j) ∧ t.pkg.pages = s.pkg.pages ∧
      t.pkg.ledger.slots = s.pkg.ledger.slots ∧ t.mode = s.mode)) ∧
  (∀ s who q v c, s.pkg.reaches who (pgLEDB (q.val / 64)) = true → s.pkg.bellOk who (s.pkg.qp q.val).pid = false →
    bit (s.pkg.reg pgLE 0x030) 18 = false → c ∈ [Instr.sqtDoorbell who q v, .cqhDoorbell who q v] →
    Completes c s (fun t => t.pkg.rf pgLE 0x028 18 18 = 1 ∧ t.pkg.ledger = s.pkg.ledger ∧
      t.pkg.out = some { tag := 0, status := 1, bytes := [], poison := false })) ∧
  (∀ s who q v c, s.pkg.reaches who (pgLEDB (q.val / 64)) = true → s.pkg.bellOk who (s.pkg.qp q.val).pid = true →
    c ∈ [Instr.sqtDoorbell who q v, .cqhDoorbell who q v] →
    (s.pkg.lePhase = 3 → Completes c s (fun t => t.pkg.pages = s.pkg.pages ∧ t.pkg.ledger = s.pkg.ledger ∧ t.mode = s.mode)) ∧
    (s.pkg.lePhase ≠ 3 → (s.pkg.qp q.val).st ≠ 1 ∨ (s.pkg.qp q.val).size ≤ v.toNat % 4096 → bit (s.pkg.reg pgLE 0x030) 19 = false →
      Completes c s (fun t => t.pkg.rf pgLE 0x028 19 19 = 1 ∧ t.pkg.ledger = s.pkg.ledger ∧ t.mode = s.mode))) ∧
  (∀ s who q v c, s.pkg.reaches who (pgLEDB (q.val / 64)) = false →
    c ∈ [Instr.sqtDoorbell who q v, .cqhDoorbell who q v] →
    Completes c s (fun t => t.pkg.ledger = s.pkg.ledger ∧ t.pkg.hbm = s.pkg.hbm ∧ t.mode = s.mode ∧
      t.pkg.out = some { tag := 0, status := 1, bytes := [], poison := false })) ∧
  (∀ s q k b p, s.pkg.leRuns = true → s.mode.quiescing = false → s.pkg.nextQp s.mode.mode = some q →
    (List.range 4096).find? (fun k => (s.pkg.lcmd k).isNone) = some k →
    s.pkg.devRead 0x10 (s.pkg.qp q).pid ((s.pkg.qp q).sq + 64 * (s.pkg.qp q).sqh) 64 = (.ok b false, p) →
    Completes .entryFetch s (fun t => t.pkg.qp q = { p.qp q with sqh := ((p.qp q).sqh + 1) % (p.qp q).size } ∧
      (∃ c, t.pkg.lcmd k = some c ∧ c.qp = q ∧ c.ent = entryQuads b ∧ c.ord = p.ledger.ord) ∧
      t.pkg.ledger.ord = p.ledger.ord + 1 ∧ t.mode = s.mode)) ∧
  (∀ s, s.pkg.leRuns = false ∨ s.mode.quiescing = true ∨ s.pkg.nextQp s.mode.mode = none → exec .entryFetch s = .next s) ∧
  (∀ s (k : Fin 4096) c st res p b po, s.pkg.lcmd k.val = some c → c.fin = some (st, res) → s.pkg.lePhase ≠ 0 →
    s.pkg.mayPost c st = true →
    s.pkg.devWrite 0x10 (s.pkg.qp c.qp).pid ((s.pkg.qp c.qp).cq + 16 * (s.pkg.qp c.qp).cqt)
      (cqEntry c (s.pkg.qp c.qp).phase st res) = (.ok b po, p) → (p.qp c.qp).dying = false →
    Completes (.completionPosting k) s (fun t => t.pkg.lcmd k.val = none ∧
      (t.pkg.qp c.qp).cqt = ((p.qp c.qp).cqt + 1) % (p.qp c.qp).size ∧
      (t.pkg.qp c.qp).phase = (if ((p.qp c.qp).cqt + 1) % (p.qp c.qp).size = 0 then !(p.qp c.qp).phase
        else (p.qp c.qp).phase) ∧ t.mode = s.mode)) ∧
  (∀ s (k : Fin 4096) c st res p b po, s.pkg.lcmd k.val = some c → c.fin = some (st, res) → s.pkg.lePhase ≠ 0 →
    s.pkg.mayPost c st = true →
    s.pkg.devWrite 0x10 (s.pkg.qp c.qp).pid ((s.pkg.qp c.qp).cq + 16 * (s.pkg.qp c.qp).cqt)
      (cqEntry c (s.pkg.qp c.qp).phase st res) = (.ok b po, p) → (p.qp c.qp).dying = true →
    (∀ e ∈ p.lcmds, e.2.qp = c.qp → e.1 = k.val) →
    Completes (.completionPosting k) s (fun t => t.pkg.qp c.qp = QueuePair.reset ∧ t.mode = s.mode)) ∧
  (∀ s (k : Fin 4096), (∀ c, s.pkg.lcmd k.val = some c → c.fin = none) ∨ s.pkg.lePhase = 0 →
    exec (.completionPosting k) s = .next s) ∧
  (∀ s (k : Fin 4096) c, s.pkg.lcmdReady k.val 0x84 = some c → fld (c.quad 4) 7 0 ≠ 0 →
    (s.pkg.qp (fld (c.quad 4) 7 0)).st = 0 →
    Completes (.createQp k) s (fun t => lcmdEnded t.pkg k.val c 0 0 ∧
      (t.pkg.qp (fld (c.quad 4) 7 0)).st = 1 ∧ (t.pkg.qp (fld (c.quad 4) 7 0)).pid = fld (c.quad 4) 14 8 ∧
      (t.pkg.qp (fld (c.quad 4) 7 0)).sq = (c.quad 5).toNat ∧ (t.pkg.qp (fld (c.quad 4) 7 0)).cq = (c.quad 6).toNat ∧
      (∀ j, j ≠ fld (c.quad 4) 7 0 → t.pkg.qp j = s.pkg.qp j) ∧
      t = { s with pkg := { s.pkg with ledger := t.pkg.ledger } })) ∧
  (∀ s (k : Fin 4096) c e, s.pkg.lcmdReady k.val e.2 = some c → (fld (c.quad 4) 7 0 = 0 ∨
      ((s.pkg.qp (fld (c.quad 4) 7 0)).st = 0 ↔ e.2 ≠ 0x84)) → e ∈ [(Instr.createQp k, 0x84), (.deleteQp k, 0x85), (.resetQp k, 0x86)] →
    Completes e.1 s (fun t => lcmdEnded t.pkg k.val c 0x0F 0 ∧ (∀ j, t.pkg.qp j = s.pkg.qp j) ∧
      t = { s with pkg := { s.pkg with ledger := t.pkg.ledger } })) ∧
  (∀ s (k : Fin 4096) c e, s.pkg.lcmdReady k.val e.2 = some c → fld (c.quad 4) 7 0 ≠ 0 →
    (∀ x ∈ s.pkg.lcmds, x.2.qp = fld (c.quad 4) 7 0 → x.1 ≠ k.val) →
    (s.pkg.qp (fld (c.quad 4) 7 0)).st ≠ 0 → s.pkg.dcs (s.pkg.qp (fld (c.quad 4) 7 0)).pid = false →
    s.pkg.inflight (fld (c.quad 4) 7 0) ≠ 0 → e ∈ [(Instr.deleteQp k, 0x85), (.resetQp k, 0x86)] →
    Completes e.1 s (fun t => t.pkg.lcmd k.val = some c ∧ (t.pkg.qp (fld (c.quad 4) 7 0)).st = 2 ∧
      t = { s with pkg := { s.pkg with ledger := t.pkg.ledger } })) ∧
  (∀ s (k : Fin 4096) c (del : Bool), s.pkg.lcmdReady k.val (if del then 0x85 else 0x86) = some c → fld (c.quad 4) 7 0 ≠ 0 →
    (s.pkg.qp (fld (c.quad 4) 7 0)).st ≠ 0 → s.pkg.dcs (s.pkg.qp (fld (c.quad 4) 7 0)).pid = false →
    s.pkg.inflight (fld (c.quad 4) 7 0) = 0 →
    Completes (if del then .deleteQp k else .resetQp k) s (fun t => lcmdEnded t.pkg k.val c 0 0 ∧
      t.pkg.qp (fld (c.quad 4) 7 0) = (if del then QueuePair.reset
        else { s.pkg.qp (fld (c.quad 4) 7 0) with
               st := 1, sqt := 0, sqh := 0, cqt := 0, cqh := 0, phase := true, cause := 0 }) ∧
      t = { s with pkg := { s.pkg with ledger := t.pkg.ledger } })) ∧
  (∀ s (k : Fin 4096) c, s.pkg.lcmdReady k.val 4 = some c →
    (∀ e ∈ s.pkg.lcmds, e.2.qp = c.qp → c.ord ≤ e.2.ord) →
    Completes (.flush k) s (fun t => lcmdEnded t.pkg k.val c 0 0 ∧ (∀ j, j ≠ k.val → t.pkg.lcmd j = s.pkg.lcmd j) ∧
      t = { s with pkg := { s.pkg with ledger := t.pkg.ledger } })) ∧
  (∀ s (k : Fin 4096) e, s.pkg.lcmdReady k.val e.2 = none → e ∈ [(Instr.createQp k, 0x84), (.deleteQp k, 0x85), (.resetQp k, 0x86),
      (.flush k, 4)] → exec e.1 s = .next s) ∧
  (∀ s (k : Fin 4096) c, s.pkg.lcmdReady k.val 4 = some c → (∃ e ∈ s.pkg.lcmds, e.2.qp = c.qp ∧ e.2.ord < c.ord) →
    exec (.flush k) s = .next s) ∧
  (∀ s who (q : Fin 256), s.pkg.commands who pgLE = true → s.pkg.loadHold pgLE = false →
    Completes (.qprd who q) s (fun t => OnlyPages s t ∧ LastCmd t.pkg pgLE 0xC00 1 ∧
      t.pkg.reg pgLE 0xC08 = s.pkg.qpData q.val)) ∧
  (∀ s who (q : Fin 256), s.pkg.commands who pgLE = true → s.pkg.loadHold pgLE = true →
    Completes (.qprd who q) s (fun t => OnlyPagesStw s t ∧ LastCmd t.pkg pgLE 0xC00 3 ∧
      t.pkg.reg pgLE 0xC08 = s.pkg.reg pgLE 0xC08)) ∧
  (∀ s, s.pkg.pw.hubMain = true → s.pkg.lePhase = 0 → s.pkg.loadHold pgLE = false →
    (∀ n, n < 2 → s.pkg.lsState n = 2 ∨ s.pkg.lsState n = 3) →
    Completes .recovery s (fun t => t.pkg.lePhase = 1 ∧
      t.pkg.reg pgLE 0x218 = BitVec.ofNat 64 (if s.pkg.ledger.seqMax = 0 then 0 else s.pkg.ledger.seqMax + 2 ^ 32) ∧
      t = { s with pkg := { s.pkg with
        pages := t.pkg.pages, stw := t.pkg.stw, ledger := { s.pkg.ledger with pfHeld := false } } })) ∧
  (∀ s, s.pkg.pw.hubMain = false ∨ s.pkg.lePhase ≠ 0 ∨ s.pkg.loadHold pgLE = true ∨
      (∃ n, n < 2 ∧ s.pkg.lsState n ≠ 2 ∧ s.pkg.lsState n ≠ 3) → exec .recovery s = .next s)

/-- An I/O command that the engine may carry out now: its namespace is there and its range and mode allow it. -/
def ioReady (s : State) (k opc : Nat) (c : LedgerCmd) (n : LedgerNs) : Prop :=
  s.pkg.lcmdReady k opc = some c ∧ s.pkg.lns c.nsid = some n ∧ c.refusal n (decide (opc ≠ 1)) = none

/-- The data of a write has been read into the engine's buffer. -/
def writeBuffered (p : Pkg) (k : Nat) (c : LedgerCmd) (b : List Byte) : Prop := p.lcmd k = some { c with buf := some b }

/-- A mirrored write reaches its target, which works and accepts it (R359, R360, R472). -/
def mirrorTaken (s : State) (src dst : Fin 32) (gen : Byte) (srcNs peerNs : Fin 128) (lba : Nat) (sectors : List (List Byte)) :
    Prop :=
  s.pkg.pw.hubMain = true ∧ s.pkg.chainValid = true ∧ gen.toNat = s.pkg.chainGen ∧ dst.val = s.pkg.chainAddr ∧
    s.pkg.leRuns = true ∧ bit (s.pkg.reg pgKEYV 0x200) 1 = true ∧ 1 ≤ sectors.length ∧ (∀ b ∈ sectors, b.length = 4096) ∧
    s.pkg.mirrorOk s.mode.mode src.val srcNs.val peerNs.val lba sectors.length = true

/-- What the ledger's commands do (R350 to R360): reads deliver their sectors; writes are buffered, admitted, and commit whole in
class UNIT or sector by sector in class SECTOR with the next commit sequence, or end CAPACITY; a Compare-and-Write that differs
ends COMPARE_FAIL and one that equals is buffered; namespaces are made, given new mirror fields and deleted; structures are
written to their buffers; and mirrored writes go both ways. A row whose command is not ready does nothing. -/
def Obligations.LedgerCommandsAct : Prop :=
  (∀ s (k : Fin 4096) c n b p r po, ioReady s k.val 1 c n →
    ((s.pkg.useNsKey c.nsid).readSectors c.nsid c.lba c.sectors).1 = some b →
    (((s.pkg.useNsKey c.nsid).readSectors c.nsid c.lba c.sectors).2).devWrite 0x10
      ((((s.pkg.useNsKey c.nsid).readSectors c.nsid c.lba c.sectors).2).qp c.qp).pid c.dptr b = (.ok r po, p) →
    Completes (.ledgerRead k) s (fun t => lcmdEnded t.pkg k.val c 0 0 ∧ t.pkg.coh = p.coh ∧ t.pkg.hbm = p.hbm ∧
      t.mode = s.mode)) ∧
  (∀ s (k : Fin 4096) opc c n st, s.pkg.lcmdReady k.val opc = some c → s.pkg.lns c.nsid = some n → c.buf = none →
    c.refusal n (decide (opc ≠ 1)) = some st → opc ∈ [1, 2, 3, 5] →
    Completes (match opc with | 1 => .ledgerRead k | 2 => .write k | 3 => .writeMirrored k | _ => .compareAndWrite k) s
      (fun t => lcmdEnded t.pkg k.val c st 0 ∧ t.pkg.hbm = s.pkg.hbm ∧ t.pkg.ledger.ns = s.pkg.ledger.ns)) ∧
  (∀ s (k : Fin 4096) opc c n b p, opc = 2 ∨ opc = 3 → ioReady s k.val opc c n → c.buf = none →
    (s.pkg.useNsKey c.nsid).devRead 0x10 (s.pkg.qp c.qp).pid c.dptr (c.sectors * 4096) = (.ok b false, p) →
    Completes (if opc = 2 then .write k else .writeMirrored k) s (fun t => writeBuffered t.pkg k.val c b ∧
      t.pkg.hbm = p.hbm ∧ t.pkg.ledger.ns = p.ledger.ns ∧ t.mode = s.mode)) ∧
  (∀ s (k : Fin 4096) c n cmp p old i, ioReady s k.val 5 c n → c.buf = none →
    (s.pkg.useNsKey c.nsid).devRead 0x10 (s.pkg.qp c.qp).pid c.cmpptr (c.sectors * 4096) = (.ok cmp false, p) →
    (p.readSectors c.nsid c.lba c.sectors).1 = some old → ledgerDiff old cmp 0 = some i →
    Completes (.compareAndWrite k) s (fun t => lcmdEnded t.pkg k.val c 0x09 i ∧
      t.pkg.ledger.ns = (p.readSectors c.nsid c.lba c.sectors).2.ledger.ns ∧ t.mode = s.mode)) ∧
  (∀ s (k : Fin 4096) c n cmp p old b p2, ioReady s k.val 5 c n → c.buf = none →
    (s.pkg.useNsKey c.nsid).devRead 0x10 (s.pkg.qp c.qp).pid c.cmpptr (c.sectors * 4096) = (.ok cmp false, p) →
    (p.readSectors c.nsid c.lba c.sectors).1 = some old → ledgerDiff old cmp 0 = none →
    (p.readSectors c.nsid c.lba c.sectors).2.lns c.nsid = some n →
    ((p.readSectors c.nsid c.lba c.sectors).2.useNsKey c.nsid).devRead 0x10
      ((p.readSectors c.nsid c.lba c.sectors).2.qp c.qp).pid c.dptr (c.sectors * 4096) = (.ok b false, p2) →
    Completes (.compareAndWrite k) s (fun t => writeBuffered t.pkg k.val c b ∧ t.mode = s.mode)) ∧
  (∀ s (k : Fin 4096) e, s.pkg.lcmdReady k.val e.2 = none →
    e ∈ [(Instr.ledgerRead k, 1), (.write k, 2), (.writeMirrored k, 3), (.compareAndWrite k, 5), (.identify k, 0x81),
      (.createNamespace k, 0x82), (.deleteNamespace k, 0x83), (.getLog k, 0x87)] → exec e.1 s = .next s) ∧
  (∀ s (k : Fin 4096) c b po p, s.pkg.lcmdReady k.val 0x81 = some c → fld (c.quad 4) 1 0 = 0 →
    s.pkg.devWrite 0x10 (s.pkg.qp c.qp).pid c.dptr s.pkg.identEngine = (.ok b po, p) →
    Completes (.identify k) s (fun t => lcmdEnded t.pkg k.val c 0 0 ∧ t.pkg.coh = p.coh ∧ t.pkg.hbm = p.hbm ∧
      t.mode = s.mode)) ∧
  (∀ s (k : Fin 4096) c n b po p, s.pkg.lcmdReady k.val 0x81 = some c → fld (c.quad 4) 1 0 ≠ 0 → s.pkg.lns c.nsid = some n →
    s.pkg.devWrite 0x10 (s.pkg.qp c.qp).pid c.dptr (identNs n) = (.ok b po, p) →
    Completes (.identify k) s (fun t => lcmdEnded t.pkg k.val c 0 0 ∧ t.pkg.coh = p.coh ∧ t.pkg.hbm = p.hbm ∧
      t.mode = s.mode)) ∧
  (∀ s (k : Fin 4096) c b po p, s.pkg.lcmdReady k.val 0x87 = some c →
    s.pkg.devWrite 0x10 (s.pkg.qp c.qp).pid c.dptr (s.pkg.ledgerLog (fld (c.quad 4) 7 0)) = (.ok b po, p) →
    Completes (.getLog k) s (fun t => lcmdEnded t.pkg k.val c 0 0 ∧ t.pkg.coh = p.coh ∧ t.pkg.hbm = p.hbm ∧
      t.mode = s.mode)) ∧
  (∀ s (k : Fin 4096) c label p, s.pkg.lcmdReady k.val 0x82 = some c →
    s.pkg.devRead 0x10 (s.pkg.qp c.qp).pid c.dptr 32 = (.ok label false, p) → p.lns c.nsid = none →
    c.lba ≤ p.freeSectors →
    Completes (.createNamespace k) s (fun t => lcmdEnded t.pkg k.val c 0 0 ∧ (∃ n, t.pkg.lns c.nsid = some n ∧
      n.pid = fld (c.quad 4) 6 0 ∧ n.cap = c.lba ∧ n.label = label ∧ n.sectors = []) ∧
      (∀ j, j ≠ c.nsid → t.pkg.lns j = p.lns j) ∧ t.mode = s.mode)) ∧
  (∀ s (k : Fin 4096) c label p n, s.pkg.lcmdReady k.val 0x82 = some c →
    s.pkg.devRead 0x10 (s.pkg.qp c.qp).pid c.dptr 32 = (.ok label false, p) → p.lns c.nsid = some n → p.nsDying c.nsid = false →
    Completes (.createNamespace k) s (fun t => t.mode = s.mode ∧
      (n.pid = fld (c.quad 4) 6 0 ∧ n.label = label ∧ n.cap = c.lba → lcmdEnded t.pkg k.val c 0 0 ∧ t.pkg.lns c.nsid = some
        { n with mode := fld (c.quad 4) 9 8, peer := fld (c.quad 4) 20 16, peerNs := fld (c.quad 4) 30 24 }) ∧
      (¬ (n.pid = fld (c.quad 4) 6 0 ∧ n.label = label ∧ n.cap = c.lba) → lcmdEnded t.pkg k.val c 0x0E 0 ∧
        t.pkg.ledger.ns = p.ledger.ns))) ∧
  (∀ s (k : Fin 4096) c, s.pkg.lcmdReady k.val 0x83 = some c →
    (∀ e ∈ s.pkg.lcmds, e.2.io = true → e.2.nsid = c.nsid → c.ord ≤ e.2.ord) →
    Completes (.deleteNamespace k) s (fun t => lcmdEnded t.pkg k.val c 0 0 ∧ t.pkg.lns c.nsid = none ∧
      (∀ j, j ≠ c.nsid → t.pkg.lns j = s.pkg.lns j) ∧
      t = { s with pkg := { s.pkg with ledger := t.pkg.ledger, ce := t.pkg.ce } })) ∧
  (∀ s (k : Fin 4096) (st : Fin 2) c, s.pkg.lcmd k.val = some c → s.pkg.leRuns = true → c.fin = none →
    c.buf.isSome = true → c.mirror = none → c.adm = none → (s.pkg.qp c.qp).st ≠ 3 →
    s.pkg.admits st.val c.sectors = true →
    Completes (.writeAdmission k st) s (fun t => t.pkg.lcmd k.val = some
        { c with
          adm := some st.val,
          unit := s.pkg.lePhase == 2 && (s.mode.mode == .run || s.mode.mode == .degraded) } ∧
      (∀ j, j ≠ k.val → t.pkg.lcmd j = s.pkg.lcmd j) ∧ t = { s with pkg := { s.pkg with ledger := t.pkg.ledger } })) ∧
  (∀ s (k : Fin 4096) (st : Fin 2) c, s.pkg.lcmd k.val = some c → s.pkg.leRuns = true → c.fin = none →
    c.buf.isSome = true → c.mirror = none → c.adm = none → (s.pkg.qp c.qp).st ≠ 3 →
    (∀ n, n < 2 → s.pkg.lsState n ≠ 2 ∨ s.pkg.freeOn n < c.sectors) →
    Completes (.writeAdmission k st) s (fun t => lcmdEnded t.pkg k.val c 0x0D 0 ∧
      t = { s with pkg := { s.pkg with ledger := t.pkg.ledger } })) ∧
  (∀ s (k : Fin 4096) (st : Fin 2) c, s.pkg.lcmd k.val = some c → s.pkg.leRuns = false ∨ c.fin.isSome = true ∨ c.buf = none ∨
      c.mirror.isSome = true → exec (.writeAdmission k st) s = .next s) ∧
  (∀ s (k : Fin 4096) (st : Fin 2) c n b a, s.pkg.lcmd k.val = some c → s.pkg.leRuns = true → c.fin = none →
    c.buf = some b → b.length = c.sectors * 4096 → c.mirror = none → c.adm = some a → c.unit = false → c.opc ≠ 3 →
    s.pkg.lns c.nsid = some n → c.made < c.sectors →
    Completes (.writeAdmission k st) s (fun t => t.pkg.reg pgLE 0x218 = s.pkg.reg pgLE 0x218 + 1 ∧
      (if c.made + 1 = c.sectors then lcmdEnded t.pkg k.val c 0 ((s.pkg.reg pgLE 0x218).toNat + 1)
        else t.pkg.lcmd k.val = some { c with made := c.made + 1 }) ∧
      (∃ m y, t.pkg.lns c.nsid = some m ∧ m.sector (c.lba + c.made) = some y ∧
        y.bytes = (b.drop (c.made * 4096)).take 4096 ∧ y.stack = a ∧ y.bad = false ∧
        (∀ l, l ≠ c.lba + c.made → m.sector l = n.sector l)) ∧ t.mode = s.mode)) ∧
  (∀ s (k : Fin 4096) (st : Fin 2) c n b a, s.pkg.lcmd k.val = some c → s.pkg.leRuns = true → c.fin = none →
    c.buf = some b → b.length = c.sectors * 4096 → c.mirror = none → c.adm = some a → c.unit = true → c.opc ≠ 3 →
    s.pkg.lns c.nsid = some n →
    Completes (.writeAdmission k st) s (fun t =>
      lcmdEnded t.pkg k.val c 0 ((s.pkg.reg pgLE 0x218).toNat + 1) ∧
      t.pkg.reg pgLE 0x218 = s.pkg.reg pgLE 0x218 + 1 ∧ (∃ m, t.pkg.lns c.nsid = some m ∧
        (∀ i, i < c.sectors → m.sector (c.lba + i) = some
          { bytes := (b.drop (i * 4096)).take 4096, stack := a, phys := (s.pkg.freePhys a c.sectors).getD i 0, bad := false }) ∧
        (∀ l, l < c.lba ∨ c.lba + c.sectors ≤ l → m.sector l = n.sector l)) ∧ t.mode = s.mode)) ∧
  (∀ s (k : Fin 4096) c seq age, s.pkg.lcmd k.val = some c → c.mirror = some (seq, age) → s.pkg.mirTmo ≤ age →
    Completes (.mirrorTimeout k) s (fun t => lcmdEnded t.pkg k.val c 0x0A 0 ∧
      t.pkg.rf pgLE 0x228 63 0 = min (s.pkg.rf pgLE 0x228 63 0 + 1) (2 ^ 64 - 1) ∧ t.mode = s.mode)) ∧
  (∀ s (k : Fin 4096), (∀ c seq age, s.pkg.lcmd k.val = some c → c.mirror = some (seq, age) → age < s.pkg.mirTmo) →
    exec (.mirrorTimeout k) s = .next s) ∧
  (∀ s (src dst : Fin 32) gen wake (k : Fin 4096) ok c n seq age, s.pkg.pw.hubMain = true → s.pkg.chainValid = true →
    dst.val = s.pkg.chainAddr → s.pkg.lcmd k.val = some c → c.mirror = some (seq, age) → s.pkg.lns c.nsid = some n →
    n.peer = src.val →
    Completes (.mack src dst gen wake k ok) s (fun t => t.mode = s.mode ∧
      (ok = true → lcmdEnded t.pkg k.val c 0 seq ∧
        t = { s with pkg := { s.pkg with ledger := t.pkg.ledger, pw := t.pkg.pw } }) ∧
      (ok = false → lcmdEnded t.pkg k.val c 0x0A 0 ∧
        t.pkg.rf pgLE 0x228 63 0 = min (s.pkg.rf pgLE 0x228 63 0 + 1) (2 ^ 64 - 1)))) ∧
  (∀ s (src dst : Fin 32) gen wake (k : Fin 4096) ok, s.pkg.pw.hubMain = true → s.pkg.chainValid = true →
    dst.val = s.pkg.chainAddr → (∀ c, s.pkg.lcmd k.val = some c → c.mirror = none ∨
      ∀ n, s.pkg.lns c.nsid = some n → n.peer ≠ src.val) →
    Completes (.mack src dst gen wake k ok) s (fun t => t = { s with pkg := { s.pkg with pw := t.pkg.pw } } ∧
      (wake = false → t = s))) ∧
  (∀ s (src dst : Fin 32) gen wake (slot : Fin 4096) (srcNs peerNs : Fin 128) lba seq sectors (st : Fin 2) n,
    mirrorTaken s src dst gen srcNs peerNs lba sectors → s.pkg.lns peerNs.val = some n →
    (tblGet (fun _ => 0) n.applied (lba / 16) < seq → s.pkg.admits st.val sectors.length = true →
      Completes (.mirror src dst gen wake slot srcNs peerNs lba seq sectors st) s (fun t =>
        t.pkg.out = some { tag := slot.val, status := 0, bytes := [], poison := false } ∧
        (∃ m, t.pkg.lns peerNs.val = some m ∧ tblGet (fun _ => 0) m.applied (lba / 16) = seq ∧
          (∀ i, i < sectors.length → (m.sector (lba + i)).map (·.bytes) = sectors[i]?) ∧
          (∀ l, l < lba ∨ lba + sectors.length ≤ l → m.sector l = n.sector l)) ∧ t.mode = s.mode)) ∧
    (seq ≤ tblGet (fun _ => 0) n.applied (lba / 16) →
      Completes (.mirror src dst gen wake slot srcNs peerNs lba seq sectors st) s (fun t =>
        t.pkg.out = some { tag := slot.val, status := 0, bytes := [], poison := false } ∧ t.pkg.ledger = s.pkg.ledger ∧
        t.mode = s.mode))) ∧
  (∀ s (src dst : Fin 32) gen wake (slot : Fin 4096) (srcNs peerNs : Fin 128) lba seq sectors (st : Fin 2),
    s.pkg.pw.hubMain = true → s.pkg.chainValid = true →
    (gen.toNat ≠ s.pkg.chainGen ∨ dst.val = s.pkg.chainAddr ∧ s.pkg.leRuns = true ∧ bit (s.pkg.reg pgKEYV 0x200) 1 = true ∧
      s.pkg.mirrorOk s.mode.mode src.val srcNs.val peerNs.val lba sectors.length = false) →
    Completes (.mirror src dst gen wake slot srcNs peerNs lba seq sectors st) s (fun t =>
      t.pkg.out = some { tag := slot.val, status := 1, bytes := [], poison := false } ∧ t.pkg.ledger = s.pkg.ledger ∧
      t.mode = s.mode)) ∧
  (∀ s (ls : Fin 2), s.pkg.pw.hubMain = true → s.pkg.lsState ls.val ≠ 3 →
    Completes (.stackFailure ls) s (fun t => t.pkg.lsState ls.val = 3 ∧
      (∀ k c, t.pkg.lcmd k = some c → c.adm ≠ some ls.val) ∧ t.pkg.ledger.ns = s.pkg.ledger.ns ∧ t.mode = s.mode)) ∧
  (∀ s (ls : Fin 2), s.pkg.pw.hubMain = false ∨ s.pkg.lsState ls.val = 3 → exec (.stackFailure ls) s = .next s) ∧
  (∀ s, s.pkg.lePhase ≠ 1 ∨ bit (s.pkg.reg pgKEYV 0x200) 1 = false → exec .recoveryComplete s = .next s) ∧
  (∀ s, s.pkg.lePhase = 1 → bit (s.pkg.reg pgKEYV 0x200) 1 = true →
    Completes .recoveryComplete s (fun t => t.pkg.lePhase = 2 ∧ OnlyPages s t))

/-! ### Keys and cipher engines -/

/-- Keys (R370 to R376, R386): FORM makes the root key and the generations begin at 0, and is judged; the memory keys are loaded
once they are due; a REKEY is recorded and takes effect at its tick with an event; KEYLD puts KEYW into a slot that no message uses
and erases it; SLOTRST resets a halted slot. -/
def keyRules : Prop :=
  (∀ s, s.pkg.commands .host pgKEYV = true → s.pkg.boot.keyed = 0 → s.mode.mode = .service ∨ s.mode.mode = .load →
    s.pkg.noLabel = false →
    Completes (.form .host) s (fun t => t.pkg.rf pgKEYV 0x200 1 0 = 3 ∧ t.pkg.boot.keyed = 1 ∧
      LastCmd t.pkg pgKEYV 0xC20 1 ∧ (∀ pid, (t.pkg.part pid).gen = 0) ∧
      t = { s with pkg := { s.pkg with pages := t.pkg.pages, stw := t.pkg.stw, boot := { s.pkg.boot with keyed := 1 } } })) ∧
  (∀ s who, s.pkg.commands who pgKEYV = true →
    (who ≠ .host → Completes (.form who) s (fun t => OnlyPages s t ∧ LastCmd t.pkg pgKEYV 0xC20 5)) ∧
    (who = .host → s.pkg.boot.keyed ≠ 0 ∨ s.mode.mode ≠ .service ∧ s.mode.mode ≠ .load →
      Completes (.form who) s (fun t => OnlyPagesStw s t ∧ LastCmd t.pkg pgKEYV 0xC20 3)) ∧
    (who = .host → s.pkg.boot.keyed = 0 → s.mode.mode = .service ∨ s.mode.mode = .load → s.pkg.noLabel = true →
      Completes (.form who) s (fun t => OnlyPages s t ∧ LastCmd t.pkg pgKEYV 0xC20 4))) ∧
  (∀ s, s.pkg.keysDue = true → s.pkg.isRipe .keys 0 = true →
    Completes .memoryKeyLoad s (fun t => (∀ n, n < 16 → t.pkg.rf (pgMCR n) 0x208 0 0 = 1) ∧
      t = { s with pkg := { s.pkg with pages := t.pkg.pages, boot := { s.pkg.boot with keyed := 2 } } })) ∧
  (∀ s, s.pkg.keysDue = false ∨ s.pkg.isRipe .keys 0 = false → exec .memoryKeyLoad s = .next s) ∧
  (∀ s who (pid : Pid), s.pkg.commands who pgKEYV = true → who = .host ∨ who = .steward →
    s.pkg.rekeyOk s.mode.mode pid.val = true →
    Completes (.rekey who pid) s (fun t => OnlyPagesStw s t ∧ LastCmd t.pkg pgKEYV 0xC20 1 ∧
      (t.pkg.part pid.val).rekey = some (if who = .host then 1 else 2) ∧
      (t.pkg.part pid.val).gen = (s.pkg.part pid.val).gen)) ∧
  (∀ s who (pid : Pid), s.pkg.commands who pgKEYV = true →
    (who ≠ .host → who ≠ .steward → Completes (.rekey who pid) s (fun t => OnlyPages s t ∧ LastCmd t.pkg pgKEYV 0xC20 5)) ∧
    (who = .host ∨ who = .steward → s.pkg.rekeyOk s.mode.mode pid.val = false →
      Completes (.rekey who pid) s (fun t => OnlyPagesStw s t ∧ LastCmd t.pkg pgKEYV 0xC20 3 ∧
        t.pkg.part pid.val = s.pkg.part pid.val))) ∧
  (∀ s (pid : Pid) o, (s.pkg.part pid.val).rekey = some o → s.pkg.isRipe .rekey pid.val = true →
    Completes (.rekeyApply pid) s (fun t => (t.pkg.part pid.val).gen = (s.pkg.part pid.val).gen + 1 ∧
      (t.pkg.part pid.val).rekey = none ∧ t.pkg.hbm = s.pkg.hbm ∧
      ∃ e, t.pkg.stw.events.head? = some e ∧ e.code = 0x13 ∧ e.origin = o ∧ e.pid = some pid.val)) ∧
  (∀ s (pid : Pid), (s.pkg.part pid.val).rekey = none ∨ s.pkg.isRipe .rekey pid.val = false →
    exec (.rekeyApply pid) s = .next s) ∧
  (∀ s who (e : Fin 14) (k : Fin 16) (kind : Fin 16), s.pkg.commands who (cePage e.val) = true → e.val ≠ 13 →
    1 ≤ kind.val → kind.val ≤ 4 → s.pkg.loadHold (cePage e.val) = false → s.pkg.busy (cePage e.val) = false →
    (s.pkg.cslot e.val k.val).st ≠ 0 → (s.pkg.cslot e.val k.val).susp = false →
    (s.pkg.ceng e.val).running ≠ some k.val →
    Completes (.keyld who e k kind) s (fun t => (t.pkg.cslot e.val k.val).kind = kind.val ∧
      (t.pkg.cslot e.val k.val).swk = true ∧ (t.pkg.cslot e.val k.val).use = 0 ∧
      (t.pkg.cslot e.val k.val).key = ((List.range 8).flatMap (fun i =>
        leBytes 8 (s.pkg.reg (cePage e.val) (0xC00 + 8 * i)).toNat)).take (kindLen kind.val) ∧
      (∀ i, i < 8 → t.pkg.reg (cePage e.val) (0xC00 + 8 * i) = 0) ∧ LastCmd t.pkg (cePage e.val) 0xC40 1 ∧
      t = { s with pkg := { s.pkg with pages := t.pkg.pages, ce := t.pkg.ce } })) ∧
  (∀ s who (e : Fin 14) (k : Fin 16) (kind : Fin 16), s.pkg.commands who (cePage e.val) = true → e.val ≠ 13 →
    (kind.val = 0 ∨ 4 < kind.val →
      Completes (.keyld who e k kind) s (fun t => OnlyPages s t ∧ LastCmd t.pkg (cePage e.val) 0xC40 4)) ∧
    (1 ≤ kind.val → kind.val ≤ 4 → s.pkg.loadHold (cePage e.val) = true ∨ s.pkg.busy (cePage e.val) = true ∨
        (s.pkg.cslot e.val k.val).st = 0 ∨ (s.pkg.cslot e.val k.val).susp = true ∨
        (s.pkg.ceng e.val).running = some k.val →
      Completes (.keyld who e k kind) s (fun t => OnlyPagesStw s t ∧ LastCmd t.pkg (cePage e.val) 0xC40 3 ∧
        ∀ i, i < 8 → t.pkg.reg (cePage e.val) (0xC00 + 8 * i) = s.pkg.reg (cePage e.val) (0xC00 + 8 * i)))) ∧
  (∀ s who (k kind : Fin 16), s.pkg.commands who (cePage 13) = true →
    Completes (.keyld who 13 k kind) s (fun t => OnlyPages s t ∧ LastCmd t.pkg (cePage 13) 0xC40 5)) ∧
  (∀ s who (e : Fin 14) (k : Fin 16), s.pkg.commands who (cePage e.val) = true →
    s.pkg.loadHold (cePage e.val) = false → s.pkg.busy (cePage e.val) = false → (s.pkg.cslot e.val k.val).st = 2 →
    s.pkg.dcs (s.pkg.slotPid e.val k.val) = false →
    Completes (.slotrst who e k) s (fun t => LastCmd t.pkg (cePage e.val) 0xC48 1 ∧ t.pkg.cslot e.val k.val =
        { s.pkg.cslot e.val k.val with st := 1, cause := 0, head := 0, tail := 0, msg := none, save := none } ∧
      t = { s with pkg := { s.pkg with pages := t.pkg.pages, ce := t.pkg.ce } })) ∧
  (∀ s who (e : Fin 14) (k : Fin 16), s.pkg.commands who (cePage e.val) = true →
    s.pkg.loadHold (cePage e.val) = true ∨ s.pkg.busy (cePage e.val) = true ∨ (s.pkg.cslot e.val k.val).st ≠ 2 →
    Completes (.slotrst who e k) s (fun t => OnlyPagesStw s t ∧ LastCmd t.pkg (cePage e.val) 0xC48 3))

/-- Keys, and the rings of the context slots (R377, R381, R385, R386): TAIL moves, or sets DBDENY or DBBAD; a descriptor is
fetched, and a fetch that fails halts the slot; a suspended message is resumed when no urgent one is to go first; and a completed
one is written back and HEAD advances. -/
def Obligations.KeysAndSlotsAdvance : Prop :=
  keyRules ∧
  (∀ s who (e : Fin 14) (k : Fin 16) v, s.pkg.reaches who (ceBells e.val) = true → e.val ≠ 13 →
    s.pkg.bellOk who (s.pkg.slotPid e.val k.val) = true → (s.pkg.cslot e.val k.val).st = 1 →
    v.toNat % 4096 < s.pkg.slotSize e.val k.val →
    Completes (.tailDoorbell who e k v) s (fun t =>
      t.pkg.cslot e.val k.val = { s.pkg.cslot e.val k.val with tail := v.toNat % 4096 } ∧
      t = { s with pkg := { s.pkg with ce := t.pkg.ce } })) ∧
  (∀ s who (e : Fin 14) (k : Fin 16) v, s.pkg.reaches who (ceBells e.val) = true → e.val ≠ 13 →
    s.pkg.bellOk who (s.pkg.slotPid e.val k.val) = true →
    (s.pkg.cslot e.val k.val).st ≠ 1 ∨ s.pkg.slotSize e.val k.val ≤ v.toNat % 4096 →
    bit (s.pkg.reg (cePage e.val) 0x030) 17 = false →
    Completes (.tailDoorbell who e k v) s (fun t => t.pkg.rf (cePage e.val) 0x028 17 17 = 1 ∧ OnlyPagesStw s t)) ∧
  (∀ s who (e : Fin 14) (k : Fin 16) v, s.pkg.reaches who (ceBells e.val) = true →
    e.val = 13 ∨ s.pkg.bellOk who (s.pkg.slotPid e.val k.val) = false → bit (s.pkg.reg (cePage e.val) 0x030) 16 = false →
    Completes (.tailDoorbell who e k v) s (fun t => t.pkg.rf (cePage e.val) 0x028 16 16 = 1 ∧ t.pkg.ce = s.pkg.ce ∧
      t.pkg.out = some { tag := 0, status := 1, bytes := [], poison := false })) ∧
  (∀ s who (e : Fin 14) (k : Fin 16) v, s.pkg.reaches who (ceBells e.val) = false →
    Completes (.tailDoorbell who e k v) s (fun t => t.pkg.ce = s.pkg.ce ∧ t.pkg.hbm = s.pkg.hbm ∧ t.mode = s.mode ∧
      t.pkg.out = some { tag := 0, status := 1, bytes := [], poison := false })) ∧
  (∀ s (e : Fin 14) (k : Fin 16) b p, s.pkg.engUp e.val = true → (s.pkg.cslot e.val k.val).st = 1 →
    (s.pkg.cslot e.val k.val).head ≠ (s.pkg.cslot e.val k.val).tail → (s.pkg.cslot e.val k.val).msg = none →
    s.pkg.devRead (ceAgent e.val) (s.pkg.slotPid e.val k.val)
      (s.pkg.slotBase e.val k.val + 64 * (s.pkg.cslot e.val k.val).head) 64 = (.ok b false, p) →
    Completes (.descriptorFetch e k) s (fun t => (∃ m, (t.pkg.cslot e.val k.val).msg = some m ∧ m.ent = entryQuads b ∧
      m.fin = (if m.op = 0 ∨ 6 < m.op then some (0x05, false) else none)) ∧ t.mode = s.mode ∧ t.pkg.hbm = p.hbm)) ∧
  (∀ s (e : Fin 14) (k : Fin 16) a p, s.pkg.engUp e.val = true → (s.pkg.cslot e.val k.val).st = 1 →
    (s.pkg.cslot e.val k.val).head ≠ (s.pkg.cslot e.val k.val).tail → (s.pkg.cslot e.val k.val).msg = none →
    s.pkg.devRead (ceAgent e.val) (s.pkg.slotPid e.val k.val)
      (s.pkg.slotBase e.val k.val + 64 * (s.pkg.cslot e.val k.val).head) 64 = (a, p) → a ≠ .waiting → (∀ b, a ≠ .ok b false) →
    Completes (.descriptorFetch e k) s (fun t => (t.pkg.cslot e.val k.val).st = 2 ∧ (t.pkg.cslot e.val k.val).cause = 1 ∧
      t.mode = s.mode ∧ t.pkg.hbm = p.hbm)) ∧
  (∀ s (e : Fin 14) (k : Fin 16), s.pkg.engUp e.val = false ∨ (s.pkg.cslot e.val k.val).st ≠ 1 ∨
      (s.pkg.cslot e.val k.val).head = (s.pkg.cslot e.val k.val).tail ∨ (s.pkg.cslot e.val k.val).msg.isSome = true →
    exec (.descriptorFetch e k) s = .next s) ∧
  (∀ s (e : Fin 14), s.pkg.suspended e.val = none ∨ (s.pkg.ceng e.val).running.isSome = true ∨
      (s.pkg.rrSlot e.val (s.pkg.ceng e.val).last1 true).isSome = true ∧ (s.pkg.ceng e.val).urgent < s.pkg.urgMax e.val →
    exec (.suspendedResume e) s = .next s) ∧
  (∀ s (e : Fin 14) k, s.pkg.suspended e.val = some k → (s.pkg.ceng e.val).running = none →
    s.pkg.rrSlot e.val (s.pkg.ceng e.val).last1 true = none ∨ s.pkg.urgMax e.val ≤ (s.pkg.ceng e.val).urgent →
    Completes (.suspendedResume e) s (fun t => (t.pkg.ceng e.val).running = some k ∧
      t.pkg.cslot e.val k = { s.pkg.cslot e.val k with susp := false } ∧
      t = { s with pkg := { s.pkg with ce := t.pkg.ce } })) ∧
  (∀ s (e : Fin 14) (k : Fin 16) m st un b po p, (s.pkg.cslot e.val k.val).msg = some m → m.fin = some (st, un) →
    s.pkg.devWrite (ceAgent e.val) (s.pkg.slotPid e.val k.val)
      (s.pkg.slotBase e.val k.val + 64 * (s.pkg.cslot e.val k.val).head)
      (leBytes 8 (doneQuad (m.quad 0) st un).toNat) = (.ok b po, p) →
    Completes (.descriptorCompletion e k) s (fun t => t.pkg.cslot e.val k.val =
        { p.cslot e.val k.val with
          msg := none, head := ((p.cslot e.val k.val).head + 1) % p.slotSize e.val k.val } ∧
      t.mode = s.mode ∧ t.pkg.hbm = p.hbm)) ∧
  (∀ s (e : Fin 14) (k : Fin 16), (∀ m, (s.pkg.cslot e.val k.val).msg = some m → m.fin = none) →
    exec (.descriptorCompletion e k) s = .next s)

/-- The message of a slot has ended with a STATUS and UNTRUSTED. -/
def msgEnded (p : Pkg) (e k : Nat) (m : CipherMsg) (st : Nat) (un : Bool) : Prop :=
  (p.cslot e k).msg = some { m with fin := some (st, un) }

/-- All of a byte range is read. -/
def readsAll (p : Pkg) (e k addr len : Nat) (b : List Byte) (q : Pkg) : Prop :=
  p.readPrefix (ceAgent e) (p.slotPid e k) addr len = (b, .ok [] false, q)

/-- All of some bytes is written. -/
def writesAll (p : Pkg) (e k addr : Nat) (b : List Byte) (q : Pkg) : Prop :=
  ∃ w r, p.writePrefix (ceAgent e) (p.slotPid e k) addr b = (w, .ok r false, q)

/-- What an encrypting operation starts from: USE has counted it (R383); a decrypting one counts nothing. -/
def counted (p : Pkg) (e k : Nat) (enc : Bool) (q : Pkg) : Prop :=
  if enc then p.countUse e k = some q else q = p

/-- The running message of a slot begins or goes on: at its beginning its fields, its key and the key's kind are right (R380) and an
encrypting operation is counted; one that was carried out in part goes on from the save area (R385). -/
def cipherRuns (p : Pkg) (e k op : Nat) (m : CipherMsg) (enc : Bool) (q : Pkg) : Prop :=
  p.cipherReady e k op = some m ∧
    (if (p.cslot e k).save = none then p.cipherCheck e k m = none ∧ counted p e k enc q else q = p)

/-- The AAD of a message: read at its beginning, for GCM, and kept in the save area. -/
def aadRead (q : Pkg) (e k : Nat) (m : CipherMsg) (aad : List Byte) (q0 : Pkg) : Prop :=
  match (q.cslot e k).save with
  | some v => aad = v.aad ∧ q0 = q
  | none => if m.alg = 0 then readsAll q e k m.aux m.aadLen aad q0 else aad = [] ∧ q0 = q

/-- The input carried out so far, and the bytes of the next `n` blocks. -/
def inSoFar (q : Pkg) (e k : Nat) : List Byte := ((q.cslot e k).saved []).inp
def nextLen (q : Pkg) (e k : Nat) (m : CipherMsg) (n : Nat) : Nat := min (n * cipherStep m.alg) (m.len - (inSoFar q e k).length)

/-- The next `n` blocks of ENCRYPT and DECRYPT: they are read, and the output is written, whole blocks of it. -/
def dataMoves (q : Pkg) (e k : Nat) (m : CipherMsg) (enc : Bool) (n : Nat) (aad data : List Byte) (q2 : Pkg) : Prop :=
  ∃ q0 b q1, aadRead q e k m aad q0 ∧ readsAll q0 e k (m.src + (inSoFar q e k).length) (nextLen q e k m n) b q1 ∧
    data = inSoFar q e k ++ b.take (b.length / algBlock m.alg * algBlock m.alg) ∧
    writesAll q1 e k (m.dst + (inSoFar q e k).length)
      ((algRun m.alg enc (q.cslot e k).key m.iv data).drop (inSoFar q e k).length) q2 ∧
    (∀ p ∈ [q0, q1, q2], p.slotPid e k = q.slotPid e k)

/-- ENCRYPT and DECRYPT by data (R369, R382, R385): `n` blocks at a time; a message not at its end is kept in the save area; at the
end another algorithm than GCM is done, GCM writes its tag over the ciphertext, or compares it. -/
def dataOperationRules : Prop :=
  (∀ s (e : Fin 14) (k : Fin 16) n enc m q aad data q2, cipherRuns s.pkg e.val k.val (if enc then 2 else 3) m enc q →
    dataMoves q e.val k.val m enc n aad data q2 →
    (data.length < m.len → Completes (if enc then .encrypt e k n else .decrypt e k n) s (fun t =>
      (∃ w, (t.pkg.cslot e.val k.val).save = some { aad := aad, inp := data, wrote := w }) ∧
      (t.pkg.cslot e.val k.val).msg = (q2.cslot e.val k.val).msg ∧ t.pkg.hbm = q2.hbm ∧ t.pkg.coh = q2.coh ∧ t.mode = s.mode)) ∧
    (m.len ≤ data.length → m.alg ≠ 0 → Completes (if enc then .encrypt e k n else .decrypt e k n) s (fun t =>
      msgEnded t.pkg e.val k.val m 1 false ∧ t.pkg.hbm = q2.hbm ∧ t.pkg.coh = q2.coh ∧ t.mode = s.mode))) ∧
  (∀ s (e : Fin 14) (k : Fin 16) n m q aad data q2 q3, cipherRuns s.pkg e.val k.val 2 m true q →
    dataMoves q e.val k.val m true n aad data q2 → m.len ≤ data.length → m.alg = 0 →
    writesAll q2 e.val k.val m.tagPtr ((gcmTag (aesRoundKeys (toNats (q.cslot e.val k.val).key)) (m.iv.take 12) aad
      (algRun 0 true (q.cslot e.val k.val).key m.iv data)).take m.tagLen) q3 →
    Completes (.encrypt e k n) s (fun t => msgEnded t.pkg e.val k.val m 1 false ∧ t.pkg.hbm = q3.hbm ∧ t.mode = s.mode)) ∧
  (∀ s (e : Fin 14) (k : Fin 16) n m q aad data q2 tg q3, cipherRuns s.pkg e.val k.val 3 m false q →
    dataMoves q e.val k.val m false n aad data q2 → m.len ≤ data.length → m.alg = 0 →
    readsAll q2 e.val k.val m.tagPtr m.tagLen tg q3 →
    Completes (.decrypt e k n) s (fun t => t.pkg.hbm = q3.hbm ∧ t.mode = s.mode ∧
      (if tg = (gcmTag (aesRoundKeys (toNats (q.cslot e.val k.val).key)) (m.iv.take 12) aad data).take m.tagLen
        then msgEnded t.pkg e.val k.val m 1 false else msgEnded t.pkg e.val k.val m 2 true)))

/-- MAC and VERIFY (R379, R382, R385): `n` blocks at a time; at the end the CMAC of the whole message is written, or compared. -/
def macOperationRules : Prop :=
  (∀ s (e : Fin 14) (k : Fin 16) n (ver : Bool) m q b q1, cipherRuns s.pkg e.val k.val (if ver then 5 else 4) m (!ver) q →
    readsAll q e.val k.val (m.src + (inSoFar q e.val k.val).length) (nextLen q e.val k.val m n) b q1 →
    (inSoFar q e.val k.val ++ b).length < m.len →
    Completes (if ver then .verify e k n else .mac e k n) s (fun t =>
      (∃ v, (t.pkg.cslot e.val k.val).save = some v ∧ v.inp = inSoFar q e.val k.val ++ b) ∧
      (t.pkg.cslot e.val k.val).msg = (q1.cslot e.val k.val).msg ∧ t.pkg.hbm = q1.hbm ∧ t.mode = s.mode)) ∧
  (∀ s (e : Fin 14) (k : Fin 16) n m q b q1 q2, cipherRuns s.pkg e.val k.val 4 m true q →
    readsAll q e.val k.val (m.src + (inSoFar q e.val k.val).length) (nextLen q e.val k.val m n) b q1 →
    m.len ≤ (inSoFar q e.val k.val ++ b).length → q1.slotPid e.val k.val = q.slotPid e.val k.val →
    writesAll q1 e.val k.val m.tagPtr ((cmac (q.cslot e.val k.val).key (inSoFar q e.val k.val ++ b)).take m.tagLen) q2 →
    Completes (.mac e k n) s (fun t => msgEnded t.pkg e.val k.val m 1 false ∧ t.pkg.hbm = q2.hbm ∧ t.mode = s.mode)) ∧
  (∀ s (e : Fin 14) (k : Fin 16) n m q b q1 tg q2, cipherRuns s.pkg e.val k.val 5 m false q →
    readsAll q e.val k.val (m.src + (inSoFar q e.val k.val).length) (nextLen q e.val k.val m n) b q1 →
    m.len ≤ (inSoFar q e.val k.val ++ b).length → q1.slotPid e.val k.val = q.slotPid e.val k.val →
    readsAll q1 e.val k.val m.tagPtr m.tagLen tg q2 →
    Completes (.verify e k n) s (fun t => t.pkg.hbm = q2.hbm ∧ t.mode = s.mode ∧
      (if tg = (cmac (q.cslot e.val k.val).key (inSoFar q e.val k.val ++ b)).take m.tagLen
        then msgEnded t.pkg e.val k.val m 1 false else msgEnded t.pkg e.val k.val m 2 true))) ∧
  (∀ s (e : Fin 14) (k : Fin 16) n (ver : Bool) m q b a q1, cipherRuns s.pkg e.val k.val (if ver then 5 else 4) m (!ver) q →
    q.readPrefix (ceAgent e.val) (q.slotPid e.val k.val) (m.src + (inSoFar q e.val k.val).length) (nextLen q e.val k.val m n) =
      (b, a, q1) → devStatus a ≠ 0 → devStatus a ≠ 1 →
    Completes (if ver then .verify e k n else .mac e k n) s (fun t =>
      msgEnded t.pkg e.val k.val m (devStatus a) false ∧ t.pkg.hbm = q1.hbm ∧ t.mode = s.mode))

/-- The rows of the operations, with their OP. -/
def cipherRow (e : Fin 14) (k : Fin 16) (n : Nat) (c : Instr × Nat) : Prop :=
  c ∈ [(Instr.derive e k, 1), (.encrypt e k n, 2), (.decrypt e k n, 3), (.mac e k n, 4), (.verify e k n, 5), (.translate e k, 6)]

/-- Descriptors (R369, R371, R379 to R385): data is encrypted and decrypted by its algorithm under the key of the slot, GCM adds and
checks its tag, MAC and VERIFY use CMAC, each `n` blocks at a time; TRANSLATE re-encrypts a block under the other slot's key; DERIVE
puts a derived key into the slot; a failed check ends with its status, and the usage limit stops an encrypting operation. A row
whose message the engine does not run lets an idle engine turn to its next one. -/
def Obligations.CipherOperationsFollowTheirAlgorithms : Prop :=
  dataOperationRules ∧ macOperationRules ∧
  (∀ s (e : Fin 14) (k : Fin 16) n c, cipherRow e k n c → (s.pkg.engStart e.val).cipherReady e.val k.val c.2 = none →
    exec c.1 s = .next { s with pkg := s.pkg.engStart e.val }) ∧
  (∀ s (e : Fin 14) (k : Fin 16) m q b q1 q2, s.pkg.cipherReady e.val k.val 6 = some m → s.pkg.cipherCheck e.val k.val m = none →
    (s.pkg.cslot e.val m.xslot).kind = 4 → s.pkg.slotPid e.val m.xslot = s.pkg.slotPid e.val k.val →
    counted s.pkg e.val m.xslot true q → readsAll q e.val k.val m.src 8 b q1 →
    q1.slotPid e.val k.val = q.slotPid e.val k.val →
    writesAll q1 e.val k.val m.dst (beBytes 8 (tdesEnc (s.pkg.cslot e.val m.xslot).key
      (tdesDec (s.pkg.cslot e.val k.val).key (beNat b)))) q2 →
    Completes (.translate e k) s (fun t => msgEnded t.pkg e.val k.val m 1 false ∧ t.pkg.hbm = q2.hbm ∧
      t.mode = s.mode)) ∧
  (∀ s (e : Fin 14) (k : Fin 16) m, s.pkg.cipherReady e.val k.val 6 = some m → s.pkg.cipherCheck e.val k.val m = none →
    ((s.pkg.cslot e.val m.xslot).kind = 0 → Completes (.translate e k) s (fun t => msgEnded t.pkg e.val k.val m 4 false ∧
      t.pkg.hbm = s.pkg.hbm)) ∧
    ((s.pkg.cslot e.val m.xslot).kind ≠ 0 → (s.pkg.cslot e.val m.xslot).kind ≠ 4 ∨
        s.pkg.slotPid e.val m.xslot ≠ s.pkg.slotPid e.val k.val →
      Completes (.translate e k) s (fun t => msgEnded t.pkg e.val k.val m 0x0C false ∧ t.pkg.hbm = s.pkg.hbm))) ∧
  (∀ s (e : Fin 14) (k : Fin 16) m, s.pkg.cipherReady e.val k.val 1 = some m →
    (m.bad = true → Completes (.derive e k) s (fun t => msgEnded t.pkg e.val k.val m 5 false ∧ t.pkg.hbm = s.pkg.hbm)) ∧
    (m.bad = false → s.pkg.formed = false →
      Completes (.derive e k) s (fun t => msgEnded t.pkg e.val k.val m 9 false ∧ t.pkg.hbm = s.pkg.hbm))) ∧
  (∀ s (e : Fin 14) (k : Fin 16) m b q, s.pkg.cipherReady e.val k.val 1 = some m → m.bad = false → s.pkg.formed = true →
    readsAll s.pkg e.val k.val m.aux m.aadLen b q → q.slotLim e.val k.val ≤ (q.cslot e.val k.val).use →
    (q.cslot e.val k.val).label = some b →
    Completes (.derive e k) s (fun t => msgEnded t.pkg e.val k.val m 0x0A false ∧
      (t.pkg.cslot e.val k.val).key = (q.cslot e.val k.val).key ∧ t.pkg.hbm = q.hbm ∧ t.mode = s.mode)) ∧
  (∀ s (e : Fin 14) (k : Fin 16) m b q, s.pkg.cipherReady e.val k.val 1 = some m → m.bad = false → s.pkg.formed = true →
    readsAll s.pkg e.val k.val m.aux m.aadLen b q →
    ¬ (q.slotLim e.val k.val ≤ (q.cslot e.val k.val).use ∧ (q.cslot e.val k.val).label = some b) →
    Completes (.derive e k) s (fun t => msgEnded t.pkg e.val k.val m 1 false ∧
      (t.pkg.cslot e.val k.val).key = kdf q.rootKey 0x01 b (q.slotPid e.val k.val) (klenBits m.klen) ∧
      (t.pkg.cslot e.val k.val).kind = m.klen ∧ (t.pkg.cslot e.val k.val).use = 0 ∧
      (t.pkg.cslot e.val k.val).swk = false ∧ t.pkg.hbm = q.hbm ∧ t.mode = s.mode)) ∧
  (∀ s (e : Fin 14) (k : Fin 16) n c m st, cipherRow e k n c → c.2 ≠ 1 → s.pkg.cipherReady e.val k.val c.2 = some m →
    c.2 = 6 ∨ (s.pkg.cslot e.val k.val).save = none → s.pkg.cipherCheck e.val k.val m = some st →
    Completes c.1 s (fun t => msgEnded t.pkg e.val k.val m st false ∧ t.pkg.hbm = s.pkg.hbm ∧ t.pkg.coh = s.pkg.coh)) ∧
  (∀ s (e : Fin 14) (k : Fin 16) n c m, c ∈ [(Instr.encrypt e k n, 2), (.mac e k n, 4)] →
    s.pkg.cipherReady e.val k.val c.2 = some m → (s.pkg.cslot e.val k.val).save = none →
    s.pkg.cipherCheck e.val k.val m = none → s.pkg.slotLim e.val k.val ≤ (s.pkg.cslot e.val k.val).use →
    Completes c.1 s (fun t => msgEnded t.pkg e.val k.val m 3 false ∧ t.pkg.hbm = s.pkg.hbm ∧ t.pkg.coh = s.pkg.coh))
/-! ### The chain -/

/-- Messages that went out on a chain port whose link is up; on a link that is down nothing is sent (R461). -/
def portSends (s t : State) (down : Bool) (l : List ChainMsg) : Prop :=
  t.pkg.chain.sent = s.pkg.chain.sent ++ (if s.pkg.chUp down then l.map (fun m => (down, m)) else [])

/-- A message of the package itself (R462). -/
def ownMsg (s : State) (down : Bool) (dst : Option Nat) (gen : Nat) (b : ChainBody) : ChainMsg :=
  { dst := dst, src := s.pkg.chainAddr, gen := gen, wake := bit (s.pkg.cfg (pgCH down) 0x400) 9, body := b }

/-- Nothing differs but the chain. -/
def OnlyChain (s t : State) : Prop := t = { s with pkg := { s.pkg with chain := t.pkg.chain } }

/-- Enumeration and joins (R464 to R466): a proposed address comes into force at the next tick, is answered EACK and goes on as the
next address once CHD is up; EACK ends the enumeration; a newer generation goes on upstream; a join takes the next generation; and
a lost link waits for retraining, unless it is CHD of the last package. -/
def enumerationRules : Prop :=
  (∀ s addr gen, s.pkg.pw.hubMain = true → s.pkg.head = false → addr.toNat < 32 → s.pkg.genStands gen.toNat = true →
    Completes (.enum addr gen) s (fun t => t.pkg.chain.pend = some (addr.toNat, gen.toNat) ∧
      t.pkg.chain.held = !s.pkg.chUp true ∧
      t.pkg.chain.sent = s.pkg.chain.sent ++
        (if s.pkg.chUp false then [(false, ownMsg s false none s.pkg.chainGen .eack)] else []) ++
        (if s.pkg.chUp true then [(true, ownMsg s true none gen.toNat (.enum (addr.toNat + 1)))] else []) ∧ OnlyChain s t)) ∧
  (∀ s addr gen, s.pkg.pw.hubMain = false ∨ s.pkg.head = true ∨ 32 ≤ addr.toNat ∨ s.pkg.genStands gen.toNat = false →
    exec (.enum addr gen) s = .next s) ∧
  (∀ s, s.pkg.pw.hubMain = true →
    Completes .eack s (fun t => t.pkg.chain.eack = true ∧ (s.pkg.chainValid = true → t.pkg.chain.done = true) ∧ OnlyChain s t)) ∧
  (∀ s, s.pkg.pw.hubMain = false → exec .eack s = .next s) ∧
  (∀ s gen, s.pkg.pw.hubMain = true → s.pkg.chainValid = true → newerGen gen.toNat s.pkg.chainGen = true →
    Completes (.genup gen) s (fun t => t.pkg.chain.pend = some (s.pkg.chainAddr, gen.toNat) ∧
      portSends s t false [ownMsg s false none gen.toNat .genup] ∧ OnlyChain s t)) ∧
  (∀ s gen, s.pkg.pw.hubMain = false ∨ s.pkg.chainValid = false ∨ newerGen gen.toNat s.pkg.chainGen = false →
    exec (.genup gen) s = .next s) ∧
  (∀ s, s.pkg.chain.join = true →
    Completes .chainJoin s (fun t => t.pkg.chain.pend = some (s.pkg.chainAddr, (s.pkg.chainGen + 1) % 256) ∧
      t.pkg.chain.join = false ∧ t.pkg.chain.eack = false ∧
      t.pkg.chain.sent = s.pkg.chain.sent ++
        (if s.pkg.chUp true then
          [(true, ownMsg s true none ((s.pkg.chainGen + 1) % 256) (.enum (s.pkg.chainAddr + 1)))] else []) ++
        (if s.pkg.chUp false then [(false, ownMsg s false none ((s.pkg.chainGen + 1) % 256) .genup)] else []) ∧ OnlyChain s t)) ∧
  (∀ s, s.pkg.chain.join = false → exec .chainJoin s = .next s) ∧
  (∀ s down, s.pkg.chUp down = true →
    Completes (.chainLinkDown down) s (fun t => t.pkg.chState down = (if down && s.pkg.endCh then 4 else 0) ∧
      ((down && s.pkg.endCh) = false → t.pkg.waitOf down.toNat = 1) ∧ t.mode = s.mode ∧ t.pkg.cores = s.pkg.cores)) ∧
  (∀ s down, s.pkg.chUp down = false → exec (.chainLinkDown down) s = .next s)

/-- FRAME (R67, R68, R467): the first one inside 20 ns aligns the numbering in LOAD, and later ones give the offset; it goes on
downstream with the delay of CHU and the time spent inside added to CORR. Its loss is seen once PHERR lay outside at four
consecutive ticks. -/
def frameRules : Prop :=
  (∀ s num ph corr inside (src : Fin 32) gen wake, s.pkg.head = false → s.pkg.pw.hubMain = true →
    Completes (.frame num ph corr inside src gen wake) s (fun t => t.pkg.chain.frame = true ∧ t.pkg.fr.pherr = ofInt 16 ph ∧
      portSends s t true (if s.mode.mode.forwards then
        [ChainMsg.mk none src.val gen.toNat wake (.frame num (corr + s.pkg.rf (pgCH false) 0x208 15 0 + inside))] else []) ∧
      t = { s with pkg := { s.pkg with fr := t.pkg.fr, chain := t.pkg.chain } })) ∧
  (∀ s num ph corr inside (src : Fin 32) gen wake, s.pkg.head = false → s.pkg.pw.hubMain = true → s.pkg.fr.state = 0 →
    s.pkg.fr.aligned = false → -20 ≤ ph → ph ≤ 20 → s.mode.mode = .load →
    Completes (.frame num ph corr inside src gen wake) s (fun t => t.pkg.fr.num = num ∧ t.pkg.fr.state = 1 ∧
      t.pkg.fr.ofs = 0)) ∧
  (∀ s num ph corr inside (src : Fin 32) gen wake, s.pkg.head = false → s.pkg.pw.hubMain = true →
    s.pkg.fr.state ≠ 0 ∨ ph < -20 ∨ 20 < ph ∨ s.mode.mode ≠ .load ∨ s.pkg.fr.aligned = true →
    Completes (.frame num ph corr inside src gen wake) s (fun t => t.pkg.fr.num = s.pkg.fr.num ∧
      t.pkg.fr.ofs = num - s.pkg.fr.num ∧
      t.pkg.fr.state = (if s.pkg.fr.state = 0 ∧ -20 ≤ ph ∧ ph ≤ 20 then 1 else s.pkg.fr.state))) ∧
  (∀ s num ph corr inside src gen wake, s.pkg.head = true ∨ s.pkg.pw.hubMain = false →
    exec (.frame num ph corr inside src gen wake) s = .next s) ∧
  (∀ s, s.pkg.head = false → s.pkg.fr.state = 1 → 4 ≤ s.pkg.fr.outside →
    exec .alignmentLost s = .next { s with pkg := { s.pkg with fr := { s.pkg.fr with state := 2 } } }) ∧
  (∀ s, s.pkg.head = true ∨ s.pkg.fr.state ≠ 1 ∨ s.pkg.fr.outside < 4 → exec .alignmentLost s = .next s)

/-- SNAP (R49, R50, R68, R468): a trigger is acted on and forwarded once; a package that is not aligned counts it as dropped. -/
def snapRules : Prop :=
  (∀ s up (orig : Fin 32) target gen wake, s.pkg.pw.hubMain = false ∨ (orig.val, target.toNat) ∈ s.pkg.stw.chainSeen →
    exec (.snap up orig target gen wake) s = .next s) ∧
  (∀ s up (orig : Fin 32) target gen wake, s.pkg.pw.hubMain = true → (orig.val, target.toNat) ∉ s.pkg.stw.chainSeen →
    Completes (.snap up orig target gen wake) s (fun t => (orig.val, target.toNat) ∈ t.pkg.stw.chainSeen ∧
      portSends s t up (if s.mode.mode.forwards then
        [ChainMsg.mk none orig.val gen.toNat wake (.snap orig.val target.toNat)] else []) ∧
      t = { s with pkg := { s.pkg with pages := t.pkg.pages, stw := t.pkg.stw, chain := t.pkg.chain } })) ∧
  (∀ s up (orig : Fin 32) target gen wake, s.pkg.pw.hubMain = true → (orig.val, target.toNat) ∉ s.pkg.stw.chainSeen →
    s.pkg.head = false → s.pkg.fr.state = 0 →
    Completes (.snap up orig target gen wake) s (fun t => t.pkg.stw.chainPend = s.pkg.stw.chainPend ∧
      t.pkg.stw.latches = s.pkg.stw.latches ∧
      t.pkg.rf pgSTW 0x358 23 16 = min (s.pkg.rf pgSTW 0x358 23 16 + 1) 255)) ∧
  (∀ s up (orig : Fin 32) target gen wake, s.pkg.pw.hubMain = true → (orig.val, target.toNat) ∉ s.pkg.stw.chainSeen →
    s.pkg.snapSrc 4 = true → s.pkg.head = true ∨ s.pkg.fr.state ≠ 0 →
    Completes (.snap up orig target gen wake) s (fun t =>
      t.pkg.reg pgSTW 0x360 = word [(48, orig.val), (0, target.toNat)] ∧
      ((orig.val, target.toNat, 16) ∈ t.pkg.stw.chainPend ∨ (false, 16, true) ∈ t.pkg.stw.latches)))

/-- A message from package `src` to package `dst`. -/
def addressed (src dst : Fin 32) (gen : Byte) (wake : Bool) (b : ChainBody) : ChainMsg :=
  { dst := some dst.val, src := src.val, gen := gen.toNat, wake := wake, body := b }

/-- The chain message of a row that is addressed to a package, and that a package in the middle passes on (R463). -/
def passedOn : Instr → Option ChainMsg
  | .rreq _ src dst gen wake wr off len mask pid tag bytes =>
    if 1 ≤ len ∧ off % 64 + len ≤ 64 then some (addressed src dst gen wake (.rreq wr off len mask pid.val tag bytes)) else none
  | .rrsp src dst gen wake tag st bytes => some (addressed src dst gen wake (.rrsp tag st.val bytes))
  | .mack src dst gen wake slot ok => some (addressed src dst gen wake (.mack slot.val ok))
  | .mirror src dst gen wake slot srcNs peerNs lba seq sectors _ =>
    some (addressed src dst gen wake (.mirror slot.val srcNs.val peerNs.val lba seq sectors.flatten))
  | _ => none

/-- A remote request of another generation than the package's, or, on the last package, for an address beyond it, is refused
(R466, R471). -/
def requestRefused (s : State) (dst : Fin 32) (gen : Byte) : Prop :=
  gen.toNat ≠ s.pkg.chainGen ∨ s.pkg.noSuch dst.val = true

/-- The chain (R49, R50, R67, R461 to R474): enumeration, FRAME and SNAP; a message for another package goes on towards it; a remote
request is answered by the export that grants it, refused where none does or its generation is another; and an answer ends the
access that waits for it. -/
def Obligations.ChainMessagesTakeEffect : Prop :=
  enumerationRules ∧ frameRules ∧ snapRules ∧
  (∀ s c m d, passedOn c = some m → m.dst = some d → d ≠ s.pkg.chainAddr → s.pkg.pw.hubMain = true → s.pkg.chainValid = true →
    m.gen = s.pkg.chainGen → s.pkg.noSuch d = false →
    Completes c s (fun t => OnlyChain s t ∧
      portSends s t (decide (s.pkg.chainAddr < d)) (if s.mode.mode.forwards then [m] else []))) ∧
  (∀ s c m, passedOn c = some m → s.pkg.pw.hubMain = false ∨ s.pkg.chainValid = false → exec c s = .next s) ∧
  (∀ s up (src dst : Fin 32) gen wake (off len : Nat) mask pid tag bytes pa q b poison p, s.pkg.pw.hubMain = true →
    s.pkg.chainValid = true → dst.val = s.pkg.chainAddr → 1 ≤ len → off % 64 + len ≤ 64 → wake = false →
    gen.toNat = s.pkg.chainGen → s.pkg.noSuch dst.val = false →
    s.mode.mode = .run ∨ s.mode.mode = .degraded ∨ s.mode.mode = .drizzle →
    (List.range 32).findSome? (s.pkg.exportAt src.val false off len) = some (pa, q) →
    s.pkg.inWaits (if up then 0x1C else 0x1D) = false →
    (s.pkg.evCount none 13 0 (some q) 4 1).ioRead (if up then 0x1C else 0x1D) q pa len = (.done b poison, p) →
    Completes (.rreq up src dst gen wake false off len mask pid tag bytes) s (fun t =>
      t.pkg.out = some { tag := tag, status := if poison then 2 else 0, bytes := b, poison := poison } ∧
      t = { s with pkg := { p with chain := t.pkg.chain, out := t.pkg.out } })) ∧
  (∀ s up (src dst : Fin 32) gen wake wr (off len : Nat) mask pid tag bytes, s.pkg.pw.hubMain = true →
    s.pkg.chainValid = true → 1 ≤ len → off % 64 + len ≤ 64 → requestRefused s dst gen →
    Completes (.rreq up src dst gen wake wr off len mask pid tag bytes) s (fun t => OnlyPkg s t ∧
      t.pkg.out = some { tag := tag, status := 4, bytes := [], poison := false } ∧ t.pkg.hbm = s.pkg.hbm)) ∧
  (∀ s up (src dst : Fin 32) gen wake wr (off len : Nat) mask pid tag bytes, s.pkg.pw.hubMain = true →
    s.pkg.chainValid = true → dst.val = s.pkg.chainAddr → 1 ≤ len → off % 64 + len ≤ 64 → ¬ requestRefused s dst gen →
    (s.mode.mode ≠ .run → s.mode.mode ≠ .degraded → s.mode.mode ≠ .drizzle →
      Completes (.rreq up src dst gen wake wr off len mask pid tag bytes) s (fun t => OnlyPkg s t ∧
        t.pkg.out = some { tag := tag, status := 3, bytes := [], poison := false } ∧ t.pkg.hbm = s.pkg.hbm)) ∧
    (s.mode.mode = .run ∨ s.mode.mode = .degraded ∨ s.mode.mode = .drizzle →
      (List.range 32).findSome? (s.pkg.exportAt src.val wr off len) = none →
      Completes (.rreq up src dst gen wake wr off len mask pid tag bytes) s (fun t => OnlyPkg s t ∧
        t.pkg.out = some { tag := tag, status := 1, bytes := [], poison := false } ∧ t.pkg.hbm = s.pkg.hbm))) ∧
  (∀ s (src dst : Fin 32) gen wake tag (st : Fin 8) bytes (lc : Lc), s.pkg.pw.hubMain = true → s.pkg.chainValid = true →
    dst.val = s.pkg.chainAddr →
    (s.pkg.core lc.val).io.any (fun a => a.tag == tag && inChainOf src.val a.pa && a.answer.isNone) = true →
    Completes (.rrsp src dst gen wake tag st bytes) s (fun t => (t.pkg.core lc.val).io = (s.pkg.core lc.val).io.map (fun a =>
      if a.tag = tag ∧ inChainOf src.val a.pa ∧ a.answer = none then
        { a with answer := some (if st.val = 0 then some (bytes, false) else if st.val = 2 then some (bytes, true) else none) }
      else a) ∧ t = { s with pkg := { s.pkg with cores := t.pkg.cores, pw := t.pkg.pw } }))

/-! ### Hub DMA and self-test -/

/-- A channel is HALTED with LASTST UNCORR, and runs nothing (R494, R499). -/
def dmaHalted (t : State) (ch : Nat) : Prop :=
  t.pkg.chan ch = DmaChan.reset ∧ t.pkg.rf (pgDMAC ch) 0x020 3 0 = 6 ∧ t.pkg.rf (pgDMAC ch) 0x020 15 8 = 4

/-- Hub DMA (R493 to R499): an immediate FILL is judged, runs and completes, DMATAIL moves or is refused, a descriptor is fetched,
copies, fills or does nothing, and its completion advances DMAHEAD; what goes wrong on the way halts the channel or ends the
descriptor with its status. A row without such work does nothing. -/
def Obligations.HubDmaRunsItsDescriptors : Prop :=
  (∀ s who (ch : Fin 16), s.pkg.commands who (pgDMAC ch.val) = true → s.pkg.blkState (pgDMAC ch.val) = 1 →
    s.pkg.dmaEn ch.val = true → s.pkg.busy (pgDMAC ch.val) = false → s.pkg.dmaBusy ch.val = false →
    fillMode s.mode.mode = true → 1 ≤ s.pkg.rf (pgDMAC ch.val) 0xC08 31 0 →
    s.pkg.rf (pgDMAC ch.val) 0xC08 31 0 ≤ 0x80000000 →
    s.pkg.rf (pgDMAC ch.val) 0xC00 51 6 * 64 + 64 * s.pkg.rf (pgDMAC ch.val) 0xC08 31 0 ≤ hbmSize →
    Completes (.fill who ch) s (fun t => t.pkg.chan ch.val = { s.pkg.chan ch.val with
        fill := true, cfg := s.pkg.cfg (pgDMAC ch.val) 0x400, ring := s.pkg.cfg (pgDMAC ch.val) 0x408 } ∧
      t.pkg.reg (pgDMAC ch.val) 0x200 = BitVec.ofNat 64 (s.pkg.rf (pgDMAC ch.val) 0xC00 51 6 * 64) ∧
      t.pkg.reg (pgDMAC ch.val) 0x208 = 0 ∧ LastCmd t.pkg (pgDMAC ch.val) 0xC18 2 ∧
      t.pkg.busy (pgDMAC ch.val) = true ∧
      t = { s with pkg := { s.pkg with pages := t.pkg.pages, dma := t.pkg.dma } })) ∧
  (∀ s who (ch : Fin 16), s.pkg.commands who (pgDMAC ch.val) = true → s.pkg.blkState (pgDMAC ch.val) = 1 →
    s.pkg.dmaEn ch.val = true → s.pkg.busy (pgDMAC ch.val) = false → s.pkg.dmaBusy ch.val = false →
    fillMode s.mode.mode = true → (s.pkg.rf (pgDMAC ch.val) 0xC08 31 0 = 0 ∨ 0x80000000 < s.pkg.rf (pgDMAC ch.val) 0xC08 31 0 ∨
      hbmSize < s.pkg.rf (pgDMAC ch.val) 0xC00 51 6 * 64 + 64 * s.pkg.rf (pgDMAC ch.val) 0xC08 31 0) →
    Completes (.fill who ch) s (fun t => LastCmd t.pkg (pgDMAC ch.val) 0xC18 4 ∧ OnlyPages s t)) ∧
  (∀ s who (ch : Fin 16), s.pkg.commands who (pgDMAC ch.val) = true → s.pkg.blkState (pgDMAC ch.val) ≠ 1 ∨
      s.pkg.dmaEn ch.val = false ∨ s.pkg.busy (pgDMAC ch.val) = true ∨ s.pkg.dmaBusy ch.val = true ∨
      fillMode s.mode.mode = false →
    Completes (.fill who ch) s (fun t => LastCmd t.pkg (pgDMAC ch.val) 0xC18 3 ∧ OnlyPagesStw s t)) ∧
  (∀ s (ch : Fin 16) p, (s.pkg.chan ch.val).fill = true → fillMode s.mode.mode = true →
    Pkg.fillLines ch.val (List.replicate 8 (leBytes 8 (s.pkg.reg (pgDMAC ch.val) 0xC10).toNat)).flatten
      (s.pkg.rf (pgDMAC ch.val) 0xC08 31 0 - s.pkg.rf (pgDMAC ch.val) 0x208 31 0) s.pkg = (.all, p) →
    Completes (.fillComplete ch) s (fun t => (t.pkg.chan ch.val).fill = false ∧ LastCmd t.pkg (pgDMAC ch.val) 0xC18 1 ∧
      t.pkg.busy (pgDMAC ch.val) = false ∧ t.pkg.hbm = p.hbm ∧ t.pkg.coh = p.coh ∧ t.mode = s.mode)) ∧
  (∀ s (ch : Fin 16) p, (s.pkg.chan ch.val).fill = true → fillMode s.mode.mode = true →
    Pkg.fillLines ch.val (List.replicate 8 (leBytes 8 (s.pkg.reg (pgDMAC ch.val) 0xC10).toNat)).flatten
      (s.pkg.rf (pgDMAC ch.val) 0xC08 31 0 - s.pkg.rf (pgDMAC ch.val) 0x208 31 0) s.pkg = (.halted, p) →
    Completes (.fillComplete ch) s (fun t => dmaHalted t ch.val ∧ t.pkg.rf (pgDMAC ch.val) 0x020 27 16 = 0xC18 ∧
      t.pkg.hbm = p.hbm ∧ t.pkg.coh = p.coh ∧ t.mode = s.mode)) ∧
  (∀ s (ch : Fin 16), (s.pkg.chan ch.val).fill = false ∨ fillMode s.mode.mode = false → exec (.fillComplete ch) s = .next s) ∧
  (∀ s who (ch : Fin 16) v, s.pkg.commands who (pgDMAC ch.val) = true → (who = .host ∨ ∃ lc, who = .core lc) →
    s.pkg.blkState (pgDMAC ch.val) = 1 → fld v 11 0 < dmaRingSize (s.pkg.cfg (pgDMAC ch.val) 0x408) →
    Completes (.dmatailDoorbell who ch v) s (fun t => OnlyPages s t ∧ t.pkg.dmaTail ch.val = fld v 11 0)) ∧
  (∀ s who (ch : Fin 16) v, s.pkg.commands who (pgDMAC ch.val) = true → (who = .host ∨ ∃ lc, who = .core lc) →
    s.pkg.blkState (pgDMAC ch.val) ≠ 1 ∨ dmaRingSize (s.pkg.cfg (pgDMAC ch.val) 0x408) ≤ fld v 11 0 →
    bit (s.pkg.reg (pgDMAC ch.val) 0x030) 17 = false →
    Completes (.dmatailDoorbell who ch v) s (fun t => OnlyPagesStw s t ∧ t.pkg.rf (pgDMAC ch.val) 0x028 17 17 = 1 ∧
      t.pkg.dmaTail ch.val = s.pkg.dmaTail ch.val)) ∧
  (∀ s (ch : Fin 16) b p, dmaFetches s.mode = true → s.pkg.blkState (pgDMAC ch.val) = 1 → s.pkg.dmaEn ch.val = true →
    s.pkg.dmaBusy ch.val = false → s.pkg.dmaHead ch.val ≠ s.pkg.dmaTail ch.val →
    s.pkg.devRead dmaAgent (s.pkg.dmaPid ch.val) (s.pkg.dmaEntry ch.val) 32 = (.ok b false, p) →
    Completes (.dmaDescriptorFetch ch) s (fun t => (t.pkg.chan ch.val).desc = some ((List.range 4).map (fun i =>
        BitVec.ofNat 64 (leNat ((b.drop (8 * i)).take 8)))) ∧
      (t.pkg.chan ch.val).fin = (if (t.pkg.chan ch.val).bad then some 2 else none) ∧
      t.pkg.busy (pgDMAC ch.val) = true ∧ t.pkg.hbm = p.hbm ∧ t.mode = s.mode)) ∧
  (∀ s (ch : Fin 16) a p, dmaFetches s.mode = true → s.pkg.blkState (pgDMAC ch.val) = 1 → s.pkg.dmaEn ch.val = true →
    s.pkg.dmaBusy ch.val = false → s.pkg.dmaHead ch.val ≠ s.pkg.dmaTail ch.val →
    s.pkg.devRead dmaAgent (s.pkg.dmaPid ch.val) (s.pkg.dmaEntry ch.val) 32 = (a, p) → a ≠ .waiting → (∀ b, a ≠ .ok b false) →
    Completes (.dmaDescriptorFetch ch) s (fun t => dmaHalted t ch.val ∧ t.pkg.hbm = p.hbm ∧ t.mode = s.mode)) ∧
  (∀ s (ch : Fin 16), dmaFetches s.mode = false ∨ s.pkg.blkState (pgDMAC ch.val) ≠ 1 ∨ s.pkg.dmaEn ch.val = false ∨
      s.pkg.dmaBusy ch.val = true ∨ s.pkg.dmaHead ch.val = s.pkg.dmaTail ch.val → exec (.dmaDescriptorFetch ch) s = .next s) ∧
  (∀ s (ch : Fin 16) e, e ∈ [(Instr.copy ch, 1), (.descriptorFill ch, 2), (.nopDescriptor ch, 3)] →
    s.pkg.dmaReady s.mode ch.val e.2 = false → exec e.1 s = .next s) ∧
  (∀ s (ch : Fin 16) st p, s.pkg.dmaReady s.mode ch.val 1 = true → st ≠ .waiting →
    s.pkg.copyRun ch.val ((s.pkg.chan ch.val).quad 2).toNat ((s.pkg.chan ch.val).quad 3).toNat (s.pkg.chan ch.val).len =
      (st, p) →
    Completes (.copy ch) s (fun t => (t.pkg.chan ch.val).fin = some (dmaStatus st) ∧ t.pkg.hbm = p.hbm ∧
      t.pkg.coh = p.coh ∧ t.mode = s.mode)) ∧
  (∀ s (ch : Fin 16) st p, s.pkg.dmaReady s.mode ch.val 2 = true → st ≠ .waiting →
    s.pkg.patternRun ch.val ((s.pkg.chan ch.val).quad 3).toNat (s.pkg.chan ch.val).len
      (List.replicate 8 (leBytes 8 ((s.pkg.chan ch.val).quad 2).toNat)).flatten = (st, p) →
    Completes (.descriptorFill ch) s (fun t => (t.pkg.chan ch.val).fin = some (dmaStatus st) ∧ t.pkg.hbm = p.hbm ∧
      t.pkg.coh = p.coh ∧ t.mode = s.mode)) ∧
  (∀ s (ch : Fin 16), s.pkg.dmaReady s.mode ch.val 3 = true →
    Completes (.nopDescriptor ch) s (fun t => t.pkg.chan ch.val = { s.pkg.chan ch.val with fin := some 1 } ∧
      t = { s with pkg := { s.pkg with dma := t.pkg.dma } })) ∧
  (∀ s (ch : Fin 16) st b po p, (s.pkg.chan ch.val).fin = some st → st ≠ 4 → dmaRuns s.mode = true →
    s.pkg.blkState (pgDMAC ch.val) = 1 →
    s.pkg.devWrite dmaAgent (s.pkg.dmaPid ch.val) (s.pkg.dmaEntry ch.val)
      (leBytes 8 (setFld (setBit ((s.pkg.chan ch.val).quad 0) 47 true) 55 48 st).toNat) = (.ok b po, p) →
    Completes (.dmaDescriptorCompletion ch) s (fun t => t.pkg.chan ch.val = DmaChan.reset ∧
      t.pkg.dmaHead ch.val = (p.dmaHead ch.val + 1) % dmaRingSize (s.pkg.chan ch.val).ring ∧ t.pkg.busy (pgDMAC ch.val) = false ∧
      t.pkg.hbm = p.hbm ∧ t.mode = s.mode)) ∧
  (∀ s (ch : Fin 16) b po p, (s.pkg.chan ch.val).fin = some 4 → dmaRuns s.mode = true → s.pkg.blkState (pgDMAC ch.val) = 1 →
    s.pkg.devWrite dmaAgent (s.pkg.dmaPid ch.val) (s.pkg.dmaEntry ch.val)
      (leBytes 8 (setFld (setBit ((s.pkg.chan ch.val).quad 0) 47 true) 55 48 4).toNat) = (.ok b po, p) →
    Completes (.dmaDescriptorCompletion ch) s (fun t => dmaHalted t ch.val ∧
      t.pkg.dmaHead ch.val = (p.dmaHead ch.val + 1) % dmaRingSize (s.pkg.chan ch.val).ring ∧ t.pkg.hbm = p.hbm ∧
      t.mode = s.mode)) ∧
  (∀ s (ch : Fin 16), (s.pkg.chan ch.val).fin = none ∨ dmaRuns s.mode = false ∨ s.pkg.blkState (pgDMAC ch.val) ≠ 1 →
    exec (.dmaDescriptorCompletion ch) s = .next s)

/-- Self-test (R536 to R539): a die test and a hub MBIST start only in their modes, and at their end the results stand and OK is
reported. -/
def Obligations.SelfTestsRunAndReport : Prop :=
  (∀ s (d : Die) test, s.pkg.commands .host (pgBIST d.val) = true → s.pkg.busy (pgBIST d.val) = false →
    s.mode.mode = .test → 1 ≤ test → test ≤ 3 →
    Completes (match test with | 1 => .lbist .host d | 2 => .mbist .host d | _ => .lbistThenMbist .host d) s (fun t =>
      t.pkg.rf (pgBIST d.val) 0x200 3 0 = (if test = 2 then 2 else 1) ∧ t.pkg.rf (pgBIST d.val) 0xC00 1 0 = test ∧
      t.pkg.reg (pgBIST d.val) 0x3E8 = 0 ∧ t.pkg.reg (pgBIST d.val) 0x3F0 = 0 ∧
      LastCmd t.pkg (pgBIST d.val) 0xC00 2 ∧ t.pkg.busy (pgBIST d.val) = true ∧ OnlyPages s t)) ∧
  (∀ s (d : Die), s.pkg.dieTesting d.val = true → s.pkg.powered (pgBIST d.val) = true → s.pkg.dieFenced d.val = false →
    Completes (.bistComplete d false []) s (fun t => t.pkg.rf (pgBIST d.val) 0x200 3 0 = 3 ∧
      t.pkg.rf (pgBIST d.val) 0x200 47 40 = 0 ∧ t.pkg.reg (pgBIST d.val) 0x3F0 = maskBits 63 63 ∧
      LastCmd t.pkg (pgBIST d.val) 0xC00 1 ∧ t.pkg.busy (pgBIST d.val) = false ∧ t.mode = s.mode)) ∧
  (∀ s (d : Die), s.pkg.dieTesting d.val = true → s.pkg.dieFenced d.val = true →
    Completes (.bistComplete d true []) s (fun t => t.pkg.rf (pgBIST d.val) 0x200 3 0 = 4 ∧
      LastCmd t.pkg (pgBIST d.val) 0xC00 7 ∧ OnlyPages s t)) ∧
  (∀ s who pg, s.pkg.commands who (pgOf pg) = true → hasMbist (pgOf pg) = true → s.pkg.busy (pgOf pg) = false →
    s.mode.mode = .test → s.pkg.loadHold (pgOf pg) = false →
    Completes (.hubMbist who pg) s (fun t => OnlyPages s t ∧ LastCmd t.pkg (pgOf pg) 0x018 2 ∧
      t.pkg.busy (pgOf pg) = true ∧ t.pkg.reg (pgOf pg) 0x3E8 = 0 ∧ t.pkg.reg (pgOf pg) 0x3F0 = 0)) ∧
  (∀ s who pg, s.pkg.commands who (pgOf pg) = true → hasMbist (pgOf pg) = true → s.mode.mode ≠ .test →
    Completes (.hubMbist who pg) s (fun t => OnlyPagesStw s t ∧ LastCmd t.pkg (pgOf pg) 0x018 3)) ∧
  (∀ s pg failed, hasMbist (pgOf pg) = true → s.pkg.busy (pgOf pg) = true → s.pkg.rf (pgOf pg) 0x020 27 16 = 0x018 →
    s.mode.mode = .test →
    Completes (.hubMbistComplete pg failed) s (fun t => t.pkg.reg (pgOf pg) 0x3F0 = bistRes failed ∧
      LastCmd t.pkg (pgOf pg) 0x018 1 ∧ t.pkg.busy (pgOf pg) = false ∧ t.mode = s.mode))

/-! ### Service endpoint -/

/-- Requests to BAR0, BAR2 and the expansion ROM (R441 to R445): a read that the function claims returns what the page, the store or
the ROM answers, a write is carried out there, a write to the ROM is discarded, and a refused request is recorded (R442); one that
the function does not claim gets Unsupported Request unrecorded, and one outside the window's size is another's. -/
def Obligations.BarRequestsReachTheirTarget : Prop :=
  (∀ s off n b q, s.pkg.seTakes = true → s.pkg.seClaims = true → off < 2 ^ 28 →
    s.pkg.pagesRead s.mode .host (0xFF00000000000 + off) n = (some b, q) →
    Completes (.bar0Access off (.read n)) s (fun t =>
      t.mode = s.mode ∧ t.pkg.pages = q.pages ∧ t.pkg.out = some { tag := 0, status := 0, bytes := b, poison := false })) ∧
  (∀ s pg o v, s.pkg.seTakes = true → s.pkg.seClaims = true → pg * 4096 + o < 2 ^ 28 → o < 4096 → o % 8 = 0 →
    (s.pkg.pageWrite s.mode .host pg o v).1 = true →
    Completes (.bar0Access (pg * 4096 + o) (.write (leBytes 8 v.toNat))) s (fun t =>
      t = { s with pkg := (s.pkg.pageWrite s.mode .host pg o v).2 })) ∧
  (∀ s off n q, s.pkg.seTakes = true → s.pkg.seClaims = true → off < 2 ^ 28 →
    s.pkg.pagesRead s.mode .host (0xFF00000000000 + off) n = (none, q) →
    Completes (.bar0Access off (.read n)) s (fun t =>
      t.pkg.reg pgSE 0x220 = BitVec.ofNat 64 ((0xFF00000000000 + off) % 2 ^ 52) ∧
      (∃ r, t.pkg.out = some r ∧ r.status = 1))) ∧
  (∀ s off b, s.pkg.seTakes = true → s.pkg.seClaims = true → off < 2 ^ 30 → s.mode.mode = .service →
    s.pkg.stw.running = false → off + b.length ≤ 0x200000 →
    Completes (.bar2Access .bar2 off (.write b)) s (fun t =>
      t = { s with pkg := { s.pkg with se := { s.pkg.se with load := memSetBytes s.pkg.se.load off b } } })) ∧
  (∀ s off n, s.pkg.seTakes = true → s.pkg.seClaims = true → off < 2 ^ 30 → s.mode.mode = .service →
    s.pkg.stw.running = false → off + n ≤ 0x200000 →
    Completes (.bar2Access .bar2 off (.read n)) s (fun t => OnlyPagesOut s t ∧ t.pkg.pages = s.pkg.pages ∧
      t.pkg.out = some { tag := 0, status := 0, bytes := memBytes s.pkg.se.load off n, poison := false })) ∧
  (∀ s off n b po q, s.pkg.seTakes = true → s.pkg.seClaims = true → off < 2 ^ 30 → s.mode.mode ≠ .service →
    s.mode.mode ≠ .off → s.pkg.stageAddr off + n ≤ hbmSize →
    s.pkg.inWaits 0x1E = false → s.pkg.ioReadRange 0x1E 0 (s.pkg.stageAddr off) n = (.done b po, q) →
    Completes (.bar2Access .bar2 off (.read n)) s (fun t =>
      t.pkg.out = some { tag := 0, status := 0, bytes := b, poison := po } ∧ t.pkg.hbm = q.hbm)) ∧
  (∀ s off n, s.pkg.seTakes = true → s.pkg.seClaims = true → off < 2 ^ 30 → s.mode.mode = .service →
    s.pkg.stw.running = true →
    Completes (.bar2Access .bar2 off (.read n)) s (fun t => (∃ r, t.pkg.out = some r ∧ r.status = 1) ∧
      t.pkg.se = s.pkg.se ∧ t.pkg.hbm = s.pkg.hbm)) ∧
  (∀ s off b r q, s.pkg.seTakes = true → s.pkg.seClaims = true → off < 2 ^ 30 → s.mode.mode ≠ .service →
    s.mode.mode ≠ .off → s.pkg.stageAddr off + b.length ≤ hbmSize → s.pkg.inWaits 0x1E = false →
    s.pkg.writeParts 0x1E 0 [(s.pkg.stageAddr off, b.length)] b (2 ^ b.length - 1) false = (r, q) →
    (∃ b2 po, r = .done b2 po) → Completes (.bar2Access .bar2 off (.write b)) s (fun t => t = { s with pkg := q })) ∧
  (∀ s off op, s.pkg.seTakes = true → s.pkg.seClaims = true → off < 2 ^ 30 → s.mode.mode ≠ .service → s.mode.mode ≠ .off →
    hbmSize < s.pkg.stageAddr off + busLen op →
    Completes (.bar2Access .bar2 off op) s (fun t => t.pkg.hbm = s.pkg.hbm ∧ t.mode = s.mode ∧
      t.pkg.reg pgSE 0x220 = BitVec.ofNat 64 (s.pkg.stageAddr off % 2 ^ 52))) ∧
  (∀ s off n, s.pkg.seTakes = true → s.pkg.seClaims = true → s.pkg.romOn = true → off + n ≤ 0x40000 →
    Completes (.bar2Access .rom off (.read n)) s (fun t => OnlyPagesOut s t ∧ t.pkg.pages = s.pkg.pages ∧
      t.pkg.out = some { tag := 0, status := 0, bytes := (List.range n).map (fun i => romByte (off + i)), poison := false })) ∧
  (∀ s off b, exec (.bar2Access .rom off (.write b)) s = .next s) ∧
  (∀ s c off n, s.pkg.seTakes = true →
    (s.pkg.seClaims = false ∧ off < 2 ^ 28 ∧ c ∈ [Instr.bar0Access off (.read n), .bar2Access .bar2 off (.read n)]) ∨
      ((s.pkg.seClaims = false ∨ s.pkg.romOn = false) ∧ off + n ≤ 0x40000 ∧ c = .bar2Access .rom off (.read n)) →
    Completes c s (fun t => OnlyPagesOut s t ∧ t.pkg.pages = s.pkg.pages ∧
      t.pkg.out = some { tag := 0, status := 1, bytes := [], poison := false })) ∧
  (∀ s off op, s.pkg.seTakes = false ∨ 2 ^ 28 ≤ off → exec (.bar0Access off op) s = .next s) ∧
  (∀ s w off op, s.pkg.seTakes = false ∨ 2 ^ 30 ≤ off → exec (.bar2Access w off op) s = .next s)

/-- INTA and PME messages (R449, R451), the FRAMEHI latch (R440) and the reset pin and link of the function (R437,
R451, R452); where there is nothing to signal or the state is reached already, nothing happens. -/
def endpointSignalsFollowLevelsClaim : Prop :=
  (∀ s, s.pkg.seHears = true → s.pkg.wireLevel ≠ s.pkg.se.inta →
    Completes .intaUpdate s (fun t => t.pkg.se = { s.pkg.se with inta := s.pkg.wireLevel } ∧ t.pkg.pages = s.pkg.pages ∧
      ∃ r, t.pkg.out = some r ∧ r.bytes = [if s.pkg.wireLevel then 0x20 else 0x24])) ∧
  (∀ s, s.pkg.seHears = false ∨ s.pkg.wireLevel = s.pkg.se.inta → exec .intaUpdate s = .next s) ∧
  (∀ s, s.pkg.powered pgSE = true → s.pkg.pmeEn = true → s.pkg.seD3 = true → s.pkg.se.cold = false →
    s.pkg.seHears = true → s.pkg.levelD0 = true → s.pkg.pmeStatus = false →
    Completes .pme s (fun t => t.pkg.pmeStatus = true ∧ t.pkg.pages = s.pkg.pages ∧
      ∃ r, t.pkg.out = some r ∧ r.bytes = [0x18])) ∧
  (∀ s, s.pkg.powered pgSE = true → s.pkg.pmeEn = true → s.pkg.se.cold = true →
    s.pkg.levelD0 = true → s.pkg.pmeStatus = false →
    Completes .pme s (fun t => t.pkg.pmeStatus = true ∧ t.pkg.se.wakeN = true ∧ t.pkg.pages = s.pkg.pages ∧
      t.pkg.out = s.pkg.out)) ∧
  (∀ s, s.pkg.powered pgSE = false ∨ s.pkg.pmeEn = false ∨ (s.pkg.seD3 = false ∧ s.pkg.se.cold = false) ∨
      s.pkg.levelD0 = false ∨ s.pkg.pmeStatus = true → exec .pme s = .next s) ∧
  (∀ s, s.pkg.seTakes = false → exec .frameloRead s = .next s) ∧ (∀ s, s.pkg.pw.perst = false → exec .svcPerstRelease s = .next s) ∧
  (∀ s, s.pkg.pw.perst = true → exec .svcPerst s = .next s) ∧ (∀ s, s.pkg.seLink = false → exec .seLinkDown s = .next s) ∧
  (∀ s, s.pkg.seTakes = true →
    Completes .frameloRead s (fun t => t.pkg.se = { s.pkg.se with framehi := s.pkg.frameNum / 2 ^ 32 % 2 ^ 16 } ∧
      t.pkg.pages = s.pkg.pages ∧
      ∃ r, t.pkg.out = some r ∧ r.bytes = leBytes 4 (s.pkg.frameNum % 2 ^ 32))) ∧
  (∀ s, s.pkg.pw.perst = true → s.pkg.powered pgSE = true →
    Completes .svcPerstRelease s (fun t => t.pkg.pw.perst = false ∧ t.pkg.seLink = true ∧ t.pkg.se.cold = false ∧
      t.pkg.se.wakeN = false ∧ (s.pkg.se.wakeN = true → ∃ r, t.pkg.out = some r ∧ r.bytes = [0x18]))) ∧
  (∀ s, s.pkg.pw.perst = false → s.pkg.powered pgSE = true →
    Completes .svcPerst s (fun t => t.pkg.pw.perst = true ∧ t.pkg.seLink = false ∧ t.pkg.se.inta = false ∧
      t.pkg.reg pgSE 0xD00 = 0 ∧ t.pkg.reg pgSE 0xD08 = 0 ∧ t.pkg.reg pgSE 0xD10 = 0 ∧ t.pkg.reg pgSE 0x218 = 0 ∧
      t.pkg.seMem = false ∧ t.pkg.seMaster = false ∧ t.pkg.seD3 = false ∧
      t.pkg.reg pgSE 0x208 = s.pkg.reg pgSE 0x208 ∧ t.pkg.reg pgSE 0xC00 = s.pkg.reg pgSE 0xC00 ∧
      t.pkg.reg pgSE 0xC08 = s.pkg.reg pgSE 0xC08 ∧ t.pkg.reg pgSE 0x210 = s.pkg.reg pgSE 0x210)) ∧
  (∀ s, s.pkg.seLink = true →
    Completes .seLinkDown s (fun t => t.mode = s.mode ∧ t.pkg.reg pgSE 0x200 = 0 ∧ t.pkg.se.cold = s.pkg.seD3 ∧
      t.pkg.stw = s.pkg.stw ∧ ∀ q o, q ≠ pgSE → t.pkg.reg q o = s.pkg.reg q o))

/-- Configuration writes and function reset (R438, R450, R452, R453). -/
def endpointConfigurationAndFunctionResetClaim : Prop :=
  (∀ s v, s.pkg.seTakes = true →
    Completes (.seConfigWrite 4 v) s (fun t => t.pkg.seMem = v.getLsbD 1 ∧ t.pkg.seMaster = v.getLsbD 2 ∧
      t.pkg.seIntDis = v.getLsbD 10 ∧ t.pkg.pages = s.pkg.pages ∧ ∀ n, n ≠ 1 → t.pkg.seCfg n = s.pkg.seCfg n)) ∧
  (∀ s v, s.pkg.seTakes = true →
    Completes (.seConfigWrite 0x44 v) s (fun t => t.pkg.pages = s.pkg.pages ∧
      (v &&& 3 = 0 → t.pkg.seD3 = false) ∧ (v &&& 3 = 3 → t.pkg.seD3 = true) ∧ t.pkg.pmeEn = v.getLsbD 8 ∧
      t.pkg.pmeStatus = (s.pkg.pmeStatus && !v.getLsbD 15) ∧ ∀ n, n ≠ 0x11 → t.pkg.seCfg n = s.pkg.seCfg n)) ∧
  (∀ s v, s.pkg.seTakes = true →
    Completes (.seConfigWrite 0x10 v) s (fun t => t.pkg.seCfg 4 = v &&& 0xF0000000 ||| (s.pkg.seCfg 4 &&& 0x0FFFFFFF))) ∧
  (∀ s v, s.pkg.seTakes = true → v.getLsbD 15 = true →
    Completes (.seConfigWrite 0x58 v) s (fun t => t.pkg.se.flr = true ∧ t.pkg.seTakes = false)) ∧
  (∀ s off v, s.pkg.seTakes = false ∨ 4096 ≤ off ∨ off % 4 ≠ 0 → exec (.seConfigWrite off v) s = .next s) ∧
  (∀ s, s.pkg.seTakes = false → exec .functionLevelReset s = .next s) ∧ (∀ s, s.pkg.se.flr = false → exec .flrComplete s = .next s) ∧
  (∀ s, s.pkg.seTakes = true → bit (s.pkg.reg pgSE 0x030) 19 = false →
    Completes .functionLevelReset s (fun t => t.pkg.se = { s.pkg.se with flr := true } ∧ t.pkg.seTakes = false ∧
      bit (t.pkg.reg pgSE 0x028) 19 = true ∧ t.pkg.reg pgSE 0xD08 = s.pkg.reg pgSE 0xD08)) ∧
  (∀ s, s.pkg.se.flr = true →
    Completes .flrComplete s (fun t => t.pkg.se.flr = false ∧ t.pkg.se.inta = false ∧ t.pkg.out = s.pkg.out ∧
      t.pkg.reg pgSE 0xD00 = 0 ∧ t.pkg.reg pgSE 0xD08 = 0 ∧ t.pkg.reg pgSE 0xD10 = 0 ∧ t.pkg.reg pgSE 0x218 = 0 ∧
      t.pkg.seMem = false ∧ t.pkg.seMaster = false ∧ t.pkg.seIntDis = false ∧ t.pkg.seD3 = false ∧
      t.pkg.reg pgSE 0x208 = s.pkg.reg pgSE 0x208 ∧ t.pkg.reg pgSE 0xC00 = s.pkg.reg pgSE 0xC00 ∧
      t.pkg.reg pgSE 0xC08 = s.pkg.reg pgSE 0xC08 ∧ t.pkg.reg pgSE 0x210 = s.pkg.reg pgSE 0x210 ∧
      (∀ q o, q ≠ pgSE → t.pkg.reg q o = s.pkg.reg q o) ∧ t.pkg.stw = s.pkg.stw ∧ t.mode = s.mode))

/-- Signals, configuration and function resets of the service endpoint (R438, R439, R448 to R453). -/
def Obligations.EndpointSignalsAndConfiguration : Prop := endpointSignalsFollowLevelsClaim ∧ endpointConfigurationAndFunctionResetClaim

/-- The event ring (R454): the oldest record not yet copied goes to EVRBASE + 32 × EVRTAIL, a full ring raises EVROVF
once, and EVRHEAD takes only an index below N. -/
def eventRingCopiesInOrderClaim : Prop :=
  (∀ s e, s.pkg.evrRuns = true → s.pkg.evrNext = some e →
    (s.pkg.rf pgSE 0x218 11 0 + 1) % s.pkg.evrSize ≠ s.pkg.rf pgSE 0xD10 11 0 →
    Completes .eventRingCopy s (fun t => t.pkg.se.evrSeq = e.seq ∧
      t.pkg.reg pgSE 0x218 = BitVec.ofNat 64 ((s.pkg.rf pgSE 0x218 11 0 + 1) % s.pkg.evrSize) ∧
      t.pkg.out = some { tag := s.pkg.rf pgSE 0xD00 63 6 * 64 + 32 * s.pkg.rf pgSE 0x218 11 0, status := 0,
                         bytes := e.quads.flatMap (fun q => leBytes 8 q.toNat), poison := false } ∧
      t.pkg.stw = s.pkg.stw)) ∧
  (∀ s e, s.pkg.evrRuns = true → s.pkg.evrNext = some e → s.pkg.se.evrFull = false →
    (s.pkg.rf pgSE 0x218 11 0 + 1) % s.pkg.evrSize = s.pkg.rf pgSE 0xD10 11 0 →
    Completes .eventRingCopy s (fun t => t.pkg.se.evrFull = true ∧ t.pkg.rf pgSE 0x208 3 3 = 1 ∧
      t.pkg.out = s.pkg.out ∧ t.pkg.reg pgSE 0x218 = s.pkg.reg pgSE 0x218)) ∧
  (∀ s, s.pkg.evrRuns = false ∨ s.pkg.evrNext = none → exec .eventRingCopy s = .next s) ∧
  (∀ s e, s.pkg.evrNext = some e → s.pkg.se.evrFull = true →
    (s.pkg.rf pgSE 0x218 11 0 + 1) % s.pkg.evrSize = s.pkg.rf pgSE 0xD10 11 0 → exec .eventRingCopy s = .next s) ∧
  (∀ s who v, s.pkg.commands who pgSE = true → fld v 11 0 < s.pkg.evrSize →
    Completes (.evrheadWrite who v) s (fun t => OnlyPages s t ∧ t.pkg.rf pgSE 0xD10 11 0 = fld v 11 0 ∧
      ∀ q o, q ≠ pgSE ∨ o ≠ 0xD10 → t.pkg.reg q o = s.pkg.reg q o)) ∧
  (∀ s who v, s.pkg.commands who pgSE = true → s.pkg.evrSize ≤ fld v 11 0 → exec (.evrheadWrite who v) s = .next s)

/-- The response of a mailbox row has this STATUS, is DONE and raises MBDONE (R456, R458). -/
def mbAnswered (t : State) (st : Nat) : Prop :=
  t.pkg.rf pgSE 0xCC0 7 0 = st ∧ t.pkg.rf pgSE 0x210 1 0 = 2 ∧ t.pkg.rf pgSE 0x208 1 1 = 1

/-- The mailbox: GO hands the request over, and once the steward's sampling cycle has taken it each opcode answers as R457 gives,
with TAG, OPC and STATUS; an invalid identifier of UNITFAIL also gets the wrong-state response (R8, R38; log entry 139) (R455 to
R458). -/
def mailboxRequestsAreAnsweredClaim : Prop :=
  (∀ s who tag, s.pkg.commands who pgSE = true → s.pkg.mbBusy = false → s.pkg.busy pgSE = false →
    Completes (.mailboxGo who tag) s (fun t => t.pkg.mbBusy = true ∧ t.pkg.rf pgSE 0x210 31 16 = tag.toNat ∧
      LastCmd t.pkg pgSE 0xC80 2 ∧ 3 ∈ t.pkg.pw.latched ∧ ∀ i, i < 8 → t.pkg.mbReq i = s.pkg.mbReq i)) ∧
  (∀ s who tag, s.pkg.commands who pgSE = true → s.pkg.mbBusy = true ∨ s.pkg.busy pgSE = true →
    Completes (.mailboxGo who tag) s (fun t => LastCmd t.pkg pgSE 0xC80 3 ∧ t.pkg.mbBusy = s.pkg.mbBusy ∧ OnlyPagesStw s t ∧
      t.pkg.reg pgSE 0x210 = s.pkg.reg pgSE 0x210)) ∧
  (∀ s, s.pkg.mbHas 1 = true →
    Completes .ident s (fun t => t.pkg.reg pgSE 0xCC0 = word [(16, s.pkg.rf pgSE 0x210 31 16), (8, 1), (0, 0)] ∧
      t.pkg.reg pgSE 0xCC8 = BitVec.ofNat 64 (s.pkg.rf pgSE 0x210 8 8) ∧
      (s.pkg.stw.running = false → t.pkg.reg pgSE 0xCD0 = romVersion) ∧
      (s.pkg.stw.running = true → t.pkg.reg pgSE 0xCD0 = s.pkg.stw.imageVer) ∧
      t.pkg.reg pgSE 0xCD8 = BitVec.ofNat 64 s.pkg.chainAddr ∧
      t.pkg.rf pgSE 0x210 1 0 = 2 ∧ t.pkg.rf pgSE 0x208 1 1 = 1 ∧ LastCmd t.pkg pgSE 0xC80 1 ∧ OnlyPages s t)) ∧
  (∀ s ok, s.pkg.mbHas 2 = true → s.pkg.stw.running = false → s.mode.mode = .service →
    stwLenOk (s.pkg.mbReq 1).toNat = true →
    Completes (.stwload ok) s (fun t => t.pkg.rf pgSE 0xCC0 7 0 = (if ok then 0 else 4) ∧
      t.pkg.rf pgSE 0x210 1 0 = 2 ∧ t.pkg.rf pgSE 0x208 1 1 = 1 ∧
      t.pkg.stw.image = (ok || s.pkg.stw.image) ∧ t.pkg.stw.running = false ∧ LastCmd t.pkg pgSE 0xC80 1)) ∧
  (∀ s ok, s.pkg.mbHas 2 = true → s.pkg.stw.running = false → s.mode.mode = .service →
    stwLenOk (s.pkg.mbReq 1).toNat = false →
    Completes (.stwload ok) s (fun t => mbAnswered t 2 ∧ OnlyPages s t)) ∧
  (∀ s ok, s.pkg.mbHas 2 = true → s.pkg.stw.running = true ∨ s.mode.mode ≠ .service →
    Completes (.stwload ok) s (fun t => mbAnswered t (if s.pkg.stw.running then 1 else 3) ∧ OnlyPages s t)) ∧
  (∀ s c ok, c ∈ [(Instr.ident, 1), (.stwload ok, 2), (.unitfail, 3), (.expsig, 4)] → s.pkg.mbHas c.2 = false →
    exec c.1 s = .next s) ∧
  (∀ s, s.pkg.stw.image = false ∨ s.pkg.stw.running = true ∨ s.pkg.isRipe .image 0 = false →
    exec .stewardImageStart s = .next s) ∧
  (∀ s, s.pkg.stw.image = true → s.pkg.stw.running = false → s.pkg.isRipe .image 0 = true →
    Completes .stewardImageStart s (fun t => t.pkg.stw = { s.pkg.stw with running := true } ∧
      t.pkg.rf pgSE 0x210 8 8 = 0 ∧ OnlyPagesStw s t)) ∧
  (∀ s, s.pkg.mbHas 3 = true → s.pkg.stw.running = true →
    s.mode.mode = .service ∨ (s.mode.mode = .load ∧ s.pkg.stw.mapBuilt = false) →
    (s.pkg.mbReq 1).toNat ≤ 24 → (s.pkg.failIds (s.pkg.mbReq 1).toNat).all physOk = true →
    Completes .unitfail s (fun t => t.pkg.rf pgSE 0xCC0 7 0 = 0 ∧ t.pkg.rf pgSE 0x210 1 0 = 2 ∧
      ∀ u, u < 240 → (t.pkg.unit u).failed =
        (s.pkg.failIds (s.pkg.mbReq 1).toNat).contains (physId (u / 20) (u % 20)))) ∧
  (∀ s, s.pkg.mbHas 3 = true → s.pkg.stw.running = true →
    s.mode.mode = .service ∨ (s.mode.mode = .load ∧ s.pkg.stw.mapBuilt = false) → (s.pkg.mbReq 1).toNat ≤ 24 →
    (s.pkg.failIds (s.pkg.mbReq 1).toNat).all physOk = false →
    Completes .unitfail s (fun t => mbAnswered t 3 ∧ LastCmd t.pkg pgSE 0xC80 3 ∧ t.pkg.units = s.pkg.units ∧ OnlyPagesStw s t)) ∧
  (∀ s, s.pkg.mbHas 3 = true → s.pkg.stw.running = true →
    s.mode.mode = .service ∨ (s.mode.mode = .load ∧ s.pkg.stw.mapBuilt = false) → 24 < (s.pkg.mbReq 1).toNat →
    Completes .unitfail s (fun t => mbAnswered t 2 ∧ OnlyPages s t)) ∧
  (∀ s c, c ∈ [(Instr.unitfail, 3), (.expsig, 4)] → s.pkg.mbHas c.2 = true → s.pkg.stw.running = false →
    Completes c.1 s (fun t => mbAnswered t 1 ∧ OnlyPages s t)) ∧
  (∀ s, s.pkg.mbHas 4 = true → s.pkg.stw.running = true →
    (s.mode.mode = .off ∨ s.mode.mode = .service → Completes .expsig s (fun t => mbAnswered t 3 ∧ OnlyPages s t)) ∧
    (s.mode.mode ≠ .off → s.mode.mode ≠ .service → sigPlaceOk (s.pkg.mbReq 1).toNat (s.pkg.mbReq 2).toNat = false →
      Completes .expsig s (fun t => mbAnswered t 2 ∧ OnlyPages s t))) ∧
  (∀ s a q, s.pkg.mbHas 4 = true → s.pkg.stw.running = true → s.mode.mode ≠ .off → s.mode.mode ≠ .service →
    sigPlaceOk (s.pkg.mbReq 1).toNat (s.pkg.mbReq 2).toNat = true →
    s.pkg.ioReadRange 0x1E 0 (s.pkg.mbReq 1).toNat (s.pkg.mbReq 2).toNat = (a, q) →
    ((∃ st, a = .err st) ∨ ∃ f, a = .done f true) →
    Completes .expsig s (fun t => mbAnswered t 5 ∧ t.pkg.stw = q.stw ∧ t.pkg.hbm = q.hbm)) ∧
  (∀ s, s.pkg.mbHas 3 = true → s.pkg.stw.running = true →
    ¬(s.mode.mode = .service ∨ (s.mode.mode = .load ∧ s.pkg.stw.mapBuilt = false)) →
    Completes .unitfail s (fun t => t.pkg.rf pgSE 0xCC0 7 0 = 3 ∧ t.pkg.units = s.pkg.units)) ∧
  (∀ s f q, s.pkg.mbHas 4 = true → s.pkg.stw.running = true → s.mode.mode ≠ .off → s.mode.mode ≠ .service →
    sigPlaceOk (s.pkg.mbReq 1).toNat (s.pkg.mbReq 2).toNat = true →
    s.pkg.ioReadRange 0x1E 0 (s.pkg.mbReq 1).toNat (s.pkg.mbReq 2).toNat = (.done f false, q) →
    Completes .expsig s (fun t => t.pkg.rf pgSE 0x210 1 0 = 2 ∧
      (if sigFileOk f then t.pkg.stw = { q.stw with expsig := some (sigEntries f) } ∧ t.pkg.rf pgSE 0xCC0 7 0 = 0
       else t.pkg.stw = q.stw ∧ t.pkg.rf pgSE 0xCC0 7 0 = 2)))

/-- The event ring and the mailbox of the service endpoint (R454 to R458). -/
def Obligations.EventRingAndMailbox : Prop := eventRingCopiesInOrderClaim ∧ mailboxRequestsAreAnsweredClaim

/-- The test access port (R561): while PKG_RESET_N is high only BYPASS and IDCODE act; IDCODE carries the part number. -/
def Obligations.TestAccessPortInstructions : Prop :=
  (∀ s ir, Completes (.tapInstruction ir) s (fun t =>
    t.pkg.pw = { s.pkg.pw with tap := tapActs (s.mode.mode != .off) ir } ∧ t.pkg.pages = s.pkg.pages ∧
    t.pkg.stw = s.pkg.stw ∧ t.mode = s.mode ∧
    (s.mode.mode ≠ .off → 2 ≤ ir → t.pkg.pw.tap = 0) ∧ (s.mode.mode = .off → t.pkg.pw.tap = ir) ∧
    (ir = 1 → ∃ r, t.pkg.out = some r ∧ r.bytes = leBytes 4 idcode.toNat))) ∧
  idcode.toNat / 2 ^ 12 % 2 ^ 16 = 0x4B12

/-! ### Reset -/

/-- Right after reset the package is in SERVICE in frame 0 with the service island powered and the hub off; every logical core
is unassigned and idle at M with the register values of R78 and R82; every partition is FREE; every page shows EN 1, its
snapshot armed, no event and no command; no die is up, no line is cached, no key is formed, no ledger queue pair, cipher
slot or DMA channel is in use, and no log holds a record (R14, R31, R32, R34, R48, R55, R58, R62, R64, R78, R82, R394). -/
def Obligations.ResetHoldsTheSpecifiedValues : Prop :=
  State.reset.pending = [] ∧ State.reset.mode.mode = .service ∧ State.reset.mode.trans = none ∧
  State.reset.pkg.frameNum = 0 ∧ State.reset.pkg.pw.island = true ∧ State.reset.pkg.pw.hubMain = false ∧
  (∀ lc, State.reset.pkg.core lc = Core.reset ∧ State.reset.pkg.lcpid lc = 0x80 ∧ State.reset.pkg.cmapSt lc = 0) ∧
  Core.reset.g.toList = List.replicate 16 0 ∧ Core.reset.ma.toList = List.replicate 4 0 ∧ Core.reset.pl = 2 ∧
  fld Core.reset.psw 23 20 = 0xF ∧ Core.reset.run = .idle ∧
  (∀ pid, (State.reset.pkg.part pid).st = .free ∧ (State.reset.pkg.part pid).gen = 0) ∧
  (∀ pg, (blkOf pg).isSome = true → State.reset.pkg.reg pg 0x018 = 1 ∧ State.reset.pkg.reg pg 0x028 = 0 ∧ State.reset.pkg.reg pg 0x038 = 0 ∧
    State.reset.pkg.rf pg 0x048 0 0 = 1 ∧ State.reset.pkg.rf pg 0x020 3 0 = 0 ∧ State.reset.pkg.busy pg = false ∧
    ∀ off, State.reset.pkg.cfg pg off = 0) ∧
  (∀ d, d < 12 → State.reset.pkg.dieState d = 0 ∧ State.reset.pkg.dieLines d = []) ∧ State.reset.pkg.formed = false ∧
  (∀ q, (State.reset.pkg.qp q).st = 0) ∧ (∀ e k, (State.reset.pkg.cslot e k).st = 0) ∧
  (∀ k, State.reset.pkg.chan k = DmaChan.reset) ∧ State.reset.pkg.stw.events = [] ∧ State.reset.pkg.stw.mcs = [] ∧
  Memory.wf State.reset.pkg.hbm.mem = true ∧ State.reset.pkg.hbm.mem = []


end
end

