-- ==== Sys2Proof/Laws/State.lean ====
section
/-! SUPPORT. The fields of the package that each update leaves alone, one lemma per field and update. -/

namespace Sys2Proof.Machine

variable (p : Pkg)

/-! ### setPage -/

@[simp] theorem setPage_head (pg : Nat) (x : Page) : (p.setPage pg x).head = p.head := (rfl)
@[simp] theorem setPage_populated (pg : Nat) (x : Page) : (p.setPage pg x).populated = p.populated := (rfl)
@[simp] theorem setPage_fr (pg : Nat) (x : Page) : (p.setPage pg x).fr = p.fr := (rfl)
@[simp] theorem setPage_stw (pg : Nat) (x : Page) : (p.setPage pg x).stw = p.stw := (rfl)
@[simp] theorem setPage_dieSt (pg : Nat) (x : Page) : (p.setPage pg x).dieSt = p.dieSt := (rfl)
@[simp] theorem setPage_cores (pg : Nat) (x : Page) : (p.setPage pg x).cores = p.cores := (rfl)
@[simp] theorem setPage_units (pg : Nat) (x : Page) : (p.setPage pg x).units = p.units := (rfl)
@[simp] theorem setPage_caches (pg : Nat) (x : Page) : (p.setPage pg x).caches = p.caches := (rfl)
@[simp] theorem setPage_coh (pg : Nat) (x : Page) : (p.setPage pg x).coh = p.coh := (rfl)
@[simp] theorem setPage_hbm (pg : Nat) (x : Page) : (p.setPage pg x).hbm = p.hbm := (rfl)
@[simp] theorem setPage_pw (pg : Nat) (x : Page) : (p.setPage pg x).pw = p.pw := (rfl)
@[simp] theorem setPage_boot (pg : Nat) (x : Page) : (p.setPage pg x).boot = p.boot := (rfl)
@[simp] theorem setPage_chain (pg : Nat) (x : Page) : (p.setPage pg x).chain = p.chain := (rfl)
@[simp] theorem setPage_pcie (pg : Nat) (x : Page) : (p.setPage pg x).pcie = p.pcie := (rfl)
@[simp] theorem setPage_out (pg : Nat) (x : Page) : (p.setPage pg x).out = p.out := (rfl)
@[simp] theorem setPage_inq (pg : Nat) (x : Page) : (p.setPage pg x).inq = p.inq := (rfl)
@[simp] theorem setPage_links (pg : Nat) (x : Page) : (p.setPage pg x).links = p.links := (rfl)
@[simp] theorem setPage_guests (pg : Nat) (x : Page) : (p.setPage pg x).guests = p.guests := (rfl)
@[simp] theorem setPage_fabric (pg : Nat) (x : Page) : (p.setPage pg x).fabric = p.fabric := (rfl)
@[simp] theorem setPage_ledger (pg : Nat) (x : Page) : (p.setPage pg x).ledger = p.ledger := (rfl)
@[simp] theorem setPage_ce (pg : Nat) (x : Page) : (p.setPage pg x).ce = p.ce := (rfl)
@[simp] theorem setPage_dma (pg : Nat) (x : Page) : (p.setPage pg x).dma = p.dma := (rfl)
@[simp] theorem setPage_se (pg : Nat) (x : Page) : (p.setPage pg x).se = p.se := (rfl)
@[simp] theorem setPage_tickLog (pg : Nat) (x : Page) : (p.setPage pg x).tickLog = p.tickLog := (rfl)
@[simp] theorem setPage_fresh (pg : Nat) (x : Page) : (p.setPage pg x).fresh = p.fresh := (rfl)

/-! ### setReg -/

@[simp] theorem setReg_head (pg off : Nat) (v : Word) : (p.setReg pg off v).head = p.head := (rfl)
@[simp] theorem setReg_populated (pg off : Nat) (v : Word) : (p.setReg pg off v).populated = p.populated := (rfl)
@[simp] theorem setReg_fr (pg off : Nat) (v : Word) : (p.setReg pg off v).fr = p.fr := (rfl)
@[simp] theorem setReg_stw (pg off : Nat) (v : Word) : (p.setReg pg off v).stw = p.stw := (rfl)
@[simp] theorem setReg_dieSt (pg off : Nat) (v : Word) : (p.setReg pg off v).dieSt = p.dieSt := (rfl)
@[simp] theorem setReg_cores (pg off : Nat) (v : Word) : (p.setReg pg off v).cores = p.cores := (rfl)
@[simp] theorem setReg_units (pg off : Nat) (v : Word) : (p.setReg pg off v).units = p.units := (rfl)
@[simp] theorem setReg_caches (pg off : Nat) (v : Word) : (p.setReg pg off v).caches = p.caches := (rfl)
@[simp] theorem setReg_coh (pg off : Nat) (v : Word) : (p.setReg pg off v).coh = p.coh := (rfl)
@[simp] theorem setReg_hbm (pg off : Nat) (v : Word) : (p.setReg pg off v).hbm = p.hbm := (rfl)
@[simp] theorem setReg_pw (pg off : Nat) (v : Word) : (p.setReg pg off v).pw = p.pw := (rfl)
@[simp] theorem setReg_boot (pg off : Nat) (v : Word) : (p.setReg pg off v).boot = p.boot := (rfl)
@[simp] theorem setReg_chain (pg off : Nat) (v : Word) : (p.setReg pg off v).chain = p.chain := (rfl)
@[simp] theorem setReg_pcie (pg off : Nat) (v : Word) : (p.setReg pg off v).pcie = p.pcie := (rfl)
@[simp] theorem setReg_out (pg off : Nat) (v : Word) : (p.setReg pg off v).out = p.out := (rfl)
@[simp] theorem setReg_inq (pg off : Nat) (v : Word) : (p.setReg pg off v).inq = p.inq := (rfl)
@[simp] theorem setReg_links (pg off : Nat) (v : Word) : (p.setReg pg off v).links = p.links := (rfl)
@[simp] theorem setReg_guests (pg off : Nat) (v : Word) : (p.setReg pg off v).guests = p.guests := (rfl)
@[simp] theorem setReg_fabric (pg off : Nat) (v : Word) : (p.setReg pg off v).fabric = p.fabric := (rfl)
@[simp] theorem setReg_ledger (pg off : Nat) (v : Word) : (p.setReg pg off v).ledger = p.ledger := (rfl)
@[simp] theorem setReg_ce (pg off : Nat) (v : Word) : (p.setReg pg off v).ce = p.ce := (rfl)
@[simp] theorem setReg_dma (pg off : Nat) (v : Word) : (p.setReg pg off v).dma = p.dma := (rfl)
@[simp] theorem setReg_se (pg off : Nat) (v : Word) : (p.setReg pg off v).se = p.se := (rfl)
@[simp] theorem setReg_tickLog (pg off : Nat) (v : Word) : (p.setReg pg off v).tickLog = p.tickLog := (rfl)
@[simp] theorem setReg_fresh (pg off : Nat) (v : Word) : (p.setReg pg off v).fresh = p.fresh := (rfl)

/-! ### setRf -/

@[simp] theorem setRf_head (pg off hi lo v : Nat) : (p.setRf pg off hi lo v).head = p.head := (rfl)
@[simp] theorem setRf_populated (pg off hi lo v : Nat) : (p.setRf pg off hi lo v).populated = p.populated := (rfl)
@[simp] theorem setRf_fr (pg off hi lo v : Nat) : (p.setRf pg off hi lo v).fr = p.fr := (rfl)
@[simp] theorem setRf_stw (pg off hi lo v : Nat) : (p.setRf pg off hi lo v).stw = p.stw := (rfl)
@[simp] theorem setRf_dieSt (pg off hi lo v : Nat) : (p.setRf pg off hi lo v).dieSt = p.dieSt := (rfl)
@[simp] theorem setRf_cores (pg off hi lo v : Nat) : (p.setRf pg off hi lo v).cores = p.cores := (rfl)
@[simp] theorem setRf_units (pg off hi lo v : Nat) : (p.setRf pg off hi lo v).units = p.units := (rfl)
@[simp] theorem setRf_caches (pg off hi lo v : Nat) : (p.setRf pg off hi lo v).caches = p.caches := (rfl)
@[simp] theorem setRf_coh (pg off hi lo v : Nat) : (p.setRf pg off hi lo v).coh = p.coh := (rfl)
@[simp] theorem setRf_hbm (pg off hi lo v : Nat) : (p.setRf pg off hi lo v).hbm = p.hbm := (rfl)
@[simp] theorem setRf_pw (pg off hi lo v : Nat) : (p.setRf pg off hi lo v).pw = p.pw := (rfl)
@[simp] theorem setRf_boot (pg off hi lo v : Nat) : (p.setRf pg off hi lo v).boot = p.boot := (rfl)
@[simp] theorem setRf_chain (pg off hi lo v : Nat) : (p.setRf pg off hi lo v).chain = p.chain := (rfl)
@[simp] theorem setRf_pcie (pg off hi lo v : Nat) : (p.setRf pg off hi lo v).pcie = p.pcie := (rfl)
@[simp] theorem setRf_out (pg off hi lo v : Nat) : (p.setRf pg off hi lo v).out = p.out := (rfl)
@[simp] theorem setRf_inq (pg off hi lo v : Nat) : (p.setRf pg off hi lo v).inq = p.inq := (rfl)
@[simp] theorem setRf_links (pg off hi lo v : Nat) : (p.setRf pg off hi lo v).links = p.links := (rfl)
@[simp] theorem setRf_guests (pg off hi lo v : Nat) : (p.setRf pg off hi lo v).guests = p.guests := (rfl)
@[simp] theorem setRf_fabric (pg off hi lo v : Nat) : (p.setRf pg off hi lo v).fabric = p.fabric := (rfl)
@[simp] theorem setRf_ledger (pg off hi lo v : Nat) : (p.setRf pg off hi lo v).ledger = p.ledger := (rfl)
@[simp] theorem setRf_ce (pg off hi lo v : Nat) : (p.setRf pg off hi lo v).ce = p.ce := (rfl)
@[simp] theorem setRf_dma (pg off hi lo v : Nat) : (p.setRf pg off hi lo v).dma = p.dma := (rfl)
@[simp] theorem setRf_se (pg off hi lo v : Nat) : (p.setRf pg off hi lo v).se = p.se := (rfl)
@[simp] theorem setRf_tickLog (pg off hi lo v : Nat) : (p.setRf pg off hi lo v).tickLog = p.tickLog := (rfl)
@[simp] theorem setRf_fresh (pg off hi lo v : Nat) : (p.setRf pg off hi lo v).fresh = p.fresh := (rfl)

/-! ### addRf -/

@[simp] theorem addRf_head (pg off hi lo k : Nat) : (p.addRf pg off hi lo k).head = p.head := (rfl)
@[simp] theorem addRf_populated (pg off hi lo k : Nat) : (p.addRf pg off hi lo k).populated = p.populated := (rfl)
@[simp] theorem addRf_fr (pg off hi lo k : Nat) : (p.addRf pg off hi lo k).fr = p.fr := (rfl)
@[simp] theorem addRf_stw (pg off hi lo k : Nat) : (p.addRf pg off hi lo k).stw = p.stw := (rfl)
@[simp] theorem addRf_dieSt (pg off hi lo k : Nat) : (p.addRf pg off hi lo k).dieSt = p.dieSt := (rfl)
@[simp] theorem addRf_cores (pg off hi lo k : Nat) : (p.addRf pg off hi lo k).cores = p.cores := (rfl)
@[simp] theorem addRf_units (pg off hi lo k : Nat) : (p.addRf pg off hi lo k).units = p.units := (rfl)
@[simp] theorem addRf_caches (pg off hi lo k : Nat) : (p.addRf pg off hi lo k).caches = p.caches := (rfl)
@[simp] theorem addRf_coh (pg off hi lo k : Nat) : (p.addRf pg off hi lo k).coh = p.coh := (rfl)
@[simp] theorem addRf_hbm (pg off hi lo k : Nat) : (p.addRf pg off hi lo k).hbm = p.hbm := (rfl)
@[simp] theorem addRf_pw (pg off hi lo k : Nat) : (p.addRf pg off hi lo k).pw = p.pw := (rfl)
@[simp] theorem addRf_boot (pg off hi lo k : Nat) : (p.addRf pg off hi lo k).boot = p.boot := (rfl)
@[simp] theorem addRf_chain (pg off hi lo k : Nat) : (p.addRf pg off hi lo k).chain = p.chain := (rfl)
@[simp] theorem addRf_pcie (pg off hi lo k : Nat) : (p.addRf pg off hi lo k).pcie = p.pcie := (rfl)
@[simp] theorem addRf_out (pg off hi lo k : Nat) : (p.addRf pg off hi lo k).out = p.out := (rfl)
@[simp] theorem addRf_inq (pg off hi lo k : Nat) : (p.addRf pg off hi lo k).inq = p.inq := (rfl)
@[simp] theorem addRf_links (pg off hi lo k : Nat) : (p.addRf pg off hi lo k).links = p.links := (rfl)
@[simp] theorem addRf_guests (pg off hi lo k : Nat) : (p.addRf pg off hi lo k).guests = p.guests := (rfl)
@[simp] theorem addRf_fabric (pg off hi lo k : Nat) : (p.addRf pg off hi lo k).fabric = p.fabric := (rfl)
@[simp] theorem addRf_ledger (pg off hi lo k : Nat) : (p.addRf pg off hi lo k).ledger = p.ledger := (rfl)
@[simp] theorem addRf_ce (pg off hi lo k : Nat) : (p.addRf pg off hi lo k).ce = p.ce := (rfl)
@[simp] theorem addRf_dma (pg off hi lo k : Nat) : (p.addRf pg off hi lo k).dma = p.dma := (rfl)
@[simp] theorem addRf_se (pg off hi lo k : Nat) : (p.addRf pg off hi lo k).se = p.se := (rfl)
@[simp] theorem addRf_tickLog (pg off hi lo k : Nat) : (p.addRf pg off hi lo k).tickLog = p.tickLog := (rfl)
@[simp] theorem addRf_fresh (pg off hi lo k : Nat) : (p.addRf pg off hi lo k).fresh = p.fresh := (rfl)

/-! ### cmdEvent -/

@[simp] theorem cmdEvent_head (pg off st : Nat) : (p.cmdEvent pg off st).head = p.head := (setRf_head _ _ _ _ _ _).trans (setRf_head _ _ _ _ _ _)
@[simp] theorem cmdEvent_populated (pg off st : Nat) : (p.cmdEvent pg off st).populated = p.populated := (setRf_populated _ _ _ _ _ _).trans (setRf_populated _ _ _ _ _ _)
@[simp] theorem cmdEvent_fr (pg off st : Nat) : (p.cmdEvent pg off st).fr = p.fr := (setRf_fr _ _ _ _ _ _).trans (setRf_fr _ _ _ _ _ _)
@[simp] theorem cmdEvent_stw (pg off st : Nat) : (p.cmdEvent pg off st).stw = p.stw := (setRf_stw _ _ _ _ _ _).trans (setRf_stw _ _ _ _ _ _)
@[simp] theorem cmdEvent_dieSt (pg off st : Nat) : (p.cmdEvent pg off st).dieSt = p.dieSt := (setRf_dieSt _ _ _ _ _ _).trans (setRf_dieSt _ _ _ _ _ _)
@[simp] theorem cmdEvent_cores (pg off st : Nat) : (p.cmdEvent pg off st).cores = p.cores := (setRf_cores _ _ _ _ _ _).trans (setRf_cores _ _ _ _ _ _)
@[simp] theorem cmdEvent_units (pg off st : Nat) : (p.cmdEvent pg off st).units = p.units := (setRf_units _ _ _ _ _ _).trans (setRf_units _ _ _ _ _ _)
@[simp] theorem cmdEvent_caches (pg off st : Nat) : (p.cmdEvent pg off st).caches = p.caches := (setRf_caches _ _ _ _ _ _).trans (setRf_caches _ _ _ _ _ _)
@[simp] theorem cmdEvent_coh (pg off st : Nat) : (p.cmdEvent pg off st).coh = p.coh := (setRf_coh _ _ _ _ _ _).trans (setRf_coh _ _ _ _ _ _)
@[simp] theorem cmdEvent_hbm (pg off st : Nat) : (p.cmdEvent pg off st).hbm = p.hbm := (setRf_hbm _ _ _ _ _ _).trans (setRf_hbm _ _ _ _ _ _)
@[simp] theorem cmdEvent_pw (pg off st : Nat) : (p.cmdEvent pg off st).pw = p.pw := (setRf_pw _ _ _ _ _ _).trans (setRf_pw _ _ _ _ _ _)
@[simp] theorem cmdEvent_boot (pg off st : Nat) : (p.cmdEvent pg off st).boot = p.boot := (setRf_boot _ _ _ _ _ _).trans (setRf_boot _ _ _ _ _ _)
@[simp] theorem cmdEvent_chain (pg off st : Nat) : (p.cmdEvent pg off st).chain = p.chain := (setRf_chain _ _ _ _ _ _).trans (setRf_chain _ _ _ _ _ _)
@[simp] theorem cmdEvent_pcie (pg off st : Nat) : (p.cmdEvent pg off st).pcie = p.pcie := (setRf_pcie _ _ _ _ _ _).trans (setRf_pcie _ _ _ _ _ _)
@[simp] theorem cmdEvent_out (pg off st : Nat) : (p.cmdEvent pg off st).out = p.out := (setRf_out _ _ _ _ _ _).trans (setRf_out _ _ _ _ _ _)
@[simp] theorem cmdEvent_inq (pg off st : Nat) : (p.cmdEvent pg off st).inq = p.inq := (setRf_inq _ _ _ _ _ _).trans (setRf_inq _ _ _ _ _ _)
@[simp] theorem cmdEvent_links (pg off st : Nat) : (p.cmdEvent pg off st).links = p.links := (setRf_links _ _ _ _ _ _).trans (setRf_links _ _ _ _ _ _)
@[simp] theorem cmdEvent_guests (pg off st : Nat) : (p.cmdEvent pg off st).guests = p.guests := (setRf_guests _ _ _ _ _ _).trans (setRf_guests _ _ _ _ _ _)
@[simp] theorem cmdEvent_fabric (pg off st : Nat) : (p.cmdEvent pg off st).fabric = p.fabric := (setRf_fabric _ _ _ _ _ _).trans (setRf_fabric _ _ _ _ _ _)
@[simp] theorem cmdEvent_ledger (pg off st : Nat) : (p.cmdEvent pg off st).ledger = p.ledger := (setRf_ledger _ _ _ _ _ _).trans (setRf_ledger _ _ _ _ _ _)
@[simp] theorem cmdEvent_ce (pg off st : Nat) : (p.cmdEvent pg off st).ce = p.ce := (setRf_ce _ _ _ _ _ _).trans (setRf_ce _ _ _ _ _ _)
@[simp] theorem cmdEvent_dma (pg off st : Nat) : (p.cmdEvent pg off st).dma = p.dma := (setRf_dma _ _ _ _ _ _).trans (setRf_dma _ _ _ _ _ _)
@[simp] theorem cmdEvent_se (pg off st : Nat) : (p.cmdEvent pg off st).se = p.se := (setRf_se _ _ _ _ _ _).trans (setRf_se _ _ _ _ _ _)
@[simp] theorem cmdEvent_tickLog (pg off st : Nat) : (p.cmdEvent pg off st).tickLog = p.tickLog := (setRf_tickLog _ _ _ _ _ _).trans (setRf_tickLog _ _ _ _ _ _)
@[simp] theorem cmdEvent_fresh (pg off st : Nat) : (p.cmdEvent pg off st).fresh = p.fresh := (setRf_fresh _ _ _ _ _ _).trans (setRf_fresh _ _ _ _ _ _)

/-! ### reply -/

@[simp] theorem reply_head (tag status : Nat) (bytes : List Byte) (poison : Bool) : (p.reply tag status bytes poison).head = p.head := (rfl)
@[simp] theorem reply_populated (tag status : Nat) (bytes : List Byte) (poison : Bool) : (p.reply tag status bytes poison).populated = p.populated := (rfl)
@[simp] theorem reply_fr (tag status : Nat) (bytes : List Byte) (poison : Bool) : (p.reply tag status bytes poison).fr = p.fr := (rfl)
@[simp] theorem reply_stw (tag status : Nat) (bytes : List Byte) (poison : Bool) : (p.reply tag status bytes poison).stw = p.stw := (rfl)
@[simp] theorem reply_dieSt (tag status : Nat) (bytes : List Byte) (poison : Bool) : (p.reply tag status bytes poison).dieSt = p.dieSt := (rfl)
@[simp] theorem reply_cores (tag status : Nat) (bytes : List Byte) (poison : Bool) : (p.reply tag status bytes poison).cores = p.cores := (rfl)
@[simp] theorem reply_units (tag status : Nat) (bytes : List Byte) (poison : Bool) : (p.reply tag status bytes poison).units = p.units := (rfl)
@[simp] theorem reply_caches (tag status : Nat) (bytes : List Byte) (poison : Bool) : (p.reply tag status bytes poison).caches = p.caches := (rfl)
@[simp] theorem reply_coh (tag status : Nat) (bytes : List Byte) (poison : Bool) : (p.reply tag status bytes poison).coh = p.coh := (rfl)
@[simp] theorem reply_hbm (tag status : Nat) (bytes : List Byte) (poison : Bool) : (p.reply tag status bytes poison).hbm = p.hbm := (rfl)
@[simp] theorem reply_pw (tag status : Nat) (bytes : List Byte) (poison : Bool) : (p.reply tag status bytes poison).pw = p.pw := (rfl)
@[simp] theorem reply_boot (tag status : Nat) (bytes : List Byte) (poison : Bool) : (p.reply tag status bytes poison).boot = p.boot := (rfl)
@[simp] theorem reply_chain (tag status : Nat) (bytes : List Byte) (poison : Bool) : (p.reply tag status bytes poison).chain = p.chain := (rfl)
@[simp] theorem reply_pcie (tag status : Nat) (bytes : List Byte) (poison : Bool) : (p.reply tag status bytes poison).pcie = p.pcie := (rfl)
@[simp] theorem reply_links (tag status : Nat) (bytes : List Byte) (poison : Bool) : (p.reply tag status bytes poison).links = p.links := (rfl)
@[simp] theorem reply_guests (tag status : Nat) (bytes : List Byte) (poison : Bool) : (p.reply tag status bytes poison).guests = p.guests := (rfl)
@[simp] theorem reply_fabric (tag status : Nat) (bytes : List Byte) (poison : Bool) : (p.reply tag status bytes poison).fabric = p.fabric := (rfl)
@[simp] theorem reply_ledger (tag status : Nat) (bytes : List Byte) (poison : Bool) : (p.reply tag status bytes poison).ledger = p.ledger := (rfl)
@[simp] theorem reply_ce (tag status : Nat) (bytes : List Byte) (poison : Bool) : (p.reply tag status bytes poison).ce = p.ce := (rfl)
@[simp] theorem reply_dma (tag status : Nat) (bytes : List Byte) (poison : Bool) : (p.reply tag status bytes poison).dma = p.dma := (rfl)
@[simp] theorem reply_se (tag status : Nat) (bytes : List Byte) (poison : Bool) : (p.reply tag status bytes poison).se = p.se := (rfl)
@[simp] theorem reply_tickLog (tag status : Nat) (bytes : List Byte) (poison : Bool) : (p.reply tag status bytes poison).tickLog = p.tickLog := (rfl)
@[simp] theorem reply_fresh (tag status : Nat) (bytes : List Byte) (poison : Bool) : (p.reply tag status bytes poison).fresh = p.fresh := (rfl)
@[simp] theorem reply_pages (tag status : Nat) (bytes : List Byte) (poison : Bool) : (p.reply tag status bytes poison).pages = p.pages := (rfl)

/-! ### setCore -/

@[simp] theorem setCore_head (lc : Nat) (c : Core) : (p.setCore lc c).head = p.head := (rfl)
@[simp] theorem setCore_populated (lc : Nat) (c : Core) : (p.setCore lc c).populated = p.populated := (rfl)
@[simp] theorem setCore_fr (lc : Nat) (c : Core) : (p.setCore lc c).fr = p.fr := (rfl)
@[simp] theorem setCore_stw (lc : Nat) (c : Core) : (p.setCore lc c).stw = p.stw := (rfl)
@[simp] theorem setCore_dieSt (lc : Nat) (c : Core) : (p.setCore lc c).dieSt = p.dieSt := (rfl)
@[simp] theorem setCore_units (lc : Nat) (c : Core) : (p.setCore lc c).units = p.units := (rfl)
@[simp] theorem setCore_caches (lc : Nat) (c : Core) : (p.setCore lc c).caches = p.caches := (rfl)
@[simp] theorem setCore_coh (lc : Nat) (c : Core) : (p.setCore lc c).coh = p.coh := (rfl)
@[simp] theorem setCore_hbm (lc : Nat) (c : Core) : (p.setCore lc c).hbm = p.hbm := (rfl)
@[simp] theorem setCore_pw (lc : Nat) (c : Core) : (p.setCore lc c).pw = p.pw := (rfl)
@[simp] theorem setCore_boot (lc : Nat) (c : Core) : (p.setCore lc c).boot = p.boot := (rfl)
@[simp] theorem setCore_chain (lc : Nat) (c : Core) : (p.setCore lc c).chain = p.chain := (rfl)
@[simp] theorem setCore_pcie (lc : Nat) (c : Core) : (p.setCore lc c).pcie = p.pcie := (rfl)
@[simp] theorem setCore_out (lc : Nat) (c : Core) : (p.setCore lc c).out = p.out := (rfl)
@[simp] theorem setCore_inq (lc : Nat) (c : Core) : (p.setCore lc c).inq = p.inq := (rfl)
@[simp] theorem setCore_links (lc : Nat) (c : Core) : (p.setCore lc c).links = p.links := (rfl)
@[simp] theorem setCore_guests (lc : Nat) (c : Core) : (p.setCore lc c).guests = p.guests := (rfl)
@[simp] theorem setCore_fabric (lc : Nat) (c : Core) : (p.setCore lc c).fabric = p.fabric := (rfl)
@[simp] theorem setCore_ledger (lc : Nat) (c : Core) : (p.setCore lc c).ledger = p.ledger := (rfl)
@[simp] theorem setCore_ce (lc : Nat) (c : Core) : (p.setCore lc c).ce = p.ce := (rfl)
@[simp] theorem setCore_dma (lc : Nat) (c : Core) : (p.setCore lc c).dma = p.dma := (rfl)
@[simp] theorem setCore_se (lc : Nat) (c : Core) : (p.setCore lc c).se = p.se := (rfl)
@[simp] theorem setCore_tickLog (lc : Nat) (c : Core) : (p.setCore lc c).tickLog = p.tickLog := (rfl)
@[simp] theorem setCore_fresh (lc : Nat) (c : Core) : (p.setCore lc c).fresh = p.fresh := (rfl)
@[simp] theorem setCore_pages (lc : Nat) (c : Core) : (p.setCore lc c).pages = p.pages := (rfl)

/-! ### setUnit -/

@[simp] theorem setUnit_head (u : Nat) (x : PhysUnit) : (p.setUnit u x).head = p.head := (rfl)
@[simp] theorem setUnit_populated (u : Nat) (x : PhysUnit) : (p.setUnit u x).populated = p.populated := (rfl)
@[simp] theorem setUnit_fr (u : Nat) (x : PhysUnit) : (p.setUnit u x).fr = p.fr := (rfl)
@[simp] theorem setUnit_stw (u : Nat) (x : PhysUnit) : (p.setUnit u x).stw = p.stw := (rfl)
@[simp] theorem setUnit_dieSt (u : Nat) (x : PhysUnit) : (p.setUnit u x).dieSt = p.dieSt := (rfl)
@[simp] theorem setUnit_cores (u : Nat) (x : PhysUnit) : (p.setUnit u x).cores = p.cores := (rfl)
@[simp] theorem setUnit_caches (u : Nat) (x : PhysUnit) : (p.setUnit u x).caches = p.caches := (rfl)
@[simp] theorem setUnit_coh (u : Nat) (x : PhysUnit) : (p.setUnit u x).coh = p.coh := (rfl)
@[simp] theorem setUnit_hbm (u : Nat) (x : PhysUnit) : (p.setUnit u x).hbm = p.hbm := (rfl)
@[simp] theorem setUnit_pw (u : Nat) (x : PhysUnit) : (p.setUnit u x).pw = p.pw := (rfl)
@[simp] theorem setUnit_boot (u : Nat) (x : PhysUnit) : (p.setUnit u x).boot = p.boot := (rfl)
@[simp] theorem setUnit_chain (u : Nat) (x : PhysUnit) : (p.setUnit u x).chain = p.chain := (rfl)
@[simp] theorem setUnit_pcie (u : Nat) (x : PhysUnit) : (p.setUnit u x).pcie = p.pcie := (rfl)
@[simp] theorem setUnit_out (u : Nat) (x : PhysUnit) : (p.setUnit u x).out = p.out := (rfl)
@[simp] theorem setUnit_inq (u : Nat) (x : PhysUnit) : (p.setUnit u x).inq = p.inq := (rfl)
@[simp] theorem setUnit_links (u : Nat) (x : PhysUnit) : (p.setUnit u x).links = p.links := (rfl)
@[simp] theorem setUnit_guests (u : Nat) (x : PhysUnit) : (p.setUnit u x).guests = p.guests := (rfl)
@[simp] theorem setUnit_fabric (u : Nat) (x : PhysUnit) : (p.setUnit u x).fabric = p.fabric := (rfl)
@[simp] theorem setUnit_ledger (u : Nat) (x : PhysUnit) : (p.setUnit u x).ledger = p.ledger := (rfl)
@[simp] theorem setUnit_ce (u : Nat) (x : PhysUnit) : (p.setUnit u x).ce = p.ce := (rfl)
@[simp] theorem setUnit_dma (u : Nat) (x : PhysUnit) : (p.setUnit u x).dma = p.dma := (rfl)
@[simp] theorem setUnit_se (u : Nat) (x : PhysUnit) : (p.setUnit u x).se = p.se := (rfl)
@[simp] theorem setUnit_tickLog (u : Nat) (x : PhysUnit) : (p.setUnit u x).tickLog = p.tickLog := (rfl)
@[simp] theorem setUnit_fresh (u : Nat) (x : PhysUnit) : (p.setUnit u x).fresh = p.fresh := (rfl)
@[simp] theorem setUnit_pages (u : Nat) (x : PhysUnit) : (p.setUnit u x).pages = p.pages := (rfl)

/-! ### setDieState -/

@[simp] theorem setDieState_head (d v : Nat) : (p.setDieState d v).head = p.head := (rfl)
@[simp] theorem setDieState_populated (d v : Nat) : (p.setDieState d v).populated = p.populated := (rfl)
@[simp] theorem setDieState_fr (d v : Nat) : (p.setDieState d v).fr = p.fr := (rfl)
@[simp] theorem setDieState_stw (d v : Nat) : (p.setDieState d v).stw = p.stw := (rfl)
@[simp] theorem setDieState_cores (d v : Nat) : (p.setDieState d v).cores = p.cores := (rfl)
@[simp] theorem setDieState_units (d v : Nat) : (p.setDieState d v).units = p.units := (rfl)
@[simp] theorem setDieState_caches (d v : Nat) : (p.setDieState d v).caches = p.caches := (rfl)
@[simp] theorem setDieState_coh (d v : Nat) : (p.setDieState d v).coh = p.coh := (rfl)
@[simp] theorem setDieState_hbm (d v : Nat) : (p.setDieState d v).hbm = p.hbm := (rfl)
@[simp] theorem setDieState_pw (d v : Nat) : (p.setDieState d v).pw = p.pw := (rfl)
@[simp] theorem setDieState_boot (d v : Nat) : (p.setDieState d v).boot = p.boot := (rfl)
@[simp] theorem setDieState_chain (d v : Nat) : (p.setDieState d v).chain = p.chain := (rfl)
@[simp] theorem setDieState_pcie (d v : Nat) : (p.setDieState d v).pcie = p.pcie := (rfl)
@[simp] theorem setDieState_out (d v : Nat) : (p.setDieState d v).out = p.out := (rfl)
@[simp] theorem setDieState_inq (d v : Nat) : (p.setDieState d v).inq = p.inq := (rfl)
@[simp] theorem setDieState_links (d v : Nat) : (p.setDieState d v).links = p.links := (rfl)
@[simp] theorem setDieState_guests (d v : Nat) : (p.setDieState d v).guests = p.guests := (rfl)
@[simp] theorem setDieState_fabric (d v : Nat) : (p.setDieState d v).fabric = p.fabric := (rfl)
@[simp] theorem setDieState_ledger (d v : Nat) : (p.setDieState d v).ledger = p.ledger := (rfl)
@[simp] theorem setDieState_ce (d v : Nat) : (p.setDieState d v).ce = p.ce := (rfl)
@[simp] theorem setDieState_dma (d v : Nat) : (p.setDieState d v).dma = p.dma := (rfl)
@[simp] theorem setDieState_se (d v : Nat) : (p.setDieState d v).se = p.se := (rfl)
@[simp] theorem setDieState_tickLog (d v : Nat) : (p.setDieState d v).tickLog = p.tickLog := (rfl)
@[simp] theorem setDieState_fresh (d v : Nat) : (p.setDieState d v).fresh = p.fresh := (rfl)
@[simp] theorem setDieState_pages (d v : Nat) : (p.setDieState d v).pages = p.pages := (rfl)

/-! ### setCmap -/

@[simp] theorem setCmap_head (lc st ph : Nat) : (p.setCmap lc st ph).head = p.head := (rfl)
@[simp] theorem setCmap_populated (lc st ph : Nat) : (p.setCmap lc st ph).populated = p.populated := (rfl)
@[simp] theorem setCmap_fr (lc st ph : Nat) : (p.setCmap lc st ph).fr = p.fr := (rfl)
@[simp] theorem setCmap_dieSt (lc st ph : Nat) : (p.setCmap lc st ph).dieSt = p.dieSt := (rfl)
@[simp] theorem setCmap_cores (lc st ph : Nat) : (p.setCmap lc st ph).cores = p.cores := (rfl)
@[simp] theorem setCmap_units (lc st ph : Nat) : (p.setCmap lc st ph).units = p.units := (rfl)
@[simp] theorem setCmap_caches (lc st ph : Nat) : (p.setCmap lc st ph).caches = p.caches := (rfl)
@[simp] theorem setCmap_coh (lc st ph : Nat) : (p.setCmap lc st ph).coh = p.coh := (rfl)
@[simp] theorem setCmap_hbm (lc st ph : Nat) : (p.setCmap lc st ph).hbm = p.hbm := (rfl)
@[simp] theorem setCmap_pw (lc st ph : Nat) : (p.setCmap lc st ph).pw = p.pw := (rfl)
@[simp] theorem setCmap_boot (lc st ph : Nat) : (p.setCmap lc st ph).boot = p.boot := (rfl)
@[simp] theorem setCmap_chain (lc st ph : Nat) : (p.setCmap lc st ph).chain = p.chain := (rfl)
@[simp] theorem setCmap_pcie (lc st ph : Nat) : (p.setCmap lc st ph).pcie = p.pcie := (rfl)
@[simp] theorem setCmap_out (lc st ph : Nat) : (p.setCmap lc st ph).out = p.out := (rfl)
@[simp] theorem setCmap_inq (lc st ph : Nat) : (p.setCmap lc st ph).inq = p.inq := (rfl)
@[simp] theorem setCmap_links (lc st ph : Nat) : (p.setCmap lc st ph).links = p.links := (rfl)
@[simp] theorem setCmap_guests (lc st ph : Nat) : (p.setCmap lc st ph).guests = p.guests := (rfl)
@[simp] theorem setCmap_fabric (lc st ph : Nat) : (p.setCmap lc st ph).fabric = p.fabric := (rfl)
@[simp] theorem setCmap_ledger (lc st ph : Nat) : (p.setCmap lc st ph).ledger = p.ledger := (rfl)
@[simp] theorem setCmap_ce (lc st ph : Nat) : (p.setCmap lc st ph).ce = p.ce := (rfl)
@[simp] theorem setCmap_dma (lc st ph : Nat) : (p.setCmap lc st ph).dma = p.dma := (rfl)
@[simp] theorem setCmap_se (lc st ph : Nat) : (p.setCmap lc st ph).se = p.se := (rfl)
@[simp] theorem setCmap_tickLog (lc st ph : Nat) : (p.setCmap lc st ph).tickLog = p.tickLog := (rfl)
@[simp] theorem setCmap_fresh (lc st ph : Nat) : (p.setCmap lc st ph).fresh = p.fresh := (rfl)
@[simp] theorem setCmap_pages (lc st ph : Nat) : (p.setCmap lc st ph).pages = p.pages := (rfl)

/-! ### setSpare -/

@[simp] theorem setSpare_head (e st ph : Nat) : (p.setSpare e st ph).head = p.head := (rfl)
@[simp] theorem setSpare_populated (e st ph : Nat) : (p.setSpare e st ph).populated = p.populated := (rfl)
@[simp] theorem setSpare_fr (e st ph : Nat) : (p.setSpare e st ph).fr = p.fr := (rfl)
@[simp] theorem setSpare_dieSt (e st ph : Nat) : (p.setSpare e st ph).dieSt = p.dieSt := (rfl)
@[simp] theorem setSpare_cores (e st ph : Nat) : (p.setSpare e st ph).cores = p.cores := (rfl)
@[simp] theorem setSpare_units (e st ph : Nat) : (p.setSpare e st ph).units = p.units := (rfl)
@[simp] theorem setSpare_caches (e st ph : Nat) : (p.setSpare e st ph).caches = p.caches := (rfl)
@[simp] theorem setSpare_coh (e st ph : Nat) : (p.setSpare e st ph).coh = p.coh := (rfl)
@[simp] theorem setSpare_hbm (e st ph : Nat) : (p.setSpare e st ph).hbm = p.hbm := (rfl)
@[simp] theorem setSpare_pw (e st ph : Nat) : (p.setSpare e st ph).pw = p.pw := (rfl)
@[simp] theorem setSpare_boot (e st ph : Nat) : (p.setSpare e st ph).boot = p.boot := (rfl)
@[simp] theorem setSpare_chain (e st ph : Nat) : (p.setSpare e st ph).chain = p.chain := (rfl)
@[simp] theorem setSpare_pcie (e st ph : Nat) : (p.setSpare e st ph).pcie = p.pcie := (rfl)
@[simp] theorem setSpare_out (e st ph : Nat) : (p.setSpare e st ph).out = p.out := (rfl)
@[simp] theorem setSpare_inq (e st ph : Nat) : (p.setSpare e st ph).inq = p.inq := (rfl)
@[simp] theorem setSpare_links (e st ph : Nat) : (p.setSpare e st ph).links = p.links := (rfl)
@[simp] theorem setSpare_guests (e st ph : Nat) : (p.setSpare e st ph).guests = p.guests := (rfl)
@[simp] theorem setSpare_fabric (e st ph : Nat) : (p.setSpare e st ph).fabric = p.fabric := (rfl)
@[simp] theorem setSpare_ledger (e st ph : Nat) : (p.setSpare e st ph).ledger = p.ledger := (rfl)
@[simp] theorem setSpare_ce (e st ph : Nat) : (p.setSpare e st ph).ce = p.ce := (rfl)
@[simp] theorem setSpare_dma (e st ph : Nat) : (p.setSpare e st ph).dma = p.dma := (rfl)
@[simp] theorem setSpare_se (e st ph : Nat) : (p.setSpare e st ph).se = p.se := (rfl)
@[simp] theorem setSpare_tickLog (e st ph : Nat) : (p.setSpare e st ph).tickLog = p.tickLog := (rfl)
@[simp] theorem setSpare_fresh (e st ph : Nat) : (p.setSpare e st ph).fresh = p.fresh := (rfl)
@[simp] theorem setSpare_pages (e st ph : Nat) : (p.setSpare e st ph).pages = p.pages := (rfl)

/-! ### setLcpid -/

@[simp] theorem setLcpid_head (lc v : Nat) : (p.setLcpid lc v).head = p.head := (rfl)
@[simp] theorem setLcpid_populated (lc v : Nat) : (p.setLcpid lc v).populated = p.populated := (rfl)
@[simp] theorem setLcpid_fr (lc v : Nat) : (p.setLcpid lc v).fr = p.fr := (rfl)
@[simp] theorem setLcpid_dieSt (lc v : Nat) : (p.setLcpid lc v).dieSt = p.dieSt := (rfl)
@[simp] theorem setLcpid_cores (lc v : Nat) : (p.setLcpid lc v).cores = p.cores := (rfl)
@[simp] theorem setLcpid_units (lc v : Nat) : (p.setLcpid lc v).units = p.units := (rfl)
@[simp] theorem setLcpid_caches (lc v : Nat) : (p.setLcpid lc v).caches = p.caches := (rfl)
@[simp] theorem setLcpid_coh (lc v : Nat) : (p.setLcpid lc v).coh = p.coh := (rfl)
@[simp] theorem setLcpid_hbm (lc v : Nat) : (p.setLcpid lc v).hbm = p.hbm := (rfl)
@[simp] theorem setLcpid_pw (lc v : Nat) : (p.setLcpid lc v).pw = p.pw := (rfl)
@[simp] theorem setLcpid_boot (lc v : Nat) : (p.setLcpid lc v).boot = p.boot := (rfl)
@[simp] theorem setLcpid_chain (lc v : Nat) : (p.setLcpid lc v).chain = p.chain := (rfl)
@[simp] theorem setLcpid_pcie (lc v : Nat) : (p.setLcpid lc v).pcie = p.pcie := (rfl)
@[simp] theorem setLcpid_out (lc v : Nat) : (p.setLcpid lc v).out = p.out := (rfl)
@[simp] theorem setLcpid_inq (lc v : Nat) : (p.setLcpid lc v).inq = p.inq := (rfl)
@[simp] theorem setLcpid_links (lc v : Nat) : (p.setLcpid lc v).links = p.links := (rfl)
@[simp] theorem setLcpid_guests (lc v : Nat) : (p.setLcpid lc v).guests = p.guests := (rfl)
@[simp] theorem setLcpid_fabric (lc v : Nat) : (p.setLcpid lc v).fabric = p.fabric := (rfl)
@[simp] theorem setLcpid_ledger (lc v : Nat) : (p.setLcpid lc v).ledger = p.ledger := (rfl)
@[simp] theorem setLcpid_ce (lc v : Nat) : (p.setLcpid lc v).ce = p.ce := (rfl)
@[simp] theorem setLcpid_dma (lc v : Nat) : (p.setLcpid lc v).dma = p.dma := (rfl)
@[simp] theorem setLcpid_se (lc v : Nat) : (p.setLcpid lc v).se = p.se := (rfl)
@[simp] theorem setLcpid_tickLog (lc v : Nat) : (p.setLcpid lc v).tickLog = p.tickLog := (rfl)
@[simp] theorem setLcpid_fresh (lc v : Nat) : (p.setLcpid lc v).fresh = p.fresh := (rfl)
@[simp] theorem setLcpid_pages (lc v : Nat) : (p.setLcpid lc v).pages = p.pages := (rfl)

/-! ### setPart -/

@[simp] theorem setPart_head (pid : Nat) (x : Partition) : (p.setPart pid x).head = p.head := (rfl)
@[simp] theorem setPart_populated (pid : Nat) (x : Partition) : (p.setPart pid x).populated = p.populated := (rfl)
@[simp] theorem setPart_fr (pid : Nat) (x : Partition) : (p.setPart pid x).fr = p.fr := (rfl)
@[simp] theorem setPart_dieSt (pid : Nat) (x : Partition) : (p.setPart pid x).dieSt = p.dieSt := (rfl)
@[simp] theorem setPart_cores (pid : Nat) (x : Partition) : (p.setPart pid x).cores = p.cores := (rfl)
@[simp] theorem setPart_units (pid : Nat) (x : Partition) : (p.setPart pid x).units = p.units := (rfl)
@[simp] theorem setPart_caches (pid : Nat) (x : Partition) : (p.setPart pid x).caches = p.caches := (rfl)
@[simp] theorem setPart_coh (pid : Nat) (x : Partition) : (p.setPart pid x).coh = p.coh := (rfl)
@[simp] theorem setPart_hbm (pid : Nat) (x : Partition) : (p.setPart pid x).hbm = p.hbm := (rfl)
@[simp] theorem setPart_pw (pid : Nat) (x : Partition) : (p.setPart pid x).pw = p.pw := (rfl)
@[simp] theorem setPart_boot (pid : Nat) (x : Partition) : (p.setPart pid x).boot = p.boot := (rfl)
@[simp] theorem setPart_chain (pid : Nat) (x : Partition) : (p.setPart pid x).chain = p.chain := (rfl)
@[simp] theorem setPart_pcie (pid : Nat) (x : Partition) : (p.setPart pid x).pcie = p.pcie := (rfl)
@[simp] theorem setPart_out (pid : Nat) (x : Partition) : (p.setPart pid x).out = p.out := (rfl)
@[simp] theorem setPart_inq (pid : Nat) (x : Partition) : (p.setPart pid x).inq = p.inq := (rfl)
@[simp] theorem setPart_links (pid : Nat) (x : Partition) : (p.setPart pid x).links = p.links := (rfl)
@[simp] theorem setPart_guests (pid : Nat) (x : Partition) : (p.setPart pid x).guests = p.guests := (rfl)
@[simp] theorem setPart_fabric (pid : Nat) (x : Partition) : (p.setPart pid x).fabric = p.fabric := (rfl)
@[simp] theorem setPart_ledger (pid : Nat) (x : Partition) : (p.setPart pid x).ledger = p.ledger := (rfl)
@[simp] theorem setPart_ce (pid : Nat) (x : Partition) : (p.setPart pid x).ce = p.ce := (rfl)
@[simp] theorem setPart_dma (pid : Nat) (x : Partition) : (p.setPart pid x).dma = p.dma := (rfl)
@[simp] theorem setPart_se (pid : Nat) (x : Partition) : (p.setPart pid x).se = p.se := (rfl)
@[simp] theorem setPart_tickLog (pid : Nat) (x : Partition) : (p.setPart pid x).tickLog = p.tickLog := (rfl)
@[simp] theorem setPart_fresh (pid : Nat) (x : Partition) : (p.setPart pid x).fresh = p.fresh := (rfl)
@[simp] theorem setPart_pages (pid : Nat) (x : Partition) : (p.setPart pid x).pages = p.pages := (rfl)

/-! ### setSeCfg -/

@[simp] theorem setSeCfg_head (n : Nat) (v : BitVec 32) : (p.setSeCfg n v).head = p.head := (rfl)
@[simp] theorem setSeCfg_populated (n : Nat) (v : BitVec 32) : (p.setSeCfg n v).populated = p.populated := (rfl)
@[simp] theorem setSeCfg_fr (n : Nat) (v : BitVec 32) : (p.setSeCfg n v).fr = p.fr := (rfl)
@[simp] theorem setSeCfg_stw (n : Nat) (v : BitVec 32) : (p.setSeCfg n v).stw = p.stw := (rfl)
@[simp] theorem setSeCfg_dieSt (n : Nat) (v : BitVec 32) : (p.setSeCfg n v).dieSt = p.dieSt := (rfl)
@[simp] theorem setSeCfg_cores (n : Nat) (v : BitVec 32) : (p.setSeCfg n v).cores = p.cores := (rfl)
@[simp] theorem setSeCfg_units (n : Nat) (v : BitVec 32) : (p.setSeCfg n v).units = p.units := (rfl)
@[simp] theorem setSeCfg_caches (n : Nat) (v : BitVec 32) : (p.setSeCfg n v).caches = p.caches := (rfl)
@[simp] theorem setSeCfg_coh (n : Nat) (v : BitVec 32) : (p.setSeCfg n v).coh = p.coh := (rfl)
@[simp] theorem setSeCfg_hbm (n : Nat) (v : BitVec 32) : (p.setSeCfg n v).hbm = p.hbm := (rfl)
@[simp] theorem setSeCfg_pw (n : Nat) (v : BitVec 32) : (p.setSeCfg n v).pw = p.pw := (rfl)
@[simp] theorem setSeCfg_boot (n : Nat) (v : BitVec 32) : (p.setSeCfg n v).boot = p.boot := (rfl)
@[simp] theorem setSeCfg_chain (n : Nat) (v : BitVec 32) : (p.setSeCfg n v).chain = p.chain := (rfl)
@[simp] theorem setSeCfg_pcie (n : Nat) (v : BitVec 32) : (p.setSeCfg n v).pcie = p.pcie := (rfl)
@[simp] theorem setSeCfg_out (n : Nat) (v : BitVec 32) : (p.setSeCfg n v).out = p.out := (rfl)
@[simp] theorem setSeCfg_inq (n : Nat) (v : BitVec 32) : (p.setSeCfg n v).inq = p.inq := (rfl)
@[simp] theorem setSeCfg_links (n : Nat) (v : BitVec 32) : (p.setSeCfg n v).links = p.links := (rfl)
@[simp] theorem setSeCfg_guests (n : Nat) (v : BitVec 32) : (p.setSeCfg n v).guests = p.guests := (rfl)
@[simp] theorem setSeCfg_fabric (n : Nat) (v : BitVec 32) : (p.setSeCfg n v).fabric = p.fabric := (rfl)
@[simp] theorem setSeCfg_ledger (n : Nat) (v : BitVec 32) : (p.setSeCfg n v).ledger = p.ledger := (rfl)
@[simp] theorem setSeCfg_ce (n : Nat) (v : BitVec 32) : (p.setSeCfg n v).ce = p.ce := (rfl)
@[simp] theorem setSeCfg_dma (n : Nat) (v : BitVec 32) : (p.setSeCfg n v).dma = p.dma := (rfl)
@[simp] theorem setSeCfg_tickLog (n : Nat) (v : BitVec 32) : (p.setSeCfg n v).tickLog = p.tickLog := (rfl)
@[simp] theorem setSeCfg_fresh (n : Nat) (v : BitVec 32) : (p.setSeCfg n v).fresh = p.fresh := (rfl)
@[simp] theorem setSeCfg_pages (n : Nat) (v : BitVec 32) : (p.setSeCfg n v).pages = p.pages := (rfl)

/-! ### The parts of the units -/

@[simp] theorem setGuest_head (g : Nat) (x : Guest) : (p.setGuest g x).head = p.head := (rfl)
@[simp] theorem setGuest_populated (g : Nat) (x : Guest) : (p.setGuest g x).populated = p.populated := (rfl)
@[simp] theorem setGuest_pages (g : Nat) (x : Guest) : (p.setGuest g x).pages = p.pages := (rfl)
@[simp] theorem setGuest_fr (g : Nat) (x : Guest) : (p.setGuest g x).fr = p.fr := (rfl)
@[simp] theorem setGuest_stw (g : Nat) (x : Guest) : (p.setGuest g x).stw = p.stw := (rfl)
@[simp] theorem setGuest_dieSt (g : Nat) (x : Guest) : (p.setGuest g x).dieSt = p.dieSt := (rfl)
@[simp] theorem setGuest_cores (g : Nat) (x : Guest) : (p.setGuest g x).cores = p.cores := (rfl)
@[simp] theorem setGuest_units (g : Nat) (x : Guest) : (p.setGuest g x).units = p.units := (rfl)
@[simp] theorem setGuest_caches (g : Nat) (x : Guest) : (p.setGuest g x).caches = p.caches := (rfl)
@[simp] theorem setGuest_coh (g : Nat) (x : Guest) : (p.setGuest g x).coh = p.coh := (rfl)
@[simp] theorem setGuest_hbm (g : Nat) (x : Guest) : (p.setGuest g x).hbm = p.hbm := (rfl)
@[simp] theorem setGuest_pw (g : Nat) (x : Guest) : (p.setGuest g x).pw = p.pw := (rfl)
@[simp] theorem setGuest_boot (g : Nat) (x : Guest) : (p.setGuest g x).boot = p.boot := (rfl)
@[simp] theorem setGuest_chain (g : Nat) (x : Guest) : (p.setGuest g x).chain = p.chain := (rfl)
@[simp] theorem setGuest_pcie (g : Nat) (x : Guest) : (p.setGuest g x).pcie = p.pcie := (rfl)
@[simp] theorem setGuest_out (g : Nat) (x : Guest) : (p.setGuest g x).out = p.out := (rfl)
@[simp] theorem setGuest_inq (g : Nat) (x : Guest) : (p.setGuest g x).inq = p.inq := (rfl)
@[simp] theorem setGuest_links (g : Nat) (x : Guest) : (p.setGuest g x).links = p.links := (rfl)
@[simp] theorem setGuest_fabric (g : Nat) (x : Guest) : (p.setGuest g x).fabric = p.fabric := (rfl)
@[simp] theorem setGuest_ledger (g : Nat) (x : Guest) : (p.setGuest g x).ledger = p.ledger := (rfl)
@[simp] theorem setGuest_ce (g : Nat) (x : Guest) : (p.setGuest g x).ce = p.ce := (rfl)
@[simp] theorem setGuest_dma (g : Nat) (x : Guest) : (p.setGuest g x).dma = p.dma := (rfl)
@[simp] theorem setGuest_se (g : Nat) (x : Guest) : (p.setGuest g x).se = p.se := (rfl)
@[simp] theorem setGuest_tickLog (g : Nat) (x : Guest) : (p.setGuest g x).tickLog = p.tickLog := (rfl)
@[simp] theorem setGuest_fresh (g : Nat) (x : Guest) : (p.setGuest g x).fresh = p.fresh := (rfl)

@[simp] theorem setLink_head (d : Nat) (x : DieLink) : (p.setLink d x).head = p.head := (rfl)
@[simp] theorem setLink_populated (d : Nat) (x : DieLink) : (p.setLink d x).populated = p.populated := (rfl)
@[simp] theorem setLink_pages (d : Nat) (x : DieLink) : (p.setLink d x).pages = p.pages := (rfl)
@[simp] theorem setLink_fr (d : Nat) (x : DieLink) : (p.setLink d x).fr = p.fr := (rfl)
@[simp] theorem setLink_stw (d : Nat) (x : DieLink) : (p.setLink d x).stw = p.stw := (rfl)
@[simp] theorem setLink_dieSt (d : Nat) (x : DieLink) : (p.setLink d x).dieSt = p.dieSt := (rfl)
@[simp] theorem setLink_cores (d : Nat) (x : DieLink) : (p.setLink d x).cores = p.cores := (rfl)
@[simp] theorem setLink_units (d : Nat) (x : DieLink) : (p.setLink d x).units = p.units := (rfl)
@[simp] theorem setLink_caches (d : Nat) (x : DieLink) : (p.setLink d x).caches = p.caches := (rfl)
@[simp] theorem setLink_coh (d : Nat) (x : DieLink) : (p.setLink d x).coh = p.coh := (rfl)
@[simp] theorem setLink_hbm (d : Nat) (x : DieLink) : (p.setLink d x).hbm = p.hbm := (rfl)
@[simp] theorem setLink_pw (d : Nat) (x : DieLink) : (p.setLink d x).pw = p.pw := (rfl)
@[simp] theorem setLink_boot (d : Nat) (x : DieLink) : (p.setLink d x).boot = p.boot := (rfl)
@[simp] theorem setLink_chain (d : Nat) (x : DieLink) : (p.setLink d x).chain = p.chain := (rfl)
@[simp] theorem setLink_pcie (d : Nat) (x : DieLink) : (p.setLink d x).pcie = p.pcie := (rfl)
@[simp] theorem setLink_out (d : Nat) (x : DieLink) : (p.setLink d x).out = p.out := (rfl)
@[simp] theorem setLink_inq (d : Nat) (x : DieLink) : (p.setLink d x).inq = p.inq := (rfl)
@[simp] theorem setLink_guests (d : Nat) (x : DieLink) : (p.setLink d x).guests = p.guests := (rfl)
@[simp] theorem setLink_fabric (d : Nat) (x : DieLink) : (p.setLink d x).fabric = p.fabric := (rfl)
@[simp] theorem setLink_ledger (d : Nat) (x : DieLink) : (p.setLink d x).ledger = p.ledger := (rfl)
@[simp] theorem setLink_ce (d : Nat) (x : DieLink) : (p.setLink d x).ce = p.ce := (rfl)
@[simp] theorem setLink_dma (d : Nat) (x : DieLink) : (p.setLink d x).dma = p.dma := (rfl)
@[simp] theorem setLink_se (d : Nat) (x : DieLink) : (p.setLink d x).se = p.se := (rfl)
@[simp] theorem setLink_tickLog (d : Nat) (x : DieLink) : (p.setLink d x).tickLog = p.tickLog := (rfl)
@[simp] theorem setLink_fresh (d : Nat) (x : DieLink) : (p.setLink d x).fresh = p.fresh := (rfl)

@[simp] theorem setBook_head (b : Nat × Nat) (x : Book) : (p.setBook b x).head = p.head := (rfl)
@[simp] theorem setBook_populated (b : Nat × Nat) (x : Book) : (p.setBook b x).populated = p.populated := (rfl)
@[simp] theorem setBook_pages (b : Nat × Nat) (x : Book) : (p.setBook b x).pages = p.pages := (rfl)
@[simp] theorem setBook_fr (b : Nat × Nat) (x : Book) : (p.setBook b x).fr = p.fr := (rfl)
@[simp] theorem setBook_stw (b : Nat × Nat) (x : Book) : (p.setBook b x).stw = p.stw := (rfl)
@[simp] theorem setBook_dieSt (b : Nat × Nat) (x : Book) : (p.setBook b x).dieSt = p.dieSt := (rfl)
@[simp] theorem setBook_cores (b : Nat × Nat) (x : Book) : (p.setBook b x).cores = p.cores := (rfl)
@[simp] theorem setBook_units (b : Nat × Nat) (x : Book) : (p.setBook b x).units = p.units := (rfl)
@[simp] theorem setBook_caches (b : Nat × Nat) (x : Book) : (p.setBook b x).caches = p.caches := (rfl)
@[simp] theorem setBook_coh (b : Nat × Nat) (x : Book) : (p.setBook b x).coh = p.coh := (rfl)
@[simp] theorem setBook_hbm (b : Nat × Nat) (x : Book) : (p.setBook b x).hbm = p.hbm := (rfl)
@[simp] theorem setBook_pw (b : Nat × Nat) (x : Book) : (p.setBook b x).pw = p.pw := (rfl)
@[simp] theorem setBook_boot (b : Nat × Nat) (x : Book) : (p.setBook b x).boot = p.boot := (rfl)
@[simp] theorem setBook_chain (b : Nat × Nat) (x : Book) : (p.setBook b x).chain = p.chain := (rfl)
@[simp] theorem setBook_pcie (b : Nat × Nat) (x : Book) : (p.setBook b x).pcie = p.pcie := (rfl)
@[simp] theorem setBook_out (b : Nat × Nat) (x : Book) : (p.setBook b x).out = p.out := (rfl)
@[simp] theorem setBook_inq (b : Nat × Nat) (x : Book) : (p.setBook b x).inq = p.inq := (rfl)
@[simp] theorem setBook_links (b : Nat × Nat) (x : Book) : (p.setBook b x).links = p.links := (rfl)
@[simp] theorem setBook_guests (b : Nat × Nat) (x : Book) : (p.setBook b x).guests = p.guests := (rfl)
@[simp] theorem setBook_ledger (b : Nat × Nat) (x : Book) : (p.setBook b x).ledger = p.ledger := (rfl)
@[simp] theorem setBook_ce (b : Nat × Nat) (x : Book) : (p.setBook b x).ce = p.ce := (rfl)
@[simp] theorem setBook_dma (b : Nat × Nat) (x : Book) : (p.setBook b x).dma = p.dma := (rfl)
@[simp] theorem setBook_se (b : Nat × Nat) (x : Book) : (p.setBook b x).se = p.se := (rfl)
@[simp] theorem setBook_tickLog (b : Nat × Nat) (x : Book) : (p.setBook b x).tickLog = p.tickLog := (rfl)
@[simp] theorem setBook_fresh (b : Nat × Nat) (x : Book) : (p.setBook b x).fresh = p.fresh := (rfl)

@[simp] theorem setDirSet_head (k : Nat) (x : DirSet) : (p.setDirSet k x).head = p.head := (rfl)
@[simp] theorem setDirSet_populated (k : Nat) (x : DirSet) : (p.setDirSet k x).populated = p.populated := (rfl)
@[simp] theorem setDirSet_pages (k : Nat) (x : DirSet) : (p.setDirSet k x).pages = p.pages := (rfl)
@[simp] theorem setDirSet_fr (k : Nat) (x : DirSet) : (p.setDirSet k x).fr = p.fr := (rfl)
@[simp] theorem setDirSet_stw (k : Nat) (x : DirSet) : (p.setDirSet k x).stw = p.stw := (rfl)
@[simp] theorem setDirSet_dieSt (k : Nat) (x : DirSet) : (p.setDirSet k x).dieSt = p.dieSt := (rfl)
@[simp] theorem setDirSet_cores (k : Nat) (x : DirSet) : (p.setDirSet k x).cores = p.cores := (rfl)
@[simp] theorem setDirSet_units (k : Nat) (x : DirSet) : (p.setDirSet k x).units = p.units := (rfl)
@[simp] theorem setDirSet_caches (k : Nat) (x : DirSet) : (p.setDirSet k x).caches = p.caches := (rfl)
@[simp] theorem setDirSet_hbm (k : Nat) (x : DirSet) : (p.setDirSet k x).hbm = p.hbm := (rfl)
@[simp] theorem setDirSet_pw (k : Nat) (x : DirSet) : (p.setDirSet k x).pw = p.pw := (rfl)
@[simp] theorem setDirSet_boot (k : Nat) (x : DirSet) : (p.setDirSet k x).boot = p.boot := (rfl)
@[simp] theorem setDirSet_chain (k : Nat) (x : DirSet) : (p.setDirSet k x).chain = p.chain := (rfl)
@[simp] theorem setDirSet_pcie (k : Nat) (x : DirSet) : (p.setDirSet k x).pcie = p.pcie := (rfl)
@[simp] theorem setDirSet_out (k : Nat) (x : DirSet) : (p.setDirSet k x).out = p.out := (rfl)
@[simp] theorem setDirSet_inq (k : Nat) (x : DirSet) : (p.setDirSet k x).inq = p.inq := (rfl)
@[simp] theorem setDirSet_links (k : Nat) (x : DirSet) : (p.setDirSet k x).links = p.links := (rfl)
@[simp] theorem setDirSet_guests (k : Nat) (x : DirSet) : (p.setDirSet k x).guests = p.guests := (rfl)
@[simp] theorem setDirSet_fabric (k : Nat) (x : DirSet) : (p.setDirSet k x).fabric = p.fabric := (rfl)
@[simp] theorem setDirSet_ledger (k : Nat) (x : DirSet) : (p.setDirSet k x).ledger = p.ledger := (rfl)
@[simp] theorem setDirSet_ce (k : Nat) (x : DirSet) : (p.setDirSet k x).ce = p.ce := (rfl)
@[simp] theorem setDirSet_dma (k : Nat) (x : DirSet) : (p.setDirSet k x).dma = p.dma := (rfl)
@[simp] theorem setDirSet_se (k : Nat) (x : DirSet) : (p.setDirSet k x).se = p.se := (rfl)
@[simp] theorem setDirSet_tickLog (k : Nat) (x : DirSet) : (p.setDirSet k x).tickLog = p.tickLog := (rfl)
@[simp] theorem setDirSet_fresh (k : Nat) (x : DirSet) : (p.setDirSet k x).fresh = p.fresh := (rfl)

@[simp] theorem setAgentReqs_head (a : Nat) (l : List AgentReq) : (p.setAgentReqs a l).head = p.head := (rfl)
@[simp] theorem setAgentReqs_populated (a : Nat) (l : List AgentReq) : (p.setAgentReqs a l).populated = p.populated := (rfl)
@[simp] theorem setAgentReqs_pages (a : Nat) (l : List AgentReq) : (p.setAgentReqs a l).pages = p.pages := (rfl)
@[simp] theorem setAgentReqs_fr (a : Nat) (l : List AgentReq) : (p.setAgentReqs a l).fr = p.fr := (rfl)
@[simp] theorem setAgentReqs_stw (a : Nat) (l : List AgentReq) : (p.setAgentReqs a l).stw = p.stw := (rfl)
@[simp] theorem setAgentReqs_dieSt (a : Nat) (l : List AgentReq) : (p.setAgentReqs a l).dieSt = p.dieSt := (rfl)
@[simp] theorem setAgentReqs_cores (a : Nat) (l : List AgentReq) : (p.setAgentReqs a l).cores = p.cores := (rfl)
@[simp] theorem setAgentReqs_units (a : Nat) (l : List AgentReq) : (p.setAgentReqs a l).units = p.units := (rfl)
@[simp] theorem setAgentReqs_caches (a : Nat) (l : List AgentReq) : (p.setAgentReqs a l).caches = p.caches := (rfl)
@[simp] theorem setAgentReqs_hbm (a : Nat) (l : List AgentReq) : (p.setAgentReqs a l).hbm = p.hbm := (rfl)
@[simp] theorem setAgentReqs_pw (a : Nat) (l : List AgentReq) : (p.setAgentReqs a l).pw = p.pw := (rfl)
@[simp] theorem setAgentReqs_boot (a : Nat) (l : List AgentReq) : (p.setAgentReqs a l).boot = p.boot := (rfl)
@[simp] theorem setAgentReqs_chain (a : Nat) (l : List AgentReq) : (p.setAgentReqs a l).chain = p.chain := (rfl)
@[simp] theorem setAgentReqs_pcie (a : Nat) (l : List AgentReq) : (p.setAgentReqs a l).pcie = p.pcie := (rfl)
@[simp] theorem setAgentReqs_out (a : Nat) (l : List AgentReq) : (p.setAgentReqs a l).out = p.out := (rfl)
@[simp] theorem setAgentReqs_inq (a : Nat) (l : List AgentReq) : (p.setAgentReqs a l).inq = p.inq := (rfl)
@[simp] theorem setAgentReqs_links (a : Nat) (l : List AgentReq) : (p.setAgentReqs a l).links = p.links := (rfl)
@[simp] theorem setAgentReqs_guests (a : Nat) (l : List AgentReq) : (p.setAgentReqs a l).guests = p.guests := (rfl)
@[simp] theorem setAgentReqs_fabric (a : Nat) (l : List AgentReq) : (p.setAgentReqs a l).fabric = p.fabric := (rfl)
@[simp] theorem setAgentReqs_ledger (a : Nat) (l : List AgentReq) : (p.setAgentReqs a l).ledger = p.ledger := (rfl)
@[simp] theorem setAgentReqs_ce (a : Nat) (l : List AgentReq) : (p.setAgentReqs a l).ce = p.ce := (rfl)
@[simp] theorem setAgentReqs_dma (a : Nat) (l : List AgentReq) : (p.setAgentReqs a l).dma = p.dma := (rfl)
@[simp] theorem setAgentReqs_se (a : Nat) (l : List AgentReq) : (p.setAgentReqs a l).se = p.se := (rfl)
@[simp] theorem setAgentReqs_tickLog (a : Nat) (l : List AgentReq) : (p.setAgentReqs a l).tickLog = p.tickLog := (rfl)
@[simp] theorem setAgentReqs_fresh (a : Nat) (l : List AgentReq) : (p.setAgentReqs a l).fresh = p.fresh := (rfl)

@[simp] theorem setDieLines_head (d : Nat) (t : Tbl DLine) : (p.setDieLines d t).head = p.head := (rfl)
@[simp] theorem setDieLines_populated (d : Nat) (t : Tbl DLine) : (p.setDieLines d t).populated = p.populated := (rfl)
@[simp] theorem setDieLines_pages (d : Nat) (t : Tbl DLine) : (p.setDieLines d t).pages = p.pages := (rfl)
@[simp] theorem setDieLines_fr (d : Nat) (t : Tbl DLine) : (p.setDieLines d t).fr = p.fr := (rfl)
@[simp] theorem setDieLines_stw (d : Nat) (t : Tbl DLine) : (p.setDieLines d t).stw = p.stw := (rfl)
@[simp] theorem setDieLines_dieSt (d : Nat) (t : Tbl DLine) : (p.setDieLines d t).dieSt = p.dieSt := (rfl)
@[simp] theorem setDieLines_cores (d : Nat) (t : Tbl DLine) : (p.setDieLines d t).cores = p.cores := (rfl)
@[simp] theorem setDieLines_units (d : Nat) (t : Tbl DLine) : (p.setDieLines d t).units = p.units := (rfl)
@[simp] theorem setDieLines_caches (d : Nat) (t : Tbl DLine) : (p.setDieLines d t).caches = p.caches := (rfl)
@[simp] theorem setDieLines_hbm (d : Nat) (t : Tbl DLine) : (p.setDieLines d t).hbm = p.hbm := (rfl)
@[simp] theorem setDieLines_pw (d : Nat) (t : Tbl DLine) : (p.setDieLines d t).pw = p.pw := (rfl)
@[simp] theorem setDieLines_boot (d : Nat) (t : Tbl DLine) : (p.setDieLines d t).boot = p.boot := (rfl)
@[simp] theorem setDieLines_chain (d : Nat) (t : Tbl DLine) : (p.setDieLines d t).chain = p.chain := (rfl)
@[simp] theorem setDieLines_pcie (d : Nat) (t : Tbl DLine) : (p.setDieLines d t).pcie = p.pcie := (rfl)
@[simp] theorem setDieLines_out (d : Nat) (t : Tbl DLine) : (p.setDieLines d t).out = p.out := (rfl)
@[simp] theorem setDieLines_inq (d : Nat) (t : Tbl DLine) : (p.setDieLines d t).inq = p.inq := (rfl)
@[simp] theorem setDieLines_links (d : Nat) (t : Tbl DLine) : (p.setDieLines d t).links = p.links := (rfl)
@[simp] theorem setDieLines_guests (d : Nat) (t : Tbl DLine) : (p.setDieLines d t).guests = p.guests := (rfl)
@[simp] theorem setDieLines_fabric (d : Nat) (t : Tbl DLine) : (p.setDieLines d t).fabric = p.fabric := (rfl)
@[simp] theorem setDieLines_ledger (d : Nat) (t : Tbl DLine) : (p.setDieLines d t).ledger = p.ledger := (rfl)
@[simp] theorem setDieLines_ce (d : Nat) (t : Tbl DLine) : (p.setDieLines d t).ce = p.ce := (rfl)
@[simp] theorem setDieLines_dma (d : Nat) (t : Tbl DLine) : (p.setDieLines d t).dma = p.dma := (rfl)
@[simp] theorem setDieLines_se (d : Nat) (t : Tbl DLine) : (p.setDieLines d t).se = p.se := (rfl)
@[simp] theorem setDieLines_tickLog (d : Nat) (t : Tbl DLine) : (p.setDieLines d t).tickLog = p.tickLog := (rfl)
@[simp] theorem setDieLines_fresh (d : Nat) (t : Tbl DLine) : (p.setDieLines d t).fresh = p.fresh := (rfl)

@[simp] theorem setCtl_head (n : Nat) (c : MemCtl) : (p.setCtl n c).head = p.head := (rfl)
@[simp] theorem setCtl_populated (n : Nat) (c : MemCtl) : (p.setCtl n c).populated = p.populated := (rfl)
@[simp] theorem setCtl_pages (n : Nat) (c : MemCtl) : (p.setCtl n c).pages = p.pages := (rfl)
@[simp] theorem setCtl_fr (n : Nat) (c : MemCtl) : (p.setCtl n c).fr = p.fr := (rfl)
@[simp] theorem setCtl_stw (n : Nat) (c : MemCtl) : (p.setCtl n c).stw = p.stw := (rfl)
@[simp] theorem setCtl_dieSt (n : Nat) (c : MemCtl) : (p.setCtl n c).dieSt = p.dieSt := (rfl)
@[simp] theorem setCtl_cores (n : Nat) (c : MemCtl) : (p.setCtl n c).cores = p.cores := (rfl)
@[simp] theorem setCtl_units (n : Nat) (c : MemCtl) : (p.setCtl n c).units = p.units := (rfl)
@[simp] theorem setCtl_caches (n : Nat) (c : MemCtl) : (p.setCtl n c).caches = p.caches := (rfl)
@[simp] theorem setCtl_coh (n : Nat) (c : MemCtl) : (p.setCtl n c).coh = p.coh := (rfl)
@[simp] theorem setCtl_pw (n : Nat) (c : MemCtl) : (p.setCtl n c).pw = p.pw := (rfl)
@[simp] theorem setCtl_boot (n : Nat) (c : MemCtl) : (p.setCtl n c).boot = p.boot := (rfl)
@[simp] theorem setCtl_chain (n : Nat) (c : MemCtl) : (p.setCtl n c).chain = p.chain := (rfl)
@[simp] theorem setCtl_pcie (n : Nat) (c : MemCtl) : (p.setCtl n c).pcie = p.pcie := (rfl)
@[simp] theorem setCtl_out (n : Nat) (c : MemCtl) : (p.setCtl n c).out = p.out := (rfl)
@[simp] theorem setCtl_inq (n : Nat) (c : MemCtl) : (p.setCtl n c).inq = p.inq := (rfl)
@[simp] theorem setCtl_links (n : Nat) (c : MemCtl) : (p.setCtl n c).links = p.links := (rfl)
@[simp] theorem setCtl_guests (n : Nat) (c : MemCtl) : (p.setCtl n c).guests = p.guests := (rfl)
@[simp] theorem setCtl_fabric (n : Nat) (c : MemCtl) : (p.setCtl n c).fabric = p.fabric := (rfl)
@[simp] theorem setCtl_ledger (n : Nat) (c : MemCtl) : (p.setCtl n c).ledger = p.ledger := (rfl)
@[simp] theorem setCtl_ce (n : Nat) (c : MemCtl) : (p.setCtl n c).ce = p.ce := (rfl)
@[simp] theorem setCtl_dma (n : Nat) (c : MemCtl) : (p.setCtl n c).dma = p.dma := (rfl)
@[simp] theorem setCtl_se (n : Nat) (c : MemCtl) : (p.setCtl n c).se = p.se := (rfl)
@[simp] theorem setCtl_tickLog (n : Nat) (c : MemCtl) : (p.setCtl n c).tickLog = p.tickLog := (rfl)
@[simp] theorem setCtl_fresh (n : Nat) (c : MemCtl) : (p.setCtl n c).fresh = p.fresh := (rfl)

@[simp] theorem setCellMeta_head (c : Nat) (m : Option LineMeta) : (p.setCellMeta c m).head = p.head := (rfl)
@[simp] theorem setCellMeta_populated (c : Nat) (m : Option LineMeta) : (p.setCellMeta c m).populated = p.populated := (rfl)
@[simp] theorem setCellMeta_pages (c : Nat) (m : Option LineMeta) : (p.setCellMeta c m).pages = p.pages := (rfl)
@[simp] theorem setCellMeta_fr (c : Nat) (m : Option LineMeta) : (p.setCellMeta c m).fr = p.fr := (rfl)
@[simp] theorem setCellMeta_stw (c : Nat) (m : Option LineMeta) : (p.setCellMeta c m).stw = p.stw := (rfl)
@[simp] theorem setCellMeta_dieSt (c : Nat) (m : Option LineMeta) : (p.setCellMeta c m).dieSt = p.dieSt := (rfl)
@[simp] theorem setCellMeta_cores (c : Nat) (m : Option LineMeta) : (p.setCellMeta c m).cores = p.cores := (rfl)
@[simp] theorem setCellMeta_units (c : Nat) (m : Option LineMeta) : (p.setCellMeta c m).units = p.units := (rfl)
@[simp] theorem setCellMeta_caches (c : Nat) (m : Option LineMeta) : (p.setCellMeta c m).caches = p.caches := (rfl)
@[simp] theorem setCellMeta_coh (c : Nat) (m : Option LineMeta) : (p.setCellMeta c m).coh = p.coh := (rfl)
@[simp] theorem setCellMeta_pw (c : Nat) (m : Option LineMeta) : (p.setCellMeta c m).pw = p.pw := (rfl)
@[simp] theorem setCellMeta_boot (c : Nat) (m : Option LineMeta) : (p.setCellMeta c m).boot = p.boot := (rfl)
@[simp] theorem setCellMeta_chain (c : Nat) (m : Option LineMeta) : (p.setCellMeta c m).chain = p.chain := (rfl)
@[simp] theorem setCellMeta_pcie (c : Nat) (m : Option LineMeta) : (p.setCellMeta c m).pcie = p.pcie := (rfl)
@[simp] theorem setCellMeta_out (c : Nat) (m : Option LineMeta) : (p.setCellMeta c m).out = p.out := (rfl)
@[simp] theorem setCellMeta_inq (c : Nat) (m : Option LineMeta) : (p.setCellMeta c m).inq = p.inq := (rfl)
@[simp] theorem setCellMeta_links (c : Nat) (m : Option LineMeta) : (p.setCellMeta c m).links = p.links := (rfl)
@[simp] theorem setCellMeta_guests (c : Nat) (m : Option LineMeta) : (p.setCellMeta c m).guests = p.guests := (rfl)
@[simp] theorem setCellMeta_fabric (c : Nat) (m : Option LineMeta) : (p.setCellMeta c m).fabric = p.fabric := (rfl)
@[simp] theorem setCellMeta_ledger (c : Nat) (m : Option LineMeta) : (p.setCellMeta c m).ledger = p.ledger := (rfl)
@[simp] theorem setCellMeta_ce (c : Nat) (m : Option LineMeta) : (p.setCellMeta c m).ce = p.ce := (rfl)
@[simp] theorem setCellMeta_dma (c : Nat) (m : Option LineMeta) : (p.setCellMeta c m).dma = p.dma := (rfl)
@[simp] theorem setCellMeta_se (c : Nat) (m : Option LineMeta) : (p.setCellMeta c m).se = p.se := (rfl)
@[simp] theorem setCellMeta_tickLog (c : Nat) (m : Option LineMeta) : (p.setCellMeta c m).tickLog = p.tickLog := (rfl)
@[simp] theorem setCellMeta_fresh (c : Nat) (m : Option LineMeta) : (p.setCellMeta c m).fresh = p.fresh := (rfl)

@[simp] theorem setPe_head (n : Nat) (x : Pcie) : (p.setPe n x).head = p.head := (rfl)
@[simp] theorem setPe_populated (n : Nat) (x : Pcie) : (p.setPe n x).populated = p.populated := (rfl)
@[simp] theorem setPe_pages (n : Nat) (x : Pcie) : (p.setPe n x).pages = p.pages := (rfl)
@[simp] theorem setPe_fr (n : Nat) (x : Pcie) : (p.setPe n x).fr = p.fr := (rfl)
@[simp] theorem setPe_stw (n : Nat) (x : Pcie) : (p.setPe n x).stw = p.stw := (rfl)
@[simp] theorem setPe_dieSt (n : Nat) (x : Pcie) : (p.setPe n x).dieSt = p.dieSt := (rfl)
@[simp] theorem setPe_cores (n : Nat) (x : Pcie) : (p.setPe n x).cores = p.cores := (rfl)
@[simp] theorem setPe_units (n : Nat) (x : Pcie) : (p.setPe n x).units = p.units := (rfl)
@[simp] theorem setPe_caches (n : Nat) (x : Pcie) : (p.setPe n x).caches = p.caches := (rfl)
@[simp] theorem setPe_coh (n : Nat) (x : Pcie) : (p.setPe n x).coh = p.coh := (rfl)
@[simp] theorem setPe_hbm (n : Nat) (x : Pcie) : (p.setPe n x).hbm = p.hbm := (rfl)
@[simp] theorem setPe_pw (n : Nat) (x : Pcie) : (p.setPe n x).pw = p.pw := (rfl)
@[simp] theorem setPe_boot (n : Nat) (x : Pcie) : (p.setPe n x).boot = p.boot := (rfl)
@[simp] theorem setPe_chain (n : Nat) (x : Pcie) : (p.setPe n x).chain = p.chain := (rfl)
@[simp] theorem setPe_out (n : Nat) (x : Pcie) : (p.setPe n x).out = p.out := (rfl)
@[simp] theorem setPe_inq (n : Nat) (x : Pcie) : (p.setPe n x).inq = p.inq := (rfl)
@[simp] theorem setPe_links (n : Nat) (x : Pcie) : (p.setPe n x).links = p.links := (rfl)
@[simp] theorem setPe_guests (n : Nat) (x : Pcie) : (p.setPe n x).guests = p.guests := (rfl)
@[simp] theorem setPe_fabric (n : Nat) (x : Pcie) : (p.setPe n x).fabric = p.fabric := (rfl)
@[simp] theorem setPe_ledger (n : Nat) (x : Pcie) : (p.setPe n x).ledger = p.ledger := (rfl)
@[simp] theorem setPe_ce (n : Nat) (x : Pcie) : (p.setPe n x).ce = p.ce := (rfl)
@[simp] theorem setPe_dma (n : Nat) (x : Pcie) : (p.setPe n x).dma = p.dma := (rfl)
@[simp] theorem setPe_se (n : Nat) (x : Pcie) : (p.setPe n x).se = p.se := (rfl)
@[simp] theorem setPe_tickLog (n : Nat) (x : Pcie) : (p.setPe n x).tickLog = p.tickLog := (rfl)
@[simp] theorem setPe_fresh (n : Nat) (x : Pcie) : (p.setPe n x).fresh = p.fresh := (rfl)

@[simp] theorem setCslot_head (e k : Nat) (x : CipherSlot) : (p.setCslot e k x).head = p.head := (rfl)
@[simp] theorem setCslot_populated (e k : Nat) (x : CipherSlot) : (p.setCslot e k x).populated = p.populated := (rfl)
@[simp] theorem setCslot_pages (e k : Nat) (x : CipherSlot) : (p.setCslot e k x).pages = p.pages := (rfl)
@[simp] theorem setCslot_fr (e k : Nat) (x : CipherSlot) : (p.setCslot e k x).fr = p.fr := (rfl)
@[simp] theorem setCslot_stw (e k : Nat) (x : CipherSlot) : (p.setCslot e k x).stw = p.stw := (rfl)
@[simp] theorem setCslot_dieSt (e k : Nat) (x : CipherSlot) : (p.setCslot e k x).dieSt = p.dieSt := (rfl)
@[simp] theorem setCslot_cores (e k : Nat) (x : CipherSlot) : (p.setCslot e k x).cores = p.cores := (rfl)
@[simp] theorem setCslot_units (e k : Nat) (x : CipherSlot) : (p.setCslot e k x).units = p.units := (rfl)
@[simp] theorem setCslot_caches (e k : Nat) (x : CipherSlot) : (p.setCslot e k x).caches = p.caches := (rfl)
@[simp] theorem setCslot_coh (e k : Nat) (x : CipherSlot) : (p.setCslot e k x).coh = p.coh := (rfl)
@[simp] theorem setCslot_hbm (e k : Nat) (x : CipherSlot) : (p.setCslot e k x).hbm = p.hbm := (rfl)
@[simp] theorem setCslot_pw (e k : Nat) (x : CipherSlot) : (p.setCslot e k x).pw = p.pw := (rfl)
@[simp] theorem setCslot_boot (e k : Nat) (x : CipherSlot) : (p.setCslot e k x).boot = p.boot := (rfl)
@[simp] theorem setCslot_chain (e k : Nat) (x : CipherSlot) : (p.setCslot e k x).chain = p.chain := (rfl)
@[simp] theorem setCslot_pcie (e k : Nat) (x : CipherSlot) : (p.setCslot e k x).pcie = p.pcie := (rfl)
@[simp] theorem setCslot_out (e k : Nat) (x : CipherSlot) : (p.setCslot e k x).out = p.out := (rfl)
@[simp] theorem setCslot_inq (e k : Nat) (x : CipherSlot) : (p.setCslot e k x).inq = p.inq := (rfl)
@[simp] theorem setCslot_links (e k : Nat) (x : CipherSlot) : (p.setCslot e k x).links = p.links := (rfl)
@[simp] theorem setCslot_guests (e k : Nat) (x : CipherSlot) : (p.setCslot e k x).guests = p.guests := (rfl)
@[simp] theorem setCslot_fabric (e k : Nat) (x : CipherSlot) : (p.setCslot e k x).fabric = p.fabric := (rfl)
@[simp] theorem setCslot_ledger (e k : Nat) (x : CipherSlot) : (p.setCslot e k x).ledger = p.ledger := (rfl)
@[simp] theorem setCslot_dma (e k : Nat) (x : CipherSlot) : (p.setCslot e k x).dma = p.dma := (rfl)
@[simp] theorem setCslot_se (e k : Nat) (x : CipherSlot) : (p.setCslot e k x).se = p.se := (rfl)
@[simp] theorem setCslot_tickLog (e k : Nat) (x : CipherSlot) : (p.setCslot e k x).tickLog = p.tickLog := (rfl)
@[simp] theorem setCslot_fresh (e k : Nat) (x : CipherSlot) : (p.setCslot e k x).fresh = p.fresh := (rfl)

@[simp] theorem setCeng_head (e : Nat) (x : CipherEng) : (p.setCeng e x).head = p.head := (rfl)
@[simp] theorem setCeng_populated (e : Nat) (x : CipherEng) : (p.setCeng e x).populated = p.populated := (rfl)
@[simp] theorem setCeng_pages (e : Nat) (x : CipherEng) : (p.setCeng e x).pages = p.pages := (rfl)
@[simp] theorem setCeng_fr (e : Nat) (x : CipherEng) : (p.setCeng e x).fr = p.fr := (rfl)
@[simp] theorem setCeng_stw (e : Nat) (x : CipherEng) : (p.setCeng e x).stw = p.stw := (rfl)
@[simp] theorem setCeng_dieSt (e : Nat) (x : CipherEng) : (p.setCeng e x).dieSt = p.dieSt := (rfl)
@[simp] theorem setCeng_cores (e : Nat) (x : CipherEng) : (p.setCeng e x).cores = p.cores := (rfl)
@[simp] theorem setCeng_units (e : Nat) (x : CipherEng) : (p.setCeng e x).units = p.units := (rfl)
@[simp] theorem setCeng_caches (e : Nat) (x : CipherEng) : (p.setCeng e x).caches = p.caches := (rfl)
@[simp] theorem setCeng_coh (e : Nat) (x : CipherEng) : (p.setCeng e x).coh = p.coh := (rfl)
@[simp] theorem setCeng_hbm (e : Nat) (x : CipherEng) : (p.setCeng e x).hbm = p.hbm := (rfl)
@[simp] theorem setCeng_pw (e : Nat) (x : CipherEng) : (p.setCeng e x).pw = p.pw := (rfl)
@[simp] theorem setCeng_boot (e : Nat) (x : CipherEng) : (p.setCeng e x).boot = p.boot := (rfl)
@[simp] theorem setCeng_chain (e : Nat) (x : CipherEng) : (p.setCeng e x).chain = p.chain := (rfl)
@[simp] theorem setCeng_pcie (e : Nat) (x : CipherEng) : (p.setCeng e x).pcie = p.pcie := (rfl)
@[simp] theorem setCeng_out (e : Nat) (x : CipherEng) : (p.setCeng e x).out = p.out := (rfl)
@[simp] theorem setCeng_inq (e : Nat) (x : CipherEng) : (p.setCeng e x).inq = p.inq := (rfl)
@[simp] theorem setCeng_links (e : Nat) (x : CipherEng) : (p.setCeng e x).links = p.links := (rfl)
@[simp] theorem setCeng_guests (e : Nat) (x : CipherEng) : (p.setCeng e x).guests = p.guests := (rfl)
@[simp] theorem setCeng_fabric (e : Nat) (x : CipherEng) : (p.setCeng e x).fabric = p.fabric := (rfl)
@[simp] theorem setCeng_ledger (e : Nat) (x : CipherEng) : (p.setCeng e x).ledger = p.ledger := (rfl)
@[simp] theorem setCeng_dma (e : Nat) (x : CipherEng) : (p.setCeng e x).dma = p.dma := (rfl)
@[simp] theorem setCeng_se (e : Nat) (x : CipherEng) : (p.setCeng e x).se = p.se := (rfl)
@[simp] theorem setCeng_tickLog (e : Nat) (x : CipherEng) : (p.setCeng e x).tickLog = p.tickLog := (rfl)
@[simp] theorem setCeng_fresh (e : Nat) (x : CipherEng) : (p.setCeng e x).fresh = p.fresh := (rfl)

@[simp] theorem setChan_head (k : Nat) (x : DmaChan) : (p.setChan k x).head = p.head := (rfl)
@[simp] theorem setChan_populated (k : Nat) (x : DmaChan) : (p.setChan k x).populated = p.populated := (rfl)
@[simp] theorem setChan_pages (k : Nat) (x : DmaChan) : (p.setChan k x).pages = p.pages := (rfl)
@[simp] theorem setChan_fr (k : Nat) (x : DmaChan) : (p.setChan k x).fr = p.fr := (rfl)
@[simp] theorem setChan_stw (k : Nat) (x : DmaChan) : (p.setChan k x).stw = p.stw := (rfl)
@[simp] theorem setChan_dieSt (k : Nat) (x : DmaChan) : (p.setChan k x).dieSt = p.dieSt := (rfl)
@[simp] theorem setChan_cores (k : Nat) (x : DmaChan) : (p.setChan k x).cores = p.cores := (rfl)
@[simp] theorem setChan_units (k : Nat) (x : DmaChan) : (p.setChan k x).units = p.units := (rfl)
@[simp] theorem setChan_caches (k : Nat) (x : DmaChan) : (p.setChan k x).caches = p.caches := (rfl)
@[simp] theorem setChan_coh (k : Nat) (x : DmaChan) : (p.setChan k x).coh = p.coh := (rfl)
@[simp] theorem setChan_hbm (k : Nat) (x : DmaChan) : (p.setChan k x).hbm = p.hbm := (rfl)
@[simp] theorem setChan_pw (k : Nat) (x : DmaChan) : (p.setChan k x).pw = p.pw := (rfl)
@[simp] theorem setChan_boot (k : Nat) (x : DmaChan) : (p.setChan k x).boot = p.boot := (rfl)
@[simp] theorem setChan_chain (k : Nat) (x : DmaChan) : (p.setChan k x).chain = p.chain := (rfl)
@[simp] theorem setChan_pcie (k : Nat) (x : DmaChan) : (p.setChan k x).pcie = p.pcie := (rfl)
@[simp] theorem setChan_out (k : Nat) (x : DmaChan) : (p.setChan k x).out = p.out := (rfl)
@[simp] theorem setChan_inq (k : Nat) (x : DmaChan) : (p.setChan k x).inq = p.inq := (rfl)
@[simp] theorem setChan_links (k : Nat) (x : DmaChan) : (p.setChan k x).links = p.links := (rfl)
@[simp] theorem setChan_guests (k : Nat) (x : DmaChan) : (p.setChan k x).guests = p.guests := (rfl)
@[simp] theorem setChan_fabric (k : Nat) (x : DmaChan) : (p.setChan k x).fabric = p.fabric := (rfl)
@[simp] theorem setChan_ledger (k : Nat) (x : DmaChan) : (p.setChan k x).ledger = p.ledger := (rfl)
@[simp] theorem setChan_ce (k : Nat) (x : DmaChan) : (p.setChan k x).ce = p.ce := (rfl)
@[simp] theorem setChan_se (k : Nat) (x : DmaChan) : (p.setChan k x).se = p.se := (rfl)
@[simp] theorem setChan_tickLog (k : Nat) (x : DmaChan) : (p.setChan k x).tickLog = p.tickLog := (rfl)
@[simp] theorem setChan_fresh (k : Nat) (x : DmaChan) : (p.setChan k x).fresh = p.fresh := (rfl)

@[simp] theorem setCache_head (c : Nat) (x : Cache) : (p.setCache c x).head = p.head := (rfl)
@[simp] theorem setCache_populated (c : Nat) (x : Cache) : (p.setCache c x).populated = p.populated := (rfl)
@[simp] theorem setCache_pages (c : Nat) (x : Cache) : (p.setCache c x).pages = p.pages := (rfl)
@[simp] theorem setCache_fr (c : Nat) (x : Cache) : (p.setCache c x).fr = p.fr := (rfl)
@[simp] theorem setCache_stw (c : Nat) (x : Cache) : (p.setCache c x).stw = p.stw := (rfl)
@[simp] theorem setCache_dieSt (c : Nat) (x : Cache) : (p.setCache c x).dieSt = p.dieSt := (rfl)
@[simp] theorem setCache_cores (c : Nat) (x : Cache) : (p.setCache c x).cores = p.cores := (rfl)
@[simp] theorem setCache_units (c : Nat) (x : Cache) : (p.setCache c x).units = p.units := (rfl)
@[simp] theorem setCache_coh (c : Nat) (x : Cache) : (p.setCache c x).coh = p.coh := (rfl)
@[simp] theorem setCache_hbm (c : Nat) (x : Cache) : (p.setCache c x).hbm = p.hbm := (rfl)
@[simp] theorem setCache_pw (c : Nat) (x : Cache) : (p.setCache c x).pw = p.pw := (rfl)
@[simp] theorem setCache_boot (c : Nat) (x : Cache) : (p.setCache c x).boot = p.boot := (rfl)
@[simp] theorem setCache_chain (c : Nat) (x : Cache) : (p.setCache c x).chain = p.chain := (rfl)
@[simp] theorem setCache_pcie (c : Nat) (x : Cache) : (p.setCache c x).pcie = p.pcie := (rfl)
@[simp] theorem setCache_out (c : Nat) (x : Cache) : (p.setCache c x).out = p.out := (rfl)
@[simp] theorem setCache_inq (c : Nat) (x : Cache) : (p.setCache c x).inq = p.inq := (rfl)
@[simp] theorem setCache_links (c : Nat) (x : Cache) : (p.setCache c x).links = p.links := (rfl)
@[simp] theorem setCache_guests (c : Nat) (x : Cache) : (p.setCache c x).guests = p.guests := (rfl)
@[simp] theorem setCache_fabric (c : Nat) (x : Cache) : (p.setCache c x).fabric = p.fabric := (rfl)
@[simp] theorem setCache_ledger (c : Nat) (x : Cache) : (p.setCache c x).ledger = p.ledger := (rfl)
@[simp] theorem setCache_ce (c : Nat) (x : Cache) : (p.setCache c x).ce = p.ce := (rfl)
@[simp] theorem setCache_dma (c : Nat) (x : Cache) : (p.setCache c x).dma = p.dma := (rfl)
@[simp] theorem setCache_se (c : Nat) (x : Cache) : (p.setCache c x).se = p.se := (rfl)
@[simp] theorem setCache_tickLog (c : Nat) (x : Cache) : (p.setCache c x).tickLog = p.tickLog := (rfl)
@[simp] theorem setCache_fresh (c : Nat) (x : Cache) : (p.setCache c x).fresh = p.fresh := (rfl)

@[simp] theorem setQp_head (q : Nat) (x : QueuePair) : (p.setQp q x).head = p.head := (rfl)
@[simp] theorem setQp_populated (q : Nat) (x : QueuePair) : (p.setQp q x).populated = p.populated := (rfl)
@[simp] theorem setQp_pages (q : Nat) (x : QueuePair) : (p.setQp q x).pages = p.pages := (rfl)
@[simp] theorem setQp_fr (q : Nat) (x : QueuePair) : (p.setQp q x).fr = p.fr := (rfl)
@[simp] theorem setQp_stw (q : Nat) (x : QueuePair) : (p.setQp q x).stw = p.stw := (rfl)
@[simp] theorem setQp_dieSt (q : Nat) (x : QueuePair) : (p.setQp q x).dieSt = p.dieSt := (rfl)
@[simp] theorem setQp_cores (q : Nat) (x : QueuePair) : (p.setQp q x).cores = p.cores := (rfl)
@[simp] theorem setQp_units (q : Nat) (x : QueuePair) : (p.setQp q x).units = p.units := (rfl)
@[simp] theorem setQp_caches (q : Nat) (x : QueuePair) : (p.setQp q x).caches = p.caches := (rfl)
@[simp] theorem setQp_coh (q : Nat) (x : QueuePair) : (p.setQp q x).coh = p.coh := (rfl)
@[simp] theorem setQp_hbm (q : Nat) (x : QueuePair) : (p.setQp q x).hbm = p.hbm := (rfl)
@[simp] theorem setQp_pw (q : Nat) (x : QueuePair) : (p.setQp q x).pw = p.pw := (rfl)
@[simp] theorem setQp_boot (q : Nat) (x : QueuePair) : (p.setQp q x).boot = p.boot := (rfl)
@[simp] theorem setQp_chain (q : Nat) (x : QueuePair) : (p.setQp q x).chain = p.chain := (rfl)
@[simp] theorem setQp_pcie (q : Nat) (x : QueuePair) : (p.setQp q x).pcie = p.pcie := (rfl)
@[simp] theorem setQp_out (q : Nat) (x : QueuePair) : (p.setQp q x).out = p.out := (rfl)
@[simp] theorem setQp_inq (q : Nat) (x : QueuePair) : (p.setQp q x).inq = p.inq := (rfl)
@[simp] theorem setQp_links (q : Nat) (x : QueuePair) : (p.setQp q x).links = p.links := (rfl)
@[simp] theorem setQp_guests (q : Nat) (x : QueuePair) : (p.setQp q x).guests = p.guests := (rfl)
@[simp] theorem setQp_fabric (q : Nat) (x : QueuePair) : (p.setQp q x).fabric = p.fabric := (rfl)
@[simp] theorem setQp_ce (q : Nat) (x : QueuePair) : (p.setQp q x).ce = p.ce := (rfl)
@[simp] theorem setQp_dma (q : Nat) (x : QueuePair) : (p.setQp q x).dma = p.dma := (rfl)
@[simp] theorem setQp_se (q : Nat) (x : QueuePair) : (p.setQp q x).se = p.se := (rfl)
@[simp] theorem setQp_tickLog (q : Nat) (x : QueuePair) : (p.setQp q x).tickLog = p.tickLog := (rfl)
@[simp] theorem setQp_fresh (q : Nat) (x : QueuePair) : (p.setQp q x).fresh = p.fresh := (rfl)

@[simp] theorem setLcmd_head (k : Nat) (c : Option LedgerCmd) : (p.setLcmd k c).head = p.head := (rfl)
@[simp] theorem setLcmd_populated (k : Nat) (c : Option LedgerCmd) : (p.setLcmd k c).populated = p.populated := (rfl)
@[simp] theorem setLcmd_pages (k : Nat) (c : Option LedgerCmd) : (p.setLcmd k c).pages = p.pages := (rfl)
@[simp] theorem setLcmd_fr (k : Nat) (c : Option LedgerCmd) : (p.setLcmd k c).fr = p.fr := (rfl)
@[simp] theorem setLcmd_stw (k : Nat) (c : Option LedgerCmd) : (p.setLcmd k c).stw = p.stw := (rfl)
@[simp] theorem setLcmd_dieSt (k : Nat) (c : Option LedgerCmd) : (p.setLcmd k c).dieSt = p.dieSt := (rfl)
@[simp] theorem setLcmd_cores (k : Nat) (c : Option LedgerCmd) : (p.setLcmd k c).cores = p.cores := (rfl)
@[simp] theorem setLcmd_units (k : Nat) (c : Option LedgerCmd) : (p.setLcmd k c).units = p.units := (rfl)
@[simp] theorem setLcmd_caches (k : Nat) (c : Option LedgerCmd) : (p.setLcmd k c).caches = p.caches := (rfl)
@[simp] theorem setLcmd_coh (k : Nat) (c : Option LedgerCmd) : (p.setLcmd k c).coh = p.coh := (rfl)
@[simp] theorem setLcmd_hbm (k : Nat) (c : Option LedgerCmd) : (p.setLcmd k c).hbm = p.hbm := (rfl)
@[simp] theorem setLcmd_pw (k : Nat) (c : Option LedgerCmd) : (p.setLcmd k c).pw = p.pw := (rfl)
@[simp] theorem setLcmd_boot (k : Nat) (c : Option LedgerCmd) : (p.setLcmd k c).boot = p.boot := (rfl)
@[simp] theorem setLcmd_chain (k : Nat) (c : Option LedgerCmd) : (p.setLcmd k c).chain = p.chain := (rfl)
@[simp] theorem setLcmd_pcie (k : Nat) (c : Option LedgerCmd) : (p.setLcmd k c).pcie = p.pcie := (rfl)
@[simp] theorem setLcmd_out (k : Nat) (c : Option LedgerCmd) : (p.setLcmd k c).out = p.out := (rfl)
@[simp] theorem setLcmd_inq (k : Nat) (c : Option LedgerCmd) : (p.setLcmd k c).inq = p.inq := (rfl)
@[simp] theorem setLcmd_links (k : Nat) (c : Option LedgerCmd) : (p.setLcmd k c).links = p.links := (rfl)
@[simp] theorem setLcmd_guests (k : Nat) (c : Option LedgerCmd) : (p.setLcmd k c).guests = p.guests := (rfl)
@[simp] theorem setLcmd_fabric (k : Nat) (c : Option LedgerCmd) : (p.setLcmd k c).fabric = p.fabric := (rfl)
@[simp] theorem setLcmd_ce (k : Nat) (c : Option LedgerCmd) : (p.setLcmd k c).ce = p.ce := (rfl)
@[simp] theorem setLcmd_dma (k : Nat) (c : Option LedgerCmd) : (p.setLcmd k c).dma = p.dma := (rfl)
@[simp] theorem setLcmd_se (k : Nat) (c : Option LedgerCmd) : (p.setLcmd k c).se = p.se := (rfl)
@[simp] theorem setLcmd_tickLog (k : Nat) (c : Option LedgerCmd) : (p.setLcmd k c).tickLog = p.tickLog := (rfl)
@[simp] theorem setLcmd_fresh (k : Nat) (c : Option LedgerCmd) : (p.setLcmd k c).fresh = p.fresh := (rfl)

@[simp] theorem setLns_head (n : Nat) (x : Option LedgerNs) : (p.setLns n x).head = p.head := (rfl)
@[simp] theorem setLns_populated (n : Nat) (x : Option LedgerNs) : (p.setLns n x).populated = p.populated := (rfl)
@[simp] theorem setLns_pages (n : Nat) (x : Option LedgerNs) : (p.setLns n x).pages = p.pages := (rfl)
@[simp] theorem setLns_fr (n : Nat) (x : Option LedgerNs) : (p.setLns n x).fr = p.fr := (rfl)
@[simp] theorem setLns_stw (n : Nat) (x : Option LedgerNs) : (p.setLns n x).stw = p.stw := (rfl)
@[simp] theorem setLns_dieSt (n : Nat) (x : Option LedgerNs) : (p.setLns n x).dieSt = p.dieSt := (rfl)
@[simp] theorem setLns_cores (n : Nat) (x : Option LedgerNs) : (p.setLns n x).cores = p.cores := (rfl)
@[simp] theorem setLns_units (n : Nat) (x : Option LedgerNs) : (p.setLns n x).units = p.units := (rfl)
@[simp] theorem setLns_caches (n : Nat) (x : Option LedgerNs) : (p.setLns n x).caches = p.caches := (rfl)
@[simp] theorem setLns_coh (n : Nat) (x : Option LedgerNs) : (p.setLns n x).coh = p.coh := (rfl)
@[simp] theorem setLns_hbm (n : Nat) (x : Option LedgerNs) : (p.setLns n x).hbm = p.hbm := (rfl)
@[simp] theorem setLns_pw (n : Nat) (x : Option LedgerNs) : (p.setLns n x).pw = p.pw := (rfl)
@[simp] theorem setLns_boot (n : Nat) (x : Option LedgerNs) : (p.setLns n x).boot = p.boot := (rfl)
@[simp] theorem setLns_chain (n : Nat) (x : Option LedgerNs) : (p.setLns n x).chain = p.chain := (rfl)
@[simp] theorem setLns_pcie (n : Nat) (x : Option LedgerNs) : (p.setLns n x).pcie = p.pcie := (rfl)
@[simp] theorem setLns_out (n : Nat) (x : Option LedgerNs) : (p.setLns n x).out = p.out := (rfl)
@[simp] theorem setLns_inq (n : Nat) (x : Option LedgerNs) : (p.setLns n x).inq = p.inq := (rfl)
@[simp] theorem setLns_links (n : Nat) (x : Option LedgerNs) : (p.setLns n x).links = p.links := (rfl)
@[simp] theorem setLns_guests (n : Nat) (x : Option LedgerNs) : (p.setLns n x).guests = p.guests := (rfl)
@[simp] theorem setLns_fabric (n : Nat) (x : Option LedgerNs) : (p.setLns n x).fabric = p.fabric := (rfl)
@[simp] theorem setLns_ce (n : Nat) (x : Option LedgerNs) : (p.setLns n x).ce = p.ce := (rfl)
@[simp] theorem setLns_dma (n : Nat) (x : Option LedgerNs) : (p.setLns n x).dma = p.dma := (rfl)
@[simp] theorem setLns_se (n : Nat) (x : Option LedgerNs) : (p.setLns n x).se = p.se := (rfl)
@[simp] theorem setLns_tickLog (n : Nat) (x : Option LedgerNs) : (p.setLns n x).tickLog = p.tickLog := (rfl)
@[simp] theorem setLns_fresh (n : Nat) (x : Option LedgerNs) : (p.setLns n x).fresh = p.fresh := (rfl)

@[simp] theorem setChPort_head (down : Bool) (x : ChPort) : (p.setChPort down x).head = p.head := (rfl)
@[simp] theorem setChPort_populated (down : Bool) (x : ChPort) : (p.setChPort down x).populated = p.populated := (rfl)
@[simp] theorem setChPort_pages (down : Bool) (x : ChPort) : (p.setChPort down x).pages = p.pages := (rfl)
@[simp] theorem setChPort_fr (down : Bool) (x : ChPort) : (p.setChPort down x).fr = p.fr := (rfl)
@[simp] theorem setChPort_stw (down : Bool) (x : ChPort) : (p.setChPort down x).stw = p.stw := (rfl)
@[simp] theorem setChPort_dieSt (down : Bool) (x : ChPort) : (p.setChPort down x).dieSt = p.dieSt := (rfl)
@[simp] theorem setChPort_cores (down : Bool) (x : ChPort) : (p.setChPort down x).cores = p.cores := (rfl)
@[simp] theorem setChPort_units (down : Bool) (x : ChPort) : (p.setChPort down x).units = p.units := (rfl)
@[simp] theorem setChPort_caches (down : Bool) (x : ChPort) : (p.setChPort down x).caches = p.caches := (rfl)
@[simp] theorem setChPort_coh (down : Bool) (x : ChPort) : (p.setChPort down x).coh = p.coh := (rfl)
@[simp] theorem setChPort_hbm (down : Bool) (x : ChPort) : (p.setChPort down x).hbm = p.hbm := (rfl)
@[simp] theorem setChPort_pw (down : Bool) (x : ChPort) : (p.setChPort down x).pw = p.pw := (rfl)
@[simp] theorem setChPort_boot (down : Bool) (x : ChPort) : (p.setChPort down x).boot = p.boot := (rfl)
@[simp] theorem setChPort_pcie (down : Bool) (x : ChPort) : (p.setChPort down x).pcie = p.pcie := (rfl)
@[simp] theorem setChPort_out (down : Bool) (x : ChPort) : (p.setChPort down x).out = p.out := (rfl)
@[simp] theorem setChPort_inq (down : Bool) (x : ChPort) : (p.setChPort down x).inq = p.inq := (rfl)
@[simp] theorem setChPort_links (down : Bool) (x : ChPort) : (p.setChPort down x).links = p.links := (rfl)
@[simp] theorem setChPort_guests (down : Bool) (x : ChPort) : (p.setChPort down x).guests = p.guests := (rfl)
@[simp] theorem setChPort_fabric (down : Bool) (x : ChPort) : (p.setChPort down x).fabric = p.fabric := (rfl)
@[simp] theorem setChPort_ledger (down : Bool) (x : ChPort) : (p.setChPort down x).ledger = p.ledger := (rfl)
@[simp] theorem setChPort_ce (down : Bool) (x : ChPort) : (p.setChPort down x).ce = p.ce := (rfl)
@[simp] theorem setChPort_dma (down : Bool) (x : ChPort) : (p.setChPort down x).dma = p.dma := (rfl)
@[simp] theorem setChPort_se (down : Bool) (x : ChPort) : (p.setChPort down x).se = p.se := (rfl)
@[simp] theorem setChPort_tickLog (down : Bool) (x : ChPort) : (p.setChPort down x).tickLog = p.tickLog := (rfl)
@[simp] theorem setChPort_fresh (down : Bool) (x : ChPort) : (p.setChPort down x).fresh = p.fresh := (rfl)

/-! ### Free values -/

@[simp] theorem free_head (w : Nat) : (p.free w).2.head = p.head := (rfl)
@[simp] theorem free_populated (w : Nat) : (p.free w).2.populated = p.populated := (rfl)
@[simp] theorem free_fr (w : Nat) : (p.free w).2.fr = p.fr := (rfl)
@[simp] theorem free_stw (w : Nat) : (p.free w).2.stw = p.stw := (rfl)
@[simp] theorem free_dieSt (w : Nat) : (p.free w).2.dieSt = p.dieSt := (rfl)
@[simp] theorem free_cores (w : Nat) : (p.free w).2.cores = p.cores := (rfl)
@[simp] theorem free_units (w : Nat) : (p.free w).2.units = p.units := (rfl)
@[simp] theorem free_caches (w : Nat) : (p.free w).2.caches = p.caches := (rfl)
@[simp] theorem free_coh (w : Nat) : (p.free w).2.coh = p.coh := (rfl)
@[simp] theorem free_hbm (w : Nat) : (p.free w).2.hbm = p.hbm := (rfl)
@[simp] theorem free_pw (w : Nat) : (p.free w).2.pw = p.pw := (rfl)
@[simp] theorem free_boot (w : Nat) : (p.free w).2.boot = p.boot := (rfl)
@[simp] theorem free_chain (w : Nat) : (p.free w).2.chain = p.chain := (rfl)
@[simp] theorem free_pcie (w : Nat) : (p.free w).2.pcie = p.pcie := (rfl)
@[simp] theorem free_out (w : Nat) : (p.free w).2.out = p.out := (rfl)
@[simp] theorem free_inq (w : Nat) : (p.free w).2.inq = p.inq := (rfl)
@[simp] theorem free_links (w : Nat) : (p.free w).2.links = p.links := (rfl)
@[simp] theorem free_guests (w : Nat) : (p.free w).2.guests = p.guests := (rfl)
@[simp] theorem free_fabric (w : Nat) : (p.free w).2.fabric = p.fabric := (rfl)
@[simp] theorem free_ledger (w : Nat) : (p.free w).2.ledger = p.ledger := (rfl)
@[simp] theorem free_ce (w : Nat) : (p.free w).2.ce = p.ce := (rfl)
@[simp] theorem free_dma (w : Nat) : (p.free w).2.dma = p.dma := (rfl)
@[simp] theorem free_se (w : Nat) : (p.free w).2.se = p.se := (rfl)
@[simp] theorem free_tickLog (w : Nat) : (p.free w).2.tickLog = p.tickLog := (rfl)
@[simp] theorem free_pages (w : Nat) : (p.free w).2.pages = p.pages := (rfl)

/-! ### Events and commands of a page -/

@[simp] theorem noteEv_head (pg b cls : Nat) (d : Det) : (p.noteEv pg b cls d).head = p.head := (rfl)
@[simp] theorem noteEv_populated (pg b cls : Nat) (d : Det) : (p.noteEv pg b cls d).populated = p.populated := (rfl)
@[simp] theorem noteEv_fr (pg b cls : Nat) (d : Det) : (p.noteEv pg b cls d).fr = p.fr := (rfl)
@[simp] theorem noteEv_stw (pg b cls : Nat) (d : Det) : (p.noteEv pg b cls d).stw = p.stw := (rfl)
@[simp] theorem noteEv_dieSt (pg b cls : Nat) (d : Det) : (p.noteEv pg b cls d).dieSt = p.dieSt := (rfl)
@[simp] theorem noteEv_cores (pg b cls : Nat) (d : Det) : (p.noteEv pg b cls d).cores = p.cores := (rfl)
@[simp] theorem noteEv_units (pg b cls : Nat) (d : Det) : (p.noteEv pg b cls d).units = p.units := (rfl)
@[simp] theorem noteEv_caches (pg b cls : Nat) (d : Det) : (p.noteEv pg b cls d).caches = p.caches := (rfl)
@[simp] theorem noteEv_coh (pg b cls : Nat) (d : Det) : (p.noteEv pg b cls d).coh = p.coh := (rfl)
@[simp] theorem noteEv_hbm (pg b cls : Nat) (d : Det) : (p.noteEv pg b cls d).hbm = p.hbm := (rfl)
@[simp] theorem noteEv_pw (pg b cls : Nat) (d : Det) : (p.noteEv pg b cls d).pw = p.pw := (rfl)
@[simp] theorem noteEv_boot (pg b cls : Nat) (d : Det) : (p.noteEv pg b cls d).boot = p.boot := (rfl)
@[simp] theorem noteEv_chain (pg b cls : Nat) (d : Det) : (p.noteEv pg b cls d).chain = p.chain := (rfl)
@[simp] theorem noteEv_pcie (pg b cls : Nat) (d : Det) : (p.noteEv pg b cls d).pcie = p.pcie := (rfl)
@[simp] theorem noteEv_out (pg b cls : Nat) (d : Det) : (p.noteEv pg b cls d).out = p.out := (rfl)
@[simp] theorem noteEv_inq (pg b cls : Nat) (d : Det) : (p.noteEv pg b cls d).inq = p.inq := (rfl)
@[simp] theorem noteEv_links (pg b cls : Nat) (d : Det) : (p.noteEv pg b cls d).links = p.links := (rfl)
@[simp] theorem noteEv_guests (pg b cls : Nat) (d : Det) : (p.noteEv pg b cls d).guests = p.guests := (rfl)
@[simp] theorem noteEv_fabric (pg b cls : Nat) (d : Det) : (p.noteEv pg b cls d).fabric = p.fabric := (rfl)
@[simp] theorem noteEv_ledger (pg b cls : Nat) (d : Det) : (p.noteEv pg b cls d).ledger = p.ledger := (rfl)
@[simp] theorem noteEv_ce (pg b cls : Nat) (d : Det) : (p.noteEv pg b cls d).ce = p.ce := (rfl)
@[simp] theorem noteEv_dma (pg b cls : Nat) (d : Det) : (p.noteEv pg b cls d).dma = p.dma := (rfl)
@[simp] theorem noteEv_se (pg b cls : Nat) (d : Det) : (p.noteEv pg b cls d).se = p.se := (rfl)
@[simp] theorem noteEv_tickLog (pg b cls : Nat) (d : Det) : (p.noteEv pg b cls d).tickLog = p.tickLog := (rfl)
@[simp] theorem noteEv_fresh (pg b cls : Nat) (d : Det) : (p.noteEv pg b cls d).fresh = p.fresh := (rfl)

@[simp] theorem refreshIrq_head (pg : Nat) : (p.refreshIrq pg).head = p.head := by
  unfold Pkg.refreshIrq
  simp only []
  split <;> [rfl; (split <;> [rfl; (split <;> [rfl; (split <;> rfl)])])]
@[simp] theorem refreshIrq_populated (pg : Nat) : (p.refreshIrq pg).populated = p.populated := by
  unfold Pkg.refreshIrq
  simp only []
  split <;> [rfl; (split <;> [rfl; (split <;> [rfl; (split <;> rfl)])])]
@[simp] theorem refreshIrq_fr (pg : Nat) : (p.refreshIrq pg).fr = p.fr := by
  unfold Pkg.refreshIrq
  simp only []
  split <;> [rfl; (split <;> [rfl; (split <;> [rfl; (split <;> rfl)])])]
@[simp] theorem refreshIrq_dieSt (pg : Nat) : (p.refreshIrq pg).dieSt = p.dieSt := by
  unfold Pkg.refreshIrq
  simp only []
  split <;> [rfl; (split <;> [rfl; (split <;> [rfl; (split <;> rfl)])])]
@[simp] theorem refreshIrq_cores (pg : Nat) : (p.refreshIrq pg).cores = p.cores := by
  unfold Pkg.refreshIrq
  simp only []
  split <;> [rfl; (split <;> [rfl; (split <;> [rfl; (split <;> rfl)])])]
@[simp] theorem refreshIrq_units (pg : Nat) : (p.refreshIrq pg).units = p.units := by
  unfold Pkg.refreshIrq
  simp only []
  split <;> [rfl; (split <;> [rfl; (split <;> [rfl; (split <;> rfl)])])]
@[simp] theorem refreshIrq_caches (pg : Nat) : (p.refreshIrq pg).caches = p.caches := by
  unfold Pkg.refreshIrq
  simp only []
  split <;> [rfl; (split <;> [rfl; (split <;> [rfl; (split <;> rfl)])])]
@[simp] theorem refreshIrq_coh (pg : Nat) : (p.refreshIrq pg).coh = p.coh := by
  unfold Pkg.refreshIrq
  simp only []
  split <;> [rfl; (split <;> [rfl; (split <;> [rfl; (split <;> rfl)])])]
@[simp] theorem refreshIrq_hbm (pg : Nat) : (p.refreshIrq pg).hbm = p.hbm := by
  unfold Pkg.refreshIrq
  simp only []
  split <;> [rfl; (split <;> [rfl; (split <;> [rfl; (split <;> rfl)])])]
@[simp] theorem refreshIrq_pw (pg : Nat) : (p.refreshIrq pg).pw = p.pw := by
  unfold Pkg.refreshIrq
  simp only []
  split <;> [rfl; (split <;> [rfl; (split <;> [rfl; (split <;> rfl)])])]
@[simp] theorem refreshIrq_boot (pg : Nat) : (p.refreshIrq pg).boot = p.boot := by
  unfold Pkg.refreshIrq
  simp only []
  split <;> [rfl; (split <;> [rfl; (split <;> [rfl; (split <;> rfl)])])]
@[simp] theorem refreshIrq_chain (pg : Nat) : (p.refreshIrq pg).chain = p.chain := by
  unfold Pkg.refreshIrq
  simp only []
  split <;> [rfl; (split <;> [rfl; (split <;> [rfl; (split <;> rfl)])])]
@[simp] theorem refreshIrq_pcie (pg : Nat) : (p.refreshIrq pg).pcie = p.pcie := by
  unfold Pkg.refreshIrq
  simp only []
  split <;> [rfl; (split <;> [rfl; (split <;> [rfl; (split <;> rfl)])])]
@[simp] theorem refreshIrq_out (pg : Nat) : (p.refreshIrq pg).out = p.out := by
  unfold Pkg.refreshIrq
  simp only []
  split <;> [rfl; (split <;> [rfl; (split <;> [rfl; (split <;> rfl)])])]
@[simp] theorem refreshIrq_inq (pg : Nat) : (p.refreshIrq pg).inq = p.inq := by
  unfold Pkg.refreshIrq
  simp only []
  split <;> [rfl; (split <;> [rfl; (split <;> [rfl; (split <;> rfl)])])]
@[simp] theorem refreshIrq_links (pg : Nat) : (p.refreshIrq pg).links = p.links := by
  unfold Pkg.refreshIrq
  simp only []
  split <;> [rfl; (split <;> [rfl; (split <;> [rfl; (split <;> rfl)])])]
@[simp] theorem refreshIrq_guests (pg : Nat) : (p.refreshIrq pg).guests = p.guests := by
  unfold Pkg.refreshIrq
  simp only []
  split <;> [rfl; (split <;> [rfl; (split <;> [rfl; (split <;> rfl)])])]
@[simp] theorem refreshIrq_fabric (pg : Nat) : (p.refreshIrq pg).fabric = p.fabric := by
  unfold Pkg.refreshIrq
  simp only []
  split <;> [rfl; (split <;> [rfl; (split <;> [rfl; (split <;> rfl)])])]
@[simp] theorem refreshIrq_ledger (pg : Nat) : (p.refreshIrq pg).ledger = p.ledger := by
  unfold Pkg.refreshIrq
  simp only []
  split <;> [rfl; (split <;> [rfl; (split <;> [rfl; (split <;> rfl)])])]
@[simp] theorem refreshIrq_ce (pg : Nat) : (p.refreshIrq pg).ce = p.ce := by
  unfold Pkg.refreshIrq
  simp only []
  split <;> [rfl; (split <;> [rfl; (split <;> [rfl; (split <;> rfl)])])]
@[simp] theorem refreshIrq_dma (pg : Nat) : (p.refreshIrq pg).dma = p.dma := by
  unfold Pkg.refreshIrq
  simp only []
  split <;> [rfl; (split <;> [rfl; (split <;> [rfl; (split <;> rfl)])])]
@[simp] theorem refreshIrq_se (pg : Nat) : (p.refreshIrq pg).se = p.se := by
  unfold Pkg.refreshIrq
  simp only []
  split <;> [rfl; (split <;> [rfl; (split <;> [rfl; (split <;> rfl)])])]
@[simp] theorem refreshIrq_tickLog (pg : Nat) : (p.refreshIrq pg).tickLog = p.tickLog := by
  unfold Pkg.refreshIrq
  simp only []
  split <;> [rfl; (split <;> [rfl; (split <;> [rfl; (split <;> rfl)])])]
@[simp] theorem refreshIrq_fresh (pg : Nat) : (p.refreshIrq pg).fresh = p.fresh := by
  unfold Pkg.refreshIrq
  simp only []
  split <;> [rfl; (split <;> [rfl; (split <;> [rfl; (split <;> rfl)])])]

/-- What a set event does. -/
theorem setEvent_eq (pg b cls : Nat) (d : Det) :
    p.setEvent pg b cls d =
      if bit (p.reg pg 0x030) b then p
      else (((p.setRf pg 0x028 b b 1).addRf pg 0x038 31 0 1).noteEv pg b cls d).refreshIrq pg := by
  unfold Pkg.setEvent
  exact (rfl)

@[simp] theorem setEvent_head (pg b cls : Nat) (d : Det) : (p.setEvent pg b cls d).head = p.head := by
  rw [setEvent_eq]
  split <;> simp
@[simp] theorem setEvent_populated (pg b cls : Nat) (d : Det) : (p.setEvent pg b cls d).populated = p.populated := by
  rw [setEvent_eq]
  split <;> simp
@[simp] theorem setEvent_fr (pg b cls : Nat) (d : Det) : (p.setEvent pg b cls d).fr = p.fr := by
  rw [setEvent_eq]
  split <;> simp
@[simp] theorem setEvent_dieSt (pg b cls : Nat) (d : Det) : (p.setEvent pg b cls d).dieSt = p.dieSt := by
  rw [setEvent_eq]
  split <;> simp
@[simp] theorem setEvent_cores (pg b cls : Nat) (d : Det) : (p.setEvent pg b cls d).cores = p.cores := by
  rw [setEvent_eq]
  split <;> simp
@[simp] theorem setEvent_units (pg b cls : Nat) (d : Det) : (p.setEvent pg b cls d).units = p.units := by
  rw [setEvent_eq]
  split <;> simp
@[simp] theorem setEvent_caches (pg b cls : Nat) (d : Det) : (p.setEvent pg b cls d).caches = p.caches := by
  rw [setEvent_eq]
  split <;> simp
@[simp] theorem setEvent_coh (pg b cls : Nat) (d : Det) : (p.setEvent pg b cls d).coh = p.coh := by
  rw [setEvent_eq]
  split <;> simp
@[simp] theorem setEvent_hbm (pg b cls : Nat) (d : Det) : (p.setEvent pg b cls d).hbm = p.hbm := by
  rw [setEvent_eq]
  split <;> simp
@[simp] theorem setEvent_pw (pg b cls : Nat) (d : Det) : (p.setEvent pg b cls d).pw = p.pw := by
  rw [setEvent_eq]
  split <;> simp
@[simp] theorem setEvent_boot (pg b cls : Nat) (d : Det) : (p.setEvent pg b cls d).boot = p.boot := by
  rw [setEvent_eq]
  split <;> simp
@[simp] theorem setEvent_chain (pg b cls : Nat) (d : Det) : (p.setEvent pg b cls d).chain = p.chain := by
  rw [setEvent_eq]
  split <;> simp
@[simp] theorem setEvent_pcie (pg b cls : Nat) (d : Det) : (p.setEvent pg b cls d).pcie = p.pcie := by
  rw [setEvent_eq]
  split <;> simp
@[simp] theorem setEvent_out (pg b cls : Nat) (d : Det) : (p.setEvent pg b cls d).out = p.out := by
  rw [setEvent_eq]
  split <;> simp
@[simp] theorem setEvent_inq (pg b cls : Nat) (d : Det) : (p.setEvent pg b cls d).inq = p.inq := by
  rw [setEvent_eq]
  split <;> simp
@[simp] theorem setEvent_links (pg b cls : Nat) (d : Det) : (p.setEvent pg b cls d).links = p.links := by
  rw [setEvent_eq]
  split <;> simp
@[simp] theorem setEvent_guests (pg b cls : Nat) (d : Det) : (p.setEvent pg b cls d).guests = p.guests := by
  rw [setEvent_eq]
  split <;> simp
@[simp] theorem setEvent_fabric (pg b cls : Nat) (d : Det) : (p.setEvent pg b cls d).fabric = p.fabric := by
  rw [setEvent_eq]
  split <;> simp
@[simp] theorem setEvent_ledger (pg b cls : Nat) (d : Det) : (p.setEvent pg b cls d).ledger = p.ledger := by
  rw [setEvent_eq]
  split <;> simp
@[simp] theorem setEvent_ce (pg b cls : Nat) (d : Det) : (p.setEvent pg b cls d).ce = p.ce := by
  rw [setEvent_eq]
  split <;> simp
@[simp] theorem setEvent_dma (pg b cls : Nat) (d : Det) : (p.setEvent pg b cls d).dma = p.dma := by
  rw [setEvent_eq]
  split <;> simp
@[simp] theorem setEvent_se (pg b cls : Nat) (d : Det) : (p.setEvent pg b cls d).se = p.se := by
  rw [setEvent_eq]
  split <;> simp
@[simp] theorem setEvent_tickLog (pg b cls : Nat) (d : Det) : (p.setEvent pg b cls d).tickLog = p.tickLog := by
  rw [setEvent_eq]
  split <;> simp
@[simp] theorem setEvent_fresh (pg b cls : Nat) (d : Det) : (p.setEvent pg b cls d).fresh = p.fresh := by
  rw [setEvent_eq]
  split <;> simp

@[simp] theorem cmdOk_head (pg off : Nat) : (p.cmdOk pg off).head = p.head := by simp [Pkg.cmdOk]
@[simp] theorem cmdOk_populated (pg off : Nat) : (p.cmdOk pg off).populated = p.populated := by simp [Pkg.cmdOk]
@[simp] theorem cmdOk_fr (pg off : Nat) : (p.cmdOk pg off).fr = p.fr := by simp [Pkg.cmdOk]
@[simp] theorem cmdOk_stw (pg off : Nat) : (p.cmdOk pg off).stw = p.stw := by simp [Pkg.cmdOk]
@[simp] theorem cmdOk_dieSt (pg off : Nat) : (p.cmdOk pg off).dieSt = p.dieSt := by simp [Pkg.cmdOk]
@[simp] theorem cmdOk_cores (pg off : Nat) : (p.cmdOk pg off).cores = p.cores := by simp [Pkg.cmdOk]
@[simp] theorem cmdOk_units (pg off : Nat) : (p.cmdOk pg off).units = p.units := by simp [Pkg.cmdOk]
@[simp] theorem cmdOk_caches (pg off : Nat) : (p.cmdOk pg off).caches = p.caches := by simp [Pkg.cmdOk]
@[simp] theorem cmdOk_coh (pg off : Nat) : (p.cmdOk pg off).coh = p.coh := by simp [Pkg.cmdOk]
@[simp] theorem cmdOk_hbm (pg off : Nat) : (p.cmdOk pg off).hbm = p.hbm := by simp [Pkg.cmdOk]
@[simp] theorem cmdOk_pw (pg off : Nat) : (p.cmdOk pg off).pw = p.pw := by simp [Pkg.cmdOk]
@[simp] theorem cmdOk_boot (pg off : Nat) : (p.cmdOk pg off).boot = p.boot := by simp [Pkg.cmdOk]
@[simp] theorem cmdOk_chain (pg off : Nat) : (p.cmdOk pg off).chain = p.chain := by simp [Pkg.cmdOk]
@[simp] theorem cmdOk_pcie (pg off : Nat) : (p.cmdOk pg off).pcie = p.pcie := by simp [Pkg.cmdOk]
@[simp] theorem cmdOk_out (pg off : Nat) : (p.cmdOk pg off).out = p.out := by simp [Pkg.cmdOk]
@[simp] theorem cmdOk_inq (pg off : Nat) : (p.cmdOk pg off).inq = p.inq := by simp [Pkg.cmdOk]
@[simp] theorem cmdOk_links (pg off : Nat) : (p.cmdOk pg off).links = p.links := by simp [Pkg.cmdOk]
@[simp] theorem cmdOk_guests (pg off : Nat) : (p.cmdOk pg off).guests = p.guests := by simp [Pkg.cmdOk]
@[simp] theorem cmdOk_fabric (pg off : Nat) : (p.cmdOk pg off).fabric = p.fabric := by simp [Pkg.cmdOk]
@[simp] theorem cmdOk_ledger (pg off : Nat) : (p.cmdOk pg off).ledger = p.ledger := by simp [Pkg.cmdOk]
@[simp] theorem cmdOk_ce (pg off : Nat) : (p.cmdOk pg off).ce = p.ce := by simp [Pkg.cmdOk]
@[simp] theorem cmdOk_dma (pg off : Nat) : (p.cmdOk pg off).dma = p.dma := by simp [Pkg.cmdOk]
@[simp] theorem cmdOk_se (pg off : Nat) : (p.cmdOk pg off).se = p.se := by simp [Pkg.cmdOk]
@[simp] theorem cmdOk_tickLog (pg off : Nat) : (p.cmdOk pg off).tickLog = p.tickLog := by simp [Pkg.cmdOk]
@[simp] theorem cmdOk_fresh (pg off : Nat) : (p.cmdOk pg off).fresh = p.fresh := by simp [Pkg.cmdOk]

@[simp] theorem cmdPending_head (pg off : Nat) : (p.cmdPending pg off).head = p.head := by simp [Pkg.cmdPending]
@[simp] theorem cmdPending_populated (pg off : Nat) : (p.cmdPending pg off).populated = p.populated := by simp [Pkg.cmdPending]
@[simp] theorem cmdPending_fr (pg off : Nat) : (p.cmdPending pg off).fr = p.fr := by simp [Pkg.cmdPending]
@[simp] theorem cmdPending_stw (pg off : Nat) : (p.cmdPending pg off).stw = p.stw := by simp [Pkg.cmdPending]
@[simp] theorem cmdPending_dieSt (pg off : Nat) : (p.cmdPending pg off).dieSt = p.dieSt := by simp [Pkg.cmdPending]
@[simp] theorem cmdPending_cores (pg off : Nat) : (p.cmdPending pg off).cores = p.cores := by simp [Pkg.cmdPending]
@[simp] theorem cmdPending_units (pg off : Nat) : (p.cmdPending pg off).units = p.units := by simp [Pkg.cmdPending]
@[simp] theorem cmdPending_caches (pg off : Nat) : (p.cmdPending pg off).caches = p.caches := by simp [Pkg.cmdPending]
@[simp] theorem cmdPending_coh (pg off : Nat) : (p.cmdPending pg off).coh = p.coh := by simp [Pkg.cmdPending]
@[simp] theorem cmdPending_hbm (pg off : Nat) : (p.cmdPending pg off).hbm = p.hbm := by simp [Pkg.cmdPending]
@[simp] theorem cmdPending_pw (pg off : Nat) : (p.cmdPending pg off).pw = p.pw := by simp [Pkg.cmdPending]
@[simp] theorem cmdPending_boot (pg off : Nat) : (p.cmdPending pg off).boot = p.boot := by simp [Pkg.cmdPending]
@[simp] theorem cmdPending_chain (pg off : Nat) : (p.cmdPending pg off).chain = p.chain := by simp [Pkg.cmdPending]
@[simp] theorem cmdPending_pcie (pg off : Nat) : (p.cmdPending pg off).pcie = p.pcie := by simp [Pkg.cmdPending]
@[simp] theorem cmdPending_out (pg off : Nat) : (p.cmdPending pg off).out = p.out := by simp [Pkg.cmdPending]
@[simp] theorem cmdPending_inq (pg off : Nat) : (p.cmdPending pg off).inq = p.inq := by simp [Pkg.cmdPending]
@[simp] theorem cmdPending_links (pg off : Nat) : (p.cmdPending pg off).links = p.links := by simp [Pkg.cmdPending]
@[simp] theorem cmdPending_guests (pg off : Nat) : (p.cmdPending pg off).guests = p.guests := by simp [Pkg.cmdPending]
@[simp] theorem cmdPending_fabric (pg off : Nat) : (p.cmdPending pg off).fabric = p.fabric := by simp [Pkg.cmdPending]
@[simp] theorem cmdPending_ledger (pg off : Nat) : (p.cmdPending pg off).ledger = p.ledger := by simp [Pkg.cmdPending]
@[simp] theorem cmdPending_ce (pg off : Nat) : (p.cmdPending pg off).ce = p.ce := by simp [Pkg.cmdPending]
@[simp] theorem cmdPending_dma (pg off : Nat) : (p.cmdPending pg off).dma = p.dma := by simp [Pkg.cmdPending]
@[simp] theorem cmdPending_se (pg off : Nat) : (p.cmdPending pg off).se = p.se := by simp [Pkg.cmdPending]
@[simp] theorem cmdPending_tickLog (pg off : Nat) : (p.cmdPending pg off).tickLog = p.tickLog := by simp [Pkg.cmdPending]
@[simp] theorem cmdPending_fresh (pg off : Nat) : (p.cmdPending pg off).fresh = p.fresh := by simp [Pkg.cmdPending]

@[simp] theorem cmdWrong_head (pg off : Nat) : (p.cmdWrong pg off).head = p.head := by simp [Pkg.cmdWrong]
@[simp] theorem cmdWrong_populated (pg off : Nat) : (p.cmdWrong pg off).populated = p.populated := by simp [Pkg.cmdWrong]
@[simp] theorem cmdWrong_fr (pg off : Nat) : (p.cmdWrong pg off).fr = p.fr := by simp [Pkg.cmdWrong]
@[simp] theorem cmdWrong_dieSt (pg off : Nat) : (p.cmdWrong pg off).dieSt = p.dieSt := by simp [Pkg.cmdWrong]
@[simp] theorem cmdWrong_cores (pg off : Nat) : (p.cmdWrong pg off).cores = p.cores := by simp [Pkg.cmdWrong]
@[simp] theorem cmdWrong_units (pg off : Nat) : (p.cmdWrong pg off).units = p.units := by simp [Pkg.cmdWrong]
@[simp] theorem cmdWrong_caches (pg off : Nat) : (p.cmdWrong pg off).caches = p.caches := by simp [Pkg.cmdWrong]
@[simp] theorem cmdWrong_coh (pg off : Nat) : (p.cmdWrong pg off).coh = p.coh := by simp [Pkg.cmdWrong]
@[simp] theorem cmdWrong_hbm (pg off : Nat) : (p.cmdWrong pg off).hbm = p.hbm := by simp [Pkg.cmdWrong]
@[simp] theorem cmdWrong_pw (pg off : Nat) : (p.cmdWrong pg off).pw = p.pw := by simp [Pkg.cmdWrong]
@[simp] theorem cmdWrong_boot (pg off : Nat) : (p.cmdWrong pg off).boot = p.boot := by simp [Pkg.cmdWrong]
@[simp] theorem cmdWrong_chain (pg off : Nat) : (p.cmdWrong pg off).chain = p.chain := by simp [Pkg.cmdWrong]
@[simp] theorem cmdWrong_pcie (pg off : Nat) : (p.cmdWrong pg off).pcie = p.pcie := by simp [Pkg.cmdWrong]
@[simp] theorem cmdWrong_out (pg off : Nat) : (p.cmdWrong pg off).out = p.out := by simp [Pkg.cmdWrong]
@[simp] theorem cmdWrong_inq (pg off : Nat) : (p.cmdWrong pg off).inq = p.inq := by simp [Pkg.cmdWrong]
@[simp] theorem cmdWrong_links (pg off : Nat) : (p.cmdWrong pg off).links = p.links := by simp [Pkg.cmdWrong]
@[simp] theorem cmdWrong_guests (pg off : Nat) : (p.cmdWrong pg off).guests = p.guests := by simp [Pkg.cmdWrong]
@[simp] theorem cmdWrong_fabric (pg off : Nat) : (p.cmdWrong pg off).fabric = p.fabric := by simp [Pkg.cmdWrong]
@[simp] theorem cmdWrong_ledger (pg off : Nat) : (p.cmdWrong pg off).ledger = p.ledger := by simp [Pkg.cmdWrong]
@[simp] theorem cmdWrong_ce (pg off : Nat) : (p.cmdWrong pg off).ce = p.ce := by simp [Pkg.cmdWrong]
@[simp] theorem cmdWrong_dma (pg off : Nat) : (p.cmdWrong pg off).dma = p.dma := by simp [Pkg.cmdWrong]
@[simp] theorem cmdWrong_se (pg off : Nat) : (p.cmdWrong pg off).se = p.se := by simp [Pkg.cmdWrong]
@[simp] theorem cmdWrong_tickLog (pg off : Nat) : (p.cmdWrong pg off).tickLog = p.tickLog := by simp [Pkg.cmdWrong]
@[simp] theorem cmdWrong_fresh (pg off : Nat) : (p.cmdWrong pg off).fresh = p.fresh := by simp [Pkg.cmdWrong]

@[simp] theorem cmdBadArg_head (pg off : Nat) : (p.cmdBadArg pg off).head = p.head := by simp [Pkg.cmdBadArg]
@[simp] theorem cmdBadArg_populated (pg off : Nat) : (p.cmdBadArg pg off).populated = p.populated := by simp [Pkg.cmdBadArg]
@[simp] theorem cmdBadArg_fr (pg off : Nat) : (p.cmdBadArg pg off).fr = p.fr := by simp [Pkg.cmdBadArg]
@[simp] theorem cmdBadArg_stw (pg off : Nat) : (p.cmdBadArg pg off).stw = p.stw := by simp [Pkg.cmdBadArg]
@[simp] theorem cmdBadArg_dieSt (pg off : Nat) : (p.cmdBadArg pg off).dieSt = p.dieSt := by simp [Pkg.cmdBadArg]
@[simp] theorem cmdBadArg_cores (pg off : Nat) : (p.cmdBadArg pg off).cores = p.cores := by simp [Pkg.cmdBadArg]
@[simp] theorem cmdBadArg_units (pg off : Nat) : (p.cmdBadArg pg off).units = p.units := by simp [Pkg.cmdBadArg]
@[simp] theorem cmdBadArg_caches (pg off : Nat) : (p.cmdBadArg pg off).caches = p.caches := by simp [Pkg.cmdBadArg]
@[simp] theorem cmdBadArg_coh (pg off : Nat) : (p.cmdBadArg pg off).coh = p.coh := by simp [Pkg.cmdBadArg]
@[simp] theorem cmdBadArg_hbm (pg off : Nat) : (p.cmdBadArg pg off).hbm = p.hbm := by simp [Pkg.cmdBadArg]
@[simp] theorem cmdBadArg_pw (pg off : Nat) : (p.cmdBadArg pg off).pw = p.pw := by simp [Pkg.cmdBadArg]
@[simp] theorem cmdBadArg_boot (pg off : Nat) : (p.cmdBadArg pg off).boot = p.boot := by simp [Pkg.cmdBadArg]
@[simp] theorem cmdBadArg_chain (pg off : Nat) : (p.cmdBadArg pg off).chain = p.chain := by simp [Pkg.cmdBadArg]
@[simp] theorem cmdBadArg_pcie (pg off : Nat) : (p.cmdBadArg pg off).pcie = p.pcie := by simp [Pkg.cmdBadArg]
@[simp] theorem cmdBadArg_out (pg off : Nat) : (p.cmdBadArg pg off).out = p.out := by simp [Pkg.cmdBadArg]
@[simp] theorem cmdBadArg_inq (pg off : Nat) : (p.cmdBadArg pg off).inq = p.inq := by simp [Pkg.cmdBadArg]
@[simp] theorem cmdBadArg_links (pg off : Nat) : (p.cmdBadArg pg off).links = p.links := by simp [Pkg.cmdBadArg]
@[simp] theorem cmdBadArg_guests (pg off : Nat) : (p.cmdBadArg pg off).guests = p.guests := by simp [Pkg.cmdBadArg]
@[simp] theorem cmdBadArg_fabric (pg off : Nat) : (p.cmdBadArg pg off).fabric = p.fabric := by simp [Pkg.cmdBadArg]
@[simp] theorem cmdBadArg_ledger (pg off : Nat) : (p.cmdBadArg pg off).ledger = p.ledger := by simp [Pkg.cmdBadArg]
@[simp] theorem cmdBadArg_ce (pg off : Nat) : (p.cmdBadArg pg off).ce = p.ce := by simp [Pkg.cmdBadArg]
@[simp] theorem cmdBadArg_dma (pg off : Nat) : (p.cmdBadArg pg off).dma = p.dma := by simp [Pkg.cmdBadArg]
@[simp] theorem cmdBadArg_se (pg off : Nat) : (p.cmdBadArg pg off).se = p.se := by simp [Pkg.cmdBadArg]
@[simp] theorem cmdBadArg_tickLog (pg off : Nat) : (p.cmdBadArg pg off).tickLog = p.tickLog := by simp [Pkg.cmdBadArg]
@[simp] theorem cmdBadArg_fresh (pg off : Nat) : (p.cmdBadArg pg off).fresh = p.fresh := by simp [Pkg.cmdBadArg]

@[simp] theorem cmdDenied_head (pg off : Nat) : (p.cmdDenied pg off).head = p.head := by simp [Pkg.cmdDenied]
@[simp] theorem cmdDenied_populated (pg off : Nat) : (p.cmdDenied pg off).populated = p.populated := by simp [Pkg.cmdDenied]
@[simp] theorem cmdDenied_fr (pg off : Nat) : (p.cmdDenied pg off).fr = p.fr := by simp [Pkg.cmdDenied]
@[simp] theorem cmdDenied_stw (pg off : Nat) : (p.cmdDenied pg off).stw = p.stw := by simp [Pkg.cmdDenied]
@[simp] theorem cmdDenied_dieSt (pg off : Nat) : (p.cmdDenied pg off).dieSt = p.dieSt := by simp [Pkg.cmdDenied]
@[simp] theorem cmdDenied_cores (pg off : Nat) : (p.cmdDenied pg off).cores = p.cores := by simp [Pkg.cmdDenied]
@[simp] theorem cmdDenied_units (pg off : Nat) : (p.cmdDenied pg off).units = p.units := by simp [Pkg.cmdDenied]
@[simp] theorem cmdDenied_caches (pg off : Nat) : (p.cmdDenied pg off).caches = p.caches := by simp [Pkg.cmdDenied]
@[simp] theorem cmdDenied_coh (pg off : Nat) : (p.cmdDenied pg off).coh = p.coh := by simp [Pkg.cmdDenied]
@[simp] theorem cmdDenied_hbm (pg off : Nat) : (p.cmdDenied pg off).hbm = p.hbm := by simp [Pkg.cmdDenied]
@[simp] theorem cmdDenied_pw (pg off : Nat) : (p.cmdDenied pg off).pw = p.pw := by simp [Pkg.cmdDenied]
@[simp] theorem cmdDenied_boot (pg off : Nat) : (p.cmdDenied pg off).boot = p.boot := by simp [Pkg.cmdDenied]
@[simp] theorem cmdDenied_chain (pg off : Nat) : (p.cmdDenied pg off).chain = p.chain := by simp [Pkg.cmdDenied]
@[simp] theorem cmdDenied_pcie (pg off : Nat) : (p.cmdDenied pg off).pcie = p.pcie := by simp [Pkg.cmdDenied]
@[simp] theorem cmdDenied_out (pg off : Nat) : (p.cmdDenied pg off).out = p.out := by simp [Pkg.cmdDenied]
@[simp] theorem cmdDenied_inq (pg off : Nat) : (p.cmdDenied pg off).inq = p.inq := by simp [Pkg.cmdDenied]
@[simp] theorem cmdDenied_links (pg off : Nat) : (p.cmdDenied pg off).links = p.links := by simp [Pkg.cmdDenied]
@[simp] theorem cmdDenied_guests (pg off : Nat) : (p.cmdDenied pg off).guests = p.guests := by simp [Pkg.cmdDenied]
@[simp] theorem cmdDenied_fabric (pg off : Nat) : (p.cmdDenied pg off).fabric = p.fabric := by simp [Pkg.cmdDenied]
@[simp] theorem cmdDenied_ledger (pg off : Nat) : (p.cmdDenied pg off).ledger = p.ledger := by simp [Pkg.cmdDenied]
@[simp] theorem cmdDenied_ce (pg off : Nat) : (p.cmdDenied pg off).ce = p.ce := by simp [Pkg.cmdDenied]
@[simp] theorem cmdDenied_dma (pg off : Nat) : (p.cmdDenied pg off).dma = p.dma := by simp [Pkg.cmdDenied]
@[simp] theorem cmdDenied_se (pg off : Nat) : (p.cmdDenied pg off).se = p.se := by simp [Pkg.cmdDenied]
@[simp] theorem cmdDenied_tickLog (pg off : Nat) : (p.cmdDenied pg off).tickLog = p.tickLog := by simp [Pkg.cmdDenied]
@[simp] theorem cmdDenied_fresh (pg off : Nat) : (p.cmdDenied pg off).fresh = p.fresh := by simp [Pkg.cmdDenied]

@[simp] theorem cmdDone_head (pg off st : Nat) : (p.cmdDone pg off st).head = p.head := by simp [Pkg.cmdDone]
@[simp] theorem cmdDone_populated (pg off st : Nat) : (p.cmdDone pg off st).populated = p.populated := by simp [Pkg.cmdDone]
@[simp] theorem cmdDone_fr (pg off st : Nat) : (p.cmdDone pg off st).fr = p.fr := by simp [Pkg.cmdDone]
@[simp] theorem cmdDone_stw (pg off st : Nat) : (p.cmdDone pg off st).stw = p.stw := by simp [Pkg.cmdDone]
@[simp] theorem cmdDone_dieSt (pg off st : Nat) : (p.cmdDone pg off st).dieSt = p.dieSt := by simp [Pkg.cmdDone]
@[simp] theorem cmdDone_cores (pg off st : Nat) : (p.cmdDone pg off st).cores = p.cores := by simp [Pkg.cmdDone]
@[simp] theorem cmdDone_units (pg off st : Nat) : (p.cmdDone pg off st).units = p.units := by simp [Pkg.cmdDone]
@[simp] theorem cmdDone_caches (pg off st : Nat) : (p.cmdDone pg off st).caches = p.caches := by simp [Pkg.cmdDone]
@[simp] theorem cmdDone_coh (pg off st : Nat) : (p.cmdDone pg off st).coh = p.coh := by simp [Pkg.cmdDone]
@[simp] theorem cmdDone_hbm (pg off st : Nat) : (p.cmdDone pg off st).hbm = p.hbm := by simp [Pkg.cmdDone]
@[simp] theorem cmdDone_pw (pg off st : Nat) : (p.cmdDone pg off st).pw = p.pw := by simp [Pkg.cmdDone]
@[simp] theorem cmdDone_boot (pg off st : Nat) : (p.cmdDone pg off st).boot = p.boot := by simp [Pkg.cmdDone]
@[simp] theorem cmdDone_chain (pg off st : Nat) : (p.cmdDone pg off st).chain = p.chain := by simp [Pkg.cmdDone]
@[simp] theorem cmdDone_pcie (pg off st : Nat) : (p.cmdDone pg off st).pcie = p.pcie := by simp [Pkg.cmdDone]
@[simp] theorem cmdDone_out (pg off st : Nat) : (p.cmdDone pg off st).out = p.out := by simp [Pkg.cmdDone]
@[simp] theorem cmdDone_inq (pg off st : Nat) : (p.cmdDone pg off st).inq = p.inq := by simp [Pkg.cmdDone]
@[simp] theorem cmdDone_links (pg off st : Nat) : (p.cmdDone pg off st).links = p.links := by simp [Pkg.cmdDone]
@[simp] theorem cmdDone_guests (pg off st : Nat) : (p.cmdDone pg off st).guests = p.guests := by simp [Pkg.cmdDone]
@[simp] theorem cmdDone_fabric (pg off st : Nat) : (p.cmdDone pg off st).fabric = p.fabric := by simp [Pkg.cmdDone]
@[simp] theorem cmdDone_ledger (pg off st : Nat) : (p.cmdDone pg off st).ledger = p.ledger := by simp [Pkg.cmdDone]
@[simp] theorem cmdDone_ce (pg off st : Nat) : (p.cmdDone pg off st).ce = p.ce := by simp [Pkg.cmdDone]
@[simp] theorem cmdDone_dma (pg off st : Nat) : (p.cmdDone pg off st).dma = p.dma := by simp [Pkg.cmdDone]
@[simp] theorem cmdDone_se (pg off st : Nat) : (p.cmdDone pg off st).se = p.se := by simp [Pkg.cmdDone]
@[simp] theorem cmdDone_tickLog (pg off st : Nat) : (p.cmdDone pg off st).tickLog = p.tickLog := by simp [Pkg.cmdDone]
@[simp] theorem cmdDone_fresh (pg off st : Nat) : (p.cmdDone pg off st).fresh = p.fresh := by simp [Pkg.cmdDone]

/-! ### The state around a package update -/

@[simp] theorem upd_eq (s : State) (f : Pkg → Pkg) : s.upd f = .next { s with pkg := f s.pkg } := (rfl)

end Sys2Proof.Machine
end

