-- ==== Sys2Proof/Laws/Tbl.lean ====
section
/-! SUPPORT. Laws of sparse tables: reading after writing, and the canonical form. -/

namespace Sys2Proof.Machine

variable {α : Type}

theorem tblFind_tblInsert_same (t : Tbl α) (k : Nat) (x : α) : tblFind (tblInsert t k x) k = some x := by
  induction t with
  | nil => simp [tblInsert, tblFind]
  | cons e t ih =>
    obtain ⟨j, v⟩ := e
    unfold tblInsert
    split
    · simp [tblFind]
    · split <;> simp [tblFind, *]

theorem tblFind_tblInsert_other (t : Tbl α) {k j : Nat} (x : α) (h : j ≠ k) :
    tblFind (tblInsert t k x) j = tblFind t j := by
  induction t with
  | nil => simp [tblInsert, tblFind, Ne.symm h]
  | cons e t ih =>
    obtain ⟨i, v⟩ := e
    unfold tblInsert
    split
    · subst i; simp [tblFind, Ne.symm h]
    · split <;> simp [tblFind, Ne.symm h, ih]

theorem tblFind_tblErase_same (t : Tbl α) (k : Nat) : tblFind (tblErase t k) k = none := by
  induction t with
  | nil => rfl
  | cons e t ih =>
    obtain ⟨j, v⟩ := e
    unfold tblErase
    split
    · exact ih
    · simp [tblFind, *]

theorem tblFind_tblErase_other (t : Tbl α) {k j : Nat} (h : j ≠ k) : tblFind (tblErase t k) j = tblFind t j := by
  induction t with
  | nil => rfl
  | cons e t ih =>
    obtain ⟨i, v⟩ := e
    unfold tblErase
    split
    · subst i; simp [tblFind, Ne.symm h, ih]
    · simp [tblFind, ih]

/-- Reading the key just written gives the value written. -/
@[simp] theorem tblGet_tblSet_same [DecidableEq α] (d : Nat → α) (t : Tbl α) (k : Nat) (x : α) :
    tblGet d (tblSet d t k x) k = x := by
  unfold tblSet tblGet
  split
  · simp [tblFind_tblErase_same, *]
  · simp [tblFind_tblInsert_same]

/-- Writing a key leaves every other key. -/
@[simp] theorem tblGet_tblSet_other [DecidableEq α] (d : Nat → α) (t : Tbl α) {k j : Nat} (x : α) (h : j ≠ k) :
    tblGet d (tblSet d t k x) j = tblGet d t j := by
  unfold tblSet tblGet
  split
  · rw [tblFind_tblErase_other t h]
  · rw [tblFind_tblInsert_other t x h]

theorem tblGet_tblSet [DecidableEq α] (d : Nat → α) (t : Tbl α) (k j : Nat) (x : α) :
    tblGet d (tblSet d t k x) j = if j = k then x else tblGet d t j := by
  split
  · subst j; simp
  · simp [*]

@[simp] theorem tblGet_nil (d : Nat → α) (k : Nat) : tblGet d [] k = d k := rfl

@[simp] theorem tblGet_tblErase_same (d : Nat → α) (t : Tbl α) (k : Nat) : tblGet d (tblErase t k) k = d k := by
  simp [tblGet, tblFind_tblErase_same]

@[simp] theorem tblGet_tblErase_other (d : Nat → α) (t : Tbl α) {k j : Nat} (h : j ≠ k) :
    tblGet d (tblErase t k) j = tblGet d t j := by
  simp [tblGet, tblFind_tblErase_other t h]

/-! ### The canonical form -/

theorem tblWfFrom_weaken [DecidableEq α] (d : Nat → α) {m n : Nat} (h : m ≤ n) (t : Tbl α)
    (w : tblWfFrom d n t = true) : tblWfFrom d m t = true := by
  cases t with
  | nil => rfl
  | cons e t =>
    obtain ⟨j, v⟩ := e
    simp only [tblWfFrom, Bool.and_eq_true, decide_eq_true_eq] at w ⊢
    exact ⟨⟨by omega, w.1.2⟩, w.2⟩

theorem tblInsert_wfFrom [DecidableEq α] (d : Nat → α) {k : Nat} {x : α} (hx : x ≠ d k) :
    ∀ (t : Tbl α) (n : Nat), n ≤ k → tblWfFrom d n t = true → tblWfFrom d n (tblInsert t k x) = true
  | [], n, hn, _ => by simp [tblInsert, tblWfFrom, hn, hx]
  | (j, v) :: t, n, hn, w => by
    simp only [tblWfFrom, Bool.and_eq_true, decide_eq_true_eq] at w
    unfold tblInsert
    split
    · subst j; simp [tblWfFrom, w.1.1, hx, w.2]
    · split
      · simp only [tblWfFrom, Bool.and_eq_true, decide_eq_true_eq]
        exact ⟨⟨hn, hx⟩, ⟨by omega, w.1.2⟩, w.2⟩
      · simp only [tblWfFrom, Bool.and_eq_true, decide_eq_true_eq]
        exact ⟨w.1, tblInsert_wfFrom d hx t (j + 1) (by omega) w.2⟩

theorem tblErase_wfFrom [DecidableEq α] (d : Nat → α) (k : Nat) :
    ∀ (t : Tbl α) (n : Nat), tblWfFrom d n t = true → tblWfFrom d n (tblErase t k) = true
  | [], _, _ => rfl
  | (j, v) :: t, n, w => by
    simp only [tblWfFrom, Bool.and_eq_true, decide_eq_true_eq] at w
    have ih := tblErase_wfFrom d k t (j + 1) w.2
    unfold tblErase
    split
    · exact tblWfFrom_weaken d (by omega) _ ih
    · simp only [tblWfFrom, Bool.and_eq_true, decide_eq_true_eq]
      exact ⟨w.1, ih⟩

/-- A write keeps the canonical form. -/
theorem tblSet_wf [DecidableEq α] (d : Nat → α) (t : Tbl α) (k : Nat) (x : α) (w : tblWf d t = true) :
    tblWf d (tblSet d t k x) = true := by
  unfold tblSet
  split
  · exact tblErase_wfFrom d k t 0 w
  · rename_i h
    exact tblInsert_wfFrom d h t 0 (Nat.zero_le k) w

end Sys2Proof.Machine
end

