-- ==== Sys2Proof/Laws/Pages.lean ====
section
/-! SUPPORT. Laws of register pages: what a page, a register, a field and a status word read after an update, and what the
shared operations on them can do. -/

namespace Sys2Proof.Machine

variable (p : Pkg)

@[simp] theorem page_setPage_same (pg : Nat) (x : Page) : (p.setPage pg x).page pg = x := by
  simp [Pkg.page, Pkg.setPage]

@[simp] theorem page_setPage_other {pg q : Nat} (x : Page) (h : q ≠ pg) : (p.setPage pg x).page q = p.page q := by
  simp [Pkg.page, Pkg.setPage, h]

@[simp] theorem reg_setReg_same (pg off : Nat) (v : Word) : (p.setReg pg off v).reg pg off = v := by
  simp [Pkg.reg, Pkg.setReg]

@[simp] theorem reg_setReg_off (pg : Nat) {off o : Nat} (v : Word) (h : o ≠ off) :
    (p.setReg pg off v).reg pg o = p.reg pg o := by
  simp [Pkg.reg, Pkg.setReg, h]

@[simp] theorem reg_setReg_page {pg q : Nat} (off o : Nat) (v : Word) (h : q ≠ pg) :
    (p.setReg pg off v).reg q o = p.reg q o := by
  simp [Pkg.reg, Pkg.setReg, h]

/-- A register after a write of a register. -/
theorem reg_setReg (pg q off o : Nat) (v : Word) :
    (p.setReg pg off v).reg q o = if q = pg ∧ o = off then v else p.reg q o := by
  by_cases h : q = pg
  · subst h; by_cases k : o = off
    · subst k; simp
    · simp [k]
  · simp [h]

@[simp] theorem setReg_live (pg q off : Nat) (v : Word) : ((p.setReg pg off v).page q).live = (p.page q).live := by
  by_cases h : q = pg
  · subst h; simp [Pkg.setReg]
  · simp [Pkg.setReg, h]

@[simp] theorem cfg_setReg (pg q off o : Nat) (v : Word) : (p.setReg pg off v).cfg q o = p.cfg q o := by
  simp [Pkg.cfg]

@[simp] theorem cf_setReg (pg q off o hi lo : Nat) (v : Word) : (p.setReg pg off v).cf q o hi lo = p.cf q o hi lo := by
  simp [Pkg.cf]

@[simp] theorem rf_setRf_same (pg off v : Nat) {hi lo : Nat} (h : lo ≤ hi := by decide) (h64 : hi < 64 := by decide) :
    (p.setRf pg off hi lo v).rf pg off hi lo = v % 2 ^ (hi + 1 - lo) := by
  simp only [Pkg.rf, Pkg.setRf, reg_setReg_same]
  exact fld_setFld_same _ _ h h64

/-- A field of another register or page. -/
theorem rf_setRf_reg {pg q off o : Nat} (hi lo v hi' lo' : Nat) (h : q ≠ pg ∨ o ≠ off) :
    (p.setRf pg off hi lo v).rf q o hi' lo' = p.rf q o hi' lo' := by
  rcases h with h | h
  · simp [Pkg.rf, Pkg.setRf, h]
  · by_cases k : q = pg
    · subst k; simp [Pkg.rf, Pkg.setRf, h]
    · simp [Pkg.rf, Pkg.setRf, k]

/-- Another field of the same register. -/
theorem rf_setRf_fld (pg off v : Nat) {hi lo hi' lo' : Nat} (h : lo ≤ hi) (h64 : hi < 64) (hl : lo' ≤ hi')
    (hd : hi' < lo ∨ hi < lo') : (p.setRf pg off hi lo v).rf pg off hi' lo' = p.rf pg off hi' lo' := by
  simp only [Pkg.rf, Pkg.setRf, reg_setReg_same]
  rcases hd with hd | hd
  · exact fld_setFld_below _ _ h h64 hl hd
  · exact fld_setFld_above _ _ h h64 hd

/-- LASTST after a command event. -/
@[simp] theorem lastst_cmdEvent (pg off st : Nat) : (p.cmdEvent pg off st).rf pg 0x020 3 0 = st % 16 := by
  unfold Pkg.cmdEvent
  rw [rf_setRf_fld _ pg 0x020 off (by decide) (by decide) (by decide) (by decide), rf_setRf_same]
  norm_num

/-- LASTCMD after a command event. -/
@[simp] theorem lastcmd_cmdEvent (pg off st : Nat) : (p.cmdEvent pg off st).rf pg 0x020 27 16 = off % 4096 := by
  unfold Pkg.cmdEvent
  rw [rf_setRf_same]
  norm_num

/-- A command event changes no register but BLKSTAT of its page. -/
theorem reg_cmdEvent {pg q off o st : Nat} (h : q ≠ pg ∨ o ≠ 0x020) : (p.cmdEvent pg off st).reg q o = p.reg q o := by
  unfold Pkg.cmdEvent Pkg.setRf
  rcases h with h | h
  · simp [h]
  · by_cases k : q = pg
    · subst k; simp [h]
    · simp [k]

/-! ### Free values -/

@[simp] theorem reg_free (w pg off : Nat) : (p.free w).2.reg pg off = p.reg pg off := rfl
@[simp] theorem cfg_free (w pg off : Nat) : (p.free w).2.cfg pg off = p.cfg pg off := rfl

/-! ### Events -/

/-- Storing a page with the same registers changes no register. -/
theorem reg_setPage (pg q o : Nat) (x : Page) (h : x.regs = (p.page pg).regs) :
    (p.setPage pg x).reg q o = p.reg q o := by
  by_cases k : q = pg
  · subst k; simp [Pkg.reg, h]
  · simp [Pkg.reg, k]

@[simp] theorem reg_noteEv (pg b cls q o : Nat) (d : Det) : (p.noteEv pg b cls d).reg q o = p.reg q o :=
  reg_setPage p pg q o _ rfl

@[simp] theorem reg_refreshIrq (pg q o : Nat) : (p.refreshIrq pg).reg q o = p.reg q o := by
  have h : ∀ b : Bool, (p.setPage pg { p.page pg with raised := b }).reg q o = p.reg q o :=
    fun b => reg_setPage p pg q o _ rfl
  unfold Pkg.refreshIrq
  simp only []
  split
  · rfl
  · split
    · exact h _
    · split
      · exact h _
      · split <;> exact h _

/-- A set event changes no register but ERRSTAT and ERRCNT of its page. -/
theorem reg_setEvent {pg q o : Nat} (b cls : Nat) (d : Det) (h : q ≠ pg ∨ (o ≠ 0x028 ∧ o ≠ 0x038)) :
    (p.setEvent pg b cls d).reg q o = p.reg q o := by
  unfold Pkg.setEvent
  split
  · rfl
  · simp only [reg_refreshIrq, reg_noteEv, Pkg.addRf, Pkg.setRf]
    rcases h with h | ⟨h1, h2⟩
    · simp [h]
    · by_cases k : q = pg
      · subst k; simp [h1, h2]
      · simp [k]

/-- An event that is not masked sets its bit of ERRSTAT (R35). -/
theorem errstat_setEvent {pg b cls : Nat} (d : Det) (hb : b < 64) (hm : bit (p.reg pg 0x030) b = false) :
    bit ((p.setEvent pg b cls d).reg pg 0x028) b = true := by
  rw [bit_eq_fld]
  have : (p.setEvent pg b cls d).rf pg 0x028 b b = 1 := by
    unfold Pkg.setEvent
    rw [if_neg (by simp [hm])]
    have e : ∀ q : Pkg, ((q.noteEv pg b cls d).refreshIrq pg).rf pg 0x028 b b = q.rf pg 0x028 b b := by
      intro q; simp [Pkg.rf]
    rw [e, Pkg.addRf, rf_setRf_reg _ _ _ _ _ _ (Or.inr (by decide)), rf_setRf_same _ _ _ _ (Nat.le_refl b) hb]
    simp
  simpa [Pkg.rf] using this

/-- A masked event does nothing (R35). -/
theorem setEvent_masked {pg b cls : Nat} (d : Det) (hm : bit (p.reg pg 0x030) b = true) : p.setEvent pg b cls d = p := by
  unfold Pkg.setEvent
  rw [if_pos hm]

/-! ### Commands -/

@[simp] theorem lastst_cmdOk (pg off : Nat) : (p.cmdOk pg off).rf pg 0x020 3 0 = 1 := by simp [Pkg.cmdOk]
@[simp] theorem lastcmd_cmdOk (pg off : Nat) : (p.cmdOk pg off).rf pg 0x020 27 16 = off % 4096 := by simp [Pkg.cmdOk]
@[simp] theorem lastst_cmdBadArg (pg off : Nat) : (p.cmdBadArg pg off).rf pg 0x020 3 0 = 4 := by simp [Pkg.cmdBadArg]
@[simp] theorem lastcmd_cmdBadArg (pg off : Nat) : (p.cmdBadArg pg off).rf pg 0x020 27 16 = off % 4096 := by
  simp [Pkg.cmdBadArg]
@[simp] theorem lastst_cmdDenied (pg off : Nat) : (p.cmdDenied pg off).rf pg 0x020 3 0 = 5 := by simp [Pkg.cmdDenied]
@[simp] theorem lastcmd_cmdDenied (pg off : Nat) : (p.cmdDenied pg off).rf pg 0x020 27 16 = off % 4096 := by
  simp [Pkg.cmdDenied]

@[simp] theorem lastst_cmdPending (pg off : Nat) : (p.cmdPending pg off).rf pg 0x020 3 0 = 2 := by
  unfold Pkg.cmdPending
  rw [rf_setRf_fld _ pg 0x020 1 (by decide) (by decide) (by decide) (by decide), lastst_cmdEvent]

@[simp] theorem lastcmd_cmdPending (pg off : Nat) : (p.cmdPending pg off).rf pg 0x020 27 16 = off % 4096 := by
  unfold Pkg.cmdPending
  rw [rf_setRf_fld _ pg 0x020 1 (by decide) (by decide) (by decide) (by decide), lastcmd_cmdEvent]

@[simp] theorem busy_cmdPending (pg off : Nat) : (p.cmdPending pg off).busy pg = true := by
  have h : (p.cmdPending pg off).rf pg 0x020 4 4 = 1 := by
    unfold Pkg.cmdPending
    rw [rf_setRf_same]
    norm_num
  unfold Pkg.busy
  rw [bit_eq_fld]
  simpa [Pkg.rf] using h

@[simp] theorem lastst_cmdDone (pg off st : Nat) : (p.cmdDone pg off st).rf pg 0x020 3 0 = st % 16 := by
  unfold Pkg.cmdDone
  rw [rf_setRf_fld _ pg 0x020 0 (by decide) (by decide) (by decide) (by decide), lastst_cmdEvent]

@[simp] theorem lastcmd_cmdDone (pg off st : Nat) : (p.cmdDone pg off st).rf pg 0x020 27 16 = off % 4096 := by
  unfold Pkg.cmdDone
  rw [rf_setRf_fld _ pg 0x020 0 (by decide) (by decide) (by decide) (by decide), lastcmd_cmdEvent]

@[simp] theorem busy_cmdDone (pg off st : Nat) : (p.cmdDone pg off st).busy pg = false := by
  have h : (p.cmdDone pg off st).rf pg 0x020 4 4 = 0 := by
    unfold Pkg.cmdDone
    rw [rf_setRf_same]
    norm_num
  unfold Pkg.busy
  rw [bit_eq_fld]
  simp [Pkg.rf] at h
  simp [h]

@[simp] theorem lastst_cmdWrong (pg off : Nat) : (p.cmdWrong pg off).rf pg 0x020 3 0 = 3 := by
  have h : (p.cmdWrong pg off).reg pg 0x020 = (p.cmdEvent pg off 3).reg pg 0x020 :=
    reg_setEvent _ _ _ _ (Or.inr (by decide))
  have k := lastst_cmdEvent p pg off 3
  simpa [Pkg.rf, h] using k

@[simp] theorem lastcmd_cmdWrong (pg off : Nat) : (p.cmdWrong pg off).rf pg 0x020 27 16 = off % 4096 := by
  have h : (p.cmdWrong pg off).reg pg 0x020 = (p.cmdEvent pg off 3).reg pg 0x020 :=
    reg_setEvent _ _ _ _ (Or.inr (by decide))
  have k := lastcmd_cmdEvent p pg off 3
  simpa [Pkg.rf, h] using k

/-! ### Cores, units, core map, partitions, dies -/

@[simp] theorem core_setCore_same (lc : Nat) (c : Core) : (p.setCore lc c).core lc = c := by
  simp [Pkg.core, Pkg.setCore]

@[simp] theorem core_setCore_other {lc k : Nat} (c : Core) (h : k ≠ lc) : (p.setCore lc c).core k = p.core k := by
  simp [Pkg.core, Pkg.setCore, h]

@[simp] theorem unit_setUnit_same (u : Nat) (x : PhysUnit) : (p.setUnit u x).unit u = x := by
  simp [Pkg.unit, Pkg.setUnit]

@[simp] theorem unit_setUnit_other {u k : Nat} (x : PhysUnit) (h : k ≠ u) : (p.setUnit u x).unit k = p.unit k := by
  simp [Pkg.unit, Pkg.setUnit, h]

@[simp] theorem lcpid_setLcpid_same (lc v : Nat) : (p.setLcpid lc v).lcpid lc = v := by
  simp [Pkg.lcpid, Pkg.setLcpid]

@[simp] theorem lcpid_setLcpid_other {lc k : Nat} (v : Nat) (h : k ≠ lc) : (p.setLcpid lc v).lcpid k = p.lcpid k := by
  simp [Pkg.lcpid, Pkg.setLcpid, h]

@[simp] theorem part_setPart_same (pid : Nat) (x : Partition) : (p.setPart pid x).part pid = x := by
  simp [Pkg.part, Pkg.setPart]

@[simp] theorem part_setPart_other {pid k : Nat} (x : Partition) (h : k ≠ pid) : (p.setPart pid x).part k = p.part k := by
  simp [Pkg.part, Pkg.setPart, h]

@[simp] theorem dieState_setDieState_same (d v : Nat) : (p.setDieState d v).dieState d = v := by
  simp [Pkg.dieState, Pkg.setDieState]

@[simp] theorem dieState_setDieState_other {d k : Nat} (v : Nat) (h : k ≠ d) :
    (p.setDieState d v).dieState k = p.dieState k := by
  simp [Pkg.dieState, Pkg.setDieState, h]

end Sys2Proof.Machine
end

