-- ==== Sys2Proof/Laws/Cpu.lean ====
section
/-! SUPPORT. Laws of running an instruction: what counting may change, what the end of an instruction leaves, and how an
instruction row that begins reaches its body. -/

namespace Sys2Proof.Machine

/-! ### Cores and units -/

theorem crGet_crSet (c : Core) (n k : Nat) (v : Word) :
    (c.crSet n v).crGet k = if k = n then v else c.crGet k := by
  simp [Core.crGet, Core.crSet, tblGet_tblSet]

/-! ### Counting -/

/-- Two cores differ at most in their counters and in what is pending. -/
structure SameBut (a b : Core) : Prop where
  g : a.g = b.g
  ma : a.ma = b.ma
  ip : a.ip = b.ip
  psw : a.psw = b.psw
  run : a.run = b.run
  part : a.part = b.part
  failed : a.failed = b.failed
  posted : a.posted = b.posted
  io : a.io = b.io
  ioPos : a.ioPos = b.ioPos
  held : a.held = b.held
  fence : a.fence = b.fence
  cr : ∀ n, countsCr n = false → a.crGet n = b.crGet n

theorem SameBut.refl (a : Core) : SameBut a a := ⟨rfl, rfl, rfl, rfl, rfl, rfl, rfl, rfl, rfl, rfl, rfl, rfl, fun _ _ => rfl⟩

theorem SameBut.trans {a b c : Core} (h : SameBut a b) (k : SameBut b c) : SameBut a c :=
  ⟨h.g.trans k.g, h.ma.trans k.ma, h.ip.trans k.ip, h.psw.trans k.psw, h.run.trans k.run, h.part.trans k.part,
   h.failed.trans k.failed, h.posted.trans k.posted, h.io.trans k.io, h.ioPos.trans k.ioPos, h.held.trans k.held,
   h.fence.trans k.fence,
   fun n hn => (h.cr n hn).trans (k.cr n hn)⟩

theorem sameBut_crSet (c : Core) {n : Nat} (v : Word) (h : countsCr n = true) : SameBut (c.crSet n v) c :=
  ⟨rfl, rfl, rfl, rfl, rfl, rfl, rfl, rfl, rfl, rfl, rfl, rfl, fun k hk => by
    rw [crGet_crSet, if_neg]; rintro rfl; simp [h] at hk⟩

theorem sameBut_pend (P : Prop) [Decidable P] (c : Core) (x : BitVec 256) :
    SameBut (if P then { c with pend := x } else c) c := by
  split
  · exact ⟨rfl, rfl, rfl, rfl, rfl, rfl, rfl, rfl, rfl, rfl, rfl, rfl, fun _ _ => rfl⟩
  · exact SameBut.refl c

theorem sameBut_pmAdd (c : Core) {k : Nat} (n : Nat) (hk : k ≤ 8) : SameBut (c.pmAdd k n) c := by
  have h1 : countsCr (if k = 8 then 0x4A else 0x42 + k) = true := by
    unfold countsCr; split
    · simp
    · simp; omega
  unfold Core.pmAdd
  simp only []
  generalize (if k = 8 then 0x4A else 0x42 + k) = num at h1 ⊢
  split
  · exact sameBut_crSet c _ h1
  · exact (sameBut_pend _ _ _).trans ((sameBut_crSet _ _ (by decide)).trans (sameBut_crSet c _ h1))

/-- What counting an execution can change: the counters of that core, what they make pending, and the free-value counter. -/
theorem count_core (p : Pkg) (lc pl : Nat) (t : Tally) : SameBut ((p.count lc pl t).core lc) (p.core lc) := by
  have fold : ∀ (l : List Nat) (f : Nat → Nat) (c : Core), (∀ k ∈ l, k ≤ 8) →
      SameBut (l.foldl (fun c k => c.pmAdd k (f k)) c) c := by
    intro l f
    induction l with
    | nil => intro c _; exact SameBut.refl c
    | cons a l ih =>
      intro c h
      exact (ih _ (fun k hk => h k (List.mem_cons_of_mem _ hk))).trans (sameBut_pmAdd c _ (h a List.mem_cons_self))
  have hf := fold (List.range 8)
    (fun k => (p.core lc).pmStep k pl t (fun i => (Config.freeBits 64 (p.fresh + i)).toNat)) (p.core lc)
    (fun k hk => by have := List.mem_range.1 hk; omega)
  unfold Pkg.count
  show SameBut (Pkg.core { (p.setCore lc _) with fresh := _ } lc) _
  rw [show ∀ (q : Pkg) (n : Nat), Pkg.core { q with fresh := n } lc = q.core lc from fun _ _ => rfl, core_setCore_same]
  split
  · exact hf
  · exact (sameBut_pmAdd _ _ (by omega)).trans hf

theorem count_others (p : Pkg) (lc pl : Nat) (t : Tally) {k : Nat} (h : k ≠ lc) :
    (p.count lc pl t).core k = p.core k := by
  unfold Pkg.count
  show Pkg.core { (p.setCore lc _) with fresh := _ } k = _
  rw [show ∀ (q : Pkg) (n : Nat), Pkg.core { q with fresh := n } k = q.core k from fun _ _ => rfl,
    core_setCore_other _ _ h]

theorem count_rest (p : Pkg) (lc pl : Nat) (t : Tally) :
    p.count lc pl t = { p with cores := (p.count lc pl t).cores, fresh := (p.count lc pl t).fresh } := rfl

/-- Progress of a unit changes nothing but its note. -/
theorem noteProgress_spec (p : Pkg) (lc : Nat) :
    (∀ u, (p.noteProgress lc).unit u = { p.unit u with progress := ((p.noteProgress lc).unit u).progress }) ∧
    p.noteProgress lc = { p with units := (p.noteProgress lc).units } := by
  unfold Pkg.noteProgress
  simp only []
  split
  · exact ⟨fun _ => rfl, rfl⟩
  · refine ⟨fun u => ?_, rfl⟩
    by_cases h : u = p.unitOf lc
    · subst h; simp
    · simp [h]

/-! ### The end of an instruction -/

/-- An instruction that completes, with no call at its end, leaves what `Ends` says. -/
theorem ends_endInstr (s : State) (lc : Lc) (len : Nat) (q : Pkg) (d : Done) (hc : d.call = none)
    (hp : d.c.part = 0) : Ends s lc q d.c d.c.ip (endInstr s lc len q d) := by
  unfold endInstr
  simp only [hc]
  generalize hq2 : (q.putRegs lc d.c).setCore lc _ = q2
  have hcore : q2.core lc =
      { d.c with pend := (q.core lc).pend, failed := (q.core lc).failed, posted := (q.core lc).posted,
                 io := (if d.keepIo then (q.core lc).io else []), ioPos := 0, held := none,
                 fence := (q.core lc).fence } := by
    subst hq2; simp [Pkg.putRegs]
  have hoth : ∀ k, k ≠ lc.val → q2.core k = q.core k := by
    intro k hk; subst hq2; simp [Pkg.putRegs, hk]
  have hrest : q2 = { q with cores := q2.cores } := by subst hq2; rfl
  have hu : ∀ u, q2.unit u = q.unit u := by intro u; rw [hrest]; rfl
  have hs := count_core q2 lc (s.pkg.core lc).pl d.t
  have ho := fun k (hk : k ≠ lc.val) => count_others q2 lc (s.pkg.core lc).pl d.t hk
  have hr := count_rest q2 lc (s.pkg.core lc).pl d.t
  generalize q2.count lc (s.pkg.core lc).pl d.t = q3 at hs ho hr ⊢
  have hn := noteProgress_spec q3 lc
  generalize q3.noteProgress lc = q4 at hn ⊢
  have hk4 : ∀ k, q4.core k = q3.core k := by intro k; rw [hn.2]; rfl
  have hcr : ∀ n, (q2.core lc).crGet n = d.c.crGet n := by intro n; rw [hcore]; rfl
  refine ⟨?_, ?_, ?_, ?_, ?_, ?_, ?_, ?_, ?_, ?_⟩
  · show (q4.core lc).g = _; rw [hk4, hs.g, hcore]
  · show (q4.core lc).ma = _; rw [hk4, hs.ma, hcore]
  · show (q4.core lc).psw = _; rw [hk4, hs.psw, hcore]
  · show (q4.core lc).run = _; rw [hk4, hs.run, hcore]
  · show (q4.core lc).ip = _; rw [hk4, hs.ip, hcore]
  · show (q4.core lc).part = _; rw [hk4, hs.part, hcore]; exact hp
  · intro n h; show (q4.core lc).crGet n = _; rw [hk4, hs.cr n h, hcr]
  · intro k h; show q4.core k = _; rw [hk4, ho k h, hoth k h]
  · intro u; show q4.unit u = _; rw [hn.1 u, hr]; show _ = _; rw [← hu u]; rfl
  · show ({ s with pkg := q4 } : State) = { s with pkg := { q with cores := q4.cores, units := q4.units, fresh := q4.fresh } }
    rw [hn.2, hr, hrest]

/-! ### An instruction row -/

/-- An instruction that begins runs its body. -/
theorem runCpu_begins {s : State} {lc : Lc} {f : Fetch} {d : Decoded} {q : Pkg} (h : Begins s lc f d q) (mn : String)
    (row : Nat → Bool) (priv : Decoded → Nat → Option Trap) (body : Body) (hrow : row d.op = true)
    (hpriv : priv d (s.pkg.core lc).pl = none) {dn : Done} {r : Pkg}
    (hb : Yields (body (envOf s lc d) (s.pkg.core lc) f.stop) q dn r) :
    runCpu lc f mn row priv body s = .next (endInstr s lc d.len r dn) := by
  have hf := h.fetched
  have hsp : (d.space && (s.pkg.core lc).pl == 0) = false := by
    cases hd : d.space
    · rfl
    · simp [h.spaced hd]
  have hchk : (if (s.pkg.core lc).io = [] then (s.pkg.core lc).failed else []) = [] := by
    split
    · exact h.noCheck ‹_›
    · rfl
  unfold Yields envOf at hf
  unfold Yields at hb
  unfold runCpu
  simp only [h.ready, hchk, h.decoded, hrow, h.ordered, Bool.not_true, Bool.false_eq_true, if_false]
  simp only [] at hf
  rw [hf]
  simp only []
  have : runDecoded priv body (envOf s lc d) (s.pkg.core lc) f.stop = body (envOf s lc d) (s.pkg.core lc) f.stop := by
    unfold runDecoded
    simp only [envOf] at *
    simp [hsp, hpriv]
  simp only [envOf] at this hb
  rw [this, hb]

/-- An instruction that begins and whose privilege check fails stops there. -/
theorem runCpu_denied {s : State} {lc : Lc} {f : Fetch} {d : Decoded} {q : Pkg} (h : Begins s lc f d q) (mn : String)
    (row : Nat → Bool) (priv : Decoded → Nat → Option Trap) (body : Body) (hrow : row d.op = true) {t : Trap}
    (hpriv : priv d (s.pkg.core lc).pl = some t) :
    runCpu lc f mn row priv body s = .next (stopInstr s lc d.len q (.trap t)) := by
  have hf := h.fetched
  have hsp : (d.space && (s.pkg.core lc).pl == 0) = false := by
    cases hd : d.space
    · rfl
    · simp [h.spaced hd]
  have hchk : (if (s.pkg.core lc).io = [] then (s.pkg.core lc).failed else []) = [] := by
    split
    · exact h.noCheck ‹_›
    · rfl
  unfold Yields envOf at hf
  unfold runCpu
  simp only [h.ready, hchk, h.decoded, hrow, h.ordered, Bool.not_true, Bool.false_eq_true, if_false]
  simp only [] at hf
  rw [hf]
  simp only []
  unfold runDecoded
  simp [hsp, hpriv, trap]
  rfl

/-- An instruction that begins and whose body stops. -/
theorem runCpu_stops {s : State} {lc : Lc} {f : Fetch} {d : Decoded} {q : Pkg} (h : Begins s lc f d q) (mn : String)
    (row : Nat → Bool) (priv : Decoded → Nat → Option Trap) (body : Body) (hrow : row d.op = true)
    (hpriv : priv d (s.pkg.core lc).pl = none) {st : Stop} {r : Pkg}
    (hb : Stops (body (envOf s lc d) (s.pkg.core lc) f.stop) q st r) :
    runCpu lc f mn row priv body s = .next (stopInstr s lc d.len r st) := by
  have hf := h.fetched
  have hsp : (d.space && (s.pkg.core lc).pl == 0) = false := by
    cases hd : d.space
    · rfl
    · simp [h.spaced hd]
  have hchk : (if (s.pkg.core lc).io = [] then (s.pkg.core lc).failed else []) = [] := by
    split
    · exact h.noCheck ‹_›
    · rfl
  unfold Yields envOf at hf
  unfold Stops at hb
  unfold runCpu
  simp only [h.ready, hchk, h.decoded, hrow, h.ordered, Bool.not_true, Bool.false_eq_true, if_false]
  simp only [] at hf
  rw [hf]
  simp only []
  have : runDecoded priv body (envOf s lc d) (s.pkg.core lc) f.stop = body (envOf s lc d) (s.pkg.core lc) f.stop := by
    unfold runDecoded
    simp only [envOf] at *
    simp [hsp, hpriv]
  simp only [envOf] at this hb
  rw [this, hb]

/-! ### Operations that succeed -/

theorem yields_pure {α : Type} (a : α) (p : Pkg) : Yields (pure a) p a p := rfl

/-- An operation in two parts succeeds when both do. -/
theorem yields_bind {α β : Type} {m : M α} {k : α → M β} {p q r : Pkg} {a : α} {b : β} (h : Yields m p a q)
    (h2 : Yields (k a) q b r) : Yields (m >>= k) p b r := by
  unfold Yields at *
  simp only [ExceptT.run_bind] at *
  show StateT.run (_ >>= _) p = _
  rw [StateT.run_bind, h]
  exact h2

/-- An operation whose second part stops. -/
theorem stops_bind {α β : Type} {m : M α} {k : α → M β} {p q r : Pkg} {a : α} {st : Stop} (h : Yields m p a q)
    (h2 : Stops (k a) q st r) : Stops (m >>= k) p st r := by
  unfold Yields at h
  unfold Stops at *
  simp only [ExceptT.run_bind] at *
  show StateT.run (_ >>= _) p = _
  rw [StateT.run_bind, h]
  exact h2

/-- An instruction row whose body finishes with the registers `k` completes and leaves what `Ends` says. -/
theorem completes_begins {i : Instr} {s : State} {lc : Lc} {f : Fetch} {d : Decoded} {q r : Pkg} {k : Core} {t : Tally}
    {mn : String} {row : Nat → Bool} {priv : Decoded → Nat → Option Trap} {body : Body} (h : Begins s lc f d q)
    (hi : exec i s = runCpu lc f mn row priv body s) (hrow : row d.op = true)
    (hpriv : priv d (s.pkg.core lc).pl = none)
    (hb : Yields (body (envOf s lc d) (s.pkg.core lc) f.stop) q ((envOf s lc d).finish k t) r) :
    Completes i s (Ends s lc r k (envOf s lc d).next) := by
  have e := ends_endInstr s lc d.len r ((envOf s lc d).finish k t) rfl rfl
  exact ⟨_, hi.trans (runCpu_begins h mn row priv body hrow hpriv hb),
    ⟨e.g, e.ma, e.psw, e.run, e.ip, e.part, e.cr, e.others, e.units, e.rest⟩⟩

end Sys2Proof.Machine
end

