-- ==== Sys2Proof/Laws/Events.lean ====
section
/-! SUPPORT. Laws of the event log, of interrupts that become pending and of package checkstops. -/

namespace Sys2Proof.Machine

variable (p : Pkg)

@[simp] theorem wakeLatch_head (c : Nat) : (p.wakeLatch c).head = p.head := by
  unfold Pkg.wakeLatch
  split <;> rfl
@[simp] theorem wakeLatch_populated (c : Nat) : (p.wakeLatch c).populated = p.populated := by
  unfold Pkg.wakeLatch
  split <;> rfl
@[simp] theorem wakeLatch_fr (c : Nat) : (p.wakeLatch c).fr = p.fr := by
  unfold Pkg.wakeLatch
  split <;> rfl
@[simp] theorem wakeLatch_stw (c : Nat) : (p.wakeLatch c).stw = p.stw := by
  unfold Pkg.wakeLatch
  split <;> rfl
@[simp] theorem wakeLatch_dieSt (c : Nat) : (p.wakeLatch c).dieSt = p.dieSt := by
  unfold Pkg.wakeLatch
  split <;> rfl
@[simp] theorem wakeLatch_cores (c : Nat) : (p.wakeLatch c).cores = p.cores := by
  unfold Pkg.wakeLatch
  split <;> rfl
@[simp] theorem wakeLatch_units (c : Nat) : (p.wakeLatch c).units = p.units := by
  unfold Pkg.wakeLatch
  split <;> rfl
@[simp] theorem wakeLatch_caches (c : Nat) : (p.wakeLatch c).caches = p.caches := by
  unfold Pkg.wakeLatch
  split <;> rfl
@[simp] theorem wakeLatch_coh (c : Nat) : (p.wakeLatch c).coh = p.coh := by
  unfold Pkg.wakeLatch
  split <;> rfl
@[simp] theorem wakeLatch_hbm (c : Nat) : (p.wakeLatch c).hbm = p.hbm := by
  unfold Pkg.wakeLatch
  split <;> rfl
@[simp] theorem wakeLatch_boot (c : Nat) : (p.wakeLatch c).boot = p.boot := by
  unfold Pkg.wakeLatch
  split <;> rfl
@[simp] theorem wakeLatch_chain (c : Nat) : (p.wakeLatch c).chain = p.chain := by
  unfold Pkg.wakeLatch
  split <;> rfl
@[simp] theorem wakeLatch_pcie (c : Nat) : (p.wakeLatch c).pcie = p.pcie := by
  unfold Pkg.wakeLatch
  split <;> rfl
@[simp] theorem wakeLatch_out (c : Nat) : (p.wakeLatch c).out = p.out := by
  unfold Pkg.wakeLatch
  split <;> rfl
@[simp] theorem wakeLatch_links (c : Nat) : (p.wakeLatch c).links = p.links := by
  unfold Pkg.wakeLatch
  split <;> rfl
@[simp] theorem wakeLatch_guests (c : Nat) : (p.wakeLatch c).guests = p.guests := by
  unfold Pkg.wakeLatch
  split <;> rfl
@[simp] theorem wakeLatch_fabric (c : Nat) : (p.wakeLatch c).fabric = p.fabric := by
  unfold Pkg.wakeLatch
  split <;> rfl
@[simp] theorem wakeLatch_ledger (c : Nat) : (p.wakeLatch c).ledger = p.ledger := by
  unfold Pkg.wakeLatch
  split <;> rfl
@[simp] theorem wakeLatch_ce (c : Nat) : (p.wakeLatch c).ce = p.ce := by
  unfold Pkg.wakeLatch
  split <;> rfl
@[simp] theorem wakeLatch_dma (c : Nat) : (p.wakeLatch c).dma = p.dma := by
  unfold Pkg.wakeLatch
  split <;> rfl
@[simp] theorem wakeLatch_se (c : Nat) : (p.wakeLatch c).se = p.se := by
  unfold Pkg.wakeLatch
  split <;> rfl
@[simp] theorem wakeLatch_tickLog (c : Nat) : (p.wakeLatch c).tickLog = p.tickLog := by
  unfold Pkg.wakeLatch
  split <;> rfl
@[simp] theorem wakeLatch_fresh (c : Nat) : (p.wakeLatch c).fresh = p.fresh := by
  unfold Pkg.wakeLatch
  split <;> rfl
@[simp] theorem wakeLatch_pages (c : Nat) : (p.wakeLatch c).pages = p.pages := by
  unfold Pkg.wakeLatch
  split <;> rfl

@[simp] theorem setPending_head (lc n : Nat) : (p.setPending lc n).head = p.head := by
  unfold Pkg.setPending
  split <;> simp
@[simp] theorem setPending_populated (lc n : Nat) : (p.setPending lc n).populated = p.populated := by
  unfold Pkg.setPending
  split <;> simp
@[simp] theorem setPending_fr (lc n : Nat) : (p.setPending lc n).fr = p.fr := by
  unfold Pkg.setPending
  split <;> simp
@[simp] theorem setPending_stw (lc n : Nat) : (p.setPending lc n).stw = p.stw := by
  unfold Pkg.setPending
  split <;> simp
@[simp] theorem setPending_dieSt (lc n : Nat) : (p.setPending lc n).dieSt = p.dieSt := by
  unfold Pkg.setPending
  split <;> simp
@[simp] theorem setPending_units (lc n : Nat) : (p.setPending lc n).units = p.units := by
  unfold Pkg.setPending
  split <;> simp
@[simp] theorem setPending_caches (lc n : Nat) : (p.setPending lc n).caches = p.caches := by
  unfold Pkg.setPending
  split <;> simp
@[simp] theorem setPending_coh (lc n : Nat) : (p.setPending lc n).coh = p.coh := by
  unfold Pkg.setPending
  split <;> simp
@[simp] theorem setPending_hbm (lc n : Nat) : (p.setPending lc n).hbm = p.hbm := by
  unfold Pkg.setPending
  split <;> simp
@[simp] theorem setPending_boot (lc n : Nat) : (p.setPending lc n).boot = p.boot := by
  unfold Pkg.setPending
  split <;> simp
@[simp] theorem setPending_chain (lc n : Nat) : (p.setPending lc n).chain = p.chain := by
  unfold Pkg.setPending
  split <;> simp
@[simp] theorem setPending_pcie (lc n : Nat) : (p.setPending lc n).pcie = p.pcie := by
  unfold Pkg.setPending
  split <;> simp
@[simp] theorem setPending_out (lc n : Nat) : (p.setPending lc n).out = p.out := by
  unfold Pkg.setPending
  split <;> simp
@[simp] theorem setPending_links (lc n : Nat) : (p.setPending lc n).links = p.links := by
  unfold Pkg.setPending
  split <;> simp
@[simp] theorem setPending_guests (lc n : Nat) : (p.setPending lc n).guests = p.guests := by
  unfold Pkg.setPending
  split <;> simp
@[simp] theorem setPending_fabric (lc n : Nat) : (p.setPending lc n).fabric = p.fabric := by
  unfold Pkg.setPending
  split <;> simp
@[simp] theorem setPending_ledger (lc n : Nat) : (p.setPending lc n).ledger = p.ledger := by
  unfold Pkg.setPending
  split <;> simp
@[simp] theorem setPending_ce (lc n : Nat) : (p.setPending lc n).ce = p.ce := by
  unfold Pkg.setPending
  split <;> simp
@[simp] theorem setPending_dma (lc n : Nat) : (p.setPending lc n).dma = p.dma := by
  unfold Pkg.setPending
  split <;> simp
@[simp] theorem setPending_se (lc n : Nat) : (p.setPending lc n).se = p.se := by
  unfold Pkg.setPending
  split <;> simp
@[simp] theorem setPending_tickLog (lc n : Nat) : (p.setPending lc n).tickLog = p.tickLog := by
  unfold Pkg.setPending
  split <;> simp
@[simp] theorem setPending_fresh (lc n : Nat) : (p.setPending lc n).fresh = p.fresh := by
  unfold Pkg.setPending
  split <;> simp
@[simp] theorem setPending_pages (lc n : Nat) : (p.setPending lc n).pages = p.pages := by
  unfold Pkg.setPending
  split <;> simp

/-- The record that the log takes (R408). -/
def Pkg.logRec (p : Pkg) (code origin : Nat) (lc pid : Option Nat) (pg : Nat) (detail : Word) : EvRec :=
  { seq := p.stw.evSeq + 1, code := code, origin := origin, frame := p.frameNum, lc := lc, pid := pid,
    die := pg / 4096, block := pg % 4096, detail := detail }

/-- The package with the record appended, before anybody is notified. -/
def Pkg.logged (p : Pkg) (code origin : Nat) (lc pid : Option Nat) (pg : Nat) (detail : Word) : Pkg :=
  ({ p with stw := { p.stw with events := (p.logRec code origin lc pid pg detail :: p.stw.events).take 1024,
                                evSeq := p.stw.evSeq + 1 } }).setRf pgSE 0x208 0 0 1

/-- Logging an event appends its record, sets SE.INTSTAT[EVENT] and may set an interrupt of the Monitor pending. -/
theorem logEvent_cases (code origin : Nat) (lc pid : Option Nat) (pg : Nat) (detail : Word) :
    p.logEvent code origin lc pid pg detail = p.logged code origin lc pid pg detail ∨
    ∃ a n, p.logEvent code origin lc pid pg detail = (p.logged code origin lc pid pg detail).setPending a n := by
  unfold Pkg.logEvent Pkg.logged Pkg.logRec
  dsimp only []
  split
  · exact Or.inr ⟨_, _, rfl⟩
  · exact Or.inl rfl

@[simp] theorem logEvent_head (code origin : Nat) (lc pid : Option Nat) (pg : Nat) (detail : Word) :
    (p.logEvent code origin lc pid pg detail).head = p.head := by
  rcases logEvent_cases p code origin lc pid pg detail with h | ⟨a, n, h⟩ <;> simp [h, Pkg.logged]
@[simp] theorem logEvent_populated (code origin : Nat) (lc pid : Option Nat) (pg : Nat) (detail : Word) :
    (p.logEvent code origin lc pid pg detail).populated = p.populated := by
  rcases logEvent_cases p code origin lc pid pg detail with h | ⟨a, n, h⟩ <;> simp [h, Pkg.logged]
@[simp] theorem logEvent_fr (code origin : Nat) (lc pid : Option Nat) (pg : Nat) (detail : Word) :
    (p.logEvent code origin lc pid pg detail).fr = p.fr := by
  rcases logEvent_cases p code origin lc pid pg detail with h | ⟨a, n, h⟩ <;> simp [h, Pkg.logged]
@[simp] theorem logEvent_dieSt (code origin : Nat) (lc pid : Option Nat) (pg : Nat) (detail : Word) :
    (p.logEvent code origin lc pid pg detail).dieSt = p.dieSt := by
  rcases logEvent_cases p code origin lc pid pg detail with h | ⟨a, n, h⟩ <;> simp [h, Pkg.logged]
@[simp] theorem logEvent_units (code origin : Nat) (lc pid : Option Nat) (pg : Nat) (detail : Word) :
    (p.logEvent code origin lc pid pg detail).units = p.units := by
  rcases logEvent_cases p code origin lc pid pg detail with h | ⟨a, n, h⟩ <;> simp [h, Pkg.logged]
@[simp] theorem logEvent_caches (code origin : Nat) (lc pid : Option Nat) (pg : Nat) (detail : Word) :
    (p.logEvent code origin lc pid pg detail).caches = p.caches := by
  rcases logEvent_cases p code origin lc pid pg detail with h | ⟨a, n, h⟩ <;> simp [h, Pkg.logged]
@[simp] theorem logEvent_coh (code origin : Nat) (lc pid : Option Nat) (pg : Nat) (detail : Word) :
    (p.logEvent code origin lc pid pg detail).coh = p.coh := by
  rcases logEvent_cases p code origin lc pid pg detail with h | ⟨a, n, h⟩ <;> simp [h, Pkg.logged]
@[simp] theorem logEvent_hbm (code origin : Nat) (lc pid : Option Nat) (pg : Nat) (detail : Word) :
    (p.logEvent code origin lc pid pg detail).hbm = p.hbm := by
  rcases logEvent_cases p code origin lc pid pg detail with h | ⟨a, n, h⟩ <;> simp [h, Pkg.logged]
@[simp] theorem logEvent_boot (code origin : Nat) (lc pid : Option Nat) (pg : Nat) (detail : Word) :
    (p.logEvent code origin lc pid pg detail).boot = p.boot := by
  rcases logEvent_cases p code origin lc pid pg detail with h | ⟨a, n, h⟩ <;> simp [h, Pkg.logged]
@[simp] theorem logEvent_chain (code origin : Nat) (lc pid : Option Nat) (pg : Nat) (detail : Word) :
    (p.logEvent code origin lc pid pg detail).chain = p.chain := by
  rcases logEvent_cases p code origin lc pid pg detail with h | ⟨a, n, h⟩ <;> simp [h, Pkg.logged]
@[simp] theorem logEvent_pcie (code origin : Nat) (lc pid : Option Nat) (pg : Nat) (detail : Word) :
    (p.logEvent code origin lc pid pg detail).pcie = p.pcie := by
  rcases logEvent_cases p code origin lc pid pg detail with h | ⟨a, n, h⟩ <;> simp [h, Pkg.logged]
@[simp] theorem logEvent_out (code origin : Nat) (lc pid : Option Nat) (pg : Nat) (detail : Word) :
    (p.logEvent code origin lc pid pg detail).out = p.out := by
  rcases logEvent_cases p code origin lc pid pg detail with h | ⟨a, n, h⟩ <;> simp [h, Pkg.logged]
@[simp] theorem logEvent_links (code origin : Nat) (lc pid : Option Nat) (pg : Nat) (detail : Word) :
    (p.logEvent code origin lc pid pg detail).links = p.links := by
  rcases logEvent_cases p code origin lc pid pg detail with h | ⟨a, n, h⟩ <;> simp [h, Pkg.logged]
@[simp] theorem logEvent_guests (code origin : Nat) (lc pid : Option Nat) (pg : Nat) (detail : Word) :
    (p.logEvent code origin lc pid pg detail).guests = p.guests := by
  rcases logEvent_cases p code origin lc pid pg detail with h | ⟨a, n, h⟩ <;> simp [h, Pkg.logged]
@[simp] theorem logEvent_fabric (code origin : Nat) (lc pid : Option Nat) (pg : Nat) (detail : Word) :
    (p.logEvent code origin lc pid pg detail).fabric = p.fabric := by
  rcases logEvent_cases p code origin lc pid pg detail with h | ⟨a, n, h⟩ <;> simp [h, Pkg.logged]
@[simp] theorem logEvent_ledger (code origin : Nat) (lc pid : Option Nat) (pg : Nat) (detail : Word) :
    (p.logEvent code origin lc pid pg detail).ledger = p.ledger := by
  rcases logEvent_cases p code origin lc pid pg detail with h | ⟨a, n, h⟩ <;> simp [h, Pkg.logged]
@[simp] theorem logEvent_ce (code origin : Nat) (lc pid : Option Nat) (pg : Nat) (detail : Word) :
    (p.logEvent code origin lc pid pg detail).ce = p.ce := by
  rcases logEvent_cases p code origin lc pid pg detail with h | ⟨a, n, h⟩ <;> simp [h, Pkg.logged]
@[simp] theorem logEvent_dma (code origin : Nat) (lc pid : Option Nat) (pg : Nat) (detail : Word) :
    (p.logEvent code origin lc pid pg detail).dma = p.dma := by
  rcases logEvent_cases p code origin lc pid pg detail with h | ⟨a, n, h⟩ <;> simp [h, Pkg.logged]
@[simp] theorem logEvent_se (code origin : Nat) (lc pid : Option Nat) (pg : Nat) (detail : Word) :
    (p.logEvent code origin lc pid pg detail).se = p.se := by
  rcases logEvent_cases p code origin lc pid pg detail with h | ⟨a, n, h⟩ <;> simp [h, Pkg.logged]
@[simp] theorem logEvent_tickLog (code origin : Nat) (lc pid : Option Nat) (pg : Nat) (detail : Word) :
    (p.logEvent code origin lc pid pg detail).tickLog = p.tickLog := by
  rcases logEvent_cases p code origin lc pid pg detail with h | ⟨a, n, h⟩ <;> simp [h, Pkg.logged]
@[simp] theorem logEvent_fresh (code origin : Nat) (lc pid : Option Nat) (pg : Nat) (detail : Word) :
    (p.logEvent code origin lc pid pg detail).fresh = p.fresh := by
  rcases logEvent_cases p code origin lc pid pg detail with h | ⟨a, n, h⟩ <;> simp [h, Pkg.logged]

@[simp] theorem logEvent_stw (code origin : Nat) (lc pid : Option Nat) (pg : Nat) (detail : Word) :
    (p.logEvent code origin lc pid pg detail).stw =
      { p.stw with events := (p.logRec code origin lc pid pg detail :: p.stw.events).take 1024,
                   evSeq := p.stw.evSeq + 1 } := by
  rcases logEvent_cases p code origin lc pid pg detail with h | ⟨a, n, h⟩ <;> simp [h, Pkg.logged]

@[simp] theorem reg_setPending (lc n q o : Nat) : (p.setPending lc n).reg q o = p.reg q o := by
  simp [Pkg.reg, Pkg.page]

/-- Logging an event changes no register but SE.INTSTAT. -/
theorem reg_logEvent {q o : Nat} (code origin : Nat) (lc pid : Option Nat) (pg : Nat) (detail : Word)
    (h : q ≠ pgSE ∨ o ≠ 0x208) : (p.logEvent code origin lc pid pg detail).reg q o = p.reg q o := by
  have k : ∀ r : Pkg, (r.setRf pgSE 0x208 0 0 1).reg q o = r.reg q o := by
    intro r
    unfold Pkg.setRf
    rcases h with h | h
    · simp [h]
    · by_cases e : q = pgSE
      · subst e; simp [h]
      · simp [e]
  rcases logEvent_cases p code origin lc pid pg detail with e | ⟨a, n, e⟩
  · rw [e]; unfold Pkg.logged; rw [k]; rfl
  · rw [e, reg_setPending]; unfold Pkg.logged; rw [k]; rfl

/-- SE.INTSTAT[EVENT] is set by every record (R412). -/
theorem intstat_logEvent (code origin : Nat) (lc pid : Option Nat) (pg : Nat) (detail : Word) :
    (p.logEvent code origin lc pid pg detail).rf pgSE 0x208 0 0 = 1 := by
  have k : (p.logged code origin lc pid pg detail).rf pgSE 0x208 0 0 = 1 := by
    unfold Pkg.logged
    rw [rf_setRf_same]
    norm_num
  rcases logEvent_cases p code origin lc pid pg detail with e | ⟨a, n, e⟩
  · rw [e, k]
  · rw [e]; unfold Pkg.rf at k ⊢; rw [reg_setPending, k]

end Sys2Proof.Machine
end

