-- ==== Sys2Proof/Laws/Memory.lean ====
section
/-! SUPPORT. Laws of byte memory: reading after writing, and every operation keeps the canonical form. -/

namespace Sys2Proof.Machine

@[simp] theorem memByte_memSetByte_same (m : List Host.Cell) (a : Nat) (v : Byte) :
    memByte (memSetByte m a v) a = v := by simp [memByte, memSetByte]

@[simp] theorem memByte_memSetByte_other (m : List Host.Cell) {a b : Nat} (v : Byte) (h : b ≠ a) :
    memByte (memSetByte m a v) b = memByte m b := by simp [memByte, memSetByte, h]

/-- A byte outside the written range reads as before. -/
theorem memByte_memSetBytes_below (m : List Host.Cell) (bs : List Byte) {a b : Nat} (h : b < a) :
    memByte (memSetBytes m a bs) b = memByte m b := by
  induction bs generalizing m a with
  | nil => rfl
  | cons x t ih => rw [memSetBytes, ih _ (by omega), memByte_memSetByte_other m x (by omega)]

theorem memByte_memSetBytes_above (m : List Host.Cell) (bs : List Byte) {a b : Nat} (h : a + bs.length ≤ b) :
    memByte (memSetBytes m a bs) b = memByte m b := by
  induction bs generalizing m a with
  | nil => rfl
  | cons x t ih =>
    simp only [List.length_cons] at h
    rw [memSetBytes, ih _ (by omega), memByte_memSetByte_other m x (by omega)]

/-- A byte inside the written range reads as written. -/
theorem memByte_memSetBytes_inside (m : List Host.Cell) (bs : List Byte) (a k : Nat) (h : k < bs.length) :
    memByte (memSetBytes m a bs) (a + k) = bs[k] := by
  induction bs generalizing m a k with
  | nil => simp at h
  | cons x t ih =>
    rw [memSetBytes]
    cases k with
    | zero => rw [Nat.add_zero, memByte_memSetBytes_below _ t (by omega)]; simp
    | succ k =>
      have := ih (memSetByte m a x) (a + 1) k (by simpa using h)
      rw [show a + (k + 1) = a + 1 + k by omega, this]; simp

/-- Reading what was just written. -/
theorem memBytes_memSetBytes (m : List Host.Cell) (a : Nat) (bs : List Byte) :
    memBytes (memSetBytes m a bs) a bs.length = bs := by
  apply List.ext_getElem
  · simp [memBytes]
  · intro k h1 h2
    simp only [memBytes, List.getElem_map, List.getElem_range]
    exact memByte_memSetBytes_inside m bs a k h2

theorem memSetByte_wf (m : List Host.Cell) (a : Nat) (v : Byte) (w : Memory.wf m = true) :
    Memory.wf (memSetByte m a v) = true := tblSet_wf memDefault m a v w

/-- Every write keeps the canonical form. -/
theorem memSetBytes_wf (m : List Host.Cell) (a : Nat) (bs : List Byte) (w : Memory.wf m = true) :
    Memory.wf (memSetBytes m a bs) = true := by
  induction bs generalizing m a with
  | nil => exact w
  | cons x t ih => exact ih _ _ (memSetByte_wf m a x w)

end Sys2Proof.Machine
end

