-- ==== Sys2Proof/Tests/States.lean ====
section
/-! SUPPORT. Small states, commands and answers that the tests of `Sys2Proof/Tests` are stated on. -/
set_option maxRecDepth 100000
namespace Sys2Proof.Machine

/-- Die of LC `lc`, its region and its place there, as the physical unit that bring-up maps first. -/
def unitFor (lc : Nat) : Nat := physId (lc / 18) (lc % 18 / 9 * 10 + lc % 9)

/-- A package in RUN: every rail on, every die running, every logical core mapped and assigned to partition 0. -/
def runState : State :=
  let p := State.reset.pkg
  { State.reset with
    mode := { State.reset.mode with mode := .run }
    pkg := { p with
      pw := { p.pw with hubMain := true, rails := (List.range 15).map (fun r => (r, 2)) }
      dieSt := (List.range 12).map (fun d => (d, 2))
      stw := { p.stw with
        cmap := (List.range 216).map (fun lc => (lc, 0x4000 + unitFor lc))
        lcpid := (List.range 216).map (fun lc => (lc, 0))
        parts := [(0, { Partition.reset with st := .defined })] } } }

/-- A state with registers of pages written. -/
def withRegs (s : State) (l : List (Nat × Nat × Nat)) : State :=
  { s with pkg := l.foldl (fun p e => p.setReg e.1 e.2.1 (BitVec.ofNat 64 e.2.2)) s.pkg }

/-- A state in which pages with a configuration are ACTIVE. -/
def activePages (s : State) (l : List Nat) : State := withRegs s (l.map (fun g => (g, 0x020, 0x100)))

/-- A state in which a page has adopted these quads of its configuration. -/
def withCfg (s : State) (pg : Nat) (l : List (Nat × Nat)) : State :=
  { s with pkg := s.pkg.setPage pg { s.pkg.page pg with live := some (l.map (fun e => ((e.1 - 0x400) / 8, BitVec.ofNat 64 e.2))) } }

/-- A state in another mode. -/
def inMode (s : State) (m : Mode) : State := { s with mode := { s.mode with mode := m } }

/-- A state with its package changed. -/
def onPkg (s : State) (f : Pkg → Pkg) : State := { s with pkg := f s.pkg }

/-- A state with its steward changed; one in which a tick has found requests pending (`Wait.code` and number). -/
def withStw (s : State) (f : Steward → Steward) : State := onPkg s (fun p => { p with stw := f p.stw })
def ripen (s : State) (l : List (Nat × Nat)) : State := withStw s (fun x => { x with ripe := l })

/-- A state with one die's link changed; with its training record changed. -/
def withLink (s : State) (d : Nat) (f : DieLink → DieLink) : State := onPkg s (fun p => p.setLink d (f (p.link d)))
def withBoot (s : State) (f : Boot → Boot) : State := onPkg s (fun p => { p with boot := f p.boot })

/-- An intact flit of a TYPE with a SEQ and a payload. -/
def testFlit (ty seq data : Nat) : BitVec 256 :=
  let x := seq * 2 ^ 230 + ty * 2 ^ 216 + data
  BitVec.ofNat 256 (crc16 240 x * 2 ^ 240 + x)

def lineOf (b : Byte) : List Byte := List.replicate 64 b

/-- A state with lines of memory, rising, stored with (line, PID, content) where no line between the first and the last is. -/
def withBlock (s : State) (l : List (Nat × Nat × List Byte)) : State :=
  let lo := (l.head?.map (·.1)).getD 0
  let cells := l.flatMap (fun e => (e.2.2.zipIdx.filter (fun x => x.1 != 0)).map (fun x => (e.1 * 64 + x.2, x.1)))
  let metas := l.map (fun e => (e.1, some ({ pid := e.2.1, gen := (s.pkg.part e.2.1).gen, tweak := e.1, err := [] } : LineMeta)))
  let h := s.pkg.hbm
  { s with pkg := { s.pkg with hbm := { h with
      mem := h.mem.filter (fun c => c.1 < lo * 64) ++ cells ++ h.mem.filter (fun c => lo * 64 ≤ c.1)
      lines := h.lines.filter (fun c => c.1 < lo) ++ metas ++ h.lines.filter (fun c => lo ≤ c.1) } } }

/-- Pages with stored registers, rising. -/
def freshPages (l : List (Nat × Tbl Word)) : Tbl Page := l.map (fun e => (e.1, { Page.reset with regs := e.2 }))

/-- RUN with every directory slice and memory controller at work, and four lines of zeros stored. -/
def memState : State :=
  withBlock
    { runState with
      pkg := { runState.pkg with
        pages := freshPages ((List.range 16).map (fun n => (pgMC n, [(0x020, 0x100), (0x200, 1)])) ++
          (List.range 16).map (fun n => (pgMCR n, [(0x208, 1)])) ++ (List.range 16).map (fun n => (pgDS n, [(0x020, 0x100)]))) } }
    [(0x3F, 5, lineOf 0), (0x40, 5, lineOf 0), (0x80, 0, lineOf 0), (0x43F, 7, lineOf 0)]

/-- Memory at work and guest site 1 ACTIVE, with firewall window 0 of partition 5 over the first MiB. -/
def guestState : State :=
  withCfg (withRegs memState [(pgGP 1, 0x020, 0x100), (pgGFW 1, 0x020, 0x100), (pgGP 1, 0x200, 2), (pgGP 1, 0x208, 0x0101401043200800)])
    (pgGFW 1) [(0x400, 7 * 2 ^ 61 + 5 * 2 ^ 50 + 20 * 2 ^ 44)]

/-- An OGP header. -/
def ogpHdr (ty tag len op vec addr : Nat) : BitVec 128 :=
  BitVec.ofNat 128 (ty * 2 ^ 124 + tag * 2 ^ 112 + (len - 1) * 2 ^ 100 + op * 2 ^ 94 + vec * 2 ^ 80 + addr)

/-- What an access of an agent that is no core answered. -/
def ioBytes : IoAns → List Byte
  | .done b _ => b
  | _ => []
def ioPoison : IoAns → Bool
  | .done _ po => po
  | _ => false

/-- RUN with link 3 of port 5 up, of partition 7, whose stage-2 table lies at 0x2000 with one leaf for the first GiB. -/
def pcieState : State :=
  withCfg (withRegs memState [(pgPE 5, 0x020, 0x100), (pgPE 5, 0x200, 2 ^ 63)]) (pgPE 5)
    [(0x420, 2 ^ 63 + 7 * 2 ^ 56 + 0x2000), (0x400, 0xFEE00000), (0x620, 2 ^ 31 + 7 * 2 ^ 24 + 17 * 256 + 0x40)]

/-- Port 5 with a translation of page 0 for its link 3 in its IOTLB. -/
def tlbState : State :=
  onPkg pcieState (fun p => p.setPe 5 { p.pe 5 with iotlb := [{ link := 3, vbase := 0, pbase := 0x10000, size := 4096, r := true, w := true }] })

/-- A request of an agent that waits at its port, and a state in which it does. -/
def testInq (agent pid addr : Nat) (src : InSrc) : Inbound :=
  { agent := agent, pid := pid, parts := [(addr, 8)], op := .read, src := src, age := 0 }
def withInq (s : State) (l : List Inbound) : State := onPkg s (fun p => { p with inq := l })

/-- A state with one logical core, and one with its guest port, changed; one with its power record changed. -/
def withCore (s : State) (lc : Nat) (f : Core → Core) : State := onPkg s (fun p => p.setCore lc (f (p.core lc)))
def withGuest (s : State) (g : Nat) (f : Guest → Guest) : State := onPkg s (fun p => p.setGuest g (f (p.guest g)))
def withPower (s : State) (f : Power → Power) : State := onPkg s (fun p => { p with pw := f p.pw })

/-- An access that a core waits for. -/
def testIo (pa tag : Nat) : IoAcc := { pa := pa, len := 8, wr := [], tag := tag, answer := none, age := 0 }

/-- Memory at work and every L3 slice ACTIVE. -/
def dieState : State :=
  onPkg memState (fun p =>
    { p with pages := freshPages ((List.range 24).map (fun k => (pgL3 (k / 2) (k % 2), [(0x020, 0x100)]))) ++ p.pages })

/-- A state with its coherence record changed. -/
def withCoh (s : State) (f : Coh → Coh) : State := onPkg s (fun p => { p with coh := f p.coh })

/-- A coherence request of die or agent 11, partition 5, for line 0x40. -/
def testReq : CohReq :=
  { src := 11, line := 0x40, pid := 5, txid := 1023, urg := 3, readable := true, code := .clean }

/-- What the messages of the tests carry: those of transaction 1023 of partition 5 for line 0x40. -/
def testHead : MsgHead := { line := 0x40, pid := 5, txid := 1023, urg := 3, readable := true }

/-- What the agents remember of a request for line 0x40. -/
def testPending (k : ReqKind) : AgentReq := { kind := k, line := 0x40, pid := 5, txid := 1023, cmp := none, data := none, urg := 0, age := 0 }

/-- A transaction of a home for line 0x40. -/
def testTxn (k : ReqKind) (src : Nat) : Txn :=
  newTxn (mkReq k 0x40 5 src 1023) [] false none
def testDline (st : DieSt) : DLine := { st := st, pid := 5, data := lineOf 9, poison := false, evicting := false, evTx := 0 }

/-- The entry of line 0x40 in the tests, held by die 11, and a state in which way 3 of its set has it. -/
def testEnt (own : Bool) : DirEnt := { own := own, fenced := false, busy := false, pid := 5, pres := 2 ^ 11, tag := 0 }
def withEnt (s : State) (e : DirEnt) : State :=
  onPkg s (fun p => p.setDirSet (dirKey 0x40) { p.dirSet (dirKey 0x40) with ways := [(3, some e)] })

/-- A state with a whole 4 KiB page of memory stored under PID 0, full of zeros. -/
def withPage (s : State) (n : Nat) : State := withBlock s ((List.range 64).map (fun i => (n * 64 + i, 0, lineOf 0)))

/-- Queue pair 1 of PID 0 and queue pair 2 of PID 5, with their queues at 0x2000 and 0x2400. -/
def testQp : QueuePair := { QueuePair.reset with st := 1, sizeLog := 4, sq := 0x2000, cq := 0x2400 }

/-- Namespace 127 of the tests: 1,000 sectors of PID 0, none written. -/
def testNs : LedgerNs :=
  { pid := 0, cap := 1000, label := List.replicate 32 1, mode := 0, peer := 0, peerNs := 0, seq := 0, applied := [], sectors := [] }

/-- Memory at work, the ledger engine at work with both stacks, and namespace 127 of 1,000 sectors. -/
def ledgerState : State :=
  onPkg (withBlock (withRegs memState [(pgLE, 0x020, 0x100), (pgLE, 0x200, 2), (pgKEYV, 0x200, 3), (pgLSC 0, 0x200, 2), (pgLSC 1, 0x200, 2)]) [(0x90, 0, lineOf 0)])
    (fun p =>
      let p := (p.setQp 1 testQp).setQp 2 { testQp with pid := 5 }
      p.setLns 127 (some testNs))

/-- A fetched command of an operation code for namespace 127, its data at 0x3000. -/
def testLcmd (opc : Nat) (q4 : Nat := 0) : LedgerCmd :=
  { qp := 1, ord := 7, ent := [BitVec.ofNat 64 (opc + 9 * 2 ^ 16 + 127 * 2 ^ 32), 999, 0x3000, 0x3000, BitVec.ofNat 64 q4, 0x10000, 0x20000, 0],
    sqhead := 0, frame := 0, fin := none, buf := none, adm := none, unit := false, made := 0, mirror := none }

/-- A state with a fetched command in slot 4,095. -/
def withLcmd (s : State) (c : LedgerCmd) : State := onPkg s (fun p => p.setLcmd 4095 (some c))

/-- The ledger engine of the package with chain address 5, generation 7. -/
def chainLedger : State := withRegs ledgerState [(pgCH false, 0x200, 2 ^ 21 + 5 * 2 ^ 16 + 7 * 2 ^ 32)]

/-- What an access at an engine's address answered. -/
def devBytes : DevAns → List Byte
  | .ok b _ => b
  | _ => []
def devPoison : DevAns → Bool
  | .ok _ po => po
  | _ => false

/-- Memory at work, a key hierarchy, page 3 stored under PID 0, and cryptography engine 11 at work: slot 15 of PID 0 has its
ring at 0x2000, its first entry stored, and an AES-128 key; slot 14 has a TDES key. -/
def cipherState : State :=
  onPkg (withCfg (withRegs (withPage memState 3) [(pgKEYV, 0x200, 3), (cePage 11, 0x020, 0x100)]) (cePage 11)
      [(0x408 + 16 * 15, 0x2000)])
    (fun p => (p.setCslot 11 15 { CipherSlot.reset with st := 1, kind := 1, key := List.replicate 16 2, tail := 3 }).setCslot 11 14
      { CipherSlot.reset with st := 1, kind := 4, key := List.replicate 24 3 })

/-- A message of an operation: 24 bytes at 0x3000 to 0x3100, associated data at 0x3200, tag at 0x3300. -/
def testMsg (op alg len : Nat) : CipherMsg :=
  { ent := [BitVec.ofNat 64 (op + alg * 2 ^ 8 + (if op = 1 then 2 ^ 12 else 0) + (if alg = 0 ∨ alg = 4 then 8 * 2 ^ 16 else 0) + 14 * 2 ^ 24 + len * 2 ^ 40),
      if op = 1 then 0 else 0x3000, if op = 1 then 0 else 0x3100, 0x3200, 5, 6, 0x3300, 16], fin := none }

/-- Engine 11 runs a message of slot 15, whose key is of a kind. -/
def withMsg (m : CipherMsg) (kind : Nat := 1) : State :=
  onPkg cipherState (fun p => (p.setCslot 11 15 { p.cslot 11 15 with msg := some m, kind := kind }).setCeng 11
    { p.ceng 11 with running := some 15 })

/-- The package is not the head of the chain. -/
def withHead (s : State) : State := onPkg s (fun p => { p with head := false })

/-- Memory at work with pages 2 and 3 stored under PID 0, and channel 15 of the hub's DMA at work on a ring at 0x2000. -/
def dmaState : State :=
  withCfg (withRegs (withPage (withBlock memState ((List.range 63).map (fun i => (0x81 + i, 0, lineOf 0)))) 3) [(pgDMAC 15, 0x020, 0x100), (pgDMAC 15, 0xC20, 3), (pgDMAC 15, 0xC00, 0x3000), (pgDMAC 15, 0xC08, 2)])
    (pgDMAC 15) [(0x400, 2 ^ 63), (0x408, 0x2004)]

/-- Channel 15 runs a descriptor: 100 bytes from 0x3000 to 0x3800. -/
def withDesc (op : Nat) : State :=
  onPkg dmaState (fun p => p.setChan 15
    { fill := false, fin := none,
      desc := some [BitVec.ofNat 64 (op + 100 * 2 ^ 8), BitVec.ofNat 64 100, 0x3000, 0x3800], cfg := 2 ^ 63, ring := 0x2004 })

/-- The service endpoint takes requests: its link is up and memory space and bus mastering are enabled. -/
def seState : State :=
  onPkg (withRegs memState [(pgSE, 0x200, 16)]) (fun p =>
    { p with pw := { p.pw with perst := false }, se := { p.se with cfg := [(1, 6)] } })

/-- The endpoint with a mailbox request that the steward has taken. -/
def withRequest (opc : Nat) (l : List (Nat × Nat)) : State :=
  ripen (withRegs seState ((pgSE, 0x210, 1) :: (pgSE, 0xC40, opc) :: l.map (fun e => (pgSE, 0xC40 + 8 * e.1, e.2)))) [(14, 0)]

/-- The steward's image runs. -/
def withImage (s : State) (image running : Bool) : State :=
  onPkg s (fun p => { p with stw := { p.stw with image := image, running := running } })

/-- A file of expected signatures with one entry. -/
def testSigFile : List Byte :=
  let head : List Byte := [0x4B, 0x48, 0x53, 0x47, 1, 0, 1, 0, 0x12, 0x4B, 0] ++ List.replicate 49 0
  let ent : List Byte := List.replicate 16 9
  head ++ leBytes 4 (crc32c (head ++ [0, 0, 0, 0] ++ ent)) ++ ent
def withSigFile (s : State) : State :=
  withBlock s [(0x100, 0, testSigFile.take 64), (0x101, 0, testSigFile.drop 64 ++ List.replicate 48 0)]

/-- The package of `dieState` with the line at 0x3000 full of 3, that at 0x3F00 of 0, and at 0x4000 the packed decimals
+1234567, −5, +0 and a malformed one, four bytes each, then a pattern of seven digits; logical core 17 at level `pl` is about
to run at 0x3F00 with G0 to G15 holding 0x3000, 0x4000, 0x4004, 0x4008, 0x400C, 0x3020, 8, and from there 7 to 15. -/
def cpuState (pl : Nat := 2) : State :=
  onPkg (withBlock dieState [(0xC0, 0, lineOf 3), (0xFC, 0, lineOf 0),
      (0x100, 0, [0x12, 0x34, 0x56, 0x7A, 0, 0, 0, 0x5B, 0, 0, 0, 0x0A, 0, 0, 0, 0, 7, 0])]) (fun p =>
    p.setCore 17 (([0x3000, 0x4000, 0x4004, 0x4008, 0x400C, 0x3020, 8, 7, 0x4010, 9, 10, 11, 12, 13, 14, 15].foldl
      (fun (a : Nat × Core) v => (a.1 + 1, a.2.gSet a.1 (BitVec.ofNat 64 v)))
      (0, { Core.reset with run := .executing, ip := 0x3F00, psw := BitVec.ofNat 64 (pl * 2 ^ 16) })).2))

/-- Bytes of an instruction as the front end delivers them. -/
def fetchOf (l : List Nat) (stop : Option Nat := none) : Fetch := { code := l.map (BitVec.ofNat 8), stop := stop }

/-- What an operation yields, and what it leaves. -/
def yielded {α : Type} (m : M α) (p : Pkg) (dflt : α) : α := match (m.run.run p).1 with | .ok a => a | .error _ => dflt
def left {α : Type} (m : M α) (p : Pkg) : Pkg := (m.run.run p).2

/-- The decoded instruction of some bytes, and the package after they are fetched. -/
def decodedOf (f : Fetch) : Decoded := match decodePelmund f.code with | .ok d => d | .error _ => Decoded.zero
def begun (s : State) (f : Fetch) : Pkg :=
  left (fetchBytes (envOf s 17 (decodedOf f)).x s.mode (s.pkg.core 17).ip.toNat (decodedOf f).len)
    (s.pkg.beginInstr 17 (decodedOf f).order)

/-- `cpuState` at level S or U: stage 2 on, stage 1 off, and a translation of the first 2 MiB in the TLBs. -/
def lowState (pl : Nat) : State :=
  let e : TlbEnt := { mregime := false, pid := 0, asid := none, vbase := 0, pbase := 0, size := 0x200000, s2base := 0, s2size := 0x200000,
                      r := true, w := true, x := true, u := true, s1 := false, r2 := true, w2 := true, x2 := true, attr := 0, dirty := true }
  onPkg (cpuState pl) (fun p =>
    (p.setCore 17 { p.core 17 with cr := [(0x32, 1)] }).setUnit 18 { p.unit 18 with itlb := [e], dtlb := [e] })
/-- A pair is its first part, once that is known, beside its second. -/
theorem pair_eq {α β : Type} [DecidableEq α] {x : α × β} {a : α} (h : decide (x.1 = a) = true) : x = (a, x.2) :=
  Prod.ext (of_decide_eq_true h) rfl

theorem triple {α β γ : Type} {x : α × β × γ} : x = (x.1, x.2.1, x.2.2) := rfl

/-- What holds of an option's value, checked on the option. -/
theorem opt_all {α : Type} {o : Option α} {P : α → Prop} [DecidablePred P] (h : o.all (fun q => decide (P q)) = true) :
    ∀ q, o = some q → P q := by
  intro q hq
  subst hq
  exact of_decide_eq_true h


/-- An access that succeeded gave its bytes. -/
theorem dev_ok {x : DevAns × Pkg} (h : (match x.1 with | .ok _ _ => true | _ => false) = true) :
    x = (.ok (devBytes x.1) (devPoison x.1), x.2) := by
  obtain ⟨x, p⟩ := x
  cases x <;> simp_all [devBytes, devPoison]

theorem dev_clean {x : DevAns × Pkg} (h : (match x.1 with | .ok _ false => true | _ => false) = true) :
    x = (.ok (devBytes x.1) false, x.2) := by
  obtain ⟨x, p⟩ := x
  cases x with
  | ok b po => cases po <;> simp_all [devBytes]
  | _ => simp_all

theorem io_ok {x : IoAns × Pkg} (h : (match x.1 with | .done _ _ => true | _ => false) = true) :
    x = (.done (ioBytes x.1) (ioPoison x.1), x.2) := by
  obtain ⟨x, p⟩ := x
  cases x <;> simp_all [ioBytes, ioPoison]

theorem io_clean {x : IoAns × Pkg} (h : (match x.1 with | .done _ false => true | _ => false) = true) :
    x = (.done (ioBytes x.1) false, x.2) := by
  obtain ⟨x, p⟩ := x
  cases x with
  | done b po => cases po <;> simp_all [ioBytes]
  | _ => simp_all

theorem io_poisoned {x : IoAns × Pkg} (h : (match x.1 with | .done _ true => true | _ => false) = true) :
    x = (.done (ioBytes x.1) true, x.2) := by
  obtain ⟨x, p⟩ := x
  cases x with
  | done b po => cases po <;> simp_all [ioBytes]
  | _ => simp_all

/-- An access that was carried out, one that was not, and one that gave no intact bytes. -/
theorem done_some {x : IoAns} (h : (match x with | .done _ _ => true | _ => false) = true) : ∃ b po, x = .done b po := by
  cases x <;> simp_all

theorem io_bad {x : IoAns} (h : (match x with | .err _ => true | .done _ true => true | _ => false) = true) :
    (∃ st, x = .err st) ∨ ∃ f, x = .done f true := by
  cases x with
  | done b po => cases po <;> simp_all
  | _ => simp_all

theorem not_clean {x : DevAns} (h : (match x with | .ok _ false => false | _ => true) = true) : ∀ b, x ≠ .ok b false := by
  cases x with
  | ok b po => cases po <;> simp_all
  | _ => simp

/-- Nothing is in an empty list; what the pair inside an option's value holds, checked on the option. -/
theorem none_in {α : Type} {l : List α} {P : α → Prop} (h : l.isEmpty = true) : ∀ f ∈ l, P f := by
  intro f hf
  rw [List.isEmpty_iff.mp h] at hf
  exact (List.not_mem_nil hf).elim

theorem opt_all_snd {α β γ : Type} {o : Option α} {f : α → Option (β × γ)} {P : γ → Prop} [DecidablePred P]
    (h : o.all (fun c => (f c).all (fun m => decide (P m.2))) = true) : ∀ c b g, o = some c → f c = some (b, g) → P g := by
  intro c b g hc hg
  subst hc
  simpa [hg] using h

/-- An option that holds something holds its value. -/
theorem some_get {α : Type} {o : Option (List α)} (h : o.isSome = true) : o = some (o.getD []) := by
  cases o <;> simp_all

theorem some_pair {α : Type} {x : Option (List α) × Pkg} (h : x.1.isSome = true) : x = (some (x.1.getD []), x.2) := by
  obtain ⟨o, p⟩ := x
  cases o <;> simp_all

/-- The data path of a cryptography engine: what it read, what it wrote, and the operation it counted. -/
theorem reads_all {p : Pkg} {e k a n : Nat}
    (h : (match (p.readPrefix (ceAgent e) (p.slotPid e k) a n).2.1 with | .ok [] false => true | _ => false) = true) :
    readsAll p e k a n (p.readPrefix (ceAgent e) (p.slotPid e k) a n).1 (p.readPrefix (ceAgent e) (p.slotPid e k) a n).2.2 := by
  unfold readsAll
  generalize p.readPrefix (ceAgent e) (p.slotPid e k) a n = x at *
  obtain ⟨b, d, q⟩ := x
  cases d with
  | ok l po => cases l <;> cases po <;> simp_all
  | _ => simp_all

theorem writes_all {p : Pkg} {e k a : Nat} {b : List Byte}
    (h : (match (p.writePrefix (ceAgent e) (p.slotPid e k) a b).2.1 with | .ok _ false => true | _ => false) = true) :
    writesAll p e k a b (p.writePrefix (ceAgent e) (p.slotPid e k) a b).2.2 := by
  unfold writesAll
  generalize p.writePrefix (ceAgent e) (p.slotPid e k) a b = x at *
  obtain ⟨w, d, q⟩ := x
  cases d with
  | ok l po => cases po <;> simp_all
  | _ => simp_all

theorem counts {p : Pkg} {e k : Nat} {enc : Bool} (h : (p.countUse e k).isSome = true) :
    counted p e k enc (if enc then (p.countUse e k).getD p else p) := by
  unfold counted
  cases enc
  · simp
  · cases h2 : p.countUse e k <;> simp_all

/-- A message begins: an encrypting operation is counted. -/
theorem cipher_runs {p : Pkg} {e k op : Nat} {m : CipherMsg} {enc : Bool}
    (h : (decide (p.cipherReady e k op = some m) && (p.cslot e k).save.isNone && (p.cipherCheck e k m).isNone &&
      (p.countUse e k).isSome) = true) : cipherRuns p e k op m enc (if enc then (p.countUse e k).getD p else p) := by
  simp only [Bool.and_eq_true, decide_eq_true_eq, Option.isNone_iff_eq_none] at h
  obtain ⟨⟨⟨h1, h2⟩, h3⟩, h4⟩ := h
  exact ⟨h1, by rw [if_pos h2]; exact ⟨h3, counts h4⟩⟩

/-- What the first step of ENCRYPT or DECRYPT reads and writes. -/
def aadOf (q : Pkg) (e k : Nat) (m : CipherMsg) : List Byte × Pkg :=
  if m.alg = 0 then
    let r := q.readPrefix (ceAgent e) (q.slotPid e k) m.aux m.aadLen
    (r.1, r.2.2)
  else ([], q)
def inOf (q : Pkg) (e k : Nat) (m : CipherMsg) (n : Nat) : List Byte × Pkg :=
  let p := (aadOf q e k m).2
  let r := p.readPrefix (ceAgent e) (p.slotPid e k) (m.src + (inSoFar q e k).length) (nextLen q e k m n)
  (r.1, r.2.2)
def dataOf (q : Pkg) (e k : Nat) (m : CipherMsg) (n : Nat) : List Byte :=
  inSoFar q e k ++ (inOf q e k m n).1.take ((inOf q e k m n).1.length / algBlock m.alg * algBlock m.alg)
def outOf (q : Pkg) (e k : Nat) (m : CipherMsg) (enc : Bool) (n : Nat) : DevAns × Pkg :=
  let p := (inOf q e k m n).2
  (p.writePrefix (ceAgent e) (p.slotPid e k) (m.dst + (inSoFar q e k).length)
    ((algRun m.alg enc (q.cslot e k).key m.iv (dataOf q e k m n)).drop (inSoFar q e k).length)).2
def movesOk (q : Pkg) (e k : Nat) (m : CipherMsg) (enc : Bool) (n : Nat) : Bool :=
  let p := (aadOf q e k m).2
  (q.cslot e k).save.isNone &&
  (decide (m.alg ≠ 0) || (match (q.readPrefix (ceAgent e) (q.slotPid e k) m.aux m.aadLen).2.1 with | .ok [] false => true | _ => false)) &&
  (match (p.readPrefix (ceAgent e) (p.slotPid e k) (m.src + (inSoFar q e k).length) (nextLen q e k m n)).2.1 with
    | .ok [] false => true | _ => false) &&
  (match (outOf q e k m enc n).1 with | .ok _ false => true | _ => false) &&
  [(aadOf q e k m).2, (inOf q e k m n).2, (outOf q e k m enc n).2].all (fun p => p.slotPid e k == q.slotPid e k)

theorem data_moves {q : Pkg} {e k n : Nat} {m : CipherMsg} {enc : Bool} (h : movesOk q e k m enc n = true) :
    dataMoves q e k m enc n (aadOf q e k m).1 (dataOf q e k m n) (outOf q e k m enc n).2 := by
  simp only [movesOk, Bool.and_eq_true, Bool.or_eq_true, decide_eq_true_eq, Option.isNone_iff_eq_none, List.all_eq_true,
    beq_iff_eq] at h
  obtain ⟨⟨⟨⟨h1, h2⟩, h3⟩, h4⟩, h5⟩ := h
  refine ⟨(aadOf q e k m).2, (inOf q e k m n).1, (inOf q e k m n).2, ?_, reads_all h3, rfl, writes_all h4, h5⟩
  unfold aadRead aadOf
  rw [h1]
  by_cases ha : m.alg = 0
  · simp only [ha, if_true]
    exact reads_all (h2.resolve_left (by simp [ha]))
  · simp [ha]

/-- What comes to its receiver with no message in flight. -/
theorem comes_alone {p : Pkg} {m : Msg} (h : (p.coh.net.isEmpty && p.takes m) = true) : comesIn p m := by
  simp only [Bool.and_eq_true, List.isEmpty_iff] at h
  unfold comesIn
  rw [h.1]
  exact h.2

/-! The steps of an instruction on one state: each operation is evaluated, and what it yields is named. -/

def finishes {α : Type} (m : M α) (p : Pkg) : Bool := match (m.run.run p).1 with | .ok _ => true | .error _ => false

theorem yields {α : Type} {m : M α} {p : Pkg} (x : α) (h : finishes m p = true) : Yields m p (yielded m p x) (left m p) := by
  unfold Yields yielded left finishes at *
  generalize m.run.run p = r at *
  obtain ⟨e, q⟩ := r
  cases e <;> simp_all

/-- The same where the value is known. -/
theorem yields_val {α : Type} [DecidableEq α] {m : M α} {p : Pkg} {a : α}
    (h : (match (m.run.run p).1 with | .ok b => decide (b = a) | .error _ => false) = true) : Yields m p a (left m p) := by
  unfold Yields left
  generalize m.run.run p = r at *
  obtain ⟨e, q⟩ := r
  cases e <;> simp_all

/-- Operands of the tests where none is. -/
def noSpec : Spec := { kind := .v, size := 0, form := 0, reg := 0, ext := 0, extBytes := 0, index := 0, scale := 0 }
def noRand : Rand := { spec := noSpec, num := 0, loc := .lit 0, ptr := none, dev := false }

/-- One, two or three operands formed. -/
def formed (m : M (List Rand × Core)) (p : Pkg) (i : Nat) : Rand := (yielded m p ([], Core.reset)).1.getD i noRand
def forms (m : M (List Rand × Core)) (p : Pkg) (n : Nat) : Bool :=
  match (m.run.run p).1 with | .ok (l, _) => l.length == n | .error _ => false

theorem yields_one {m : M (List Rand × Core)} {p : Pkg} (h : forms m p 1 = true) :
    Yields m p ([formed m p 0], (yielded m p ([], Core.reset)).2) (left m p) := by
  unfold Yields formed yielded left forms at *
  generalize m.run.run p = r at *
  obtain ⟨e, q⟩ := r
  cases e with
  | error => simp_all
  | ok x => obtain ⟨l, c⟩ := x; match l with | [_] => simp | [] | _ :: _ :: _ => simp at h

theorem yields_two {m : M (List Rand × Core)} {p : Pkg} (h : forms m p 2 = true) :
    Yields m p ([formed m p 0, formed m p 1], (yielded m p ([], Core.reset)).2) (left m p) := by
  unfold Yields formed yielded left forms at *
  generalize m.run.run p = r at *
  obtain ⟨e, q⟩ := r
  cases e with
  | error => simp_all
  | ok x => obtain ⟨l, c⟩ := x; match l with | [_, _] => simp | [] | [_] | _ :: _ :: _ :: _ => simp at h

theorem yields_three {m : M (List Rand × Core)} {p : Pkg} (h : forms m p 3 = true) :
    Yields m p ([formed m p 0, formed m p 1, formed m p 2], (yielded m p ([], Core.reset)).2) (left m p) := by
  unfold Yields formed yielded left forms at *
  generalize m.run.run p = r at *
  obtain ⟨e, q⟩ := r
  cases e with
  | error => simp_all
  | ok x =>
    obtain ⟨l, c⟩ := x
    match l with | [_, _, _] => simp | [] | [_] | [_, _] | _ :: _ :: _ :: _ :: _ => simp at h

/-- A byte loop that has finished. -/
theorem yields_loop {α : Type} {m : M (Nat × Nat × α × LoopEnd)} {p : Pkg} (z : α)
    (h : (match (m.run.run p).1 with | .ok (_, _, _, .finished) => true | _ => false) = true) :
    Yields m p ((yielded m p (0, 0, z, .finished)).1, (yielded m p (0, 0, z, .finished)).2.1,
      (yielded m p (0, 0, z, .finished)).2.2.1, .finished) (left m p) := by
  unfold Yields yielded left
  generalize m.run.run p = r at *
  obtain ⟨e, q⟩ := r
  cases e with
  | error => simp_all
  | ok x => obtain ⟨i, k, x, l⟩ := x; cases l <;> simp_all

/-- One that has stopped between bytes. -/
def keepOf (m : M (Nat × Nat × Bool × LoopEnd)) (p : Pkg) : Bool :=
  match (yielded m p (0, 0, false, .finished)).2.2.2 with | .stopped b => b | .finished => false

theorem yields_stop {m : M (Nat × Nat × Bool × LoopEnd)} {p : Pkg}
    (h : (match (m.run.run p).1 with | .ok (_, _, _, .stopped _) => true | _ => false) = true) :
    Yields m p ((yielded m p (0, 0, false, .finished)).1, (yielded m p (0, 0, false, .finished)).2.1,
      (yielded m p (0, 0, false, .finished)).2.2.1, .stopped (keepOf m p)) (left m p) := by
  unfold Yields keepOf yielded left
  generalize m.run.run p = r at *
  obtain ⟨e, q⟩ := r
  cases e with
  | error => simp_all
  | ok x => obtain ⟨i, k, x, l⟩ := x; cases l <;> simp_all

/-- No cache that serves a unit drains. -/
theorem drained {x : Ctx} {p : Pkg} (h : p.pathStalled x.u 0 = false) : Yields (stallDrain x) p () p := by
  simp only [Yields, stallDrain, StateT.run, ExceptT.run, bind, ExceptT.bind, ExceptT.mk, StateT.bind, ExceptT.bindCont, get,
    getThe, MonadStateOf.get, liftM, monadLift, MonadLift.monadLift, ExceptT.lift, StateT.get, Functor.map, StateT.map, pure,
    h]
  rfl

/-- A pattern that was read, one with that number of digits, and one whose number is not that of the operand. -/
theorem some_pair_val {β : Type} {o : Option (β × Nat)} {x : β} {n : Nat} [DecidableEq β]
    (h : decide (o = some ((o.getD (x, 0)).1, n)) = true) : o = some ((o.getD (x, 0)).1, n) := of_decide_eq_true h

theorem pattern_bad {o : Option (List Byte × Nat)} {n : Nat} (h : (match o with | some (_, d) => d != n | none => true) = true) :
    o = none ∨ ∃ pat digs, o = some (pat, digs) ∧ digs ≠ n := by
  cases o with
  | none => exact .inl rfl
  | some x => exact .inr ⟨x.1, x.2, rfl, by simpa using h⟩

/-- A pattern that was read. -/
theorem yields_some {m : M (Option (List Byte × Nat))} {p : Pkg}
    (h : (match (m.run.run p).1 with | .ok (some _) => true | _ => false) = true) :
    Yields m p (some (((yielded m p none).getD ([], 0)).1, ((yielded m p none).getD ([], 0)).2)) (left m p) := by
  unfold Yields yielded left
  generalize m.run.run p = r at *
  obtain ⟨e, q⟩ := r
  cases e with
  | error => simp_all
  | ok x => cases x <;> simp_all

/-- No privilege fault was seen at decoding. -/
theorem early_ok {c : Core} {o : Option Spec} {f : Nat → Option Trap} {p : Pkg} (h : finishes (earlyPriv c o f) p = true) :
    Yields (earlyPriv c o f) p () p := by
  unfold Yields finishes earlyPriv at *
  generalize o.bind (earlyVal c) = b at *
  cases b with
  | none => rfl
  | some v =>
    simp only at h ⊢
    generalize Option.filter _ (f v) = t at *
    cases t with
    | none => rfl
    | some t => exact absurd h (by simp [raise, trap, throw, throwThe, MonadExceptOf.throw, ExceptT.run, ExceptT.mk, StateT.run, pure, StateT.pure])

theorem wb_yes {a : Rand} {m : M Nat} {p : Pkg} (h : (!isWb a || finishes m p) = true) :
    isWb a = true → Yields m p (yielded m p 0) (if isWb a then left m p else p) := by
  intro hw
  simp only [hw, Bool.not_true, Bool.false_or] at h
  simp only [hw, if_true]
  exact yields 0 h

theorem wb_no {a : Rand} {q p : Pkg} : isWb a = false → (if isWb a then q else p) = p := by
  intro hw; simp [hw]

/-- Where an operand is. -/
def memOf (a : Rand) : Nat := match a.loc with | .mem v => v | _ => 0
def regOf (a : Rand) : Nat × Word := match a.loc with | .reg k v => (k, v) | _ => (0, 0)

theorem in_mem {a : Rand} (h : (match a.loc with | .mem _ => true | _ => false) = true) : a.loc = .mem (memOf a) := by
  unfold memOf; cases h2 : a.loc <;> simp_all

theorem in_reg {a : Rand} (h : (match a.loc with | .reg _ _ => true | _ => false) = true) :
    a.loc = .reg (regOf a).1 (regOf a).2 := by
  unfold regOf; cases h2 : a.loc <;> simp_all

theorem some_getD {α : Type} {o : Option α} (x : α) (h : o.isSome = true) : o = some (o.getD x) := by
  cases o <;> simp_all

theorem some_pair_getD {α β : Type} {o : Option (α × β)} (x : α × β) (h : o.isSome = true) :
    o = some ((o.getD x).1, (o.getD x).2) := by
  cases o <;> simp_all

theorem is_none {α : Type} {o : Option α} (h : o.isNone = true) : o = none := by cases o <;> simp_all

def okOf {α ε : Type} (x : Except ε α) (y : α) : α := match x with | .ok a => a | .error _ => y

theorem ok_of {α ε : Type} {x : Except ε α} (y : α) (h : (match x with | .ok _ => true | .error _ => false) = true) :
    x = .ok (okOf x y) := by
  cases x <;> simp_all [okOf]

theorem list_two {α : Type} {l : List α} (x : α) (h : l.length = 2) : l = [l.getD 0 x, l.getD 1 x] := by
  match l with | [_, _] => simp | [] | [_] | _ :: _ :: _ :: _ => simp at h

/-- An instruction whose bytes core 17 fetches begins. -/
def canBegin (s : State) (f : Fetch) : Bool :=
  let d := decodedOf f
  s.pkg.coreReady s.mode 17 && (s.pkg.core 17).failed.isEmpty &&
    (match decodePelmund f.code with | .ok _ => true | .error _ => false) &&
    !(s.pkg.core 17).mustWait d.order && (!d.space || (s.pkg.core 17).pl != 0) &&
    finishes (fetchBytes (envOf s 17 d).x s.mode (s.pkg.core 17).ip.toNat d.len) (s.pkg.beginInstr 17 d.order)

theorem begins {s : State} {f : Fetch} (h : canBegin s f = true) : Begins s 17 f (decodedOf f) (begun s f) := by
  simp only [canBegin, Bool.and_eq_true, List.isEmpty_iff, Bool.or_eq_true, Bool.not_eq_true', bne_iff_ne] at h
  obtain ⟨⟨⟨⟨⟨h1, h2⟩, h3⟩, h4⟩, h5⟩, h6⟩ := h
  refine ⟨h1, fun _ => h2, ?_, h4, fun ho => ?_, yields () h6⟩
  · unfold decodedOf
    generalize decodePelmund f.code = r at h3 ⊢
    cases r with
    | ok _ => rfl
    | error _ => exact absurd h3 (by simp)
  · exact h5.resolve_left (by simp [ho])

end Sys2Proof.Machine
end

