-- ==== Sys2Proof/Tests/Commands.lean ====
section
/-! SUPPORT. Witnesses for the statements about the other commands: for each clause with hypotheses, a state and operands that
meet them together. -/

set_option maxRecDepth 100000
set_option Elab.async false

namespace Sys2Proof.Machine

theorem witness_ModeCommandsAreJudged_1 : ∃ (s : State) (e : Instr × Mode), e ∈ modeRows .host ∧ s.pkg.commands .host
    pgSTW = true ∧ s.mode.pcs = false ∧ s.pkg.stwBusy s.mode = false ∧ s.pkg.modeReady s.mode.mode e.2 = true :=
  ⟨inMode runState .run, (.modecmdQuiesce .host, .quiesce), by decide +kernel⟩

theorem witness_ModeCommandsAreJudged_2 : ∃ (s : State) (e : Instr × Mode), e ∈ modeRows .host ∧ s.pkg.commands .host
    pgSTW = true ∧ (s.mode.pcs = true ∨ s.pkg.stwBusy s.mode = true ∨ s.pkg.modeReady s.mode.mode e.2 = false) :=
  ⟨inMode runState .service, (.modecmdRun .host, .run), by decide +kernel⟩

theorem witness_ModeCommandsAreJudged_3 : ∃ (s : State) (who : Requester) (e : Instr × Mode), who ≠ .host ∧ e ∈ modeRows
    who ∧ s.pkg.commands who pgSTW = true :=
  ⟨runState, .core 0, (.modecmdRun (.core 0), .run), by decide +kernel⟩

theorem witness_TransitionsComplete_1 : ∃ (s : State) (tr : Trans), s.mode.trans = some tr ∧ tr.done = true :=
  ⟨{ runState with mode := { runState.mode with trans := some { target := .quiesce, origin := 1, done := true } } },
    ({ target := .quiesce, origin := 1, done := true } : Trans), by decide +kernel⟩

theorem witness_TransitionsComplete_2 : ∃ (s : State), (∀ tr, s.mode.trans = some tr → tr.done = false) :=
  ⟨{ State.reset with mode := { State.reset.mode with trans := some { target := .load, origin := 1, done := false } } },
    opt_all (by decide +kernel)⟩

theorem witness_TransitionsComplete_3 : ∃ (s : State), s.mode.drain ≠ none ∧ agentsStopped s.pkg :=
  ⟨{ runState with mode := { runState.mode with drain := some 3 } }, by unfold agentsStopped; decide +kernel⟩

theorem witness_TransitionsComplete_4 : ∃ (s : State), (s.mode.drain = none ∨ ¬ agentsStopped s.pkg) :=
  ⟨{ runState with mode := { runState.mode with drain := none } }, by unfold agentsStopped; decide +kernel⟩

theorem witness_TransitionsComplete_5 : ∃ (s : State) (n : Nat), s.mode.drain = some n ∧ drainFrames s.pkg ≤ n :=
  ⟨{ runState with mode := { runState.mode with drain := some 200 } }, 200, by decide +kernel⟩

theorem witness_TransitionsComplete_6 : ∃ (s : State), (∀ n, s.mode.drain = some n → n < drainFrames s.pkg) :=
  ⟨{ runState with mode := { runState.mode with drain := some 124 } }, opt_all (by decide +kernel)⟩

theorem witness_TransitionsComplete_7 : ∃ (s : State), (s.mode.mode = .run ∨ s.mode.mode = .degraded) ∧ s.mode.trans =
    none ∧ s.pkg.stw.modeCmd = none ∧ s.pkg.cf pgHPWR 0x408 24 24 = 1 ∧ autoFrames s.pkg ≤ s.pkg.pw.idleFr :=
  ⟨onPkg (withCfg runState pgHPWR [(0x408, 2 ^ 24)]) (fun p => { p with pw := { p.pw with idleFr := 60000 } }),
    by decide +kernel⟩

theorem witness_FrameTickEvaluatesTheMode_1 : ∃ (s : State), s.mode.mode ≠ .off :=
  ⟨runState, by decide +kernel⟩

theorem witness_FrameTickEvaluatesTheMode_3 : ∃ (s : State), s.mode.mode = .off :=
  ⟨inMode State.reset .off, by decide +kernel⟩

theorem witness_PowerGoodAndPackageReset_1 : ∃ (s : State), s.mode.mode = .off :=
  ⟨inMode State.reset .off, by decide +kernel⟩

theorem witness_PowerGoodAndPackageReset_2 : ∃ (s : State), s.mode.mode ≠ .off :=
  ⟨runState, by decide +kernel⟩

theorem witness_PowerGoodAndPackageReset_3 : ∃ (s : State) (c : Instr), (c = .pkgReset ∨ c = .refclkLoss) ∧ s.mode.mode ≠
    .off :=
  ⟨runState, .pkgReset, by decide +kernel⟩

theorem witness_PartitionCommandsAreJudgedAtOnce_1 : ∃ (s : State) (who : Requester) (pid : Pid), s.pkg.commands who pgSTW
    = true ∧ pcmdMode s.mode.mode = true ∧ pid.val ≠ 0 ∧ s.pkg.rf pgSTW 0xC48 51 12 * 4096 < hbmSize ∧ (s.pkg.part
    pid.val).st = .free :=
  ⟨runState, .host, 5, by decide +kernel⟩

theorem witness_PartitionCommandsAreJudgedAtOnce_2 : ∃ (s : State) (who : Requester) (pid : Pid) (lc : Lc), s.pkg.commands
    who pgSTW = true ∧ pcmdMode s.mode.mode = true ∧ (s.pkg.part pid.val).st = .defined ∧ s.pkg.mapped lc.val = true ∧ (∀
    q, s.pkg.pidOf lc.val = some q → (s.pkg.part q).st ≠ .checkstopped) :=
  ⟨onPkg runState (fun p => p.setPart 5 { Partition.reset with st := .defined }), .steward, 5, 7, by decide +kernel,
    by decide +kernel, by decide +kernel, by decide +kernel, opt_all (by decide +kernel)⟩

theorem witness_PartitionCommandsAreJudgedAtOnce_3 : ∃ (s : State) (who : Requester) (lc : Lc) (q : Nat), s.pkg.commands
    who pgSTW = true ∧ pcmdMode s.mode.mode = true ∧ s.pkg.pidOf lc.val = some q ∧ (s.pkg.part q).st ≠ .checkstopped :=
  ⟨runState, .core 0, 215, 0, by decide +kernel⟩

theorem witness_PartitionCommandsAreJudgedAtOnce_4 : ∃ (s : State) (who : Requester) (pid : Pid), s.pkg.commands who pgSTW
    = true ∧ pcmdMode s.mode.mode = true ∧ pid.val ≠ 0 ∧ (s.pkg.part pid.val).st = .checkstopped ∧ (s.pkg.part
    pid.val).logged = true :=
  ⟨onPkg runState (fun p => p.setPart 5 { Partition.reset with st := .checkstopped, logged := true }), .host, 5,
    by decide +kernel⟩

theorem witness_PartitionCommandsAreJudgedAtOnce_5 : ∃ (s : State) (who : Requester) (pid : Pid), s.pkg.commands who pgSTW
    = true ∧ pcmdMode s.mode.mode = true ∧ pid.val ≠ 0 ∧ (s.pkg.part pid.val).st = .defined ∧ s.pkg.hasCores pid.val =
    false ∧ (s.pkg.part pid.val).gen < 0xFFFF :=
  ⟨onPkg runState (fun p => p.setPart 127 { Partition.reset with st := .defined }), .host, 127, by decide +kernel⟩

theorem witness_PartitionCommandsAreJudgedAtOnce_6 : ∃ (s : State) (who : Requester) (pid : Pid), s.pkg.commands who pgSTW
    = true ∧ pcmdMode s.mode.mode = true ∧ s.pkg.rekeyOk s.mode.mode pid.val = true ∧ ((s.pkg.part pid.val).st =
    .checkstopped ∨ ((s.pkg.part pid.val).st = .defined ∧ s.pkg.hasCores pid.val = false)) :=
  ⟨onPkg (withRegs runState [(pgKEYV, 0x200, 3)]) (fun p => p.setPart 5
    { Partition.reset with st := .checkstopped, logged := true }), .host, 5, by decide +kernel⟩

theorem witness_PartitionCommandsAreJudgedAtOnce_7 : ∃ (s : State) (who : Requester), s.pkg.commands who pgSTW = true ∧
    pcmdMode s.mode.mode = true ∧ hbmSize ≤ s.pkg.rf pgSTW 0xC48 51 12 * 4096 :=
  ⟨withRegs runState [(pgSTW, 0xC48, 2 ^ 51)], .host, by decide +kernel⟩

theorem witness_PartitionCommandsAreJudgedAtOnce_8 : ∃ (s : State) (who : Requester) (pid : Pid) (lc : Lc) (c : Instr),
    s.pkg.commands who pgSTW = true ∧ (pcmdMode s.mode.mode = false ∨ ¬ pcmdAllowed s.pkg s.mode.mode c) ∧ (pcmdMode
    s.mode.mode = true → s.pkg.rf pgSTW 0xC48 51 12 * 4096 < hbmSize) ∧ c ∈ [Instr.define who pid, .assign who pid lc,
    .unassign who lc, .restart who pid, .release who pid, .pcmdRekey who pid] :=
  ⟨inMode runState .test, .host, 5, 3, .restart .host 5, by decide +kernel, Or.inl (by decide +kernel), by decide +kernel,
    by decide +kernel⟩

theorem witness_RecordedAssignmentsTakeEffect_1 : ∃ (s : State) (lc : Lc) (pid o : Nat), tblGet (fun _ => none)
    s.pkg.stw.assigns lc.val = some (pid, o) ∧ s.pkg.isRipe .assign lc.val = true ∧ pid < 128 ∧ s.pkg.mapped lc.val = true
    ∧ (s.pkg.part pid).st = .defined ∧ (s.pkg.core lc.val).run = .idle ∧ s.pkg.pidOf lc.val = none ∧ tblGet (fun _ =>
    none) s.pkg.stw.held lc.val = none :=
  ⟨ripen (withStw (onPkg runState (fun p => (p.setPart 5 { Partition.reset with st := .defined, vec := 4096 }).setLcpid 7
    0x80)) (fun x => { x with assigns := [(7, some (5, 1))] })) [(0, 7)], 7, 5, 1, by decide +kernel⟩

theorem witness_RecordedAssignmentsTakeEffect_2 : ∃ (s : State) (lc : Lc) (pid o q : Nat), tblGet (fun _ => none)
    s.pkg.stw.assigns lc.val = some (pid, o) ∧ s.pkg.isRipe .assign lc.val = true ∧ pid < 128 ∧ s.pkg.mapped lc.val = true
    ∧ (s.pkg.part pid).st = .defined ∧ (s.pkg.core lc.val).run = .executing ∧ (s.pkg.core lc.val).pl = 2 ∧ s.pkg.pidOf
    lc.val = some q ∧ dieShares s.pkg lc.val q ∧ tblGet (fun _ => none) s.pkg.stw.held lc.val = none :=
  ⟨ripen (withStw (onPkg runState (fun p => (p.setPart 5 { Partition.reset with st := .defined, vec := 4096 }).setCore 7
    { p.core 7 with run := .executing, psw := pswReset })) (fun x => { x with assigns := [(7, some (5, 1))] })) [(0, 7)],
    7, 5, 1, 0, by unfold dieShares; decide +kernel⟩

theorem witness_RecordedAssignmentsTakeEffect_3 : ∃ (s : State) (lc : Lc) (o : Nat), tblGet (fun _ => none)
    s.pkg.stw.assigns lc.val = some (0x80, o) ∧ s.pkg.isRipe .assign lc.val = true ∧ s.pkg.mapped lc.val = true ∧
    (s.pkg.core lc.val).run = .idle ∧ tblGet (fun _ => none) s.pkg.stw.held lc.val = none :=
  ⟨ripen (withStw runState (fun x => { x with assigns := [(7, some (0x80, 1))] })) [(0, 7)], 7, 1, by decide +kernel⟩

theorem witness_RecordedAssignmentsTakeEffect_4 : ∃ (s : State) (lc : Lc) (o q : Nat), tblGet (fun _ => none)
    s.pkg.stw.assigns lc.val = some (0x80, o) ∧ s.pkg.isRipe .assign lc.val = true ∧ s.pkg.mapped lc.val = true ∧
    (s.pkg.core lc.val).run = .executing ∧ (s.pkg.core lc.val).pl = 2 ∧ s.pkg.pidOf lc.val = some q ∧ tblGet (fun _ =>
    none) s.pkg.stw.held lc.val = none :=
  ⟨ripen (withStw (onPkg runState (fun p => p.setCore 7 { p.core 7 with run := .executing, psw := pswReset })) (fun x =>
    { x with assigns := [(7, some (0x80, 1))] })) [(0, 7)], 7, 1, 0, by decide +kernel⟩

theorem witness_RecordedAssignmentsTakeEffect_5 : ∃ (s : State) (lc : Lc) (pid o : Nat), tblGet (fun _ => none)
    s.pkg.stw.assigns lc.val = some (pid, o) ∧ s.pkg.isRipe .assign lc.val = true ∧ (s.pkg.mapped lc.val = false ∨ (pid <
    128 ∧ (s.pkg.part pid).st ≠ .defined) ∨ ((s.pkg.core lc.val).run = .executing ∧ (s.pkg.core lc.val).pl ≠ 2 ∧ tblGet
    (fun _ => none) s.pkg.stw.held lc.val = none)) :=
  ⟨ripen (withStw (onPkg runState (fun p => p.setCmap 7 2 0)) (fun x => { x with assigns := [(7, some (0, 1))] })) [(0,
    7)], 7, 0, 1, by decide +kernel⟩

theorem witness_RecordedAssignmentsTakeEffect_6 : ∃ (s : State) (pid : Pid), (s.pkg.part pid.val).restart = true ∧
    s.pkg.isRipe .restart pid.val = true :=
  ⟨ripen (onPkg runState (fun p => (p.setPart 5
    { Partition.reset with st := .checkstopped, restart := true, vec := 4096 }).setLcpid 3 5)) [(1, 5)], 5,
    by decide +kernel⟩

theorem witness_RecordedAssignmentsTakeEffect_7 : ∃ (s : State) (pid : Pid) (o : Nat), (s.pkg.part pid.val).release = some
    o ∧ s.pkg.isRipe .release pid.val = true ∧ (s.pkg.part pid.val).st = .defined :=
  ⟨ripen (onPkg runState (fun p => p.setPart 5 { Partition.reset with st := .defined, release := some 1 })) [(2, 5)], 5,
    1, by decide +kernel⟩

theorem witness_SparesTakeOverLogicalCores_1 : ∃ (s : State) (reg : Fin 24) (i lc : Nat), pcmdMode s.mode.mode = true ∧
    s.pkg.dieUp (reg.val / 2) = true ∧ s.pkg.stw.moved.contains reg.val = false ∧ i / 10 = reg.val % 2 ∧ asksSpare s.pkg
    reg.val i ∧ (∀ j, j < i → j / 10 = reg.val % 2 → ¬ asksSpare s.pkg reg.val j) ∧ s.pkg.lcOfUnit (reg.val / 2) i = some
    lc ∧ s.pkg.spareEnt reg.val / 0x4000 = 1 ∧ (s.pkg.unit (reg.val / 2 * 20 + physIdx (s.pkg.cmapEnt lc % 512))).intact =
    true :=
  ⟨ripen (onPkg runState (fun p => (p.setSpare 0 1 9).setUnit 2 { PhysUnit.reset with hard := true, intact := true }))
    [(3, 2)], 0, 2, 2, by unfold asksSpare; decide +kernel⟩

theorem witness_SparesTakeOverLogicalCores_2 : ∃ (s : State) (reg : Fin 24), pcmdMode s.mode.mode = true ∧ s.pkg.dieUp
    (reg.val / 2) = true ∧ s.pkg.stw.moved.contains reg.val = false ∧ s.pkg.spareEnt reg.val / 0x4000 ≠ 1 ∧ (∀ i, i / 10 =
    reg.val % 2 → asksSpare s.pkg reg.val i → (s.pkg.unit (reg.val / 2 * 20 + i)).hard = false) :=
  ⟨ripen (onPkg runState (fun p => (p.setSpare 0 2 9).setUnit 2 { PhysUnit.reset with spareReq := true })) [(3, 2)], 0,
    by decide +kernel, by decide +kernel, by decide +kernel, by decide +kernel,
    by intro i hi ha; have hl : i < 10 := (by have h0 : i / 10 = 0 := hi; omega); clear hi ha; revert i; decide +kernel⟩

theorem witness_SparesTakeOverLogicalCores_3 : ∃ (s : State) (reg : Fin 24) (lc : Nat), (s.mode.mode = .run ∨ s.mode.mode
    = .degraded) ∧ s.pkg.dieUp (reg.val / 2) = true ∧ s.pkg.stw.moved.contains reg.val = false ∧ reg.val ∈
    s.pkg.stw.rotWait ∧ s.pkg.isRipe .rotate reg.val = true ∧ s.pkg.cf pgSTW 0x400 1 1 = 0 ∧ s.pkg.spareEnt reg.val /
    0x4000 = 1 ∧ (∀ i, i < 20 → (s.pkg.unit (reg.val / 2 * 20 + i)).hard = false ∧ (s.pkg.unit (reg.val / 2 * 20 +
    i)).spareReq = false) ∧ (s.pkg.oldest (reg.val / 2) (((List.range 10).map (fun k => reg.val % 2 * 10 + k)).filter (fun
    i => (s.pkg.lcOfUnit (reg.val / 2) i).isSome))).bind (fun i => s.pkg.lcOfUnit (reg.val / 2) i) = some lc ∧ (s.pkg.unit
    (reg.val / 2 * 20 + physIdx (s.pkg.cmapEnt lc % 512))).intact = true :=
  ⟨ripen (withStw (onPkg runState (fun p => p.setSpare 0 1 9)) (fun x => { x with rotWait := [0] })) [(4, 0)], 0, 0,
    by decide +kernel⟩

theorem witness_SparesTakeOverLogicalCores_4 : ∃ (s : State) (reg : Fin 24), (s.mode.mode = .run ∨ s.mode.mode =
    .degraded) ∧ s.pkg.dieUp (reg.val / 2) = true ∧ s.pkg.stw.moved.contains reg.val = false ∧ reg.val ∈ s.pkg.stw.rotWait
    ∧ s.pkg.isRipe .rotate reg.val = true ∧ s.pkg.cf pgSTW 0x400 1 1 = 0 ∧ s.pkg.spareEnt reg.val / 0x4000 ≠ 1 ∧ (∀ i, i <
    20 → (s.pkg.unit (reg.val / 2 * 20 + i)).hard = false ∧ (s.pkg.unit (reg.val / 2 * 20 + i)).spareReq = false) :=
  ⟨ripen (withStw (onPkg runState (fun p => p.setSpare 0 2 9)) (fun x => { x with rotWait := [0] })) [(4, 0)], 0,
    by decide +kernel⟩

theorem witness_SparesTakeOverLogicalCores_5 : ∃ (s : State) (reg : Fin 24) (lsig msig : Word), (s.mode.mode = .run ∨
    s.mode.mode = .degraded) ∧ s.pkg.dieUp (reg.val / 2) = true ∧ s.pkg.spareEnt reg.val / 0x4000 = 2 ∧ s.pkg.unitSigOk
    lsig msig = true :=
  ⟨onPkg runState (fun p => p.setSpare 0 2 12), 0, 1, 2, by decide +kernel⟩

theorem witness_SparesTakeOverLogicalCores_6 : ∃ (s : State) (reg : Fin 24), (s.mode.mode = .run ∨ s.mode.mode =
    .degraded) ∧ s.pkg.dieUp (reg.val / 2) = true ∧ s.pkg.spareEnt reg.val / 0x4000 = 2 :=
  ⟨onPkg runState (fun p => p.setSpare 0 2 12), 0, by decide +kernel⟩

theorem witness_LogsAreReadAndFailuresRaised_1 : ∃ (s : State) (who : Requester) (index : Fin 1024) (e : EvRec),
    s.pkg.commands who pgEVLOG = true ∧ s.pkg.stw.events.find? (fun e => e.seq % 1024 == index.val) = some e :=
  ⟨onPkg runState (fun p => p.logEvent 0x0B 0 none none pgSTW 5), .host, 1, ((runState.pkg.logEvent 0x0B 0 none none pgSTW
    5).stw.events.headD
    { seq := 0, code := 0, origin := 0, frame := 0, lc := none, pid := none, die := 0, block := 0, detail := 0 }),
    by decide +kernel⟩

theorem witness_LogsAreReadAndFailuresRaised_2 : ∃ (s : State) (who : Requester) (index : Fin 256) (r : List Word),
    s.pkg.commands who pgEVLOG = true ∧ s.pkg.stw.mcs.find? (fun r => (r.headD 0).toNat % 256 == index.val) = some r :=
  ⟨onPkg runState (fun p => { p with stw := { p.stw with mcs := [[1, 2, 3, 4, 5, 6, 7, 8]] } }), .host, 1, [1, 2, 3, 4, 5,
    6, 7, 8], by decide +kernel⟩

theorem witness_LogsAreReadAndFailuresRaised_3 : ∃ (s : State) (who : Requester) (v : Word), s.pkg.commands who pgSTW =
    true ∧ fld v 11 0 < s.pkg.mcRing :=
  ⟨runState, .host, 3, by decide +kernel⟩

theorem witness_LogsAreReadAndFailuresRaised_4 : ∃ (s : State) (who : Requester) (v : Word), s.pkg.commands who pgSTW =
    true ∧ s.pkg.mcRing ≤ fld v 11 0 :=
  ⟨runState, .host, 4095, by decide +kernel⟩

theorem witness_LogsAreReadAndFailuresRaised_5 : ∃ (s : State) (pg : PageId), pgOf pg ∈ s.pkg.stw.overruns :=
  ⟨onPkg runState (fun p => { p with stw := { p.stw with overruns := [pgMC 3] } }), ⟨12, 0x023⟩, by decide +kernel⟩

theorem witness_LogsAreReadAndFailuresRaised_6 : ∃ (s : State), s.pkg.stw.running = true :=
  ⟨onPkg runState (fun p => { p with stw := { p.stw with running := true } }), by decide +kernel⟩

theorem witness_LogsAreReadAndFailuresRaised_7 : ∃ (s : State) (pg : PageId), (blkOf (pgOf pg)).isSome = true ∧
    s.pkg.answers (pgOf pg) = true ∧ 49152 ≤ pgOf pg :=
  ⟨runState, ⟨12, 0x020⟩, by decide +kernel⟩

theorem witness_LogsAreReadAndFailuresRaised_8 : ∃ (s : State) (pg : PageId), (blkOf (pgOf pg)).isSome = true ∧
    s.pkg.answers (pgOf pg) = true ∧ pgOf pg < 49152 :=
  ⟨runState, ⟨3, 0x008⟩, by decide +kernel⟩

theorem witness_LogsAreReadAndFailuresRaised_9 : ∃ (s : State) (d : Die) (i : Fin 20), s.pkg.dieUp d.val = true ∧
    (s.pkg.lcOfUnit d.val i.val).isSome = true :=
  ⟨runState, 3, 12, by decide +kernel⟩

theorem witness_LogsAreReadAndFailuresRaised_10 : ∃ (s : State) (d : Die) (i : Fin 20), s.pkg.dieUp d.val = true ∧
    (s.pkg.lcOfUnit d.val i.val).isSome = true ∧ bit (s.pkg.reg (pgL1D d.val i.val) 0x030) 16 = false :=
  ⟨runState, 3, 12, by decide +kernel⟩

theorem witness_LogsAreReadAndFailuresRaised_11 : ∃ (s : State) (k : Fin 36), k.val < 2 ∧ (if k.val = 1 then
    s.pkg.pw.island else s.pkg.pw.hubMain) = true ∧ bit (s.pkg.reg pgHCLK 0x208) k.val = false :=
  ⟨runState, 1, by decide +kernel⟩

theorem witness_DieFenceReadmitAdmit_1 : ∃ (s : State) (who : Requester) (d : Die), fenceCmdReady s who d ∧ s.pkg.mpState
    d.val ≠ 5 ∧ s.pkg.mpState d.val ≠ 0 ∧ s.pkg.dieFenced d.val = false ∧ (s.pkg.busy (pgMP d.val) = false ∨ 2 + d.val ∈
    s.pkg.boot.readmits) :=
  ⟨withRegs runState [(pgMP 3, 0x020, 0x100), (pgMP 3, 0x200, 2)], .host, 3, by unfold fenceCmdReady; decide +kernel⟩

theorem witness_DieFenceReadmitAdmit_2 : ∃ (s : State) (who : Requester) (d : Die), fenceCmdReady s who d ∧ (s.pkg.mpState
    d.val = 5 ∨ s.pkg.mpState d.val = 0 ∨ (s.pkg.busy (pgMP d.val) = true ∧ 2 + d.val ∉ s.pkg.boot.readmits)) :=
  ⟨withRegs runState [(pgMP 3, 0x020, 0x100), (pgMP 3, 0x200, 5)], .host, 3, by unfold fenceCmdReady; decide +kernel⟩

theorem witness_DieFenceReadmitAdmit_3 : ∃ (s : State) (who : Requester) (d : Die), fenceCmdReady s who d ∧ s.pkg.busy
    (pgMP d.val) = false ∧ s.pkg.mpState d.val = 5 ∧ readmitMode s ∧ (∀ n, n < 16 → s.pkg.fenceVec n / 2 ^ d.val % 2 = 0)
    :=
  ⟨withRegs runState [(pgMP 3, 0x020, 0x100), (pgMP 3, 0x200, 5)], .host, 3,
    by unfold readmitMode fenceCmdReady; decide +kernel⟩

theorem witness_DieFenceReadmitAdmit_4 : ∃ (s : State) (who : Requester) (d : Die), fenceCmdReady s who d ∧ (s.pkg.busy
    (pgMP d.val) = true ∨ s.pkg.mpState d.val ≠ 5 ∨ ¬ readmitMode s ∨ (∃ n, n < 16 ∧ s.pkg.fenceVec n / 2 ^ d.val % 2 =
    1)) :=
  ⟨withRegs runState [(pgMP 3, 0x020, 0x100), (pgMP 3, 0x200, 2)], .host, 3,
    by unfold readmitMode fenceCmdReady; decide +kernel⟩

theorem witness_DieFenceReadmitAdmit_5 : ∃ (s : State) (who : Requester) (d : Die), fenceCmdReady s who d ∧ s.pkg.busy
    (pgMP d.val) = false ∧ (s.pkg.link d.val).ready = true ∧ s.pkg.dieState d.val = 1 ∧ s.pkg.dieAdopted d.val = true :=
  ⟨withLink (activePages (onPkg runState (fun p => { p with dieSt := tblSet (fun _ => 0) p.dieSt 3 1 })) (pgMP 3 ::
    (List.range 62).map (· + 3 * 4096))) 3 (fun x => { x with ready := true }), .host, 3,
    by unfold fenceCmdReady; decide +kernel⟩

theorem witness_DieFenceReadmitAdmit_6 : ∃ (s : State) (who : Requester) (d : Die), fenceCmdReady s who d ∧ (s.pkg.busy
    (pgMP d.val) = true ∨ (s.pkg.link d.val).ready = false ∨ s.pkg.dieState d.val ≠ 1 ∨ s.pkg.dieAdopted d.val = false) :=
  ⟨withRegs runState [(pgMP 3, 0x020, 0x100), (pgMP 3, 0x200, 2)], .host, 3, by unfold fenceCmdReady; decide +kernel⟩

theorem witness_DieFenceReadmitAdmit_7 : ∃ (s : State) (who : Requester) (d : Die) (c : Instr), s.pkg.commands who (pgMP
    d.val) = true ∧ fenceBy who = false ∧ c ∈ [Instr.fence who d, .readmit who d, .admitDie who d] :=
  ⟨runState, .core 0, 3, .admitDie (.core 0) 3, by decide +kernel⟩

theorem witness_DieFenceReadmitAdmit_8 : ∃ (s : State) (d : Die), 2 + d.val ∈ s.pkg.boot.readmits ∧ s.pkg.mpState d.val =
    2 ∧ s.pkg.rf (pgBIST d.val) 0x200 3 0 = 3 :=
  ⟨withBoot (withRegs runState [(pgMP 3, 0x200, 2), (pgBIST 3, 0x200, 3)]) (fun b => { b with readmits := [5] }), 3,
    by decide +kernel⟩

theorem witness_DieFenceReadmitAdmit_9 : ∃ (s : State) (d : Die), 2 + d.val ∈ s.pkg.boot.readmits ∧ (s.pkg.rf (pgBIST
    d.val) 0x200 3 0 = 4 ∨ (s.pkg.retryMax (2 + d.val) ≤ s.pkg.attempts (2 + d.val) ∧ 2 + d.val ∉ s.pkg.boot.training ∧
    s.pkg.mpState d.val = 0)) :=
  ⟨withBoot (withRegs runState [(pgMP 3, 0x200, 2), (pgBIST 3, 0x200, 4)]) (fun b => { b with readmits := [5] }), 3,
    by decide +kernel⟩

theorem witness_DieFenceReadmitAdmit_10 : ∃ (s : State) (d : Die), (s.pkg.link d.val).admitted = true ∧ s.pkg.isRipe
    .admission d.val = true :=
  ⟨ripen (withLink runState 3 (fun x => { x with admitted := true, ready := true })) [(5, 3)], 3, by decide +kernel⟩

theorem witness_DieFenceReadmitAdmit_11 : ∃ (s : State) (d : Die), s.pkg.dieFenced d.val = true ∧ (s.pkg.link
    d.val).railOff = true ∧ s.pkg.isRipe .rail d.val = true ∧ (∀ n, n < 16 → s.pkg.fenceVec n / 2 ^ d.val % 2 = 0) :=
  ⟨ripen (withLink (onPkg runState (fun p => { p with dieSt := tblSet (fun _ => 0) p.dieSt 3 4 })) 3 (fun x =>
    { x with railOff := true })) [(6, 3)], 3, by decide +kernel⟩

theorem witness_DieFenceReadmitAdmit_12 : ∃ (s : State) (d : Die), tblGet (fun _ => 0) s.pkg.stw.autoReadmit d.val = 1 ∧
    s.pkg.cf pgSTW 0x400 4 4 = 0 ∧ s.pkg.dieFenced d.val = true ∧ s.pkg.loadHold (pgMP d.val) = false ∧ s.pkg.busy (pgMP
    d.val) = false ∧ s.pkg.mpState d.val = 5 ∧ readmitMode s ∧ (∀ n, n < 16 → s.pkg.fenceVec n / 2 ^ d.val % 2 = 0) :=
  ⟨withRegs (onPkg runState (fun p =>
    { p with dieSt := tblSet (fun _ => 0) p.dieSt 3 4, stw := { p.stw with autoReadmit := [(3, 1)] } })) [(pgMP 3, 0x020,
    0x100), (pgMP 3, 0x200, 5)], 3, by unfold readmitMode; decide +kernel⟩

theorem witness_FlitsAreAcceptedInOrder_1 : ∃ (s : State) (e : FlitEnd) (f : BitVec 256) (c : Instr), flitInOrder s e f ∧
    c ∈ flitRows e f :=
  ⟨withRegs runState [(pgMP 11, 0x200, 2)], .mocor 11 true, testFlit 0 0 12345, .mocorDataFlit (.mocor 11 true) (testFlit
    0 0 12345), by unfold flitInOrder flitIntact; decide +kernel⟩

theorem witness_FlitsAreAcceptedInOrder_2 : ∃ (s : State) (d : Die) (f : BitVec 256), flitInOrder s (.mocor d true) f ∧
    flitFld f 218 216 = 3 :=
  ⟨withRegs runState [(pgMP 11, 0x200, 2)], 11, testFlit 3 0 777, by unfold flitInOrder flitIntact; decide +kernel⟩

theorem witness_FlitsAreAcceptedInOrder_3 : ∃ (s : State) (d : Die) (h : Bool) (f : BitVec 256), flitInOrder s (.mocor d
    h) f ∧ flitFld f 218 216 = 4 :=
  ⟨withRegs runState [(pgMP 11, 0x200, 2)], 11, false, testFlit 4 0 5, by unfold flitInOrder flitIntact; decide +kernel⟩

theorem witness_FlitsAreAcceptedInOrder_4 : ∃ (s : State) (down : Bool) (f : BitVec 256), flitInOrder s (.chain down) f ∧
    flitFld f 218 216 = 4 :=
  ⟨withRegs runState [(pgCH true, 0x200, 2)], true, testFlit 4 0 5, by unfold flitInOrder flitIntact; decide +kernel⟩

theorem witness_FlitsAreAcceptedInOrder_5 : ∃ (s : State) (d : Die) (f : BitVec 256), flitInOrder s (.mocor d false) f ∧
    flitFld f 218 216 = 5 ∧ s.pkg.rf (pgMOCOR d.val) 0x200 3 0 = 4 :=
  ⟨withRegs runState [(pgMP 11, 0x200, 4), (pgMOCOR 11, 0x200, 4)], 11, testFlit 5 0 5,
    by unfold flitInOrder flitIntact; decide +kernel⟩

theorem witness_FlitsAreAcceptedInOrder_6 : ∃ (s : State) (down : Bool) (f : BitVec 256), flitInOrder s (.chain down) f ∧
    flitFld f 218 216 = 5 ∧ s.pkg.chState down = 3 :=
  ⟨withRegs runState [(pgCH true, 0x200, 3)], true, testFlit 5 0 5, by unfold flitInOrder flitIntact; decide +kernel⟩

theorem witness_FlitsAreAcceptedInOrder_7 : ∃ (s : State) (d : Die) (h : Bool) (f : BitVec 256), flitInOrder s (.mocor d
    h) f ∧ flitFld f 218 216 = 0 :=
  ⟨withRegs runState [(pgMP 11, 0x200, 2)], 11, true, testFlit 0 0 12345,
    by unfold flitInOrder flitIntact; decide +kernel⟩

theorem witness_FlitsAreAcceptedInOrder_8 : ∃ (s : State) (e : FlitEnd) (f : BitVec 256) (c : Instr), s.pkg.endRuns e =
    true ∧ ¬ flitIntact s e f ∧ c ∈ flitRows e f :=
  ⟨withRegs runState [(pgMP 11, 0x200, 2)], .mocor 11 true, 1, .mark (.mocor 11 true) 1,
    by unfold flitIntact; decide +kernel⟩

theorem witness_FlitsAreAcceptedInOrder_9 : ∃ (s : State) (e : FlitEnd) (f : BitVec 256) (c : Instr), flitIntact s e f ∧
    flitFld f 239 230 ≠ ((s.pkg.flitEnd e).seq + 1) % 1024 ∧ c ∈ flitRows e f :=
  ⟨withRegs runState [(pgMP 11, 0x200, 2)], .mocor 11 true, testFlit 0 1023 12345, .idle (.mocor 11 true) (testFlit 0 1023
    12345), by unfold flitIntact; decide +kernel⟩

theorem witness_FlitsAreAcceptedInOrder_10 : ∃ (s : State) (e : FlitEnd) (f : BitVec 256) (c : Instr), s.pkg.endRuns e =
    false ∧ c ∈ flitRows e f :=
  ⟨runState, .mocor 11 true, 1, .mark (.mocor 11 true) 1, by decide +kernel⟩

theorem witness_LinkFaultsStallRepairOrFence_1 : ∃ (s : State) (d : Die) (h : Bool), 8 ≤ (s.pkg.flitEnd (.mocor d h)).naks
    ∧ s.pkg.mpState d.val = 2 :=
  ⟨withLink (withRegs runState [(pgMP 3, 0x200, 2)]) 3 (fun x => { x with hub := { x.hub with naks := 8 } }), 3, true,
    by decide +kernel⟩

theorem witness_LinkFaultsStallRepairOrFence_2 : ∃ (s : State) (down : Bool), 8 ≤ (s.pkg.flitEnd (.chain down)).naks ∧
    s.pkg.chState down = 2 :=
  ⟨onPkg (withRegs runState [(pgCH true, 0x200, 2)]) (fun p => p.setChPort true
    { p.chPort true with lanes := { (p.chPort true).lanes with naks := 8 } }), true, by decide +kernel⟩

theorem witness_LinkFaultsStallRepairOrFence_3 : ∃ (s : State) (e : FlitEnd), (s.pkg.flitEnd e).naks < 8 :=
  ⟨runState, .chain false, by decide +kernel⟩

theorem witness_LinkFaultsStallRepairOrFence_4 : ∃ (s : State) (e : FlitEnd), s.pkg.marginOn s.mode e = true :=
  ⟨withRegs runState [(pgCH true, 0x200, 2), (pgCH true, 0x020, 0x100)], .chain true, by decide +kernel⟩

theorem witness_LinkFaultsStallRepairOrFence_5 : ∃ (s : State) (e : FlitEnd), s.pkg.marginOn s.mode e = false :=
  ⟨runState, .chain true, by decide +kernel⟩

theorem witness_LinkFaultsStallRepairOrFence_6 : ∃ (s : State) (d : Die) (n : Nat), (s.pkg.link d.val).paused = some (n +
    1) ∧ (s.pkg.link d.val).stalled = false ∧ (s.pkg.link d.val).hub.failing = [] ∧ (s.pkg.link d.val).die.failing = [] ∧
    s.pkg.wantsIsolation d.val true = false ∧ s.pkg.wantsIsolation d.val false = false ∧ s.pkg.rf (pgMP d.val) 0x200 15 14
    ≠ 3 ∧ s.pkg.rf (pgMOCOR d.val) 0x200 15 14 ≠ 3 :=
  ⟨withLink (withRegs runState [(pgMP 3, 0x200, 4), (pgMOCOR 3, 0x200, 4)]) 3 (fun x => { x with paused := some 1 }), 3,
    0, by decide +kernel⟩

theorem witness_LinkFaultsStallRepairOrFence_7 : ∃ (s : State) (d : Die) (n : Nat), (s.pkg.link d.val).paused = some (n +
    1) :=
  ⟨withLink (withRegs runState [(pgMP 3, 0x200, 4), (pgMOCOR 3, 0x200, 4)]) 3 (fun x => { x with paused := some 1 }), 3,
    0, by decide +kernel⟩

theorem witness_LinkFaultsStallRepairOrFence_8 : ∃ (s : State) (down : Bool) (n : Nat), (s.pkg.chPort down).paused = some
    (n + 1) ∧ s.pkg.chUp down = true :=
  ⟨onPkg (withRegs runState [(pgCH true, 0x200, 3)]) (fun p => p.setChPort true { p.chPort true with paused := some 1 }),
    true, 0, by decide +kernel⟩

theorem witness_LinkFaultsStallRepairOrFence_9 : ∃ (s : State) (d : Die) (n : Nat), (s.pkg.link d.val).paused = some n ∧ 2
    ≤ n :=
  ⟨withLink (withRegs runState [(pgMP 3, 0x200, 4)]) 3 (fun x => { x with paused := some 2 }), 3, 2, by decide +kernel⟩

theorem witness_LinkFaultsStallRepairOrFence_10 : ∃ (s : State) (down : Bool) (n : Nat), (s.pkg.chPort down).paused = some
    n ∧ 2 ≤ n :=
  ⟨onPkg (withRegs runState [(pgCH true, 0x200, 3)]) (fun p => p.setChPort true { p.chPort true with paused := some 2 }),
    true, 2, by decide +kernel⟩

theorem witness_LinkFaultsStallRepairOrFence_11 : ∃ (s : State) (d : Die), s.pkg.linkRuns d.val = true ∧ s.pkg.dieFenced
    d.val = false :=
  ⟨withRegs runState [(pgMP 3, 0x200, 2)], 3, by decide +kernel⟩

theorem witness_LinkFaultsStallRepairOrFence_12 : ∃ (s : State) (d : Die), s.pkg.dieUp d.val = true :=
  ⟨runState, 3, by decide +kernel⟩

theorem witness_LinkFaultsStallRepairOrFence_13 : ∃ (s : State) (d : Die), s.pkg.wdogOn d.val = true ∧ s.pkg.rf (pgWDOG
    d.val) 0x200 32 32 = 0 ∧ (if s.pkg.cf (pgWDOG d.val) 0x400 7 0 = 0 then 4 else s.pkg.cf (pgWDOG d.val) 0x400 7 0) ≤
    s.pkg.rf (pgWDOG d.val) 0x200 47 40 :=
  ⟨withRegs runState [(pgWDOG 3, 0x020, 0x100), (pgWDOG 3, 0x200, 4 * 2 ^ 40)], 3, by decide +kernel⟩

theorem witness_LinkFaultsStallRepairOrFence_14 : ∃ (s : State) (d : Die) (i : Fin 20), s.pkg.wdogOn d.val = true ∧
    s.pkg.rf (pgCLU d.val (i.val / 5)) 0x200 (i.val % 5 * 4 + 3) (i.val % 5 * 4) = 1 ∧ (if s.pkg.cf (pgWDOG d.val) 0x400
    31 16 = 0 then 1250 else s.pkg.cf (pgWDOG d.val) 0x400 31 16) ≤ (s.pkg.unit (d.val * 20 + i.val)).watch :=
  ⟨onPkg (withRegs runState [(pgWDOG 3, 0x020, 0x100), (pgCLU 3 2, 0x200, 256)]) (fun p => p.setUnit 72
    { PhysUnit.reset with watch := 1250 }), 3, 12, by decide +kernel⟩

theorem witness_BringUpTrainsAndExcludes_1 : ∃ (s : State) (k : Fin 2), 24 + k.val ∈ s.pkg.boot.training :=
  ⟨withBoot (inMode State.reset .load) (fun b => { b with training := [24, 25] }), 1, by decide +kernel⟩

theorem witness_BringUpTrainsAndExcludes_2 : ∃ (s : State) (k : Fin 8), 14 + k.val ∈ s.pkg.boot.training :=
  ⟨withBoot (inMode State.reset .load) (fun b => { b with training := [24, 21] }), 7, by decide +kernel⟩

theorem witness_BringUpTrainsAndExcludes_3 : ∃ (s : State) (g : Fin 2), 22 + g.val ∈ s.pkg.boot.training ∧ (s.pkg.guest
    g.val).retrain = false :=
  ⟨withBoot (inMode State.reset .load) (fun b => { b with training := [23] }), 1, by decide +kernel⟩

theorem witness_BringUpTrainsAndExcludes_4 : ∃ (s : State) (d : Die), 2 + d.val ∈ s.pkg.boot.training ∧ s.mode.mode =
    .load :=
  ⟨withBoot (inMode State.reset .load) (fun b => { b with training := [13] }), 11, by decide +kernel⟩

theorem witness_BringUpTrainsAndExcludes_5 : ∃ (s : State) (down : Bool) (n : Nat), partNum (.chain down) ∈
    s.pkg.boot.training ∧ n < 65536 :=
  ⟨withBoot (inMode State.reset .load) (fun b => { b with training := [1] }), true, 65535, by decide +kernel⟩

theorem witness_BringUpTrainsAndExcludes_6 : ∃ (s : State) (n : Fin 6) (link : Fin 4) (w v : Nat), s.pkg.answers (pgPE
    n.val) = true ∧ s.pkg.blkState (pgPE n.val) = 1 ∧ s.pkg.linkUp n.val link.val = false ∧ w ∈ [1, 2, 4, 8, 16] ∧ 1 ≤ v ∧
    v ≤ 5 :=
  ⟨withRegs runState [(pgPE 5, 0x020, 0x100)], 5, 3, 16, 5, by decide +kernel⟩

theorem witness_BringUpTrainsAndExcludes_7 : ∃ (s : State) (part : Part), partNum part ∈ s.pkg.boot.training ∧ partNum
    part < 26 :=
  ⟨withBoot (inMode State.reset .load) (fun b => { b with training := [13] }), .mocor 11, by decide +kernel⟩

theorem witness_BringUpTrainsAndExcludes_8 : ∃ (s : State) (part : Part), s.mode.mode = .load ∧ s.pkg.waitOf (partNum
    part) = 1 ∧ (∀ g, part = .guest g → s.pkg.site g.val = true) :=
  ⟨withBoot (inMode State.reset .load) (fun b => { b with waits := [(13, 1)] }), .mocor 11, by decide +kernel⟩

theorem witness_BringUpTrainsAndExcludes_9 : ∃ (s : State) (part : Part), s.pkg.waitOf (partNum part) = 1 ∧ (∀ g, part =
    .guest g → s.pkg.site g.val = true) ∧ ((partNum part < 2 ∧ s.mode.mode ≠ .load) ∨ (2 ≤ partNum part ∧ partNum part ∈
    s.pkg.boot.readmits ∧ s.pkg.attempts (partNum part) < s.pkg.retryMax (partNum part))) :=
  ⟨withBoot runState (fun b => { b with waits := [(13, 1)], readmits := [13] }), .mocor 11, by decide +kernel⟩

theorem witness_BringUpTrainsAndExcludes_10 : ∃ (s : State), s.mode.mode = .load ∧ s.pkg.stw.mapBuilt = false ∧
    s.pkg.isRipe .map 0 = true ∧ s.pkg.mbBusy = false ∧ (∀ d, d < 12 → 2 + d ∈ s.pkg.boot.finished ∨ s.pkg.dieExcluded d =
    true) :=
  ⟨ripen (withBoot (onPkg (inMode runState .load) (fun p =>
    { p with dieSt := (List.range 12).map (fun d => (d, if d = 5 then 4 else 1)) })) (fun b =>
    { b with finished := (List.range 14).map (· + 2) })) [(9, 0)], by decide +kernel⟩

theorem witness_BringUpTrainsAndExcludes_11 : ∃ (s : State) (part : Fin 32), s.pkg.commands .host pgSTW = true ∧
    s.mode.mode = .load ∧ s.pkg.busy pgSTW = false ∧ part.val < 12 ∧ s.pkg.dieFenced part.val = false :=
  ⟨inMode runState .load, 11, by decide +kernel⟩

theorem witness_BringUpTrainsAndExcludes_12 : ∃ (s : State) (part : Fin 32) (g : Fin 2), s.pkg.commands .host pgSTW = true
    ∧ s.mode.mode = .load ∧ s.pkg.busy pgSTW = false ∧ part.val = 16 + g.val ∧ s.pkg.gpState g.val ≠ 5 ∧ s.pkg.gpState
    g.val ≠ 7 :=
  ⟨inMode runState .load, 17, 1, by decide +kernel⟩

theorem witness_BringUpTrainsAndExcludes_13 : ∃ (s : State) (part : Fin 32), s.pkg.commands .host pgSTW = true ∧ 12 ≤
    part.val ∧ part.val ≠ 0x10 ∧ part.val ≠ 0x11 :=
  ⟨inMode runState .load, 12, by decide +kernel⟩

theorem witness_BringUpTrainsAndExcludes_14 : ∃ (s : State) (r : Fin 15) (status : Byte), s.pkg.pw.island = true ∧
    s.pkg.pw.railQ.head? = some r.val ∧ s.pkg.rail r.val = 0 ∧ status.getLsbD 7 = true ∧ status.getLsbD 6 = false ∧
    status.getLsbD 5 = false ∧ status.getLsbD 4 = false ∧ status.getLsbD 3 = true :=
  ⟨withPower State.reset (fun w => { w with island := true, railQ := [14, 3] }), 14, 0x88, by decide +kernel⟩

theorem witness_BringUpTrainsAndExcludes_15 : ∃ (s : State) (r : Fin 15) (status crc : Byte), s.pkg.pw.island = true ∧
    (s.pkg.rail r.val ≠ 0 ∨ s.pkg.pw.railQ.head? = some r.val) ∧ crc ≠ crc8 [status] :=
  ⟨withPower State.reset (fun w => { w with island := true, railQ := [14, 3] }), 14, 0x88, 0, by decide +kernel⟩

theorem witness_BringUpTrainsAndExcludes_16 : ∃ (s : State) (r : Fin 15), r.val < 12 ∧ (s.pkg.rail r.val ≠ 0 ∨
    s.pkg.pw.railQ.head? = some r.val) :=
  ⟨runState, 11, by decide +kernel⟩

theorem witness_BringUpTrainsAndExcludes_17 : ∃ (s : State) (r : Fin 15), 12 ≤ r.val ∧ (s.pkg.rail r.val ≠ 0 ∨
    s.pkg.pw.railQ.head? = some r.val) :=
  ⟨runState, 13, by decide +kernel⟩

theorem witness_GuestPortsPassNegotiateAndFence_1 : ∃ (s : State) (g : Fin 2) (h : BitVec 128) (pid : Nat) (b : List Byte)
    (po : Bool) (q : Pkg), ogpLegal s g h 1 true ∧ inGw g.val (ogpAddr h) (ogpLen h) = false ∧ s.pkg.firewall g.val
    (ogpAddr h) (ogpLen h) true false = some pid ∧ s.pkg.inWaits (0x1A + g.val) = false ∧ s.pkg.readParts (0x1A + g.val)
    pid [(ogpAddr h, ogpLen h)] = (.done b po, q) :=
  ⟨guestState, 1, ogpHdr 1 77 8 0 0 0x1038, 5, _, _, _, by unfold ogpLegal; decide +kernel, by decide +kernel,
    by decide +kernel, by decide +kernel, io_ok (by decide +kernel)⟩

theorem witness_GuestPortsPassNegotiateAndFence_2 : ∃ (s : State) (g : Fin 2) (h : BitVec 128) (b : List Byte) (pid : Nat)
    (a : IoAns) (q : Pkg), ogpLegal s g h 2 true ∧ inGw g.val (ogpAddr h) (ogpLen h) = false ∧ s.pkg.firewall g.val
    (ogpAddr h) (ogpLen h) false true = some pid ∧ s.pkg.inWaits (0x1A + g.val) = false ∧ s.pkg.writeParts (0x1A + g.val)
    pid [(ogpAddr h, ogpLen h)] (b.take (ogpLen h)) (2 ^ ogpLen h - 1) false = (a, q) ∧ a ≠ .waiting :=
  ⟨guestState, 1, ogpHdr 2 77 8 0 0 0xFF8, [1,2,3,4,5,6,7,8], 5, _, _, by unfold ogpLegal; decide +kernel,
    by decide +kernel, by decide +kernel, by decide +kernel, Prod.mk.eta.symm, by decide +kernel⟩

theorem witness_GuestPortsPassNegotiateAndFence_3 : ∃ (s : State) (g : Fin 2) (h : BitVec 128) (b : List Byte) (pid : Nat)
    (d : List Byte) (po : Bool) (q : Pkg), ogpLegal s g h 3 true ∧ inGw g.val (ogpAddr h) (ogpLen h) = false ∧ atomLen h ∈
    [1, 2, 4, 8] ∧ ogpAddr h % atomLen h = 0 ∧ ogp h 96 94 ≠ 0 ∧ s.pkg.firewall g.val (ogpAddr h) (atomLen h) true true =
    some pid ∧ s.pkg.inWaits (0x1A + g.val) = false ∧ s.pkg.ioAtom (0x1A + g.val) pid (ogpAddr h) (atomLen h) (ogp h 96
    94) (b.take (ogpLen h)) = (.done d po, q) :=
  ⟨guestState, 1, ogpHdr 3 77 16 1 0 0xFF0, List.replicate 16 0, 5, _, _, _, by unfold ogpLegal; decide +kernel,
    by decide +kernel, by decide +kernel, by decide +kernel, by decide +kernel, by decide +kernel, by decide +kernel,
    io_ok (by decide +kernel)⟩

theorem witness_GuestPortsPassNegotiateAndFence_4 : ∃ (s : State) (c : Instr) (x : Inbound), guestGranted s c x ∧
    (s.pkg.inWaits x.agent = true ∨ (s.pkg.inTry x).1 = .waiting) :=
  ⟨withInq guestState [testInq 0x1B 5 0x1038 (.guest 1 77)], .mrd 1 (ogpHdr 1 78 8 0 0 0x1038), testInq 0x1B 5 0x1038
    (.guest 1 78), (by unfold guestGranted ogpLegal; exact ⟨by decide +kernel, by decide +kernel, 5, by decide +kernel,
    by decide +kernel⟩), by decide +kernel⟩

theorem witness_GuestPortsPassNegotiateAndFence_5 : ∃ (s : State) (c : Instr) (x : Inbound) (st : Nat) (q : Pkg),
    guestGranted s c x ∧ s.pkg.inWaits x.agent = false ∧ s.pkg.inTry x = (.err st, q) ∧ (∀ g h b, c ≠ .mwr g h b) :=
  ⟨withRegs guestState ((List.range 16).map (fun n => (pgDS n, 0x238, 2 ^ 5))), .mrd 1 (ogpHdr 1 78 8 0 0 0x1038), testInq
    0x1B 5 0x1038 (.guest 1 78), 3, _, (by unfold guestGranted ogpLegal; exact ⟨by decide +kernel, by decide +kernel, 5,
    by decide +kernel, by decide +kernel⟩), by decide +kernel, pair_eq (by decide +kernel), nofun⟩

theorem witness_GuestPortsPassNegotiateAndFence_6 : ∃ (s : State) (g : Fin 2) (h : BitVec 128), ogpLegal s g h 1 true ∧
    inGw g.val (ogpAddr h) (ogpLen h) = false ∧ s.pkg.firewall g.val (ogpAddr h) (ogpLen h) true false = none :=
  ⟨guestState, 1, ogpHdr 1 77 8 0 0 0x100000, by unfold ogpLegal; decide +kernel⟩

theorem witness_GuestPortsPassNegotiateAndFence_7 : ∃ (s : State) (g : Fin 2) (h : BitVec 128), ogpLegal s g h 2 true ∧
    inGw g.val (ogpAddr h) (ogpLen h) = false ∧ s.pkg.firewall g.val (ogpAddr h) (ogpLen h) false true = none :=
  ⟨guestState, 1, ogpHdr 2 77 8 0 0 0x100000, by unfold ogpLegal; decide +kernel⟩

theorem witness_GuestPortsPassNegotiateAndFence_8 : ∃ (s : State) (g : Fin 2) (h : BitVec 128), ogpLegal s g h 3 true ∧
    inGw g.val (ogpAddr h) (ogpLen h) = false ∧ atomLen h ∈ [1, 2, 4, 8] ∧ ogpAddr h % atomLen h = 0 ∧ ogp h 96 94 ≠ 0 ∧
    s.pkg.firewall g.val (ogpAddr h) (atomLen h) true true = none :=
  ⟨guestState, 1, ogpHdr 3 77 16 1 0 0x100000, by unfold ogpLegal; decide +kernel⟩

theorem witness_GuestPortsPassNegotiateAndFence_9 : ∃ (s : State) (g : Fin 2) (h : BitVec 128), ogpLegal s g h 3 true ∧
    (inGw g.val (ogpAddr h) (ogpLen h) = true ∨ ¬ atomLen h ∈ [1, 2, 4, 8] ∨ ogpAddr h % atomLen h ≠ 0 ∨ ogp h 96 94 = 0)
    :=
  ⟨guestState, 1, ogpHdr 3 77 16 0 0 0xFF0, by unfold ogpLegal; decide +kernel⟩

theorem witness_GuestPortsPassNegotiateAndFence_10 : ∃ (s : State) (g : Fin 2) (h : BitVec 128) (r : Option (List Byte))
    (q : Pkg), ogpLegal s g h 1 true ∧ inGw g.val (ogpAddr h) (ogpLen h) = true ∧ s.pkg.pagesRead s.mode (.guest g)
    (ogpAddr h) (ogpLen h) = (r, q) :=
  ⟨guestState, 1, ogpHdr 1 77 8 0 0 (0xFF0000C095C40 + 0x38), _, _, by unfold ogpLegal; decide +kernel, by decide +kernel,
    Prod.mk.eta.symm⟩

theorem witness_GuestPortsPassNegotiateAndFence_11 : ∃ (s : State) (g : Fin 2) (h : BitVec 128), ogpLegal s g h 2 true ∧
    inGw g.val (ogpAddr h) (ogpLen h) = true :=
  ⟨guestState, 1, ogpHdr 2 77 8 0 0 (0xFF0000C095C40 + 0x38), by unfold ogpLegal; decide +kernel⟩

theorem witness_GuestPortsPassNegotiateAndFence_12 : ∃ (s : State) (g : Fin 2) (h : BitVec 128) (b : List Byte) (off :
    Nat), ogpLegal s g h 2 true ∧ inGw g.val (ogpAddr h) (ogpLen h) = true ∧ ogp h 111 100 = 7 ∧ b.length = 8 ∧ off =
    ogpAddr h % 4096 ∧ off % 8 = 0 ∧ 0xC40 ≤ off ∧ off < 0xC80 :=
  ⟨guestState, 1, ogpHdr 2 77 8 0 0 (0xFF0000C095C40 + 0x38), [1,2,3,4,5,6,7,8], 0xC78,
    by unfold ogpLegal; decide +kernel⟩

theorem witness_GuestPortsPassNegotiateAndFence_13 : ∃ (s : State) (g : Fin 2) (h : BitVec 128) (b : List Byte) (e : Instr
    × Nat × Bool), e ∈ ogpRows g h b ∧ s.pkg.gpState g.val = 2 ∧ s.pkg.answers (pgGP g.val) = true ∧ (e.2.2 = true →
    s.pkg.inbound s.mode (pgGP g.val) = true) ∧ (ogp h 127 124 ≠ e.2.1 ∨ ogp h 93 88 ≠ 0 ∨ ogp h 79 64 ≠ 0 ∨ (e.2.2 = true
    ∧ (s.pkg.mrs g.val < ogpLen h ∨ 4096 < ogpAddr h % 4096 + ogpLen h))) :=
  ⟨guestState, 1, ogpHdr 9 77 8 0 0 0x1038, [], (.mrd 1 (ogpHdr 9 77 8 0 0 0x1038), 1, true), by decide +kernel⟩

theorem witness_GuestPortsPassNegotiateAndFence_14 : ∃ (s : State) (g : Fin 2) (h : BitVec 128) (b : List Byte) (e : Instr
    × Nat × Bool), e ∈ ogpRows g h b ∧ (s.pkg.gpState g.val ≠ 2 ∨ s.pkg.answers (pgGP g.val) = false ∨ (e.2.2 = true ∧
    s.pkg.inbound s.mode (pgGP g.val) = false)) :=
  ⟨runState, 1, ogpHdr 1 77 8 0 0 0x1038, [], (.mrd 1 (ogpHdr 1 77 8 0 0 0x1038), 1, true), by decide +kernel⟩

theorem witness_GuestPortsPassNegotiateAndFence_15 : ∃ (s : State) (g : Fin 2) (h : BitVec 128) (lc a : Nat), ogpLegal s g
    h 5 false ∧ ogp h 87 80 < 32 ∧ ogp h 87 80 < s.pkg.agreed g.val 23 16 ∧ bit (s.pkg.cfg (pgGP g.val) (0x408 + 8 * ogp h
    87 80)) 31 = true ∧ lc = fld (s.pkg.cfg (pgGP g.val) (0x408 + 8 * ogp h 87 80)) 15 8 ∧ a = fld (s.pkg.cfg (pgGP g.val)
    (0x408 + 8 * ogp h 87 80)) 7 0 ∧ 0x10 ≤ a ∧ lc < 216 ∧ s.pkg.mapped lc = true ∧ s.pkg.lcpid lc = fld (s.pkg.cfg (pgGP
    g.val) (0x408 + 8 * ogp h 87 80)) 30 24 :=
  ⟨onPkg (withCfg guestState (pgGP 1) [(0x408 + 8 * 31, 2 ^ 31 + 5 * 2 ^ 24 + 215 * 256 + 0xFF)]) (fun p => p.setLcpid 215
    5), 1, ogpHdr 5 0 1 0 31 0, 215, 255, by unfold ogpLegal; decide +kernel⟩

theorem witness_GuestPortsPassNegotiateAndFence_16 : ∃ (s : State) (g : Fin 2) (h : BitVec 128), ogpLegal s g h 5 false ∧
    (32 ≤ ogp h 87 80 ∨ s.pkg.agreed g.val 23 16 ≤ ogp h 87 80 ∨ bit (s.pkg.cfg (pgGP g.val) (0x408 + 8 * (ogp h 87 80 %
    32))) 31 = false ∨ s.pkg.lcpid (fld (s.pkg.cfg (pgGP g.val) (0x408 + 8 * (ogp h 87 80 % 32))) 15 8) ≠ fld (s.pkg.cfg
    (pgGP g.val) (0x408 + 8 * (ogp h 87 80 % 32))) 30 24) ∧ (s.pkg.reg (pgGP g.val) 0x218).toNat < 2 ^ 64 - 1 :=
  ⟨guestState, 1, ogpHdr 5 0 1 0 63 0, by unfold ogpLegal; decide +kernel⟩

theorem witness_GuestPortsPassNegotiateAndFence_17 : ∃ (s : State) (g : Fin 2) (h : BitVec 128), ogpLegal s g h 6 false ∧
    2 ≤ ogp h 87 80 :=
  ⟨guestState, 1, ogpHdr 6 0 1 0 2 0, by unfold ogpLegal; decide +kernel⟩

theorem witness_GuestPortsPassNegotiateAndFence_18 : ∃ (s : State) (g : Fin 2) (h : BitVec 128), ogpLegal s g h 6 false ∧
    ogp h 87 80 < 2 :=
  ⟨guestState, 1, ogpHdr 6 0 1 0 1 0, by unfold ogpLegal; decide +kernel⟩

theorem witness_GuestPortsPassNegotiateAndFence_19 : ∃ (s : State) (g : Fin 2) (h : BitVec 128), ogpLegal s g h 4 false ∧
    (∀ lc, lc < 216 → (s.pkg.core lc).io = [] ∧ (s.pkg.core lc).posted = []) :=
  ⟨guestState, 1, ogpHdr 4 9 8 0 0 0, by unfold ogpLegal; decide +kernel⟩

theorem witness_GuestPortsPassNegotiateAndFence_20 : ∃ (s : State) (g : Fin 2) (h : BitVec 128) (lc : Nat) (a : IoAcc),
    ogpLegal s g h 4 false ∧ lc < 216 ∧ (s.pkg.core lc).io = [a] ∧ a.tag = ogp h 123 112 ∧ inGuest g.val a.pa = true ∧
    a.answer = none ∧ (s.pkg.core lc).posted = [] :=
  ⟨withCore guestState 17 (fun c => { c with io := [testIo (0xE000000000000 + 0x800000000008) 4095] }), 1, ogpHdr 4 4095 8
    0 0 0, 17, testIo (0xE000000000000 + 0x800000000008) 4095, by unfold ogpLegal; decide +kernel⟩

theorem witness_GuestPortsPassNegotiateAndFence_21 : ∃ (s : State) (g : Fin 2) (h : BitVec 128) (w : Word), s.pkg.gpState
    g.val = 6 ∧ ogp h 127 124 = 7 ∧ offerOk w = true ∧ fld (agreeBlock w (s.pkg.hubOffer g.val)) 63 56 = 1 :=
  ⟨withRegs guestState [(pgGP 1, 0x200, 6)], 1, ogpHdr 7 0 8 0 0 0, 0x0101401043200800, by decide +kernel⟩

theorem witness_GuestPortsPassNegotiateAndFence_22 : ∃ (s : State) (g : Fin 2) (h : BitVec 128) (w : Word), s.pkg.gpState
    g.val = 6 ∧ ogp h 127 124 = 7 ∧ (offerOk w = false ∨ fld (agreeBlock w (s.pkg.hubOffer g.val)) 63 56 ≠ 1) :=
  ⟨withRegs guestState [(pgGP 1, 0x200, 6)], 1, ogpHdr 7 0 8 0 0 0, 0, by decide +kernel⟩

theorem witness_GuestPortsPassNegotiateAndFence_23 : ∃ (s : State) (g : Fin 2) (h : BitVec 128) (w : Word), s.pkg.gpState
    g.val = 6 ∧ ogp h 127 124 = 8 ∧ s.pkg.reg (pgGP g.val) 0x210 ≠ 0 ∧ w = s.pkg.reg (pgGP g.val) 0x208 ∧ (s.pkg.guest
    g.val).width ≤ fld w 47 40 ∧ (s.pkg.guest g.val).rate ≤ fld w 39 32 ∧ 22 + g.val ∉ s.pkg.boot.readmits :=
  ⟨withRegs guestState [(pgGP 1, 0x200, 6), (pgGP 1, 0x210, 1)], 1, ogpHdr 8 0 8 0 0 0, 0x0101401043200800,
    by decide +kernel⟩

theorem witness_GuestPortsPassNegotiateAndFence_24 : ∃ (s : State) (g : Fin 2) (h : BitVec 128) (w : Word), s.pkg.gpState
    g.val = 6 ∧ ogp h 127 124 = 8 ∧ s.pkg.reg (pgGP g.val) 0x210 ≠ 0 ∧ w = s.pkg.reg (pgGP g.val) 0x208 ∧ (s.pkg.guest
    g.val).width ≤ fld w 47 40 ∧ (s.pkg.guest g.val).rate ≤ fld w 39 32 ∧ 22 + g.val ∈ s.pkg.boot.readmits :=
  ⟨withBoot (withRegs guestState [(pgGP 1, 0x200, 6), (pgGP 1, 0x210, 1)]) (fun b => { b with readmits := [23] }), 1,
    ogpHdr 8 0 8 0 0 0, 0x0101401043200800, by decide +kernel⟩

theorem witness_GuestPortsPassNegotiateAndFence_25 : ∃ (s : State) (g : Fin 2) (h : BitVec 128) (w : Word), s.pkg.gpState
    g.val = 6 ∧ ogp h 127 124 = 8 ∧ s.pkg.reg (pgGP g.val) 0x210 ≠ 0 ∧ w = s.pkg.reg (pgGP g.val) 0x208 ∧ (fld w 47 40 <
    (s.pkg.guest g.val).width ∨ fld w 39 32 < (s.pkg.guest g.val).rate) :=
  ⟨withGuest (withRegs guestState [(pgGP 1, 0x200, 6), (pgGP 1, 0x210, 1)]) 1 (fun x =>
    { x with width := 255, rate := 255 }), 1, ogpHdr 8 0 8 0 0 0, 0x0101401043200800, by decide +kernel⟩

theorem witness_GuestPortsPassNegotiateAndFence_26 : ∃ (s : State) (g : Fin 2) (h : BitVec 128) (w : Word), s.pkg.gpState
    g.val = 6 ∧ ogp h 127 124 = 8 ∧ s.pkg.reg (pgGP g.val) 0x210 ≠ 0 ∧ w ≠ s.pkg.reg (pgGP g.val) 0x208 :=
  ⟨withRegs guestState [(pgGP 1, 0x200, 6), (pgGP 1, 0x210, 1)], 1, ogpHdr 8 0 8 0 0 0, 0x0101401043200900,
    by decide +kernel⟩

theorem witness_GuestPortsPassNegotiateAndFence_27 : ∃ (s : State) (g : Fin 2), s.pkg.gpState g.val ≠ 6 :=
  ⟨guestState, 1, by decide +kernel⟩

theorem witness_GuestPortsPassNegotiateAndFence_28 : ∃ (s : State) (g : Fin 2), s.pkg.gpState g.val = 2 ∧ (s.pkg.guest
    g.val).loss = none :=
  ⟨guestState, 1, by decide +kernel⟩

theorem witness_GuestPortsPassNegotiateAndFence_29 : ∃ (s : State) (g : Fin 2) (n : Nat), (s.pkg.guest g.val).loss = some
    n ∧ 2 ≤ n ∧ s.pkg.gpState g.val ≠ 5 ∧ s.pkg.gpState g.val ≠ 7 :=
  ⟨onPkg guestState (fun p => p.setGuest 1 { p.guest 1 with loss := some 2 }), 1, 2, by decide +kernel⟩

theorem witness_GuestPortsPassNegotiateAndFence_30 : ∃ (s : State) (g : Fin 2), (∀ n, (s.pkg.guest g.val).loss = some n →
    n < 2) :=
  ⟨withGuest guestState 1 (fun x => { x with loss := some 1 }), 1, opt_all (by decide +kernel)⟩

theorem witness_GuestPortsPassNegotiateAndFence_31 : ∃ (s : State) (who : Requester) (g : Fin 2), s.pkg.commands who (pgGP
    g.val) = true ∧ s.pkg.loadHold (pgGP g.val) = false ∧ s.pkg.gpState g.val ≠ 0 ∧ s.pkg.gpState g.val ≠ 5 ∧
    s.pkg.gpState g.val ≠ 7 :=
  ⟨guestState, .host, 1, by decide +kernel⟩

theorem witness_GuestPortsPassNegotiateAndFence_32 : ∃ (s : State) (who : Requester) (g : Fin 2), s.pkg.commands who (pgGP
    g.val) = true ∧ (s.pkg.loadHold (pgGP g.val) = true ∨ s.pkg.gpState g.val = 0 ∨ s.pkg.gpState g.val = 5 ∨
    s.pkg.gpState g.val = 7) :=
  ⟨withRegs guestState [(pgGP 1, 0x200, 7)], .host, 1, by decide +kernel⟩

theorem witness_GuestPortsPassNegotiateAndFence_33 : ∃ (s : State) (who : Requester) (g : Fin 2), s.pkg.commands who (pgGP
    g.val) = true ∧ s.pkg.loadHold (pgGP g.val) = false ∧ s.pkg.busy (pgGP g.val) = false ∧ s.pkg.gpState g.val = 5 ∧
    readmitMode s :=
  ⟨withRegs guestState [(pgGP 1, 0x200, 5)], .host, 1, by unfold readmitMode; decide +kernel⟩

theorem witness_GuestPortsPassNegotiateAndFence_34 : ∃ (s : State) (who : Requester) (g : Fin 2), s.pkg.commands who (pgGP
    g.val) = true ∧ (s.pkg.loadHold (pgGP g.val) = true ∨ s.pkg.busy (pgGP g.val) = true ∨ s.pkg.gpState g.val ≠ 5 ∨ ¬
    readmitMode s) :=
  ⟨guestState, .host, 1, by unfold readmitMode; decide +kernel⟩

theorem witness_GuestPortsPassNegotiateAndFence_35 : ∃ (s : State) (g : Fin 2), 22 + g.val ∈ s.pkg.boot.readmits ∧
    (s.pkg.guest g.val).ack ≠ none ∧ s.pkg.isRipe .guest g.val = true :=
  ⟨ripen (withBoot (withGuest (withRegs guestState [(pgGP 1, 0x200, 6)]) 1 (fun x => { x with ack := some 5 })) (fun b =>
    { b with readmits := [23] })) [(11, 1)], 1, by decide +kernel⟩

theorem witness_GuestPortsPassNegotiateAndFence_36 : ∃ (s : State) (g : Fin 2), 22 + g.val ∈ s.pkg.boot.readmits ∧
    s.pkg.canRetry (22 + g.val) false = false :=
  ⟨withBoot (withRegs guestState [(pgGP 1, 0x200, 16 * 2 ^ 48)]) (fun b => { b with readmits := [23] }), 1,
    by decide +kernel⟩

theorem witness_GuestPortsPassNegotiateAndFence_37 : ∃ (s : State) (g : Fin 2) (ok : Bool), (22 + g.val ∉
    s.pkg.boot.readmits ∨ (ok = true ∧ ((s.pkg.guest g.val).ack = none ∨ s.pkg.isRipe .guest g.val = false)) ∨ (ok = false
    ∧ s.pkg.canRetry (22 + g.val) false = true)) :=
  ⟨withBoot guestState (fun b => { b with readmits := [23] }), 1, false, by decide +kernel⟩

theorem witness_GuestPortsPassNegotiateAndFence_38 : ∃ (s : State) (g : Fin 2), tblGet (fun _ => false) s.pkg.pw.gsw g.val
    = true ∧ s.pkg.gpState g.val ≠ 5 ∧ s.pkg.gpState g.val ≠ 7 :=
  ⟨onPkg guestState (fun p => { p with pw := { p.pw with gsw := [(1, true)] } }), 1, by decide +kernel⟩

theorem witness_DeviceRequestsAreTranslated_1 : ∃ (s : State) (pe : Fin 6) (link : Fin 4) (addr : Word) (b : List Byte) (q
    : Pkg), deviceTaken s pe link ∧ ¬ isMsi s pe link addr.toNat b.length ∧ s.pkg.ioParts pe.val link.val addr.toNat
    b.length true = (none, q) :=
  ⟨pcieState, 5, 3, 0x1000, [1,2,3,4], _, by unfold deviceTaken; decide +kernel, by unfold isMsi; decide +kernel, pair_eq
    (by decide +kernel)⟩

theorem witness_DeviceRequestsAreTranslated_2 : ∃ (s : State) (pe : Fin 6) (link : Fin 4) (addr : Word) (b : List Byte) (l
    : List (Nat × Nat)) (q : Pkg) (a : IoAns) (r : Pkg), deviceTaken s pe link ∧ ¬ isMsi s pe link addr.toNat b.length ∧
    s.pkg.ioParts pe.val link.val addr.toNat b.length true = (some l, q) ∧ q.inWaits (0x14 + pe.val) = false ∧
    q.writeParts (0x14 + pe.val) (linkPid s pe link) l b (2 ^ b.length - 1) false = (a, r) ∧ a ≠ .waiting :=
  ⟨tlbState, 5, 3, 0xFF8, [1,2,3,4], [(0x10FF8, 4)], (tlbState.pkg.ioParts 5 3 0xFF8 4 true).2, _, _,
    by unfold deviceTaken; decide +kernel, by unfold isMsi; decide +kernel, by decide +kernel, by decide +kernel,
    Prod.mk.eta.symm, by decide +kernel⟩

theorem witness_DeviceRequestsAreTranslated_3 : ∃ (s : State) (pe : Fin 6) (link : Fin 4) (addr : Word) (b : List Byte) (l
    : List (Nat × Nat)) (q : Pkg) (a : IoAns) (r : Pkg), deviceTaken s pe link ∧ ¬ isMsi s pe link addr.toNat b.length ∧
    s.pkg.ioParts pe.val link.val addr.toNat b.length true = (some l, q) ∧ q.inWaits (0x14 + pe.val) = false ∧
    q.writeParts (0x14 + pe.val) (linkPid s pe link) l b (2 ^ b.length - 1) true = (a, r) ∧ a ≠ .waiting ∧ bit (r.reg
    (pgPE pe.val) 0x030) 19 = false :=
  ⟨tlbState, 5, 3, 0xFF8, [1,2,3,4], [(0x10FF8, 4)], (tlbState.pkg.ioParts 5 3 0xFF8 4 true).2, _, _,
    by unfold deviceTaken; decide +kernel, by unfold isMsi; decide +kernel, by decide +kernel, by decide +kernel,
    Prod.mk.eta.symm, by decide +kernel, by decide +kernel⟩

theorem witness_DeviceRequestsAreTranslated_4 : ∃ (s : State) (pe : Fin 6) (link : Fin 4) (addr : Word) (len : Nat) (l :
    List (Nat × Nat)) (b : List Byte) (q r : Pkg), deviceTaken s pe link ∧ s.pkg.ioParts pe.val link.val addr.toNat len
    false = (some l, q) ∧ q.inWaits (0x14 + pe.val) = false ∧ q.readParts (0x14 + pe.val) (linkPid s pe link) l = (.done b
    false, r) :=
  ⟨tlbState, 5, 3, 0xFF8, 8, [(0x10FF8, 8)], _, (tlbState.pkg.ioParts 5 3 0xFF8 8 false).2, _,
    by unfold deviceTaken; decide +kernel, by decide +kernel, by decide +kernel, io_clean (by decide +kernel)⟩

theorem witness_DeviceRequestsAreTranslated_5 : ∃ (s : State) (pe : Fin 6) (link : Fin 4) (addr : Word) (len : Nat) (l :
    List (Nat × Nat)) (b : List Byte) (q r : Pkg), deviceTaken s pe link ∧ s.pkg.ioParts pe.val link.val addr.toNat len
    false = (some l, q) ∧ q.inWaits (0x14 + pe.val) = false ∧ q.readParts (0x14 + pe.val) (linkPid s pe link) l = (.done b
    true, r) ∧ bit (r.reg (pgPE pe.val) 0x030) 19 = false :=
  ⟨onPkg tlbState (fun p => (p.ioWrite 0x19 7 0x103C0 (lineOf 1) true).2), 5, 3, 0x3C0, 8, [(0x103C0, 8)], _, ((onPkg
    tlbState (fun p => (p.ioWrite 0x19 7 0x103C0 (lineOf 1) true).2) : State).pkg.ioParts 5 3 0x3C0 8 false).2, _,
    by unfold deviceTaken; decide +kernel, by decide +kernel, by decide +kernel, io_poisoned (by decide +kernel),
    by decide +kernel⟩

theorem witness_DeviceRequestsAreTranslated_6 : ∃ (s : State) (pe : Fin 6) (link : Fin 4) (addr : Word) (len : Nat) (q :
    Pkg), deviceTaken s pe link ∧ s.pkg.ioParts pe.val link.val addr.toNat len false = (none, q) :=
  ⟨pcieState, 5, 3, 0x1000, 8, _, by unfold deviceTaken; decide +kernel, pair_eq (by decide +kernel)⟩

theorem witness_DeviceRequestsAreTranslated_7 : ∃ (s : State) (pe : Fin 6) (link : Fin 4) (addr : Word) (len : Nat) (l :
    List (Nat × Nat)) (q : Pkg), deviceTaken s pe link ∧ s.pkg.ioParts pe.val link.val addr.toNat len false = (some l, q)
    ∧ (q.inWaits (0x14 + pe.val) = true ∨ (q.readParts (0x14 + pe.val) (linkPid s pe link) l).1 = .waiting) :=
  ⟨withInq tlbState [testInq 0x19 7 0x103C0 (.pcie 5 0)], 5, 3, 0xFF8, 8, [(0x10FF8, 8)], ((withInq tlbState [testInq 0x19
    7 0x103C0 (.pcie 5 0)] : State).pkg.ioParts 5 3 0xFF8 8 false).2, by unfold deviceTaken; decide +kernel⟩

theorem witness_DeviceRequestsAreTranslated_8 : ∃ (s : State) (pe : Fin 6) (link : Fin 4) (addr : Word) (b : List Byte)
    (ep : Bool) (l : List (Nat × Nat)) (q : Pkg), deviceTaken s pe link ∧ ¬ isMsi s pe link addr.toNat b.length ∧
    s.pkg.ioParts pe.val link.val addr.toNat b.length true = (some l, q) ∧ (q.inWaits (0x14 + pe.val) = true ∨
    (q.writeParts (0x14 + pe.val) (linkPid s pe link) l b (2 ^ b.length - 1) ep).1 = .waiting) :=
  ⟨withInq tlbState [testInq 0x19 7 0x103C0 (.pcie 5 0)], 5, 3, 0xFF8, [1,2,3,4], true, [(0x10FF8, 4)], ((withInq tlbState
    [testInq 0x19 7 0x103C0 (.pcie 5 0)] : State).pkg.ioParts 5 3 0xFF8 4 true).2,
    by unfold isMsi deviceTaken; decide +kernel⟩

theorem witness_DeviceRequestsAreTranslated_9 : ∃ (s : State) (pe : Fin 6) (link : Fin 4), ¬ deviceTaken s pe link :=
  ⟨runState, 5, 3, by unfold deviceTaken; decide +kernel⟩

theorem witness_DeviceRequestsAreTranslated_11 : ∃ (s : State) (pe : Fin 6) (link : Fin 4) (addr : Word) (v : BitVec 32)
    (lc a : Nat), deviceTaken s pe link ∧ isMsi s pe link addr.toNat 4 ∧ s.pkg.inWaits (0x14 + pe.val) = false ∧ v.toNat <
    64 ∧ bit (s.pkg.cfg (pgPE pe.val) (0x428 + 8 * v.toNat)) 31 = true ∧ fld (s.pkg.cfg (pgPE pe.val) (0x428 + 8 *
    v.toNat)) 30 24 = linkPid s pe link ∧ lc = fld (s.pkg.cfg (pgPE pe.val) (0x428 + 8 * v.toNat)) 15 8 ∧ a = fld
    (s.pkg.cfg (pgPE pe.val) (0x428 + 8 * v.toNat)) 7 0 ∧ 0x10 ≤ a ∧ lc < 216 ∧ s.pkg.mapped lc = true ∧ s.pkg.lcpid lc =
    fld (s.pkg.cfg (pgPE pe.val) (0x428 + 8 * v.toNat)) 30 24 :=
  ⟨onPkg pcieState (fun p => p.setLcpid 17 7), 5, 3, 0xFEE00000, 63, 17, 0x40,
    by unfold isMsi deviceTaken; decide +kernel⟩

theorem witness_DeviceRequestsAreTranslated_12 : ∃ (s : State) (pe : Fin 6) (link : Fin 4) (addr : Word) (v : BitVec 32),
    deviceTaken s pe link ∧ isMsi s pe link addr.toNat 4 ∧ s.pkg.inWaits (0x14 + pe.val) = false ∧ (64 ≤ v.toNat ∨ bit
    (s.pkg.cfg (pgPE pe.val) (0x428 + 8 * (v.toNat % 64))) 31 = false ∨ fld (s.pkg.cfg (pgPE pe.val) (0x428 + 8 * (v.toNat
    % 64))) 30 24 ≠ linkPid s pe link) ∧ bit (s.pkg.reg (pgPE pe.val) 0x030) 20 = false :=
  ⟨pcieState, 5, 3, 0xFEE00000, 64, by unfold isMsi deviceTaken; decide +kernel⟩

theorem witness_DeviceRequestsAreTranslated_13 : ∃ (s : State) (who : Requester) (pe : Fin 6), s.pkg.commands who (pgPE
    pe.val) = true ∧ s.pkg.blkState (pgPE pe.val) = 1 ∧ s.pkg.busy (pgPE pe.val) = false :=
  ⟨pcieState, .host, 5, by decide +kernel⟩

theorem witness_DeviceRequestsAreTranslated_14 : ∃ (s : State) (who : Requester) (pe : Fin 6), s.pkg.commands who (pgPE
    pe.val) = true ∧ (s.pkg.blkState (pgPE pe.val) ≠ 1 ∨ s.pkg.busy (pgPE pe.val) = true) :=
  ⟨withRegs pcieState [(pgPE 5, 0x020, 0)], .host, 5, by decide +kernel⟩

theorem witness_DeviceRequestsAreTranslated_15 : ∃ (s : State) (pe : Fin 6) (link : Nat) (byAddr : Bool) (a : Nat),
    (s.pkg.pe pe.val).inv = some (link, byAddr, a) ∧ s.pkg.inWaits (0x14 + pe.val) = false :=
  ⟨onPkg pcieState (fun p => p.setPe 5
    { p.pe 5 with inv := some (3, true, 0), iotlb := [{ link := 3, vbase := 0, pbase := 0x10000, size := 4096, r := true, w := true }, { link := 2, vbase := 0, pbase := 0x10000, size := 4096, r := true, w := true }] }),
    5, 3, true, 0, by decide +kernel⟩

theorem witness_DeviceRequestsAreTranslated_16 : ∃ (s : State) (pe : Fin 6), ((s.pkg.pe pe.val).inv = none ∨ s.pkg.inWaits
    (0x14 + pe.val) = true) :=
  ⟨pcieState, 5, by decide +kernel⟩

theorem witness_DeviceRequestsAreTranslated_17 : ∃ (s : State) (pe : Fin 6) (link : Fin 4), s.pkg.linkUp pe.val link.val =
    true :=
  ⟨pcieState, 5, 3, by decide +kernel⟩

theorem witness_DeviceRequestsAreTranslated_18 : ∃ (s : State) (pe : Fin 6) (link : Fin 4), s.pkg.linkUp pe.val link.val =
    false :=
  ⟨runState, 5, 3, by decide +kernel⟩

theorem witness_DeviceRequestsAreTranslated_19 : ∃ (s : State) (pe : Fin 6) (tag lc : Nat) (a : IoAcc), lc < 216 ∧
    (s.pkg.core lc).io = [a] ∧ (s.pkg.core lc).posted = [] ∧ a.tag = tag ∧ inPcie pe.val a.pa = true ∧ a.answer = none :=
  ⟨withCore pcieState 17 (fun c => { c with io := [testIo (0xD400000000000 + 8) 4095] }), 5, 4095, 17, testIo
    (0xD400000000000 + 8) 4095, by decide +kernel⟩

theorem witness_DeviceRequestsAreTranslated_20 : ∃ (s : State) (pe : Fin 6) (tag : Nat) (st : Fin 8) (lc : Nat) (a :
    IoAcc), st ≠ 0 ∧ st ≠ 2 ∧ lc < 216 ∧ (s.pkg.core lc).io = [a] ∧ (s.pkg.core lc).posted = [] ∧ a.tag = tag ∧ inPcie
    pe.val a.pa = true ∧ a.answer = none :=
  ⟨withCore pcieState 17 (fun c => { c with io := [testIo (0xD400000000000 + 8) 4095] }), 5, 4095, 1, 17, testIo
    (0xD400000000000 + 8) 4095, by decide +kernel⟩

theorem witness_MemoryIsScrubbedRemappedCalibrated_1 : ∃ (s : State) (mc : Fin 16), s.pkg.scrubDue s.mode.mode mc.val =
    true ∧ (s.pkg.ctl mc.val).scrubPch < 7 :=
  ⟨memState, 15, by decide +kernel⟩

theorem witness_MemoryIsScrubbedRemappedCalibrated_2 : ∃ (s : State) (mc : Fin 16), s.pkg.scrubDue s.mode.mode mc.val =
    true ∧ (s.pkg.ctl mc.val).scrubPch = 7 :=
  ⟨onPkg memState (fun p => p.setCtl 15 { p.ctl 15 with scrubPch := 7 }), 15, by decide +kernel⟩

theorem witness_MemoryIsScrubbedRemappedCalibrated_3 : ∃ (s : State) (mc : Fin 16), s.pkg.scrubDue s.mode.mode mc.val =
    false :=
  ⟨inMode memState .load, 15, by decide +kernel⟩

theorem witness_MemoryIsScrubbedRemappedCalibrated_4 : ∃ (s : State) (mc : Fin 16), (s.pkg.ctl mc.val).boost ≠ 1 :=
  ⟨memState, 15, by decide +kernel⟩

theorem witness_MemoryIsScrubbedRemappedCalibrated_5 : ∃ (s : State) (mc : Fin 16), (s.pkg.ctl mc.val).boost = 1 :=
  ⟨onPkg memState (fun p => p.setCtl 15 { p.ctl 15 with boost := 1 }), 15, by decide +kernel⟩

theorem witness_MemoryIsScrubbedRemappedCalibrated_6 : ∃ (s : State) (mc : Fin 16) (i : Fin 256), s.pkg.commands .host
    (pgMCR mc.val) = true ∧ s.mode.mode = .load ∧ s.pkg.busy (pgMCR mc.val) = false ∧ s.pkg.remapBad mc.val i.val
    (s.pkg.reg (pgMCR mc.val) 0xC08) = false :=
  ⟨withRegs (inMode memState .load) [(pgMCR 15, 0xC08, 2 ^ 63 + 2 ^ 61 + 3 * 2 ^ 56 + 4 * 2 ^ 48 + 77 * 2 ^ 32 + 5 * 2 ^
    16)], 15, 7, by decide +kernel⟩

theorem witness_MemoryIsScrubbedRemappedCalibrated_7 : ∃ (s : State) (mc : Fin 16) (i : Fin 256), s.pkg.commands .host
    (pgMCR mc.val) = true ∧ s.mode.mode ∈ [.run, .degraded, .quiesce] ∧ s.pkg.busy (pgMCR mc.val) = false ∧ s.pkg.remapBad
    mc.val i.val (s.pkg.reg (pgMCR mc.val) 0xC08) = false ∧ remapCopies (s.pkg.remapEnt mc.val i.val) (s.pkg.reg (pgMCR
    mc.val) 0xC08) = true :=
  ⟨withRegs (inMode memState .run) [(pgMCR 15, 0xC08, 2 ^ 63 + 2 ^ 61 + 3 * 2 ^ 56 + 4 * 2 ^ 48 + 77 * 2 ^ 32 + 5 * 2 ^
    16)], 15, 7, by decide +kernel⟩

theorem witness_MemoryIsScrubbedRemappedCalibrated_8 : ∃ (s : State) (mc : Fin 16) (i : Fin 256), s.pkg.commands .host
    (pgMCR mc.val) = true ∧ s.mode.mode ∈ [.load, .run, .degraded, .quiesce] ∧ s.pkg.busy (pgMCR mc.val) = false ∧
    s.pkg.remapBad mc.val i.val (s.pkg.reg (pgMCR mc.val) 0xC08) = true :=
  ⟨withRegs (inMode memState .run) [(pgMCR 15, 0xC08, 2 ^ 63)], 15, 7, by decide +kernel⟩

theorem witness_MemoryIsScrubbedRemappedCalibrated_9 : ∃ (s : State) (mc : Fin 16), s.pkg.commands .host (pgMCR mc.val) =
    true ∧ (s.pkg.busy (pgMCR mc.val) = true ∨ s.mode.mode ∉ [.load, .run, .degraded, .quiesce]) :=
  ⟨inMode memState .service, 15, by decide +kernel⟩

theorem witness_MemoryIsScrubbedRemappedCalibrated_10 : ∃ (s : State) (who : Requester) (mc : Fin 16), s.pkg.commands who
    (pgMCR mc.val) = true ∧ who ≠ .host ∧ who ≠ .steward :=
  ⟨memState, .core 0, 15, by decide +kernel⟩

theorem witness_MemoryIsScrubbedRemappedCalibrated_11 : ∃ (s : State) (who : Requester) (mc : Fin 16), s.pkg.commands who
    (pgMCR mc.val) = true :=
  ⟨memState, .host, 15, by decide +kernel⟩

theorem witness_MemoryIsScrubbedRemappedCalibrated_12 : ∃ (s : State) (mc : Fin 16) (i : Nat) (e : Word), (s.pkg.ctl
    mc.val).copying = some (i, e, false) :=
  ⟨onPkg memState (fun p => p.setCtl 15 { p.ctl 15 with copying := some (7, 5, false) }), 15, 7, 5, by decide +kernel⟩

theorem witness_MemoryIsScrubbedRemappedCalibrated_13 : ∃ (s : State) (mc : Fin 16) (row : Nat × Nat × Nat) (rest : List
    (Nat × Nat × Nat)) (i k : Nat), s.mode.mode = .load ∧ s.pkg.loadHold pgSTW = false ∧ s.pkg.cf pgSTW 0x400 2 2 = 0 ∧
    s.pkg.busy (pgMCR mc.val) = false ∧ (s.pkg.ctl mc.val).rowReqs = row :: rest ∧ s.pkg.isRipe .remap mc.val = true ∧
    s.pkg.entryFor mc.val row.1 row.2.1 row.2.2 = some i ∧ s.pkg.freeSpare mc.val row.1 row.2.1 = some k ∧ s.pkg.remapBad
    mc.val i (word [(63, 1), (61, 2), (56, row.1), (48, row.2.1), (32, row.2.2), (16, k)]) = false :=
  ⟨ripen (onPkg (activePages (inMode memState .load) [pgSTW]) (fun p => p.setCtl 15
    { p.ctl 15 with rowReqs := [(1, 2, 3)] })) [(12, 15)], 15, ((1,2,3):Nat×Nat×Nat), [], (((ripen (onPkg (activePages
    (inMode memState .load) [pgSTW]) (fun p => p.setCtl 15 { p.ctl 15 with rowReqs := [(1, 2, 3)] })) [(12, 15)] :
    State).pkg.entryFor 15 1 2 3).getD 999), (((ripen (onPkg (activePages (inMode memState .load) [pgSTW]) (fun p =>
    p.setCtl 15 { p.ctl 15 with rowReqs := [(1, 2, 3)] })) [(12, 15)] : State).pkg.freeSpare 15 1 2).getD 999),
    by decide +kernel⟩

theorem witness_MemoryIsScrubbedRemappedCalibrated_14 : ∃ (s : State) (mc : Fin 16) (row : Nat × Nat × Nat) (rest : List
    (Nat × Nat × Nat)), s.mode.mode ∈ [.load, .run, .degraded, .quiesce] ∧ s.pkg.loadHold pgSTW = false ∧ s.pkg.cf pgSTW
    0x400 2 2 = 0 ∧ s.pkg.busy (pgMCR mc.val) = false ∧ (s.pkg.ctl mc.val).rowReqs = row :: rest ∧ s.pkg.isRipe .remap
    mc.val = true ∧ (s.pkg.freeSpare mc.val row.1 row.2.1 = none ∨ s.pkg.entryFor mc.val row.1 row.2.1 row.2.2 = none) :=
  ⟨ripen (onPkg (activePages (inMode memState .load) [pgSTW]) (fun p => p.setCtl 15
    { p.ctl 15 with remap := (List.range 32).map (fun k => (k, word [(63, 1), (61, 2), (56, 1), (48, 2), (32, k + 100), (16, k)])), rowReqs := [(1, 2, 3)] }))
    [(12, 15)], 15, ((1,2,3):Nat×Nat×Nat), [], by decide +kernel⟩

theorem witness_MemoryIsScrubbedRemappedCalibrated_15 : ∃ (s : State) (mc : Fin 16), (s.pkg.loadHold pgSTW = true ∨
    s.pkg.cf pgSTW 0x400 2 2 ≠ 0 ∨ s.pkg.busy (pgMCR mc.val) = true ∨ s.pkg.isRipe .remap mc.val = false) :=
  ⟨memState, 15, by decide +kernel⟩

theorem witness_MemoryIsScrubbedRemappedCalibrated_16 : ∃ (s : State) (mc : Fin 16), (s.pkg.ctl mc.val).copying = none :=
  ⟨memState, 15, by decide +kernel⟩

theorem witness_MemoryIsScrubbedRemappedCalibrated_17 : ∃ (s : State) (hs : Fin 8), s.pkg.calDue s.mode.mode hs.val =
    false :=
  ⟨memState, 7, by decide +kernel⟩

theorem witness_MemoryIsScrubbedRemappedCalibrated_18 : ∃ (s : State) (hs : Fin 8), s.pkg.calDue s.mode.mode hs.val = true
    :=
  ⟨withRegs memState [(pgHPHY 7, 0x020, 0x100), (pgHPHY 7, 0x200, 2)], 7, by decide +kernel⟩

theorem witness_MemoryIsScrubbedRemappedCalibrated_19 : ∃ (s : State) (hs : Fin 8) (pc : Fin 16), s.pkg.calDue s.mode.mode
    hs.val = true ∧ tblGet (fun _ => 0) (s.pkg.ctl (2 * hs.val + pc.val / 8)).calFail (pc.val % 8 / 2) = 15 :=
  ⟨onPkg (withRegs memState [(pgHPHY 7, 0x020, 0x100), (pgHPHY 7, 0x200, 2)]) (fun p => p.setCtl 15
    { p.ctl 15 with calFail := [(3, 15)] }), 7, 15, by decide +kernel⟩

theorem witness_MemoryIsScrubbedRemappedCalibrated_20 : ∃ (s : State) (hs : Fin 8), s.pkg.commands .host (pgHPHY hs.val) =
    true ∧ s.mode.mode = .load ∧ s.pkg.rf (pgHPHY hs.val) 0x200 3 0 ≠ 3 :=
  ⟨inMode memState .load, 7, by decide +kernel⟩

theorem witness_MemoryIsScrubbedRemappedCalibrated_21 : ∃ (s : State) (hs : Fin 8), s.pkg.commands .host (pgHPHY hs.val) =
    true ∧ (s.mode.mode ≠ .load ∨ s.pkg.rf (pgHPHY hs.val) 0x200 3 0 = 3) :=
  ⟨inMode memState .run, 7, by decide +kernel⟩

theorem witness_MemoryIsScrubbedRemappedCalibrated_22 : ∃ (s : State) (who : Requester) (hs : Fin 8), s.pkg.commands who
    (pgHPHY hs.val) = true ∧ who ≠ .host :=
  ⟨inMode memState .load, .steward, 7, by decide +kernel⟩

theorem witness_PowerCommandsAndPowerFailure_1 : ∃ (s : State) (d : Die), tblGet (fun _ => 0) s.pkg.pw.owed d.val ≠ 0 ∧
    s.pkg.dieUp d.val = true :=
  ⟨onPkg runState (fun p => { p with pw := { p.pw with owed := [(11, 500)] } }), 11, by decide +kernel⟩

theorem witness_PowerCommandsAndPowerFailure_2 : ∃ (s : State) (d : Die), (tblGet (fun _ => 0) s.pkg.pw.owed d.val = 0 ∨
    s.pkg.dieUp d.val = false) :=
  ⟨runState, 11, by decide +kernel⟩

theorem witness_PowerCommandsAndPowerFailure_3 : ∃ (s : State) (d : Die) (i : Fin 20), (s.pkg.dieUp d.val = false ∨
    s.pkg.cf (pgDPM d.val) 0x400 39 32 = 0 ∨ s.pkg.unitCst s.mode.mode d.val i.val ≠ 1 ∨ (s.pkg.unit (d.val * 20 +
    i.val)).idle < s.pkg.cf (pgDPM d.val) 0x400 39 32) :=
  ⟨runState, 11, 18, by decide +kernel⟩

theorem witness_PowerCommandsAndPowerFailure_4 : ∃ (s : State) (d : Die) (i : Fin 20), s.pkg.dieUp d.val = true ∧ s.pkg.cf
    (pgDPM d.val) 0x400 39 32 ≠ 0 ∧ s.pkg.unitCst s.mode.mode d.val i.val = 1 ∧ s.pkg.cf (pgDPM d.val) 0x400 39 32 ≤
    (s.pkg.unit (d.val * 20 + i.val)).idle :=
  ⟨onPkg (withCfg runState (pgDPM 11) [(0x400, 3 * 2 ^ 32)]) (fun p => (p.setUnit 238
    { p.unit 238 with cst := 1, idle := 3 }).setCore 215 { p.core 215 with run := .waiting 4 }), 11, 18,
    by decide +kernel⟩

theorem witness_PowerCommandsAndPowerFailure_5 : ∃ (s : State) (who : Requester) (d : Die) (u : Fin 32), s.pkg.commands
    who (pgDPM d.val) = true ∧ u.val < 20 :=
  ⟨runState, .host, 11, 19, by decide +kernel⟩

theorem witness_PowerCommandsAndPowerFailure_6 : ∃ (s : State) (who : Requester) (d : Die) (u : Fin 32), s.pkg.commands
    who (pgDPM d.val) = true ∧ 20 ≤ u.val :=
  ⟨runState, .host, 11, 20, by decide +kernel⟩

theorem witness_PowerCommandsAndPowerFailure_7 : ∃ (s : State), s.mode.mode = .drizzle ∧ s.pkg.isWake s.pkg.frameNum =
    true ∧ (∀ n, n < 16 → s.pkg.watchWaits n = false) :=
  ⟨onPkg (inMode memState .drizzle) (fun p =>
    { p with fr := { p.fr with num := 12000 }, pw := { p.pw with f0 := 0, latched := [2] } }), by decide +kernel⟩

theorem witness_PowerCommandsAndPowerFailure_8 : ∃ (s : State), (s.mode.mode ≠ .drizzle ∨ s.pkg.isWake s.pkg.frameNum =
    false ∨ (∃ n, n < 16 ∧ s.pkg.watchWaits n = true)) :=
  ⟨runState, by decide +kernel⟩

theorem witness_PowerCommandsAndPowerFailure_9 : ∃ (s : State), s.pkg.pw.island = true ∧ s.pkg.lePhase ≠ 0 :=
  ⟨onPkg (withRegs runState [(pgLE, 0x200, 1)]) (fun p => { p with pw := { p.pw with island := true } }),
    by decide +kernel⟩

theorem witness_PowerCommandsAndPowerFailure_10 : ∃ (s : State), s.pkg.pw.island = false :=
  ⟨onPkg State.reset (fun p => { p with pw := { p.pw with island := false } }), by decide +kernel⟩

theorem witness_PowerCommandsAndPowerFailure_11 : ∃ (s : State), s.pkg.lePhase = 3 :=
  ⟨withRegs runState [(pgLE, 0x200, 3)], by decide +kernel⟩

theorem witness_PowerCommandsAndPowerFailure_12 : ∃ (s : State), s.pkg.lePhase ≠ 3 :=
  ⟨State.reset, by decide +kernel⟩

theorem witness_CommandsNeedReach_1 : ∃ (c : Instr) (who : Requester) (pg off : Nat) (s : State), commandPage c = some
    (who, pg, off) ∧ s.pkg.commands who pg = false :=
  ⟨.rstreq (.core 3) ⟨12, 0x000⟩, .core 3, pgSTW, 0x018, onPkg runState (fun p => p.setCore 3 { p.core 3 with psw := 0 }),
    by decide +kernel⟩

theorem witness_CommandsNeedReach_5 : ∃ (pg off : Nat), pg < 65536 ∧ off < 4096 :=
  ⟨49152, 0x018, by decide +kernel⟩

theorem witness_CommandsNeedReach_6 : ∃ (p : Pkg) (g : Fin 2), p.gpState g.val = 2 :=
  ⟨guestState.pkg, 1, by decide +kernel⟩

theorem witness_CommandsNeedReach_7 : ∃ (p : Pkg) (lc : Lc), (p.core lc).pl ≠ 2 :=
  ⟨runState.pkg.setCore 3 { runState.pkg.core 3 with psw := 0 }, 3, by decide +kernel⟩

theorem witness_CommandsNeedReach_10 : ∃ (pg : Nat) (b : Blk) (i : Nat), blkOf pg = some (b, i) :=
  ⟨49152, .steward, 0, by decide +kernel⟩

theorem witness_RegistersAreWrittenAndRead_1 : ∃ (s : State) (who : Requester) (pg : PageId) (off : Nat), s.pkg.mayAccess
    who (pgOf pg) off = false :=
  ⟨onPkg runState (fun p => p.setCore 3 { p.core 3 with psw := 0 }), .core 3, ⟨12, 47⟩, 0x400, by decide +kernel⟩

theorem witness_RegistersAreWrittenAndRead_2 : ∃ (s : State) (who : Requester) (pg : PageId) (off : Nat) (b : Blk) (i :
    Nat), s.pkg.mayAccess who (pgOf pg) off = true ∧ blkOf (pgOf pg) = some (b, i) ∧ (b ≠ .se ∨ off ≠ 0x208) ∧ 0x200 ≤ off
    ∧ off < 0x400 :=
  ⟨runState, .host, ⟨12, 0⟩, 0x3F8, Blk.steward, 0, by decide +kernel⟩

theorem witness_RegistersAreWrittenAndRead_3 : ∃ (s : State) (who : Requester) (pg : PageId), pgOf pg = pgSE ∧
    s.pkg.mayAccess who pgSE 0x208 = true :=
  ⟨withRegs runState [(pgSE, 0x208, 15)], .host, ⟨12, 0x0A0⟩, by decide +kernel⟩

theorem witness_RegistersAreWrittenAndRead_4 : ∃ (s : State) (who : Requester) (pg : PageId), s.pkg.mayAccess who (pgOf
    pg) 0x028 = true :=
  ⟨withRegs runState [(pgSTW, 0x028, 15)], .host, ⟨12, 0⟩, by decide +kernel⟩

theorem witness_RegistersAreWrittenAndRead_5 : ∃ (s : State) (who : Requester) (pg : PageId) (b : Blk) (i : Nat),
    s.pkg.mayAccess who (pgOf pg) 0x030 = true ∧ blkOf (pgOf pg) = some (b, i) :=
  ⟨runState, .host, ⟨12, 47⟩, Blk.mc, 15, by decide +kernel⟩

theorem witness_RegistersAreWrittenAndRead_6 : ∃ (s : State) (who : Requester) (pg : PageId) (off : Nat) (b : Blk) (i :
    Nat), s.pkg.mayAccess who (pgOf pg) off = true ∧ blkOf (pgOf pg) = some (b, i) ∧ b.hasCfg = true ∧ 0x400 ≤ off ∧ off <
    0xC00 :=
  ⟨runState, .host, ⟨12, 47⟩, 0x7F8, Blk.mc, 15, by decide +kernel⟩

theorem witness_RegistersAreWrittenAndRead_7 : ∃ (s : State) (who : Requester) (pg : PageId), s.pkg.mayRead who (pgOf pg)
    0x038 = true :=
  ⟨withRegs runState [(pgMC 15, 0x038, 5)], .host, ⟨12, 47⟩, by decide +kernel⟩

theorem witness_RegistersAreWrittenAndRead_8 : ∃ (s : State) (who : Requester) (d : Fin 16), s.pkg.mayRead who (pgDS
    d.val) 0x210 = true :=
  ⟨withRegs runState [(pgDS 15, 0x210, 0x505)], .host, 15, by decide +kernel⟩

theorem witness_RegistersAreWrittenAndRead_9 : ∃ (s : State) (who : Requester) (g : Nat) (rest : List Nat), s.pkg.mayRead
    who pgSTW 0x348 = true ∧ s.pkg.stw.attnq = g :: rest :=
  ⟨onPkg runState (fun p => { p with stw := { p.stw with attnq := [5, 6], attnOvf := true } }), .host, 5, [6],
    by decide +kernel⟩

theorem witness_RegistersAreWrittenAndRead_10 : ∃ (s : State) (who : Requester) (w : ReadWidth), s.pkg.mayRead who pgSTW
    0x348 = true ∧ w ≠ .quad :=
  ⟨withStw runState (fun x => { x with attnq := [5, 6], attnOvf := true }), .host, .low, by decide +kernel⟩

theorem witness_RegistersAreWrittenAndRead_11 : ∃ (s : State) (who : Requester) (pg : PageId) (d : Fin 16) (w : ReadWidth)
    (c : Instr) (q off : Nat), (c, q, off) ∈ [(Instr.errcountRead who pg w, pgOf pg, 0x038), (.confqRead who d w, pgDS
    d.val, 0x210), (.attnqRead who w, pgSTW, 0x348)] ∧ s.pkg.mayRead who q off = false :=
  ⟨withCore runState 3 (fun c => { c with psw := 0 }), .core 3, ⟨12, 47⟩, 0, .low, .attnqRead (.core 3) .low, pgSTW,
    0x348, by decide +kernel⟩

theorem witness_RegistersAreWrittenAndRead_12 : ∃ (p : Pkg) (lc : Lc), (p.core lc).run = .executing ∧ ¬(pswXS (p.core
    lc).psw = true ∧ (p.core lc).pl = 2) ∧ (p.core lc).pl ≤ 2 :=
  ⟨runState.pkg.setCore 3 { runState.pkg.core 3 with run := .executing, psw := 0x40 }, 3, by decide +kernel⟩

theorem witness_BlockResetKeepsTheCopies_1 : ∃ (s : State) (who : Requester) (pg : PageId) (b : Blk) (i : Nat),
    s.pkg.commands who (pgOf pg) = true ∧ s.pkg.busy (pgOf pg) = false ∧ blkOf (pgOf pg) = some (b, i) ∧ b ≠ .steward ∧
    rstMode b s.mode.mode = true :=
  ⟨withRegs runState [(pgMC 15, 0x028, 15)], .host, ⟨12, 47⟩, Blk.mc, 15, by decide +kernel⟩

theorem witness_BlockResetKeepsTheCopies_2 : ∃ (s : State) (who : Requester) (pg : PageId), s.pkg.commands who (pgOf pg) =
    true ∧ (blkOf (pgOf pg)).isSome = true ∧ s.pkg.busy (pgOf pg) = true :=
  ⟨withRegs runState [(pgMC 15, 0x020, 0x110)], .host, ⟨12, 47⟩, by decide +kernel⟩

theorem witness_BlockResetKeepsTheCopies_3 : ∃ (s : State) (who : Requester) (pg : PageId) (b : Blk) (i : Nat),
    s.pkg.commands who (pgOf pg) = true ∧ blkOf (pgOf pg) = some (b, i) ∧ rstMode b s.mode.mode = false :=
  ⟨runState, .host, ⟨12, 0x060⟩, .le, 0, by decide +kernel⟩

theorem witness_CachesAreDisabledAndInvalidated_1 : ∃ (s : State) (who : Requester) (pg : PageId) (c : Nat),
    s.pkg.commands who (pgOf pg) = true ∧ cacheOfPage (pgOf pg) = some c ∧ canDisable c = true ∧ s.pkg.en (cachePage c) =
    true ∧ s.pkg.enRefused c false = false ∧ s.pkg.loadHold (cachePage c) = false :=
  ⟨withRegs runState [(pgL1D 11 19, 0x020, 0x100), (pgL1D 11 19, 0x018, 1)], .host, ⟨11, 83⟩, 479, by decide +kernel⟩

theorem witness_CachesAreDisabledAndInvalidated_2 : ∃ (s : State) (pg : PageId) (c : Nat), cacheOfPage (pgOf pg) = some c
    ∧ (s.pkg.cache c).draining = true ∧ (s.pkg.cache c).invQueued = false :=
  ⟨onPkg (withRegs runState [(pgL1D 11 19, 0x020, 0x210)]) (fun p => p.setCache 479
    { p.cache 479 with draining := true }), ⟨11, 83⟩, 479, by decide +kernel⟩

theorem witness_CachesAreDisabledAndInvalidated_3 : ∃ (s : State) (who : Requester) (pg : PageId) (c : Nat),
    s.pkg.commands who (pgOf pg) = true ∧ cacheOfPage (pgOf pg) = some c ∧ canDisable c = true ∧ s.pkg.en (cachePage c) =
    false ∧ s.pkg.enRefused c true = false ∧ s.pkg.loadHold (cachePage c) = false :=
  ⟨withRegs runState [(pgL1D 11 19, 0x018, 0), (pgL1D 11 19, 0x020, 0x200), (pgL2 11 3, 0x018, 1)], .host, ⟨11, 83⟩, 479,
    by decide +kernel⟩

theorem witness_CachesAreDisabledAndInvalidated_4 : ∃ (s : State) (who : Requester) (pg : PageId) (c : Nat),
    s.pkg.commands who (pgOf pg) = true ∧ cacheOfPage (pgOf pg) = some c ∧ canDisable c = true ∧ s.pkg.blkState (pgOf pg)
    = 2 ∧ (s.pkg.cache c).invRunning = false ∧ (s.pkg.cache c).invQueued = false ∧ (s.pkg.cache c).draining = false :=
  ⟨withRegs runState [(pgL2 11 3, 0x020, 0x200)], .host, ⟨11, 51⟩, 527, by decide +kernel⟩

theorem witness_CachesAreDisabledAndInvalidated_5 : ∃ (s : State) (who : Requester) (pg : PageId) (c : Nat),
    s.pkg.commands who (pgOf pg) = true ∧ cacheOfPage (pgOf pg) = some c ∧ s.pkg.blkState (pgOf pg) ≠ 2 :=
  ⟨withRegs runState [(pgL2 11 3, 0x020, 0x100)], .host, ⟨11, 51⟩, 527, by decide +kernel⟩

theorem witness_CachesAreDisabledAndInvalidated_6 : ∃ (s : State) (pg : PageId) (c : Nat), cacheOfPage (pgOf pg) = some c
    ∧ (s.pkg.cache c).invRunning = true :=
  ⟨onPkg (withRegs runState [(pgL2 11 3, 0x020, 0x210)]) (fun p => p.setCache 527
    { p.cache 527 with invRunning := true }), ⟨11, 51⟩, 527, by decide +kernel⟩

theorem witness_CachesAreDisabledAndInvalidated_7 : ∃ (s : State) (who : Requester) (pg : PageId) (c : Nat),
    s.pkg.commands who (pgOf pg) = true ∧ cacheOfPage (pgOf pg) = some c ∧ canDisable c = true ∧ s.pkg.blkState (pgOf pg)
    = 2 ∧ (s.pkg.cache c).invRunning = false ∧ (s.pkg.cache c).invQueued = false ∧ (s.pkg.cache c).draining = true :=
  ⟨onPkg (withRegs runState [(pgL2 11 3, 0x020, 0x200)]) (fun p => p.setCache 527 { p.cache 527 with draining := true }),
    .host, ⟨11, 51⟩, 527, by decide +kernel⟩

theorem witness_CachesAreDisabledAndInvalidated_8 : ∃ (s : State) (pg : PageId) (c : Nat), cacheOfPage (pgOf pg) = some c
    ∧ (s.pkg.cache c).draining = true ∧ (s.pkg.cache c).invQueued = true :=
  ⟨onPkg (withRegs runState [(pgL2 11 3, 0x020, 0x210)]) (fun p => p.setCache 527
    { p.cache 527 with draining := true, invQueued := true }), ⟨11, 51⟩, 527, by decide +kernel⟩

theorem witness_CachesAreDisabledAndInvalidated_9 : ∃ (s : State) (who : Requester) (pg : PageId) (c : Nat),
    s.pkg.commands who (pgOf pg) = true ∧ cacheOfPage (pgOf pg) = some c ∧ canDisable c = true :=
  ⟨runState, .host, ⟨11, 51⟩, 527, by decide +kernel⟩

theorem witness_CachesAreDisabledAndInvalidated_10 : ∃ (s : State) (pg : PageId) (c : Nat), cacheOfPage (pgOf pg) = some c
    ∧ (s.pkg.cache c).draining = false :=
  ⟨runState, ⟨11, 51⟩, 527, by decide +kernel⟩

theorem witness_CachesAreDisabledAndInvalidated_11 : ∃ (s : State) (pg : PageId) (c : Nat) (way : Fin 16), s.pkg.answers
    (pgOf pg) = true ∧ s.pkg.loadHold (pgOf pg) = false ∧ cacheOfPage (pgOf pg) = some c ∧ 480 ≤ c ∧ (tblGet (fun _ => [])
    (s.pkg.cache c).ces way.val).length < 3 :=
  ⟨withRegs runState [(pgL2 11 3, 0x020, 0x100)], ⟨11, 51⟩, 527, 15, by decide +kernel⟩

theorem witness_CachesAreDisabledAndInvalidated_12 : ∃ (s : State) (pg : PageId), s.pkg.loadHold (pgOf pg) = true :=
  ⟨runState, ⟨11, 51⟩, by decide +kernel⟩

theorem witness_CachesAreDisabledAndInvalidated_13 : ∃ (s : State) (pg : PageId) (c : Nat) (way : Fin 16) (tag : Nat),
    cacheOfPage (pgOf pg) = some c ∧ 480 ≤ c ∧ (s.pkg.cache c).sweep.find? (fun t => t % 16 == way.val) = some tag ∧ tag <
    16 :=
  ⟨onPkg (withRegs runState [(pgL2 11 3, 0x020, 0x100)]) (fun p => p.setCache 527 { p.cache 527 with sweep := [15] }),
    ⟨11, 51⟩, 527, 15, 15, by decide +kernel⟩

theorem witness_SnapshotsLatchArmedPages_1 : ∃ (s : State) (who : Requester) (pg : PageId), s.pkg.commands who (pgOf pg) =
    true :=
  ⟨withRegs runState [(pgMC 15, 0x048, 0x500)], .host, ⟨12, 47⟩, by decide +kernel⟩

theorem witness_SnapshotsLatchArmedPages_2 : ∃ (s : State) (who : Requester), s.pkg.commands who pgSTW = true ∧
    s.pkg.snapSrc 0 = true ∧ s.pkg.snapSrc 8 = false :=
  ⟨withCfg runState pgSTW [(0x428, 1)], .host, by decide +kernel⟩

theorem witness_SnapshotsLatchArmedPages_3 : ∃ (s : State) (who : Requester), s.pkg.commands who pgSTW = true ∧
    s.pkg.snapSrc 0 = false :=
  ⟨runState, .host, by decide +kernel⟩

theorem witness_SnapshotsLatchArmedPages_4 : ∃ (s : State) (who : Requester), s.pkg.commands who pgSTW = true :=
  ⟨runState, .host, by decide +kernel⟩

theorem witness_SnapshotsLatchArmedPages_5 : ∃ (s : State) (who : Requester), s.pkg.commands who pgSTW = true ∧
    s.pkg.snapSrc 0 = true ∧ s.pkg.snapSrc 8 = true :=
  ⟨withCfg runState pgSTW [(0x428, 257)], .host, by decide +kernel⟩

theorem witness_SnapshotsLatchArmedPages_6 : ∃ (s : State), (s.pkg.stw.armAll = false ∨ s.pkg.isRipe .rearm 0 = false) :=
  ⟨withStw runState (fun x => { x with armAll := true }), by decide +kernel⟩

theorem witness_SnapshotsLatchArmedPages_7 : ∃ (s : State), (s.pkg.snapSrc 3 = false ∨ (∃ l ∈ s.pkg.stw.latches, l.1 =
    false ∧ l.2.1 = 8)) :=
  ⟨runState, by decide +kernel⟩

theorem witness_SnapshotsLatchArmedPages_8 : ∃ (s : State), s.pkg.stw.armAll = true ∧ s.pkg.isRipe .rearm 0 = true :=
  ⟨ripen (withStw runState (fun x => { x with armAll := true })) [(8, 0)], by decide +kernel⟩

theorem witness_SnapshotsLatchArmedPages_9 : ∃ (s : State), s.pkg.snapSrc 3 = true ∧ s.pkg.snapSrc 8 = false ∧ (∀ l ∈
    s.pkg.stw.latches, l.1 = true ∨ l.2.1 ≠ 8) :=
  ⟨withCfg runState pgSTW [(0x428, 8)], by decide +kernel⟩

theorem witness_SnapshotsLatchArmedPages_10 : ∃ (s : State) (off n pos : Nat), dueLatches s n ≠ [] ∧ pos = (if
    s.pkg.stw.latches.filter (fun l => l.1) = [] then min off 800 else 0) :=
  ⟨onPkg (withRegs runState [(pgMC 15, 0x048, 1), (pgSTW, 0x048, 1), (pgTELEM 11, 0x048, 1)]) (fun p =>
    { p with stw := { p.stw with latches := [(false, 1, false), (false, 8, false)] } }), 900, 1, 800, by decide +kernel⟩

theorem witness_SnapshotsLatchArmedPages_11 : ∃ (s : State), s.pkg.stw.latches = [] :=
  ⟨runState, by decide +kernel⟩

theorem witness_HomesServeRequests_1 : ∃ (s : State) (q : CohReq) (w : Nat) (e : Instr × ReqKind), homeCalm s.pkg ∧
    homeServes s.pkg q ∧ dirTakes s.pkg q.line w ∧ s.pkg.decode q.line = .data [] ∧ e ∈ [(Instr.rds q, ReqKind.rds), (.rdo
    q, .rdo), (.upg q, .upg)] ∧ dieSends s.pkg q e.2 :=
  ⟨memState, testReq, 0, (.rdo testReq, .rdo), by unfold homeCalm; decide +kernel, by unfold homeServes; decide +kernel,
    by unfold dirTakes; decide +kernel, by decide +kernel, by decide +kernel,
    (by unfold dieSends; exact ⟨by decide +kernel, by decide +kernel, by decide +kernel, opt_all (by decide +kernel),
    comes_alone (by decide +kernel)⟩)⟩

theorem witness_HomesServeRequests_2 : ∃ (s : State) (q : CohReq) (w : Nat) (e : DirEnt), dieSends s.pkg q .upg ∧ homeCalm
    s.pkg ∧ homeServes s.pkg q ∧ s.pkg.dirFind q.line = some (w, e) ∧ e.own = false ∧ e.pid = q.pid.val ∧ e.pres = 2 ^
    q.src.val ∧ entOk (s.pkg.fenceVec (mcOf q.line)) e = true :=
  ⟨withEnt memState (testEnt false), testReq, 3, testEnt false, (by unfold dieSends; exact ⟨by decide +kernel,
    by decide +kernel, by decide +kernel, opt_all (by decide +kernel), comes_alone (by decide +kernel)⟩),
    by unfold homeCalm; decide +kernel, by unfold homeServes; decide +kernel, by decide +kernel, by decide +kernel,
    by decide +kernel, by decide +kernel, by decide +kernel⟩

theorem witness_HomesServeRequests_3 : ∃ (s : State) (q : CohReq) (off : Fin 64) (len : Nat) (dist : Disturb), agentSends
    s.pkg q (ioReq q .iord off len 0 true) ∧ 1 ≤ len ∧ off.val + len ≤ 64 ∧ homeCalm s.pkg ∧ homeServes s.pkg q ∧
    s.pkg.dirFind q.line = none ∧ (s.pkg.disturb q.line dist).decode q.line = .data [] :=
  ⟨memState, { testReq with src := 29 }, 56, 8, [], (by unfold agentSends; exact ⟨by decide +kernel, by decide +kernel,
    by decide +kernel, opt_all (by decide +kernel), comes_alone (by decide +kernel)⟩), by decide +kernel,
    by decide +kernel, by unfold homeCalm; decide +kernel, by unfold homeServes; decide +kernel, by decide +kernel,
    by decide +kernel⟩

theorem witness_HomesServeRequests_4 : ∃ (s : State) (q : CohReq) (off : Fin 64) (len : Nat) (op : IoOp), agentSends s.pkg
    q (ioReq q .iowr off len (ioOpCode op) false) ∧ ioLenOk op off.val len = true ∧ homeCalm s.pkg ∧ homeServes s.pkg q ∧
    s.pkg.dirFind q.line = none ∧ (∀ w ∈ s.pkg.coh.wb, ¬ (w.src = q.src.val ∧ w.line = q.line ∧ w.txid = q.txid.val)) :=
  ⟨memState, { testReq with src := 29 }, 55, 8, IoOp.add, (by unfold agentSends; exact ⟨by decide +kernel,
    by decide +kernel, by decide +kernel, opt_all (by decide +kernel), comes_alone (by decide +kernel)⟩),
    by decide +kernel, by unfold homeCalm; decide +kernel, by unfold homeServes; decide +kernel, by decide +kernel,
    by decide +kernel⟩

theorem witness_HomesServeRequests_5 : ∃ (s : State) (src : Fin 64) (h : MsgHead) (bytes : List Byte) (mask : Word) (dirty
    poison : Bool) (x : Txn), s.pkg.agentUp src.val = true ∧ h.readable = true ∧ comesIn s.pkg (rowMsg h src.val 0x3F
    (.wbData bytes mask.toNat dirty poison)) ∧ s.pkg.coh.txns = [x] ∧ s.pkg.coh.confq = [] ∧ x.snoops = [] ∧ x.snooped =
    [] ∧ x.await = [] ∧ x.granted = false ∧ x.inval = false ∧ x.then_ = none ∧ x.req.kind = .iowr ∧ x.req.src = src.val ∧
    x.req.txid = h.txid.val ∧ x.req.line = h.line ∧ x.req.ready = false ∧ s.pkg.serveOf h.line = .served ∧ bytes.length =
    64 :=
  ⟨withCoh memState (fun c =>
    { c with txns := [{ testTxn .iowr 29 with data := some (lineOf 9), req := { mkReq .iowr 0x40 5 29 1023 with ready := false } }] }),
    29, testHead, lineOf 7, 255, false, false,
    { testTxn .iowr 29 with data := some (lineOf 9), req := { mkReq .iowr 0x40 5 29 1023 with ready := false } },
    by decide +kernel, by decide +kernel, comes_alone (by decide +kernel), by decide +kernel, by decide +kernel,
    by decide +kernel, by decide +kernel, by decide +kernel, by decide +kernel, by decide +kernel, by decide +kernel,
    by decide +kernel, by decide +kernel, by decide +kernel, by decide +kernel, by decide +kernel, by decide +kernel,
    by decide +kernel⟩

theorem witness_HomesServeRequests_6 : ∃ (s : State) (q : CohReq) (w : Nat) (e : DirEnt), dieEvictsNow s.pkg q .evc ∧
    homeCalm s.pkg ∧ s.pkg.dirFind q.line = some (w, e) ∧ e.pid = q.pid.val ∧ e.busy = false ∧ entOk (s.pkg.fenceVec (mcOf
    q.line)) e = true ∧ e.pres = 2 ^ q.src.val :=
  ⟨withEnt memState (testEnt true), testReq, 3, testEnt true, (by unfold dieEvictsNow; exact ⟨by decide +kernel,
    by decide +kernel, by decide +kernel, comes_alone (by decide +kernel)⟩), by unfold homeCalm; decide +kernel,
    by decide +kernel, by decide +kernel, by decide +kernel, by decide +kernel, by decide +kernel⟩

theorem witness_HomesServeRequests_7 : ∃ (s : State) (q : CohReq) (w : Nat) (e : DirEnt) (m : Msg) (b : List Byte) (mask :
    Nat) (dirty poison : Bool), dieEvictsNow s.pkg q .wbd ∧ homeCalm s.pkg ∧ s.pkg.dirFind q.line = some (w, e) ∧ e.pid =
    q.pid.val ∧ entOk (s.pkg.fenceVec (mcOf q.line)) e = true ∧ e.pres / 2 ^ q.src.val % 2 = 1 ∧ s.pkg.serveOf q.line =
    .served ∧ b.length = 64 ∧ s.pkg.coh.wb.find? (wbDataOf (rowMsg q.toMsgHead q.src.val 0x3F .wbd)) = some m ∧ m.body =
    .wbData b mask dirty poison :=
  ⟨withCoh (withEnt memState (testEnt true)) (fun c =>
    { c with wb := [rowMsg testHead 11 0x3F (.wbData (lineOf 7) (2 ^ 64 - 1) true false)] }), testReq, 3, testEnt true,
    rowMsg testHead 11 0x3F (.wbData (lineOf 7) (2 ^ 64 - 1) true false), lineOf 7, 2 ^ 64 - 1, true, false,
    (by unfold dieEvictsNow; exact ⟨by decide +kernel, by decide +kernel, by decide +kernel, comes_alone
    (by decide +kernel)⟩), by unfold homeCalm; decide +kernel, by decide +kernel, by decide +kernel, by decide +kernel,
    by decide +kernel, by decide +kernel, by decide +kernel, by decide +kernel, by decide +kernel⟩

theorem witness_HomesServeRequests_8 : ∃ (s : State) (line pid d txid w : Nat), homeCalm s.pkg ∧ s.pkg.coh.confq = [mkReq
    .rds line pid d txid] ∧ dirTakes s.pkg line w ∧ s.pkg.serveOf line = .served ∧ s.pkg.dcs pid = false ∧ s.pkg.rowHeld
    line = false ∧ s.pkg.decode line = .data [] :=
  ⟨withCoh memState (fun c => { c with confq := [mkReq .rds 0x40 5 11 1023] }), 0x40, 5, 11, 1023, 0,
    by unfold dirTakes homeCalm; decide +kernel⟩

theorem witness_DiesAnswerSnoopsAndComplete_1 : ∃ (s : State) (d : Die) (h : MsgHead) (x : DLine), dieHolds s.pkg d h x ∧
    comesIn s.pkg (rowMsg h 0x3F d.val .snpInv) :=
  ⟨onPkg dieState (fun p => p.putDline 11 0x40 (some (testDline .m))), 11, testHead, testDline .m,
    by unfold dieHolds; decide +kernel, comes_alone (by decide +kernel)⟩

theorem witness_DiesAnswerSnoopsAndComplete_2 : ∃ (s : State) (d : Die) (h : MsgHead) (fwd : Fin 64) (x : DLine), dieHolds
    s.pkg d h x ∧ x.st ≠ .s ∧ comesIn s.pkg (rowMsg h 0x3F d.val (.snpShr fwd.val)) :=
  ⟨onPkg dieState (fun p => p.putDline 11 0x40 (some (testDline .m))), 11, testHead, 3, testDline .m,
    by unfold dieHolds; decide +kernel, by decide +kernel, comes_alone (by decide +kernel)⟩

theorem witness_DiesAnswerSnoopsAndComplete_3 : ∃ (s : State) (d : Die) (h : MsgHead) (fwd : Fin 64) (x : DLine), dieHolds
    s.pkg d h x ∧ x.st ≠ .s ∧ comesIn s.pkg (rowMsg h 0x3F d.val (.snpFwd fwd.val)) :=
  ⟨onPkg dieState (fun p => p.putDline 11 0x40 (some (testDline .e))), 11, testHead, 3, testDline .e,
    by unfold dieHolds; decide +kernel, by decide +kernel, comes_alone (by decide +kernel)⟩

theorem witness_DiesAnswerSnoopsAndComplete_4 : ∃ (s : State) (d : Die) (h : MsgHead) (fwd : Fin 64) (x : DLine) (c :
    Instr × MsgBody), (s.pkg.dline d.val h.line = none ∨ s.pkg.dline d.val h.line = some x ∧ x.pid = h.pid.val ∧
    x.evicting = true ∧ s.pkg.l3Up d.val h.line = true) ∧ s.pkg.dieUp d.val = true ∧ h.readable = true ∧ s.pkg.readyTxn =
    none ∧ c ∈ [(Instr.snpinv d h, MsgBody.snpInv), (.snpshr d h fwd, .snpShr fwd.val), (.snpfwd d h fwd, .snpFwd
    fwd.val)] ∧ comesIn s.pkg (rowMsg h 0x3F d.val c.2) :=
  ⟨onPkg dieState (fun p => p.putDline 11 0x40 (some { testDline .m with evicting := true })), 11, testHead, 3,
    { testDline .m with evicting := true }, (.snpshr 11 testHead 3, .snpShr 3), by decide +kernel, by decide +kernel,
    by decide +kernel, by decide +kernel, by decide +kernel, comes_alone (by decide +kernel)⟩

theorem witness_DiesAnswerSnoopsAndComplete_5 : ∃ (s : State) (c : Instr) (h : MsgHead), messageRow s.pkg c = some (h,
    false) :=
  ⟨State.reset, .snpinv 11 testHead, testHead, by decide +kernel⟩

theorem witness_DiesAnswerSnoopsAndComplete_6 : ∃ (s : State) (c : Instr) (h : MsgHead), messageRow s.pkg c = some (h,
    true) ∧ h.readable = false :=
  ⟨dieState, .snpinv 11 { testHead with readable := false }, { testHead with readable := false }, by decide +kernel⟩

theorem witness_DiesAnswerSnoopsAndComplete_7 : ∃ (s : State) (dst src : Fin 64) (h : MsgHead) (g : Fin 4) (df : Bool)
    (bytes : List Byte) (dirty poison : Bool) (c : Instr × MsgBody), s.pkg.agentUp dst.val = true ∧ dst.val ≠ 0x3F ∧
    src.val = 0x3F ∧ h.readable = true ∧ s.pkg.agentReqs dst.val = [] ∧ s.pkg.coh.txns = [] ∧ c ∈ [(Instr.cmpMessage dst h
    g df, MsgBody.cmp g.val df), (.data src dst h bytes dirty poison, .data bytes dirty poison), (.err dst h 2, .err 2)] ∧
    comesIn s.pkg (rowMsg h 0x3F dst.val c.2) :=
  ⟨withCoh dieState (fun c => { c with quarantine := [(11, 1023)] }), 11, 0x3F, testHead, 2, true, lineOf 7, true, false,
    (.err 11 testHead 2, .err 2), by decide +kernel, by decide +kernel, by decide +kernel, by decide +kernel,
    by decide +kernel, by decide +kernel, by decide +kernel, comes_alone (by decide +kernel)⟩

theorem witness_DiesAnswerSnoopsAndComplete_8 : ∃ (s : State) (d : Die) (h : MsgHead) (resp : Fin 4) (c : Instr ×
    MsgBody), s.pkg.dieUp d.val = true ∧ h.readable = true ∧ resp.val < 3 ∧ s.pkg.coh.txns = [] ∧ (0x30 + mcOf h.line,
    h.txid.val) ∉ s.pkg.coh.quarantine ∧ c ∈ [(Instr.ack true d h, MsgBody.ack), (.snprsp d h resp, .snpRsp resp.val)] ∧
    comesIn s.pkg (rowMsg h d.val 0x3F c.2) :=
  ⟨dieState, 11, testHead, 2, (.snprsp 11 testHead 2, .snpRsp 2), by decide +kernel, by decide +kernel, by decide +kernel,
    by decide +kernel, by decide +kernel, by decide +kernel, comes_alone (by decide +kernel)⟩

theorem witness_DiesAnswerSnoopsAndComplete_9 : ∃ (s : State) (d : Die) (dst : Fin 64) (h : MsgHead) (g : Fin 4) (df :
    Bool) (b : List Byte) (poison : Bool) (q : AgentReq), dst.val = d.val ∧ s.pkg.dieUp d.val = true ∧ h.readable = true ∧
    comesIn s.pkg (rowMsg h 0x3F dst.val (.cmp g.val df)) ∧ s.pkg.agentReqs d.val = [q] ∧ q.txid = h.txid.val ∧ q.line =
    h.line ∧ q.pid = h.pid.val ∧ (q.kind = .rds ∨ q.kind = .rdo ∨ q.kind = .upg) ∧ cmpData s.pkg d.val h.line q df b
    poison ∧ s.pkg.readyTxn = none :=
  ⟨onPkg dieState (fun p => p.setAgentReqs 11 [{ testPending .rds with data := some (lineOf 9, false, false) }]), 11, 11,
    testHead, 1, false, lineOf 9, false, { testPending .rds with data := some (lineOf 9, false, false) },
    by decide +kernel, by decide +kernel, by decide +kernel, comes_alone (by decide +kernel), by decide +kernel,
    by decide +kernel, by decide +kernel, by decide +kernel, by decide +kernel, by unfold cmpData; decide +kernel,
    by decide +kernel⟩

theorem witness_DiesAnswerSnoopsAndComplete_10 : ∃ (s : State) (src dst : Fin 64) (h : MsgHead) (b : List Byte) (dirty
    poison : Bool) (q : AgentReq), s.pkg.agentUp dst.val = true ∧ dst.val ≠ 0x3F ∧ (src.val = 0x3F ∨ s.pkg.dieUp src.val =
    true) ∧ src ≠ dst ∧ h.readable = true ∧ comesIn s.pkg (rowMsg h src.val dst.val (.data b dirty poison)) ∧
    s.pkg.agentReqs dst.val = [q] ∧ q.txid = h.txid.val ∧ q.line = h.line ∧ q.pid = h.pid.val ∧ q.kind = .iord ∧ q.cmp =
    some (0, true) ∧ s.pkg.readyTxn = none :=
  ⟨onPkg dieState (fun p => p.setAgentReqs 29 [{ testPending .iord with cmp := some (0, true) }]), 0x3F, 29, testHead, [1,
    2], false, false, { testPending .iord with cmp := some (0, true) }, by decide +kernel, by decide +kernel,
    by decide +kernel, by decide +kernel, by decide +kernel, comes_alone (by decide +kernel), by decide +kernel,
    by decide +kernel, by decide +kernel, by decide +kernel, by decide +kernel, by decide +kernel, by decide +kernel⟩

theorem witness_DiesAnswerSnoopsAndComplete_11 : ∃ (s : State) (dst : Fin 64) (h : MsgHead) (st : Fin 8) (q : AgentReq),
    s.pkg.agentUp dst.val = true ∧ 1 ≤ st.val ∧ st.val ≤ 3 ∧ h.readable = true ∧ comesIn s.pkg (rowMsg h 0x3F dst.val
    (.err st.val)) ∧ s.pkg.agentReqs dst.val = [q] ∧ q.txid = h.txid.val ∧ (st.val = 1 → q.kind.caches = false) ∧
    s.pkg.readyTxn = none :=
  ⟨onPkg dieState (fun p => p.setAgentReqs 29 [testPending .iord]), 29, testHead, 2, testPending .iord, by decide +kernel,
    by decide +kernel, by decide +kernel, by decide +kernel, comes_alone (by decide +kernel), by decide +kernel,
    by decide +kernel, by decide +kernel, by decide +kernel⟩

theorem witness_DiesAnswerSnoopsAndComplete_12 : ∃ (s : State) (d : Die) (h : MsgHead) (x : DLine), s.pkg.dieUp d.val =
    true ∧ h.readable = true ∧ comesIn s.pkg (rowMsg h 0x3F d.val .ack) ∧ s.pkg.dline d.val h.line = some x ∧ x.evicting =
    true ∧ x.evTx = h.txid.val ∧ x.pid = h.pid.val ∧ s.pkg.readyTxn = none :=
  ⟨onPkg dieState (fun p => p.putDline 11 0x40 (some { testDline .m with evicting := true, evTx := 1023 })), 11, testHead,
    { testDline .m with evicting := true, evTx := 1023 }, by decide +kernel, by decide +kernel, comes_alone
    (by decide +kernel), by decide +kernel, by decide +kernel, by decide +kernel, by decide +kernel, by decide +kernel⟩

theorem witness_DiesAnswerSnoopsAndComplete_13 : ∃ (s : State) (d : Die) (h : MsgHead) (x : Txn), s.pkg.dieUp d.val = true
    ∧ h.readable = true ∧ comesIn s.pkg (rowMsg h d.val 0x3F .ack) ∧ s.pkg.coh.txns = [x] ∧ x.req.line = h.line ∧
    x.req.txid = h.txid.val ∧ x.req.src = d.val ∧ x.req.pid = h.pid.val ∧ x.granted = true :=
  ⟨withCoh dieState (fun c => { c with txns := [{ testTxn .rdo 11 with granted := true }] }), 11, testHead,
    { testTxn .rdo 11 with granted := true }, by decide +kernel, by decide +kernel, comes_alone (by decide +kernel),
    by decide +kernel, by decide +kernel, by decide +kernel, by decide +kernel, by decide +kernel, by decide +kernel⟩

theorem witness_DiesAnswerSnoopsAndComplete_14 : ∃ (s : State) (d : Die) (h : MsgHead) (x : Txn) (w : Nat) (e : DirEnt),
    awaitsRsp s.pkg d h x ∧ comesIn s.pkg (rowMsg h d.val 0x3F (.snpRsp 1)) ∧ x.snoops = [d.val] ∧ x.req.kind = .rdo ∧
    s.pkg.dirFind h.line = some (w, e) ∧ e.own = true ∧ (∀ f ∈ s.pkg.coh.net, ∀ b mask dirty poison, f.msg.body = .wbData
    b mask dirty poison → f.msg.line ≠ h.line) :=
  ⟨withCoh (withEnt dieState { testEnt true with busy := true }) (fun c =>
    { c with txns := [{ testTxn .rdo 4 with snoops := [11], snooped := [11] }] }), 11, testHead,
    { testTxn .rdo 4 with snoops := [11], snooped := [11] }, 3, { testEnt true with busy := true },
    by unfold awaitsRsp; decide +kernel, comes_alone (by decide +kernel), by decide +kernel, by decide +kernel,
    by decide +kernel, by decide +kernel, none_in (by decide +kernel)⟩

theorem witness_DiesAnswerSnoopsAndComplete_15 : ∃ (s : State) (d : Die) (h : MsgHead) (x : Txn), awaitsRsp s.pkg d h x ∧
    comesIn s.pkg (rowMsg h d.val 0x3F (.snpRsp 2)) ∧ x.snoops = [d.val] ∧ x.data = none :=
  ⟨withCoh (withEnt dieState { testEnt true with busy := true }) (fun c =>
    { c with txns := [{ testTxn .rdo 4 with snoops := [11], snooped := [11] }] }), 11, testHead,
    { testTxn .rdo 4 with snoops := [11], snooped := [11] }, by unfold awaitsRsp; decide +kernel, comes_alone
    (by decide +kernel), by decide +kernel, by decide +kernel⟩

theorem witness_DiesAnswerSnoopsAndComplete_16 : ∃ (s : State) (d d2 : Die) (h : MsgHead) (x : Txn) (w : Nat) (e :
    DirEnt), awaitsRsp s.pkg d h x ∧ comesIn s.pkg (rowMsg h d.val 0x3F (.snpRsp 0)) ∧ x.snoops = [d.val, d2.val] ∧ d ≠ d2
    ∧ s.pkg.dirFind h.line = some (w, e) ∧ e.own = false :=
  ⟨withCoh (withEnt dieState { testEnt false with busy := true, pres := 2 ^ 11 + 2 ^ 3 }) (fun c =>
    { c with txns := [{ testTxn .rdo 4 with snoops := [11, 3], snooped := [11, 3] }] }), 11, 3, testHead,
    { testTxn .rdo 4 with snoops := [11, 3], snooped := [11, 3] }, 3,
    { testEnt false with busy := true, pres := 2 ^ 11 + 2 ^ 3 }, by unfold awaitsRsp; decide +kernel, comes_alone
    (by decide +kernel), by decide +kernel, by decide +kernel, by decide +kernel, by decide +kernel⟩

theorem witness_DirectoryWorkAdvances_1 : ∃ (s : State) (n : Fin 16), s.pkg.quotaOn s.mode.mode s.pkg.frameNum [.run,
    .degraded, .quiesce, .drizzle] = true ∧ s.pkg.loadHold (pgDS n.val) = false ∧ (s.pkg.page (pgDS n.val)).work <
    s.pkg.audQ n.val ∧ (s.pkg.dirSet (n.val * 32768 + tblGet (fun _ => 0) s.pkg.coh.audit n.val / 16)).ent (tblGet (fun _
    => 0) s.pkg.coh.audit n.val % 16) = none :=
  ⟨memState, 15, by decide +kernel⟩

theorem witness_DirectoryWorkAdvances_2 : ∃ (s : State) (n : Fin 16), (s.pkg.quotaOn s.mode.mode s.pkg.frameNum [.run,
    .degraded, .quiesce, .drizzle] = false ∨ s.pkg.loadHold (pgDS n.val) = true ∨ s.pkg.audQ n.val ≤ (s.pkg.page (pgDS
    n.val)).work) :=
  ⟨inMode memState .load, 15, by decide +kernel⟩

theorem witness_DirectoryWorkAdvances_3 : ∃ (s : State) (who : Requester) (n : Fin 16), s.pkg.commands who (pgDS n.val) =
    true ∧ s.pkg.blkState (pgDS n.val) = 1 ∧ s.pkg.busy (pgDS n.val) = false :=
  ⟨memState, .host, 15, by decide +kernel⟩

theorem witness_DirectoryWorkAdvances_4 : ∃ (s : State) (who : Requester) (n : Fin 16), s.pkg.commands who (pgDS n.val) =
    true ∧ s.pkg.blkState (pgDS n.val) ≠ 1 :=
  ⟨runState, .host, 15, by decide +kernel⟩

theorem witness_DirectoryWorkAdvances_5 : ∃ (s : State) (n : Fin 16) (d : Die), 1 ≤ tblGet (fun _ => 0) s.pkg.coh.purge
    (n.val * 16 + d.val) ∧ tblGet (fun _ => 0) s.pkg.coh.purge (n.val * 16 + d.val) ≤ 32768 :=
  ⟨withCoh memState (fun c => { c with purge := [(251, 32768)] }), 15, 11, by decide +kernel⟩

theorem witness_DirectoryWorkAdvances_6 : ∃ (s : State) (n : Fin 16) (d : Die), (tblGet (fun _ => 0) s.pkg.coh.purge
    (n.val * 16 + d.val) = 0 ∨ 32768 < tblGet (fun _ => 0) s.pkg.coh.purge (n.val * 16 + d.val)) :=
  ⟨memState, 15, 11, by decide +kernel⟩

theorem witness_DirectoryWorkAdvances_7 : ∃ (s : State) (d : Die), s.pkg.purgeDone d.val = true :=
  ⟨withCoh (withRegs memState [(pgDS 15, 0x208, 2 ^ 11)]) (fun c =>
    { c with purge := (List.range 16).map (fun n => (n * 16 + 11, 32769)) }), 11, by decide +kernel⟩

theorem witness_DirectoryWorkAdvances_8 : ∃ (s : State) (d : Die), s.pkg.purgeDone d.val = false :=
  ⟨memState, 11, by decide +kernel⟩

theorem witness_DirectoryWorkAdvances_9 : ∃ (s : State) (d : Die) (pid : Pid), (d.val, pid.val) ∈ s.pkg.coh.drains :=
  ⟨withCoh memState (fun c => { c with drains := [(11, 5)] }), 11, 5, by decide +kernel⟩

theorem witness_DirectoryWorkAdvances_10 : ∃ (s : State) (d : Die) (pid : Pid), (d.val, pid.val) ∉ s.pkg.coh.drains :=
  ⟨memState, 11, 5, by decide +kernel⟩

theorem witness_DirectoryWorkAdvances_11 : ∃ (s : State) (pid : Pid), tblGet (fun _ => 0) s.pkg.coh.sweeps pid.val ≠ 0 :=
  ⟨withCoh memState (fun c => { c with sweeps := [(5, 4)] }), 5, by decide +kernel⟩

theorem witness_DirectoryWorkAdvances_12 : ∃ (s : State) (pid : Pid), tblGet (fun _ => 0) s.pkg.coh.sweeps pid.val = 0 :=
  ⟨memState, 5, by decide +kernel⟩

theorem witness_TimeoutsAndBooksAreRepaired_1 : ∃ (s : State) (a : Fin 64) (txid : Fin 1024) (q : AgentReq), expired s.pkg
    a.val txid.val = some q ∧ q.kind.caches = false :=
  ⟨onPkg memState (fun p => p.setAgentReqs 59 [{ testPending .iord with age := 5000 }]), 59, 1023,
    { testPending .iord with age := 5000 }, by decide +kernel⟩

theorem witness_TimeoutsAndBooksAreRepaired_2 : ∃ (s : State) (a : Fin 64) (txid : Fin 1024) (q : AgentReq), expired s.pkg
    a.val txid.val = some q ∧ q.kind.caches = true ∧ q.pid < 128 :=
  ⟨onPkg memState (fun p => p.setAgentReqs 11 [{ testPending .rds with age := 5000 }]), 11, 1023,
    { testPending .rds with age := 5000 }, by decide +kernel⟩

theorem witness_TimeoutsAndBooksAreRepaired_3 : ∃ (s : State) (a : Fin 64) (txid : Fin 1024) (x : Txn), expired s.pkg
    a.val txid.val = none ∧ s.pkg.coh.txns = [x] ∧ x.req.txid = txid.val ∧ a.val = 0x30 + mcOf x.req.line ∧ x.snoops ≠ []
    ∧ s.pkg.agentTmo a.val < x.age ∧ x.req.pid < 128 :=
  ⟨withCoh memState (fun c => { c with txns := [{ testTxn .rdo 4 with snoops := [11], snooped := [11], age := 5000 }] }),
    0x30, 1023, { testTxn .rdo 4 with snoops := [11], snooped := [11], age := 5000 }, by decide +kernel⟩

theorem witness_TimeoutsAndBooksAreRepaired_4 : ∃ (s : State) (a : Fin 64) (txid : Fin 1024) (lc : Nat) (x : IoAcc),
    expired s.pkg a.val txid.val = none ∧ s.pkg.coh.txns = [] ∧ a.val < 12 ∧ lc / 18 = a.val ∧ (s.pkg.core lc).io = [x] ∧
    x.tag = txid.val ∧ x.answer = none ∧ s.pkg.agentTmo a.val < x.age :=
  ⟨withCore memState 17 (fun c => { c with io := [{ testIo (0xD400000000000 + 8) 1023 with age := 5000 }] }), 0, 1023, 17,
    { testIo (0xD400000000000 + 8) 1023 with age := 5000 }, by decide +kernel⟩

theorem witness_TimeoutsAndBooksAreRepaired_5 : ∃ (s : State) (a : Fin 64) (txid : Fin 1024) (x : Inbound), expired s.pkg
    a.val txid.val = none ∧ s.pkg.coh.txns = [] ∧ (a.val < 12 → s.pkg.deviceWaits a.val txid.val (fun n => decide
    (s.pkg.agentTmo a.val < n)) = false) ∧ s.pkg.inq.find? (fun x => x.agent == a.val) = some x ∧ s.pkg.agentTmo a.val <
    x.age :=
  ⟨withInq memState [{ testInq 0x1B 5 0x1038 (.guest 1 77) with age := 5000 }], 0x1B, 0,
    { testInq 0x1B 5 0x1038 (.guest 1 77) with age := 5000 }, by decide +kernel⟩

theorem witness_TimeoutsAndBooksAreRepaired_6 : ∃ (s : State) (a : Fin 64) (txid : Fin 1024), expired s.pkg a.val txid.val
    = none ∧ s.pkg.coh.txns = [] ∧ (a.val < 12 → s.pkg.deviceWaits a.val txid.val (fun n => decide (s.pkg.agentTmo a.val <
    n)) = false) ∧ (∀ x ∈ s.pkg.inq, x.agent ≠ a.val ∨ x.age ≤ s.pkg.agentTmo a.val) :=
  ⟨memState, 29, 1023, by decide +kernel⟩

theorem witness_TimeoutsAndBooksAreRepaired_7 : ∃ (s : State) (a : Fin 64) (txid : Fin 1024), (a.val, txid.val) ∈
    s.pkg.coh.quarantine :=
  ⟨withCoh memState (fun c => { c with quarantine := [(59, 1023)] }), 59, 1023, by decide +kernel⟩

theorem witness_TimeoutsAndBooksAreRepaired_8 : ∃ (s : State) (a : Fin 64) (txid : Fin 1024), (a.val, txid.val) ∉
    s.pkg.coh.quarantine :=
  ⟨memState, 29, 1023, by decide +kernel⟩

theorem witness_TimeoutsAndBooksAreRepaired_9 : ∃ (s : State) (pg : PageId) (book : BitVec 16) (drift : Int), censusTakes
    s (pgOf pg, book.toNat) ∧ censusDiff s.pkg (pgOf pg, book.toNat) drift = 0 :=
  ⟨withRegs memState [(pgMP 11, 0x020, 0x100)], ⟨12, 27⟩, 779, 0, by unfold censusTakes; decide +kernel⟩

theorem witness_TimeoutsAndBooksAreRepaired_10 : ∃ (s : State) (pg : PageId) (book : BitVec 16) (drift : Int) (ended :
    Bool), censusTakes s (pgOf pg, book.toNat) ∧ (ended = false ∨ censusDiff s.pkg (pgOf pg, book.toNat) drift ≠ 0) :=
  ⟨withRegs memState [(pgMP 11, 0x020, 0x100)], ⟨12, 27⟩, 779, 1, true, by unfold censusTakes; decide +kernel⟩

theorem witness_TimeoutsAndBooksAreRepaired_11 : ∃ (s : State) (pg : PageId) (book : BitVec 16), ¬ censusTakes s (pgOf pg,
    book.toNat) :=
  ⟨State.reset, ⟨12, 27⟩, 779, by unfold censusTakes; decide +kernel⟩

theorem witness_TimeoutsAndBooksAreRepaired_12 : ∃ (s : State) (pg : PageId) (book : BitVec 16), (pgOf pg, book.toNat) ∈
    s.pkg.fabric.due :=
  ⟨onPkg memState (fun p => { p with fabric := { p.fabric with due := [(pgMP 11, 5)] } }), ⟨12, 27⟩, 5, by decide +kernel⟩

theorem witness_TimeoutsAndBooksAreRepaired_13 : ∃ (s : State) (pg : PageId) (book : BitVec 16), (pgOf pg, book.toNat) ∉
    s.pkg.fabric.due :=
  ⟨memState, ⟨12, 27⟩, 5, by decide +kernel⟩

theorem witness_TimeoutsAndBooksAreRepaired_14 : ∃ (s : State) (pg : PageId) (book : BitVec 16) (n : Nat), s.pkg.repairAge
    (pgOf pg) book.toNat = some n ∧ s.pkg.onWires (pgOf pg, book.toNat) = 0 ∧ s.pkg.buffered (pgOf pg, book.toNat) = 0 ∧
    (s.pkg.book (pgOf pg, book.toNat)).rets = 0 :=
  ⟨onPkg memState (fun p => { p with fabric := { p.fabric with repairs := [(pgMP 11, 5, 3)] } }), ⟨12, 27⟩, 5, 3,
    by decide +kernel⟩

theorem witness_TimeoutsAndBooksAreRepaired_15 : ∃ (s : State) (pg : PageId) (book : BitVec 16), (s.pkg.repairAge (pgOf
    pg) book.toNat = none ∨ s.pkg.onWires (pgOf pg, book.toNat) ≠ 0 ∨ s.pkg.buffered (pgOf pg, book.toNat) ≠ 0 ∨
    (s.pkg.book (pgOf pg, book.toNat)).rets ≠ 0) :=
  ⟨memState, ⟨12, 27⟩, 5, by decide +kernel⟩

theorem witness_TimeoutsAndBooksAreRepaired_16 : ∃ (s : State) (pg : PageId) (book : BitVec 16) (n : Nat) (d : Die), (pgOf
    pg = pgMP d.val ∨ pgOf pg = pgRING d.val) ∧ s.pkg.repairAge (pgOf pg) book.toNat = some n ∧ 16 ≤ n ∧ s.pkg.dieFenced
    d.val = false :=
  ⟨onPkg memState (fun p => { p with fabric := { p.fabric with repairs := [(pgMP 11, 5, 16)] } }), ⟨12, 27⟩, 5, 16, 11,
    by decide +kernel⟩

theorem witness_TimeoutsAndBooksAreRepaired_17 : ∃ (s : State) (pg : PageId) (book : BitVec 16) (n : Nat), pgOf pg =
    pgGRID ∧ s.pkg.repairAge (pgOf pg) book.toNat = some n ∧ 16 ≤ n :=
  ⟨onPkg memState (fun p => { p with fabric := { p.fabric with repairs := [(pgGRID, 5, 16)] } }), ⟨12, 8⟩, 5, 16,
    by decide +kernel⟩

theorem witness_TimeoutsAndBooksAreRepaired_18 : ∃ (s : State) (pg : PageId) (book : BitVec 16), (∀ n, s.pkg.repairAge
    (pgOf pg) book.toNat = some n → n < 16) :=
  ⟨onPkg memState (fun p => { p with fabric := { p.fabric with repairs := [(pgMP 11, 5, 15)] } }), ⟨12, 27⟩, 5, opt_all
    (by decide +kernel)⟩

theorem witness_LedgerQueuesAdvance_1 : ∃ (s : State) (who : Requester) (q : Fin 256) (v : Word), bellTaken s.pkg who q v
    :=
  ⟨ledgerState, .host, 1, 15, by unfold bellTaken; decide +kernel⟩

theorem witness_LedgerQueuesAdvance_2 : ∃ (s : State) (who : Requester) (q : Fin 256) (v : Word), bellTaken s.pkg who q v
    ∧ (v.toNat % 4096 + (s.pkg.qp q.val).size - (s.pkg.qp q.val).cqh) % (s.pkg.qp q.val).size ≤ (s.pkg.qp q.val).unread :=
  ⟨onPkg ledgerState (fun p => p.setQp 1 { testQp with cqt := 3 }), .host, 1, 3, by unfold bellTaken; decide +kernel⟩

theorem witness_LedgerQueuesAdvance_3 : ∃ (s : State) (who : Requester) (q : Fin 256) (v : Word) (c : Instr),
    s.pkg.reaches who (pgLEDB (q.val / 64)) = true ∧ s.pkg.bellOk who (s.pkg.qp q.val).pid = false ∧ bit (s.pkg.reg pgLE
    0x030) 18 = false ∧ c ∈ [Instr.sqtDoorbell who q v, .cqhDoorbell who q v] :=
  ⟨onPkg ledgerState (fun p => p.setCore 3 { p.core 3 with psw := 0 }), .core 3, 2, 3, .cqhDoorbell (.core 3) 2 3,
    by decide +kernel⟩

theorem witness_LedgerQueuesAdvance_4 : ∃ (s : State) (who : Requester) (q : Fin 256) (v : Word) (c : Instr),
    s.pkg.reaches who (pgLEDB (q.val / 64)) = true ∧ s.pkg.bellOk who (s.pkg.qp q.val).pid = true ∧ c ∈ [Instr.sqtDoorbell
    who q v, .cqhDoorbell who q v] :=
  ⟨ledgerState, .host, 3, 3, .cqhDoorbell .host 3 3, by decide +kernel⟩

theorem witness_LedgerQueuesAdvance_5 : ∃ (s : State) (who : Requester) (q : Fin 256) (v : Word) (c : Instr),
    s.pkg.reaches who (pgLEDB (q.val / 64)) = false ∧ c ∈ [Instr.sqtDoorbell who q v, .cqhDoorbell who q v] :=
  ⟨State.reset, .guest 0, 3, 3, .cqhDoorbell (.guest 0) 3 3, by decide +kernel⟩

theorem witness_LedgerQueuesAdvance_6 : ∃ (s : State) (q k : Nat) (b : List Byte) (p : Pkg), s.pkg.leRuns = true ∧
    s.mode.quiescing = false ∧ s.pkg.nextQp s.mode.mode = some q ∧ (List.range 4096).find? (fun k => (s.pkg.lcmd
    k).isNone) = some k ∧ s.pkg.devRead 0x10 (s.pkg.qp q).pid ((s.pkg.qp q).sq + 64 * (s.pkg.qp q).sqh) 64 = (.ok b false,
    p) :=
  ⟨onPkg ledgerState (fun p => p.setQp 1 { testQp with sqt := 3 }), 1, 0, _, _, by decide +kernel, by decide +kernel,
    by decide +kernel, by decide +kernel, dev_clean (by decide +kernel)⟩

theorem witness_LedgerQueuesAdvance_7 : ∃ (s : State), (s.pkg.leRuns = false ∨ s.mode.quiescing = true ∨ s.pkg.nextQp
    s.mode.mode = none) :=
  ⟨ledgerState, by decide +kernel⟩

theorem witness_LedgerQueuesAdvance_8 : ∃ (s : State) (k : Fin 4096) (c : LedgerCmd) (st res : Nat) (p : Pkg) (b : List
    Byte) (po : Bool), s.pkg.lcmd k.val = some c ∧ c.fin = some (st, res) ∧ s.pkg.lePhase ≠ 0 ∧ s.pkg.mayPost c st = true
    ∧ s.pkg.devWrite 0x10 (s.pkg.qp c.qp).pid ((s.pkg.qp c.qp).cq + 16 * (s.pkg.qp c.qp).cqt) (cqEntry c (s.pkg.qp
    c.qp).phase st res) = (.ok b po, p) ∧ (p.qp c.qp).dying = false :=
  ⟨withLcmd ledgerState { testLcmd 4 with fin := some (0, 0) }, 4095, { testLcmd 4 with fin := some (0, 0) }, 0, 0, _, _,
    _, by decide +kernel, by decide +kernel, by decide +kernel, by decide +kernel, dev_ok (by decide +kernel),
    by decide +kernel⟩

theorem witness_LedgerQueuesAdvance_9 : ∃ (s : State) (k : Fin 4096) (c : LedgerCmd) (st res : Nat) (p : Pkg) (b : List
    Byte) (po : Bool), s.pkg.lcmd k.val = some c ∧ c.fin = some (st, res) ∧ s.pkg.lePhase ≠ 0 ∧ s.pkg.mayPost c st = true
    ∧ s.pkg.devWrite 0x10 (s.pkg.qp c.qp).pid ((s.pkg.qp c.qp).cq + 16 * (s.pkg.qp c.qp).cqt) (cqEntry c (s.pkg.qp
    c.qp).phase st res) = (.ok b po, p) ∧ (p.qp c.qp).dying = true ∧ (∀ e ∈ p.lcmds, e.2.qp = c.qp → e.1 = k.val) :=
  ⟨onPkg (withLcmd ledgerState { testLcmd 4 with fin := some (0, 0) }) (fun p => p.setQp 1 { testQp with dying := true }),
    4095, { testLcmd 4 with fin := some (0, 0) }, 0, 0, _, _, _, by decide +kernel, by decide +kernel, by decide +kernel,
    by decide +kernel, dev_ok (by decide +kernel), by decide +kernel, by decide +kernel⟩

theorem witness_LedgerQueuesAdvance_10 : ∃ (s : State) (k : Fin 4096), ((∀ c, s.pkg.lcmd k.val = some c → c.fin = none) ∨
    s.pkg.lePhase = 0) :=
  ⟨withLcmd ledgerState (testLcmd 4), 4095, by decide +kernel⟩

theorem witness_LedgerQueuesAdvance_11 : ∃ (s : State) (k : Fin 4096) (c : LedgerCmd), s.pkg.lcmdReady k.val 0x84 = some c
    ∧ fld (c.quad 4) 7 0 ≠ 0 ∧ (s.pkg.qp (fld (c.quad 4) 7 0)).st = 0 :=
  ⟨withLcmd ledgerState (testLcmd 0x84 0x5FF), 4095, testLcmd 0x84 0x5FF, by decide +kernel⟩

theorem witness_LedgerQueuesAdvance_12 : ∃ (s : State) (k : Fin 4096) (c : LedgerCmd) (e : Instr × Nat), s.pkg.lcmdReady
    k.val e.2 = some c ∧ (fld (c.quad 4) 7 0 = 0 ∨ ((s.pkg.qp (fld (c.quad 4) 7 0)).st = 0 ↔ e.2 ≠ 0x84)) ∧ e ∈
    [(Instr.createQp k, 0x84), (.deleteQp k, 0x85), (.resetQp k, 0x86)] :=
  ⟨withLcmd ledgerState (testLcmd 0x84 2), 4095, testLcmd 0x84 2, (.createQp 4095, 0x84), by decide +kernel⟩

theorem witness_LedgerQueuesAdvance_13 : ∃ (s : State) (k : Fin 4096) (c : LedgerCmd) (e : Instr × Nat), s.pkg.lcmdReady
    k.val e.2 = some c ∧ fld (c.quad 4) 7 0 ≠ 0 ∧ (∀ x ∈ s.pkg.lcmds, x.2.qp = fld (c.quad 4) 7 0 → x.1 ≠ k.val) ∧
    (s.pkg.qp (fld (c.quad 4) 7 0)).st ≠ 0 ∧ s.pkg.dcs (s.pkg.qp (fld (c.quad 4) 7 0)).pid = false ∧ s.pkg.inflight (fld
    (c.quad 4) 7 0) ≠ 0 ∧ e ∈ [(Instr.deleteQp k, 0x85), (.resetQp k, 0x86)] :=
  ⟨onPkg (withLcmd ledgerState (testLcmd 0x85 2)) (fun p => p.setLcmd 9 (some { testLcmd 4 with qp := 2 })), 4095,
    testLcmd 0x85 2, (.deleteQp 4095, 0x85), by decide +kernel⟩

theorem witness_LedgerQueuesAdvance_14 : ∃ (s : State) (k : Fin 4096) (c : LedgerCmd) (del : Bool), s.pkg.lcmdReady k.val
    (if del then 0x85 else 0x86) = some c ∧ fld (c.quad 4) 7 0 ≠ 0 ∧ (s.pkg.qp (fld (c.quad 4) 7 0)).st ≠ 0 ∧ s.pkg.dcs
    (s.pkg.qp (fld (c.quad 4) 7 0)).pid = false ∧ s.pkg.inflight (fld (c.quad 4) 7 0) = 0 :=
  ⟨withLcmd ledgerState (testLcmd 0x86 2), 4095, testLcmd 0x86 2, false, by decide +kernel⟩

theorem witness_LedgerQueuesAdvance_15 : ∃ (s : State) (k : Fin 4096) (c : LedgerCmd), s.pkg.lcmdReady k.val 4 = some c ∧
    (∀ e ∈ s.pkg.lcmds, e.2.qp = c.qp → c.ord ≤ e.2.ord) :=
  ⟨withLcmd ledgerState (testLcmd 4), 4095, testLcmd 4, by decide +kernel⟩

theorem witness_LedgerQueuesAdvance_16 : ∃ (s : State) (k : Fin 4096) (e : Instr × Nat), s.pkg.lcmdReady k.val e.2 = none
    ∧ e ∈ [(Instr.createQp k, 0x84), (.deleteQp k, 0x85), (.resetQp k, 0x86), (.flush k, 4)] :=
  ⟨withLcmd ledgerState (testLcmd 4), 4095, (.resetQp 4095, 0x86), by decide +kernel⟩

theorem witness_LedgerQueuesAdvance_17 : ∃ (s : State) (k : Fin 4096) (c : LedgerCmd), s.pkg.lcmdReady k.val 4 = some c ∧
    (∃ e ∈ s.pkg.lcmds, e.2.qp = c.qp ∧ e.2.ord < c.ord) :=
  ⟨onPkg (withLcmd ledgerState (testLcmd 4)) (fun p => p.setLcmd 9 (some { testLcmd 2 with ord := 3 })), 4095, testLcmd 4,
    by decide +kernel⟩

theorem witness_LedgerQueuesAdvance_18 : ∃ (s : State) (who : Requester), s.pkg.commands who pgLE = true ∧ s.pkg.loadHold
    pgLE = false :=
  ⟨ledgerState, .host, by decide +kernel⟩

theorem witness_LedgerQueuesAdvance_19 : ∃ (s : State) (who : Requester), s.pkg.commands who pgLE = true ∧ s.pkg.loadHold
    pgLE = true :=
  ⟨withRegs ledgerState [(pgLE, 0x020, 0)], .host, by decide +kernel⟩

theorem witness_LedgerQueuesAdvance_20 : ∃ (s : State), s.pkg.pw.hubMain = true ∧ s.pkg.lePhase = 0 ∧ s.pkg.loadHold pgLE
    = false ∧ (∀ n, n < 2 → s.pkg.lsState n = 2 ∨ s.pkg.lsState n = 3) :=
  ⟨withRegs ledgerState [(pgLE, 0x200, 0)], by decide +kernel⟩

theorem witness_LedgerQueuesAdvance_21 : ∃ (s : State), (s.pkg.pw.hubMain = false ∨ s.pkg.lePhase ≠ 0 ∨ s.pkg.loadHold
    pgLE = true ∨ (∃ n, n < 2 ∧ s.pkg.lsState n ≠ 2 ∧ s.pkg.lsState n ≠ 3)) :=
  ⟨ledgerState, by decide +kernel⟩

theorem witness_LedgerCommandsAct_1 : ∃ (s : State) (k : Fin 4096) (c : LedgerCmd) (n : LedgerNs) (b : List Byte) (p :
    Pkg) (r : List Byte) (po : Bool), ioReady s k.val 1 c n ∧ ((s.pkg.useNsKey c.nsid).readSectors c.nsid c.lba
    c.sectors).1 = some b ∧ (((s.pkg.useNsKey c.nsid).readSectors c.nsid c.lba c.sectors).2).devWrite 0x10
    ((((s.pkg.useNsKey c.nsid).readSectors c.nsid c.lba c.sectors).2).qp c.qp).pid c.dptr b = (.ok r po, p) :=
  ⟨withLcmd (withPage ledgerState 3) (testLcmd 1), 4095, testLcmd 1, testNs, _, _, _, _,
    by unfold ioReady; decide +kernel, some_get (by decide +kernel), dev_ok (by decide +kernel)⟩

theorem witness_LedgerCommandsAct_2 : ∃ (s : State) (k : Fin 4096) (opc : Nat) (c : LedgerCmd) (n : LedgerNs) (st : Nat),
    s.pkg.lcmdReady k.val opc = some c ∧ s.pkg.lns c.nsid = some n ∧ c.buf = none ∧ c.refusal n (decide (opc ≠ 1)) = some
    st ∧ opc ∈ [1, 2, 3, 5] :=
  ⟨withLcmd ledgerState (testLcmd 3), 4095, 3, testLcmd 3, testNs, 0x0B, by decide +kernel⟩

theorem witness_LedgerCommandsAct_3 : ∃ (s : State) (k : Fin 4096) (opc : Nat) (c : LedgerCmd) (n : LedgerNs) (b : List
    Byte) (p : Pkg), (opc = 2 ∨ opc = 3) ∧ ioReady s k.val opc c n ∧ c.buf = none ∧ (s.pkg.useNsKey c.nsid).devRead 0x10
    (s.pkg.qp c.qp).pid c.dptr (c.sectors * 4096) = (.ok b false, p) :=
  ⟨withLcmd (withPage ledgerState 3) (testLcmd 2), 4095, 2, testLcmd 2, testNs, _, _, by decide +kernel,
    by unfold ioReady; decide +kernel, by decide +kernel, dev_clean (by decide +kernel)⟩

theorem witness_LedgerCommandsAct_4 : ∃ (s : State) (k : Fin 4096) (c : LedgerCmd) (n : LedgerNs) (cmp : List Byte) (p :
    Pkg) (old : List Byte) (i : Nat), ioReady s k.val 5 c n ∧ c.buf = none ∧ (s.pkg.useNsKey c.nsid).devRead 0x10
    (s.pkg.qp c.qp).pid c.cmpptr (c.sectors * 4096) = (.ok cmp false, p) ∧ (p.readSectors c.nsid c.lba c.sectors).1 = some
    old ∧ ledgerDiff old cmp 0 = some i :=
  ⟨withLcmd (withBlock ledgerState ((0xC0, 0, lineOf 1) :: (List.range 63).map (fun i => (0xC1 + i, 0, lineOf 0))))
    (testLcmd 5), 4095, testLcmd 5, testNs, _, _, _, 0, by unfold ioReady; decide +kernel, by decide +kernel, dev_clean
    (by decide +kernel), some_get (by decide +kernel), by decide +kernel⟩

theorem witness_LedgerCommandsAct_5 : ∃ (s : State) (k : Fin 4096) (c : LedgerCmd) (n : LedgerNs) (cmp : List Byte) (p :
    Pkg) (old b : List Byte) (p2 : Pkg), ioReady s k.val 5 c n ∧ c.buf = none ∧ (s.pkg.useNsKey c.nsid).devRead 0x10
    (s.pkg.qp c.qp).pid c.cmpptr (c.sectors * 4096) = (.ok cmp false, p) ∧ (p.readSectors c.nsid c.lba c.sectors).1 = some
    old ∧ ledgerDiff old cmp 0 = none ∧ (p.readSectors c.nsid c.lba c.sectors).2.lns c.nsid = some n ∧ ((p.readSectors
    c.nsid c.lba c.sectors).2.useNsKey c.nsid).devRead 0x10 ((p.readSectors c.nsid c.lba c.sectors).2.qp c.qp).pid c.dptr
    (c.sectors * 4096) = (.ok b false, p2) :=
  ⟨withLcmd (withPage ledgerState 3) (testLcmd 5), 4095, testLcmd 5, testNs, _, _, _, _, _,
    by unfold ioReady; decide +kernel, by decide +kernel, dev_clean (by decide +kernel), some_get (by decide +kernel),
    by decide +kernel, by decide +kernel, dev_clean (by decide +kernel)⟩

theorem witness_LedgerCommandsAct_6 : ∃ (s : State) (k : Fin 4096) (e : Instr × Nat), s.pkg.lcmdReady k.val e.2 = none ∧ e
    ∈ [(Instr.ledgerRead k, 1), (.write k, 2), (.writeMirrored k, 3), (.compareAndWrite k, 5), (.identify k, 0x81),
    (.createNamespace k, 0x82), (.deleteNamespace k, 0x83), (.getLog k, 0x87)] :=
  ⟨ledgerState, 4095, (.identify 4095, 0x81), by decide +kernel⟩

theorem witness_LedgerCommandsAct_7 : ∃ (s : State) (k : Fin 4096) (c : LedgerCmd) (b : List Byte) (po : Bool) (p : Pkg),
    s.pkg.lcmdReady k.val 0x81 = some c ∧ fld (c.quad 4) 1 0 = 0 ∧ s.pkg.devWrite 0x10 (s.pkg.qp c.qp).pid c.dptr
    s.pkg.identEngine = (.ok b po, p) :=
  ⟨withLcmd (withPage ledgerState 3) (testLcmd 0x81), 4095, testLcmd 0x81, _, _, _, by decide +kernel, by decide +kernel,
    dev_ok (by decide +kernel)⟩

theorem witness_LedgerCommandsAct_8 : ∃ (s : State) (k : Fin 4096) (c : LedgerCmd) (n : LedgerNs) (b : List Byte) (po :
    Bool) (p : Pkg), s.pkg.lcmdReady k.val 0x81 = some c ∧ fld (c.quad 4) 1 0 ≠ 0 ∧ s.pkg.lns c.nsid = some n ∧
    s.pkg.devWrite 0x10 (s.pkg.qp c.qp).pid c.dptr (identNs n) = (.ok b po, p) :=
  ⟨withLcmd (withPage ledgerState 3) (testLcmd 0x81 1), 4095, testLcmd 0x81 1, testNs, _, _, _, by decide +kernel,
    by decide +kernel, by decide +kernel, dev_ok (by decide +kernel)⟩

theorem witness_LedgerCommandsAct_9 : ∃ (s : State) (k : Fin 4096) (c : LedgerCmd) (b : List Byte) (po : Bool) (p : Pkg),
    s.pkg.lcmdReady k.val 0x87 = some c ∧ s.pkg.devWrite 0x10 (s.pkg.qp c.qp).pid c.dptr (s.pkg.ledgerLog (fld (c.quad 4)
    7 0)) = (.ok b po, p) :=
  ⟨withLcmd (withPage ledgerState 3) (testLcmd 0x87), 4095, testLcmd 0x87, _, _, _, by decide +kernel, dev_ok
    (by decide +kernel)⟩

theorem witness_LedgerCommandsAct_10 : ∃ (s : State) (k : Fin 4096) (c : LedgerCmd) (label : List Byte) (p : Pkg),
    s.pkg.lcmdReady k.val 0x82 = some c ∧ s.pkg.devRead 0x10 (s.pkg.qp c.qp).pid c.dptr 32 = (.ok label false, p) ∧ p.lns
    c.nsid = none ∧ c.lba ≤ p.freeSectors :=
  ⟨onPkg (withLcmd (withPage ledgerState 3) (testLcmd 0x82)) (fun p => p.setLns 127 none), 4095, testLcmd 0x82, _, _,
    by decide +kernel, dev_clean (by decide +kernel), by decide +kernel, by decide +kernel⟩

theorem witness_LedgerCommandsAct_11 : ∃ (s : State) (k : Fin 4096) (c : LedgerCmd) (label : List Byte) (p : Pkg) (n :
    LedgerNs), s.pkg.lcmdReady k.val 0x82 = some c ∧ s.pkg.devRead 0x10 (s.pkg.qp c.qp).pid c.dptr 32 = (.ok label false,
    p) ∧ p.lns c.nsid = some n ∧ p.nsDying c.nsid = false :=
  ⟨withLcmd (withPage ledgerState 3) (testLcmd 0x82), 4095, testLcmd 0x82, _, _, testNs, by decide +kernel, dev_clean
    (by decide +kernel), by decide +kernel, by decide +kernel⟩

theorem witness_LedgerCommandsAct_12 : ∃ (s : State) (k : Fin 4096) (c : LedgerCmd), s.pkg.lcmdReady k.val 0x83 = some c ∧
    (∀ e ∈ s.pkg.lcmds, e.2.io = true → e.2.nsid = c.nsid → c.ord ≤ e.2.ord) :=
  ⟨withLcmd ledgerState (testLcmd 0x83), 4095, testLcmd 0x83, by decide +kernel⟩

theorem witness_LedgerCommandsAct_13 : ∃ (s : State) (k : Fin 4096) (st : Fin 2) (c : LedgerCmd), s.pkg.lcmd k.val = some
    c ∧ s.pkg.leRuns = true ∧ c.fin = none ∧ c.buf.isSome = true ∧ c.mirror = none ∧ c.adm = none ∧ (s.pkg.qp c.qp).st ≠ 3
    ∧ s.pkg.admits st.val c.sectors = true :=
  ⟨withLcmd ledgerState { testLcmd 2 with buf := some (List.replicate 4096 7) }, 4095, 1,
    { testLcmd 2 with buf := some (List.replicate 4096 7) }, by decide +kernel⟩

theorem witness_LedgerCommandsAct_14 : ∃ (s : State) (k : Fin 4096) (c : LedgerCmd), s.pkg.lcmd k.val = some c ∧
    s.pkg.leRuns = true ∧ c.fin = none ∧ c.buf.isSome = true ∧ c.mirror = none ∧ c.adm = none ∧ (s.pkg.qp c.qp).st ≠ 3 ∧
    (∀ n, n < 2 → s.pkg.lsState n ≠ 2 ∨ s.pkg.freeOn n < c.sectors) :=
  ⟨withLcmd (withRegs ledgerState [(pgLSC 0, 0x200, 3), (pgLSC 1, 0x200, 3)])
    { testLcmd 2 with buf := some (List.replicate 4096 7) }, 4095,
    { testLcmd 2 with buf := some (List.replicate 4096 7) }, by decide +kernel⟩

theorem witness_LedgerCommandsAct_15 : ∃ (s : State) (k : Fin 4096) (c : LedgerCmd), s.pkg.lcmd k.val = some c ∧
    (s.pkg.leRuns = false ∨ c.fin.isSome = true ∨ c.buf = none ∨ c.mirror.isSome = true) :=
  ⟨withLcmd ledgerState (testLcmd 2), 4095, testLcmd 2, by decide +kernel⟩

theorem witness_LedgerCommandsAct_16 : ∃ (s : State) (k : Fin 4096) (c : LedgerCmd) (n : LedgerNs) (b : List Byte) (a :
    Nat), s.pkg.lcmd k.val = some c ∧ s.pkg.leRuns = true ∧ c.fin = none ∧ c.buf = some b ∧ b.length = c.sectors * 4096 ∧
    c.mirror = none ∧ c.adm = some a ∧ c.unit = false ∧ c.opc ≠ 3 ∧ s.pkg.lns c.nsid = some n ∧ c.made < c.sectors :=
  ⟨withLcmd ledgerState { testLcmd 2 with buf := some (List.replicate 4096 7), adm := some 1 }, 4095,
    { testLcmd 2 with buf := some (List.replicate 4096 7), adm := some 1 }, testNs, List.replicate 4096 7, 1,
    by decide +kernel⟩

theorem witness_LedgerCommandsAct_17 : ∃ (s : State) (k : Fin 4096) (c : LedgerCmd) (n : LedgerNs) (b : List Byte) (a :
    Nat), s.pkg.lcmd k.val = some c ∧ s.pkg.leRuns = true ∧ c.fin = none ∧ c.buf = some b ∧ b.length = c.sectors * 4096 ∧
    c.mirror = none ∧ c.adm = some a ∧ c.unit = true ∧ c.opc ≠ 3 ∧ s.pkg.lns c.nsid = some n :=
  ⟨withLcmd ledgerState { testLcmd 2 with buf := some (List.replicate 4096 7), adm := some 1, unit := true }, 4095,
    { testLcmd 2 with buf := some (List.replicate 4096 7), adm := some 1, unit := true }, testNs, List.replicate 4096 7,
    1, by decide +kernel⟩

theorem witness_LedgerCommandsAct_18 : ∃ (s : State) (k : Fin 4096) (c : LedgerCmd) (seq age : Nat), s.pkg.lcmd k.val =
    some c ∧ c.mirror = some (seq, age) ∧ s.pkg.mirTmo ≤ age :=
  ⟨withLcmd ledgerState { testLcmd 3 with mirror := some (5, 5000) }, 4095, { testLcmd 3 with mirror := some (5, 5000) },
    5, 5000, by decide +kernel⟩

theorem witness_LedgerCommandsAct_19 : ∃ (s : State) (k : Fin 4096), (∀ c seq age, s.pkg.lcmd k.val = some c → c.mirror =
    some (seq, age) → age < s.pkg.mirTmo) :=
  ⟨withLcmd ledgerState { testLcmd 3 with mirror := some (5, 3) }, 4095, opt_all_snd (by decide +kernel)⟩

theorem witness_LedgerCommandsAct_20 : ∃ (s : State) (src dst : Fin 32) (k : Fin 4096) (c : LedgerCmd) (n : LedgerNs) (seq
    age : Nat), s.pkg.pw.hubMain = true ∧ s.pkg.chainValid = true ∧ dst.val = s.pkg.chainAddr ∧ s.pkg.lcmd k.val = some c
    ∧ c.mirror = some (seq, age) ∧ s.pkg.lns c.nsid = some n ∧ n.peer = src.val :=
  ⟨onPkg (withLcmd chainLedger { testLcmd 3 with mirror := some (5, 0) }) (fun p => p.setLns 127 (some
    { testNs with mode := 1, peer := 4, peerNs := 6 })), 4, 5, 4095, { testLcmd 3 with mirror := some (5, 0) },
    { testNs with mode := 1, peer := 4, peerNs := 6 }, 5, 0, by decide +kernel⟩

theorem witness_LedgerCommandsAct_21 : ∃ (s : State) (src dst : Fin 32) (k : Fin 4096), s.pkg.pw.hubMain = true ∧
    s.pkg.chainValid = true ∧ dst.val = s.pkg.chainAddr ∧ (∀ c, s.pkg.lcmd k.val = some c → c.mirror = none ∨ ∀ n,
    s.pkg.lns c.nsid = some n → n.peer ≠ src.val) :=
  ⟨chainLedger, 4, 5, 4095, by decide +kernel, by decide +kernel, by decide +kernel, opt_all (by decide +kernel)⟩

theorem witness_LedgerCommandsAct_22 : ∃ (s : State) (src dst : Fin 32) (gen : Byte) (srcNs peerNs : Fin 128) (lba : Nat)
    (sectors : List (List Byte)) (n : LedgerNs), mirrorTaken s src dst gen srcNs peerNs lba sectors ∧ s.pkg.lns peerNs.val
    = some n :=
  ⟨onPkg chainLedger (fun p => p.setLns 127 (some { testNs with mode := 2, peer := 4, peerNs := 6 })), 4, 5, 7, 6, 127,
    999, [List.replicate 4096 7], { testNs with mode := 2, peer := 4, peerNs := 6 },
    by unfold mirrorTaken; decide +kernel⟩

theorem witness_LedgerCommandsAct_23 : ∃ (s : State) (src dst : Fin 32) (gen : Byte) (srcNs peerNs : Fin 128) (lba : Nat)
    (sectors : List (List Byte)), s.pkg.pw.hubMain = true ∧ s.pkg.chainValid = true ∧ (gen.toNat ≠ s.pkg.chainGen ∨
    dst.val = s.pkg.chainAddr ∧ s.pkg.leRuns = true ∧ bit (s.pkg.reg pgKEYV 0x200) 1 = true ∧ s.pkg.mirrorOk s.mode.mode
    src.val srcNs.val peerNs.val lba sectors.length = false) :=
  ⟨chainLedger, 4, 5, 6, 6, 127, 999, [List.replicate 4096 7], by decide +kernel⟩

theorem witness_LedgerCommandsAct_24 : ∃ (s : State) (ls : Fin 2), s.pkg.pw.hubMain = true ∧ s.pkg.lsState ls.val ≠ 3 :=
  ⟨withLcmd ledgerState { testLcmd 2 with buf := some (List.replicate 4096 7), adm := some 1, unit := true }, 1,
    by decide +kernel⟩

theorem witness_LedgerCommandsAct_25 : ∃ (s : State) (ls : Fin 2), (s.pkg.pw.hubMain = false ∨ s.pkg.lsState ls.val = 3)
    :=
  ⟨withRegs ledgerState [(pgLSC 1, 0x200, 3)], 1, by decide +kernel⟩

theorem witness_LedgerCommandsAct_26 : ∃ (s : State), (s.pkg.lePhase ≠ 1 ∨ bit (s.pkg.reg pgKEYV 0x200) 1 = false) :=
  ⟨ledgerState, by decide +kernel⟩

theorem witness_LedgerCommandsAct_27 : ∃ (s : State), s.pkg.lePhase = 1 ∧ bit (s.pkg.reg pgKEYV 0x200) 1 = true :=
  ⟨withRegs ledgerState [(pgLE, 0x200, 1)], by decide +kernel⟩

theorem witness_KeysAndSlotsAdvance_1 : ∃ (s : State), s.pkg.commands .host pgKEYV = true ∧ s.pkg.boot.keyed = 0 ∧
    (s.mode.mode = .service ∨ s.mode.mode = .load) ∧ s.pkg.noLabel = false :=
  ⟨withRegs (inMode memState .load) [(pgKEYV, 0xC18, 1)], by decide +kernel⟩

theorem witness_KeysAndSlotsAdvance_2 : ∃ (s : State) (who : Requester), s.pkg.commands who pgKEYV = true :=
  ⟨inMode memState .load, .steward, by decide +kernel⟩

theorem witness_KeysAndSlotsAdvance_3 : ∃ (s : State), s.pkg.keysDue = true ∧ s.pkg.isRipe .keys 0 = true :=
  ⟨ripen (withBoot (withPower cipherState (fun w => { w with hubMain := true })) (fun b => { b with keyed := 1 })) [(10,
    0)], by decide +kernel⟩

theorem witness_KeysAndSlotsAdvance_4 : ∃ (s : State), (s.pkg.keysDue = false ∨ s.pkg.isRipe .keys 0 = false) :=
  ⟨cipherState, by decide +kernel⟩

theorem witness_KeysAndSlotsAdvance_5 : ∃ (s : State) (who : Requester) (pid : Pid), s.pkg.commands who pgKEYV = true ∧
    (who = .host ∨ who = .steward) ∧ s.pkg.rekeyOk s.mode.mode pid.val = true :=
  ⟨cipherState, .host, 127, by decide +kernel⟩

theorem witness_KeysAndSlotsAdvance_6 : ∃ (s : State) (who : Requester), s.pkg.commands who pgKEYV = true :=
  ⟨memState, .host, by decide +kernel⟩

theorem witness_KeysAndSlotsAdvance_7 : ∃ (s : State) (pid : Pid) (o : Nat), (s.pkg.part pid.val).rekey = some o ∧
    s.pkg.isRipe .rekey pid.val = true :=
  ⟨ripen (onPkg cipherState (fun p => p.setPart 5 { p.part 5 with rekey := some 2 })) [(13, 5)], 5, 2, by decide +kernel⟩

theorem witness_KeysAndSlotsAdvance_8 : ∃ (s : State) (pid : Pid), ((s.pkg.part pid.val).rekey = none ∨ s.pkg.isRipe
    .rekey pid.val = false) :=
  ⟨cipherState, 5, by decide +kernel⟩

theorem witness_KeysAndSlotsAdvance_9 : ∃ (s : State) (who : Requester) (e : Fin 14) (k kind : Fin 16), s.pkg.commands who
    (cePage e.val) = true ∧ e.val ≠ 13 ∧ 1 ≤ kind.val ∧ kind.val ≤ 4 ∧ s.pkg.loadHold (cePage e.val) = false ∧ s.pkg.busy
    (cePage e.val) = false ∧ (s.pkg.cslot e.val k.val).st ≠ 0 ∧ (s.pkg.cslot e.val k.val).susp = false ∧ (s.pkg.ceng
    e.val).running ≠ some k.val :=
  ⟨withRegs cipherState [(cePage 11, 0xC00, 77), (cePage 11, 0xC38, 88)], .host, 11, 15, 4, by decide +kernel⟩

theorem witness_KeysAndSlotsAdvance_10 : ∃ (s : State) (who : Requester) (e : Fin 14), s.pkg.commands who (cePage e.val) =
    true ∧ e.val ≠ 13 :=
  ⟨cipherState, .host, 11, by decide +kernel⟩

theorem witness_KeysAndSlotsAdvance_11 : ∃ (s : State) (who : Requester), s.pkg.commands who (cePage 13) = true :=
  ⟨cipherState, .host, by decide +kernel⟩

theorem witness_KeysAndSlotsAdvance_12 : ∃ (s : State) (who : Requester) (e : Fin 14) (k : Fin 16), s.pkg.commands who
    (cePage e.val) = true ∧ s.pkg.loadHold (cePage e.val) = false ∧ s.pkg.busy (cePage e.val) = false ∧ (s.pkg.cslot e.val
    k.val).st = 2 ∧ s.pkg.dcs (s.pkg.slotPid e.val k.val) = false :=
  ⟨onPkg cipherState (fun p => p.setCslot 11 15 { p.cslot 11 15 with st := 2, cause := 3, head := 2 }), .host, 11, 15,
    by decide +kernel⟩

theorem witness_KeysAndSlotsAdvance_13 : ∃ (s : State) (who : Requester) (e : Fin 14) (k : Fin 16), s.pkg.commands who
    (cePage e.val) = true ∧ (s.pkg.loadHold (cePage e.val) = true ∨ s.pkg.busy (cePage e.val) = true ∨ (s.pkg.cslot e.val
    k.val).st ≠ 2) :=
  ⟨cipherState, .host, 11, 15, by decide +kernel⟩

theorem witness_KeysAndSlotsAdvance_14 : ∃ (s : State) (who : Requester) (e : Fin 14) (k : Fin 16) (v : Word),
    s.pkg.reaches who (ceBells e.val) = true ∧ e.val ≠ 13 ∧ s.pkg.bellOk who (s.pkg.slotPid e.val k.val) = true ∧
    (s.pkg.cslot e.val k.val).st = 1 ∧ v.toNat % 4096 < s.pkg.slotSize e.val k.val :=
  ⟨cipherState, .host, 11, 15, 15, by decide +kernel⟩

theorem witness_KeysAndSlotsAdvance_15 : ∃ (s : State) (who : Requester) (e : Fin 14) (k : Fin 16) (v : Word),
    s.pkg.reaches who (ceBells e.val) = true ∧ e.val ≠ 13 ∧ s.pkg.bellOk who (s.pkg.slotPid e.val k.val) = true ∧
    ((s.pkg.cslot e.val k.val).st ≠ 1 ∨ s.pkg.slotSize e.val k.val ≤ v.toNat % 4096) ∧ bit (s.pkg.reg (cePage e.val)
    0x030) 17 = false :=
  ⟨cipherState, .host, 11, 3, 1, by decide +kernel⟩

theorem witness_KeysAndSlotsAdvance_16 : ∃ (s : State) (who : Requester) (e : Fin 14) (k : Fin 16), s.pkg.reaches who
    (ceBells e.val) = true ∧ (e.val = 13 ∨ s.pkg.bellOk who (s.pkg.slotPid e.val k.val) = false) ∧ bit (s.pkg.reg (cePage
    e.val) 0x030) 16 = false :=
  ⟨withCfg (onPkg cipherState (fun p => p.setCore 3 { p.core 3 with psw := 0 })) (cePage 11) [(0x400 + 16 * 15, 5 * 2 ^
    56)], .core 3, 11, 15, by decide +kernel⟩

theorem witness_KeysAndSlotsAdvance_17 : ∃ (s : State) (who : Requester) (e : Fin 14), s.pkg.reaches who (ceBells e.val) =
    false :=
  ⟨cipherState, .guest 0, 11, by decide +kernel⟩

theorem witness_KeysAndSlotsAdvance_18 : ∃ (s : State) (e : Fin 14) (k : Fin 16) (b : List Byte) (p : Pkg), s.pkg.engUp
    e.val = true ∧ (s.pkg.cslot e.val k.val).st = 1 ∧ (s.pkg.cslot e.val k.val).head ≠ (s.pkg.cslot e.val k.val).tail ∧
    (s.pkg.cslot e.val k.val).msg = none ∧ s.pkg.devRead (ceAgent e.val) (s.pkg.slotPid e.val k.val) (s.pkg.slotBase e.val
    k.val + 64 * (s.pkg.cslot e.val k.val).head) 64 = (.ok b false, p) :=
  ⟨cipherState, 11, 15, _, _, by decide +kernel, by decide +kernel, by decide +kernel, by decide +kernel, dev_clean
    (by decide +kernel)⟩

theorem witness_KeysAndSlotsAdvance_19 : ∃ (s : State) (e : Fin 14) (k : Fin 16) (a : DevAns) (p : Pkg), s.pkg.engUp e.val
    = true ∧ (s.pkg.cslot e.val k.val).st = 1 ∧ (s.pkg.cslot e.val k.val).head ≠ (s.pkg.cslot e.val k.val).tail ∧
    (s.pkg.cslot e.val k.val).msg = none ∧ s.pkg.devRead (ceAgent e.val) (s.pkg.slotPid e.val k.val) (s.pkg.slotBase e.val
    k.val + 64 * (s.pkg.cslot e.val k.val).head) 64 = (a, p) ∧ a ≠ .waiting ∧ (∀ b, a ≠ .ok b false) :=
  ⟨withCfg cipherState (cePage 11) [(0x408 + 16 * 15, 2 ^ 50)], 11, 15, _, _, by decide +kernel, by decide +kernel,
    by decide +kernel, by decide +kernel, Prod.mk.eta.symm, by decide +kernel, not_clean (by decide +kernel)⟩

theorem witness_KeysAndSlotsAdvance_20 : ∃ (s : State) (e : Fin 14) (k : Fin 16), (s.pkg.engUp e.val = false ∨
    (s.pkg.cslot e.val k.val).st ≠ 1 ∨ (s.pkg.cslot e.val k.val).head = (s.pkg.cslot e.val k.val).tail ∨ (s.pkg.cslot
    e.val k.val).msg.isSome = true) :=
  ⟨cipherState, 11, 3, by decide +kernel⟩

theorem witness_KeysAndSlotsAdvance_21 : ∃ (s : State) (e : Fin 14), (s.pkg.suspended e.val = none ∨ (s.pkg.ceng
    e.val).running.isSome = true ∨ (s.pkg.rrSlot e.val (s.pkg.ceng e.val).last1 true).isSome = true ∧ (s.pkg.ceng
    e.val).urgent < s.pkg.urgMax e.val) :=
  ⟨cipherState, 11, by decide +kernel⟩

theorem witness_KeysAndSlotsAdvance_22 : ∃ (s : State) (e : Fin 14) (k : Nat), s.pkg.suspended e.val = some k ∧
    (s.pkg.ceng e.val).running = none ∧ (s.pkg.rrSlot e.val (s.pkg.ceng e.val).last1 true = none ∨ s.pkg.urgMax e.val ≤
    (s.pkg.ceng e.val).urgent) :=
  ⟨onPkg cipherState (fun p => p.setCslot 11 15 { p.cslot 11 15 with susp := true, msg := some (testMsg 2 2 32) }), 11,
    15, by decide +kernel⟩

theorem witness_KeysAndSlotsAdvance_23 : ∃ (s : State) (e : Fin 14) (k : Fin 16) (m : CipherMsg) (st : Nat) (un : Bool) (b
    : List Byte) (po : Bool) (p : Pkg), (s.pkg.cslot e.val k.val).msg = some m ∧ m.fin = some (st, un) ∧ s.pkg.devWrite
    (ceAgent e.val) (s.pkg.slotPid e.val k.val) (s.pkg.slotBase e.val k.val + 64 * (s.pkg.cslot e.val k.val).head)
    (leBytes 8 (doneQuad (m.quad 0) st un).toNat) = (.ok b po, p) :=
  ⟨onPkg cipherState (fun p => p.setCslot 11 15
    { p.cslot 11 15 with msg := some { testMsg 2 2 32 with fin := some (1, false) } }), 11, 15,
    { testMsg 2 2 32 with fin := some (1, false) }, 1, false, _, _, _, by decide +kernel, by decide +kernel, dev_ok
    (by decide +kernel)⟩

theorem witness_KeysAndSlotsAdvance_24 : ∃ (s : State) (e : Fin 14) (k : Fin 16), (∀ m, (s.pkg.cslot e.val k.val).msg =
    some m → m.fin = none) :=
  ⟨withMsg (testMsg 2 2 32), 11, 15, opt_all (by decide +kernel)⟩

theorem witness_CipherOperationsFollowTheirAlgorithms_1 : ∃ (s : State) (e : Fin 14) (k : Fin 16) (n : Nat) (enc : Bool)
    (m : CipherMsg) (q : Pkg) (aad data : List Byte) (q2 : Pkg), cipherRuns s.pkg e.val k.val (if enc then 2 else 3) m enc
    q ∧ dataMoves q e.val k.val m enc n aad data q2 :=
  ⟨withMsg (testMsg 3 2 32), 11, 15, 1, false, testMsg 3 2 32, _, _, _, _, cipher_runs (by decide +kernel), data_moves
    (by decide +kernel)⟩

theorem witness_CipherOperationsFollowTheirAlgorithms_2 : ∃ (s : State) (e : Fin 14) (k : Fin 16) (n : Nat) (m :
    CipherMsg) (q : Pkg) (aad data : List Byte) (q2 q3 : Pkg), cipherRuns s.pkg e.val k.val 2 m true q ∧ dataMoves q e.val
    k.val m true n aad data q2 ∧ m.len ≤ data.length ∧ m.alg = 0 ∧ writesAll q2 e.val k.val m.tagPtr ((gcmTag
    (aesRoundKeys (toNats (q.cslot e.val k.val).key)) (m.iv.take 12) aad (algRun 0 true (q.cslot e.val k.val).key m.iv
    data)).take m.tagLen) q3 :=
  ⟨withMsg (testMsg 2 0 24), 11, 15, 9, testMsg 2 0 24, _, _, _, _, _, cipher_runs (by decide +kernel), data_moves
    (by decide +kernel), by decide +kernel, by decide +kernel, writes_all (by decide +kernel)⟩

theorem witness_CipherOperationsFollowTheirAlgorithms_3 : ∃ (s : State) (e : Fin 14) (k : Fin 16) (n : Nat) (m :
    CipherMsg) (q : Pkg) (aad data : List Byte) (q2 : Pkg) (tg : List Byte) (q3 : Pkg), cipherRuns s.pkg e.val k.val 3 m
    false q ∧ dataMoves q e.val k.val m false n aad data q2 ∧ m.len ≤ data.length ∧ m.alg = 0 ∧ readsAll q2 e.val k.val
    m.tagPtr m.tagLen tg q3 :=
  ⟨withMsg (testMsg 3 0 24), 11, 15, 9, testMsg 3 0 24, _, _, _, _, _, _, cipher_runs (by decide +kernel), data_moves
    (by decide +kernel), by decide +kernel, by decide +kernel, reads_all (by decide +kernel)⟩

theorem witness_CipherOperationsFollowTheirAlgorithms_4 : ∃ (s : State) (e : Fin 14) (k : Fin 16) (n : Nat) (ver : Bool)
    (m : CipherMsg) (q : Pkg) (b : List Byte) (q1 : Pkg), cipherRuns s.pkg e.val k.val (if ver then 5 else 4) m (!ver) q ∧
    readsAll q e.val k.val (m.src + (inSoFar q e.val k.val).length) (nextLen q e.val k.val m n) b q1 ∧ (inSoFar q e.val
    k.val ++ b).length < m.len :=
  ⟨withMsg (testMsg 5 4 24), 11, 15, 1, true, testMsg 5 4 24, _, _, _, cipher_runs (by decide +kernel), reads_all
    (by decide +kernel), by decide +kernel⟩

theorem witness_CipherOperationsFollowTheirAlgorithms_5 : ∃ (s : State) (e : Fin 14) (k : Fin 16) (n : Nat) (m :
    CipherMsg) (q : Pkg) (b : List Byte) (q1 q2 : Pkg), cipherRuns s.pkg e.val k.val 4 m true q ∧ readsAll q e.val k.val
    (m.src + (inSoFar q e.val k.val).length) (nextLen q e.val k.val m n) b q1 ∧ m.len ≤ (inSoFar q e.val k.val ++
    b).length ∧ q1.slotPid e.val k.val = q.slotPid e.val k.val ∧ writesAll q1 e.val k.val m.tagPtr ((cmac (q.cslot e.val
    k.val).key (inSoFar q e.val k.val ++ b)).take m.tagLen) q2 :=
  ⟨withMsg (testMsg 4 4 24), 11, 15, 2, testMsg 4 4 24, _, _, _, _, cipher_runs (by decide +kernel), reads_all
    (by decide +kernel), by decide +kernel, by decide +kernel, writes_all (by decide +kernel)⟩

theorem witness_CipherOperationsFollowTheirAlgorithms_6 : ∃ (s : State) (e : Fin 14) (k : Fin 16) (n : Nat) (m :
    CipherMsg) (q : Pkg) (b : List Byte) (q1 : Pkg) (tg : List Byte) (q2 : Pkg), cipherRuns s.pkg e.val k.val 5 m false q
    ∧ readsAll q e.val k.val (m.src + (inSoFar q e.val k.val).length) (nextLen q e.val k.val m n) b q1 ∧ m.len ≤ (inSoFar
    q e.val k.val ++ b).length ∧ q1.slotPid e.val k.val = q.slotPid e.val k.val ∧ readsAll q1 e.val k.val m.tagPtr
    m.tagLen tg q2 :=
  ⟨withMsg (testMsg 5 4 24), 11, 15, 2, testMsg 5 4 24, _, _, _, _, _, cipher_runs (by decide +kernel), reads_all
    (by decide +kernel), by decide +kernel, by decide +kernel, reads_all (by decide +kernel)⟩

theorem witness_CipherOperationsFollowTheirAlgorithms_7 : ∃ (s : State) (e : Fin 14) (k : Fin 16) (n : Nat) (ver : Bool)
    (m : CipherMsg) (q : Pkg) (b : List Byte) (a : DevAns) (q1 : Pkg), cipherRuns s.pkg e.val k.val (if ver then 5 else 4)
    m (!ver) q ∧ q.readPrefix (ceAgent e.val) (q.slotPid e.val k.val) (m.src + (inSoFar q e.val k.val).length) (nextLen q
    e.val k.val m n) = (b, a, q1) ∧ devStatus a ≠ 0 ∧ devStatus a ≠ 1 :=
  ⟨withMsg { testMsg 5 4 24 with ent := (testMsg 5 4 24).ent.set 1 (2 ^ 50) }, 11, 15, 2, true,
    { testMsg 5 4 24 with ent := (testMsg 5 4 24).ent.set 1 (2 ^ 50) }, _, _, _, _, cipher_runs (by decide +kernel),
    triple, by decide +kernel, by decide +kernel⟩

theorem witness_CipherOperationsFollowTheirAlgorithms_8 : ∃ (s : State) (e : Fin 14) (k : Fin 16) (n : Nat) (c : Instr ×
    Nat), cipherRow e k n c ∧ (s.pkg.engStart e.val).cipherReady e.val k.val c.2 = none :=
  ⟨cipherState, 11, 15, 1, (.verify 11 15 1, 5), by unfold cipherRow; decide +kernel⟩

theorem witness_CipherOperationsFollowTheirAlgorithms_9 : ∃ (s : State) (e : Fin 14) (k : Fin 16) (m : CipherMsg) (q :
    Pkg) (b : List Byte) (q1 q2 : Pkg), s.pkg.cipherReady e.val k.val 6 = some m ∧ s.pkg.cipherCheck e.val k.val m = none
    ∧ (s.pkg.cslot e.val m.xslot).kind = 4 ∧ s.pkg.slotPid e.val m.xslot = s.pkg.slotPid e.val k.val ∧ counted s.pkg e.val
    m.xslot true q ∧ readsAll q e.val k.val m.src 8 b q1 ∧ q1.slotPid e.val k.val = q.slotPid e.val k.val ∧ writesAll q1
    e.val k.val m.dst (beBytes 8 (tdesEnc (s.pkg.cslot e.val m.xslot).key (tdesDec (s.pkg.cslot e.val k.val).key (beNat
    b)))) q2 :=
  ⟨withMsg (testMsg 6 8 8) 4, 11, 15, testMsg 6 8 8, _, _, _, _, by decide +kernel, by decide +kernel, by decide +kernel,
    by decide +kernel, counts (by decide +kernel), reads_all (by decide +kernel), by decide +kernel, writes_all
    (by decide +kernel)⟩

theorem witness_CipherOperationsFollowTheirAlgorithms_10 : ∃ (s : State) (e : Fin 14) (k : Fin 16) (m : CipherMsg),
    s.pkg.cipherReady e.val k.val 6 = some m ∧ s.pkg.cipherCheck e.val k.val m = none :=
  ⟨onPkg (withMsg (testMsg 6 8 8) 4) (fun p => p.setCslot 11 14 { p.cslot 11 14 with kind := 1 }), 11, 15, testMsg 6 8 8,
    by decide +kernel⟩

theorem witness_CipherOperationsFollowTheirAlgorithms_11 : ∃ (s : State) (e : Fin 14) (k : Fin 16) (m : CipherMsg),
    s.pkg.cipherReady e.val k.val 1 = some m :=
  ⟨withRegs (withMsg (testMsg 1 0 0)) [(pgKEYV, 0x200, 0)], 11, 15, testMsg 1 0 0, by decide +kernel⟩

theorem witness_CipherOperationsFollowTheirAlgorithms_12 : ∃ (s : State) (e : Fin 14) (k : Fin 16) (m : CipherMsg) (b :
    List Byte) (q : Pkg), s.pkg.cipherReady e.val k.val 1 = some m ∧ m.bad = false ∧ s.pkg.formed = true ∧ readsAll s.pkg
    e.val k.val m.aux m.aadLen b q ∧ q.slotLim e.val k.val ≤ (q.cslot e.val k.val).use ∧ (q.cslot e.val k.val).label =
    some b :=
  ⟨onPkg (withMsg (testMsg 1 0 0)) (fun p => p.setCslot 11 15
    { p.cslot 11 15 with use := 2 ^ 32, label := some (List.replicate 16 0) }), 11, 15, testMsg 1 0 0, _, _,
    by decide +kernel, by decide +kernel, by decide +kernel, reads_all (by decide +kernel), by decide +kernel,
    by decide +kernel⟩

theorem witness_CipherOperationsFollowTheirAlgorithms_13 : ∃ (s : State) (e : Fin 14) (k : Fin 16) (m : CipherMsg) (b :
    List Byte) (q : Pkg), s.pkg.cipherReady e.val k.val 1 = some m ∧ m.bad = false ∧ s.pkg.formed = true ∧ readsAll s.pkg
    e.val k.val m.aux m.aadLen b q ∧ ¬ (q.slotLim e.val k.val ≤ (q.cslot e.val k.val).use ∧ (q.cslot e.val k.val).label =
    some b) :=
  ⟨withMsg (testMsg 1 0 0), 11, 15, testMsg 1 0 0, _, _, by decide +kernel, by decide +kernel, by decide +kernel,
    reads_all (by decide +kernel), by decide +kernel⟩

theorem witness_CipherOperationsFollowTheirAlgorithms_14 : ∃ (s : State) (e : Fin 14) (k : Fin 16) (n : Nat) (c : Instr ×
    Nat) (m : CipherMsg) (st : Nat), cipherRow e k n c ∧ c.2 ≠ 1 ∧ s.pkg.cipherReady e.val k.val c.2 = some m ∧ (c.2 = 6 ∨
    (s.pkg.cslot e.val k.val).save = none) ∧ s.pkg.cipherCheck e.val k.val m = some st :=
  ⟨withMsg (testMsg 4 3 24), 11, 15, 1, (.mac 11 15 1, 4), testMsg 4 3 24, 5, by unfold cipherRow; decide +kernel⟩

theorem witness_CipherOperationsFollowTheirAlgorithms_15 : ∃ (s : State) (e : Fin 14) (k : Fin 16) (n : Nat) (c : Instr ×
    Nat) (m : CipherMsg), c ∈ [(Instr.encrypt e k n, 2), (.mac e k n, 4)] ∧ s.pkg.cipherReady e.val k.val c.2 = some m ∧
    (s.pkg.cslot e.val k.val).save = none ∧ s.pkg.cipherCheck e.val k.val m = none ∧ s.pkg.slotLim e.val k.val ≤
    (s.pkg.cslot e.val k.val).use :=
  ⟨onPkg (withMsg (testMsg 4 4 24)) (fun p => p.setCslot 11 15 { p.cslot 11 15 with use := 2 ^ 32 }), 11, 15, 1, (.mac 11
    15 1, 4), testMsg 4 4 24, by decide +kernel⟩

theorem witness_ChainMessagesTakeEffect_1 : ∃ (s : State) (addr gen : Byte), s.pkg.pw.hubMain = true ∧ s.pkg.head = false
    ∧ addr.toNat < 32 ∧ s.pkg.genStands gen.toNat = true :=
  ⟨withRegs (withHead runState) [(pgCH false, 0x200, 2), (pgCH true, 0x200, 2)], 30, 5, by decide +kernel⟩

theorem witness_ChainMessagesTakeEffect_2 : ∃ (s : State) (addr gen : Byte), (s.pkg.pw.hubMain = false ∨ s.pkg.head = true
    ∨ 32 ≤ addr.toNat ∨ s.pkg.genStands gen.toNat = false) :=
  ⟨withRegs runState [(pgCH false, 0x200, 2 ^ 21 + 5 * 2 ^ 32)], 31, 4, by decide +kernel⟩

theorem witness_ChainMessagesTakeEffect_3 : ∃ (s : State), s.pkg.pw.hubMain = true :=
  ⟨runState, by decide +kernel⟩

theorem witness_ChainMessagesTakeEffect_4 : ∃ (s : State), s.pkg.pw.hubMain = false :=
  ⟨State.reset, by decide +kernel⟩

theorem witness_ChainMessagesTakeEffect_5 : ∃ (s : State) (gen : Byte), s.pkg.pw.hubMain = true ∧ s.pkg.chainValid = true
    ∧ newerGen gen.toNat s.pkg.chainGen = true :=
  ⟨withRegs runState [(pgCH false, 0x200, 2 ^ 21 + 5 * 2 ^ 32)], 6, by decide +kernel⟩

theorem witness_ChainMessagesTakeEffect_6 : ∃ (s : State) (gen : Byte), (s.pkg.pw.hubMain = false ∨ s.pkg.chainValid =
    false ∨ newerGen gen.toNat s.pkg.chainGen = false) :=
  ⟨State.reset, 6, by decide +kernel⟩

theorem witness_ChainMessagesTakeEffect_7 : ∃ (s : State), s.pkg.chain.join = true :=
  ⟨onPkg runState (fun p => { p with chain := { p.chain with join := true } }), by decide +kernel⟩

theorem witness_ChainMessagesTakeEffect_8 : ∃ (s : State), s.pkg.chain.join = false :=
  ⟨runState, by decide +kernel⟩

theorem witness_ChainMessagesTakeEffect_9 : ∃ (s : State) (down : Bool), s.pkg.chUp down = true :=
  ⟨withRegs runState [(pgCH true, 0x200, 2)], true, by decide +kernel⟩

theorem witness_ChainMessagesTakeEffect_10 : ∃ (s : State) (down : Bool), s.pkg.chUp down = false :=
  ⟨runState, true, by decide +kernel⟩

theorem witness_ChainMessagesTakeEffect_11 : ∃ (s : State), s.pkg.head = false ∧ s.pkg.pw.hubMain = true :=
  ⟨onPkg (withHead runState) (fun p => { p with fr := { p.fr with state := 1 } }), by decide +kernel⟩

theorem witness_ChainMessagesTakeEffect_12 : ∃ (s : State) (ph : Int), s.pkg.head = false ∧ s.pkg.pw.hubMain = true ∧
    s.pkg.fr.state = 0 ∧ s.pkg.fr.aligned = false ∧ -20 ≤ ph ∧ ph ≤ 20 ∧ s.mode.mode = .load :=
  ⟨withHead (inMode runState .load), -20, by decide +kernel⟩

theorem witness_ChainMessagesTakeEffect_13 : ∃ (s : State) (ph : Int), s.pkg.head = false ∧ s.pkg.pw.hubMain = true ∧
    (s.pkg.fr.state ≠ 0 ∨ ph < -20 ∨ 20 < ph ∨ s.mode.mode ≠ .load ∨ s.pkg.fr.aligned = true) :=
  ⟨withHead runState, -21, by decide +kernel⟩

theorem witness_ChainMessagesTakeEffect_14 : ∃ (s : State), (s.pkg.head = true ∨ s.pkg.pw.hubMain = false) :=
  ⟨runState, by decide +kernel⟩

theorem witness_ChainMessagesTakeEffect_15 : ∃ (s : State), s.pkg.head = false ∧ s.pkg.fr.state = 1 ∧ 4 ≤ s.pkg.fr.outside
    :=
  ⟨onPkg (withHead runState) (fun p => { p with fr := { p.fr with state := 1, outside := 4 } }), by decide +kernel⟩

theorem witness_ChainMessagesTakeEffect_16 : ∃ (s : State), (s.pkg.head = true ∨ s.pkg.fr.state ≠ 1 ∨ s.pkg.fr.outside <
    4) :=
  ⟨onPkg (withHead runState) (fun p => { p with fr := { p.fr with state := 1, outside := 3 } }), by decide +kernel⟩

theorem witness_ChainMessagesTakeEffect_17 : ∃ (s : State) (orig : Fin 32) (target : BitVec 48), (s.pkg.pw.hubMain = false
    ∨ (orig.val, target.toNat) ∈ s.pkg.stw.chainSeen) :=
  ⟨withStw runState (fun x => { x with chainSeen := [(31, 500)] }), 31, 500, by decide +kernel⟩

theorem witness_ChainMessagesTakeEffect_18 : ∃ (s : State) (orig : Fin 32) (target : BitVec 48), s.pkg.pw.hubMain = true ∧
    (orig.val, target.toNat) ∉ s.pkg.stw.chainSeen :=
  ⟨runState, 31, 500, by decide +kernel⟩

theorem witness_ChainMessagesTakeEffect_19 : ∃ (s : State) (orig : Fin 32) (target : BitVec 48), s.pkg.pw.hubMain = true ∧
    (orig.val, target.toNat) ∉ s.pkg.stw.chainSeen ∧ s.pkg.head = false ∧ s.pkg.fr.state = 0 :=
  ⟨withHead runState, 31, 500, by decide +kernel⟩

theorem witness_ChainMessagesTakeEffect_20 : ∃ (s : State) (orig : Fin 32) (target : BitVec 48), s.pkg.pw.hubMain = true ∧
    (orig.val, target.toNat) ∉ s.pkg.stw.chainSeen ∧ s.pkg.snapSrc 4 = true ∧ (s.pkg.head = true ∨ s.pkg.fr.state ≠ 0) :=
  ⟨withCfg (onPkg runState (fun p => { p with fr := { p.fr with state := 1 } })) pgSTW [(0x428, 16)], 31, 500,
    by decide +kernel⟩

theorem witness_ChainMessagesTakeEffect_21 : ∃ (s : State) (c : Instr) (m : ChainMsg) (d : Nat), passedOn c = some m ∧
    m.dst = some d ∧ d ≠ s.pkg.chainAddr ∧ s.pkg.pw.hubMain = true ∧ s.pkg.chainValid = true ∧ m.gen = s.pkg.chainGen ∧
    s.pkg.noSuch d = false :=
  ⟨withRegs chainLedger [(pgCH false, 0x200, 2 ^ 21 + 5 * 2 ^ 16 + 7 * 2 ^ 32 + 2), (pgCH true, 0x200, 2)], .mack 3 9 7
    false 4095 true, { dst := some 9, src := 3, gen := 7, wake := false, body := .mack 4095 true }, 9, by decide +kernel⟩

theorem witness_ChainMessagesTakeEffect_22 : ∃ (s : State) (c : Instr) (m : ChainMsg), passedOn c = some m ∧
    (s.pkg.pw.hubMain = false ∨ s.pkg.chainValid = false) :=
  ⟨State.reset, .mack 3 9 7 false 4095 true,
    { dst := some 9, src := 3, gen := 7, wake := false, body := .mack 4095 true }, by decide +kernel⟩

theorem witness_ChainMessagesTakeEffect_23 : ∃ (s : State) (up : Bool) (src dst : Fin 32) (gen : Byte) (wake : Bool) (off
    len pa q : Nat) (b : List Byte) (poison : Bool) (p : Pkg), s.pkg.pw.hubMain = true ∧ s.pkg.chainValid = true ∧ dst.val
    = s.pkg.chainAddr ∧ 1 ≤ len ∧ off % 64 + len ≤ 64 ∧ wake = false ∧ gen.toNat = s.pkg.chainGen ∧ s.pkg.noSuch dst.val =
    false ∧ (s.mode.mode = .run ∨ s.mode.mode = .degraded ∨ s.mode.mode = .drizzle) ∧ (List.range 32).findSome?
    (s.pkg.exportAt src.val false off len) = some (pa, q) ∧ s.pkg.inWaits (if up then 0x1C else 0x1D) = false ∧
    (s.pkg.evCount none 13 0 (some q) 4 1).ioRead (if up then 0x1C else 0x1D) q pa len = (.done b poison, p) :=
  ⟨withCfg (withRegs memState [(pgCH false, 0x200, 2 ^ 21 + 7 * 2 ^ 16)]) (pgCH false) [(0x408 + 16 * 31, 7 * 2 ^ 61 + 5 *
    2 ^ 50 + 12 * 2 ^ 44), (0x410 + 16 * 31, 2 ^ 63 + 1)], true, 31, 7, 0, false, 0, 64, 0x1000, 5, _, _, _,
    by decide +kernel, by decide +kernel, by decide +kernel, by decide +kernel, by decide +kernel, by decide +kernel,
    by decide +kernel, by decide +kernel, by decide +kernel, by decide +kernel, by decide +kernel, io_ok
    (by decide +kernel)⟩

theorem witness_ChainMessagesTakeEffect_24 : ∃ (s : State) (dst : Fin 32) (gen : Byte) (off len : Nat), s.pkg.pw.hubMain =
    true ∧ s.pkg.chainValid = true ∧ 1 ≤ len ∧ off % 64 + len ≤ 64 ∧ requestRefused s dst gen :=
  ⟨withRegs memState [(pgCH false, 0x200, 2 ^ 21 + 7 * 2 ^ 16)], 7, 9, 0, 64, by unfold requestRefused; decide +kernel⟩

theorem witness_ChainMessagesTakeEffect_25 : ∃ (s : State) (dst : Fin 32) (gen : Byte) (off len : Nat), s.pkg.pw.hubMain =
    true ∧ s.pkg.chainValid = true ∧ dst.val = s.pkg.chainAddr ∧ 1 ≤ len ∧ off % 64 + len ≤ 64 ∧ ¬ requestRefused s dst
    gen :=
  ⟨withRegs memState [(pgCH false, 0x200, 2 ^ 21 + 7 * 2 ^ 16)], 7, 0, 0, 64, by unfold requestRefused; decide +kernel⟩

theorem witness_ChainMessagesTakeEffect_26 : ∃ (s : State) (src dst : Fin 32) (tag : Nat) (lc : Lc), s.pkg.pw.hubMain =
    true ∧ s.pkg.chainValid = true ∧ dst.val = s.pkg.chainAddr ∧ (s.pkg.core lc.val).io.any (fun a => a.tag == tag &&
    inChainOf src.val a.pa && a.answer.isNone) = true :=
  ⟨withCore (withRegs runState [(pgCH false, 0x200, 2 ^ 21 + 7 * 2 ^ 16)]) 17 (fun c =>
    { c with io := [testIo 0x8000000000008 4095] }), 0, 7, 4095, 17, by decide +kernel⟩

theorem witness_HubDmaRunsItsDescriptors_1 : ∃ (s : State) (who : Requester) (ch : Fin 16), s.pkg.commands who (pgDMAC
    ch.val) = true ∧ s.pkg.blkState (pgDMAC ch.val) = 1 ∧ s.pkg.dmaEn ch.val = true ∧ s.pkg.busy (pgDMAC ch.val) = false ∧
    s.pkg.dmaBusy ch.val = false ∧ fillMode s.mode.mode = true ∧ 1 ≤ s.pkg.rf (pgDMAC ch.val) 0xC08 31 0 ∧ s.pkg.rf
    (pgDMAC ch.val) 0xC08 31 0 ≤ 0x80000000 ∧ s.pkg.rf (pgDMAC ch.val) 0xC00 51 6 * 64 + 64 * s.pkg.rf (pgDMAC ch.val)
    0xC08 31 0 ≤ hbmSize :=
  ⟨dmaState, .host, 15, by decide +kernel⟩

theorem witness_HubDmaRunsItsDescriptors_2 : ∃ (s : State) (who : Requester) (ch : Fin 16), s.pkg.commands who (pgDMAC
    ch.val) = true ∧ s.pkg.blkState (pgDMAC ch.val) = 1 ∧ s.pkg.dmaEn ch.val = true ∧ s.pkg.busy (pgDMAC ch.val) = false ∧
    s.pkg.dmaBusy ch.val = false ∧ fillMode s.mode.mode = true ∧ (s.pkg.rf (pgDMAC ch.val) 0xC08 31 0 = 0 ∨ 0x80000000 <
    s.pkg.rf (pgDMAC ch.val) 0xC08 31 0 ∨ hbmSize < s.pkg.rf (pgDMAC ch.val) 0xC00 51 6 * 64 + 64 * s.pkg.rf (pgDMAC
    ch.val) 0xC08 31 0) :=
  ⟨withRegs dmaState [(pgDMAC 15, 0xC08, 0)], .host, 15, by decide +kernel⟩

theorem witness_HubDmaRunsItsDescriptors_3 : ∃ (s : State) (who : Requester) (ch : Fin 16), s.pkg.commands who (pgDMAC
    ch.val) = true ∧ (s.pkg.blkState (pgDMAC ch.val) ≠ 1 ∨ s.pkg.dmaEn ch.val = false ∨ s.pkg.busy (pgDMAC ch.val) = true
    ∨ s.pkg.dmaBusy ch.val = true ∨ fillMode s.mode.mode = false) :=
  ⟨runState, .host, 15, by decide +kernel⟩

theorem witness_HubDmaRunsItsDescriptors_4 : ∃ (s : State) (ch : Fin 16) (p : Pkg), (s.pkg.chan ch.val).fill = true ∧
    fillMode s.mode.mode = true ∧ Pkg.fillLines ch.val (List.replicate 8 (leBytes 8 (s.pkg.reg (pgDMAC ch.val)
    0xC10).toNat)).flatten (s.pkg.rf (pgDMAC ch.val) 0xC08 31 0 - s.pkg.rf (pgDMAC ch.val) 0x208 31 0) s.pkg = (.all, p)
    :=
  ⟨onPkg dmaState (fun p => p.setChan 15 { p.chan 15 with fill := true }), 15, _, by decide +kernel, by decide +kernel,
    pair_eq (by decide +kernel)⟩

theorem witness_HubDmaRunsItsDescriptors_5 : ∃ (s : State) (ch : Fin 16) (p : Pkg), (s.pkg.chan ch.val).fill = true ∧
    fillMode s.mode.mode = true ∧ Pkg.fillLines ch.val (List.replicate 8 (leBytes 8 (s.pkg.reg (pgDMAC ch.val)
    0xC10).toNat)).flatten (s.pkg.rf (pgDMAC ch.val) 0xC08 31 0 - s.pkg.rf (pgDMAC ch.val) 0x208 31 0) s.pkg = (.halted,
    p) :=
  ⟨onPkg (withRegs dmaState ([(pgDMAC 15, 0x200, 0x3000)] ++ (List.range 16).map (fun n => (pgDS n, 0x238, 1)))) (fun p =>
    p.setChan 15 { p.chan 15 with fill := true }), 15, _, by decide +kernel, by decide +kernel, pair_eq
    (by decide +kernel)⟩

theorem witness_HubDmaRunsItsDescriptors_6 : ∃ (s : State) (ch : Fin 16), ((s.pkg.chan ch.val).fill = false ∨ fillMode
    s.mode.mode = false) :=
  ⟨dmaState, 15, by decide +kernel⟩

theorem witness_HubDmaRunsItsDescriptors_7 : ∃ (s : State) (who : Requester) (ch : Fin 16) (v : Word), s.pkg.commands who
    (pgDMAC ch.val) = true ∧ (who = .host ∨ ∃ lc, who = .core lc) ∧ s.pkg.blkState (pgDMAC ch.val) = 1 ∧ fld v 11 0 <
    dmaRingSize (s.pkg.cfg (pgDMAC ch.val) 0x408) :=
  ⟨dmaState, .host, 15, 15, by decide +kernel⟩

theorem witness_HubDmaRunsItsDescriptors_8 : ∃ (s : State) (who : Requester) (ch : Fin 16) (v : Word), s.pkg.commands who
    (pgDMAC ch.val) = true ∧ (who = .host ∨ ∃ lc, who = .core lc) ∧ (s.pkg.blkState (pgDMAC ch.val) ≠ 1 ∨ dmaRingSize
    (s.pkg.cfg (pgDMAC ch.val) 0x408) ≤ fld v 11 0) ∧ bit (s.pkg.reg (pgDMAC ch.val) 0x030) 17 = false :=
  ⟨dmaState, .host, 15, 4095, by decide +kernel⟩

theorem witness_HubDmaRunsItsDescriptors_9 : ∃ (s : State) (ch : Fin 16) (b : List Byte) (p : Pkg), dmaFetches s.mode =
    true ∧ s.pkg.blkState (pgDMAC ch.val) = 1 ∧ s.pkg.dmaEn ch.val = true ∧ s.pkg.dmaBusy ch.val = false ∧ s.pkg.dmaHead
    ch.val ≠ s.pkg.dmaTail ch.val ∧ s.pkg.devRead dmaAgent (s.pkg.dmaPid ch.val) (s.pkg.dmaEntry ch.val) 32 = (.ok b
    false, p) :=
  ⟨dmaState, 15, _, _, by decide +kernel, by decide +kernel, by decide +kernel, by decide +kernel, by decide +kernel,
    dev_clean (by decide +kernel)⟩

theorem witness_HubDmaRunsItsDescriptors_10 : ∃ (s : State) (ch : Fin 16) (a : DevAns) (p : Pkg), dmaFetches s.mode = true
    ∧ s.pkg.blkState (pgDMAC ch.val) = 1 ∧ s.pkg.dmaEn ch.val = true ∧ s.pkg.dmaBusy ch.val = false ∧ s.pkg.dmaHead ch.val
    ≠ s.pkg.dmaTail ch.val ∧ s.pkg.devRead dmaAgent (s.pkg.dmaPid ch.val) (s.pkg.dmaEntry ch.val) 32 = (a, p) ∧ a ≠
    .waiting ∧ (∀ b, a ≠ .ok b false) :=
  ⟨withCfg dmaState (pgDMAC 15) [(0x400, 2 ^ 63), (0x408, 2 ^ 50 + 4)], 15, _, _, by decide +kernel, by decide +kernel,
    by decide +kernel, by decide +kernel, by decide +kernel, Prod.mk.eta.symm, by decide +kernel, not_clean
    (by decide +kernel)⟩

theorem witness_HubDmaRunsItsDescriptors_11 : ∃ (s : State) (ch : Fin 16), (dmaFetches s.mode = false ∨ s.pkg.blkState
    (pgDMAC ch.val) ≠ 1 ∨ s.pkg.dmaEn ch.val = false ∨ s.pkg.dmaBusy ch.val = true ∨ s.pkg.dmaHead ch.val = s.pkg.dmaTail
    ch.val) :=
  ⟨runState, 15, by decide +kernel⟩

theorem witness_HubDmaRunsItsDescriptors_12 : ∃ (s : State) (ch : Fin 16) (e : Instr × Nat), e ∈ [(Instr.copy ch, 1),
    (.descriptorFill ch, 2), (.nopDescriptor ch, 3)] ∧ s.pkg.dmaReady s.mode ch.val e.2 = false :=
  ⟨dmaState, 15, (.nopDescriptor 15, 3), by decide +kernel⟩

theorem witness_HubDmaRunsItsDescriptors_13 : ∃ (s : State) (ch : Fin 16) (st : DevAns) (p : Pkg), s.pkg.dmaReady s.mode
    ch.val 1 = true ∧ st ≠ .waiting ∧ s.pkg.copyRun ch.val ((s.pkg.chan ch.val).quad 2).toNat ((s.pkg.chan ch.val).quad
    3).toNat (s.pkg.chan ch.val).len = (st, p) :=
  ⟨withDesc 1, 15, _, _, by decide +kernel, by decide +kernel, Prod.mk.eta.symm⟩

theorem witness_HubDmaRunsItsDescriptors_14 : ∃ (s : State) (ch : Fin 16) (st : DevAns) (p : Pkg), s.pkg.dmaReady s.mode
    ch.val 2 = true ∧ st ≠ .waiting ∧ s.pkg.patternRun ch.val ((s.pkg.chan ch.val).quad 3).toNat (s.pkg.chan ch.val).len
    (List.replicate 8 (leBytes 8 ((s.pkg.chan ch.val).quad 2).toNat)).flatten = (st, p) :=
  ⟨withDesc 2, 15, _, _, by decide +kernel, by decide +kernel, Prod.mk.eta.symm⟩

theorem witness_HubDmaRunsItsDescriptors_15 : ∃ (s : State) (ch : Fin 16), s.pkg.dmaReady s.mode ch.val 3 = true :=
  ⟨withDesc 3, 15, by decide +kernel⟩

theorem witness_HubDmaRunsItsDescriptors_16 : ∃ (s : State) (ch : Fin 16) (st : Nat) (b : List Byte) (po : Bool) (p :
    Pkg), (s.pkg.chan ch.val).fin = some st ∧ st ≠ 4 ∧ dmaRuns s.mode = true ∧ s.pkg.blkState (pgDMAC ch.val) = 1 ∧
    s.pkg.devWrite dmaAgent (s.pkg.dmaPid ch.val) (s.pkg.dmaEntry ch.val) (leBytes 8 (setFld (setBit ((s.pkg.chan
    ch.val).quad 0) 47 true) 55 48 st).toNat) = (.ok b po, p) :=
  ⟨onPkg (withDesc 3) (fun p => p.setChan 15 { p.chan 15 with fin := some 1 }), 15, 1, _, _, _, by decide +kernel,
    by decide +kernel, by decide +kernel, by decide +kernel, dev_ok (by decide +kernel)⟩

theorem witness_HubDmaRunsItsDescriptors_17 : ∃ (s : State) (ch : Fin 16) (b : List Byte) (po : Bool) (p : Pkg),
    (s.pkg.chan ch.val).fin = some 4 ∧ dmaRuns s.mode = true ∧ s.pkg.blkState (pgDMAC ch.val) = 1 ∧ s.pkg.devWrite
    dmaAgent (s.pkg.dmaPid ch.val) (s.pkg.dmaEntry ch.val) (leBytes 8 (setFld (setBit ((s.pkg.chan ch.val).quad 0) 47
    true) 55 48 4).toNat) = (.ok b po, p) :=
  ⟨onPkg (withDesc 3) (fun p => p.setChan 15 { p.chan 15 with fin := some 4 }), 15, _, _, _, by decide +kernel,
    by decide +kernel, by decide +kernel, dev_ok (by decide +kernel)⟩

theorem witness_HubDmaRunsItsDescriptors_18 : ∃ (s : State) (ch : Fin 16), ((s.pkg.chan ch.val).fin = none ∨ dmaRuns
    s.mode = false ∨ s.pkg.blkState (pgDMAC ch.val) ≠ 1) :=
  ⟨dmaState, 15, by decide +kernel⟩

theorem witness_SelfTestsRunAndReport_1 : ∃ (s : State) (d : Die) (test : Nat), s.pkg.commands .host (pgBIST d.val) = true
    ∧ s.pkg.busy (pgBIST d.val) = false ∧ s.mode.mode = .test ∧ 1 ≤ test ∧ test ≤ 3 :=
  ⟨inMode runState .test, 11, 2, by decide +kernel⟩

theorem witness_SelfTestsRunAndReport_2 : ∃ (s : State) (d : Die), s.pkg.dieTesting d.val = true ∧ s.pkg.powered (pgBIST
    d.val) = true ∧ s.pkg.dieFenced d.val = false :=
  ⟨withRegs (inMode runState .test) [(pgBIST 11, 0x200, 1), (pgBIST 11, 0x020, 0xC000010)], 11, by decide +kernel⟩

theorem witness_SelfTestsRunAndReport_3 : ∃ (s : State) (d : Die), s.pkg.dieTesting d.val = true ∧ s.pkg.dieFenced d.val =
    true :=
  ⟨onPkg (withRegs (inMode runState .test) [(pgBIST 11, 0x200, 1), (pgBIST 11, 0x020, 0xC000010)]) (fun p =>
    { p with dieSt := tblSet (fun _ => 0) p.dieSt 11 4 }), 11, by decide +kernel⟩

theorem witness_SelfTestsRunAndReport_4 : ∃ (s : State) (who : Requester) (pg : PageId), s.pkg.commands who (pgOf pg) =
    true ∧ hasMbist (pgOf pg) = true ∧ s.pkg.busy (pgOf pg) = false ∧ s.mode.mode = .test ∧ s.pkg.loadHold (pgOf pg) =
    false :=
  ⟨inMode memState .test, .host, ⟨12, 47⟩, by decide +kernel⟩

theorem witness_SelfTestsRunAndReport_5 : ∃ (s : State) (who : Requester) (pg : PageId), s.pkg.commands who (pgOf pg) =
    true ∧ hasMbist (pgOf pg) = true ∧ s.mode.mode ≠ .test :=
  ⟨memState, .host, ⟨12, 47⟩, by decide +kernel⟩

theorem witness_SelfTestsRunAndReport_6 : ∃ (s : State) (pg : PageId), hasMbist (pgOf pg) = true ∧ s.pkg.busy (pgOf pg) =
    true ∧ s.pkg.rf (pgOf pg) 0x020 27 16 = 0x018 ∧ s.mode.mode = .test :=
  ⟨withRegs (inMode memState .test) [(pgMC 15, 0x020, 0x180110)], ⟨12, 47⟩, by decide +kernel⟩

theorem witness_BarRequestsReachTheirTarget_1 : ∃ (s : State) (off n : Nat) (b : List Byte) (q : Pkg), s.pkg.seTakes =
    true ∧ s.pkg.seClaims = true ∧ off < 2 ^ 28 ∧ s.pkg.pagesRead s.mode .host (0xFF00000000000 + off) n = (some b, q) :=
  ⟨seState, 0xC000000, 8, _, _, by decide +kernel, by decide +kernel, by decide +kernel, some_pair (by decide +kernel)⟩

theorem witness_BarRequestsReachTheirTarget_2 : ∃ (s : State) (pg o : Nat) (v : Word), s.pkg.seTakes = true ∧
    s.pkg.seClaims = true ∧ pg * 4096 + o < 2 ^ 28 ∧ o < 4096 ∧ o % 8 = 0 ∧ (s.pkg.pageWrite s.mode .host pg o v).1 = true
    :=
  ⟨seState, pgMC 15, 0x400, 77, by decide +kernel⟩

theorem witness_BarRequestsReachTheirTarget_3 : ∃ (s : State) (off n : Nat) (q : Pkg), s.pkg.seTakes = true ∧
    s.pkg.seClaims = true ∧ off < 2 ^ 28 ∧ s.pkg.pagesRead s.mode .host (0xFF00000000000 + off) n = (none, q) :=
  ⟨seState, 0xFFFF000, 8, _, by decide +kernel, by decide +kernel, by decide +kernel, pair_eq (by decide +kernel)⟩

theorem witness_BarRequestsReachTheirTarget_4 : ∃ (s : State) (off : Nat) (b : List Byte), s.pkg.seTakes = true ∧
    s.pkg.seClaims = true ∧ off < 2 ^ 30 ∧ s.mode.mode = .service ∧ s.pkg.stw.running = false ∧ off + b.length ≤ 0x200000
    :=
  ⟨inMode seState .service, 0x1FFFFC, [1, 2, 3, 4], by decide +kernel⟩

theorem witness_BarRequestsReachTheirTarget_5 : ∃ (s : State) (off n : Nat), s.pkg.seTakes = true ∧ s.pkg.seClaims = true
    ∧ off < 2 ^ 30 ∧ s.mode.mode = .service ∧ s.pkg.stw.running = false ∧ off + n ≤ 0x200000 :=
  ⟨onPkg (inMode seState .service) (fun p => { p with se := { p.se with load := [(0x1FFFFD, 7)] } }), 0x1FFFFC, 4,
    by decide +kernel⟩

theorem witness_BarRequestsReachTheirTarget_6 : ∃ (s : State) (off n : Nat) (b : List Byte) (po : Bool) (q : Pkg),
    s.pkg.seTakes = true ∧ s.pkg.seClaims = true ∧ off < 2 ^ 30 ∧ s.mode.mode ≠ .service ∧ s.mode.mode ≠ .off ∧
    s.pkg.stageAddr off + n ≤ hbmSize ∧ s.pkg.inWaits 0x1E = false ∧ s.pkg.ioReadRange 0x1E 0 (s.pkg.stageAddr off) n =
    (.done b po, q) :=
  ⟨withPage seState 3, 0x3000, 8, _, _, _, by decide +kernel, by decide +kernel, by decide +kernel, by decide +kernel,
    by decide +kernel, by decide +kernel, by decide +kernel, io_ok (by decide +kernel)⟩

theorem witness_BarRequestsReachTheirTarget_7 : ∃ (s : State) (off : Nat), s.pkg.seTakes = true ∧ s.pkg.seClaims = true ∧
    off < 2 ^ 30 ∧ s.mode.mode = .service ∧ s.pkg.stw.running = true :=
  ⟨withImage (inMode seState .service) true true, 0, by decide +kernel⟩

theorem witness_BarRequestsReachTheirTarget_8 : ∃ (s : State) (off : Nat) (b : List Byte) (r : IoAns) (q : Pkg),
    s.pkg.seTakes = true ∧ s.pkg.seClaims = true ∧ off < 2 ^ 30 ∧ s.mode.mode ≠ .service ∧ s.mode.mode ≠ .off ∧
    s.pkg.stageAddr off + b.length ≤ hbmSize ∧ s.pkg.inWaits 0x1E = false ∧ s.pkg.writeParts 0x1E 0 [(s.pkg.stageAddr off,
    b.length)] b (2 ^ b.length - 1) false = (r, q) ∧ (∃ b2 po, r = .done b2 po) :=
  ⟨withPage seState 3, 0x3000, [1, 2, 3, 4, 5, 6, 7, 8], _, _, by decide +kernel, by decide +kernel, by decide +kernel,
    by decide +kernel, by decide +kernel, by decide +kernel, by decide +kernel, Prod.mk.eta.symm, done_some
    (by decide +kernel)⟩

theorem witness_BarRequestsReachTheirTarget_9 : ∃ (s : State) (off : Nat) (op : BusOp), s.pkg.seTakes = true ∧
    s.pkg.seClaims = true ∧ off < 2 ^ 30 ∧ s.mode.mode ≠ .service ∧ s.mode.mode ≠ .off ∧ hbmSize < s.pkg.stageAddr off +
    busLen op :=
  ⟨withRegs seState [(pgSE, 0xC08, 0x1FC0000000)], 0x3FFFFFFF, .read 8, by decide +kernel⟩

theorem witness_BarRequestsReachTheirTarget_10 : ∃ (s : State) (off n : Nat), s.pkg.seTakes = true ∧ s.pkg.seClaims = true
    ∧ s.pkg.romOn = true ∧ off + n ≤ 0x40000 :=
  ⟨onPkg seState (fun p => p.setSeCfg 12 1), 0x3FFFC, 4, by decide +kernel⟩

theorem witness_BarRequestsReachTheirTarget_12 : ∃ (s : State) (c : Instr) (off n : Nat), s.pkg.seTakes = true ∧
    ((s.pkg.seClaims = false ∧ off < 2 ^ 28 ∧ c ∈ [Instr.bar0Access off (.read n), .bar2Access .bar2 off (.read n)]) ∨
    ((s.pkg.seClaims = false ∨ s.pkg.romOn = false) ∧ off + n ≤ 0x40000 ∧ c = .bar2Access .rom off (.read n))) :=
  ⟨onPkg seState (fun p => p.setSeCfg 1 4), .bar0Access 0x0 (.read 8), 0, 8, by decide +kernel⟩

theorem witness_BarRequestsReachTheirTarget_13 : ∃ (s : State) (off : Nat), (s.pkg.seTakes = false ∨ 2 ^ 28 ≤ off) :=
  ⟨seState, 0x10000000, by decide +kernel⟩

theorem witness_BarRequestsReachTheirTarget_14 : ∃ (s : State) (off : Nat), (s.pkg.seTakes = false ∨ 2 ^ 30 ≤ off) :=
  ⟨seState, 0x40000000, by decide +kernel⟩

theorem witness_EndpointSignalsAndConfiguration_1 : ∃ (s : State), s.pkg.seHears = true ∧ s.pkg.wireLevel ≠ s.pkg.se.inta
    :=
  ⟨withRegs seState [(pgSE, 0x208, 2), (pgSE, 0xC00, 3)], by decide +kernel⟩

theorem witness_EndpointSignalsAndConfiguration_2 : ∃ (s : State), (s.pkg.seHears = false ∨ s.pkg.wireLevel =
    s.pkg.se.inta) :=
  ⟨seState, by decide +kernel⟩

theorem witness_EndpointSignalsAndConfiguration_3 : ∃ (s : State), s.pkg.powered pgSE = true ∧ s.pkg.pmeEn = true ∧
    s.pkg.seD3 = true ∧ s.pkg.se.cold = false ∧ s.pkg.seHears = true ∧ s.pkg.levelD0 = true ∧ s.pkg.pmeStatus = false :=
  ⟨onPkg (withRegs seState [(pgSE, 0x208, 2), (pgSE, 0xC00, 3)]) (fun p => p.setSeCfg 0x11 0x103), by decide +kernel⟩

theorem witness_EndpointSignalsAndConfiguration_4 : ∃ (s : State), s.pkg.powered pgSE = true ∧ s.pkg.pmeEn = true ∧
    s.pkg.se.cold = true ∧ s.pkg.levelD0 = true ∧ s.pkg.pmeStatus = false :=
  ⟨onPkg (withRegs seState [(pgSE, 0x208, 2), (pgSE, 0xC00, 3)]) (fun p => (({ p with se := { p.se with cold := true } } :
    Pkg)).setSeCfg 0x11 0x103), by decide +kernel⟩

theorem witness_EndpointSignalsAndConfiguration_5 : ∃ (s : State), (s.pkg.powered pgSE = false ∨ s.pkg.pmeEn = false ∨
    (s.pkg.seD3 = false ∧ s.pkg.se.cold = false) ∨ s.pkg.levelD0 = false ∨ s.pkg.pmeStatus = true) :=
  ⟨seState, by decide +kernel⟩

theorem witness_EndpointSignalsAndConfiguration_6 : ∃ (s : State), s.pkg.seTakes = false :=
  ⟨State.reset, by decide +kernel⟩

theorem witness_EndpointSignalsAndConfiguration_7 : ∃ (s : State), s.pkg.pw.perst = false :=
  ⟨seState, by decide +kernel⟩

theorem witness_EndpointSignalsAndConfiguration_8 : ∃ (s : State), s.pkg.pw.perst = true :=
  ⟨State.reset, by decide +kernel⟩

theorem witness_EndpointSignalsAndConfiguration_9 : ∃ (s : State), s.pkg.seLink = false :=
  ⟨State.reset, by decide +kernel⟩

theorem witness_EndpointSignalsAndConfiguration_10 : ∃ (s : State), s.pkg.seTakes = true :=
  ⟨onPkg seState (fun p => { p with fr := { p.fr with num := 0x123456789ABC } }), by decide +kernel⟩

theorem witness_EndpointSignalsAndConfiguration_11 : ∃ (s : State), s.pkg.pw.perst = true ∧ s.pkg.powered pgSE = true :=
  ⟨onPkg seState (fun p => { p with pw := { p.pw with perst := true }, se := { p.se with cold := true, wakeN := true } }),
    by decide +kernel⟩

theorem witness_EndpointSignalsAndConfiguration_12 : ∃ (s : State), s.pkg.pw.perst = false ∧ s.pkg.powered pgSE = true :=
  ⟨withRegs seState [(pgSE, 0xD08, 5), (pgSE, 0xC08, 7), (pgSE, 0x210, 3)], by decide +kernel⟩

theorem witness_EndpointSignalsAndConfiguration_13 : ∃ (s : State), s.pkg.seLink = true :=
  ⟨onPkg seState (fun p => p.setSeCfg 0x11 0x103), by decide +kernel⟩

theorem witness_EndpointSignalsAndConfiguration_14 : ∃ (s : State), s.pkg.seTakes = true :=
  ⟨onPkg seState (fun p => p.setSeCfg 0x11 0x103), by decide +kernel⟩

theorem witness_EndpointSignalsAndConfiguration_15 : ∃ (s : State), s.pkg.seTakes = true :=
  ⟨onPkg seState (fun p => p.setSeCfg 0x11 0x8103), by decide +kernel⟩

theorem witness_EndpointSignalsAndConfiguration_16 : ∃ (s : State), s.pkg.seTakes = true :=
  ⟨seState, by decide +kernel⟩

theorem witness_EndpointSignalsAndConfiguration_17 : ∃ (s : State) (v : BitVec 32), s.pkg.seTakes = true ∧ v.getLsbD 15 =
    true :=
  ⟨seState, 0x8000, by decide +kernel⟩

theorem witness_EndpointSignalsAndConfiguration_18 : ∃ (s : State) (off : Nat), (s.pkg.seTakes = false ∨ 4096 ≤ off ∨ off
    % 4 ≠ 0) :=
  ⟨seState, 4096, by decide +kernel⟩

theorem witness_EndpointSignalsAndConfiguration_19 : ∃ (s : State), s.pkg.seTakes = false :=
  ⟨State.reset, by decide +kernel⟩

theorem witness_EndpointSignalsAndConfiguration_20 : ∃ (s : State), s.pkg.se.flr = false :=
  ⟨seState, by decide +kernel⟩

theorem witness_EndpointSignalsAndConfiguration_21 : ∃ (s : State), s.pkg.seTakes = true ∧ bit (s.pkg.reg pgSE 0x030) 19 =
    false :=
  ⟨withRegs seState [(pgSE, 0xD08, 5)], by decide +kernel⟩

theorem witness_EndpointSignalsAndConfiguration_22 : ∃ (s : State), s.pkg.se.flr = true :=
  ⟨onPkg (withRegs seState [(pgSE, 0xD08, 5), (pgSE, 0xC08, 7)]) (fun p =>
    { p with se := { p.se with flr := true, inta := true } }), by decide +kernel⟩

theorem witness_EventRingAndMailbox_1 : ∃ (s : State) (e : EvRec), s.pkg.evrRuns = true ∧ s.pkg.evrNext = some e ∧
    (s.pkg.rf pgSE 0x218 11 0 + 1) % s.pkg.evrSize ≠ s.pkg.rf pgSE 0xD10 11 0 :=
  ⟨onPkg (withRegs seState [(pgSE, 0xD08, 2 ^ 63)]) (fun p => p.logEvent 0x0B 0 none none pgSTW 5), ((onPkg (withRegs
    seState [(pgSE, 0xD08, 2 ^ 63)]) (fun p => p.logEvent 0x0B 0 none none pgSTW 5) : State).pkg.evrNext).getD
    { seq := 0, code := 0, origin := 0, frame := 0, lc := none, pid := none, die := 0, block := 0, detail := 0 },
    by decide +kernel⟩

theorem witness_EventRingAndMailbox_2 : ∃ (s : State) (e : EvRec), s.pkg.evrRuns = true ∧ s.pkg.evrNext = some e ∧
    s.pkg.se.evrFull = false ∧ (s.pkg.rf pgSE 0x218 11 0 + 1) % s.pkg.evrSize = s.pkg.rf pgSE 0xD10 11 0 :=
  ⟨onPkg (withRegs seState [(pgSE, 0xD08, 2 ^ 63), (pgSE, 0xD10, 1)]) (fun p => p.logEvent 0x0B 0 none none pgSTW 5),
    ((onPkg (withRegs seState [(pgSE, 0xD08, 2 ^ 63), (pgSE, 0xD10, 1)]) (fun p => p.logEvent 0x0B 0 none none pgSTW 5) :
    State).pkg.evrNext).getD
    { seq := 0, code := 0, origin := 0, frame := 0, lc := none, pid := none, die := 0, block := 0, detail := 0 },
    by decide +kernel⟩

theorem witness_EventRingAndMailbox_3 : ∃ (s : State), (s.pkg.evrRuns = false ∨ s.pkg.evrNext = none) :=
  ⟨seState, by decide +kernel⟩

theorem witness_EventRingAndMailbox_4 : ∃ (s : State) (e : EvRec), s.pkg.evrNext = some e ∧ s.pkg.se.evrFull = true ∧
    (s.pkg.rf pgSE 0x218 11 0 + 1) % s.pkg.evrSize = s.pkg.rf pgSE 0xD10 11 0 :=
  ⟨onPkg (withRegs seState [(pgSE, 0xD08, 2 ^ 63), (pgSE, 0xD10, 1)])
    (fun p => let p := p.logEvent 0x0B 0 none none pgSTW 5; { p with se := { p.se with evrFull := true } }), ((onPkg
    (withRegs seState [(pgSE, 0xD08, 2 ^ 63), (pgSE, 0xD10, 1)])
    (fun p => let p := p.logEvent 0x0B 0 none none pgSTW 5; { p with se := { p.se with evrFull := true } }) :
    State).pkg.evrNext).getD
    { seq := 0, code := 0, origin := 0, frame := 0, lc := none, pid := none, die := 0, block := 0, detail := 0 },
    by decide +kernel⟩

theorem witness_EventRingAndMailbox_5 : ∃ (s : State) (who : Requester) (v : Word), s.pkg.commands who pgSE = true ∧ fld v
    11 0 < s.pkg.evrSize :=
  ⟨seState, .host, 15, by decide +kernel⟩

theorem witness_EventRingAndMailbox_6 : ∃ (s : State) (who : Requester) (v : Word), s.pkg.commands who pgSE = true ∧
    s.pkg.evrSize ≤ fld v 11 0 :=
  ⟨seState, .host, 16, by decide +kernel⟩

theorem witness_EventRingAndMailbox_7 : ∃ (s : State) (who : Requester), s.pkg.commands who pgSE = true ∧ s.pkg.mbBusy =
    false ∧ s.pkg.busy pgSE = false :=
  ⟨seState, .host, by decide +kernel⟩

theorem witness_EventRingAndMailbox_8 : ∃ (s : State) (who : Requester), s.pkg.commands who pgSE = true ∧ (s.pkg.mbBusy =
    true ∨ s.pkg.busy pgSE = true) :=
  ⟨withRequest 1 [], .host, by decide +kernel⟩

theorem witness_EventRingAndMailbox_9 : ∃ (s : State), s.pkg.mbHas 1 = true :=
  ⟨withRequest 1 [], by decide +kernel⟩

theorem witness_EventRingAndMailbox_10 : ∃ (s : State), s.pkg.mbHas 2 = true ∧ s.pkg.stw.running = false ∧ s.mode.mode =
    .service ∧ stwLenOk (s.pkg.mbReq 1).toNat = true :=
  ⟨inMode (withRequest 2 [(1, 0x200000)]) .service, by decide +kernel⟩

theorem witness_EventRingAndMailbox_11 : ∃ (s : State), s.pkg.mbHas 2 = true ∧ s.pkg.stw.running = false ∧ s.mode.mode =
    .service ∧ stwLenOk (s.pkg.mbReq 1).toNat = false :=
  ⟨inMode (withRequest 2 [(1, 0x200040)]) .service, by decide +kernel⟩

theorem witness_EventRingAndMailbox_12 : ∃ (s : State), s.pkg.mbHas 2 = true ∧ (s.pkg.stw.running = true ∨ s.mode.mode ≠
    .service) :=
  ⟨withRequest 2 [(1, 0x200000)], by decide +kernel⟩

theorem witness_EventRingAndMailbox_13 : ∃ (s : State) (c : Instr × Nat) (ok : Bool), c ∈ [(Instr.ident, 1), (.stwload ok,
    2), (.unitfail, 3), (.expsig, 4)] ∧ s.pkg.mbHas c.2 = false :=
  ⟨seState, (.ident, 1), false, by decide +kernel⟩

theorem witness_EventRingAndMailbox_14 : ∃ (s : State), (s.pkg.stw.image = false ∨ s.pkg.stw.running = true ∨ s.pkg.isRipe
    .image 0 = false) :=
  ⟨seState, by decide +kernel⟩

theorem witness_EventRingAndMailbox_15 : ∃ (s : State), s.pkg.stw.image = true ∧ s.pkg.stw.running = false ∧ s.pkg.isRipe
    .image 0 = true :=
  ⟨ripen (withImage seState true false) [(7, 0)], by decide +kernel⟩

theorem witness_EventRingAndMailbox_16 : ∃ (s : State), s.pkg.mbHas 3 = true ∧ s.pkg.stw.running = true ∧ (s.mode.mode =
    .service ∨ (s.mode.mode = .load ∧ s.pkg.stw.mapBuilt = false)) ∧ (s.pkg.mbReq 1).toNat ≤ 24 ∧ (s.pkg.failIds
    (s.pkg.mbReq 1).toNat).all physOk = true :=
  ⟨inMode (withImage (withRequest 3 [(1, 2), (2, 0x0503)]) true true) .service, by decide +kernel⟩

theorem witness_EventRingAndMailbox_17 : ∃ (s : State), s.pkg.mbHas 3 = true ∧ s.pkg.stw.running = true ∧ (s.mode.mode =
    .service ∨ (s.mode.mode = .load ∧ s.pkg.stw.mapBuilt = false)) ∧ (s.pkg.mbReq 1).toNat ≤ 24 ∧ (s.pkg.failIds
    (s.pkg.mbReq 1).toNat).all physOk = false :=
  ⟨inMode (withImage (withRequest 3 [(1, 2), (2, 0x05FF)]) true true) .service, by decide +kernel⟩

theorem witness_EventRingAndMailbox_18 : ∃ (s : State), s.pkg.mbHas 3 = true ∧ s.pkg.stw.running = true ∧ (s.mode.mode =
    .service ∨ (s.mode.mode = .load ∧ s.pkg.stw.mapBuilt = false)) ∧ 24 < (s.pkg.mbReq 1).toNat :=
  ⟨inMode (withImage (withRequest 3 [(1, 25)]) true true) .service, by decide +kernel⟩

theorem witness_EventRingAndMailbox_19 : ∃ (s : State) (c : Instr × Nat), c ∈ [(Instr.unitfail, 3), (.expsig, 4)] ∧
    s.pkg.mbHas c.2 = true ∧ s.pkg.stw.running = false :=
  ⟨withRequest 4 [], (.expsig, 4), by decide +kernel⟩

theorem witness_EventRingAndMailbox_20 : ∃ (s : State), s.pkg.mbHas 4 = true ∧ s.pkg.stw.running = true :=
  ⟨withImage (withRequest 4 [(1, 0x4001), (2, 80)]) true true, by decide +kernel⟩

theorem witness_EventRingAndMailbox_21 : ∃ (s : State) (a : IoAns) (q : Pkg), s.pkg.mbHas 4 = true ∧ s.pkg.stw.running =
    true ∧ s.mode.mode ≠ .off ∧ s.mode.mode ≠ .service ∧ sigPlaceOk (s.pkg.mbReq 1).toNat (s.pkg.mbReq 2).toNat = true ∧
    s.pkg.ioReadRange 0x1E 0 (s.pkg.mbReq 1).toNat (s.pkg.mbReq 2).toNat = (a, q) ∧ ((∃ st, a = .err st) ∨ ∃ f, a = .done
    f true) :=
  ⟨withRegs (withImage (withRequest 4 [(1, 0x1000), (2, 80)]) true true) ((List.range 16).map (fun n => (pgDS n, 0x238,
    1))), _, _, by decide +kernel, by decide +kernel, by decide +kernel, by decide +kernel, by decide +kernel,
    Prod.mk.eta.symm, io_bad (by decide +kernel)⟩

theorem witness_EventRingAndMailbox_22 : ∃ (s : State), s.pkg.mbHas 3 = true ∧ s.pkg.stw.running = true ∧ (¬(s.mode.mode =
    .service ∨ (s.mode.mode = .load ∧ s.pkg.stw.mapBuilt = false))) :=
  ⟨withImage (withRequest 3 [(1, 2), (2, 0x0503)]) true true, by decide +kernel⟩

theorem witness_EventRingAndMailbox_23 : ∃ (s : State) (f : List Byte) (q : Pkg), s.pkg.mbHas 4 = true ∧ s.pkg.stw.running
    = true ∧ s.mode.mode ≠ .off ∧ s.mode.mode ≠ .service ∧ sigPlaceOk (s.pkg.mbReq 1).toNat (s.pkg.mbReq 2).toNat = true ∧
    s.pkg.ioReadRange 0x1E 0 (s.pkg.mbReq 1).toNat (s.pkg.mbReq 2).toNat = (.done f false, q) :=
  ⟨withSigFile (withImage (withRequest 4 [(1, 0x4000), (2, 80)]) true true), _, _, by decide +kernel, by decide +kernel,
    by decide +kernel, by decide +kernel, by decide +kernel, io_clean (by decide +kernel)⟩

theorem witness_ResetHoldsTheSpecifiedValues_14 : ∃ (pg : Nat), (blkOf pg).isSome = true :=
  ⟨pgSE, by decide +kernel⟩

theorem witness_ResetHoldsTheSpecifiedValues_15 : ∃ (d : Nat), d < 12 :=
  ⟨11, by decide +kernel⟩

end Sys2Proof.Machine
end

