-- ==== Sys2Proof/Tests/Cores.lean ====
section
/-! SUPPORT. Witnesses for the statements about instructions of the logical cores: for each clause with hypotheses, a state,
the bytes of an instruction and what its operations yield that meet them together. -/

set_option maxRecDepth 100000
set_option Elab.async false

namespace Sys2Proof.Machine

theorem witness_ThreeOperandInstructions_1 : ∃ (e : Nat × CpuRow × (Nat → Nat → Nat → Bool → BinRes)) (s : State) (lc :
    Lc) (f : Fetch) (d : Decoded) (q : Pkg) (a b w : Rand) (c : Core) (q1 : Pkg) (va : Nat) (q2 : Pkg) (vb : Nat) (q3 :
    Pkg) (r : BinRes) (c' : Core) (q4 : Pkg), e ∈ threeRows.take 11 ∧ Begins s lc f d q ∧ d.op = e.1 ∧ d.lock = false ∧
    d.rep = false ∧ Yields (formOperands (envOf s lc d) OpUse.plain d.ops 0 (s.pkg.core lc)) q ([a, b, w], c) q1 ∧ Yields
    (readVal (envOf s lc d) a) q1 va q2 ∧ Yields (readVal (envOf s lc d) b) q2 vb q3 ∧ r = e.2.2 (8 * d.size) va vb (pswC
    (s.pkg.core lc).psw) ∧ Yields (writeVal (envOf s lc d) w r.r c) q3 c' q4 :=
  ⟨(threeRows.take 11)[0]'(by decide), cpuState 2, 17, fetchOf [0x10, 0x11, 0x21, 0x31], _, _, _, _, _, _, _, _, _, _, _,
    _, _, _, List.getElem_mem _, begins (by decide +kernel), by decide +kernel, by decide +kernel, by decide +kernel,
    yields_three (by decide +kernel), yields 0 (by decide +kernel), yields 0 (by decide +kernel), rfl, yields Core.reset
    (by decide +kernel)⟩

theorem witness_ShiftsFollowTheirRule_1 : ∃ (e : Nat × CpuRow × (Nat → Nat → Nat → Bool → BinRes)) (s : State) (lc : Lc)
    (f : Fetch) (d : Decoded) (q : Pkg) (a b w : Rand) (c : Core) (q1 : Pkg) (va : Nat) (q2 : Pkg) (vb : Nat) (q3 : Pkg)
    (r : BinRes) (c' : Core) (q4 : Pkg), e ∈ threeRows.drop 11 ∧ Begins s lc f d q ∧ d.op = e.1 ∧ d.lock = false ∧ d.rep =
    false ∧ Yields (formOperands (envOf s lc d) OpUse.plain d.ops 0 (s.pkg.core lc)) q ([a, b, w], c) q1 ∧ Yields (readVal
    (envOf s lc d) a) q1 va q2 ∧ Yields (readVal (envOf s lc d) b) q2 vb q3 ∧ r = e.2.2 (8 * d.size) va vb (pswC
    (s.pkg.core lc).psw) ∧ Yields (writeVal (envOf s lc d) w r.r c) q3 c' q4 :=
  ⟨(threeRows.drop 11)[0]'(by decide), cpuState 2, 17, fetchOf [0x25, 0x11, 0x21, 0x31], _, _, _, _, _, _, _, _, _, _, _,
    _, _, _, List.getElem_mem _, begins (by decide +kernel), by decide +kernel, by decide +kernel, by decide +kernel,
    yields_three (by decide +kernel), yields 0 (by decide +kernel), yields 0 (by decide +kernel), rfl, yields Core.reset
    (by decide +kernel)⟩

theorem witness_DivisionFollowsItsRule_1_1 : ∃ (e : Nat × CpuRow × (Nat → Nat → Nat → BinRes)) (s : State) (lc : Lc) (f :
    Fetch) (d : Decoded) (q : Pkg) (a b w : Rand) (c : Core) (q1 : Pkg) (va : Nat) (q2 : Pkg) (vb : Nat) (q3 : Pkg) (r :
    BinRes) (q4 : Pkg) (c' : Core), e ∈ divideRows ∧ Begins s lc f d q ∧ d.op = e.1 ∧ Yields (formOperands (envOf s lc d)
    OpUse.plain d.ops 0 (s.pkg.core lc)) q ([a, b, w], c) q1 ∧ Yields (readVal (envOf s lc d) a) q1 va q2 ∧ Yields
    (readVal (envOf s lc d) b) q2 vb q3 ∧ vb ≠ 0 ∧ r = e.2.2 (8 * d.size) va vb ∧ Yields (writeVal (envOf s lc d) w r.r c)
    q3 c' q4 :=
  ⟨(divideRows)[0]'(by decide), cpuState 2, 17, fetchOf [0x17, 0x11, 0x21, 0x31], _, _, _, _, _, _, _, _, _, _, _, _, _,
    _, List.getElem_mem _, begins (by decide +kernel), by decide +kernel, yields_three (by decide +kernel), yields 0
    (by decide +kernel), yields 0 (by decide +kernel), by decide +kernel, rfl, yields Core.reset (by decide +kernel)⟩

theorem witness_DivisionFollowsItsRule_1_2 : ∃ (e : Nat × CpuRow × (Nat → Nat → Nat → BinRes)) (s : State) (lc : Lc) (f :
    Fetch) (d : Decoded) (q : Pkg) (a b w : Rand) (c : Core) (q1 : Pkg) (va : Nat) (q2 : Pkg) (vb : Nat) (q3 : Pkg), e ∈
    divideRows ∧ Begins s lc f d q ∧ d.op = e.1 ∧ Yields (formOperands (envOf s lc d) OpUse.plain d.ops 0 (s.pkg.core lc))
    q ([a, b, w], c) q1 ∧ Yields (readVal (envOf s lc d) a) q1 va q2 ∧ Yields (readVal (envOf s lc d) b) q2 vb q3 ∧ vb = 0
    :=
  ⟨(divideRows)[0]'(by decide), onPkg (cpuState 2) (fun p => p.setCore 17 ((p.core 17).gSet 2 (0))), 17, fetchOf [0x17,
    0x11, 0x21, 0x31], _, _, _, _, _, _, _, _, _, _, _, List.getElem_mem _, begins (by decide +kernel), by decide +kernel,
    yields_three (by decide +kernel), yields 0 (by decide +kernel), yields 0 (by decide +kernel), by decide +kernel⟩

theorem witness_AtomicInstructions_1 : ∃ (e : Nat × CpuRow × Nat × Bool × (Nat → Nat → Nat → Bool → BinRes)) (s : State)
    (lc : Lc) (f : Fetch) (d : Decoded) (q : Pkg) (a m : Rand) (c : Core) (q1 : Pkg) (va : Nat) (q2 : Pkg) (cin : Bool)
    (old : Nat) (q3 : Pkg), e ∈ lockRows ∧ Begins s lc f d q ∧ d.op = e.1 ∧ d.lock = true ∧ d.rep = false ∧ Yields
    (formOperands (envOf s lc d) (lockUse (envOf s lc d) 1) d.ops 0 (s.pkg.core lc)) q ([a, m], c) q1 ∧ Yields (readVal
    (envOf s lc d) a) q1 va q2 ∧ cin = (e.2.2.2.1 && pswC (s.pkg.core lc).psw) ∧ Yields (atomicUpdate (envOf s lc d) m
    e.2.2.1 (leBytes d.size va) cin (fun o => some (e.2.2.2.2 (8 * d.size) o va cin).r)) q2 old q3 :=
  ⟨(lockRows)[0]'(by decide), cpuState 2, 17, fetchOf [0xF0, 0x10, 0x11, 0x02], _, _, _, _, _, _, _, _, _, _, _,
    List.getElem_mem _, begins (by decide +kernel), by decide +kernel, by decide +kernel, by decide +kernel, yields_two
    (by decide +kernel), yields 0 (by decide +kernel), rfl, yields 0 (by decide +kernel)⟩

theorem witness_AtomicInstructions_2 : ∃ (e : Nat × CpuRow × Nat × (Nat → Nat → BinRes)) (s : State) (lc : Lc) (f : Fetch)
    (d : Decoded) (q : Pkg) (m : Rand) (c : Core) (q1 : Pkg) (old : Nat) (q2 : Pkg), e ∈ oneRows ∧ Begins s lc f d q ∧
    d.op = e.1 ∧ d.lock = true ∧ Yields (formOperands (envOf s lc d) (lockUse (envOf s lc d) 0) d.ops 0 (s.pkg.core lc)) q
    ([m], c) q1 ∧ Yields (atomicUpdate (envOf s lc d) m e.2.2.1 (leBytes d.size 1) false (fun o => some (e.2.2.2 (8 *
    d.size) o).r)) q1 old q2 :=
  ⟨(oneRows)[0]'(by decide), cpuState 2, 17, fetchOf [0xF0, 0x1C, 0x02], _, _, _, _, _, _, _, List.getElem_mem _, begins
    (by decide +kernel), by decide +kernel, by decide +kernel, yields_one (by decide +kernel), yields 0
    (by decide +kernel)⟩

theorem witness_AtomicInstructions_3_1 : ∃ (s : State) (lc : Lc) (f : Fetch) (d : Decoded) (q : Pkg) (a b v : Rand) (c :
    Core) (q1 : Pkg) (x : Nat) (q2 : Pkg) (want : Nat) (q3 : Pkg) (new : Nat) (q4 : Pkg) (old : Nat) (q5 : Pkg) (va :
    Nat), Begins s lc f d q ∧ d.op = 0x70 ∧ Yields (formOperands (envOf s lc d) { OpUse.plain with atomic := (· == 0) }
    d.ops 0 (s.pkg.core lc)) q ([a, b, v], c) q1 ∧ (isWb a = true → Yields (readVal (envOf s lc d) a) q1 x q2) ∧ (isWb a =
    false → q2 = q1) ∧ Yields (readVal (envOf s lc d) b) q2 want q3 ∧ Yields (readVal (envOf s lc d) v) q3 new q4 ∧
    (q4.core lc).held = none ∧ Yields (atomicUpdate (envOf s lc d) a 1 (leBytes d.size want ++ leBytes d.size new) false
    (fun o => if o = want then some new else none)) q4 old q5 ∧ old = want ∧ a.loc = .mem va :=
  ⟨onPkg (cpuState 2) (fun p => p.setCore 17 ((p.core 17).gSet 1 (217020518514230019))), 17, fetchOf [0x70, 0x02, 0x11,
    0x21], _, _, _, _, _, _, _, _, _, _, _, _, _, _, _, _, begins (by decide +kernel), by decide +kernel, yields_three
    (by decide +kernel), wb_yes (by decide +kernel), wb_no, yields 0 (by decide +kernel), yields 0 (by decide +kernel),
    by decide +kernel, yields 0 (by decide +kernel), by decide +kernel, in_mem (by decide +kernel)⟩

theorem witness_AtomicInstructions_3_2 : ∃ (s : State) (lc : Lc) (f : Fetch) (d : Decoded) (q : Pkg) (a b v : Rand) (c :
    Core) (q1 : Pkg) (x : Nat) (q2 : Pkg) (want : Nat) (q3 : Pkg) (new : Nat) (q4 : Pkg) (old : Nat) (q5 : Pkg) (k : Nat)
    (v0 : Word), Begins s lc f d q ∧ d.op = 0x70 ∧ Yields (formOperands (envOf s lc d)
    { OpUse.plain with atomic := (· == 0) } d.ops 0 (s.pkg.core lc)) q ([a, b, v], c) q1 ∧ (isWb a = true → Yields
    (readVal (envOf s lc d) a) q1 x q2) ∧ (isWb a = false → q2 = q1) ∧ Yields (readVal (envOf s lc d) b) q2 want q3 ∧
    Yields (readVal (envOf s lc d) v) q3 new q4 ∧ (q4.core lc).held = none ∧ Yields (atomicUpdate (envOf s lc d) a 1
    (leBytes d.size want ++ leBytes d.size new) false (fun o => if o = want then some new else none)) q4 old q5 ∧ old =
    want ∧ a.loc = .reg k v0 :=
  ⟨onPkg (cpuState 2) (fun p => p.setCore 17 ((p.core 17).gSet 1 (12288))), 17, fetchOf [0x70, 0x01, 0x11, 0x21], _, _, _,
    _, _, _, _, _, _, _, _, _, _, _, _, _, _, begins (by decide +kernel), by decide +kernel, yields_three
    (by decide +kernel), wb_yes (by decide +kernel), wb_no, yields 0 (by decide +kernel), yields 0 (by decide +kernel),
    by decide +kernel, yields 0 (by decide +kernel), by decide +kernel, in_reg (by decide +kernel)⟩

theorem witness_AtomicInstructions_3_3 : ∃ (s : State) (lc : Lc) (f : Fetch) (d : Decoded) (q : Pkg) (a b v : Rand) (c :
    Core) (q1 : Pkg) (x : Nat) (q2 : Pkg) (want : Nat) (q3 : Pkg) (new : Nat) (q4 : Pkg) (old : Nat) (q5 q6 : Pkg) (dst :
    Dest) (q7 : Pkg) (c' : Core), Begins s lc f d q ∧ d.op = 0x70 ∧ Yields (formOperands (envOf s lc d)
    { OpUse.plain with atomic := (· == 0) } d.ops 0 (s.pkg.core lc)) q ([a, b, v], c) q1 ∧ (isWb a = true → Yields
    (readVal (envOf s lc d) a) q1 x q2) ∧ (isWb a = false → q2 = q1) ∧ Yields (readVal (envOf s lc d) b) q2 want q3 ∧
    Yields (readVal (envOf s lc d) v) q3 new q4 ∧ (q4.core lc).held = none ∧ Yields (atomicUpdate (envOf s lc d) a 1
    (leBytes d.size want ++ leBytes d.size new) false (fun o => if o = want then some new else none)) q4 old q5 ∧ old ≠
    want ∧ Yields (openDest (envOf s lc d) b (leBytes d.size old)) q5 dst q6 ∧ Yields (commitDests s.mode [dst] c)
    (q6.setCore lc { q6.core lc with held := some old }) c' q7 :=
  ⟨cpuState 2, 17, fetchOf [0x70, 0x02, 0x11, 0x21], _, _, _, _, _, _, _, _, _, _, _, _, _, _, _, _, _, _, _, begins
    (by decide +kernel), by decide +kernel, yields_three (by decide +kernel), wb_yes (by decide +kernel), wb_no, yields 0
    (by decide +kernel), yields 0 (by decide +kernel), by decide +kernel, yields 0 (by decide +kernel), by decide +kernel,
    yields (.reg 0 0) (by decide +kernel), yields Core.reset (by decide +kernel)⟩

theorem witness_AtomicInstructions_4_1 : ∃ (s : State) (lc : Lc) (f : Fetch) (d : Decoded) (q : Pkg) (a b : Rand) (c :
    Core) (q1 : Pkg) (x : Nat) (q2 : Pkg) (add : Nat) (q3 : Pkg) (db : Dest) (q4 : Pkg) (upd : M Nat) (da : Nat → List
    Dest) (dst : Nat → Dest) (q5 : Pkg) (old : Nat) (q6 : Pkg) (c' : Core), Begins s lc f d q ∧ d.op = 0x71 ∧ Yields
    (formOperands (envOf s lc d) { OpUse.plain with atomic := (· == 0) } d.ops 0 (s.pkg.core lc)) q ([a, b], c) q1 ∧ (isWb
    a = true → Yields (readVal (envOf s lc d) a) q1 x q2) ∧ (isWb a = false → q2 = q1) ∧ Yields (readVal (envOf s lc d) b)
    q2 add q3 ∧ Yields (openDest (envOf s lc d) b (leBytes d.size 0)) q3 db q4 ∧ upd = atomicUpdate (envOf s lc d) a 2
    (leBytes d.size add) false (fun o => some ((o + add) % 2 ^ (8 * d.size))) ∧ da =
    (fun old => match a.loc with | .reg k _ => [Dest.reg k (addFlags (8 * d.size) old add false).r] | _ => []) ∧ dst =
    (fun old => match db with | .mem x ts _ => Dest.mem x ts (leBytes d.size old) | .reg k _ => .reg k old) ∧ db.chain =
    false ∧ Yields upd q4 old q5 ∧ Yields (commitDests s.mode (da old ++ [dst old]) c) q5 c' q6 :=
  ⟨cpuState 2, 17, fetchOf [0x71, 0x02, 0x11], _, _, _, _, _, _, _, _, _, _, _, _, _, _, _, _, _, _, _, begins
    (by decide +kernel), by decide +kernel, yields_two (by decide +kernel), wb_yes (by decide +kernel), wb_no, yields 0
    (by decide +kernel), yields (.reg 0 0) (by decide +kernel), rfl, rfl, rfl, by decide +kernel, yields 0
    (by decide +kernel), yields Core.reset (by decide +kernel)⟩

theorem witness_TwoOperandAndMoveInstructions_1 : ∃ (e : Nat × CpuRow × (Nat → Nat → BinRes)) (s : State) (lc : Lc) (f :
    Fetch) (d : Decoded) (q : Pkg) (a w : Rand) (c : Core) (q1 : Pkg) (va : Nat) (q2 : Pkg) (r : BinRes) (c' : Core) (q3 :
    Pkg), e ∈ twoRows ∧ Begins s lc f d q ∧ d.op = e.1 ∧ Yields (formOperands (envOf s lc d) OpUse.plain d.ops 0
    (s.pkg.core lc)) q ([a, w], c) q1 ∧ Yields (readVal (envOf s lc d) a) q1 va q2 ∧ r = e.2.2 (8 * d.size) va ∧ Yields
    (writeVal (envOf s lc d) w r.r c) q2 c' q3 :=
  ⟨(twoRows)[0]'(by decide), cpuState 2, 17, fetchOf [0x1B, 0x11, 0x31], _, _, _, _, _, _, _, _, _, _, _, List.getElem_mem
    _, begins (by decide +kernel), by decide +kernel, yields_two (by decide +kernel), yields 0 (by decide +kernel), rfl,
    yields Core.reset (by decide +kernel)⟩

theorem witness_TwoOperandAndMoveInstructions_2 : ∃ (e : Nat × CpuRow × Nat × (Nat → Nat → BinRes)) (s : State) (lc : Lc)
    (f : Fetch) (d : Decoded) (q : Pkg) (m : Rand) (c : Core) (q1 : Pkg) (v : Nat) (q2 : Pkg) (r : BinRes) (c' : Core) (q3
    : Pkg), e ∈ oneRows ∧ Begins s lc f d q ∧ d.op = e.1 ∧ d.lock = false ∧ Yields (formOperands (envOf s lc d)
    OpUse.plain d.ops 0 (s.pkg.core lc)) q ([m], c) q1 ∧ Yields (readVal (envOf s lc d) m) q1 v q2 ∧ r = e.2.2.2 (8 *
    d.size) v ∧ Yields (writeVal (envOf s lc d) m r.r c) q2 c' q3 :=
  ⟨(oneRows)[0]'(by decide), cpuState 2, 17, fetchOf [0x1C, 0x02], _, _, _, _, _, _, _, _, _, _, List.getElem_mem _,
    begins (by decide +kernel), by decide +kernel, by decide +kernel, yields_one (by decide +kernel), yields 0
    (by decide +kernel), rfl, yields Core.reset (by decide +kernel)⟩

theorem witness_TwoOperandAndMoveInstructions_3 : ∃ (e : Nat × CpuRow × (Nat → Nat → Nat → BinRes)) (s : State) (lc : Lc)
    (f : Fetch) (d : Decoded) (q : Pkg) (a b : Rand) (c : Core) (q1 : Pkg) (va : Nat) (q2 : Pkg) (vb : Nat) (q3 : Pkg), e
    ∈ compareRows ∧ Begins s lc f d q ∧ d.op = e.1 ∧ Yields (formOperands (envOf s lc d) OpUse.plain d.ops 0 (s.pkg.core
    lc)) q ([a, b], c) q1 ∧ Yields (readVal (envOf s lc d) a) q1 va q2 ∧ Yields (readVal (envOf s lc d) b) q2 vb q3 :=
  ⟨(compareRows)[0]'(by decide), cpuState 2, 17, fetchOf [0x1E, 0x02, 0x11], _, _, _, _, _, _, _, _, _, _,
    List.getElem_mem _, begins (by decide +kernel), by decide +kernel, yields_two (by decide +kernel), yields 0
    (by decide +kernel), yields 0 (by decide +kernel)⟩

theorem witness_TwoOperandAndMoveInstructions_4 : ∃ (s : State) (lc : Lc) (f : Fetch) (d : Decoded) (q : Pkg), Begins s lc
    f d q ∧ d.op = 0x01 :=
  ⟨cpuState 2, 17, fetchOf [0x01], _, _, begins (by decide +kernel), by decide +kernel⟩

theorem witness_TwoOperandAndMoveInstructions_5 : ∃ (e : Nat × CpuRow × (Rand → Nat → Nat)) (s : State) (lc : Lc) (f :
    Fetch) (d : Decoded) (q : Pkg) (a w : Rand) (c : Core) (q1 : Pkg) (v : Nat) (q2 : Pkg) (c' : Core) (q3 : Pkg), e ∈
    moveRows ∧ Begins s lc f d q ∧ d.op = e.1 ∧ d.rep = false ∧ Yields (formOperands (envOf s lc d) OpUse.plain d.ops 0
    (s.pkg.core lc)) q ([a, w], c) q1 ∧ Yields (readVal (envOf s lc d) a) q1 v q2 ∧ Yields (writeVal (envOf s lc d) w
    (e.2.2 a v) c) q2 c' q3 :=
  ⟨(moveRows)[0]'(by decide), cpuState 2, 17, fetchOf [0x2, 0x06, 0x31], _, _, _, _, _, _, _, _, _, _, List.getElem_mem _,
    begins (by decide +kernel), by decide +kernel, by decide +kernel, yields_two (by decide +kernel), yields 0
    (by decide +kernel), yields Core.reset (by decide +kernel)⟩

theorem witness_TwoOperandAndMoveInstructions_6 : ∃ (s : State) (lc : Lc) (f : Fetch) (d : Decoded) (q : Pkg) (a w : Rand)
    (va : Nat) (c : Core) (q1 : Pkg) (c' : Core) (q2 : Pkg), Begins s lc f d q ∧ d.op = 0x05 ∧ Yields (formOperands (envOf
    s lc d) OpUse.plain d.ops 0 (s.pkg.core lc)) q ([a, w], c) q1 ∧ a.loc = .mem va ∧ Yields (writeVal (envOf s lc d) w va
    c) q1 c' q2 :=
  ⟨cpuState 2, 17, fetchOf [5, 0x12, 0x32], _, _, _, _, _, _, _, _, _, begins (by decide +kernel), by decide +kernel,
    yields_two (by decide +kernel), in_mem (by decide +kernel), yields Core.reset (by decide +kernel)⟩

theorem witness_TwoOperandAndMoveInstructions_7 : ∃ (s : State) (lc : Lc) (f : Fetch) (d : Decoded) (q : Pkg) (a b : Rand)
    (c : Core) (q1 : Pkg) (x : List Byte) (q2 : Pkg) (y : List Byte) (q3 : Pkg) (d1 : Dest) (q4 : Pkg) (d0 : Dest) (q5 :
    Pkg) (c' : Core) (q6 : Pkg), Begins s lc f d q ∧ d.op = 0x06 ∧ Yields (formOperands (envOf s lc d) OpUse.plain d.ops 0
    (s.pkg.core lc)) q ([a, b], c) q1 ∧ Yields (readBytes (envOf s lc d) a) q1 x q2 ∧ Yields (readBytes (envOf s lc d) b)
    q2 y q3 ∧ Yields (openDest (envOf s lc d) b x) q3 d1 q4 ∧ Yields (openDest (envOf s lc d) a y) q4 d0 q5 ∧ Yields
    (commitDests s.mode [d1, d0] c) q5 c' q6 :=
  ⟨cpuState 2, 17, fetchOf [6, 0x02, 0x11], _, _, _, _, _, _, _, _, _, _, _, _, _, _, _, _, begins (by decide +kernel),
    by decide +kernel, yields_two (by decide +kernel), yields [] (by decide +kernel), yields [] (by decide +kernel),
    yields (.reg 0 0) (by decide +kernel), yields (.reg 0 0) (by decide +kernel), yields Core.reset (by decide +kernel)⟩

theorem witness_TwoOperandAndMoveInstructions_8 : ∃ (s : State) (lc : Lc) (f : Fetch) (d : Decoded) (q : Pkg) (a : Rand)
    (c : Core) (q1 : Pkg) (c' : Core) (q2 : Pkg), Begins s lc f d q ∧ d.op = 0x07 ∧ d.rep = false ∧ Yields (formOperands
    (envOf s lc d) OpUse.plain d.ops 0 (s.pkg.core lc)) q ([a], c) q1 ∧ Yields (writeVal (envOf s lc d) a 0 c) q1 c' q2 :=
  ⟨cpuState 2, 17, fetchOf [7, 0x02], _, _, _, _, _, _, _, begins (by decide +kernel), by decide +kernel,
    by decide +kernel, yields_one (by decide +kernel), yields Core.reset (by decide +kernel)⟩

theorem witness_RepeatedInstructions_1 : ∃ (e : Nat × CpuRow) (s : State) (lc : Lc) (f : Fetch) (d : Decoded) (q : Pkg), e
    ∈ repRows ∧ Begins s lc f d q ∧ d.op = e.1 ∧ d.rep = true ∧ (s.pkg.core lc).gGet 13 = 0 :=
  ⟨(repRows)[0]'(by decide), onPkg (cpuState 2) (fun p => p.setCore 17 ((p.core 17).gSet 13 (0))), 17, fetchOf [0xF8, 0x2,
    0x02, 0x12, 0x11], _, _, List.getElem_mem _, begins (by decide +kernel), by decide +kernel, by decide +kernel,
    by decide +kernel⟩

theorem witness_RepeatedInstructions_2 : ∃ (s : State) (lc : Lc) (f : Fetch) (d : Decoded) (q : Pkg) (a w : Rand) (c :
    Core) (q1 : Pkg) (v : Nat) (q2 : Pkg) (c' : Core) (q3 : Pkg), Begins s lc f d q ∧ d.op = 0x02 ∧ d.rep = true ∧ (q.core
    lc).failed = [] ∧ ((s.pkg.core lc).gGet 13).toNat = 1 ∧ f.stop ≠ some 0 ∧ Yields (formOperands (envOf s lc d)
    OpUse.plain d.ops 0 (s.pkg.core lc)) q ([a, w], c) q1 ∧ Yields (readVal (envOf s lc d) a) q1 v q2 ∧ Yields (writeVal
    (envOf s lc d) w v c) q2 c' q3 :=
  ⟨onPkg (cpuState 2) (fun p => p.setCore 17 ((p.core 17).gSet 13 (1))), 17, fetchOf [0xF8, 0x02, 0x06, 0x21], _, _, _, _,
    _, _, _, _, _, _, begins (by decide +kernel), by decide +kernel, by decide +kernel, by decide +kernel,
    by decide +kernel, by decide +kernel, yields_two (by decide +kernel), yields 0 (by decide +kernel), yields Core.reset
    (by decide +kernel)⟩

theorem witness_RepeatedInstructions_3 : ∃ (s : State) (lc : Lc) (f : Fetch) (d : Decoded) (q : Pkg) (a w : Rand) (c :
    Core) (q1 : Pkg) (v : Nat) (q2 : Pkg) (c' : Core) (q3 : Pkg), Begins s lc f d q ∧ d.op = 0x02 ∧ d.rep = true ∧ (q.core
    lc).failed = [] ∧ 1 < ((s.pkg.core lc).gGet 13).toNat ∧ f.stop = some 1 ∧ Yields (formOperands (envOf s lc d)
    OpUse.plain d.ops 0 (s.pkg.core lc)) q ([a, w], c) q1 ∧ Yields (readVal (envOf s lc d) a) q1 v q2 ∧ Yields (writeVal
    (envOf s lc d) w v c) q2 c' q3 :=
  ⟨cpuState 2, 17, fetchOf [0xF8, 0x02, 0x06, 0x21] (some 1), _, _, _, _, _, _, _, _, _, _, begins (by decide +kernel),
    by decide +kernel, by decide +kernel, by decide +kernel, by decide +kernel, by decide +kernel, yields_two
    (by decide +kernel), yields 0 (by decide +kernel), yields Core.reset (by decide +kernel)⟩

theorem witness_DecimalInstructionsAreExact_1_1 : ∃ (e : Nat × CpuRow × (Int → Int → Option Int)) (s : State) (lc : Lc) (f
    : Fetch) (d : Decoded) (q : Pkg) (a b w : Rand) (c : Core) (q1 : Pkg) (ba : List Byte) (q2 : Pkg) (bb : List Byte) (q3
    : Pkg) (va vb v : Int) (r : DecRes) (q11 : Pkg) (dst : Dest) (q12 : Pkg) (k1 : Core), e ∈ decimalRows ∧ Begins s lc f
    d q ∧ d.op = e.1 ∧ Yields (formOperands (envOf s lc d) (decUse 2) d.ops 0 (s.pkg.core lc)) q ([a, b, w], c) q1 ∧
    Yields (readBytes (envOf s lc d) a) q1 ba q2 ∧ Yields (readBytes (envOf s lc d) b) q2 bb q3 ∧ decVal ba = some va ∧
    decVal bb = some vb ∧ e.2.2 va vb = some v ∧ r = decFit w.spec.size v ∧ Yields (openDest (envOf s lc d) w r.bytes) q3
    dst q11 ∧ Yields (commitDests s.mode [dst] c) q11 k1 q12 ∧ (r.dv && pswDVE k1.psw) = false :=
  ⟨(decimalRows)[0]'(by decide), cpuState 2, 17, fetchOf [0x30, 0x12, 3, 0x22, 3, 0x52, 7], _, _, _, _, _, _, _, _, _, _,
    _, _, _, _, _, _, _, _, _, List.getElem_mem _, begins (by decide +kernel), by decide +kernel, yields_three
    (by decide +kernel), yields [] (by decide +kernel), yields [] (by decide +kernel), some_getD 0 (by decide +kernel),
    some_getD 0 (by decide +kernel), some_getD 0 (by decide +kernel), rfl, yields (.reg 0 0) (by decide +kernel), yields
    Core.reset (by decide +kernel), by decide +kernel⟩

theorem witness_DecimalInstructionsAreExact_1_2 : ∃ (e : Nat × CpuRow × (Int → Int → Option Int)) (s : State) (lc : Lc) (f
    : Fetch) (d : Decoded) (q : Pkg) (a b w : Rand) (c : Core) (q1 : Pkg) (ba : List Byte) (q2 : Pkg) (bb : List Byte) (q3
    : Pkg) (va vb v : Int) (r : DecRes) (q11 : Pkg) (dst : Dest) (q12 : Pkg) (k1 : Core), e ∈ decimalRows ∧ Begins s lc f
    d q ∧ d.op = e.1 ∧ Yields (formOperands (envOf s lc d) (decUse 2) d.ops 0 (s.pkg.core lc)) q ([a, b, w], c) q1 ∧
    Yields (readBytes (envOf s lc d) a) q1 ba q2 ∧ Yields (readBytes (envOf s lc d) b) q2 bb q3 ∧ decVal ba = some va ∧
    decVal bb = some vb ∧ e.2.2 va vb = some v ∧ r = decFit w.spec.size v ∧ Yields (openDest (envOf s lc d) w r.bytes) q3
    dst q11 ∧ Yields (commitDests s.mode [dst] c) q11 k1 q12 ∧ (r.dv && pswDVE k1.psw) = true ∧ pswXS k1.psw = false :=
  ⟨(decimalRows)[2]'(by decide), onPkg (cpuState 2) (fun p => p.setCore 17
    { p.core 17 with psw := setBit (p.core 17).psw 5 true }), 17, fetchOf [0x32, 0x12, 3, 0x12, 3, 0x52, 0], _, _, _, _,
    _, _, _, _, _, _, _, _, _, _, _, _, _, _, _, List.getElem_mem _, begins (by decide +kernel), by decide +kernel,
    yields_three (by decide +kernel), yields [] (by decide +kernel), yields [] (by decide +kernel), some_getD 0
    (by decide +kernel), some_getD 0 (by decide +kernel), some_getD 0 (by decide +kernel), rfl, yields (.reg 0 0)
    (by decide +kernel), yields Core.reset (by decide +kernel), by decide +kernel, by decide +kernel⟩

theorem witness_DecimalInstructionsAreExact_1_3 : ∃ (e : Nat × CpuRow × (Int → Int → Option Int)) (s : State) (lc : Lc) (f
    : Fetch) (d : Decoded) (q : Pkg) (a b w : Rand) (c : Core) (q1 : Pkg) (ba : List Byte) (q2 : Pkg) (bb : List Byte) (q3
    : Pkg), e ∈ decimalRows ∧ Begins s lc f d q ∧ d.op = e.1 ∧ Yields (formOperands (envOf s lc d) (decUse 2) d.ops 0
    (s.pkg.core lc)) q ([a, b, w], c) q1 ∧ Yields (readBytes (envOf s lc d) a) q1 ba q2 ∧ Yields (readBytes (envOf s lc d)
    b) q2 bb q3 ∧ decVal ba = none :=
  ⟨(decimalRows)[0]'(by decide), cpuState 2, 17, fetchOf [0x30, 0x42, 3, 0x22, 3, 0x52, 7], _, _, _, _, _, _, _, _, _, _,
    _, List.getElem_mem _, begins (by decide +kernel), by decide +kernel, yields_three (by decide +kernel), yields []
    (by decide +kernel), yields [] (by decide +kernel), by decide +kernel⟩

theorem witness_DecimalInstructionsAreExact_1_4 : ∃ (e : Nat × CpuRow × (Int → Int → Option Int)) (s : State) (lc : Lc) (f
    : Fetch) (d : Decoded) (q : Pkg) (a b w : Rand) (c : Core) (q1 : Pkg) (ba : List Byte) (q2 : Pkg) (bb : List Byte) (q3
    : Pkg) (va : Int), e ∈ decimalRows ∧ Begins s lc f d q ∧ d.op = e.1 ∧ Yields (formOperands (envOf s lc d) (decUse 2)
    d.ops 0 (s.pkg.core lc)) q ([a, b, w], c) q1 ∧ Yields (readBytes (envOf s lc d) a) q1 ba q2 ∧ Yields (readBytes (envOf
    s lc d) b) q2 bb q3 ∧ decVal ba = some va ∧ decVal bb = none :=
  ⟨(decimalRows)[0]'(by decide), cpuState 2, 17, fetchOf [0x30, 0x12, 3, 0x42, 3, 0x52, 7], _, _, _, _, _, _, _, _, _, _,
    _, _, List.getElem_mem _, begins (by decide +kernel), by decide +kernel, yields_three (by decide +kernel), yields []
    (by decide +kernel), yields [] (by decide +kernel), some_getD 0 (by decide +kernel), by decide +kernel⟩

theorem witness_DecimalInstructionsAreExact_1_5 : ∃ (e : Nat × CpuRow × (Int → Int → Option Int)) (s : State) (lc : Lc) (f
    : Fetch) (d : Decoded) (q : Pkg) (a b w : Rand) (c : Core) (q1 : Pkg) (ba : List Byte) (q2 : Pkg) (bb : List Byte) (q3
    : Pkg) (va vb : Int), e ∈ decimalRows ∧ Begins s lc f d q ∧ d.op = e.1 ∧ Yields (formOperands (envOf s lc d) (decUse
    2) d.ops 0 (s.pkg.core lc)) q ([a, b, w], c) q1 ∧ Yields (readBytes (envOf s lc d) a) q1 ba q2 ∧ Yields (readBytes
    (envOf s lc d) b) q2 bb q3 ∧ decVal ba = some va ∧ decVal bb = some vb ∧ e.2.2 va vb = none :=
  ⟨(decimalRows)[3]'(by decide), cpuState 2, 17, fetchOf [0x33, 0x12, 3, 0x32, 3, 0x52, 7], _, _, _, _, _, _, _, _, _, _,
    _, _, _, List.getElem_mem _, begins (by decide +kernel), by decide +kernel, yields_three (by decide +kernel), yields
    [] (by decide +kernel), yields [] (by decide +kernel), some_getD 0 (by decide +kernel), some_getD 0
    (by decide +kernel), by decide +kernel⟩

theorem witness_DecimalInstructionsAreExact_2_1 : ∃ (s : State) (lc : Lc) (f : Fetch) (d : Decoded) (q : Pkg) (a b : Rand)
    (c : Core) (q1 : Pkg) (ba : List Byte) (q2 : Pkg) (bb : List Byte) (q3 : Pkg) (va vb : Int), Begins s lc f d q ∧ d.op
    = 0x34 ∧ Yields (formOperands (envOf s lc d) OpUse.plain d.ops 0 (s.pkg.core lc)) q ([a, b], c) q1 ∧ Yields (readBytes
    (envOf s lc d) a) q1 ba q2 ∧ Yields (readBytes (envOf s lc d) b) q2 bb q3 ∧ decVal ba = some va ∧ decVal bb = some vb
    :=
  ⟨cpuState 2, 17, fetchOf [0x34, 0x12, 3, 0x22, 3], _, _, _, _, _, _, _, _, _, _, _, _, begins (by decide +kernel),
    by decide +kernel, yields_two (by decide +kernel), yields [] (by decide +kernel), yields [] (by decide +kernel),
    some_getD 0 (by decide +kernel), some_getD 0 (by decide +kernel)⟩

theorem witness_DecimalInstructionsAreExact_2_2 : ∃ (s : State) (lc : Lc) (f : Fetch) (d : Decoded) (q : Pkg) (a b : Rand)
    (c : Core) (q1 : Pkg) (ba : List Byte) (q2 : Pkg) (bb : List Byte) (q3 : Pkg), Begins s lc f d q ∧ d.op = 0x34 ∧
    Yields (formOperands (envOf s lc d) OpUse.plain d.ops 0 (s.pkg.core lc)) q ([a, b], c) q1 ∧ Yields (readBytes (envOf s
    lc d) a) q1 ba q2 ∧ Yields (readBytes (envOf s lc d) b) q2 bb q3 ∧ decVal ba = none :=
  ⟨cpuState 2, 17, fetchOf [0x34, 0x42, 3, 0x22, 3], _, _, _, _, _, _, _, _, _, _, begins (by decide +kernel),
    by decide +kernel, yields_two (by decide +kernel), yields [] (by decide +kernel), yields [] (by decide +kernel),
    by decide +kernel⟩

theorem witness_DecimalInstructionsAreExact_2_3 : ∃ (s : State) (lc : Lc) (f : Fetch) (d : Decoded) (q : Pkg) (a b : Rand)
    (c : Core) (q1 : Pkg) (ba : List Byte) (q2 : Pkg) (bb : List Byte) (q3 : Pkg) (va : Int), Begins s lc f d q ∧ d.op =
    0x34 ∧ Yields (formOperands (envOf s lc d) OpUse.plain d.ops 0 (s.pkg.core lc)) q ([a, b], c) q1 ∧ Yields (readBytes
    (envOf s lc d) a) q1 ba q2 ∧ Yields (readBytes (envOf s lc d) b) q2 bb q3 ∧ decVal ba = some va ∧ decVal bb = none :=
  ⟨cpuState 2, 17, fetchOf [0x34, 0x12, 3, 0x42, 3], _, _, _, _, _, _, _, _, _, _, _, begins (by decide +kernel),
    by decide +kernel, yields_two (by decide +kernel), yields [] (by decide +kernel), yields [] (by decide +kernel),
    some_getD 0 (by decide +kernel), by decide +kernel⟩

theorem witness_DecimalInstructionsAreExact_3_1 : ∃ (s : State) (lc : Lc) (f : Fetch) (d : Decoded) (q : Pkg) (a b w :
    Rand) (c : Core) (q1 : Pkg) (ba : List Byte) (q2 : Pkg) (vk : Nat) (q3 : Pkg) (va : Int) (r : DecRes) (q11 : Pkg) (dst
    : Dest) (q12 : Pkg) (k1 : Core), Begins s lc f d q ∧ d.op = 0x35 ∧ Yields (formOperands (envOf s lc d) (decUse 2)
    d.ops 0 (s.pkg.core lc)) q ([a, b, w], c) q1 ∧ Yields (readBytes (envOf s lc d) a) q1 ba q2 ∧ Yields (readVal (envOf s
    lc d) b) q2 vk q3 ∧ -31 ≤ toInt 8 vk ∧ toInt 8 vk ≤ 31 ∧ decVal ba = some va ∧ r = decFit w.spec.size (decShift va
    (toInt 8 vk)) ∧ Yields (openDest (envOf s lc d) w r.bytes) q3 dst q11 ∧ Yields (commitDests s.mode [dst] c) q11 k1 q12
    ∧ (r.dv && pswDVE k1.psw) = false :=
  ⟨cpuState 2, 17, fetchOf [0x35, 0x12, 3, 0x61, 0x52, 7], _, _, _, _, _, _, _, _, _, _, _, _, _, _, _, _, _, begins
    (by decide +kernel), by decide +kernel, yields_three (by decide +kernel), yields [] (by decide +kernel), yields 0
    (by decide +kernel), by decide +kernel, by decide +kernel, some_getD 0 (by decide +kernel), rfl, yields (.reg 0 0)
    (by decide +kernel), yields Core.reset (by decide +kernel), by decide +kernel⟩

theorem witness_DecimalInstructionsAreExact_3_3 : ∃ (s : State) (lc : Lc) (f : Fetch) (d : Decoded) (q : Pkg) (a b w :
    Rand) (c : Core) (q1 : Pkg) (ba : List Byte) (q2 : Pkg) (vk : Nat) (q3 : Pkg), Begins s lc f d q ∧ d.op = 0x35 ∧
    Yields (formOperands (envOf s lc d) (decUse 2) d.ops 0 (s.pkg.core lc)) q ([a, b, w], c) q1 ∧ Yields (readBytes (envOf
    s lc d) a) q1 ba q2 ∧ Yields (readVal (envOf s lc d) b) q2 vk q3 ∧ -31 ≤ toInt 8 vk ∧ toInt 8 vk ≤ 31 ∧ decVal ba =
    none :=
  ⟨onPkg (cpuState 2) (fun p => p.setCore 17 ((p.core 17).gSet 6 (31))), 17, fetchOf [0x35, 0x42, 3, 0x61, 0x52, 7], _, _,
    _, _, _, _, _, _, _, _, _, begins (by decide +kernel), by decide +kernel, yields_three (by decide +kernel), yields []
    (by decide +kernel), yields 0 (by decide +kernel), by decide +kernel, by decide +kernel, by decide +kernel⟩

theorem witness_DecimalInstructionsAreExact_3_4 : ∃ (s : State) (lc : Lc) (f : Fetch) (d : Decoded) (q : Pkg) (a b w :
    Rand) (c : Core) (q1 : Pkg) (ba : List Byte) (q2 : Pkg) (vk : Nat) (q3 : Pkg), Begins s lc f d q ∧ d.op = 0x35 ∧
    Yields (formOperands (envOf s lc d) (decUse 2) d.ops 0 (s.pkg.core lc)) q ([a, b, w], c) q1 ∧ Yields (readBytes (envOf
    s lc d) a) q1 ba q2 ∧ Yields (readVal (envOf s lc d) b) q2 vk q3 ∧ (toInt 8 vk < -31 ∨ 31 < toInt 8 vk) :=
  ⟨onPkg (cpuState 2) (fun p => p.setCore 17 ((p.core 17).gSet 6 (32))), 17, fetchOf [0x35, 0x12, 3, 0x61, 0x52, 7], _, _,
    _, _, _, _, _, _, _, _, _, begins (by decide +kernel), by decide +kernel, yields_three (by decide +kernel), yields []
    (by decide +kernel), yields 0 (by decide +kernel), by decide +kernel⟩

theorem witness_DecimalInstructionsAreExact_4_1 : ∃ (s : State) (lc : Lc) (f : Fetch) (d : Decoded) (q : Pkg) (a w : Rand)
    (c : Core) (q1 : Pkg) (ba : List Byte) (q2 : Pkg) (v : Int) (q3 : Pkg) (c' : Core), Begins s lc f d q ∧ d.op = 0x36 ∧
    Yields (formOperands (envOf s lc d) OpUse.plain d.ops 0 (s.pkg.core lc)) q ([a, w], c) q1 ∧ Yields (readBytes (envOf s
    lc d) a) q1 ba q2 ∧ decVal ba = some v ∧ Yields (writeVal (envOf s lc d) w (ofInt 64 v) c) q2 c' q3 :=
  ⟨cpuState 2, 17, fetchOf [0x36, 0x12, 3, 0x71], _, _, _, _, _, _, _, _, _, _, _, begins (by decide +kernel),
    by decide +kernel, yields_two (by decide +kernel), yields [] (by decide +kernel), some_getD 0 (by decide +kernel),
    yields Core.reset (by decide +kernel)⟩

theorem witness_DecimalInstructionsAreExact_4_2 : ∃ (s : State) (lc : Lc) (f : Fetch) (d : Decoded) (q : Pkg) (a w : Rand)
    (c : Core) (q1 : Pkg) (ba : List Byte) (q2 : Pkg), Begins s lc f d q ∧ d.op = 0x36 ∧ Yields (formOperands (envOf s lc
    d) OpUse.plain d.ops 0 (s.pkg.core lc)) q ([a, w], c) q1 ∧ Yields (readBytes (envOf s lc d) a) q1 ba q2 ∧ decVal ba =
    none :=
  ⟨cpuState 2, 17, fetchOf [0x36, 0x42, 3, 0x71], _, _, _, _, _, _, _, _, begins (by decide +kernel), by decide +kernel,
    yields_two (by decide +kernel), yields [] (by decide +kernel), by decide +kernel⟩

theorem witness_DecimalInstructionsAreExact_5_1 : ∃ (s : State) (lc : Lc) (f : Fetch) (d : Decoded) (q : Pkg) (a w : Rand)
    (c : Core) (q1 : Pkg) (v : Nat) (q2 : Pkg) (r : DecRes) (q11 : Pkg) (dst : Dest) (q12 : Pkg) (k1 : Core), Begins s lc
    f d q ∧ d.op = 0x37 ∧ Yields (formOperands (envOf s lc d) (decUse 1) d.ops 0 (s.pkg.core lc)) q ([a, w], c) q1 ∧
    Yields (readVal (envOf s lc d) a) q1 v q2 ∧ r = decFit w.spec.size (toInt 64 v) ∧ Yields (openDest (envOf s lc d) w
    r.bytes) q2 dst q11 ∧ Yields (commitDests s.mode [dst] c) q11 k1 q12 ∧ (r.dv && pswDVE k1.psw) = false :=
  ⟨cpuState 2, 17, fetchOf [0x37, 0x71, 0x52, 7], _, _, _, _, _, _, _, _, _, _, _, _, _, begins (by decide +kernel),
    by decide +kernel, yields_two (by decide +kernel), yields 0 (by decide +kernel), rfl, yields (.reg 0 0)
    (by decide +kernel), yields Core.reset (by decide +kernel), by decide +kernel⟩

theorem witness_DecimalInstructionsAreExact_6_1 : ∃ (s : State) (lc : Lc) (f : Fetch) (d : Decoded) (q : Pkg) (a w : Rand)
    (c : Core) (q1 : Pkg) (ba : List Byte) (q2 : Pkg) (v : Int) (r : DecRes) (q11 : Pkg) (dst : Dest) (q12 : Pkg) (k1 :
    Core), Begins s lc f d q ∧ d.op = 0x38 ∧ Yields (formOperands (envOf s lc d) (decUse 1) d.ops 0 (s.pkg.core lc)) q
    ([a, w], c) q1 ∧ Yields (readBytes (envOf s lc d) a) q1 ba q2 ∧ decVal ba = some v ∧ r = decFit w.spec.size v ∧ Yields
    (openDest (envOf s lc d) w r.bytes) q2 dst q11 ∧ Yields (commitDests s.mode [dst] c) q11 k1 q12 ∧ (r.dv && pswDVE
    k1.psw) = false :=
  ⟨cpuState 2, 17, fetchOf [0x38, 0x12, 3, 0x52, 0], _, _, _, _, _, _, _, _, _, _, _, _, _, _, begins (by decide +kernel),
    by decide +kernel, yields_two (by decide +kernel), yields [] (by decide +kernel), some_getD 0 (by decide +kernel),
    rfl, yields (.reg 0 0) (by decide +kernel), yields Core.reset (by decide +kernel), by decide +kernel⟩

theorem witness_DecimalInstructionsAreExact_6_3 : ∃ (s : State) (lc : Lc) (f : Fetch) (d : Decoded) (q : Pkg) (a w : Rand)
    (c : Core) (q1 : Pkg) (ba : List Byte) (q2 : Pkg), Begins s lc f d q ∧ d.op = 0x38 ∧ Yields (formOperands (envOf s lc
    d) (decUse 1) d.ops 0 (s.pkg.core lc)) q ([a, w], c) q1 ∧ Yields (readBytes (envOf s lc d) a) q1 ba q2 ∧ decVal ba =
    none :=
  ⟨cpuState 2, 17, fetchOf [0x38, 0x42, 3, 0x52, 0], _, _, _, _, _, _, _, _, begins (by decide +kernel),
    by decide +kernel, yields_two (by decide +kernel), yields [] (by decide +kernel), by decide +kernel⟩

theorem witness_FieldInstructions_1 : ∃ (s : State) (lc : Lc) (f : Fetch) (d : Decoded) (q : Pkg) (a b l : Rand) (c :
    Core) (q1 : Pkg) (n : Nat) (q2 : Pkg) (i k : Nat) (x : Bool) (q3 : Pkg) (c' : Core) (q4 : Pkg), Begins s lc f d q ∧
    d.op = 0x40 ∧ Yields (formOperands (envOf s lc d) OpUse.plain d.ops 0 (s.pkg.core lc)) q ([a, b, l], c) q1 ∧ Yields
    (readVal (envOf s lc d) l) q1 n q2 ∧ n ≤ 4096 ∧ Yields (byteLoop (envOf s lc d) (s.pkg.core lc) (fscanStep (envOf s lc
    d) a b n) (n + 1 - startOffset (s.pkg.core lc)) f.stop (startOffset (s.pkg.core lc)) 0 false) q2 (i, k, x, .finished)
    q3 ∧ Yields (writeVal (envOf s lc d) l (min i n) c) q3 c' q4 :=
  ⟨onPkg (cpuState 2) (fun p => p.setCore 17 ((p.core 17).gSet 6 (1))), 17, fetchOf [0x40, 0x12, 0x02, 0x61], _, _, _, _,
    _, _, _, _, _, _, _, _, _, _, _, begins (by decide +kernel), by decide +kernel, yields_three (by decide +kernel),
    yields 0 (by decide +kernel), by decide +kernel, yields_loop false (by decide +kernel), yields Core.reset
    (by decide +kernel)⟩

theorem witness_FieldInstructions_2 : ∃ (s : State) (lc : Lc) (f : Fetch) (d : Decoded) (q : Pkg) (a b l : Rand) (c :
    Core) (q1 : Pkg) (n : Nat) (q2 : Pkg) (i k : Nat) (x : Bool) (q3 : Pkg), Begins s lc f d q ∧ d.op = 0x41 ∧ Yields
    (formOperands (envOf s lc d) OpUse.plain d.ops 0 (s.pkg.core lc)) q ([a, b, l], c) q1 ∧ Yields (readVal (envOf s lc d)
    l) q1 n q2 ∧ n ≤ 4096 ∧ Yields (byteLoop (envOf s lc d) (s.pkg.core lc) (fxlatStep (envOf s lc d) a b) (n -
    startOffset (s.pkg.core lc)) f.stop (startOffset (s.pkg.core lc)) 0 false) q2 (i, k, x, .finished) q3 :=
  ⟨onPkg (cpuState 2) (fun p => p.setCore 17 ((p.core 17).gSet 6 (1))), 17, fetchOf [0x41, 0x52, 0x02, 0x61], _, _, _, _,
    _, _, _, _, _, _, _, _, _, begins (by decide +kernel), by decide +kernel, yields_three (by decide +kernel), yields 0
    (by decide +kernel), by decide +kernel, yields_loop false (by decide +kernel)⟩

theorem witness_FieldInstructions_3 : ∃ (s : State) (lc : Lc) (f : Fetch) (d : Decoded) (q : Pkg) (a b l : Rand) (c :
    Core) (q1 : Pkg) (n : Nat) (q2 : Pkg) (i k : Nat) (x : Bool) (q3 : Pkg), Begins s lc f d q ∧ d.op = 0x42 ∧ Yields
    (formOperands (envOf s lc d) OpUse.plain d.ops 0 (s.pkg.core lc)) q ([a, b, l], c) q1 ∧ Yields (readVal (envOf s lc d)
    l) q1 n q2 ∧ n ≤ 4096 ∧ Yields (byteLoop (envOf s lc d) (s.pkg.core lc) (fmoveStep (envOf s lc d) a b n) (n -
    startOffset (s.pkg.core lc)) f.stop (startOffset (s.pkg.core lc)) 0 false) q2 (i, k, x, .finished) q3 :=
  ⟨onPkg (cpuState 2) (fun p => p.setCore 17 ((p.core 17).gSet 6 (1))), 17, fetchOf [0x42, 0x12, 0x52, 0x61], _, _, _, _,
    _, _, _, _, _, _, _, _, _, begins (by decide +kernel), by decide +kernel, yields_three (by decide +kernel), yields 0
    (by decide +kernel), by decide +kernel, yields_loop false (by decide +kernel)⟩

theorem witness_FieldInstructions_4 : ∃ (s : State) (lc : Lc) (f : Fetch) (d : Decoded) (q : Pkg) (a b l : Rand) (c :
    Core) (q1 : Pkg) (v : List Byte) (q2 : Pkg) (n : Nat) (q3 : Pkg) (dev : Bool) (q4 : Pkg) (ts : List (Nat × Nat × Nat))
    (q5 : Pkg) (c' : Core) (q6 : Pkg) (va : Nat), Begins s lc f d q ∧ d.op = 0x43 ∧ Yields (formOperands (envOf s lc d)
    OpUse.plain d.ops 0 (s.pkg.core lc)) q ([a, b, l], c) q1 ∧ a.loc = .mem va ∧ Yields (readVal (envOf s lc d) l) q1 n q2
    ∧ n ≤ 4096 ∧ Yields (checkMem ((envOf s lc d).at a) va n [1]) q2 dev q3 ∧ Yields (readBytes (envOf s lc d) b) q3 v q4
    ∧ Yields (openMem ((envOf s lc d).at a) va n) q4 ts q5 ∧ Yields (commitDests s.mode [.mem ((envOf s lc d).at a) ts
    (List.replicate n (v.headD 0))] c) q5 c' q6 :=
  ⟨cpuState 2, 17, fetchOf [0x43, 0x52, 0x71, 0x61], _, _, _, _, _, _, _, _, _, _, _, _, _, _, _, _, _, _, begins
    (by decide +kernel), by decide +kernel, yields_three (by decide +kernel), in_mem (by decide +kernel), yields 0
    (by decide +kernel), by decide +kernel, yields false (by decide +kernel), yields [] (by decide +kernel), yields []
    (by decide +kernel), yields Core.reset (by decide +kernel)⟩

theorem witness_FieldInstructions_5_1 : ∃ (s : State) (lc : Lc) (f : Fetch) (d : Decoded) (q : Pkg) (a b l : Rand) (c :
    Core) (q1 : Pkg) (n : Nat) (q2 : Pkg) (d1 : Bool) (q3 : Pkg) (d2 : Bool) (q4 : Pkg) (x : List Byte) (q5 : Pkg) (y :
    List Byte) (q6 : Pkg) (va vb : Nat), Begins s lc f d q ∧ d.op = 0x44 ∧ Yields (formOperands (envOf s lc d) OpUse.plain
    d.ops 0 (s.pkg.core lc)) q ([a, b, l], c) q1 ∧ a.loc = .mem va ∧ b.loc = .mem vb ∧ Yields (readVal (envOf s lc d) l)
    q1 n q2 ∧ n ≤ 4096 ∧ Yields (checkMem ((envOf s lc d).at a) va n [0]) q2 d1 q3 ∧ Yields (checkMem ((envOf s lc d).at
    b) vb n [0]) q3 d2 q4 ∧ Yields (readMem ((envOf s lc d).at a) s.mode va n) q4 x q5 ∧ Yields (readMem ((envOf s lc
    d).at b) s.mode vb n) q5 y q6 ∧ x = y :=
  ⟨cpuState 2, 17, fetchOf [0x44, 0x12, 0x12, 0x61], _, _, _, _, _, _, _, _, _, _, _, _, _, _, _, _, _, _, _, begins
    (by decide +kernel), by decide +kernel, yields_three (by decide +kernel), in_mem (by decide +kernel), in_mem
    (by decide +kernel), yields 0 (by decide +kernel), by decide +kernel, yields false (by decide +kernel), yields false
    (by decide +kernel), yields [] (by decide +kernel), yields [] (by decide +kernel), by decide +kernel⟩

theorem witness_FieldInstructions_5_2 : ∃ (s : State) (lc : Lc) (f : Fetch) (d : Decoded) (q : Pkg) (a b l : Rand) (c :
    Core) (q1 : Pkg) (n : Nat) (q2 : Pkg) (d1 : Bool) (q3 : Pkg) (d2 : Bool) (q4 : Pkg) (x : List Byte) (q5 : Pkg) (y :
    List Byte) (q6 : Pkg) (va vb : Nat) (pre : List Byte) (u v : Byte) (x' y' : List Byte), Begins s lc f d q ∧ d.op =
    0x44 ∧ Yields (formOperands (envOf s lc d) OpUse.plain d.ops 0 (s.pkg.core lc)) q ([a, b, l], c) q1 ∧ a.loc = .mem va
    ∧ b.loc = .mem vb ∧ Yields (readVal (envOf s lc d) l) q1 n q2 ∧ n ≤ 4096 ∧ Yields (checkMem ((envOf s lc d).at a) va n
    [0]) q2 d1 q3 ∧ Yields (checkMem ((envOf s lc d).at b) vb n [0]) q3 d2 q4 ∧ Yields (readMem ((envOf s lc d).at a)
    s.mode va n) q4 x q5 ∧ Yields (readMem ((envOf s lc d).at b) s.mode vb n) q5 y q6 ∧ x = pre ++ u :: x' ∧ y = pre ++ v
    :: y' ∧ u ≠ v :=
  ⟨cpuState 2, 17, fetchOf [0x44, 0x12, 0x02, 0x61], _, _, _, _, _, _, _, _, _, _, _, _, _, _, _, _, _, _, _, ([] : List
    Byte), (yielded (readMem ((envOf (cpuState 2 : State) (17 : Lc) (decodedOf (fetchOf [0x44, 0x12, 0x02, 0x61] :
    Fetch))).at (formed (formOperands (envOf (cpuState 2 : State) (17 : Lc) (decodedOf (fetchOf [0x44, 0x12, 0x02, 0x61] :
    Fetch))) OpUse.plain (decodedOf (fetchOf [0x44, 0x12, 0x02, 0x61] : Fetch)).ops 0 ((cpuState 2 : State).pkg.core (17 :
    Lc))) (begun (cpuState 2 : State) (fetchOf [0x44, 0x12, 0x02, 0x61] : Fetch)) 0)) (cpuState 2 : State).mode (memOf
    (formed (formOperands (envOf (cpuState 2 : State) (17 : Lc) (decodedOf (fetchOf [0x44, 0x12, 0x02, 0x61] : Fetch)))
    OpUse.plain (decodedOf (fetchOf [0x44, 0x12, 0x02, 0x61] : Fetch)).ops 0 ((cpuState 2 : State).pkg.core (17 : Lc)))
    (begun (cpuState 2 : State) (fetchOf [0x44, 0x12, 0x02, 0x61] : Fetch)) 0)) (yielded (readVal (envOf (cpuState 2 :
    State) (17 : Lc) (decodedOf (fetchOf [0x44, 0x12, 0x02, 0x61] : Fetch))) (formed (formOperands (envOf (cpuState 2 :
    State) (17 : Lc) (decodedOf (fetchOf [0x44, 0x12, 0x02, 0x61] : Fetch))) OpUse.plain (decodedOf (fetchOf [0x44, 0x12,
    0x02, 0x61] : Fetch)).ops 0 ((cpuState 2 : State).pkg.core (17 : Lc))) (begun (cpuState 2 : State) (fetchOf [0x44,
    0x12, 0x02, 0x61] : Fetch)) 2)) (left (formOperands (envOf (cpuState 2 : State) (17 : Lc) (decodedOf (fetchOf [0x44,
    0x12, 0x02, 0x61] : Fetch))) OpUse.plain (decodedOf (fetchOf [0x44, 0x12, 0x02, 0x61] : Fetch)).ops 0 ((cpuState 2 :
    State).pkg.core (17 : Lc))) (begun (cpuState 2 : State) (fetchOf [0x44, 0x12, 0x02, 0x61] : Fetch))) 0)) (left
    (checkMem ((envOf (cpuState 2 : State) (17 : Lc) (decodedOf (fetchOf [0x44, 0x12, 0x02, 0x61] : Fetch))).at (formed
    (formOperands (envOf (cpuState 2 : State) (17 : Lc) (decodedOf (fetchOf [0x44, 0x12, 0x02, 0x61] : Fetch)))
    OpUse.plain (decodedOf (fetchOf [0x44, 0x12, 0x02, 0x61] : Fetch)).ops 0 ((cpuState 2 : State).pkg.core (17 : Lc)))
    (begun (cpuState 2 : State) (fetchOf [0x44, 0x12, 0x02, 0x61] : Fetch)) 1)) (memOf (formed (formOperands (envOf
    (cpuState 2 : State) (17 : Lc) (decodedOf (fetchOf [0x44, 0x12, 0x02, 0x61] : Fetch))) OpUse.plain (decodedOf (fetchOf
    [0x44, 0x12, 0x02, 0x61] : Fetch)).ops 0 ((cpuState 2 : State).pkg.core (17 : Lc))) (begun (cpuState 2 : State)
    (fetchOf [0x44, 0x12, 0x02, 0x61] : Fetch)) 1)) (yielded (readVal (envOf (cpuState 2 : State) (17 : Lc) (decodedOf
    (fetchOf [0x44, 0x12, 0x02, 0x61] : Fetch))) (formed (formOperands (envOf (cpuState 2 : State) (17 : Lc) (decodedOf
    (fetchOf [0x44, 0x12, 0x02, 0x61] : Fetch))) OpUse.plain (decodedOf (fetchOf [0x44, 0x12, 0x02, 0x61] : Fetch)).ops 0
    ((cpuState 2 : State).pkg.core (17 : Lc))) (begun (cpuState 2 : State) (fetchOf [0x44, 0x12, 0x02, 0x61] : Fetch)) 2))
    (left (formOperands (envOf (cpuState 2 : State) (17 : Lc) (decodedOf (fetchOf [0x44, 0x12, 0x02, 0x61] : Fetch)))
    OpUse.plain (decodedOf (fetchOf [0x44, 0x12, 0x02, 0x61] : Fetch)).ops 0 ((cpuState 2 : State).pkg.core (17 : Lc)))
    (begun (cpuState 2 : State) (fetchOf [0x44, 0x12, 0x02, 0x61] : Fetch))) 0) [0]) (left (checkMem ((envOf (cpuState 2 :
    State) (17 : Lc) (decodedOf (fetchOf [0x44, 0x12, 0x02, 0x61] : Fetch))).at (formed (formOperands (envOf (cpuState 2 :
    State) (17 : Lc) (decodedOf (fetchOf [0x44, 0x12, 0x02, 0x61] : Fetch))) OpUse.plain (decodedOf (fetchOf [0x44, 0x12,
    0x02, 0x61] : Fetch)).ops 0 ((cpuState 2 : State).pkg.core (17 : Lc))) (begun (cpuState 2 : State) (fetchOf [0x44,
    0x12, 0x02, 0x61] : Fetch)) 0)) (memOf (formed (formOperands (envOf (cpuState 2 : State) (17 : Lc) (decodedOf (fetchOf
    [0x44, 0x12, 0x02, 0x61] : Fetch))) OpUse.plain (decodedOf (fetchOf [0x44, 0x12, 0x02, 0x61] : Fetch)).ops 0
    ((cpuState 2 : State).pkg.core (17 : Lc))) (begun (cpuState 2 : State) (fetchOf [0x44, 0x12, 0x02, 0x61] : Fetch)) 0))
    (yielded (readVal (envOf (cpuState 2 : State) (17 : Lc) (decodedOf (fetchOf [0x44, 0x12, 0x02, 0x61] : Fetch)))
    (formed (formOperands (envOf (cpuState 2 : State) (17 : Lc) (decodedOf (fetchOf [0x44, 0x12, 0x02, 0x61] : Fetch)))
    OpUse.plain (decodedOf (fetchOf [0x44, 0x12, 0x02, 0x61] : Fetch)).ops 0 ((cpuState 2 : State).pkg.core (17 : Lc)))
    (begun (cpuState 2 : State) (fetchOf [0x44, 0x12, 0x02, 0x61] : Fetch)) 2)) (left (formOperands (envOf (cpuState 2 :
    State) (17 : Lc) (decodedOf (fetchOf [0x44, 0x12, 0x02, 0x61] : Fetch))) OpUse.plain (decodedOf (fetchOf [0x44, 0x12,
    0x02, 0x61] : Fetch)).ops 0 ((cpuState 2 : State).pkg.core (17 : Lc))) (begun (cpuState 2 : State) (fetchOf [0x44,
    0x12, 0x02, 0x61] : Fetch))) 0) [0]) (left (readVal (envOf (cpuState 2 : State) (17 : Lc) (decodedOf (fetchOf [0x44,
    0x12, 0x02, 0x61] : Fetch))) (formed (formOperands (envOf (cpuState 2 : State) (17 : Lc) (decodedOf (fetchOf [0x44,
    0x12, 0x02, 0x61] : Fetch))) OpUse.plain (decodedOf (fetchOf [0x44, 0x12, 0x02, 0x61] : Fetch)).ops 0 ((cpuState 2 :
    State).pkg.core (17 : Lc))) (begun (cpuState 2 : State) (fetchOf [0x44, 0x12, 0x02, 0x61] : Fetch)) 2)) (left
    (formOperands (envOf (cpuState 2 : State) (17 : Lc) (decodedOf (fetchOf [0x44, 0x12, 0x02, 0x61] : Fetch)))
    OpUse.plain (decodedOf (fetchOf [0x44, 0x12, 0x02, 0x61] : Fetch)).ops 0 ((cpuState 2 : State).pkg.core (17 : Lc)))
    (begun (cpuState 2 : State) (fetchOf [0x44, 0x12, 0x02, 0x61] : Fetch)))))) []).getD 0 0, (yielded (readMem ((envOf
    (cpuState 2 : State) (17 : Lc) (decodedOf (fetchOf [0x44, 0x12, 0x02, 0x61] : Fetch))).at (formed (formOperands (envOf
    (cpuState 2 : State) (17 : Lc) (decodedOf (fetchOf [0x44, 0x12, 0x02, 0x61] : Fetch))) OpUse.plain (decodedOf (fetchOf
    [0x44, 0x12, 0x02, 0x61] : Fetch)).ops 0 ((cpuState 2 : State).pkg.core (17 : Lc))) (begun (cpuState 2 : State)
    (fetchOf [0x44, 0x12, 0x02, 0x61] : Fetch)) 1)) (cpuState 2 : State).mode (memOf (formed (formOperands (envOf
    (cpuState 2 : State) (17 : Lc) (decodedOf (fetchOf [0x44, 0x12, 0x02, 0x61] : Fetch))) OpUse.plain (decodedOf (fetchOf
    [0x44, 0x12, 0x02, 0x61] : Fetch)).ops 0 ((cpuState 2 : State).pkg.core (17 : Lc))) (begun (cpuState 2 : State)
    (fetchOf [0x44, 0x12, 0x02, 0x61] : Fetch)) 1)) (yielded (readVal (envOf (cpuState 2 : State) (17 : Lc) (decodedOf
    (fetchOf [0x44, 0x12, 0x02, 0x61] : Fetch))) (formed (formOperands (envOf (cpuState 2 : State) (17 : Lc) (decodedOf
    (fetchOf [0x44, 0x12, 0x02, 0x61] : Fetch))) OpUse.plain (decodedOf (fetchOf [0x44, 0x12, 0x02, 0x61] : Fetch)).ops 0
    ((cpuState 2 : State).pkg.core (17 : Lc))) (begun (cpuState 2 : State) (fetchOf [0x44, 0x12, 0x02, 0x61] : Fetch)) 2))
    (left (formOperands (envOf (cpuState 2 : State) (17 : Lc) (decodedOf (fetchOf [0x44, 0x12, 0x02, 0x61] : Fetch)))
    OpUse.plain (decodedOf (fetchOf [0x44, 0x12, 0x02, 0x61] : Fetch)).ops 0 ((cpuState 2 : State).pkg.core (17 : Lc)))
    (begun (cpuState 2 : State) (fetchOf [0x44, 0x12, 0x02, 0x61] : Fetch))) 0)) (left (readMem ((envOf (cpuState 2 :
    State) (17 : Lc) (decodedOf (fetchOf [0x44, 0x12, 0x02, 0x61] : Fetch))).at (formed (formOperands (envOf (cpuState 2 :
    State) (17 : Lc) (decodedOf (fetchOf [0x44, 0x12, 0x02, 0x61] : Fetch))) OpUse.plain (decodedOf (fetchOf [0x44, 0x12,
    0x02, 0x61] : Fetch)).ops 0 ((cpuState 2 : State).pkg.core (17 : Lc))) (begun (cpuState 2 : State) (fetchOf [0x44,
    0x12, 0x02, 0x61] : Fetch)) 0)) (cpuState 2 : State).mode (memOf (formed (formOperands (envOf (cpuState 2 : State) (17
    : Lc) (decodedOf (fetchOf [0x44, 0x12, 0x02, 0x61] : Fetch))) OpUse.plain (decodedOf (fetchOf [0x44, 0x12, 0x02, 0x61]
    : Fetch)).ops 0 ((cpuState 2 : State).pkg.core (17 : Lc))) (begun (cpuState 2 : State) (fetchOf [0x44, 0x12, 0x02,
    0x61] : Fetch)) 0)) (yielded (readVal (envOf (cpuState 2 : State) (17 : Lc) (decodedOf (fetchOf [0x44, 0x12, 0x02,
    0x61] : Fetch))) (formed (formOperands (envOf (cpuState 2 : State) (17 : Lc) (decodedOf (fetchOf [0x44, 0x12, 0x02,
    0x61] : Fetch))) OpUse.plain (decodedOf (fetchOf [0x44, 0x12, 0x02, 0x61] : Fetch)).ops 0 ((cpuState 2 :
    State).pkg.core (17 : Lc))) (begun (cpuState 2 : State) (fetchOf [0x44, 0x12, 0x02, 0x61] : Fetch)) 2)) (left
    (formOperands (envOf (cpuState 2 : State) (17 : Lc) (decodedOf (fetchOf [0x44, 0x12, 0x02, 0x61] : Fetch)))
    OpUse.plain (decodedOf (fetchOf [0x44, 0x12, 0x02, 0x61] : Fetch)).ops 0 ((cpuState 2 : State).pkg.core (17 : Lc)))
    (begun (cpuState 2 : State) (fetchOf [0x44, 0x12, 0x02, 0x61] : Fetch))) 0)) (left (checkMem ((envOf (cpuState 2 :
    State) (17 : Lc) (decodedOf (fetchOf [0x44, 0x12, 0x02, 0x61] : Fetch))).at (formed (formOperands (envOf (cpuState 2 :
    State) (17 : Lc) (decodedOf (fetchOf [0x44, 0x12, 0x02, 0x61] : Fetch))) OpUse.plain (decodedOf (fetchOf [0x44, 0x12,
    0x02, 0x61] : Fetch)).ops 0 ((cpuState 2 : State).pkg.core (17 : Lc))) (begun (cpuState 2 : State) (fetchOf [0x44,
    0x12, 0x02, 0x61] : Fetch)) 1)) (memOf (formed (formOperands (envOf (cpuState 2 : State) (17 : Lc) (decodedOf (fetchOf
    [0x44, 0x12, 0x02, 0x61] : Fetch))) OpUse.plain (decodedOf (fetchOf [0x44, 0x12, 0x02, 0x61] : Fetch)).ops 0
    ((cpuState 2 : State).pkg.core (17 : Lc))) (begun (cpuState 2 : State) (fetchOf [0x44, 0x12, 0x02, 0x61] : Fetch)) 1))
    (yielded (readVal (envOf (cpuState 2 : State) (17 : Lc) (decodedOf (fetchOf [0x44, 0x12, 0x02, 0x61] : Fetch)))
    (formed (formOperands (envOf (cpuState 2 : State) (17 : Lc) (decodedOf (fetchOf [0x44, 0x12, 0x02, 0x61] : Fetch)))
    OpUse.plain (decodedOf (fetchOf [0x44, 0x12, 0x02, 0x61] : Fetch)).ops 0 ((cpuState 2 : State).pkg.core (17 : Lc)))
    (begun (cpuState 2 : State) (fetchOf [0x44, 0x12, 0x02, 0x61] : Fetch)) 2)) (left (formOperands (envOf (cpuState 2 :
    State) (17 : Lc) (decodedOf (fetchOf [0x44, 0x12, 0x02, 0x61] : Fetch))) OpUse.plain (decodedOf (fetchOf [0x44, 0x12,
    0x02, 0x61] : Fetch)).ops 0 ((cpuState 2 : State).pkg.core (17 : Lc))) (begun (cpuState 2 : State) (fetchOf [0x44,
    0x12, 0x02, 0x61] : Fetch))) 0) [0]) (left (checkMem ((envOf (cpuState 2 : State) (17 : Lc) (decodedOf (fetchOf [0x44,
    0x12, 0x02, 0x61] : Fetch))).at (formed (formOperands (envOf (cpuState 2 : State) (17 : Lc) (decodedOf (fetchOf [0x44,
    0x12, 0x02, 0x61] : Fetch))) OpUse.plain (decodedOf (fetchOf [0x44, 0x12, 0x02, 0x61] : Fetch)).ops 0 ((cpuState 2 :
    State).pkg.core (17 : Lc))) (begun (cpuState 2 : State) (fetchOf [0x44, 0x12, 0x02, 0x61] : Fetch)) 0)) (memOf (formed
    (formOperands (envOf (cpuState 2 : State) (17 : Lc) (decodedOf (fetchOf [0x44, 0x12, 0x02, 0x61] : Fetch)))
    OpUse.plain (decodedOf (fetchOf [0x44, 0x12, 0x02, 0x61] : Fetch)).ops 0 ((cpuState 2 : State).pkg.core (17 : Lc)))
    (begun (cpuState 2 : State) (fetchOf [0x44, 0x12, 0x02, 0x61] : Fetch)) 0)) (yielded (readVal (envOf (cpuState 2 :
    State) (17 : Lc) (decodedOf (fetchOf [0x44, 0x12, 0x02, 0x61] : Fetch))) (formed (formOperands (envOf (cpuState 2 :
    State) (17 : Lc) (decodedOf (fetchOf [0x44, 0x12, 0x02, 0x61] : Fetch))) OpUse.plain (decodedOf (fetchOf [0x44, 0x12,
    0x02, 0x61] : Fetch)).ops 0 ((cpuState 2 : State).pkg.core (17 : Lc))) (begun (cpuState 2 : State) (fetchOf [0x44,
    0x12, 0x02, 0x61] : Fetch)) 2)) (left (formOperands (envOf (cpuState 2 : State) (17 : Lc) (decodedOf (fetchOf [0x44,
    0x12, 0x02, 0x61] : Fetch))) OpUse.plain (decodedOf (fetchOf [0x44, 0x12, 0x02, 0x61] : Fetch)).ops 0 ((cpuState 2 :
    State).pkg.core (17 : Lc))) (begun (cpuState 2 : State) (fetchOf [0x44, 0x12, 0x02, 0x61] : Fetch))) 0) [0]) (left
    (readVal (envOf (cpuState 2 : State) (17 : Lc) (decodedOf (fetchOf [0x44, 0x12, 0x02, 0x61] : Fetch))) (formed
    (formOperands (envOf (cpuState 2 : State) (17 : Lc) (decodedOf (fetchOf [0x44, 0x12, 0x02, 0x61] : Fetch)))
    OpUse.plain (decodedOf (fetchOf [0x44, 0x12, 0x02, 0x61] : Fetch)).ops 0 ((cpuState 2 : State).pkg.core (17 : Lc)))
    (begun (cpuState 2 : State) (fetchOf [0x44, 0x12, 0x02, 0x61] : Fetch)) 2)) (left (formOperands (envOf (cpuState 2 :
    State) (17 : Lc) (decodedOf (fetchOf [0x44, 0x12, 0x02, 0x61] : Fetch))) OpUse.plain (decodedOf (fetchOf [0x44, 0x12,
    0x02, 0x61] : Fetch)).ops 0 ((cpuState 2 : State).pkg.core (17 : Lc))) (begun (cpuState 2 : State) (fetchOf [0x44,
    0x12, 0x02, 0x61] : Fetch))))))) []).getD 0 0, (yielded (readMem ((envOf (cpuState 2 : State) (17 : Lc) (decodedOf
    (fetchOf [0x44, 0x12, 0x02, 0x61] : Fetch))).at (formed (formOperands (envOf (cpuState 2 : State) (17 : Lc) (decodedOf
    (fetchOf [0x44, 0x12, 0x02, 0x61] : Fetch))) OpUse.plain (decodedOf (fetchOf [0x44, 0x12, 0x02, 0x61] : Fetch)).ops 0
    ((cpuState 2 : State).pkg.core (17 : Lc))) (begun (cpuState 2 : State) (fetchOf [0x44, 0x12, 0x02, 0x61] : Fetch)) 0))
    (cpuState 2 : State).mode (memOf (formed (formOperands (envOf (cpuState 2 : State) (17 : Lc) (decodedOf (fetchOf
    [0x44, 0x12, 0x02, 0x61] : Fetch))) OpUse.plain (decodedOf (fetchOf [0x44, 0x12, 0x02, 0x61] : Fetch)).ops 0
    ((cpuState 2 : State).pkg.core (17 : Lc))) (begun (cpuState 2 : State) (fetchOf [0x44, 0x12, 0x02, 0x61] : Fetch)) 0))
    (yielded (readVal (envOf (cpuState 2 : State) (17 : Lc) (decodedOf (fetchOf [0x44, 0x12, 0x02, 0x61] : Fetch)))
    (formed (formOperands (envOf (cpuState 2 : State) (17 : Lc) (decodedOf (fetchOf [0x44, 0x12, 0x02, 0x61] : Fetch)))
    OpUse.plain (decodedOf (fetchOf [0x44, 0x12, 0x02, 0x61] : Fetch)).ops 0 ((cpuState 2 : State).pkg.core (17 : Lc)))
    (begun (cpuState 2 : State) (fetchOf [0x44, 0x12, 0x02, 0x61] : Fetch)) 2)) (left (formOperands (envOf (cpuState 2 :
    State) (17 : Lc) (decodedOf (fetchOf [0x44, 0x12, 0x02, 0x61] : Fetch))) OpUse.plain (decodedOf (fetchOf [0x44, 0x12,
    0x02, 0x61] : Fetch)).ops 0 ((cpuState 2 : State).pkg.core (17 : Lc))) (begun (cpuState 2 : State) (fetchOf [0x44,
    0x12, 0x02, 0x61] : Fetch))) 0)) (left (checkMem ((envOf (cpuState 2 : State) (17 : Lc) (decodedOf (fetchOf [0x44,
    0x12, 0x02, 0x61] : Fetch))).at (formed (formOperands (envOf (cpuState 2 : State) (17 : Lc) (decodedOf (fetchOf [0x44,
    0x12, 0x02, 0x61] : Fetch))) OpUse.plain (decodedOf (fetchOf [0x44, 0x12, 0x02, 0x61] : Fetch)).ops 0 ((cpuState 2 :
    State).pkg.core (17 : Lc))) (begun (cpuState 2 : State) (fetchOf [0x44, 0x12, 0x02, 0x61] : Fetch)) 1)) (memOf (formed
    (formOperands (envOf (cpuState 2 : State) (17 : Lc) (decodedOf (fetchOf [0x44, 0x12, 0x02, 0x61] : Fetch)))
    OpUse.plain (decodedOf (fetchOf [0x44, 0x12, 0x02, 0x61] : Fetch)).ops 0 ((cpuState 2 : State).pkg.core (17 : Lc)))
    (begun (cpuState 2 : State) (fetchOf [0x44, 0x12, 0x02, 0x61] : Fetch)) 1)) (yielded (readVal (envOf (cpuState 2 :
    State) (17 : Lc) (decodedOf (fetchOf [0x44, 0x12, 0x02, 0x61] : Fetch))) (formed (formOperands (envOf (cpuState 2 :
    State) (17 : Lc) (decodedOf (fetchOf [0x44, 0x12, 0x02, 0x61] : Fetch))) OpUse.plain (decodedOf (fetchOf [0x44, 0x12,
    0x02, 0x61] : Fetch)).ops 0 ((cpuState 2 : State).pkg.core (17 : Lc))) (begun (cpuState 2 : State) (fetchOf [0x44,
    0x12, 0x02, 0x61] : Fetch)) 2)) (left (formOperands (envOf (cpuState 2 : State) (17 : Lc) (decodedOf (fetchOf [0x44,
    0x12, 0x02, 0x61] : Fetch))) OpUse.plain (decodedOf (fetchOf [0x44, 0x12, 0x02, 0x61] : Fetch)).ops 0 ((cpuState 2 :
    State).pkg.core (17 : Lc))) (begun (cpuState 2 : State) (fetchOf [0x44, 0x12, 0x02, 0x61] : Fetch))) 0) [0]) (left
    (checkMem ((envOf (cpuState 2 : State) (17 : Lc) (decodedOf (fetchOf [0x44, 0x12, 0x02, 0x61] : Fetch))).at (formed
    (formOperands (envOf (cpuState 2 : State) (17 : Lc) (decodedOf (fetchOf [0x44, 0x12, 0x02, 0x61] : Fetch)))
    OpUse.plain (decodedOf (fetchOf [0x44, 0x12, 0x02, 0x61] : Fetch)).ops 0 ((cpuState 2 : State).pkg.core (17 : Lc)))
    (begun (cpuState 2 : State) (fetchOf [0x44, 0x12, 0x02, 0x61] : Fetch)) 0)) (memOf (formed (formOperands (envOf
    (cpuState 2 : State) (17 : Lc) (decodedOf (fetchOf [0x44, 0x12, 0x02, 0x61] : Fetch))) OpUse.plain (decodedOf (fetchOf
    [0x44, 0x12, 0x02, 0x61] : Fetch)).ops 0 ((cpuState 2 : State).pkg.core (17 : Lc))) (begun (cpuState 2 : State)
    (fetchOf [0x44, 0x12, 0x02, 0x61] : Fetch)) 0)) (yielded (readVal (envOf (cpuState 2 : State) (17 : Lc) (decodedOf
    (fetchOf [0x44, 0x12, 0x02, 0x61] : Fetch))) (formed (formOperands (envOf (cpuState 2 : State) (17 : Lc) (decodedOf
    (fetchOf [0x44, 0x12, 0x02, 0x61] : Fetch))) OpUse.plain (decodedOf (fetchOf [0x44, 0x12, 0x02, 0x61] : Fetch)).ops 0
    ((cpuState 2 : State).pkg.core (17 : Lc))) (begun (cpuState 2 : State) (fetchOf [0x44, 0x12, 0x02, 0x61] : Fetch)) 2))
    (left (formOperands (envOf (cpuState 2 : State) (17 : Lc) (decodedOf (fetchOf [0x44, 0x12, 0x02, 0x61] : Fetch)))
    OpUse.plain (decodedOf (fetchOf [0x44, 0x12, 0x02, 0x61] : Fetch)).ops 0 ((cpuState 2 : State).pkg.core (17 : Lc)))
    (begun (cpuState 2 : State) (fetchOf [0x44, 0x12, 0x02, 0x61] : Fetch))) 0) [0]) (left (readVal (envOf (cpuState 2 :
    State) (17 : Lc) (decodedOf (fetchOf [0x44, 0x12, 0x02, 0x61] : Fetch))) (formed (formOperands (envOf (cpuState 2 :
    State) (17 : Lc) (decodedOf (fetchOf [0x44, 0x12, 0x02, 0x61] : Fetch))) OpUse.plain (decodedOf (fetchOf [0x44, 0x12,
    0x02, 0x61] : Fetch)).ops 0 ((cpuState 2 : State).pkg.core (17 : Lc))) (begun (cpuState 2 : State) (fetchOf [0x44,
    0x12, 0x02, 0x61] : Fetch)) 2)) (left (formOperands (envOf (cpuState 2 : State) (17 : Lc) (decodedOf (fetchOf [0x44,
    0x12, 0x02, 0x61] : Fetch))) OpUse.plain (decodedOf (fetchOf [0x44, 0x12, 0x02, 0x61] : Fetch)).ops 0 ((cpuState 2 :
    State).pkg.core (17 : Lc))) (begun (cpuState 2 : State) (fetchOf [0x44, 0x12, 0x02, 0x61] : Fetch)))))) []).drop 1,
    (yielded (readMem ((envOf (cpuState 2 : State) (17 : Lc) (decodedOf (fetchOf [0x44, 0x12, 0x02, 0x61] : Fetch))).at
    (formed (formOperands (envOf (cpuState 2 : State) (17 : Lc) (decodedOf (fetchOf [0x44, 0x12, 0x02, 0x61] : Fetch)))
    OpUse.plain (decodedOf (fetchOf [0x44, 0x12, 0x02, 0x61] : Fetch)).ops 0 ((cpuState 2 : State).pkg.core (17 : Lc)))
    (begun (cpuState 2 : State) (fetchOf [0x44, 0x12, 0x02, 0x61] : Fetch)) 1)) (cpuState 2 : State).mode (memOf (formed
    (formOperands (envOf (cpuState 2 : State) (17 : Lc) (decodedOf (fetchOf [0x44, 0x12, 0x02, 0x61] : Fetch)))
    OpUse.plain (decodedOf (fetchOf [0x44, 0x12, 0x02, 0x61] : Fetch)).ops 0 ((cpuState 2 : State).pkg.core (17 : Lc)))
    (begun (cpuState 2 : State) (fetchOf [0x44, 0x12, 0x02, 0x61] : Fetch)) 1)) (yielded (readVal (envOf (cpuState 2 :
    State) (17 : Lc) (decodedOf (fetchOf [0x44, 0x12, 0x02, 0x61] : Fetch))) (formed (formOperands (envOf (cpuState 2 :
    State) (17 : Lc) (decodedOf (fetchOf [0x44, 0x12, 0x02, 0x61] : Fetch))) OpUse.plain (decodedOf (fetchOf [0x44, 0x12,
    0x02, 0x61] : Fetch)).ops 0 ((cpuState 2 : State).pkg.core (17 : Lc))) (begun (cpuState 2 : State) (fetchOf [0x44,
    0x12, 0x02, 0x61] : Fetch)) 2)) (left (formOperands (envOf (cpuState 2 : State) (17 : Lc) (decodedOf (fetchOf [0x44,
    0x12, 0x02, 0x61] : Fetch))) OpUse.plain (decodedOf (fetchOf [0x44, 0x12, 0x02, 0x61] : Fetch)).ops 0 ((cpuState 2 :
    State).pkg.core (17 : Lc))) (begun (cpuState 2 : State) (fetchOf [0x44, 0x12, 0x02, 0x61] : Fetch))) 0)) (left
    (readMem ((envOf (cpuState 2 : State) (17 : Lc) (decodedOf (fetchOf [0x44, 0x12, 0x02, 0x61] : Fetch))).at (formed
    (formOperands (envOf (cpuState 2 : State) (17 : Lc) (decodedOf (fetchOf [0x44, 0x12, 0x02, 0x61] : Fetch)))
    OpUse.plain (decodedOf (fetchOf [0x44, 0x12, 0x02, 0x61] : Fetch)).ops 0 ((cpuState 2 : State).pkg.core (17 : Lc)))
    (begun (cpuState 2 : State) (fetchOf [0x44, 0x12, 0x02, 0x61] : Fetch)) 0)) (cpuState 2 : State).mode (memOf (formed
    (formOperands (envOf (cpuState 2 : State) (17 : Lc) (decodedOf (fetchOf [0x44, 0x12, 0x02, 0x61] : Fetch)))
    OpUse.plain (decodedOf (fetchOf [0x44, 0x12, 0x02, 0x61] : Fetch)).ops 0 ((cpuState 2 : State).pkg.core (17 : Lc)))
    (begun (cpuState 2 : State) (fetchOf [0x44, 0x12, 0x02, 0x61] : Fetch)) 0)) (yielded (readVal (envOf (cpuState 2 :
    State) (17 : Lc) (decodedOf (fetchOf [0x44, 0x12, 0x02, 0x61] : Fetch))) (formed (formOperands (envOf (cpuState 2 :
    State) (17 : Lc) (decodedOf (fetchOf [0x44, 0x12, 0x02, 0x61] : Fetch))) OpUse.plain (decodedOf (fetchOf [0x44, 0x12,
    0x02, 0x61] : Fetch)).ops 0 ((cpuState 2 : State).pkg.core (17 : Lc))) (begun (cpuState 2 : State) (fetchOf [0x44,
    0x12, 0x02, 0x61] : Fetch)) 2)) (left (formOperands (envOf (cpuState 2 : State) (17 : Lc) (decodedOf (fetchOf [0x44,
    0x12, 0x02, 0x61] : Fetch))) OpUse.plain (decodedOf (fetchOf [0x44, 0x12, 0x02, 0x61] : Fetch)).ops 0 ((cpuState 2 :
    State).pkg.core (17 : Lc))) (begun (cpuState 2 : State) (fetchOf [0x44, 0x12, 0x02, 0x61] : Fetch))) 0)) (left
    (checkMem ((envOf (cpuState 2 : State) (17 : Lc) (decodedOf (fetchOf [0x44, 0x12, 0x02, 0x61] : Fetch))).at (formed
    (formOperands (envOf (cpuState 2 : State) (17 : Lc) (decodedOf (fetchOf [0x44, 0x12, 0x02, 0x61] : Fetch)))
    OpUse.plain (decodedOf (fetchOf [0x44, 0x12, 0x02, 0x61] : Fetch)).ops 0 ((cpuState 2 : State).pkg.core (17 : Lc)))
    (begun (cpuState 2 : State) (fetchOf [0x44, 0x12, 0x02, 0x61] : Fetch)) 1)) (memOf (formed (formOperands (envOf
    (cpuState 2 : State) (17 : Lc) (decodedOf (fetchOf [0x44, 0x12, 0x02, 0x61] : Fetch))) OpUse.plain (decodedOf (fetchOf
    [0x44, 0x12, 0x02, 0x61] : Fetch)).ops 0 ((cpuState 2 : State).pkg.core (17 : Lc))) (begun (cpuState 2 : State)
    (fetchOf [0x44, 0x12, 0x02, 0x61] : Fetch)) 1)) (yielded (readVal (envOf (cpuState 2 : State) (17 : Lc) (decodedOf
    (fetchOf [0x44, 0x12, 0x02, 0x61] : Fetch))) (formed (formOperands (envOf (cpuState 2 : State) (17 : Lc) (decodedOf
    (fetchOf [0x44, 0x12, 0x02, 0x61] : Fetch))) OpUse.plain (decodedOf (fetchOf [0x44, 0x12, 0x02, 0x61] : Fetch)).ops 0
    ((cpuState 2 : State).pkg.core (17 : Lc))) (begun (cpuState 2 : State) (fetchOf [0x44, 0x12, 0x02, 0x61] : Fetch)) 2))
    (left (formOperands (envOf (cpuState 2 : State) (17 : Lc) (decodedOf (fetchOf [0x44, 0x12, 0x02, 0x61] : Fetch)))
    OpUse.plain (decodedOf (fetchOf [0x44, 0x12, 0x02, 0x61] : Fetch)).ops 0 ((cpuState 2 : State).pkg.core (17 : Lc)))
    (begun (cpuState 2 : State) (fetchOf [0x44, 0x12, 0x02, 0x61] : Fetch))) 0) [0]) (left (checkMem ((envOf (cpuState 2 :
    State) (17 : Lc) (decodedOf (fetchOf [0x44, 0x12, 0x02, 0x61] : Fetch))).at (formed (formOperands (envOf (cpuState 2 :
    State) (17 : Lc) (decodedOf (fetchOf [0x44, 0x12, 0x02, 0x61] : Fetch))) OpUse.plain (decodedOf (fetchOf [0x44, 0x12,
    0x02, 0x61] : Fetch)).ops 0 ((cpuState 2 : State).pkg.core (17 : Lc))) (begun (cpuState 2 : State) (fetchOf [0x44,
    0x12, 0x02, 0x61] : Fetch)) 0)) (memOf (formed (formOperands (envOf (cpuState 2 : State) (17 : Lc) (decodedOf (fetchOf
    [0x44, 0x12, 0x02, 0x61] : Fetch))) OpUse.plain (decodedOf (fetchOf [0x44, 0x12, 0x02, 0x61] : Fetch)).ops 0
    ((cpuState 2 : State).pkg.core (17 : Lc))) (begun (cpuState 2 : State) (fetchOf [0x44, 0x12, 0x02, 0x61] : Fetch)) 0))
    (yielded (readVal (envOf (cpuState 2 : State) (17 : Lc) (decodedOf (fetchOf [0x44, 0x12, 0x02, 0x61] : Fetch)))
    (formed (formOperands (envOf (cpuState 2 : State) (17 : Lc) (decodedOf (fetchOf [0x44, 0x12, 0x02, 0x61] : Fetch)))
    OpUse.plain (decodedOf (fetchOf [0x44, 0x12, 0x02, 0x61] : Fetch)).ops 0 ((cpuState 2 : State).pkg.core (17 : Lc)))
    (begun (cpuState 2 : State) (fetchOf [0x44, 0x12, 0x02, 0x61] : Fetch)) 2)) (left (formOperands (envOf (cpuState 2 :
    State) (17 : Lc) (decodedOf (fetchOf [0x44, 0x12, 0x02, 0x61] : Fetch))) OpUse.plain (decodedOf (fetchOf [0x44, 0x12,
    0x02, 0x61] : Fetch)).ops 0 ((cpuState 2 : State).pkg.core (17 : Lc))) (begun (cpuState 2 : State) (fetchOf [0x44,
    0x12, 0x02, 0x61] : Fetch))) 0) [0]) (left (readVal (envOf (cpuState 2 : State) (17 : Lc) (decodedOf (fetchOf [0x44,
    0x12, 0x02, 0x61] : Fetch))) (formed (formOperands (envOf (cpuState 2 : State) (17 : Lc) (decodedOf (fetchOf [0x44,
    0x12, 0x02, 0x61] : Fetch))) OpUse.plain (decodedOf (fetchOf [0x44, 0x12, 0x02, 0x61] : Fetch)).ops 0 ((cpuState 2 :
    State).pkg.core (17 : Lc))) (begun (cpuState 2 : State) (fetchOf [0x44, 0x12, 0x02, 0x61] : Fetch)) 2)) (left
    (formOperands (envOf (cpuState 2 : State) (17 : Lc) (decodedOf (fetchOf [0x44, 0x12, 0x02, 0x61] : Fetch)))
    OpUse.plain (decodedOf (fetchOf [0x44, 0x12, 0x02, 0x61] : Fetch)).ops 0 ((cpuState 2 : State).pkg.core (17 : Lc)))
    (begun (cpuState 2 : State) (fetchOf [0x44, 0x12, 0x02, 0x61] : Fetch))))))) []).drop 1, begins (by decide +kernel),
    by decide +kernel, yields_three (by decide +kernel), in_mem (by decide +kernel), in_mem (by decide +kernel), yields 0
    (by decide +kernel), by decide +kernel, yields false (by decide +kernel), yields false (by decide +kernel), yields []
    (by decide +kernel), yields [] (by decide +kernel), by decide +kernel, by decide +kernel, by decide +kernel⟩

theorem witness_FieldInstructions_6_1 : ∃ (s : State) (lc : Lc) (f : Fetch) (d : Decoded) (q : Pkg) (a b w : Rand) (c :
    Core) (q1 : Pkg) (r : Option (List Byte × Nat)) (q2 : Pkg) (ba : List Byte) (q3 : Pkg) (pat : List Byte) (digs : Nat)
    (ds : List Nat) (sg : Bool) (q4 : Pkg) (st : EditSt) (q5 : Pkg) (i k : Nat) (x : EditSt), Begins s lc f d q ∧ d.op =
    0x39 ∧ Yields (formOperands (envOf s lc d) OpUse.plain d.ops 0 (s.pkg.core lc)) q ([a, b, w], c) q1 ∧ Yields
    (readPattern (envOf s lc d) ((envOf s lc d).at b) (b.va.headD 0) 4096 0 [] 0) q1 r q2 ∧ Yields (readBytes (envOf s lc
    d) a) q2 ba q3 ∧ r = some (pat, digs) ∧ digs = 2 * a.spec.size - 1 ∧ decParts ba = some (ds, sg) ∧ Yields (editSkip
    (editByte (envOf s lc d) b) ds (sg && digitsVal ds != 0) (startOffset (s.pkg.core lc)) EditSt.start) q3 st q4 ∧ Yields
    (byteLoop (envOf s lc d) (s.pkg.core lc) (editStep (envOf s lc d) a b w) (4096 * 32) f.stop (startOffset (s.pkg.core
    lc)) 0 st) q4 (i, k, x, .finished) q5 :=
  ⟨cpuState 2, 17, fetchOf [0x39, 0x12, 3, 0x82, 0x52], _, _, _, _, _, _, _, _, _, _, _, _, _, _, _, _, _, _, _, _, _,
    begins (by decide +kernel), by decide +kernel, yields_three (by decide +kernel), yields none (by decide +kernel),
    yields [] (by decide +kernel), some_pair_getD ([], 0) (by decide +kernel), by decide +kernel, some_pair_getD ([],
    false) (by decide +kernel), yields EditSt.start (by decide +kernel), yields_loop EditSt.start (by decide +kernel)⟩

theorem witness_FieldInstructions_6_2 : ∃ (s : State) (lc : Lc) (f : Fetch) (d : Decoded) (q : Pkg) (a b w : Rand) (c :
    Core) (q1 : Pkg) (r : Option (List Byte × Nat)) (q2 : Pkg) (ba : List Byte) (q3 : Pkg), Begins s lc f d q ∧ d.op =
    0x39 ∧ Yields (formOperands (envOf s lc d) OpUse.plain d.ops 0 (s.pkg.core lc)) q ([a, b, w], c) q1 ∧ Yields
    (readPattern (envOf s lc d) ((envOf s lc d).at b) (b.va.headD 0) 4096 0 [] 0) q1 r q2 ∧ Yields (readBytes (envOf s lc
    d) a) q2 ba q3 ∧ (r = none ∨ (∃ pat digs, r = some (pat, digs) ∧ digs ≠ 2 * a.spec.size - 1)) :=
  ⟨cpuState 2, 17, fetchOf [0x39, 0x12, 2, 0x82, 0x52], _, _, _, _, _, _, _, _, _, _, _, begins (by decide +kernel),
    by decide +kernel, yields_three (by decide +kernel), yields none (by decide +kernel), yields [] (by decide +kernel),
    pattern_bad (by decide +kernel)⟩

theorem witness_FieldInstructions_6_3 : ∃ (s : State) (lc : Lc) (f : Fetch) (d : Decoded) (q : Pkg) (a b w : Rand) (c :
    Core) (q1 : Pkg) (r : Option (List Byte × Nat)) (q2 : Pkg) (ba : List Byte) (q3 : Pkg) (pat : List Byte), Begins s lc
    f d q ∧ d.op = 0x39 ∧ Yields (formOperands (envOf s lc d) OpUse.plain d.ops 0 (s.pkg.core lc)) q ([a, b, w], c) q1 ∧
    Yields (readPattern (envOf s lc d) ((envOf s lc d).at b) (b.va.headD 0) 4096 0 [] 0) q1 r q2 ∧ Yields (readBytes
    (envOf s lc d) a) q2 ba q3 ∧ r = some (pat, 2 * a.spec.size - 1) ∧ decParts ba = none :=
  ⟨cpuState 2, 17, fetchOf [0x39, 0x42, 3, 0x82, 0x52], _, _, _, _, _, _, _, _, _, _, _, _, begins (by decide +kernel),
    by decide +kernel, yields_three (by decide +kernel), yields none (by decide +kernel), yields [] (by decide +kernel),
    some_pair_val (x := []) (by decide +kernel), by decide +kernel⟩

theorem witness_FieldInstructions_7 : ∃ (e : Nat × CpuRow × (Env → Rand → Rand → Nat → ByteStep Bool) × Nat) (s : State)
    (lc : Lc) (f : Fetch) (d : Decoded) (q : Pkg) (a b l : Rand) (c : Core) (q1 : Pkg) (n : Nat) (q2 : Pkg) (i k : Nat) (x
    keep : Bool) (q3 : Pkg), e ∈ fieldLoopRows ∧ Begins s lc f d q ∧ d.op = e.1 ∧ Yields (formOperands (envOf s lc d)
    OpUse.plain d.ops 0 (s.pkg.core lc)) q ([a, b, l], c) q1 ∧ Yields (readVal (envOf s lc d) l) q1 n q2 ∧ n ≤ 4096 ∧
    Yields (byteLoop (envOf s lc d) (s.pkg.core lc) (e.2.2.1 (envOf s lc d) a b n) (n + e.2.2.2 - startOffset (s.pkg.core
    lc)) f.stop (startOffset (s.pkg.core lc)) 0 false) q2 (i, k, x, .stopped keep) q3 ∧ k ≠ 0 :=
  ⟨(fieldLoopRows)[0]'(by decide), cpuState 2, 17, fetchOf [0x40, 0x12, 0x02, 0x61] (some 3), _, _, _, _, _, _, _, _, _,
    _, _, _, _, _, List.getElem_mem _, begins (by decide +kernel), by decide +kernel, yields_three (by decide +kernel),
    yields 0 (by decide +kernel), by decide +kernel, yields_stop (by decide +kernel), by decide +kernel⟩

theorem witness_FieldInstructions_8 : ∃ (s : State) (lc : Lc) (f : Fetch) (d : Decoded) (q : Pkg) (a b l : Rand) (c :
    Core) (q1 : Pkg) (n : Nat) (q2 : Pkg) (v : List Byte) (q3 : Pkg), Begins s lc f d q ∧ d.op = 0x43 ∧ Yields
    (formOperands (envOf s lc d) OpUse.plain d.ops 0 (s.pkg.core lc)) q ([a, b, l], c) q1 ∧ Yields (readVal (envOf s lc d)
    l) q1 n q2 ∧ 4096 < n ∧ Yields (readBytes (envOf s lc d) b) q2 v q3 :=
  ⟨onPkg (cpuState 2) (fun p => p.setCore 17 ((p.core 17).gSet 6 (4097))), 17, fetchOf [0x43, 0x12, 0x02, 0x61], _, _, _,
    _, _, _, _, _, _, _, _, begins (by decide +kernel), by decide +kernel, yields_three (by decide +kernel), yields 0
    (by decide +kernel), by decide +kernel, yields [] (by decide +kernel)⟩

theorem witness_FieldInstructions_9 : ∃ (e : Nat × CpuRow) (s : State) (lc : Lc) (f : Fetch) (d : Decoded) (q : Pkg) (a b
    l : Rand) (c : Core) (q1 : Pkg) (n : Nat) (q2 : Pkg), e ∈ ([(0x40, .fscan), (0x41, .fxlat), (0x42, .fmove), (0x44,
    .fcmp)] : List (Nat × CpuRow)) ∧ Begins s lc f d q ∧ d.op = e.1 ∧ Yields (formOperands (envOf s lc d) OpUse.plain
    d.ops 0 (s.pkg.core lc)) q ([a, b, l], c) q1 ∧ Yields (readVal (envOf s lc d) l) q1 n q2 ∧ 4096 < n :=
  ⟨(([(0x40, .fscan), (0x41, .fxlat), (0x42, .fmove), (0x44, .fcmp)] : List (Nat × CpuRow)))[0]'(by decide), onPkg
    (cpuState 2) (fun p => p.setCore 17 ((p.core 17).gSet 6 (4097))), 17, fetchOf [0x40, 0x12, 0x02, 0x61], _, _, _, _, _,
    _, _, _, _, List.getElem_mem _, begins (by decide +kernel), by decide +kernel, yields_three (by decide +kernel),
    yields 0 (by decide +kernel), by decide +kernel⟩

theorem witness_MacAndFloatInstructions_1 : ∃ (e : Nat × CpuRow × (Nat → List Byte → List Byte → Nat × Sticky)) (s :
    State) (lc : Lc) (f : Fetch) (d : Decoded) (q : Pkg) (a b m : Rand) (c : Core) (q1 : Pkg) (x : List Byte) (q2 : Pkg)
    (y : List Byte) (q3 : Pkg) (r : Nat × Sticky), e ∈ macRows ∧ Begins s lc f d q ∧ d.op = e.1 ∧ d.rep = false ∧ Yields
    (formOperands (envOf s lc d) OpUse.plain d.ops 0 (s.pkg.core lc)) q ([a, b, m], c) q1 ∧ Yields (readBytes (envOf s lc
    d) a) q1 x q2 ∧ Yields (readBytes (envOf s lc d) b) q2 y q3 ∧ r = e.2.2 (c.maGet m.spec.reg) x y :=
  ⟨(macRows)[0]'(by decide), cpuState 2, 17, fetchOf [0x50, 0x12, 0x02, 0x31], _, _, _, _, _, _, _, _, _, _, _, _,
    List.getElem_mem _, begins (by decide +kernel), by decide +kernel, by decide +kernel, yields_three
    (by decide +kernel), yields [] (by decide +kernel), yields [] (by decide +kernel), rfl⟩

theorem witness_MacAndFloatInstructions_2 : ∃ (s : State) (lc : Lc) (f : Fetch) (d : Decoded) (q : Pkg) (m : Rand) (c :
    Core) (q1 : Pkg), Begins s lc f d q ∧ d.op = 0x54 ∧ Yields (formOperands (envOf s lc d) OpUse.plain d.ops 0
    (s.pkg.core lc)) q ([m], c) q1 :=
  ⟨cpuState 2, 17, fetchOf [0x54, 0x31], _, _, _, _, _, begins (by decide +kernel), by decide +kernel, yields_one
    (by decide +kernel)⟩

theorem witness_MacAndFloatInstructions_3 : ∃ (s : State) (lc : Lc) (f : Fetch) (d : Decoded) (q : Pkg) (m a : Rand) (va :
    Nat) (c : Core) (q1 : Pkg) (dev : Bool) (q2 : Pkg) (ts : List (Nat × Nat × Nat)) (q3 : Pkg) (c' : Core) (q4 : Pkg),
    Begins s lc f d q ∧ d.op = 0x55 ∧ Yields (formOperands (envOf s lc d) OpUse.plain d.ops 0 (s.pkg.core lc)) q ([m, a],
    c) q1 ∧ a.loc = .mem va ∧ Yields (checkMem ((envOf s lc d).at a) va 16 [1]) q1 dev q2 ∧ Yields (openMem ((envOf s lc
    d).at a) va 16) q2 ts q3 ∧ Yields (commitDests s.mode [.mem ((envOf s lc d).at a) ts (leBytes 16 (c.maGet
    m.spec.reg))] c) q3 c' q4 :=
  ⟨cpuState 2, 17, fetchOf [0x55, 0x31, 0x52], _, _, _, _, _, _, _, _, _, _, _, _, _, begins (by decide +kernel),
    by decide +kernel, yields_two (by decide +kernel), in_mem (by decide +kernel), yields false (by decide +kernel),
    yields [] (by decide +kernel), yields Core.reset (by decide +kernel)⟩

theorem witness_MacAndFloatInstructions_4 : ∃ (s : State) (lc : Lc) (f : Fetch) (d : Decoded) (q : Pkg) (m a : Rand) (va :
    Nat) (c : Core) (q1 : Pkg) (dev : Bool) (q2 : Pkg) (b : List Byte) (q3 : Pkg), Begins s lc f d q ∧ d.op = 0x56 ∧
    Yields (formOperands (envOf s lc d) OpUse.plain d.ops 0 (s.pkg.core lc)) q ([a, m], c) q1 ∧ a.loc = .mem va ∧ Yields
    (checkMem ((envOf s lc d).at a) va 16 [0]) q1 dev q2 ∧ Yields (readMem ((envOf s lc d).at a) s.mode va 16) q2 b q3 :=
  ⟨cpuState 2, 17, fetchOf [0x56, 0x02, 0x31], _, _, _, _, _, _, _, _, _, _, _, begins (by decide +kernel),
    by decide +kernel, yields_two (by decide +kernel), in_mem (by decide +kernel), yields false (by decide +kernel),
    yields [] (by decide +kernel)⟩

theorem witness_MacAndFloatInstructions_6 : ∃ (e : Nat × CpuRow × (Nat → Nat → FpRes)) (s : State) (lc : Lc) (f : Fetch)
    (d : Decoded) (q : Pkg) (a b w : Rand) (c : Core) (q1 : Pkg) (x : Nat) (q2 : Pkg) (y : Nat) (q3 : Pkg) (c' : Core) (q4
    : Pkg), e ∈ float3Rows ∧ Begins s lc f d q ∧ d.op = e.1 ∧ Yields (formOperands (envOf s lc d) (fpUse 2) d.ops 0
    (s.pkg.core lc)) q ([a, b, w], c) q1 ∧ Yields (readVal (envOf s lc d) a) q1 x q2 ∧ Yields (readVal (envOf s lc d) b)
    q2 y q3 ∧ Yields (writeVal (envOf s lc d) w (e.2.2 x y).bits c) q3 c' q4 :=
  ⟨(float3Rows)[0]'(by decide), cpuState 2, 17, fetchOf [0x58, 0x02, 0x12, 0x31], _, _, _, _, _, _, _, _, _, _, _, _, _,
    List.getElem_mem _, begins (by decide +kernel), by decide +kernel, yields_three (by decide +kernel), yields 0
    (by decide +kernel), yields 0 (by decide +kernel), yields Core.reset (by decide +kernel)⟩

theorem witness_MacAndFloatInstructions_7 : ∃ (e : Nat × CpuRow × Bool × (Nat → FpRes)) (s : State) (lc : Lc) (f : Fetch)
    (d : Decoded) (q : Pkg) (a w : Rand) (c : Core) (q1 : Pkg) (x : Nat) (q2 : Pkg) (c' : Core) (q3 : Pkg), e ∈ float2Rows
    ∧ Begins s lc f d q ∧ d.op = e.1 ∧ Yields (formOperands (envOf s lc d) (fpUse e.2.2.1.toNat) d.ops 0 (s.pkg.core lc))
    q ([a, w], c) q1 ∧ Yields (readVal (envOf s lc d) a) q1 x q2 ∧ Yields (writeVal (envOf s lc d) w (e.2.2.2 x).bits c)
    q2 c' q3 :=
  ⟨(float2Rows)[0]'(by decide), cpuState 2, 17, fetchOf [0x5D, 0x02, 0x31], _, _, _, _, _, _, _, _, _, _, List.getElem_mem
    _, begins (by decide +kernel), by decide +kernel, yields_two (by decide +kernel), yields 0 (by decide +kernel), yields
    Core.reset (by decide +kernel)⟩

theorem witness_MacAndFloatInstructions_8 : ∃ (e : Nat × CpuRow × Fmt) (s : State) (lc : Lc) (f : Fetch) (d : Decoded) (q
    : Pkg) (a b : Rand) (c : Core) (q1 : Pkg) (x : Nat) (q2 : Pkg) (y : Nat) (q3 : Pkg), e ∈ floatCmpRows ∧ Begins s lc f
    d q ∧ d.op = e.1 ∧ Yields (formOperands (envOf s lc d) (fpUse 2) d.ops 0 (s.pkg.core lc)) q ([a, b], c) q1 ∧ Yields
    (readVal (envOf s lc d) a) q1 x q2 ∧ Yields (readVal (envOf s lc d) b) q2 y q3 :=
  ⟨(floatCmpRows)[0]'(by decide), cpuState 2, 17, fetchOf [0x5C, 0x02, 0x12], _, _, _, _, _, _, _, _, _, _,
    List.getElem_mem _, begins (by decide +kernel), by decide +kernel, yields_two (by decide +kernel), yields 0
    (by decide +kernel), yields 0 (by decide +kernel)⟩

theorem witness_ControlFlow_1_1 : ∃ (s : State) (lc : Lc) (f : Fetch) (d : Decoded) (q : Pkg) (a : Rand) (va : Nat) (c :
    Core) (q1 : Pkg), Begins s lc f d q ∧ d.op = 0x80 ∧ Yields (formOperands (envOf s lc d) OpUse.plain d.ops 0
    (s.pkg.core lc)) q ([a], c) q1 ∧ a.loc = .mem va ∧ canonical va = true :=
  ⟨cpuState 2, 17, fetchOf [0x80, 0x02], _, _, _, _, _, _, begins (by decide +kernel), by decide +kernel, yields_one
    (by decide +kernel), in_mem (by decide +kernel), by decide +kernel⟩

theorem witness_ControlFlow_1_2 : ∃ (s : State) (lc : Lc) (f : Fetch) (d : Decoded) (q : Pkg) (a : Rand) (va : Nat) (c :
    Core) (q1 : Pkg), Begins s lc f d q ∧ d.op = 0x80 ∧ Yields (formOperands (envOf s lc d) OpUse.plain d.ops 0
    (s.pkg.core lc)) q ([a], c) q1 ∧ a.loc = .mem va ∧ canonical va = false :=
  ⟨onPkg (cpuState 2) (fun p => p.setCore 17 ((p.core 17).gSet 0 (140737488355328))), 17, fetchOf [0x80, 0x02], _, _, _,
    _, _, _, begins (by decide +kernel), by decide +kernel, yields_one (by decide +kernel), in_mem (by decide +kernel),
    by decide +kernel⟩

theorem witness_ControlFlow_2_1 : ∃ (s : State) (lc : Lc) (f : Fetch) (d : Decoded) (q : Pkg) (sa sb : Spec) (a : Rand)
    (va : Nat) (c : Core) (q1 : Pkg) (b : Rand) (c1 : Core) (q2 : Pkg) (c' : Core) (q3 : Pkg), Begins s lc f d q ∧ d.op =
    0x81 ∧ d.ops = [sa, sb] ∧ Yields (formOperand (envOf s lc d) (s.pkg.core lc) sa 0 false false false) q (a, c) q1 ∧
    a.loc = .mem va ∧ canonical va = true ∧ Yields (formOperand (envOf s lc d) c sb 1 false false false) q1 (b, c1) q2 ∧
    Yields (writeVal (envOf s lc d) b (envOf s lc d).next.toNat c1) q2 c' q3 :=
  ⟨cpuState 2, 17, fetchOf [0x81, 0x02, 0x31], _, _, _, _, _, _, _, _, _, _, _, _, _, begins (by decide +kernel),
    by decide +kernel, list_two noSpec (by decide +kernel), yields (noRand, Core.reset) (by decide +kernel), in_mem
    (by decide +kernel), by decide +kernel, yields (noRand, Core.reset) (by decide +kernel), yields Core.reset
    (by decide +kernel)⟩

theorem witness_ControlFlow_2_2 : ∃ (s : State) (lc : Lc) (f : Fetch) (d : Decoded) (q : Pkg) (sa sb : Spec) (a : Rand)
    (va : Nat) (c : Core) (q1 : Pkg), Begins s lc f d q ∧ d.op = 0x81 ∧ d.ops = [sa, sb] ∧ Yields (formOperand (envOf s lc
    d) (s.pkg.core lc) sa 0 false false false) q (a, c) q1 ∧ a.loc = .mem va ∧ canonical va = false :=
  ⟨onPkg (cpuState 2) (fun p => p.setCore 17 ((p.core 17).gSet 0 (140737488355328))), 17, fetchOf [0x81, 0x02, 0x31], _,
    _, _, _, _, _, _, _, begins (by decide +kernel), by decide +kernel, list_two noSpec (by decide +kernel), yields
    (noRand, Core.reset) (by decide +kernel), in_mem (by decide +kernel), by decide +kernel⟩

theorem witness_ControlFlow_3_1 : ∃ (s : State) (lc : Lc) (f : Fetch) (d : Decoded) (q : Pkg) (a : Rand) (va : Nat) (c :
    Core) (q1 : Pkg), Begins s lc f d q ∧ 0x90 ≤ d.op ∧ d.op ≤ 0x9F ∧ Yields (formOperands (envOf s lc d) OpUse.plain
    d.ops 0 (s.pkg.core lc)) q ([a], c) q1 ∧ a.loc = .mem va ∧ condHolds c.psw (d.op % 16) = true ∧ canonical va = true :=
  ⟨cpuState 2, 17, fetchOf [0x9F, 0x02], _, _, _, _, _, _, begins (by decide +kernel), by decide +kernel,
    by decide +kernel, yields_one (by decide +kernel), in_mem (by decide +kernel), by decide +kernel, by decide +kernel⟩

theorem witness_ControlFlow_3_2 : ∃ (s : State) (lc : Lc) (f : Fetch) (d : Decoded) (q : Pkg) (a : Rand) (va : Nat) (c :
    Core) (q1 : Pkg), Begins s lc f d q ∧ 0x90 ≤ d.op ∧ d.op ≤ 0x9F ∧ Yields (formOperands (envOf s lc d) OpUse.plain
    d.ops 0 (s.pkg.core lc)) q ([a], c) q1 ∧ a.loc = .mem va ∧ condHolds c.psw (d.op % 16) = true ∧ canonical va = false
    :=
  ⟨onPkg (cpuState 2) (fun p => p.setCore 17 ((p.core 17).gSet 0 (140737488355328))), 17, fetchOf [0x91, 0x02], _, _, _,
    _, _, _, begins (by decide +kernel), by decide +kernel, by decide +kernel, yields_one (by decide +kernel), in_mem
    (by decide +kernel), by decide +kernel, by decide +kernel⟩

theorem witness_ControlFlow_3_3 : ∃ (s : State) (lc : Lc) (f : Fetch) (d : Decoded) (q : Pkg) (a : Rand) (va : Nat) (c :
    Core) (q1 : Pkg), Begins s lc f d q ∧ 0x90 ≤ d.op ∧ d.op ≤ 0x9F ∧ Yields (formOperands (envOf s lc d) OpUse.plain
    d.ops 0 (s.pkg.core lc)) q ([a], c) q1 ∧ a.loc = .mem va ∧ condHolds c.psw (d.op % 16) = false :=
  ⟨cpuState 2, 17, fetchOf [0x90, 0x02], _, _, _, _, _, _, begins (by decide +kernel), by decide +kernel,
    by decide +kernel, yields_one (by decide +kernel), in_mem (by decide +kernel), by decide +kernel⟩

theorem witness_ControlFlow_4 : ∃ (s : State) (lc : Lc) (f : Fetch) (d : Decoded) (q : Pkg) (a : Rand) (c : Core) (q1 :
    Pkg) (c' : Core) (q2 : Pkg), Begins s lc f d q ∧ 0xA0 ≤ d.op ∧ d.op ≤ 0xAF ∧ Yields (formOperands (envOf s lc d)
    OpUse.plain d.ops 0 (s.pkg.core lc)) q ([a], c) q1 ∧ Yields (writeVal (envOf s lc d) a (if condHolds c.psw (d.op % 16)
    then 1 else 0) c) q1 c' q2 :=
  ⟨cpuState 2, 17, fetchOf [0xA1, 0x11], _, _, _, _, _, _, _, begins (by decide +kernel), by decide +kernel,
    by decide +kernel, yields_one (by decide +kernel), yields Core.reset (by decide +kernel)⟩

theorem witness_ControlFlow_5_1 : ∃ (s : State) (lc : Lc) (f : Fetch) (d : Decoded) (q : Pkg) (a : Rand) (c : Core) (q1 :
    Pkg) (n : Nat) (q2 : Pkg), Begins s lc f d q ∧ d.op = 0x85 ∧ Yields (formOperands (envOf s lc d) OpUse.plain d.ops 0
    (s.pkg.core lc)) q ([a], c) q1 ∧ Yields (readVal (envOf s lc d) a) q1 n q2 ∧ n = 0 :=
  ⟨onPkg (cpuState 2) (fun p => p.setCore 17 ((p.core 17).gSet 7 (0))), 17, fetchOf [0x85, 0x71], _, _, _, _, _, _, _,
    begins (by decide +kernel), by decide +kernel, yields_one (by decide +kernel), yields 0 (by decide +kernel),
    by decide +kernel⟩

theorem witness_ControlFlow_5_2 : ∃ (s : State) (lc : Lc) (f : Fetch) (d : Decoded) (q : Pkg) (a : Rand) (c : Core) (q1 :
    Pkg) (n : Nat) (q2 : Pkg), Begins s lc f d q ∧ d.op = 0x85 ∧ Yields (formOperands (envOf s lc d) OpUse.plain d.ops 0
    (s.pkg.core lc)) q ([a], c) q1 ∧ Yields (readVal (envOf s lc d) a) q1 n q2 ∧ n ≠ 0 :=
  ⟨cpuState 2, 17, fetchOf [0x85, 0x71], _, _, _, _, _, _, _, begins (by decide +kernel), by decide +kernel, yields_one
    (by decide +kernel), yields 0 (by decide +kernel), by decide +kernel⟩

theorem witness_ControlFlow_6 : ∃ (s : State) (lc : Lc) (f : Fetch) (d : Decoded) (q : Pkg) (c : Core), Begins s lc f d q
    ∧ d.op = 0x84 ∧ (s.pkg.core lc).pl ≠ 0 ∧ (s.pkg.core lc).retx = some c :=
  ⟨onPkg (cpuState 2) (fun p => p.setCore 17 { p.core 17 with cr := [(0x10, 0x3010), (0x11, 0x20000)] }), 17, fetchOf
    [0x84], _, _, _, begins (by decide +kernel), by decide +kernel, by decide +kernel, some_getD Core.reset
    (by decide +kernel)⟩

theorem witness_ControlFlow_7 : ∃ (s : State) (lc : Lc) (f : Fetch) (d : Decoded) (q : Pkg), Begins s lc f d q ∧ d.op =
    0x84 ∧ (s.pkg.core lc).pl ≠ 0 ∧ (s.pkg.core lc).retx = none :=
  ⟨onPkg (cpuState 2) (fun p => p.setCore 17 { p.core 17 with cr := [(0x10, 0x3010), (0x11, 0x30000)] }), 17, fetchOf
    [0x84], _, _, begins (by decide +kernel), by decide +kernel, by decide +kernel, by decide +kernel⟩

theorem witness_TrapsCallsAndInterruptsEnterTheirLevel_4 : ∃ (s : State) (lc : Lc) (f : Fetch) (d : Decoded) (q : Pkg) (a
    : Rand) (c : Core) (q1 : Pkg) (v : Nat) (q2 : Pkg), Begins s lc f d q ∧ d.op = 0x82 ∧ Yields (formOperands (envOf s lc
    d) OpUse.plain d.ops 0 (s.pkg.core lc)) q ([a], c) q1 ∧ Yields (readVal (envOf s lc d) a) q1 v q2 ∧ ((s.pkg.core
    lc).pl = 0 ∨ (s.pkg.core lc).pl = 1) ∧ c.psw = (s.pkg.core lc).psw ∧ ¬(pswXS c.psw = true ∧ c.pl = 1) :=
  ⟨lowState 1, 17, fetchOf [0x82, 0x71], _, _, _, _, _, _, _, begins (by decide +kernel), by decide +kernel, yields_one
    (by decide +kernel), yields 0 (by decide +kernel), by decide +kernel, by decide +kernel, by decide +kernel⟩

theorem witness_TrapsCallsAndInterruptsEnterTheirLevel_5 : ∃ (s : State) (lc : Lc) (f : Fetch) (d : Decoded) (q : Pkg) (a
    : Rand) (c : Core) (q1 : Pkg) (v : Nat) (q2 : Pkg), Begins s lc f d q ∧ d.op = 0x83 ∧ Yields (formOperands (envOf s lc
    d) OpUse.plain d.ops 0 (s.pkg.core lc)) q ([a], c) q1 ∧ Yields (readVal (envOf s lc d) a) q1 v q2 ∧ ((s.pkg.core
    lc).pl = 1 ∨ (s.pkg.core lc).pl = 2) ∧ c.psw = (s.pkg.core lc).psw ∧ ¬(pswXS c.psw = true ∧ c.pl = 2) :=
  ⟨lowState 1, 17, fetchOf [0x83, 0x71], _, _, _, _, _, _, _, begins (by decide +kernel), by decide +kernel, yields_one
    (by decide +kernel), yields 0 (by decide +kernel), by decide +kernel, by decide +kernel, by decide +kernel⟩

theorem witness_PrivilegedInstructionsTrap_1 : ∃ (e : Nat × CpuRow × (Nat → Bool)) (s : State) (lc : Lc) (f : Fetch) (d :
    Decoded) (q : Pkg), e ∈ privilegedRows ∧ Begins s lc f d q ∧ d.op = e.1 ∧ e.2.2 (s.pkg.core lc).pl = true :=
  ⟨(privilegedRows)[1]'(by decide), lowState 0, 17, fetchOf [0x83, 0x02, 0x11], _, _, List.getElem_mem _, begins
    (by decide +kernel), by decide +kernel, by decide +kernel⟩

theorem witness_SystemAndCacheInstructions_1 : ∃ (s : State) (lc : Lc) (f : Fetch) (d : Decoded) (q : Pkg) (a w : Rand) (c
    : Core) (q1 : Pkg) (n : Nat) (q2 : Pkg) (c' : Core) (q3 : Pkg), Begins s lc f d q ∧ d.op = 0xE010 ∧ Yields (earlyPriv
    (s.pkg.core lc) d.ops.head? (fun n => crFault n (s.pkg.core lc).pl 0 false)) q () q ∧ Yields (formOperands (envOf s lc
    d) OpUse.plain d.ops 0 (s.pkg.core lc)) q ([a, w], c) q1 ∧ Yields (readVal (envOf s lc d) a) q1 n q2 ∧ crFault n c.pl
    0 false = none ∧ Yields (writeVal (envOf s lc d) w (Core.crRead { c with pend := (q2.core lc).pend } n c.pl).toNat c)
    q2 c' q3 :=
  ⟨onPkg (cpuState 2) (fun p => p.setCore 17 ((p.core 17).gSet 7 (24))), 17, fetchOf [0xE0, 0x10, 0x71, 0x31], _, _, _, _,
    _, _, _, _, _, _, begins (by decide +kernel), by decide +kernel, early_ok (by decide +kernel), yields_two
    (by decide +kernel), yields 0 (by decide +kernel), is_none (by decide +kernel), yields Core.reset (by decide +kernel)⟩

theorem witness_SystemAndCacheInstructions_2 : ∃ (s : State) (lc : Lc) (f : Fetch) (d : Decoded) (q : Pkg) (a b : Rand) (c
    : Core) (q1 : Pkg) (v : Nat) (q2 : Pkg) (n : Nat) (q3 : Pkg), Begins s lc f d q ∧ d.op = 0xE011 ∧ Yields (earlyPriv
    (s.pkg.core lc) d.ops[1]? (fun n => crFault n (s.pkg.core lc).pl 1 true)) q () q ∧ Yields (formOperands (envOf s lc d)
    OpUse.plain d.ops 0 (s.pkg.core lc)) q ([a, b], c) q1 ∧ Yields (readVal (envOf s lc d) a) q1 v q2 ∧ Yields (readVal
    (envOf s lc d) b) q2 n q3 ∧ crFault n c.pl 1 true = none ∧ n ≠ 0x28 :=
  ⟨onPkg (cpuState 2) (fun p => p.setCore 17 ((p.core 17).gSet 7 (50))), 17, fetchOf [0xE0, 0x11, 0x31, 0x71], _, _, _, _,
    _, _, _, _, _, _, begins (by decide +kernel), by decide +kernel, early_ok (by decide +kernel), yields_two
    (by decide +kernel), yields 0 (by decide +kernel), yields 0 (by decide +kernel), is_none (by decide +kernel),
    by decide +kernel⟩

theorem witness_SystemAndCacheInstructions_3 : ∃ (s : State) (lc : Lc) (f : Fetch) (d : Decoded) (q : Pkg) (a b : Rand) (c
    : Core) (q1 : Pkg) (v : Nat) (q2 q3 q4 : Pkg), Begins s lc f d q ∧ d.op = 0xE011 ∧ Yields (earlyPriv (s.pkg.core lc)
    d.ops[1]? (fun n => crFault n (s.pkg.core lc).pl 1 true)) q () q ∧ Yields (formOperands (envOf s lc d) OpUse.plain
    d.ops 0 (s.pkg.core lc)) q ([a, b], c) q1 ∧ Yields (readVal (envOf s lc d) a) q1 v q2 ∧ Yields (readVal (envOf s lc d)
    b) q2 0x28 q3 ∧ crFault 0x28 c.pl 1 true = none ∧ q3.ipiSend lc c.pl (BitVec.ofNat 64 v) = .ok q4 :=
  ⟨onPkg (cpuState 2) (fun p => p.setCore 17 (((p.core 17).gSet 7 (40)).gSet 3 (327744))), 17, fetchOf [0xE0, 0x11, 0x31,
    0x71], _, _, _, _, _, _, _, _, _, _, begins (by decide +kernel), by decide +kernel, early_ok (by decide +kernel),
    yields_two (by decide +kernel), yields 0 (by decide +kernel), yields_val (by decide +kernel), is_none
    (by decide +kernel), ok_of State.reset.pkg (by decide +kernel)⟩

theorem witness_SystemAndCacheInstructions_4 : ∃ (s : State) (lc : Lc) (f : Fetch) (d : Decoded) (q : Pkg) (a w : Rand) (c
    : Core) (q1 : Pkg) (n : Nat) (q2 : Pkg) (t : Trap), Begins s lc f d q ∧ d.op = 0xE010 ∧ Yields (earlyPriv (s.pkg.core
    lc) d.ops.head? (fun n => crFault n (s.pkg.core lc).pl 0 false)) q () q ∧ Yields (formOperands (envOf s lc d)
    OpUse.plain d.ops 0 (s.pkg.core lc)) q ([a, w], c) q1 ∧ Yields (readVal (envOf s lc d) a) q1 n q2 ∧ crFault n c.pl 0
    false = some t :=
  ⟨onPkg (cpuState 2) (fun p => p.setCore 17 ((p.core 17).gSet 7 (255))), 17, fetchOf [0xE0, 0x10, 0x71, 0x31], _, _, _,
    _, _, _, _, _, _, begins (by decide +kernel), by decide +kernel, early_ok (by decide +kernel), yields_two
    (by decide +kernel), yields 0 (by decide +kernel), some_getD (Trap.of 0) (by decide +kernel)⟩

theorem witness_SystemAndCacheInstructions_5 : ∃ (s : State) (lc : Lc) (f : Fetch) (d : Decoded) (q : Pkg) (a b : Rand) (c
    : Core) (q1 : Pkg) (v : Nat) (q2 : Pkg) (n : Nat) (q3 : Pkg) (t : Trap), Begins s lc f d q ∧ d.op = 0xE011 ∧ Yields
    (earlyPriv (s.pkg.core lc) d.ops[1]? (fun n => crFault n (s.pkg.core lc).pl 1 true)) q () q ∧ Yields (formOperands
    (envOf s lc d) OpUse.plain d.ops 0 (s.pkg.core lc)) q ([a, b], c) q1 ∧ Yields (readVal (envOf s lc d) a) q1 v q2 ∧
    Yields (readVal (envOf s lc d) b) q2 n q3 ∧ crFault n c.pl 1 true = some t :=
  ⟨onPkg (cpuState 2) (fun p => p.setCore 17 ((p.core 17).gSet 7 (255))), 17, fetchOf [0xE0, 0x11, 0x31, 0x71], _, _, _,
    _, _, _, _, _, _, _, _, begins (by decide +kernel), by decide +kernel, early_ok (by decide +kernel), yields_two
    (by decide +kernel), yields 0 (by decide +kernel), yields 0 (by decide +kernel), some_getD (Trap.of 0)
    (by decide +kernel)⟩

theorem witness_SystemAndCacheInstructions_6 : ∃ (s : State) (lc : Lc) (f : Fetch) (d : Decoded) (q : Pkg) (a w : Rand) (c
    : Core) (q1 q2 : Pkg) (c' : Core) (q3 : Pkg), Begins s lc f d q ∧ d.op = 0xE012 ∧ Yields (earlyPriv (s.pkg.core lc)
    d.ops.head? (ctrFault (s.pkg.core lc))) q () q ∧ Yields (formOperands (envOf s lc d) OpUse.plain d.ops 0 (s.pkg.core
    lc)) q ([a, w], c) q1 ∧ Yields (readVal (envOf s lc d) a) q1 0x11 q2 ∧ Yields (writeVal (envOf s lc d) w ((q2.free
    64).1.toNat % 801) c) (q2.free 64).2 c' q3 :=
  ⟨onPkg (cpuState 2) (fun p => p.setCore 17 ((p.core 17).gSet 7 (17))), 17, fetchOf [0xE0, 0x12, 0x71, 0x31], _, _, _, _,
    _, _, _, _, _, begins (by decide +kernel), by decide +kernel, early_ok (by decide +kernel), yields_two
    (by decide +kernel), yields_val (by decide +kernel), yields Core.reset (by decide +kernel)⟩

theorem witness_SystemAndCacheInstructions_7 : ∃ (s : State) (lc : Lc) (f : Fetch) (d : Decoded) (q : Pkg) (a w : Rand) (c
    : Core) (q1 : Pkg) (n : Nat) (q2 : Pkg) (c' : Core) (q3 : Pkg), Begins s lc f d q ∧ d.op = 0xE012 ∧ Yields (earlyPriv
    (s.pkg.core lc) d.ops.head? (ctrFault (s.pkg.core lc))) q () q ∧ Yields (formOperands (envOf s lc d) OpUse.plain d.ops
    0 (s.pkg.core lc)) q ([a, w], c) q1 ∧ Yields (readVal (envOf s lc d) a) q1 n q2 ∧ ctrFault c n = none ∧ n ≠ 0x11 ∧
    Yields (writeVal (envOf s lc d) w (if n = 0x10 then q2.frameNum else (if n = 0 then c.crGet 0x4A else c.crRead (0x41 +
    n) c.pl).toNat) c) q2 c' q3 :=
  ⟨onPkg (cpuState 2) (fun p => p.setCore 17 ((p.core 17).gSet 7 (16))), 17, fetchOf [0xE0, 0x12, 0x71, 0x31], _, _, _, _,
    _, _, _, _, _, _, begins (by decide +kernel), by decide +kernel, early_ok (by decide +kernel), yields_two
    (by decide +kernel), yields 0 (by decide +kernel), is_none (by decide +kernel), by decide +kernel, yields Core.reset
    (by decide +kernel)⟩

theorem witness_SystemAndCacheInstructions_8 : ∃ (s : State) (lc : Lc) (f : Fetch) (d : Decoded) (q : Pkg) (a b : Rand) (c
    : Core) (q1 : Pkg) (scope : Nat) (q2 : Pkg) (arg : Nat) (q3 : Pkg), Begins s lc f d q ∧ d.op = 0xE000 ∧ (s.pkg.core
    lc).pl ≠ 0 ∧ Yields (earlyPriv (s.pkg.core lc) d.ops.head? (tinvPriv (s.pkg.core lc).pl)) q () q ∧ Yields
    (formOperands (envOf s lc d) OpUse.plain d.ops 0 (s.pkg.core lc)) q ([a, b], c) q1 ∧ Yields (readVal (envOf s lc d) a)
    q1 scope q2 ∧ Yields (readVal (envOf s lc d) b) q2 arg q3 ∧ tinvPriv c.pl scope = none ∧ scope ≤ 4 ∧ tinvBad c.pl
    scope arg = false :=
  ⟨onPkg (cpuState 2) (fun p => p.setCore 17 (((p.core 17).gSet 7 (4)).gSet 3 (5))), 17, fetchOf [0xE0, 0x00, 0x71, 0x31],
    _, _, _, _, _, _, _, _, _, _, begins (by decide +kernel), by decide +kernel, by decide +kernel, early_ok
    (by decide +kernel), yields_two (by decide +kernel), yields 0 (by decide +kernel), yields 0 (by decide +kernel),
    is_none (by decide +kernel), by decide +kernel, by decide +kernel⟩

theorem witness_SystemAndCacheInstructions_9 : ∃ (s : State) (lc : Lc) (f : Fetch) (d : Decoded) (q : Pkg), Begins s lc f
    d q ∧ d.op = 0xE001 ∧ (s.pkg.core lc).pl ≠ 0 :=
  ⟨cpuState 2, 17, fetchOf [0xE0, 0x01], _, _, begins (by decide +kernel), by decide +kernel, by decide +kernel⟩

theorem witness_SystemAndCacheInstructions_15 : ∃ (e : Nat × CpuRow × (Env → Nat → Nat → M Bool)) (s : State) (lc : Lc) (f
    : Fetch) (d : Decoded) (q : Pkg) (a : Rand) (va : Nat) (b : Rand) (c : Core) (q1 : Pkg) (n : Nat) (q2 : Pkg) (pages :
    List (Option (Nat × Nat × Nat))) (q3 : Pkg) (ok : Bool) (q4 : Pkg), e ∈ rangeRows ∧ Begins s lc f d q ∧ d.op = e.1 ∧
    (0xE008 ≤ d.op → (s.pkg.core lc).pl = 2) ∧ Yields (formOperands (envOf s lc d) OpUse.plain d.ops 0 (s.pkg.core lc)) q
    ([a, b], c) q1 ∧ a.loc = .mem va ∧ Yields (readVal (envOf s lc d) b) q1 n q2 ∧ n ≤ 0x200000 ∧ (n = 0 ∨ va / 2 ^ 47 =
    (va + n - 1) / 2 ^ 47) ∧ Yields (rangePages (envOf s lc d) a va n) q2 pages q3 ∧ Yields (stallDrain (envOf s lc d).x)
    q3 () q3 ∧ Yields (rangeLines e.2.2 (envOf s lc d) pages) q3 ok q4 :=
  ⟨(rangeRows)[0]'(by decide), cpuState 2, 17, fetchOf [0xE0, 0x2, 0x02, 0x61], _, _, _, _, _, _, _, _, _, _, _, _, _,
    List.getElem_mem _, begins (by decide +kernel), by decide +kernel, by decide +kernel, yields_two (by decide +kernel),
    in_mem (by decide +kernel), yields 0 (by decide +kernel), by decide +kernel, by decide +kernel, yields []
    (by decide +kernel), drained (by decide +kernel), yields false (by decide +kernel)⟩

theorem witness_SystemAndCacheInstructions_16 : ∃ (e : Nat × CpuRow × (Env → Nat → Nat → M Bool)) (s : State) (lc : Lc) (f
    : Fetch) (d : Decoded) (q : Pkg) (a : Rand) (va : Nat) (b : Rand) (c : Core) (q1 : Pkg) (n : Nat) (q2 : Pkg), e ∈
    rangeRows ∧ Begins s lc f d q ∧ d.op = e.1 ∧ (0xE008 ≤ d.op → (s.pkg.core lc).pl = 2) ∧ Yields (formOperands (envOf s
    lc d) OpUse.plain d.ops 0 (s.pkg.core lc)) q ([a, b], c) q1 ∧ a.loc = .mem va ∧ Yields (readVal (envOf s lc d) b) q1 n
    q2 ∧ (0x200000 < n ∨ (n ≠ 0 ∧ va / 2 ^ 47 ≠ (va + n - 1) / 2 ^ 47)) :=
  ⟨(rangeRows)[0]'(by decide), onPkg (cpuState 2) (fun p => p.setCore 17 ((p.core 17).gSet 6 (2097153))), 17, fetchOf
    [0xE0, 0x2, 0x02, 0x61], _, _, _, _, _, _, _, _, _, List.getElem_mem _, begins (by decide +kernel), by decide +kernel,
    by decide +kernel, yields_two (by decide +kernel), in_mem (by decide +kernel), yields 0 (by decide +kernel),
    by decide +kernel⟩

theorem witness_SystemAndCacheInstructions_17 : ∃ (e : Nat × CpuRow × Bool) (s : State) (lc : Lc) (f : Fetch) (d :
    Decoded) (q : Pkg), e ∈ ([(0xE005, .cinva, true), (0xE006, .cwba, false), (0xE007, .cflusha, true)] : List (Nat ×
    CpuRow × Bool)) ∧ Begins s lc f d q ∧ d.op = e.1 ∧ (s.pkg.core lc).pl ≠ 0 ∧ Yields (stallDrain (envOf s lc d).x) q ()
    q :=
  ⟨(([(0xE005, .cinva, true), (0xE006, .cwba, false), (0xE007, .cflusha, true)] : List (Nat × CpuRow ×
    Bool)))[0]'(by decide), cpuState 2, 17, fetchOf [0xE0, 0x5], _, _, List.getElem_mem _, begins (by decide +kernel),
    by decide +kernel, by decide +kernel, drained (by decide +kernel)⟩

end Sys2Proof.Machine
end

