-- ==== Sys2Proof/WellFormed.lean ====
section
/-! DEFINITION. Which commands are well formed: the bounds that the operand types do not carry. A meaning is total and answers
an ill-formed command too; only the bytes of an instruction of another row are refused (`Refusal.illFormed`). -/

namespace Sys2Proof

/-- A line number: PA[51:6]. -/
def lineOk (line : Nat) : Bool := decide (line < 2 ^ 46)

/-- The bytes of a full line. -/
def lineBytesOk (b : List Byte) : Bool := b.length == 64

/-- The bytes that the front end delivers: at most 15 (R108). -/
def Fetch.ok (f : Fetch) : Bool := decide (f.code.length ≤ 15)

/-- A command is well formed: line numbers are addresses, data is whole lines or sectors, an access of the fabric lies within
one line, and the front end delivers at most 15 bytes. -/
def Instr.wf : Instr → Bool
  | .powerGood _ => true
  | .pkgReset => true
  | .refclkLoss => true
  | .powerFail => true
  | .holdupStop => true
  | .frameTick _ _ _ => true
  | .quotaOverrun _ => true
  | .registerWrite _ _ _ _ => true
  | .errcountRead _ _ _ => true
  | .confqRead _ _ _ => true
  | .attnqRead _ _ => true
  | .rstreq _ _ => true
  | .invreq _ _ => true
  | .arm _ _ => true
  | .snaptrig _ => true
  | .snaparm _ => true
  | .snaparmRearm => true
  | .snapInEdge => true
  | .snapshotLatch _ _ => true
  | .modecmdLoad _ => true
  | .modecmdTest _ => true
  | .modecmdRun _ => true
  | .modecmdDegraded _ => true
  | .modecmdDrizzle _ => true
  | .modecmdQuiesce _ => true
  | .modeTransitionComplete => true
  | .quiesceDrainComplete => true
  | .drainLimitExpiry => true
  | .loadRetryAttempt _ => true
  | .coreMapBuild => true
  | .coreSpareHandover _ => true
  | .wearRotation _ => true
  | .unitBistComplete _ _ _ _ => true
  | .interruptDelivery _ => true
  | .deviceWriteMachineCheck _ _ => true
  | .nop _ f => f.ok
  | .mov _ f => f.ok
  | .movz _ f => f.ok
  | .movs _ f => f.ok
  | .mova _ f => f.ok
  | .xchg _ f => f.ok
  | .clr _ f => f.ok
  | .add _ f => f.ok
  | .sub _ f => f.ok
  | .adc _ f => f.ok
  | .sbb _ f => f.ok
  | .mul _ f => f.ok
  | .mulh _ f => f.ok
  | .mulhu _ f => f.ok
  | .div _ f => f.ok
  | .divu _ f => f.ok
  | .rem _ f => f.ok
  | .remu _ f => f.ok
  | .neg _ f => f.ok
  | .inc _ f => f.ok
  | .dec _ f => f.ok
  | .cmp _ f => f.ok
  | .test _ f => f.ok
  | .and _ f => f.ok
  | .or _ f => f.ok
  | .xor _ f => f.ok
  | .andn _ f => f.ok
  | .not _ f => f.ok
  | .shl _ f => f.ok
  | .shr _ f => f.ok
  | .sar _ f => f.ok
  | .rol _ f => f.ok
  | .ror _ f => f.ok
  | .bswap _ f => f.ok
  | .popc _ f => f.ok
  | .clz _ f => f.ok
  | .ctz _ f => f.ok
  | .dadd _ f => f.ok
  | .dsub _ f => f.ok
  | .dmul _ f => f.ok
  | .ddiv _ f => f.ok
  | .dcmp _ f => f.ok
  | .dshr _ f => f.ok
  | .cvtdb _ f => f.ok
  | .cvtbd _ f => f.ok
  | .dmov _ f => f.ok
  | .edit _ f => f.ok
  | .fscan _ f => f.ok
  | .fxlat _ f => f.ok
  | .fmove _ f => f.ok
  | .ffill _ f => f.ok
  | .fcmp _ f => f.ok
  | .macB8 _ f => f.ok
  | .macH16 _ f => f.ok
  | .macW32 _ f => f.ok
  | .macF32 _ f => f.ok
  | .maclr _ f => f.ok
  | .mard _ f => f.ok
  | .mawr _ f => f.ok
  | .faddD _ f => f.ok
  | .fsubD _ f => f.ok
  | .fmulD _ f => f.ok
  | .fdivD _ f => f.ok
  | .fcmpD _ f => f.ok
  | .fsqrtD _ f => f.ok
  | .cvtdq _ f => f.ok
  | .cvtqd _ f => f.ok
  | .faddS _ f => f.ok
  | .fsubS _ f => f.ok
  | .fmulS _ f => f.ok
  | .fdivS _ f => f.ok
  | .fcmpS _ f => f.ok
  | .fsqrtS _ f => f.ok
  | .cvtsq _ f => f.ok
  | .cvtqs _ f => f.ok
  | .cvtsd _ f => f.ok
  | .cvtds _ f => f.ok
  | .cas _ f => f.ok
  | .xadd _ f => f.ok
  | .jmp _ f => f.ok
  | .call _ f => f.ok
  | .scall _ f => f.ok
  | .mcall _ f => f.ok
  | .retx _ f => f.ok
  | .waitf _ f => f.ok
  | .waitfResume _ => true
  | .bCc _ f => f.ok
  | .setCc _ f => f.ok
  | .tinv _ f => f.ok
  | .tsync _ f => f.ok
  | .cinv _ f => f.ok
  | .cwb _ f => f.ok
  | .cflush _ f => f.ok
  | .cinva _ f => f.ok
  | .cwba _ f => f.ok
  | .cflusha _ f => f.ok
  | .clockw _ f => f.ok
  | .cunlock _ f => f.ok
  | .rdcr _ f => f.ok
  | .wrcr _ f => f.ok
  | .ipisend _ _ => true
  | .rdctr _ f => f.ok
  | .cacheDisable _ _ => true
  | .cacheDrainComplete _ => true
  | .cacheEnable _ _ => true
  | .cacheError _ _ _ line => lineOk line
  | .waySweepComplete _ _ => true
  | .rds q => lineOk q.line
  | .rdo q => lineOk q.line
  | .upg q => lineOk q.line
  | .wbd q => lineOk q.line
  | .evc q => lineOk q.line
  | .iord q off len _ => lineOk q.line && decide (off.val + len ≤ 64)
  | .iowr q off len _ => lineOk q.line && decide (off.val + len ≤ 64)
  | .conflictQueueServe line => lineOk line
  | .snpinv _ h => lineOk h.line
  | .snpshr _ h _ => lineOk h.line
  | .snpfwd _ h _ => lineOk h.line
  | .cmpMessage _ h _ _ => lineOk h.line
  | .ack _ _ h => lineOk h.line
  | .snprsp _ h _ => lineOk h.line
  | .err _ h _ => lineOk h.line
  | .data _ _ h bytes _ _ => lineOk h.line && lineBytesOk bytes
  | .wbdata _ h bytes _ _ _ => lineOk h.line && lineBytesOk bytes
  | .directoryAudit _ _ => true
  | .dcsSweepComplete _ => true
  | .directoryPurge _ _ => true
  | .purgeComplete _ => true
  | .lastCoreDrain _ _ => true
  | .dirrd _ _ _ _ _ => true
  | .transactionTimeout _ _ => true
  | .lateMessage _ _ => true
  | .creditCensus _ _ _ _ => true
  | .creditRepair _ _ => true
  | .creditRepairComplete _ _ => true
  | .repairLimitExpiry _ _ => true
  | .mocorDataFlit _ _ => true
  | .idle _ _ => true
  | .mark _ _ => true
  | .heart _ _ => true
  | .pause _ _ => true
  | .resume _ _ => true
  | .linkStall _ => true
  | .marginCheck _ _ _ _ => true
  | .laneRepair _ _ _ => true
  | .pauseTimeout _ => true
  | .linkDown _ _ => true
  | .pllLossOfLock _ _ => true
  | .hubPllLossOfLock _ => true
  | .dieWatchExpiry _ => true
  | .unitHung _ _ _ => true
  | .fence _ _ => true
  | .readmit _ _ => true
  | .readmitComplete _ _ => true
  | .admitDie _ _ => true
  | .admitRebuild _ => true
  | .dieRailOff _ => true
  | .autoReadmit _ => true
  | .mrd _ _ => true
  | .mwr _ _ _ => true
  | .matom _ _ _ => true
  | .cpl _ _ _ => true
  | .int _ _ => true
  | .ogpErr _ _ => true
  | .cap _ _ _ => true
  | .capack _ _ _ => true
  | .guestLinkLossExpiry _ => true
  | .guestFenceCommand _ _ => true
  | .guestReadmit _ _ => true
  | .guestReadmitComplete _ _ => true
  | .patrolScrubRead _ _ => true
  | .scrubBoostEnd _ => true
  | .rowRemap _ => true
  | .set _ _ _ => true
  | .read _ _ _ => true
  | .remapCopyComplete _ => true
  | .calibration _ _ _ => true
  | .exclude _ _ => true
  | .sqtDoorbell _ _ _ => true
  | .cqhDoorbell _ _ _ => true
  | .entryFetch => true
  | .ledgerRead _ => true
  | .write _ => true
  | .writeMirrored _ => true
  | .flush _ => true
  | .compareAndWrite _ => true
  | .identify _ => true
  | .createNamespace _ => true
  | .deleteNamespace _ => true
  | .createQp _ => true
  | .deleteQp _ => true
  | .resetQp _ => true
  | .getLog _ => true
  | .writeAdmission _ _ => true
  | .completionPosting _ => true
  | .recovery => true
  | .recoveryComplete => true
  | .mirrorTimeout _ => true
  | .stackFailure _ => true
  | .qprd _ _ => true
  | .form _ => true
  | .memoryKeyLoad => true
  | .rekey _ _ => true
  | .rekeyApply _ => true
  | .keyld _ _ _ _ => true
  | .slotrst _ _ _ => true
  | .tailDoorbell _ _ _ _ => true
  | .descriptorFetch _ _ => true
  | .suspendedResume _ => true
  | .derive _ _ => true
  | .encrypt _ _ _ => true
  | .decrypt _ _ _ => true
  | .mac _ _ _ => true
  | .verify _ _ _ => true
  | .translate _ _ => true
  | .descriptorCompletion _ _ => true
  | .define _ _ => true
  | .assign _ _ _ => true
  | .unassign _ _ => true
  | .restart _ _ => true
  | .release _ _ => true
  | .pcmdRekey _ _ => true
  | .assignmentApply _ => true
  | .restartApply _ => true
  | .releaseApply _ => true
  | .evrd _ _ => true
  | .mcrd _ _ => true
  | .mclheadWrite _ _ => true
  | .grantAcknowledge _ => true
  | .lastRailPgood _ _ _ => true
  | .railConfirmTimeout _ => true
  | .gswFault _ => true
  | .c3Entry _ _ => true
  | .wakeFrame _ => true
  | .drizzleAutoEntry => true
  | .resrd _ _ _ => true
  | .bar0Access _ _ => true
  | .bar2Access _ _ _ => true
  | .frameloRead => true
  | .intaUpdate => true
  | .pme => true
  | .functionLevelReset => true
  | .flrComplete => true
  | .svcPerst => true
  | .eventRingCopy => true
  | .evrheadWrite _ _ => true
  | .mailboxGo _ _ => true
  | .ident => true
  | .stwload _ => true
  | .stewardImageStart => true
  | .unitfail => true
  | .expsig => true
  | .enum _ _ => true
  | .eack => true
  | .genup _ => true
  | .frame _ _ _ _ _ _ _ => true
  | .alignmentLost => true
  | .snap _ _ _ _ _ => true
  | .rreq _ _ _ _ _ _ _ _ _ _ _ _ => true
  | .rrsp _ _ _ _ _ _ _ => true
  | .mirror _ _ _ _ _ _ _ _ _ sectors _ => sectors.all (fun b => b.length == 4096)
  | .mack _ _ _ _ _ _ => true
  | .chainJoin => true
  | .deviceDmaWrite _ _ _ _ _ => true
  | .deviceDmaRead _ _ _ _ => true
  | .msiWrite _ _ _ _ => true
  | .ioinv _ _ _ _ => true
  | .ioinvComplete _ => true
  | .pcieLinkDown _ _ => true
  | .exclcmd _ _ => true
  | .fill _ _ => true
  | .fillComplete _ => true
  | .dmatailDoorbell _ _ _ => true
  | .dmaDescriptorFetch _ => true
  | .copy _ => true
  | .descriptorFill _ => true
  | .nopDescriptor _ => true
  | .dmaDescriptorCompletion _ => true
  | .lbist _ _ => true
  | .mbist _ _ => true
  | .lbistThenMbist _ _ => true
  | .bistComplete _ _ _ => true
  | .hubMbist _ _ => true
  | .hubMbistComplete _ _ => true
  | .tapInstruction _ => true
  | .illegalOpcode _ f => f.ok
  | .trainingAttemptEnd _ _ _ => true
  | .readmitRetryAttempt _ => true
  | .invreqComplete _ => true
  | .chainLinkDown _ => true
  | .ucieLinkLoss _ => true
  | .pcieCompletion _ _ _ _ _ => true
  | .seConfigWrite _ _ => true
  | .svcPerstRelease => true
  | .seLinkDown => true
  | .lockstepMismatch => true
  | .registerParityError _ => true
  | .unitError _ _ _ => true

end Sys2Proof
end

