-- ==== Sys2Proof/Tests/Slice0.lean ====
section
/-! SUPPORT. Tests: well-formedness, the worked examples of the spec, single steps, and witnesses for the statements about every
command. -/

set_option maxRecDepth 100000
set_option Elab.async false

namespace Sys2Proof.Machine

/-! ### Steps, modes and arithmetic -/

def isNext (o : Host.Outcome State Fault Refusal) : Bool := match o with | .next _ => true | _ => false
def nextOf (o : Host.Outcome State Fault Refusal) : State := match o with | .next t => t | _ => State.reset
theorem next_of {o : Host.Outcome State Fault Refusal} (h : isNext o = true) : o = .next (nextOf o) := by
  cases o <;> simp_all [isNext, nextOf]

theorem mode_inv_quiet {md : ModeState} (h : md.trans = none ∧ md.drain = none ∧ md.ret = none ∧ md.mode ≠ .drizzle) :
    ModeInv md := by
  obtain ⟨h1, h2, h3, h4⟩ := h
  refine ⟨?_, ?_, ?_⟩ <;> simp_all

/-- A state with commands waiting. -/
def queued (s : State) (l : List Instr) : State := { s with pending := l }

theorem witness_CommandsLeaveTheQueue_1 : ∃ (c : Instr) (s t : State), exec c s = .next t :=
  ⟨.powerGood true, inMode State.reset .off, _, next_of (by decide +kernel)⟩

theorem witness_CommandsLeaveTheQueue_2 : ∃ s : State, s.pending = [] := ⟨State.reset, by decide +kernel⟩

theorem witness_EveryStepKeepsTheModeInvariant_1 : ∃ s t : State, ModeInv s.mode ∧ step s = .next t :=
  ⟨queued (inMode State.reset .off) [.powerGood true], _, mode_inv_quiet (by decide +kernel), next_of (by decide +kernel)⟩

theorem witness_ModeChangesOnlyAlongTheTable_1 : ∃ s t : State,
    ModeInv s.mode ∧ step s = .next t ∧ t.mode.mode ≠ s.mode.mode :=
  ⟨queued (inMode State.reset .off) [.powerGood true], _, mode_inv_quiet (by decide +kernel), next_of (by decide +kernel),
    by decide +kernel⟩

theorem witness_OnlyEightRowsTouchTheMode_1 : ∃ (c : Instr) (s t : State), exec c s = .next t ∧ t.mode ≠ s.mode :=
  ⟨.powerGood true, inMode State.reset .off, _, next_of (by decide +kernel), by decide +kernel⟩

theorem witness_TestIsLeftOnlyForOff_1 : ∃ s t : State,
    ModeInv s.mode ∧ s.mode.mode = .test ∧ step s = .next t ∧ t.mode.mode ≠ .test :=
  ⟨queued (inMode runState .test) [.pkgReset], _, mode_inv_quiet (by decide +kernel), by decide +kernel,
    next_of (by decide +kernel), by decide +kernel⟩

theorem witness_DivisionFollowsItsRule_2 : ∃ (n : Nat) (a b : BitVec n),
    (n = 8 ∨ n = 16 ∨ n = 32 ∨ n = 64) ∧ b ≠ 0 ∧ ¬ (a = BitVec.intMin n ∧ b = BitVec.allOnes n) :=
  ⟨64, BitVec.intMin 64, 1, by decide⟩

theorem witness_ArithmeticFlags_1 : ∃ (n : Nat) (_ b : BitVec n), (n = 8 ∨ n = 16 ∨ n = 32 ∨ n = 64) ∧ b ≠ 0 :=
  ⟨64, BitVec.allOnes 64, 1, by decide⟩

theorem witness_ShiftsFollowTheirRule_2_zero : ∃ n cnt k : Nat,
    (n = 8 ∨ n = 16 ∨ n = 32 ∨ n = 64) ∧ k = cnt % n ∧ k = 0 := ⟨8, 8, 0, by decide⟩

theorem witness_ShiftsFollowTheirRule_2_most : ∃ n cnt k : Nat,
    (n = 8 ∨ n = 16 ∨ n = 32 ∨ n = 64) ∧ k = cnt % n ∧ k ≠ 0 := ⟨64, 127, 63, by decide⟩

theorem witness_RegisterOperands_1 : ∃ sp : Spec, sp.form = 1 ∧ sp.kind ≠ .e := ⟨{ noSpec with form := 1 }, by decide⟩

theorem witness_RegisterOperands_2 : ∃ (r : Rand) (n : Nat) (v : Word), r.loc = .reg n v :=
  ⟨{ noRand with loc := .reg 16 7 }, 16, 7, by decide⟩

theorem witness_RegisterOperands_3 : ∃ (r : Rand) (n : Nat) (v : Word), r.loc = .reg n v ∧ n < 16 :=
  ⟨{ noRand with loc := .reg 15 7 }, 15, 7, by decide⟩

theorem witness_RegisterOperands_4 : ∃ (r : Rand) (v : Nat), r.loc = .lit v := ⟨noRand, 0, by decide⟩

theorem witness_DecimalInstructionsAreExact_7 : ∃ l : Nat, 1 ≤ l ∧ l ≤ 16 := ⟨16, by decide⟩

theorem witness_MacAndFloatInstructions_5 : ∃ i : Nat, i < 4 := ⟨3, by decide⟩

theorem witness_ControlFlow_8 : ∃ k : Nat, k < 16 := ⟨15, by decide⟩

theorem witness_ControlFlow_9 : ∃ (c : Core) (b : Nat), b = (if c.pl = 2 then 0x10 else 0x08) ∧
    (c.pl < pswPL (c.crGet (b + 1)) ∨ pswPL (c.crGet (b + 1)) = 3 ∨ c.crGet (b + 1) &&& 0xFFFFFFFFFF0C0040 ≠ 0) :=
  ⟨{ Core.reset with psw := 0x20000, cr := [(0x10, 0x3010), (0x11, 0x30000)] }, 0x10, by decide +kernel⟩

theorem witness_ControlFlow_10 : ∃ (c : Core) (b : Nat), (c.pl = 1 ∨ c.pl = 2) ∧ b = (if c.pl = 2 then 0x10 else 0x08) ∧
    pswPL (c.crGet (b + 1)) ≤ c.pl ∧ pswPL (c.crGet (b + 1)) ≠ 3 ∧ c.crGet (b + 1) &&& 0xFFFFFFFFFF0C0040 = 0 :=
  ⟨{ Core.reset with psw := 0x20000, cr := [(0x10, 0x3010), (0x11, 0x20000)] }, 0x10, by decide +kernel⟩

theorem witness_TrapsCallsAndInterruptsEnterTheirLevel_1 : ∃ (lc : Lc) (p : Pkg) (t : Trap) (c : Core) (lv : Nat),
    c = p.core lc ∧ lv = t.level c.pl ∧ c.pl ≤ 2 ∧ t.code < 256 ∧ ¬ (pswXS c.psw = true ∧ c.pl = lv) :=
  ⟨17, (cpuState 2).pkg, Trap.of 0x21, _, _, rfl, rfl, by decide +kernel⟩

/-- Core 17 at a level, its exception-state bit set. -/
def inException (pl : Nat) : State := onPkg (cpuState pl) (fun p => p.setCore 17 { p.core 17 with psw := setBit (p.core 17).psw 15 true })

theorem witness_TrapsCallsAndInterruptsEnterTheirLevel_2 : ∃ (lc : Lc) (p : Pkg) (t : Trap) (c : Core),
    c = p.core lc ∧ c.pl = 1 ∧ t.level 1 = 1 ∧ pswXS c.psw = true ∧ t.code < 256 :=
  ⟨17, (inException 1).pkg, Trap.of 0x21, _, rfl, by decide +kernel⟩

theorem witness_TrapsCallsAndInterruptsEnterTheirLevel_3 : ∃ (lc : Lc) (p : Pkg) (t : Trap),
    (p.core lc).pl = 2 ∧ pswXS (p.core lc).psw = true ∧ t.level 2 = 2 :=
  ⟨17, (inException 2).pkg, Trap.of 0x21, by decide +kernel⟩

/-- Core 17 with an interrupt pending and enabled. -/
def interrupted : State :=
  onPkg (cpuState 1) (fun p => p.setCore 17 { p.core 17 with pend := 2 ^ 200, cr := [(0x23, BitVec.ofNat 64 (2 ^ 64 - 1))] })

theorem witness_TrapsCallsAndInterruptsEnterTheirLevel_6 : ∃ (s : State) (lc : Lc) (i : Nat),
    s.pkg.interruptible s.mode lc = true ∧ (s.pkg.core lc).nextInt = some i ∧ (s.pkg.core lc).run = .executing :=
  ⟨interrupted, 17, 200, by decide +kernel⟩

theorem witness_TrapsCallsAndInterruptsEnterTheirLevel_7 : ∃ (s : State) (lc : Lc) (i n : Nat),
    s.pkg.interruptible s.mode lc = true ∧ (s.pkg.core lc).nextInt = some i ∧ (s.pkg.core lc).run = .waiting n :=
  ⟨onPkg interrupted (fun p => p.setCore 17 { p.core 17 with run := .waiting 3 }), 17, 200, 3, by decide +kernel⟩

theorem witness_TrapsCallsAndInterruptsEnterTheirLevel_8 : ∃ (s : State) (lc : Lc),
    s.pkg.interruptible s.mode lc = false ∨ (s.pkg.core lc).nextInt = none := ⟨cpuState 2, 17, by decide +kernel⟩

theorem witness_TrapsCallsAndInterruptsEnterTheirLevel_9 : ∃ (s : State) (lc : Lc), (s.pkg.core lc).io ≠ [] :=
  ⟨withCore interrupted 17 (fun c => { c with io := [testIo 0x1000 5] }), 17, by decide +kernel⟩

theorem witness_TrapsCallsAndInterruptsEnterTheirLevel_10 : ∃ (s : State) (lc : Lc) (pa : Nat),
    s.pkg.interruptible s.mode lc = false ∨ pa ∉ (s.pkg.core lc).failed := ⟨cpuState 2, 17, 0x1000, by decide +kernel⟩

theorem witness_TrapsCallsAndInterruptsEnterTheirLevel_11 : ∃ (s : State) (lc : Lc),
    (s.pkg.core lc).run ≠ .waiting 0 ∨ s.pkg.coreLive s.mode lc = false := ⟨cpuState 2, 17, by decide +kernel⟩

theorem witness_TrapsCallsAndInterruptsEnterTheirLevel_12 : ∃ (c : Core) (i : Nat), c.nextInt = some i :=
  ⟨interrupted.pkg.core 17, 200, by decide +kernel⟩

theorem witness_TrapsCallsAndInterruptsEnterTheirLevel_13 : ∃ (s : State) (lc : Lc) (pa : Nat),
    s.pkg.interruptible s.mode lc = true ∧ pa ∈ (s.pkg.core lc).failed ∧ (s.pkg.core lc).run = .executing ∧
      ¬ (pswXS (s.pkg.core lc).psw = true ∧ (s.pkg.core lc).pl = 2) ∧ (s.pkg.core lc).pl ≤ 2 :=
  ⟨onPkg (cpuState 2) (fun p => p.setCore 17 { p.core 17 with failed := [0x1000] }), 17, 0x1000, by decide +kernel⟩

theorem witness_TrapsCallsAndInterruptsEnterTheirLevel_14 : ∃ (s : State) (lc : Lc) (f : Fetch) (n op : Nat) (q : Pkg),
    s.pkg.coreReady s.mode lc = true ∧ ((s.pkg.core lc).io = [] → (s.pkg.core lc).failed = []) ∧
      decodePelmund f.code = .error (.fault 0x01 n (some op)) ∧ opDefined op = false ∧
      Yields (fetchBytes (s.pkg.ctx lc Decoded.zero) s.mode (s.pkg.core lc).ip.toNat n) (s.pkg.beginInstr lc false) () q :=
  ⟨cpuState 2, 17, fetchOf [0xEE, 0xEE], 1, 0xEE, _, by decide +kernel, by decide +kernel, by decide +kernel, by decide +kernel,
    yields () (by decide +kernel)⟩

theorem witness_TrapsCallsAndInterruptsEnterTheirLevel_15 : ∃ (s : State) (lc : Lc),
    (s.pkg.core lc).run = .waiting 0 ∧ s.pkg.coreLive s.mode lc = true :=
  ⟨onPkg (cpuState 2) (fun p => p.setCore 17 { p.core 17 with run := .waiting 0 }), 17, by decide +kernel⟩

theorem witness_PrivilegedInstructionsTrap_2 : ∃ (s : State) (lc : Lc), s.pkg.coreReady s.mode lc = false :=
  ⟨State.reset, 215, by decide +kernel⟩

theorem witness_SystemAndCacheInstructions_10 : ∃ (s : State) (lc : Lc) (v : Word) (target : Nat),
    s.pkg.coreReady s.mode lc = true ∧ ((s.pkg.core lc).pl = 1 ∨ (s.pkg.core lc).pl = 2) ∧ fld v 63 24 = 0 ∧ fld v 15 8 = 0 ∧
      target = fld v 23 16 ∧ target < 216 ∧ s.pkg.lcpid target = s.pkg.lcpid lc ∧ s.pkg.mapped target = true ∧ 0x10 ≤ fld v 7 0 :=
  ⟨cpuState 2, 17, BitVec.ofNat 64 (215 * 2 ^ 16 + 0xFF), 215, by decide +kernel⟩

theorem witness_PrivilegedInstructionsTrap_3 : ∃ (e : Nat × CpuRow × (Nat → Nat → Nat → Bool → BinRes)) (s : State) (lc : Lc),
    e ∈ threeRows ∧ s.pkg.coreReady s.mode lc = false :=
  ⟨threeRows[0]'(by decide), State.reset, 215, List.getElem_mem _, by decide +kernel⟩

theorem witness_SystemAndCacheInstructions_11 : ∃ (s : State) (lc : Lc) (v : Word),
    s.pkg.coreReady s.mode lc = true ∧ ((s.pkg.core lc).pl = 1 ∨ (s.pkg.core lc).pl = 2) ∧ fld v 63 24 = 0 ∧ fld v 15 8 = 0 ∧
      (((s.pkg.core lc).pl = 1 ∧ 216 ≤ fld v 23 16) ∨ (((s.pkg.core lc).pl = 2 ∨ s.pkg.lcpid (fld v 23 16) = s.pkg.lcpid lc) ∧
        (fld v 7 0 < 0x10 ∨ s.pkg.cmapSt (fld v 23 16) = 2 ∨ s.pkg.cmapSt (fld v 23 16) = 3))) :=
  ⟨cpuState 2, 17, BitVec.ofNat 64 (215 * 2 ^ 16 + 0x0F), by decide +kernel⟩

theorem witness_SystemAndCacheInstructions_12 : ∃ (s : State) (lc : Lc),
    s.pkg.coreReady s.mode lc = true ∧ (s.pkg.core lc).pl = 0 := ⟨lowState 0, 17, by decide +kernel⟩

theorem witness_SystemAndCacheInstructions_13 : ∃ (s : State) (lc : Lc) (v : Word),
    s.pkg.coreReady s.mode lc = true ∧ (s.pkg.core lc).pl = 1 ∧ fld v 63 24 = 0 ∧ fld v 15 8 = 0 ∧ fld v 23 16 < 216 ∧
      s.pkg.lcpid (fld v 23 16) ≠ s.pkg.lcpid lc :=
  ⟨withStw (lowState 1) (fun x => { x with lcpid := (215, 5) :: x.lcpid.filter (fun e => e.1 != 215) }), 17,
    BitVec.ofNat 64 (215 * 2 ^ 16 + 0x40), by decide +kernel⟩
/-! ### Queue, reset and well-formedness -/

theorem test_step_idle : step State.reset = .next State.reset.idle := rfl

theorem test_step_takes_the_front (s : State) :
    step (queued s [.pkgReset, .refclkLoss]) = exec .pkgReset (queued s [.refclkLoss]) := rfl

theorem test_power_good_enters_service : (nextOf (exec (.powerGood true) (inMode State.reset .off))).mode.mode = .service := by
  decide +kernel

theorem test_package_reset_enters_off : (nextOf (exec .pkgReset runState)).mode.mode = .off := by decide +kernel

theorem test_line_below_2_46 : (Instr.conflictQueueServe (2 ^ 46 - 1)).wf = true := by decide

theorem test_line_2_46_refused : (Instr.conflictQueueServe (2 ^ 46)).wf = false := by decide

theorem test_fetch_15_bytes : (Instr.add 17 (fetchOf (List.replicate 15 0))).wf = true := by decide

theorem test_fetch_16_bytes_refused : (Instr.add 17 (fetchOf (List.replicate 16 0))).wf = false := by decide

theorem test_iord_over_line_refused : (Instr.iord testReq 63 2 []).wf = false ∧ (Instr.iord testReq 63 1 []).wf = true := by decide

theorem test_short_data_refused : (Instr.data 1 5 testHead (List.replicate 63 0) false false).wf = false := by decide

theorem test_short_sector_refused : (Instr.mirror 4 0 5 false 4095 6 127 999 5 [List.replicate 4095 7] 1).wf = false := by decide +kernel

/-! ### The worked examples of the spec -/

/-- "Unit 4.1.0.3 encodes as 0x093. It is unit index 13 of CD4" (R7, R8). -/
theorem test_unit_identifier : physId 4 13 = 0x093 ∧ physDie 0x093 = 4 ∧ physIdx 0x093 = 13 ∧ physOk 0x093 = true := by decide

theorem test_unit_identifier_invalid : physOk 0x095 = false ∧ physOk (12 * 32) = false := by decide

/-- A copy carrying 0x0001 is newer than 0xFFFE; one carrying 0x7FFE is not (R42). -/
theorem test_newer_seq : newerSeq 0x0001 0xFFFE = true ∧ newerSeq 0x7FFE 0xFFFE = false := by decide

/-- The replacement example of R166: a hit of way 0, a victim past locked and disabled ways, its fill, the next victim. -/
theorem test_plru_hit : plruAccess 16 0 0 false = 0x008B := by decide

theorem test_plru_victim : plruVictim 16 0x008B (fun w => !(8 ≤ w && w ≤ 11) && w != 3) (fun _ => true) = some 12 := by decide

theorem test_plru_fill : plruAccess 16 0x008B 12 false = 0x20CA := by decide

theorem test_plru_next : plruVictim 16 0x20CA (fun w => !(8 ≤ w && w ≤ 11) && w != 3) (fun _ => true) = some 4 := by decide

/-- What decoding gives: opcode, operand size, length, and each operand's form and register. -/
def decodes (l : List Nat) : Option (Nat × Nat × Nat × List (Nat × Nat)) :=
  match decodePelmund (l.map (BitVec.ofNat 8)) with
  | .ok d => some (d.op, d.size, d.len, d.ops.map (fun o => (o.form, o.reg)))
  | .error _ => none

/-- The encoding examples of the spec: DADD, MOV at size word, RDCR, and an instruction of 15 bytes. -/
theorem test_decode_dadd : decodes [0x30, 0x43, 2, 8, 0x52, 4, 0x63, 4, 0x10] = some (0x30, 8, 9, [(3, 4), (2, 5), (3, 6)]) := by decide

theorem test_decode_mov_word : decodes [0xF3, 0x02, 0x7A, 0x2D, 0x20, 0x31] = some (0x02, 4, 6, [(10, 7), (1, 3)]) := by decide

theorem test_decode_rdcr : decodes [0xE0, 0x10, 0x0C, 0x18, 0x51] = some (0xE010, 8, 5, [(12, 0), (1, 5)]) := by decide

theorem test_decode_15_bytes :
    decodes [0xF5, 0x10, 0x0D, 0, 0x20, 0x60, 0, 0, 0, 0, 0, 0x5F, 0x34, 0x40, 1] = some (0x10, 8, 15, [(13, 0), (15, 5), (4, 3)]) := by
  decide

theorem test_decode_16_bytes_refused :
    decodes [0xF5, 0xF6, 0x10, 0x0D, 0, 0x20, 0x60, 0, 0, 0, 0, 0, 0x5F, 0x34, 0x40] = none := by decide

/-- LOCK ADD of the example, and the same with its destination in a register, which is illegal. -/
theorem test_decode_lock : decodes [0xF0, 0x10, 0x1F, 0x13, 8] = some (0x10, 8, 5, [(15, 1), (3, 1)]) := by decide

theorem test_decode_lock_register_refused : decodes [0xF0, 0x10, 0x1F, 0x11] = none := by decide

/-- The decimal examples: −12345 + 100000 = +87655 in five bytes; by 100 in two bytes, +877. -/
theorem test_decimal_sum : decVal ([0x12, 0x34, 0x5B].map (BitVec.ofNat 8)) = some (-12345) ∧
    decVal ([0, 1, 0, 0, 0x0A].map (BitVec.ofNat 8)) = some 100000 ∧
    (decFit 5 (-12345 + 100000)).bytes = [0, 0, 0x87, 0x65, 0x5A].map (BitVec.ofNat 8) := by decide

theorem test_decimal_shift : (decFit 2 (decShift 87655 2)).bytes = [0x87, 0x7A].map (BitVec.ofNat 8) ∧ (decFit 2 877).dv = false := by decide

/-- The check values of CRC-8 with 0x07 (R558) and of CRC-32C over the digits 1 to 9, as they are published. -/
theorem test_crc8 : crc8 ((List.range 9).map (fun i => BitVec.ofNat 8 (0x31 + i))) = 0xF4 := by decide

theorem test_crc32c : crc32c ((List.range 9).map (fun i => BitVec.ofNat 8 (0x31 + i))) = 0xE3069283 := by decide +kernel

/-! ### Steps of a core -/

/-- The bytes of another row are no form of an instruction. -/
theorem test_add_of_other_bytes_refused :
    (match exec (.add 17 (fetchOf [0x11, 0x11, 0x21, 0x31])) (cpuState 2) with
     | .refused (.illFormed _) => true
     | _ => false) = true := by
  decide +kernel

/-- 7 - 8 borrows; the least value divided by -1 overflows and is itself (R129). -/
theorem test_borrow : (subFlags 64 7 8 false).c = true ∧ (subFlags 64 7 8 false).r = 2 ^ 64 - 1 := by decide

theorem test_divide_overflow : (divFlags 64 (2 ^ 63) (2 ^ 64 - 1)).r = 2 ^ 63 ∧ (divFlags 64 (2 ^ 63) (2 ^ 64 - 1)).v = true := by
  decide

end Sys2Proof.Machine
end

section
/-! Who may issue the commands of a page, and what a refused write leaves (R16, R23, R25, R308, R442, R568). -/

namespace Sys2Proof.Machine

/-- Every row that is a command of a page is carried out through `Pkg.cmd`, which asks for the reach of its requester (R25). -/
theorem exec_of_commandPage {c : Instr} {who : Requester} {pg off : Nat} (h : commandPage c = some (who, pg, off))
    (s : State) : ∃ f, exec c s = s.upd (fun p => p.cmd who pg off f) := by
  unfold commandPage at h
  split at h
  all_goals cases h <;> exact ⟨_, rfl⟩

theorem cmd_of_commands_false {p : Pkg} {who : Requester} {pg : Nat} (h : p.commands who pg = false) (off : Nat)
    (f : Pkg → Pkg) : p.cmd who pg off f = p.writeRefused who pg off := by
  simp [Pkg.cmd, h]

/-! ### Reach (R25) -/

section
variable (p : Pkg) (pg : Nat)

theorem commands_core_of_pl_ne_two {lc : Lc} (h : (p.core lc).pl ≠ 2) : p.commands (.core lc) pg = false := by
  have hpl : fld (tblGet (fun _ => Core.reset) p.cores lc.val).psw 17 16 ≠ 2 := h
  simp [Pkg.commands, hpl]

@[simp] theorem commands_guest (g : Fin 2) : p.commands (.guest g) pg = false := by
  simp [Pkg.commands]

@[simp] theorem commands_agent (a : Nat) : p.commands (.agent a) pg = false := by
  have hreach : p.reaches (.agent a) pg = false := by
    unfold Pkg.reaches
    split <;> simp
  simp [Pkg.commands, hreach]

theorem commands_host {b : Blk} {i : Nat} (h : blkOf pg = some (b, i)) : p.commands .host pg = p.answers pg := by
  simp [Pkg.commands, Pkg.reaches, h]

/-- HD.CMAP alone is closed to the steward (R16). -/
theorem commands_steward {b : Blk} {i : Nat} (h : blkOf pg = some (b, i)) :
    p.commands .steward pg = (p.answers pg && b != .cmap) := by
  simp [Pkg.commands, Pkg.reaches, h]

end

/-! ### What a refused write leaves (R23) -/

/-- The physical address of a register fits the 52 bits of SE.ERRADDR. -/
theorem regAddr_lt {pg off : Nat} (hpg : pg < 65536) (hoff : off < 4096) : regAddr pg off < 2 ^ 52 := by
  unfold regAddr
  omega

section
variable (p : Pkg)

/-- SE keeps the address of a refused request in ERRADDR (R442). -/
theorem erraddr_seUr {pa : Nat} (h : pa < 2 ^ 52) : (p.seUr pa).reg pgSE 0x220 = BitVec.ofNat 64 pa := by
  unfold Pkg.seUr
  rw [reg_setEvent _ _ _ _ (Or.inr (by decide)), Nat.mod_eq_of_lt h]
  simp [Pkg.addRf, Pkg.setRf]

@[simp] theorem seUr_cores (pa : Nat) : (p.seUr pa).cores = p.cores := by simp [Pkg.seUr]
@[simp] theorem seUr_hbm (pa : Nat) : (p.seUr pa).hbm = p.hbm := by simp [Pkg.seUr]

theorem erraddr_seUrWrite {pa : Nat} (h : pa < 2 ^ 52) : (p.seUrWrite pa).reg pgSE 0x220 = BitVec.ofNat 64 pa :=
  erraddr_seUr _ h

@[simp] theorem seUrWrite_cores (pa : Nat) : (p.seUrWrite pa).cores = p.cores := by simp [Pkg.seUrWrite]
@[simp] theorem seUrWrite_hbm (pa : Nat) : (p.seUrWrite pa).hbm = p.hbm := by simp [Pkg.seUrWrite]

/-- The firewall keeps the address of a request that it denies (R308). -/
theorem fwaddr_fwLog (g addr ty len : Nat) : (p.fwLog g addr ty len).reg (pgGFW g) 0x200 = BitVec.ofNat 64 addr := by
  unfold Pkg.fwLog
  rw [reg_setEvent _ _ _ _ (Or.inr (by decide))]
  simp [Pkg.addRf, Pkg.setRf]

@[simp] theorem fwLog_cores (g addr ty len : Nat) : (p.fwLog g addr ty len).cores = p.cores := by simp [Pkg.fwLog]
@[simp] theorem fwLog_hbm (g addr ty len : Nat) : (p.fwLog g addr ty len).hbm = p.hbm := by simp [Pkg.fwLog]

@[simp] theorem reg_reply (tag status : Nat) (bytes : List Byte) (poison : Bool) (pg off : Nat) :
    (p.reply tag status bytes poison).reg pg off = p.reg pg off := rfl

theorem writeRefused_host (pg off : Nat) :
    p.writeRefused .host pg off = (p.seUrWrite (regAddr pg off)).reply 0 1 [] false := rfl

theorem writeRefused_core (lc : Lc) (pg off : Nat) : p.writeRefused (.core lc) pg off =
    (p.setCore lc { p.core lc with failed := (p.core lc).failed ++ [regAddr pg off] }).reply 0 1 [] false := rfl

theorem writeRefused_steward (pg off : Nat) : p.writeRefused .steward pg off = p.reply 0 1 [] false := rfl

theorem writeRefused_agent (a : Nat) (pg off : Nat) : p.writeRefused (.agent a) pg off = p.reply 0 1 [] false := rfl

theorem writeRefused_guest_active {g : Fin 2} (h : p.gpState g.val = 2) (pg off : Nat) :
    p.writeRefused (.guest g) pg off = (p.fwLog g.val (regAddr pg off) 2 7).reply 0 1 [] false := by
  simp [Pkg.writeRefused, h]

end

/-- Settles O40: every command row asks for its requester's reach through `Pkg.cmd`, and the refusal is `writeRefused`. -/
theorem commandsNeedReach : Obligations.CommandsNeedReach := by
  unfold Obligations.CommandsNeedReach
  refine ⟨?_, writeRefused_steward, writeRefused_agent, writeRefused_core, ?_, ?_, ?_, ?_, ?_, ?_⟩
  · intro c who pg off s hc hreach
    obtain ⟨f, hf⟩ := exec_of_commandPage hc s
    refine ⟨_, hf, ?_⟩
    show ({ s with pkg := s.pkg.cmd who pg off f } : State) = _
    rw [cmd_of_commands_false hreach]
  · intro p pg off hpg hoff
    rw [writeRefused_host, reg_reply, erraddr_seUrWrite p (regAddr_lt hpg hoff)]
    exact ⟨rfl, rfl, by simp, by simp⟩
  · intro p g pg off hactive
    rw [writeRefused_guest_active p hactive, reg_reply, fwaddr_fwLog]
    exact ⟨rfl, by simp, by simp⟩
  · exact fun p lc pg hpl => commands_core_of_pl_ne_two p pg hpl
  · exact fun p g pg => commands_guest p pg g
  · exact fun p a pg => commands_agent p pg a
  · exact fun p pg b i hb => ⟨commands_host p pg hb, commands_steward p pg hb⟩

end Sys2Proof.Machine
end

section
/-! Writes of registers (R23, R25, R27, R34, R42, R43). -/

namespace Sys2Proof.Machine

section
variable (p : Pkg)

/-! ### What the reach of a register tells -/

/-- A register that may be accessed lies on a page that a block implements. -/
theorem blkOf_of_mayAccess {who : Requester} {pg off : Nat} (h : p.mayAccess who pg off = true) :
    ∃ b i, blkOf pg = some (b, i) := by
  unfold Pkg.mayAccess at h
  split at h
  · simp at h
  · exact ⟨_, _, ‹_›⟩

theorem mayAccess_of_mayRead {who : Requester} {pg off : Nat} (h : p.mayRead who pg off = true) :
    p.mayAccess who pg off = true := by
  unfold Pkg.mayRead at h
  exact (Bool.and_eq_true_iff.1 h).1

/-! ### A write by the part of the page it goes to (R26, R27) -/

variable (md : ModeState) {who : Requester} {pg off : Nat} (v : Word)

theorem pageWrite_refused (h : p.mayAccess who pg off = false) : p.pageWrite md who pg off v = (false, p) := by
  unfold Pkg.pageWrite
  split
  · rfl
  · simp [h]

variable {b : Blk} {i : Nat} (h : p.mayAccess who pg off = true) (hb : blkOf pg = some (b, i))
include h hb

theorem pageWrite_header (hoff : off < 0x200) : p.pageWrite md who pg off v = (true, p.writeHeader md pg b off v) := by
  simp [Pkg.pageWrite, hb, h, hoff]

/-- Live registers are RO but for SE.INTSTAT, whose bits a 1 clears (R27, R448). -/
theorem pageWrite_live (hlo : 0x200 ≤ off) (hhi : off < 0x400) : p.pageWrite md who pg off v =
    (true, if b == .se && off == 0x208 then p.setReg pg off (p.reg pg off &&& ~~~v) else p) := by
  simp [Pkg.pageWrite, hb, h, hhi, Nat.not_lt.2 hlo]

theorem pageWrite_copy (hcfg : b.hasCfg = true) (hlo : 0x400 ≤ off) (hhi : off < 0xC00) :
    p.pageWrite md who pg off v = (true, p.writeCopy pg off v) := by
  simp [Pkg.pageWrite, hb, h, hhi, hcfg, Nat.not_lt.2 hlo, show ¬off < 0x200 by omega]

end

/-- A write that is taken leaves what `pageWrite` gives. -/
theorem exec_registerWrite {s : State} {who : Requester} {pg : PageId} {off : Nat} {v : Word} {q : Pkg}
    (h : s.pkg.pageWrite s.mode who (pgOf pg) off v = (true, q)) :
    exec (.registerWrite who pg off v) s = .next { s with pkg := q } := by
  show execRegisterWrite who pg off v s = _
  simp [execRegisterWrite, h]

theorem exec_registerWrite_refused {s : State} {who : Requester} {pg : PageId} {off : Nat} (v : Word)
    (h : s.pkg.mayAccess who (pgOf pg) off = false) :
    exec (.registerWrite who pg off v) s = .next { s with pkg := s.pkg.writeRefused who (pgOf pg) off } := by
  show execRegisterWrite who pg off v s = _
  simp [execRegisterWrite, pageWrite_refused _ _ _ h]

/-! ### ERRSTAT and the copies -/

section
variable (p : Pkg)

/-- Recomputing a page interrupt leaves everything but the page's level and the attention queue (R528). -/
theorem refreshIrq_rest (pg : Nat) :
    p.refreshIrq pg = { p with pages := (p.refreshIrq pg).pages, stw := (p.refreshIrq pg).stw } := by
  unfold Pkg.refreshIrq
  simp only []
  split
  · rfl
  · split
    · rfl
    · split
      · rfl
      · split <;> rfl

/-- A store into a copy changes that copy of the page. -/
theorem page_writeCopy (pg off : Nat) (v : Word) : (p.writeCopy pg off v).page pg =
    if off < 0x800 then { p.page pg with copyA := tblSet (fun _ => 0) (p.page pg).copyA ((off - 0x400) / 8) v }
    else { p.page pg with copyB := tblSet (fun _ => 0) (p.page pg).copyB ((off - 0x800) / 8) v } := by
  unfold Pkg.writeCopy
  split <;> simp

theorem page_writeCopy_other {pg q : Nat} (off : Nat) (v : Word) (h : q ≠ pg) :
    (p.writeCopy pg off v).page q = p.page q := by
  unfold Pkg.writeCopy
  split <;> simp [h]

/-- A store into a copy leaves the registers and the live configuration of every page (R42). -/
theorem regs_live_writeCopy (pg off q : Nat) (v : Word) :
    ((p.writeCopy pg off v).page q).regs = (p.page q).regs ∧ ((p.writeCopy pg off v).page q).live = (p.page q).live := by
  by_cases h : q = pg
  · subst h
    rw [page_writeCopy]
    split <;> exact ⟨rfl, rfl⟩
  · rw [page_writeCopy_other p off v h]
    exact ⟨rfl, rfl⟩

theorem writeCopy_rest (pg off : Nat) (v : Word) :
    p.writeCopy pg off v = { p with pages := (p.writeCopy pg off v).pages } := by
  unfold Pkg.writeCopy
  split <;> rfl

theorem reg_writeCopy (pg off q o : Nat) (v : Word) : (p.writeCopy pg off v).reg q o = p.reg q o := by
  simp [Pkg.reg, regs_live_writeCopy]

theorem cfg_writeCopy (pg off q o : Nat) (v : Word) : (p.writeCopy pg off v).cfg q o = p.cfg q o := by
  simp [Pkg.cfg, regs_live_writeCopy]

end

/-- The writes of O41: each part of a page takes a write as R26 and R27 give it. -/
theorem registerWritesTakeEffect : registerWritesTakeEffectClaim := by
  unfold registerWritesTakeEffectClaim
  refine ⟨?_, ?_, ?_, ?_, ?_, ?_⟩
  · intro s who pg off v h
    exact ⟨_, exec_registerWrite_refused v h, rfl⟩
  · intro s who pg off v b i h hb hro hlo hhi
    have hkeep : (b == .se && off == 0x208) = false := by
      rcases hro with hro | hro <;> simp [hro]
    have hw := pageWrite_live s.pkg s.mode v h hb hlo hhi
    rw [hkeep] at hw
    exact exec_registerWrite hw
  · intro s who v pg hse h
    have hb : blkOf pgSE = some (.se, 0) := by decide
    have hw := pageWrite_live s.pkg s.mode v h hb (by decide) (by decide)
    rw [← hse] at hw
    refine ⟨_, exec_registerWrite hw, ?_, ?_⟩
    · rfl
    · simp [hse]
  · intro s who pg v h
    obtain ⟨b, i, hb⟩ := blkOf_of_mayAccess _ h
    refine ⟨_, exec_registerWrite (pageWrite_header s.pkg s.mode v h hb (by decide)), ?_, ?_, ?_⟩
    · unfold OnlyPagesStw
      simp only [Pkg.writeHeader]
      rw [refreshIrq_rest]
      rfl
    · simp [Pkg.writeHeader]
    · intro q o hqo
      simp only [Pkg.writeHeader, reg_refreshIrq]
      rw [reg_setReg, if_neg (by tauto)]
  · intro s who pg v b i h hb
    refine ⟨_, exec_registerWrite (pageWrite_header s.pkg s.mode v h hb (by decide)), rfl, ?_, ?_⟩
    · simp [Pkg.writeHeader]
    · intro q o hqo
      simp only [Pkg.writeHeader]
      rw [reg_setReg, if_neg (by tauto)]
  · intro s who pg off v b i h hb hcfg hlo hhi
    refine ⟨_, exec_registerWrite (pageWrite_copy s.pkg s.mode v h hb hcfg hlo hhi), ?_, ?_, ?_, ?_⟩
    · exact congrArg (fun q => { s with pkg := q }) (writeCopy_rest s.pkg (pgOf pg) off v)
    · intro hA
      simp [page_writeCopy, hA]
    · intro hB
      simp [page_writeCopy, Nat.not_lt.2 hB]
    · exact fun q o => ⟨cfg_writeCopy _ _ _ _ _ _, reg_writeCopy _ _ _ _ _ _⟩

end Sys2Proof.Machine
end

section
/-! Reads that change what they read (R23, R25, R36, R254, R528). -/

namespace Sys2Proof.Machine

/-! ### A read as a row (R27) -/

@[simp] theorem rf_reply (p : Pkg) (tag status : Nat) (bytes : List Byte) (poison : Bool) (pg off hi lo : Nat) :
    (p.reply tag status bytes poison).rf pg off hi lo = p.rf pg off hi lo := rfl

section
variable (p : Pkg) (md : ModeState) {who : Requester} {pg off : Nat} (w : ReadWidth)

theorem readRow_refused (h : p.mayRead who pg off = false) :
    p.readRow md who pg off w = p.readRefused who pg off := by
  simp [Pkg.readRow, Pkg.pageRead, h]

/-- A read that is taken delivers the register or its half and leaves the effect of the read; TICKPOS, a free value at each
access, is left out. -/
theorem readRow_taken (h : p.mayRead who pg off = true) (hpos : ¬(pg = pgFRAME ∧ off = 0x208)) :
    p.readRow md who pg off w =
      (p.readEffect pg off w).reply 0 0 (readHalf (p.pageValue md 0 pg off) w) false := by
  simp [Pkg.readRow, Pkg.pageRead, h, if_neg hpos]

end

/-! ### What ERRCOUNT, CONFQ and ATTNQ read as -/

section
variable (p : Pkg) (md : ModeState) (pos : Nat)

theorem pageValue_errcount {pg : Nat} {b : Blk} {i : Nat} (hb : blkOf pg = some (b, i)) :
    p.pageValue md pos pg 0x038 = p.reg pg 0x038 := by
  simp [Pkg.pageValue, hb]

theorem blkOf_pgDS (d : Fin 16) : blkOf (pgDS d.val) = some (.ds, d.val) := by
  revert d
  decide

theorem pageValue_confq (d : Fin 16) : p.pageValue md pos (pgDS d.val) 0x210 = p.reg (pgDS d.val) 0x210 := by
  simp [Pkg.pageValue, blkOf_pgDS, Pkg.liveValue]

theorem blkOf_pgSTW : blkOf pgSTW = some (.steward, 0) := by decide

theorem pageValue_attnq {g : Nat} {rest : List Nat} (hq : p.stw.attnq = g :: rest) :
    p.pageValue md pos pgSTW 0x348 = word [(63, 1), (62, p.stw.attnOvf.toNat), (0, g)] := by
  simp [Pkg.pageValue, blkOf_pgSTW, Pkg.liveValue, Pkg.stwLive, hq]

/-! ### What reading them does -/

/-- ERRCOUNT clears with its low half (R36). -/
theorem readEffect_errcount (pg : Nat) (w : ReadWidth) :
    p.readEffect pg 0x038 w = if w = .high then p else p.setReg pg 0x038 0 := by
  unfold Pkg.readEffect
  by_cases hw : w = .high
  · rw [if_neg (by simp [hw]), if_pos hw]
    split <;> simp
  · rw [if_pos ⟨rfl, hw⟩, if_neg hw]

/-- CONFQ[HIGH] clears with the low half (R254). -/
theorem readEffect_confq (d : Fin 16) (w : ReadWidth) :
    p.readEffect (pgDS d.val) 0x210 w = if w = .high then p else p.setRf (pgDS d.val) 0x210 15 8 0 := by
  simp [Pkg.readEffect, blkOf_pgDS]

/-- A read of ATTNQ acts on OVF with its high half, and on the queue with its 64 bits (R528). -/
theorem readEffect_attnq (w : ReadWidth) : p.readEffect pgSTW 0x348 w = if w = .low then p else
    { p with stw := { p.stw with attnOvf := false, attnq := if w = .quad then p.stw.attnq.drop 1 else p.stw.attnq } } := by
  simp [Pkg.readEffect, blkOf_pgSTW]

end

/-! ### The three rows -/

section
variable {s : State} {who : Requester} {w : ReadWidth}

theorem exec_errcountRead {pg : PageId} (h : s.pkg.mayRead who (pgOf pg) 0x038 = true) :
    exec (.errcountRead who pg w) s = .next { s with pkg := (
      (if w = .high then s.pkg else s.pkg.setReg (pgOf pg) 0x038 0).reply 0 0
        (readHalf (s.pkg.reg (pgOf pg) 0x038) w) false) } := by
  obtain ⟨b, i, hb⟩ := blkOf_of_mayAccess _ (mayAccess_of_mayRead _ h)
  show execErrcountRead who pg w s = _
  rw [execErrcountRead, upd_eq, readRow_taken _ _ _ h (by simp), readEffect_errcount, pageValue_errcount _ _ _ hb]

theorem exec_confqRead {d : Fin 16} (h : s.pkg.mayRead who (pgDS d.val) 0x210 = true) :
    exec (.confqRead who d w) s = .next { s with pkg := (
      (if w = .high then s.pkg else s.pkg.setRf (pgDS d.val) 0x210 15 8 0).reply 0 0
        (readHalf (s.pkg.reg (pgDS d.val) 0x210) w) false) } := by
  show execConfqRead who d w s = _
  rw [execConfqRead, upd_eq, readRow_taken _ _ _ h (by simp), readEffect_confq, pageValue_confq]

theorem exec_attnqRead (h : s.pkg.mayRead who pgSTW 0x348 = true) :
    exec (.attnqRead who w) s = .next { s with pkg := (
      (if w = .low then s.pkg else { s.pkg with stw := { s.pkg.stw with
        attnOvf := false, attnq := if w = .quad then s.pkg.stw.attnq.drop 1 else s.pkg.stw.attnq } }).reply 0 0
        (readHalf (s.pkg.pageValue s.mode 0 pgSTW 0x348) w) false) } := by
  show execAttnqRead who w s = _
  rw [execAttnqRead, upd_eq, readRow_taken _ _ _ h (by simp), readEffect_attnq]

/-- A refused read of any of the three gets the error response and has no other effect (R23). -/
theorem exec_read_refused {pg : PageId} {d : Fin 16} {c : Instr} {q off : Nat}
    (hc : (c, q, off) ∈ [(Instr.errcountRead who pg w, pgOf pg, 0x038), (.confqRead who d w, pgDS d.val, 0x210),
      (.attnqRead who w, pgSTW, 0x348)]) (h : s.pkg.mayRead who q off = false) :
    exec c s = .next { s with pkg := s.pkg.readRefused who q off } := by
  simp only [List.mem_cons, Prod.mk.injEq, List.not_mem_nil, or_false] at hc
  obtain ⟨rfl, rfl, rfl⟩ | ⟨rfl, rfl, rfl⟩ | ⟨rfl, rfl, rfl⟩ := hc
  · show execErrcountRead who pg w s = _
    rw [execErrcountRead, upd_eq, readRow_refused _ _ _ h]
  · show execConfqRead who d w s = _
    rw [execConfqRead, upd_eq, readRow_refused _ _ _ h]
  · show execAttnqRead who w s = _
    rw [execAttnqRead, upd_eq, readRow_refused _ _ _ h]

end

/-! ### The machine check of a refused read (R23, R90, R95) -/

/-- XINFO holds the code of the cause in its low byte (R93). -/
theorem fld_xinfo_code (t : Trap) (frompl ilen intid : Nat) (nest rest : Bool) :
    fld (xinfo t frompl ilen intid nest rest) 7 0 = t.code % 256 := by
  simp only [fld, xinfo, word, List.foldl, BitVec.toNat_ofNat]
  omega

/-- Entry into a level fills the level's four save registers and leaves the other control registers (R95). -/
theorem crGet_enter (c : Core) (lv : Nat) (ip psw info xaddr : Word) (off k : Nat) :
    (c.enter lv ip psw info xaddr off).crGet k =
      if k = (if lv = 2 then 0x10 else 0x08) + 3 then xaddr
      else if k = (if lv = 2 then 0x10 else 0x08) + 2 then info
      else if k = (if lv = 2 then 0x10 else 0x08) + 1 then psw
      else if k = (if lv = 2 then 0x10 else 0x08) then ip
      else c.crGet k := by
  simp only [← crGet_crSet]
  rfl

/-- The PSW of a core that has entered a level (R95). -/
theorem psw_enter (c : Core) (lv : Nat) (ip psw info xaddr : Word) (off : Nat) :
    (c.enter lv ip psw info xaddr off).psw = setFld (setFld (setFld (setFld c.psw 17 16 lv) 23 20 0xF) 15 15 1) 7 7 0 := rfl

/-- A core has entered the level that `Core.enter` names (R95). -/
theorem entered_enter (c : Core) {lv cause : Nat} (ip info xaddr : Word) (off : Nat) (hlv : lv < 4)
    (hinfo : fld info 7 0 = cause) : Entered c (c.enter lv ip c.psw info xaddr off) lv cause ip c.psw off where
  ip := by
    simp only [Core.enter, crGet_crSet]
    split <;> simp
  savedIp := by rw [crGet_enter]; split <;> simp
  savedPsw := by rw [crGet_enter]; split <;> simp
  code := by rw [crGet_enter]; split <;> simpa using hinfo
  pl := by
    rw [psw_enter, pswPL, fld_setFld_above _ _ (by decide) (by decide) (by decide),
      fld_setFld_above _ _ (by decide) (by decide) (by decide),
      fld_setFld_below _ _ (by decide) (by decide) (by decide) (by decide), fld_setFld_same]
    exact Nat.mod_eq_of_lt hlv
  imask := by
    rw [psw_enter, pswIMASK, fld_setFld_above _ _ (by decide) (by decide) (by decide),
      fld_setFld_above _ _ (by decide) (by decide) (by decide), fld_setFld_same]
    rfl
  xs := by
    rw [psw_enter, pswXS, bit_eq_fld, fld_setFld_above _ _ (by decide) (by decide) (by decide), fld_setFld_same]
    rfl
  rp := by
    rw [psw_enter, pswRP, bit_eq_fld, fld_setFld_same]
    rfl
  flags := by
    rw [psw_enter]
    iterate 4 rw [fld_setFld_below _ _ (by decide) (by decide) (by decide) (by decide)]
  g := rfl
  ma := rfl
  part := rfl

section
variable (p : Pkg)

@[simp] theorem noteTrap_cores (lc : Nat) (t : Trap) : (p.noteTrap lc t).cores = p.cores := by
  unfold Pkg.noteTrap
  split <;> simp

@[simp] theorem noteTrap_hbm (lc : Nat) (t : Trap) : (p.noteTrap lc t).hbm = p.hbm := by
  unfold Pkg.noteTrap
  split <;> simp

@[simp] theorem core_noteTrap (lc k : Nat) (t : Trap) : (p.noteTrap lc t).core k = p.core k := by simp [Pkg.core]

@[simp] theorem core_reply (tag status : Nat) (bytes : List Byte) (poison : Bool) (lc : Nat) :
    (p.reply tag status bytes poison).core lc = p.core lc := rfl

/-- A cause that M handles is taken unless M is already in its handler (R90, R97). -/
theorem takeTrap_toM {lc : Nat} {t : Trap} (ip : Word) (ilen : Nat) (rest : Bool) (off : Nat)
    (hlv : t.level (p.core lc).pl = 2) (hm2 : t.m2 = none) (hxs : ¬(pswXS (p.core lc).psw = true ∧ (p.core lc).pl = 2)) :
    ∃ info, fld info 7 0 = t.code % 256 ∧
      p.takeTrap lc t ip ilen rest off = (p.setCore lc ((p.core lc).enter 2 ip (p.core lc).psw info
        (BitVec.ofNat 64 (if t.code = 0x30 then 0 else t.xaddr)) off)).noteTrap lc t := by
  have hstop : ¬((p.core lc).pl = 2 ∧ pswXS (p.core lc).psw = true) := fun h => hxs h.symm
  exact ⟨_, fld_xinfo_code t (p.core lc).pl ilen 0 false rest, by simp [Pkg.takeTrap, hlv, hm2, hstop]⟩

/-- The cause of the machine check that a refused read of a register raises (R23, R93). -/
def readCheck (opnd addr : Nat) : Trap := { Trap.of 0x31 with opnd := opnd, xaddr := addr, cls := 3 }

/-- A refused read of a core that executes is a machine check of the instruction at IP (R23; log entry 137). -/
theorem readRefused_executing {lc : Lc} (pg off : Nat) (hrun : (p.core lc).run = .executing) :
    p.readRefused (.core lc) pg off = ((p.free 6).2.takeTrap lc (readCheck ((p.free 6).1.toNat % 4 % 3) (regAddr pg off))
      (p.core lc).ip ((p.free 6).1.toNat / 4) (p.core lc).rest 0x620).reply 0 1 [] false := by
  simp only [Pkg.readRefused, hrun, ne_eq, not_true, if_false]
  rfl

/-- The machine check of a refused read enters M with the register's address in XADDR, and leaves HBM. -/
theorem readRefused_enters {lc : Lc} (pg off : Nat) (hrun : (p.core lc).run = .executing)
    (hxs : ¬(pswXS (p.core lc).psw = true ∧ (p.core lc).pl = 2)) :
    ∃ info, fld info 7 0 = 0x31 ∧ (p.readRefused (.core lc) pg off).core lc =
        (p.core lc).enter 2 (p.core lc).ip (p.core lc).psw info (BitVec.ofNat 64 (regAddr pg off)) 0x620 ∧
      (p.readRefused (.core lc) pg off).hbm = p.hbm := by
  obtain ⟨info, hcode, htrap⟩ := takeTrap_toM (p.free 6).2 (t := readCheck ((p.free 6).1.toNat % 4 % 3) (regAddr pg off))
    (p.core lc).ip ((p.free 6).1.toNat / 4) (p.core lc).rest 0x620 rfl rfl hxs
  rw [readRefused_executing p pg off hrun, htrap]
  refine ⟨info, hcode, ?_, by simp⟩
  rw [core_reply, core_noteTrap, core_setCore_same]
  rfl

end

/-- The reads of O41: each row leaves its register's effect and its answer, or the error response. -/
theorem readsThatClear : readsThatClearClaim := by
  unfold readsThatClearClaim
  refine ⟨?_, ?_, ?_, ?_, ?_, ?_⟩
  · intro s who pg w h
    refine ⟨_, exec_errcountRead h, ?_, rfl, ?_, ?_⟩
    · unfold OnlyPagesOut
      split <;> rfl
    · split <;> simp
    · intro q o hqo
      split
      · rfl
      · rw [reg_reply, reg_setReg, if_neg (by tauto)]
  · intro s who d w h
    refine ⟨_, exec_confqRead h, ?_, rfl, ?_, ?_⟩
    · unfold OnlyPagesOut
      split <;> rfl
    · intro hw
      rw [if_neg hw, rf_reply, rf_setRf_same]
      rfl
    · split
      · rfl
      · rw [rf_reply, rf_setRf_fld _ _ _ _ (by decide) (by decide) (by decide) (by decide)]
  · intro s who g rest h hq
    refine ⟨_, exec_attnqRead h, ?_, rfl, ?_⟩
    · simp [hq]
    · rw [pageValue_attnq _ _ _ hq]
      rfl
  · intro s who w h hw
    refine ⟨_, exec_attnqRead h, ?_, ?_, ?_⟩
    · split <;> rfl
    · split <;> rfl
    · rintro rfl
      rfl
  · intro s who pg d w c q off hc h
    exact ⟨_, exec_read_refused hc h, rfl⟩
  · intro p lc pg off hrun hxs _
    obtain ⟨info, hinfo, hcore, hhbm⟩ := readRefused_enters p pg off hrun hxs
    rw [hcore, crGet_enter]
    exact ⟨entered_enter _ _ _ _ _ (by decide) hinfo, rfl, hhbm⟩

/-- Settles O41: writes by the part of the page they go to, reads by the effect that each row's register has. -/
theorem registersAreWrittenAndRead : Obligations.RegistersAreWrittenAndRead :=
  ⟨registerWritesTakeEffect, readsThatClear⟩

end Sys2Proof.Machine
end

section
/-! Sparing without a READY spare (R11, R12, R404, R412). -/

namespace Sys2Proof.Machine

/-- RUN with the spare of region 0 in self-test, unit 2 of die 0 at SPARETHR with its request found by a tick, and EVNOTE at 1
with interrupt 0x20 of logical core 0, which is one of the Monitor's. -/
def notedSparingState : State :=
  ripen (withCfg (onPkg runState (fun p => (p.setSpare 0 2 9).setUnit 2 { PhysUnit.reset with spareReq := true }))
    pgSTW [(0x408, 2 ^ 32 + 0x20 * 2 ^ 24)]) [(3, 2)]

/-- In `notedSparingState` no unit of die 0 has failed hard. -/
theorem notedSparingState_hard (i : Nat) (h : i / 10 = 0) : (notedSparingState.pkg.unit i).hard = false := by
  have hall : ∀ j < 10, (notedSparingState.pkg.unit j).hard = false := by decide +kernel
  exact hall i (by omega)

/-- SPARE_UNAVAILABLE is logged, and R412 makes the interrupt of EVNOTE pending on the core that it names. -/
theorem notedSparingState_pends :
    ∀ t, exec (.coreSpareHandover 0) notedSparingState = .next t → t.pkg.cores ≠ notedSparingState.pkg.cores := by
  intro t ht
  have hrun : (match exec (.coreSpareHandover 0) notedSparingState with
    | .next t => decide (t.pkg.cores ≠ notedSparingState.pkg.cores)
    | _ => false) = true := by decide +kernel
  rw [ht] at hrun
  exact of_decide_eq_true hrun

/-- Refutes O15: without a READY spare the logged SPARE_UNAVAILABLE notifies the Monitor when EVNOTE is 1 (R412), so the handover
that does not take place leaves a new pending interrupt in a core, where the statement has every core as it was. -/
theorem not_sparesTakeOverLogicalCores : ¬ Obligations.SparesTakeOverLogicalCores := by
  unfold Obligations.SparesTakeOverLogicalCores
  rintro ⟨-, hnoSpare, -⟩
  obtain ⟨t, ht, -, hcores, -⟩ := hnoSpare notedSparingState 0 (by decide +kernel) (by decide +kernel) (by decide +kernel)
    (by decide +kernel) (fun i hi _ => by simpa using notedSparingState_hard i hi)
  exact notedSparingState_pends t ht hcores

end Sys2Proof.Machine
end

section
/-! The queue of commands (R38; log entries 20 and 121). -/

namespace Sys2Proof.Machine

/-- Settles O1: a step is defined by the command at the front of the queue. -/
theorem stepRunsTheFrontCommand : Obligations.StepRunsTheFrontCommand := fun _ _ _ => rfl

/-- If the outcome is a next state, its queue is that of `s`. -/
def KeepsQueue (s : State) (o : Host.Outcome State Fault Refusal) : Prop := ∀ t, o = .next t → t.pending = s.pending

section
variable {s : State}

theorem keepsQueue_next {t : State} (h : t.pending = s.pending) : KeepsQueue s (.next t) := by
  rintro _ ⟨⟩
  exact h

theorem keepsQueue_refused (r : Refusal) : KeepsQueue s (.refused r) := by
  rintro _ ⟨⟩

theorem keepsQueue_ite {c : Prop} [Decidable c] {a b : Host.Outcome State Fault Refusal} (ha : KeepsQueue s a)
    (hb : KeepsQueue s b) : KeepsQueue s (if c then a else b) := by
  split
  · exact ha
  · exact hb

/-- A row that acts on the package alone keeps the queue. -/
theorem keepsQueue_of_pkg {o : Host.Outcome State Fault Refusal} (h : ∃ p, o = .next { s with pkg := p }) :
    KeepsQueue s o := by
  obtain ⟨p, rfl⟩ := h
  exact keepsQueue_next rfl

/-! ### Instructions of a core -/

theorem pending_stopInstr (lc ilen : Nat) (p : Pkg) (st : Stop) : (stopInstr s lc ilen p st).pending = s.pending := by
  cases st <;> rfl

theorem pending_endInstr (lc ilen : Nat) (p : Pkg) (d : Done) : (endInstr s lc ilen p d).pending = s.pending := by
  unfold endInstr
  dsimp only
  split <;> rfl

theorem keepsQueue_runCpu {o : Out} (h : ∃ lc f mn row priv body, o = runCpu lc f mn row priv body s) : KeepsQueue s o := by
  obtain ⟨lc, f, mn, row, priv, body, rfl⟩ := h
  unfold runCpu
  dsimp only
  split
  · exact keepsQueue_next rfl
  · split
    · exact keepsQueue_next rfl
    · split
      · split
        · exact keepsQueue_refused _
        · split
          · exact keepsQueue_next rfl
          · split
            · exact keepsQueue_next (pending_stopInstr _ _ _ _)
            · split
              · exact keepsQueue_next (pending_endInstr _ _ _ _)
              · exact keepsQueue_next (pending_stopInstr _ _ _ _)
      · refine keepsQueue_ite (keepsQueue_refused _) ?_
        split
        · exact keepsQueue_next (pending_stopInstr _ _ _ _)
        · exact keepsQueue_next (pending_stopInstr _ _ _ _)
        · exact keepsQueue_refused _

theorem keepsQueue_bCc (lc : Lc) (f : Fetch) : KeepsQueue s (execBCc lc f s) := by
  unfold execBCc
  exact keepsQueue_runCpu ⟨_, _, _, _, _, _, rfl⟩

theorem keepsQueue_setCc (lc : Lc) (f : Fetch) : KeepsQueue s (execSetCc lc f s) := by
  unfold execSetCc
  exact keepsQueue_runCpu ⟨_, _, _, _, _, _, rfl⟩

theorem keepsQueue_illegalOpcode (lc : Lc) (f : Fetch) : KeepsQueue s (execIllegalOpcode lc f s) := by
  unfold execIllegalOpcode
  exact keepsQueue_runCpu ⟨_, _, _, _, _, _, rfl⟩

theorem keepsQueue_waitfResume (lc : Lc) : KeepsQueue s (execWaitfResume lc s) := by
  unfold execWaitfResume
  dsimp only
  split
  · split <;> exact keepsQueue_next rfl
  · exact keepsQueue_next rfl

theorem keepsQueue_ipisend (lc : Lc) (v : Word) : KeepsQueue s (execIpisend lc v s) := by
  unfold execIpisend
  dsimp only
  split
  · exact keepsQueue_next rfl
  · split
    · exact keepsQueue_next rfl
    · exact keepsQueue_next (pending_stopInstr _ _ _ _)

theorem keepsQueue_interruptDelivery (lc : Lc) : KeepsQueue s (execInterruptDelivery lc s) := by
  unfold execInterruptDelivery
  dsimp only
  split
  · exact keepsQueue_next rfl
  · split <;> exact keepsQueue_next rfl

theorem keepsQueue_deviceWriteMachineCheck (lc : Lc) (pa : Nat) : KeepsQueue s (execDeviceWriteMachineCheck lc pa s) := by
  unfold execDeviceWriteMachineCheck
  dsimp only
  split <;> exact keepsQueue_next rfl

/-! ### Rows that act on the mode -/

theorem keepsQueue_powerGood (head : Bool) : KeepsQueue s (execPowerGood head s) := by
  unfold execPowerGood
  split <;> exact keepsQueue_next rfl

theorem pending_packageReset : s.packageReset.pending = s.pending := by
  unfold State.packageReset
  split <;> rfl

theorem keepsQueue_frameTick (len : Nat) (phase : Option Int) (samples : List (Sensor × Int)) :
    KeepsQueue s (execFrameTick len phase samples s) := by
  unfold execFrameTick
  split <;> exact keepsQueue_next rfl

theorem keepsQueue_modeTransitionComplete : KeepsQueue s (execModeTransitionComplete s) := by
  unfold execModeTransitionComplete
  split
  · exact keepsQueue_next rfl
  · split <;> exact keepsQueue_next rfl

theorem keepsQueue_quiesceDrainComplete : KeepsQueue s (execQuiesceDrainComplete s) := by
  unfold execQuiesceDrainComplete
  split <;> exact keepsQueue_next rfl

theorem keepsQueue_drainLimitExpiry : KeepsQueue s (execDrainLimitExpiry s) := by
  unfold execDrainLimitExpiry
  split
  · split <;> exact keepsQueue_next rfl
  · exact keepsQueue_next rfl

theorem keepsQueue_drizzleAutoEntry : KeepsQueue s (execDrizzleAutoEntry s) := by
  unfold execDrizzleAutoEntry
  dsimp only
  split <;> exact keepsQueue_next rfl

end

/-- Every row keeps the queue: the rows of Pelmund instructions run on a core, a few others act on the mode, and the rest act
on the package alone. -/
theorem keepsQueue_exec (c : Instr) (s : State) : KeepsQueue s (exec c s) := by
  cases c
  case nop lc f | mov lc f | movz lc f | movs lc f | mova lc f | xchg lc f | clr lc f | add lc f | sub lc f | adc lc f
    | sbb lc f | mul lc f | mulh lc f | mulhu lc f | div lc f | divu lc f | rem lc f | remu lc f | neg lc f | inc lc f
    | dec lc f | cmp lc f | test lc f | and lc f | or lc f | xor lc f | andn lc f | not lc f | shl lc f | shr lc f
    | sar lc f | rol lc f | ror lc f | bswap lc f | popc lc f | clz lc f | ctz lc f | dadd lc f | dsub lc f | dmul lc f
    | ddiv lc f | dcmp lc f | dshr lc f | cvtdb lc f | cvtbd lc f | dmov lc f | edit lc f | fscan lc f | fxlat lc f
    | fmove lc f | ffill lc f | fcmp lc f | macB8 lc f | macH16 lc f | macW32 lc f | macF32 lc f | maclr lc f | mard lc f
    | mawr lc f | faddD lc f | fsubD lc f | fmulD lc f | fdivD lc f | fcmpD lc f | fsqrtD lc f | cvtdq lc f | cvtqd lc f
    | faddS lc f | fsubS lc f | fmulS lc f | fdivS lc f | fcmpS lc f | fsqrtS lc f | cvtsq lc f | cvtqs lc f | cvtsd lc f
    | cvtds lc f | cas lc f | xadd lc f | jmp lc f | call lc f | scall lc f | mcall lc f | retx lc f | waitf lc f
    | tinv lc f | tsync lc f | cinv lc f | cwb lc f | cflush lc f | cinva lc f | cwba lc f | cflusha lc f
    | clockw lc f | cunlock lc f | rdcr lc f | wrcr lc f | rdctr lc f =>
    exact keepsQueue_runCpu ⟨lc, f, _, _, _, _, rfl⟩
  case bCc lc f => exact keepsQueue_bCc lc f
  case setCc lc f => exact keepsQueue_setCc lc f
  case illegalOpcode lc f => exact keepsQueue_illegalOpcode lc f
  case waitfResume lc => exact keepsQueue_waitfResume lc
  case ipisend lc v => exact keepsQueue_ipisend lc v
  case interruptDelivery lc => exact keepsQueue_interruptDelivery lc
  case deviceWriteMachineCheck lc pa => exact keepsQueue_deviceWriteMachineCheck lc pa
  case powerGood head => exact keepsQueue_powerGood head
  case pkgReset => exact keepsQueue_next pending_packageReset
  case refclkLoss => exact keepsQueue_next pending_packageReset
  case frameTick len phase samples => exact keepsQueue_frameTick len phase samples
  case modeTransitionComplete => exact keepsQueue_modeTransitionComplete
  case quiesceDrainComplete => exact keepsQueue_quiesceDrainComplete
  case drainLimitExpiry => exact keepsQueue_drainLimitExpiry
  case drizzleAutoEntry => exact keepsQueue_drizzleAutoEntry
  all_goals exact keepsQueue_of_pkg ⟨_, rfl⟩

theorem step_of_pending_nil {s : State} (h : s.pending = []) : step s = .next s.idle := by
  simp [step, h]

theorem pending_idle (s : State) : s.idle.pending = s.pending := by
  rw [State.idle, apply_ite State.pending, ite_self]

theorem mode_idle (s : State) : s.idle.mode = s.mode := by
  rw [State.idle, apply_ite State.mode, ite_self]

theorem idle_off {s : State} (h : s.mode.mode = .off) : s.idle = s := if_pos h

/-- Settles O2: `keepsQueue_exec` for the commands, and the network cycle acts on the package alone. -/
theorem commandsLeaveTheQueue : Obligations.CommandsLeaveTheQueue := by
  exact ⟨fun c s => keepsQueue_exec c s,
    fun s hs => ⟨step_of_pending_nil hs, (pending_idle s).trans hs, mode_idle s, idle_off⟩⟩

end Sys2Proof.Machine
end

section
/-! What set events, commands and package checkstops leave (R32, R35, R408, R414, R528). -/

namespace Sys2Proof.Machine

theorem cmd_of_commands {p : Pkg} {who : Requester} {pg : Nat} (h : p.commands who pg = true) (off : Nat)
    (f : Pkg → Pkg) : p.cmd who pg off f = f p := by
  simp [Pkg.cmd, h]

variable (p : Pkg)

/-! ### The package but for its pages and its steward -/

/-- What commands and set events leave: everything but the pages and the steward. -/
def Pkg.rest (p : Pkg) : Pkg := { p with pages := [], stw := Steward.reset }

theorem onlyPagesStw_of_rest {s : State} {q : Pkg} (h : q.rest = s.pkg.rest) : OnlyPagesStw s { s with pkg := q } := by
  have hq := congrArg (fun r : Pkg => { s with pkg := { r with pages := q.pages, stw := q.stw } }) h
  exact hq

theorem onlyPages_of_rest {s : State} {q : Pkg} (h : q.rest = s.pkg.rest) (hstw : q.stw = s.pkg.stw) :
    OnlyPages s { s with pkg := q } := by
  exact (onlyPagesStw_of_rest h).trans (by simp only [hstw])

@[simp] theorem rest_setPage (pg : Nat) (x : Page) : (p.setPage pg x).rest = p.rest := rfl
@[simp] theorem rest_setReg (pg off : Nat) (v : Word) : (p.setReg pg off v).rest = p.rest := rfl
@[simp] theorem rest_setRf (pg off hi lo v : Nat) : (p.setRf pg off hi lo v).rest = p.rest := rest_setReg ..
@[simp] theorem rest_addRf (pg off hi lo k : Nat) : (p.addRf pg off hi lo k).rest = p.rest := rest_setRf ..
@[simp] theorem rest_noteEv (pg b cls : Nat) (d : Det) : (p.noteEv pg b cls d).rest = p.rest := rest_setPage ..

@[simp] theorem rest_refreshIrq (pg : Nat) : (p.refreshIrq pg).rest = p.rest := by
  rw [refreshIrq_rest]
  rfl

@[simp] theorem rest_setEvent (pg b cls : Nat) (d : Det) : (p.setEvent pg b cls d).rest = p.rest := by
  rw [setEvent_eq]
  split <;> simp

@[simp] theorem rest_cmdOk (pg off : Nat) : (p.cmdOk pg off).rest = p.rest := by simp [Pkg.cmdOk, Pkg.cmdEvent]
@[simp] theorem rest_cmdWrong (pg off : Nat) : (p.cmdWrong pg off).rest = p.rest := by
  simp [Pkg.cmdWrong, Pkg.cmdEvent]

/-! ### Registers -/

@[simp] theorem reg_setUnit (u : Nat) (x : PhysUnit) (pg off : Nat) : (p.setUnit u x).reg pg off = p.reg pg off := rfl

theorem rf_lt (pg off hi lo : Nat) : p.rf pg off hi lo < 2 ^ (hi + 1 - lo) := fld_lt _ _ _

/-- A write of a field of another register or page. -/
theorem reg_setRf {pg q off o : Nat} (hi lo v : Nat) (h : q ≠ pg ∨ o ≠ off) :
    (p.setRf pg off hi lo v).reg q o = p.reg q o := by
  rw [Pkg.setRf, reg_setReg, if_neg (by tauto)]

theorem reg_addRf {pg q off o : Nat} (hi lo k : Nat) (h : q ≠ pg ∨ o ≠ off) :
    (p.addRf pg off hi lo k).reg q o = p.reg q o := reg_setRf p hi lo _ h

/-- A counter field advances and stops at its largest value. -/
theorem rf_addRf_same (pg off k : Nat) {hi lo : Nat} (h : lo ≤ hi := by decide) (h64 : hi < 64 := by decide) :
    (p.addRf pg off hi lo k).rf pg off hi lo = min (p.rf pg off hi lo + k) (2 ^ (hi + 1 - lo) - 1) := by
  have hpos : 0 < 2 ^ (hi + 1 - lo) := Nat.two_pow_pos _
  rw [Pkg.addRf, rf_setRf_same p pg off _ h h64, satInc, Nat.mod_eq_of_lt (by omega)]

theorem bit_eq_rf (pg off i : Nat) : bit (p.reg pg off) i = (p.rf pg off i i == 1) := bit_eq_fld _ _

/-- A bit after a write of the field that it is. -/
theorem bit_setRf_same (pg off v : Nat) {i : Nat} (h64 : i < 64 := by decide) :
    bit ((p.setRf pg off i i v).reg pg off) i = (v % 2 == 1) := by
  rw [bit_eq_rf, rf_setRf_same p pg off v (Nat.le_refl i) h64]
  simp

/-- A bit outside the field written. -/
theorem bit_setRf_fld (pg off v : Nat) {hi lo i : Nat} (h : lo ≤ hi := by decide) (h64 : hi < 64 := by decide)
    (hd : i < lo ∨ hi < i := by decide) : bit ((p.setRf pg off hi lo v).reg pg off) i = bit (p.reg pg off) i := by
  rw [bit_eq_rf, bit_eq_rf, rf_setRf_fld p pg off v h h64 (Nat.le_refl i) hd]

theorem bit_setBit_same (w : Word) (b : Bool) {i : Nat} (h64 : i < 64) : bit (setBit w i b) i = b := by
  rw [bit_eq_fld, setBit, fld_setFld_same _ _ (Nat.le_refl i) h64]
  cases b <;> simp

/-! ### Set events (R35, R528) -/

/-- Of the steward a new page interrupt changes the attention queue alone. -/
theorem stw_refreshIrq (pg : Nat) : (p.refreshIrq pg).stw =
    { p.stw with attnq := (p.refreshIrq pg).stw.attnq, attnOvf := (p.refreshIrq pg).stw.attnOvf,
                 attnNew := (p.refreshIrq pg).stw.attnNew } := by
  unfold Pkg.refreshIrq
  simp only []
  split
  · rfl
  · split
    · rfl
    · split
      · rfl
      · split <;> rfl

theorem stw_setEvent (pg b cls : Nat) (d : Det) : (p.setEvent pg b cls d).stw =
    { p.stw with attnq := (p.setEvent pg b cls d).stw.attnq, attnOvf := (p.setEvent pg b cls d).stw.attnOvf,
                 attnNew := (p.setEvent pg b cls d).stw.attnNew } := by
  rw [setEvent_eq]
  split
  · rfl
  · exact (stw_refreshIrq _ pg).trans (by simp only [noteEv_stw, addRf_stw, setRf_stw])

section
variable (pg b cls : Nat) (d : Det)

@[simp] theorem setEvent_cmap : (p.setEvent pg b cls d).stw.cmap = p.stw.cmap := by
  rw [stw_setEvent]
@[simp] theorem setEvent_fences : (p.setEvent pg b cls d).stw.fences = p.stw.fences := by
  rw [stw_setEvent]
@[simp] theorem setEvent_pcsRaised : (p.setEvent pg b cls d).stw.pcsRaised = p.stw.pcsRaised := by
  rw [stw_setEvent]
@[simp] theorem setEvent_latches : (p.setEvent pg b cls d).stw.latches = p.stw.latches := by
  rw [stw_setEvent]

/-- Storing a page with the same live configuration changes none. -/
theorem live_setPage {x : Page} (q : Nat) (h : x.live = (p.page pg).live) :
    ((p.setPage pg x).page q).live = (p.page q).live := by
  by_cases k : q = pg
  · subst k; simp [h]
  · simp [k]

theorem live_noteEv (q : Nat) : ((p.noteEv pg b cls d).page q).live = (p.page q).live := by
  unfold Pkg.noteEv
  exact live_setPage p pg q rfl

theorem live_refreshIrq (q : Nat) : ((p.refreshIrq pg).page q).live = (p.page q).live := by
  unfold Pkg.refreshIrq
  dsimp only
  split
  · rfl
  · split
    · exact live_setPage p pg q rfl
    · split
      · exact live_setPage p pg q rfl
      · split <;> exact live_setPage p pg q rfl

/-- A set event leaves the live configuration. -/
theorem live_setEvent (q : Nat) : ((p.setEvent pg b cls d).page q).live = (p.page q).live := by
  rw [setEvent_eq]
  split
  · rfl
  · simp [live_refreshIrq, live_noteEv, Pkg.addRf, Pkg.setRf]

@[simp] theorem cfg_setEvent (q o : Nat) : (p.setEvent pg b cls d).cfg q o = p.cfg q o := by
  simp [Pkg.cfg, live_setEvent]

end

/-! ### Command events (R32, R33) -/

@[simp] theorem cmdWrong_latches (pg off : Nat) : (p.cmdWrong pg off).stw.latches = p.stw.latches := by simp [Pkg.cmdWrong]

theorem reg_cmdOk {pg q off o : Nat} (h : q ≠ pg ∨ o ≠ 0x020) : (p.cmdOk pg off).reg q o = p.reg q o :=
  reg_cmdEvent p h

@[simp] theorem cfg_cmdOk (pg off q o : Nat) : (p.cmdOk pg off).cfg q o = p.cfg q o := by
  simp [Pkg.cmdOk, Pkg.cmdEvent, Pkg.setRf]

theorem lastCmd_cmdOk {pg off : Nat} (h : off < 4096) : LastCmd (p.cmdOk pg off) pg off 1 :=
  ⟨lastst_cmdOk p pg off, (lastcmd_cmdOk p pg off).trans (Nat.mod_eq_of_lt h)⟩

theorem lastCmd_cmdWrong {pg off : Nat} (h : off < 4096) : LastCmd (p.cmdWrong pg off) pg off 3 :=
  ⟨lastst_cmdWrong p pg off, (lastcmd_cmdWrong p pg off).trans (Nat.mod_eq_of_lt h)⟩

/-- LASTST and LASTCMD are fields of BLKSTAT. -/
theorem lastCmd_of_reg {p q : Pkg} {pg off st : Nat} (h : q.reg pg 0x020 = p.reg pg 0x020) (hp : LastCmd p pg off st) :
    LastCmd q pg off st := by
  simpa [LastCmd, Pkg.rf, h] using hp

/-! ### Package checkstops (R414) -/

section
variable (cause pg : Nat)

@[simp] theorem pcsRaised_raisePcs : (p.raisePcs cause pg).stw.pcsRaised = true := by simp [Pkg.raisePcs]

/-- The newest event after a checkstop is PCS. -/
theorem event_raisePcs : ∃ e, (p.raisePcs cause pg).stw.events.head? = some e ∧ e.code = 0x14 := by
  simp [Pkg.raisePcs, Pkg.logRec]

/-- A checkstop changes no register but SE.INTSTAT. -/
theorem reg_raisePcs {q o : Nat} (h : q ≠ pgSE ∨ o ≠ 0x208) : (p.raisePcs cause pg).reg q o = p.reg q o := by
  rw [Pkg.raisePcs, reg_logEvent _ _ _ _ _ _ _ h, reg_setRf _ _ _ _ h]
  rfl

/-- Logging an event leaves the bits of SE.INTSTAT but EVENT. -/
theorem intstat_logEvent_above {hi lo : Nat} (code origin : Nat) (lc pid : Option Nat) (pg : Nat) (detail : Word)
    (h : lo ≤ hi) (h0 : 0 < lo) : (p.logEvent code origin lc pid pg detail).rf pgSE 0x208 hi lo = p.rf pgSE 0x208 hi lo := by
  have hlogged : (p.logged code origin lc pid pg detail).rf pgSE 0x208 hi lo = p.rf pgSE 0x208 hi lo := by
    unfold Pkg.logged
    rw [rf_setRf_fld _ _ _ _ (by decide) (by decide) h (Or.inr h0)]
    rfl
  rcases logEvent_cases p code origin lc pid pg detail with e | ⟨a, n, e⟩
  · rw [e, hlogged]
  · rw [e]
    simpa [Pkg.rf] using hlogged

theorem intstat_raisePcs : (p.raisePcs cause pg).rf pgSE 0x208 4 4 = 1 := by
  rw [Pkg.raisePcs, intstat_logEvent_above _ _ _ _ _ _ _ (by decide) (by decide), rf_setRf_same]
  rfl

end

end Sys2Proof.Machine
end

section
/-! Logs as they are read, and failures (R34, R73, R293, R401, R404, R410, R529, R535). -/

namespace Sys2Proof.Machine

variable (p : Pkg)

/-! ### Logs (R410, R529, R535) -/

/-- A register after a run of writes to the quads from `base` on: each quad holds what `f` gives for it. -/
theorem reg_quads (pg base : Nat) (f : Nat → Word) (n i : Nat) (h : i < n) :
    ((List.range n).foldl (fun p i => p.setReg pg (base + 8 * i) (f i)) p).reg pg (base + 8 * i) = f i := by
  induction n with
  | zero => omega
  | succ n ih =>
    rw [List.range_succ, List.foldl_append, List.foldl_cons, List.foldl_nil, reg_setReg]
    by_cases hi : i = n
    · simp [hi]
    · rw [if_neg (by omega), ih (by omega)]

@[simp] theorem rest_cmdEvrd (index : Nat) : (p.cmdEvrd index).rest = p.rest := by
  simp [Pkg.cmdEvrd, List.range_succ]

@[simp] theorem cmdEvrd_stw (index : Nat) : (p.cmdEvrd index).stw = p.stw := by simp [Pkg.cmdEvrd, List.range_succ]

@[simp] theorem rest_cmdMcrd (index : Nat) : (p.cmdMcrd index).rest = p.rest := by
  simp [Pkg.cmdMcrd, List.range_succ]

@[simp] theorem cmdMcrd_stw (index : Nat) : (p.cmdMcrd index).stw = p.stw := by simp [Pkg.cmdMcrd, List.range_succ]

theorem evrd_quad {index : Nat} {e : EvRec} (h : p.stw.events.find? (fun e => e.seq % 1024 == index) = some e) {i : Nat}
    (hi : i < 4) : (p.cmdEvrd index).reg pgEVLOG (0xC08 + 8 * i) = e.quads.getD i 0 := by
  rw [Pkg.cmdEvrd, h, reg_cmdOk _ (Or.inr (by omega)), reg_quads _ _ _ _ _ _ hi]

theorem mcrd_quad {index : Nat} {r : List Word}
    (h : p.stw.mcs.find? (fun r => (r.headD 0).toNat % 256 == index) = some r) {i : Nat} (hi : i < 8) :
    (p.cmdMcrd index).reg pgEVLOG (0xC48 + 8 * i) = r.getD i 0 := by
  rw [Pkg.cmdMcrd, h, reg_cmdOk _ (Or.inr (by omega)), reg_quads _ _ _ _ _ _ hi]
  rfl

/-- A logged quota overrun is due no more, and its record is the newest (R73). -/
theorem quotaOverrun_logs {s : State} {pg : PageId} (h : pgOf pg ∈ s.pkg.stw.overruns) :
    Completes (.quotaOverrun pg) s (fun t => pgOf pg ∉ t.pkg.stw.overruns ∧ t.pkg.stw.evSeq = s.pkg.stw.evSeq + 1 ∧
      ∃ e, t.pkg.stw.events.head? = some e ∧ e.code = 0x0D ∧ e.detail = s.pkg.reg (pgOf pg) 0x3F8) := by
  refine ⟨_, rfl, ?_⟩
  simp [h, Pkg.logRec]

/-- The reading of the steward's logs (R410, R529, R535, R73). -/
theorem stewardLogsAreRead : stewardLogsAreReadClaim := by
  unfold stewardLogsAreReadClaim
  refine ⟨?_, ?_, ?_, ?_, fun s pg h => quotaOverrun_logs h⟩
  · intro s who index e hc he
    refine ⟨_, rfl, ?_⟩
    dsimp only
    rw [cmd_of_commands hc]
    exact ⟨onlyPages_of_rest (by simp) (by simp), lastCmd_cmdOk _ (by decide), fun i hi => evrd_quad _ he hi⟩
  · intro s who index r hc hr
    refine ⟨_, rfl, ?_⟩
    dsimp only
    rw [cmd_of_commands hc]
    exact ⟨onlyPages_of_rest (by simp) (by simp), lastCmd_cmdOk _ (by decide), fun i hi => mcrd_quad _ hr hi⟩
  · intro s who v hc hv
    refine ⟨_, rfl, ?_⟩
    dsimp only
    rw [cmd_of_commands hc, Pkg.writeMclhead, if_neg (by omega)]
    refine ⟨rfl, ?_⟩
    rw [Pkg.rf, reg_setReg_same]
    have := fld_lt v 11 0
    simp only [fld, BitVec.toNat_ofNat] at this ⊢
    omega
  · intro s who v hc hv
    show execMclheadWrite who v s = _
    rw [execMclheadWrite, upd_eq, cmd_of_commands hc, Pkg.writeMclhead, if_pos hv]

/-! ### Failures (R34, R293, R401, R404) -/

/-- After a request to fence a die one is recorded (R294). -/
theorem askFence_mem (d cause : Nat) : ∃ c, (d, c) ∈ (p.askFence d cause).stw.fences := by
  unfold Pkg.askFence
  split
  case isTrue h =>
    obtain ⟨f, hf, hd⟩ := List.any_eq_true.1 h
    obtain rfl : f.1 = d := by simpa using hd
    exact ⟨f.2, hf⟩
  case isFalse => exact ⟨cause, by simp⟩

@[simp] theorem askFence_pcsRaised (d cause : Nat) : (p.askFence d cause).stw.pcsRaised = p.stw.pcsRaised := by
  unfold Pkg.askFence
  split <;> rfl

@[simp] theorem unitCe_cores (u : Nat) : (p.unitCe u).cores = p.cores := by simp [Pkg.unitCe]
@[simp] theorem unitCe_stw (u : Nat) : (p.unitCe u).stw = p.stw := by simp [Pkg.unitCe]

/-- A corrected error of a unit is counted in the registers of its cluster alone (R404). -/
theorem reg_unitCe (u : Nat) {q o : Nat} (h : q ≠ pgCLU (u / 20) (u % 20 / 5)) : (p.unitCe u).reg q o = p.reg q o := by
  unfold Pkg.unitCe
  dsimp only
  rw [reg_setRf _ _ _ _ (Or.inl h), reg_addRf _ _ _ _ (Or.inl h)]
  rfl

theorem pgL1D_ne_pgCLU {d i k : Nat} (hi : i < 20) (hk : k < 4) : pgL1D d i ≠ pgCLU d k := by
  simp only [pgL1D, pgCLU, pgDie]
  omega

/-- What a loop of the island or of the hub's reference that loses lock leaves (R293). -/
theorem hubPllLossOfLock_raises {s : State} {k : Fin 36} (hk : k.val < 2)
    (hon : (if k.val = 1 then s.pkg.pw.island else s.pkg.pw.hubMain) = true)
    (hlost : bit (s.pkg.reg pgHCLK 0x208) k.val = false) :
    Completes (.hubPllLossOfLock k) s (fun t => t.pkg.stw.pcsRaised = true ∧
      bit (t.pkg.reg pgHCLK 0x208) k.val = true ∧ bit (t.pkg.reg pgHCLK 0x200) k.val = false) := by
  refine ⟨_, rfl, ?_⟩
  dsimp only
  rw [if_neg (by simp [hon, hlost]), if_pos hk]
  refine ⟨by simp, ?_, ?_⟩
  all_goals rw [reg_raisePcs _ _ _ (Or.inl (by decide)), reg_setEvent _ _ _ _ (Or.inr (by decide))]
  · rw [reg_setReg_same, bit_setBit_same _ _ (by omega)]
  · rw [reg_setReg_off _ _ _ (by decide), reg_setReg_same, bit_setBit_same _ _ (by omega)]

/-- A disagreement of the steward's cores is a hub failure (R401). -/
theorem lockstepMismatch_raises {s : State} (h : s.pkg.stw.running = true) :
    Completes .lockstepMismatch s (fun t => t.pkg.stw.pcsRaised = true ∧ t.pkg.rf pgSE 0x208 4 4 = 1 ∧
      ∃ e, t.pkg.stw.events.head? = some e ∧ e.code = 0x14) := by
  refine ⟨_, rfl, ?_⟩
  dsimp only
  rw [if_pos h, Pkg.hubFail]
  exact ⟨pcsRaised_raisePcs _ _ _, intstat_raisePcs _ _ _, event_raisePcs _ _ _⟩

/-- REGPAR of a hub page is a package checkstop (R34, R534). -/
theorem registerParityError_hub {s : State} {pg : PageId} (hb : (blkOf (pgOf pg)).isSome = true)
    (ha : s.pkg.answers (pgOf pg) = true) (hhub : 49152 ≤ pgOf pg) :
    Completes (.registerParityError pg) s (fun t => t.pkg.stw.pcsRaised = true ∧
      (bit (s.pkg.reg (pgOf pg) 0x030) 3 = false → bit (t.pkg.reg (pgOf pg) 0x028) 3 = true)) := by
  refine ⟨_, rfl, ?_⟩
  dsimp only
  rw [if_neg (by simp [Option.isSome_iff_ne_none.1 hb, ha]), if_neg (by omega)]
  refine ⟨pcsRaised_raisePcs _ _ _, fun hm => ?_⟩
  rw [reg_raisePcs _ _ _ (Or.inr (by decide))]
  exact errstat_setEvent _ _ (by decide) hm

/-- REGPAR of a die page fences the die by command (R34, R534). -/
theorem registerParityError_die {s : State} {pg : PageId} (hb : (blkOf (pgOf pg)).isSome = true)
    (ha : s.pkg.answers (pgOf pg) = true) (hdie : pgOf pg < 49152) :
    Completes (.registerParityError pg) s (fun t => (∃ c, (pgOf pg / 4096, c) ∈ t.pkg.stw.fences) ∧
      t.pkg.stw.pcsRaised = s.pkg.stw.pcsRaised) := by
  refine ⟨_, rfl, ?_⟩
  dsimp only
  rw [if_neg (by simp [Option.isSome_iff_ne_none.1 hb, ha]), if_pos hdie]
  exact ⟨askFence_mem _ _ _, by simp⟩

section
variable {s : State} {d : Die} {i : Fin 20} (hd : s.pkg.dieUp d.val = true)
  (hlc : (s.pkg.lcOfUnit d.val i.val).isSome = true)
include hd hlc

/-- A unit in service that fails hard waits for its handover; without its L1s the failure is reported (R404). -/
theorem unitError_hard (intact : Bool) : Completes (.unitError d i (.hard intact)) s (fun t =>
    t.pkg.unit (d.val * 20 + i.val) = { s.pkg.unit (d.val * 20 + i.val) with hard := true, intact := intact } ∧
    (intact = true → t.pkg.pages = s.pkg.pages) ∧
    (intact = false → bit (s.pkg.reg (pgL1D d.val i.val) 0x030) 17 = false →
      bit (t.pkg.reg (pgL1D d.val i.val) 0x028) 17 = true)) := by
  refine ⟨_, rfl, ?_⟩
  dsimp only
  rw [if_neg (by simp [Option.isSome_iff_ne_none.1 hlc, hd])]
  cases intact with
  | true => simp
  | false =>
    rw [if_neg Bool.false_ne_true]
    refine ⟨?_, by simp, fun _ hm => errstat_setEvent _ _ (by decide) (by rwa [reg_setUnit])⟩
    simp [Pkg.unit, Pkg.setUnit]

/-- A corrected error of a unit in service is reported and counted, and moves nothing (R404). -/
theorem unitError_corrected (hm : bit (s.pkg.reg (pgL1D d.val i.val) 0x030) 16 = false) :
    Completes (.unitError d i .corrected) s (fun t => bit (t.pkg.reg (pgL1D d.val i.val) 0x028) 16 = true ∧
      t.pkg.cores = s.pkg.cores ∧ t.pkg.stw.cmap = s.pkg.stw.cmap) := by
  have hpage : pgL1D d.val i.val ≠ pgCLU ((d.val * 20 + i.val) / 20) ((d.val * 20 + i.val) % 20 / 5) := by
    have := i.isLt
    rw [show (d.val * 20 + i.val) / 20 = d.val by omega]
    exact pgL1D_ne_pgCLU i.isLt (by omega)
  refine ⟨_, rfl, ?_⟩
  dsimp only
  rw [if_neg (by simp [Option.isSome_iff_ne_none.1 hlc, hd])]
  refine ⟨?_, by simp, by simp⟩
  rw [reg_unitCe _ _ hpage]
  exact errstat_setEvent _ _ (by decide) hm

end

/-- Failures of the steward, of a register, of a unit and of a clock loop (R34, R293, R401, R404). -/
theorem failuresAreRaised : failuresAreRaisedClaim :=
  ⟨fun _ => lockstepMismatch_raises, fun _ _ => registerParityError_hub, fun _ _ => registerParityError_die,
    fun _ _ _ intact hd hlc => unitError_hard hd hlc intact, fun _ _ _ => unitError_corrected,
    fun _ _ => hubPllLossOfLock_raises⟩

/-- Settles O16: the logs by the registers that a command fills, the failures by the event or the checkstop that each raises. -/
theorem logsAreReadAndFailuresRaised : Obligations.LogsAreReadAndFailuresRaised := ⟨stewardLogsAreRead, failuresAreRaised⟩

end Sys2Proof.Machine
end

section
/-! Folds whose steps change one part of the state at a time. -/

namespace Sys2Proof.Machine

section
variable {σ ι β γ : Type}

/-- What every step keeps, the fold keeps. -/
theorem foldl_keeps {f : σ → ι → σ} (g : σ → γ) (h : ∀ s i, g (f s i) = g s) (l : List ι) (s : σ) :
    g (l.foldl f s) = g s := by
  induction l generalizing s with
  | nil => rfl
  | cons i l ih => rw [List.foldl_cons, ih, h]

variable {f : σ → ι → σ} {get : σ → ι → β} (hother : ∀ s i j, j ≠ i → get (f s i) j = get s j)
include hother

/-- A part that no step is at stays as it is. -/
theorem foldl_at_not_mem {l : List ι} {i : ι} (hi : i ∉ l) (s : σ) : get (l.foldl f s) i = get s i := by
  induction l generalizing s with
  | nil => rfl
  | cons j l ih =>
    rw [List.mem_cons, not_or] at hi
    rw [List.foldl_cons, ih hi.2, hother s j i hi.1]

/-- A part that one step is at is what that step makes of it, in a state that agrees with the first one there and in what
every step keeps. -/
theorem foldl_at_mem (g : σ → γ) (hg : ∀ s i, g (f s i) = g s) {l : List ι} (hl : l.Nodup) {i : ι} (hi : i ∈ l) (s : σ) :
    ∃ r, g r = g s ∧ get r i = get s i ∧ get (l.foldl f s) i = get (f r i) i := by
  induction l generalizing s with
  | nil => simp at hi
  | cons j l ih =>
    obtain ⟨hj, hl⟩ := List.nodup_cons.1 hl
    rw [List.foldl_cons]
    by_cases h : i = j
    · subst h
      exact ⟨s, rfl, rfl, foldl_at_not_mem hother hj _⟩
    · obtain ⟨r, hr, hget, hfold⟩ := ih hl ((List.mem_cons.1 hi).resolve_left h) (f s j)
      exact ⟨r, hr.trans (hg s j), hget.trans (hother s j i h), hfold⟩

end

end Sys2Proof.Machine
end

section
/-! Messages that a package sends on the chain (R461 to R463). -/

namespace Sys2Proof.Machine

variable (p : Pkg)

/-- Sending changes the chain alone: the message goes out when the link is up, for a credit (R461, R462). -/
theorem chainSend_eq (down : Bool) (m : ChainMsg) : p.chainSend down m = { p with chain := { p.chain with
    ports := (p.chainSend down m).chain.ports,
    sent := p.chain.sent ++ (if p.chUp down then [(down, m)] else []) } } := by
  unfold Pkg.chainSend
  by_cases h : p.chUp down = true
  · simp only [h, Bool.not_true, Bool.false_eq_true, if_false, if_true]
    rfl
  · simp [h]

section
variable (down : Bool) (m : ChainMsg)

theorem chainSend_head : (p.chainSend down m).head = p.head := by rw [chainSend_eq]
theorem chainSend_pages : (p.chainSend down m).pages = p.pages := by rw [chainSend_eq]
theorem chainSend_fr : (p.chainSend down m).fr = p.fr := by rw [chainSend_eq]
theorem chainSend_stw : (p.chainSend down m).stw = p.stw := by rw [chainSend_eq]
theorem chainSend_hbm : (p.chainSend down m).hbm = p.hbm := by rw [chainSend_eq]
@[simp] theorem chainSend_pend : (p.chainSend down m).chain.pend = p.chain.pend := by rw [chainSend_eq]
@[simp] theorem chainSend_held : (p.chainSend down m).chain.held = p.chain.held := by rw [chainSend_eq]
@[simp] theorem chainSend_eack : (p.chainSend down m).chain.eack = p.chain.eack := by rw [chainSend_eq]
@[simp] theorem chainSend_join : (p.chainSend down m).chain.join = p.chain.join := by rw [chainSend_eq]
@[simp] theorem chainSend_frame : (p.chainSend down m).chain.frame = p.chain.frame := by rw [chainSend_eq]
@[simp] theorem chainSend_sent : (p.chainSend down m).chain.sent =
    p.chain.sent ++ (if p.chUp down then [(down, m)] else []) := by rw [chainSend_eq]

/-- Sending changes no register and no configuration. -/
@[simp] theorem page_chainSend (pg : Nat) : (p.chainSend down m).page pg = p.page pg := by
  simp [Pkg.page, chainSend_pages]
@[simp] theorem reg_chainSend (pg off : Nat) : (p.chainSend down m).reg pg off = p.reg pg off := by simp [Pkg.reg]
@[simp] theorem cfg_chainSend (pg off : Nat) : (p.chainSend down m).cfg pg off = p.cfg pg off := by simp [Pkg.cfg]

end

/-- The package but for its chain. -/
def Pkg.sansChain (p : Pkg) : Pkg := { p with chain := Chain.reset }

theorem onlyChain_of_sansChain {s : State} {q : Pkg} (h : q.sansChain = s.pkg.sansChain) :
    OnlyChain s { s with pkg := q } := by
  have hq := congrArg (fun r : Pkg => { s with pkg := { r with chain := q.chain } }) h
  exact hq

@[simp] theorem sansChain_chainSend (down : Bool) (m : ChainMsg) : (p.chainSend down m).sansChain = p.sansChain := by
  rw [chainSend_eq]
  rfl

@[simp] theorem sansChain_chain (c : Chain) : ({ p with chain := c } : Pkg).sansChain = p.sansChain := rfl

/-- What a port sends is what goes out when its link is up. -/
theorem portSends_chainSend {s : State} {q : Pkg} {down : Bool} {m : ChainMsg} (hsent : q.chain.sent = s.pkg.chain.sent)
    (hup : q.chUp down = s.pkg.chUp down) : portSends s { s with pkg := q.chainSend down m } down [m] := by
  simp [portSends, hsent, hup]

theorem portSends_nil {s : State} {q : Pkg} {down : Bool} (hsent : q.chain.sent = s.pkg.chain.sent) :
    portSends s { s with pkg := q } down [] := by
  simp [portSends, hsent]

section
variable (c : Chain)

/-- Where the package stands on the chain is told by its pages. -/
@[simp] theorem chUp_chain (down : Bool) : Pkg.chUp { p with chain := c } down = p.chUp down := rfl
@[simp] theorem chainAddr_chain : Pkg.chainAddr { p with chain := c } = p.chainAddr := rfl
@[simp] theorem chainGen_chain : Pkg.chainGen { p with chain := c } = p.chainGen := rfl
@[simp] theorem chainValid_chain : Pkg.chainValid { p with chain := c } = p.chainValid := rfl
@[simp] theorem cfg_chain (pg off : Nat) : Pkg.cfg { p with chain := c } pg off = p.cfg pg off := rfl

@[simp] theorem chUp_chainSend (down d : Bool) (m : ChainMsg) : (p.chainSend down m).chUp d = p.chUp d := by
  simp [Pkg.chUp, Pkg.chState, Pkg.rf]
@[simp] theorem chainAddr_chainSend (down : Bool) (m : ChainMsg) : (p.chainSend down m).chainAddr = p.chainAddr := by
  simp [Pkg.chainAddr, Pkg.rf]
@[simp] theorem chainGen_chainSend (down : Bool) (m : ChainMsg) : (p.chainSend down m).chainGen = p.chainGen := by
  simp [Pkg.chainGen, Pkg.rf]
@[simp] theorem snapSrc_chainSend (down : Bool) (m : ChainMsg) (b : Nat) : (p.chainSend down m).snapSrc b = p.snapSrc b := by
  simp [Pkg.snapSrc]

end

/-- The message that `chainMsg` sends is the package's own (R462). -/
theorem chainMsg_eq (s : State) (down : Bool) (dst : Option Nat) (gen : Nat) (b : ChainBody) :
    s.pkg.chainMsg down dst gen b = s.pkg.chainSend down (ownMsg s down dst gen b) := rfl

end Sys2Proof.Machine
end

section
/-! Enumeration and joins (R464 to R466). -/

namespace Sys2Proof.Machine

variable {s : State}

/-- A proposed address that stands is answered and goes on (R464, R466). -/
theorem enum_taken {addr gen : Byte} (hub : s.pkg.pw.hubMain = true) (hhead : s.pkg.head = false) (haddr : addr.toNat < 32)
    (hgen : s.pkg.genStands gen.toNat = true) :
    Completes (.enum addr gen) s (fun t => t.pkg.chain.pend = some (addr.toNat, gen.toNat) ∧
      t.pkg.chain.held = !s.pkg.chUp true ∧
      t.pkg.chain.sent = s.pkg.chain.sent ++
        (if s.pkg.chUp false then [(false, ownMsg s false none s.pkg.chainGen .eack)] else []) ++
        (if s.pkg.chUp true then [(true, ownMsg s true none gen.toNat (.enum (addr.toNat + 1)))] else []) ∧
      OnlyChain s t) := by
  refine ⟨_, rfl, ?_⟩
  dsimp only
  rw [if_neg (by simp [hub, hhead, hgen]; omega)]
  cases hup : s.pkg.chUp true with
  | false =>
    simp only [Pkg.chainHop, chainMsg_eq, chUp_chain, chUp_chainSend, hup, Bool.false_eq_true, if_false]
    exact ⟨trivial, trivial, by simp, onlyChain_of_sansChain (by simp)⟩
  | true =>
    simp only [Pkg.chainHop, chainMsg_eq, chUp_chain, chUp_chainSend, hup, if_true]
    refine ⟨by simp [Pkg.sendEnum, Pkg.chainMsg], by simp [Pkg.sendEnum, Pkg.chainMsg], ?_,
      onlyChain_of_sansChain (by simp [Pkg.sendEnum, Pkg.chainMsg])⟩
    simp [Pkg.sendEnum, Pkg.chainMsg, Pkg.taken, ownMsg, hup]

theorem enum_ignored {addr gen : Byte} (h : s.pkg.pw.hubMain = false ∨ s.pkg.head = true ∨ 32 ≤ addr.toNat ∨
    s.pkg.genStands gen.toNat = false) : exec (.enum addr gen) s = .next s := by
  show execEnum addr gen s = _
  rw [execEnum, upd_eq, if_pos (by simpa [or_assoc] using h)]

theorem eack_taken (hub : s.pkg.pw.hubMain = true) : Completes .eack s (fun t => t.pkg.chain.eack = true ∧
    (s.pkg.chainValid = true → t.pkg.chain.done = true) ∧ OnlyChain s t) := by
  refine ⟨_, rfl, ?_⟩
  dsimp only
  rw [if_pos hub, Pkg.chainNote]
  split
  · exact ⟨rfl, fun _ => rfl, rfl⟩
  case isFalse h =>
    refine ⟨rfl, fun hv => absurd ?_ h, rfl⟩
    simp [Pkg.chainFinished, hv]

theorem genup_taken {gen : Byte} (hub : s.pkg.pw.hubMain = true) (hv : s.pkg.chainValid = true)
    (hnew : newerGen gen.toNat s.pkg.chainGen = true) :
    Completes (.genup gen) s (fun t => t.pkg.chain.pend = some (s.pkg.chainAddr, gen.toNat) ∧
      portSends s t false [ownMsg s false none gen.toNat .genup] ∧ OnlyChain s t) := by
  refine ⟨_, rfl, ?_⟩
  dsimp only
  rw [if_pos ⟨hub, hv, hnew⟩, Pkg.chainMsg]
  exact ⟨by simp, portSends_chainSend rfl rfl, onlyChain_of_sansChain (by simp)⟩

theorem genup_ignored {gen : Byte} (h : s.pkg.pw.hubMain = false ∨ s.pkg.chainValid = false ∨
    newerGen gen.toNat s.pkg.chainGen = false) : exec (.genup gen) s = .next s := by
  show execGenup gen s = _
  rw [execGenup, upd_eq, if_neg (by rintro ⟨h1, h2, h3⟩; simp [h1, h2, h3] at h)]

/-- A join takes the next generation, sends ENUM on CHD and GENUP on CHU (R466). -/
theorem chainJoin_taken (hjoin : s.pkg.chain.join = true) : Completes .chainJoin s (fun t =>
    t.pkg.chain.pend = some (s.pkg.chainAddr, (s.pkg.chainGen + 1) % 256) ∧
    t.pkg.chain.join = false ∧ t.pkg.chain.eack = false ∧
    t.pkg.chain.sent = s.pkg.chain.sent ++
      (if s.pkg.chUp true then
        [(true, ownMsg s true none ((s.pkg.chainGen + 1) % 256) (.enum (s.pkg.chainAddr + 1)))] else []) ++
      (if s.pkg.chUp false then [(false, ownMsg s false none ((s.pkg.chainGen + 1) % 256) .genup)] else []) ∧
    OnlyChain s t) := by
  refine ⟨_, rfl, ?_⟩
  dsimp only
  rw [if_pos hjoin]
  simp only [Pkg.sendEnum, Pkg.chainMsg]
  refine ⟨by simp, by simp, by simp, ?_, onlyChain_of_sansChain (by simp)⟩
  simp [Pkg.taken, ownMsg]
  rfl

theorem chainJoin_ignored (h : s.pkg.chain.join = false) : exec .chainJoin s = .next s := by
  show execChainJoin s = _
  rw [execChainJoin, upd_eq, if_neg (by simp [h])]

/-- The package when a chain link went down: LSTATE, its event and the port (R466). -/
def Pkg.linkLost (p : Pkg) (down : Bool) : Pkg :=
  (((p.setRf (pgCH down) 0x200 3 0 (if down && p.endCh then 4 else 0)).setRf (pgCH down) 0x200 13 12 3).setEvent
    (pgCH down) 17 1).setChPort down ChPort.reset

theorem endCh_linkLost (p : Pkg) (down : Bool) : (p.linkLost down).endCh = p.endCh := by
  show Pkg.endCh (Pkg.setEvent _ _ _ _) = _
  simp [Pkg.endCh, Pkg.cf, Pkg.setRf]

/-- LSTATE after a chain link went down (R466, R473). -/
theorem chState_linkLost (p : Pkg) (down : Bool) :
    (p.linkLost down).chState down = if down && p.endCh then 4 else 0 := by
  show Pkg.chState (Pkg.setEvent _ _ _ _) _ = _
  rw [Pkg.chState, Pkg.rf, reg_setEvent _ _ _ _ (Or.inr (by decide))]
  show Pkg.rf _ _ _ _ _ = _
  rw [rf_setRf_fld _ _ _ _ (by decide) (by decide) (by decide) (by decide), rf_setRf_same]
  split <;> rfl

theorem chainDown_eq {p : Pkg} {down : Bool} (h : p.chUp down = true) :
    p.chainDown down = if down && p.endCh then p.linkLost down else { p.linkLost down with
      boot := { (p.linkLost down).boot with waits := tblSet (fun _ => 0) (p.linkLost down).boot.waits down.toNat 1 } } := by
  have hend := endCh_linkLost p down
  simp only [Pkg.linkLost] at hend
  simp only [Pkg.chainDown, h, Bool.not_true, Bool.false_eq_true, if_false, hend, Pkg.linkLost]

/-- A lost link waits for retraining, unless it is CHD of the last package (R466). -/
theorem chainLinkDown_lost {down : Bool} (h : s.pkg.chUp down = true) :
    Completes (.chainLinkDown down) s (fun t => t.pkg.chState down = (if down && s.pkg.endCh then 4 else 0) ∧
      ((down && s.pkg.endCh) = false → t.pkg.waitOf down.toNat = 1) ∧ t.mode = s.mode ∧ t.pkg.cores = s.pkg.cores) := by
  refine ⟨_, rfl, ?_⟩
  have hcores : (s.pkg.linkLost down).cores = s.pkg.cores := setEvent_cores ..
  dsimp only
  have hst := chState_linkLost s.pkg down
  rw [chainDown_eq h]
  cases hend : down && s.pkg.endCh with
  | true =>
    rw [hend] at hst
    exact ⟨hst, nofun, rfl, hcores⟩
  | false =>
    rw [hend] at hst
    exact ⟨hst, fun _ => by simp [Pkg.waitOf], rfl, hcores⟩

theorem chainLinkDown_ignored {down : Bool} (h : s.pkg.chUp down = false) : exec (.chainLinkDown down) s = .next s := by
  show execChainLinkDown down s = _
  rw [execChainLinkDown, upd_eq, Pkg.chainDown, if_pos (by simp [h])]

theorem enumerationRules_hold : enumerationRules :=
  ⟨fun _ _ _ hub hhead haddr hgen => enum_taken hub hhead haddr hgen, fun _ _ _ h => enum_ignored h,
    fun _ hub => eack_taken hub,
    fun s h => by show execEack s = _; rw [execEack, upd_eq, if_neg (by simp [h])],
    fun _ _ hub hv hnew => genup_taken hub hv hnew, fun _ _ h => genup_ignored h, fun _ h => chainJoin_taken h,
    fun _ h => chainJoin_ignored h, fun _ _ h => chainLinkDown_lost h, fun _ _ h => chainLinkDown_ignored h⟩

end Sys2Proof.Machine
end

section
/-! FRAME (R67, R68, R467). -/

namespace Sys2Proof.Machine

/-- The frame generator of a package that takes the head's frame: PHERR is what was measured, the first frame inside 20 ns
aligns, in LOAD with the head's number, and any other gives the offset (R67, R68). -/
def FrameGen.taken (fr : FrameGen) (md : ModeState) (num : BitVec 48) (ph : Int) : FrameGen :=
  if fr.state = 0 ∧ -20 ≤ ph ∧ ph ≤ 20 then
    if md.mode = .load ∧ fr.aligned = false then
      { fr with pherr := ofInt 16 ph, state := 1, aligned := true, num := num, ofs := 0 }
    else { fr with pherr := ofInt 16 ph, state := 1, ofs := num - fr.num }
  else { fr with pherr := ofInt 16 ph, ofs := num - fr.num }

section
variable {fr : FrameGen} {md : ModeState} {num : BitVec 48} {ph : Int}

theorem taken_pherr : (fr.taken md num ph).pherr = ofInt 16 ph := by
  unfold FrameGen.taken
  split
  · split <;> rfl
  · rfl

theorem taken_aligns (hst : fr.state = 0) (hal : fr.aligned = false) (hlo : -20 ≤ ph) (hhi : ph ≤ 20) (hmd : md.mode = .load) :
    (fr.taken md num ph).num = num ∧ (fr.taken md num ph).state = 1 ∧ (fr.taken md num ph).ofs = 0 := by
  rw [FrameGen.taken, if_pos ⟨hst, hlo, hhi⟩, if_pos ⟨hmd, hal⟩]
  exact ⟨rfl, rfl, rfl⟩

theorem taken_offset (h : fr.state ≠ 0 ∨ ph < -20 ∨ 20 < ph ∨ md.mode ≠ .load ∨ fr.aligned = true) :
    (fr.taken md num ph).num = fr.num ∧ (fr.taken md num ph).ofs = num - fr.num ∧
      (fr.taken md num ph).state = (if fr.state = 0 ∧ -20 ≤ ph ∧ ph ≤ 20 then 1 else fr.state) := by
  unfold FrameGen.taken
  split
  case isTrue hin =>
    rw [if_neg]
    · exact ⟨rfl, rfl, rfl⟩
    · rintro ⟨hmd, hal⟩
      rcases h with h | h | h | h | h
      · exact h hin.1
      · omega
      · omega
      · exact h hmd
      · simp [hal] at h
  case isFalse => exact ⟨rfl, rfl, rfl⟩

end

/-- The package that takes a FRAME. -/
def Pkg.framed (p : Pkg) (md : ModeState) (num : BitVec 48) (ph : Int) : Pkg :=
  { p with fr := p.fr.taken md num ph, chain := { p.chain with frame := true } }

theorem chainFrame_eq {p : Pkg} {md : ModeState} {num : BitVec 48} {ph : Int} (hhead : p.head = false)
    (hub : p.pw.hubMain = true) : p.chainFrame md num ph = p.framed md num ph := by
  unfold Pkg.chainFrame Pkg.framed FrameGen.taken
  simp only [hhead, hub, Bool.not_true, Bool.or_false, Bool.false_eq_true, if_false, decide_eq_true_eq, Bool.not_eq_true']

variable {s : State} {num : BitVec 48} {ph : Int} {corr inside : Nat} {src : Fin 32} {gen : Byte} {wake : Bool}

/-- The FRAME that goes on downstream: the delay of CHU and the time spent inside are added to CORR (R467). -/
def Pkg.frameOn (p : Pkg) (num : BitVec 48) (corr inside : Nat) (src : Fin 32) (gen : Byte) (wake : Bool) : ChainMsg :=
  ChainMsg.mk none src.val gen.toNat wake (.frame num (corr + p.rf (pgCH false) 0x208 15 0 + inside))

theorem exec_frame (hhead : s.pkg.head = false) (hub : s.pkg.pw.hubMain = true) :
    exec (.frame num ph corr inside src gen wake) s = .next { s with pkg := (
      if s.mode.mode.forwards then
        (s.pkg.framed s.mode num ph).chainSend true (s.pkg.frameOn num corr inside src gen wake)
      else s.pkg.framed s.mode num ph) } := by
  show execFrame num ph corr inside src gen wake s = _
  rw [execFrame, upd_eq, chainFrame_eq hhead hub]
  cases s.mode.mode.forwards <;> simp only [hhead, hub, Bool.not_true, Bool.not_false, Bool.or_false, Bool.or_true,
    Bool.false_eq_true, if_true, if_false] <;> rfl

/-- What a FRAME that the package takes does: all that the rules speak of. -/
theorem frame_completes {Q : State → Prop} (hhead : s.pkg.head = false) (hub : s.pkg.pw.hubMain = true)
    (hQ : ∀ t : State, t.pkg.fr = s.pkg.fr.taken s.mode num ph → t.pkg.chain.frame = true →
      portSends s t true (if s.mode.mode.forwards then [s.pkg.frameOn num corr inside src gen wake] else []) →
      t = { s with pkg := { s.pkg with fr := t.pkg.fr, chain := t.pkg.chain } } → Q t) :
    Completes (.frame num ph corr inside src gen wake) s Q := by
  refine ⟨_, exec_frame hhead hub, ?_⟩
  cases hfwd : s.mode.mode.forwards <;> rw [hfwd] at hQ
  case false => exact hQ _ rfl rfl (portSends_nil rfl) rfl
  case true =>
    exact hQ _ (chainSend_fr ..) (chainSend_frame ..) (portSends_chainSend rfl rfl) (by
      dsimp only
      rw [if_pos rfl, chainSend_eq]
      rfl)

theorem frame_ignored (h : s.pkg.head = true ∨ s.pkg.pw.hubMain = false) :
    exec (.frame num ph corr inside src gen wake) s = .next s := by
  show execFrame num ph corr inside src gen wake s = _
  have hin : (s.pkg.head || !s.pkg.pw.hubMain) = true := by simpa using h
  have hout : (s.pkg.head || !s.pkg.pw.hubMain || !s.mode.mode.forwards) = true := by rw [hin, Bool.true_or]
  rw [execFrame, upd_eq, if_pos hout, Pkg.chainFrame, if_pos hin]

theorem alignmentLost_counts (hhead : s.pkg.head = false) (hst : s.pkg.fr.state = 1) (hout : 4 ≤ s.pkg.fr.outside) :
    exec .alignmentLost s = .next { s with pkg := { s.pkg with fr := { s.pkg.fr with state := 2 } } } := by
  show execAlignmentLost s = _
  rw [execAlignmentLost, upd_eq, if_pos (by simp [hhead, hst, hout])]

theorem alignmentLost_ignored (h : s.pkg.head = true ∨ s.pkg.fr.state ≠ 1 ∨ s.pkg.fr.outside < 4) :
    exec .alignmentLost s = .next s := by
  show execAlignmentLost s = _
  rw [execAlignmentLost, upd_eq, if_neg]
  rintro hcond
  simp only [Bool.and_eq_true, Bool.not_eq_true', beq_iff_eq, decide_eq_true_eq] at hcond
  obtain ⟨⟨hhead, hst⟩, hout⟩ := hcond
  rcases h with h | h | h
  · simp [hhead] at h
  · exact h hst
  · omega

theorem frameRules_hold : frameRules :=
  ⟨fun _ _ _ _ _ _ _ _ hhead hub => frame_completes hhead hub fun t hfr hframe hsent hrest =>
      ⟨hframe, by rw [hfr, taken_pherr], hsent, hrest⟩,
    fun _ _ _ _ _ _ _ _ hhead hub hst hal hlo hhi hmd => frame_completes hhead hub fun t hfr _ _ _ => by
      rw [hfr]
      exact taken_aligns hst hal hlo hhi hmd,
    fun _ _ _ _ _ _ _ _ hhead hub h => frame_completes hhead hub fun t hfr _ _ _ => by
      rw [hfr]
      exact taken_offset h,
    fun _ _ _ _ _ _ _ _ h => frame_ignored h, fun _ hhead hst hout => alignmentLost_counts hhead hst hout,
    fun _ h => alignmentLost_ignored h⟩

end Sys2Proof.Machine
end

section
/-! SNAP (R49, R50, R68, R468). -/

namespace Sys2Proof.Machine

/-- A package that agrees but for its pages, its steward and its chain. -/
theorem eq_of_rest_sansChain {p q : Pkg} (h : q.rest.sansChain = p.rest.sansChain) :
    q = { p with pages := q.pages, stw := q.stw, chain := q.chain } := by
  have hq := congrArg (fun r : Pkg => { r with pages := q.pages, stw := q.stw, chain := q.chain }) h
  exact hq

/-- A chain trigger that the package has not seen is forwarded and remembered (R50). -/
def Pkg.snapSeen (p : Pkg) (md : Mode) (up : Bool) (m : ChainMsg) (orig target : Nat) : Pkg :=
  let q := if md.forwards then p.chainSend up m else p
  { q with stw := { q.stw with chainSeen := (orig, target) :: q.stw.chainSeen } }

section
variable (p : Pkg) (md : Mode) (up : Bool) (m : ChainMsg) (orig target : Nat)

@[simp] theorem snapSeen_stw : (p.snapSeen md up m orig target).stw =
    { p.stw with chainSeen := (orig, target) :: p.stw.chainSeen } := by
  unfold Pkg.snapSeen
  cases md.forwards <;> simp [chainSend_stw]

@[simp] theorem snapSeen_sent : (p.snapSeen md up m orig target).chain.sent =
    p.chain.sent ++ (if p.chUp up then (if md.forwards then [m] else []).map (fun m => (up, m)) else []) := by
  unfold Pkg.snapSeen
  cases md.forwards <;> simp

@[simp] theorem reg_snapSeen (pg off : Nat) : (p.snapSeen md up m orig target).reg pg off = p.reg pg off := by
  unfold Pkg.snapSeen
  cases md.forwards
  · rfl
  · exact reg_chainSend ..

theorem sansChain_snapSeen : (p.snapSeen md up m orig target).rest.sansChain = p.rest.sansChain := by
  unfold Pkg.snapSeen
  cases md.forwards
  · rfl
  · exact congrArg Pkg.rest (sansChain_chainSend p up m)

theorem snapSeen_head : (p.snapSeen md up m orig target).head = p.head := by
  have h := congrArg Pkg.head (sansChain_snapSeen p md up m orig target)
  exact h

theorem snapSeen_fr : (p.snapSeen md up m orig target).fr = p.fr := by
  have h := congrArg Pkg.fr (sansChain_snapSeen p md up m orig target)
  exact h

theorem snapSrc_snapSeen (b : Nat) : (p.snapSeen md up m orig target).snapSrc b = p.snapSrc b := by
  unfold Pkg.snapSeen
  cases md.forwards
  · rfl
  · exact snapSrc_chainSend ..

/-- A trigger for a frame to come is kept for its tick; one for a frame past latches late (R50, R68). -/
def Pkg.snapKeep (r : Pkg) (orig target : Nat) : Pkg :=
  let ahead := (target + 2 ^ 48 - (r.frameNum + r.fr.ofs.toNat) % 2 ^ 48) % 2 ^ 48
  if 1 ≤ ahead ∧ ahead < 2 ^ 47 then { r with stw := { r.stw with chainPend := r.stw.chainPend ++ [(orig, target, 16)] } }
  else { r with stw := { r.stw with latches := r.stw.latches ++ [(false, 16, true)] } }

/-- What a package does with a trigger that is new to it: it drops it, leaves it, or keeps or latches it (R50, R68). -/
def Pkg.snapAct (q : Pkg) (orig target : Nat) : Pkg :=
  if !q.head && q.fr.state == 0 then q.addRf pgSTW 0x358 23 16 1
  else if !q.snapSrc 4 then q
  else (q.setReg pgSTW 0x360 (word [(48, orig), (0, target)])).snapKeep orig target

variable {p md up m orig target}

theorem snapReceive_new (hnew : (orig, target) ∉ p.stw.chainSeen) :
    p.snapReceive md up m orig target = (p.snapSeen md up m orig target).snapAct orig target := by
  rw [Pkg.snapReceive, if_neg (by simpa using hnew)]
  rfl

end

section
variable (q : Pkg) (orig target : Nat)

theorem snapKeep_keeps : (q.snapKeep orig target).rest = q.rest ∧ (q.snapKeep orig target).pages = q.pages ∧
    (q.snapKeep orig target).stw.chainSeen = q.stw.chainSeen ∧
    ((orig, target, 16) ∈ (q.snapKeep orig target).stw.chainPend ∨ (false, 16, true) ∈ (q.snapKeep orig target).stw.latches) := by
  unfold Pkg.snapKeep
  extract_lets ahead
  split
  · exact ⟨rfl, rfl, rfl, Or.inl (List.mem_append_right _ (List.mem_singleton.2 rfl))⟩
  · exact ⟨rfl, rfl, rfl, Or.inr (List.mem_append_right _ (List.mem_singleton.2 rfl))⟩

/-- What a trigger does touches the steward, with its page, alone. -/
theorem snapAct_keeps : (q.snapAct orig target).rest = q.rest ∧ (q.snapAct orig target).stw.chainSeen = q.stw.chainSeen := by
  unfold Pkg.snapAct
  split
  · exact ⟨rest_addRf .., by simp [Pkg.addRf, Pkg.setRf]⟩
  split
  · exact ⟨rfl, rfl⟩
  obtain ⟨hrest, -, hseen, -⟩ := snapKeep_keeps (q.setReg pgSTW 0x360 (word [(48, orig), (0, target)])) orig target
  exact ⟨hrest.trans (rest_setReg ..), hseen.trans (by rw [setReg_stw])⟩

variable {q orig target}

theorem snapAct_dropped (hhead : q.head = false) (hst : q.fr.state = 0) :
    q.snapAct orig target = q.addRf pgSTW 0x358 23 16 1 := by
  rw [Pkg.snapAct, if_pos (by simp [hhead, hst])]

theorem snapAct_latches (hsrc : q.snapSrc 4 = true) (h : q.head = true ∨ q.fr.state ≠ 0) :
    (q.snapAct orig target).reg pgSTW 0x360 = word [(48, orig), (0, target)] ∧
      ((orig, target, 16) ∈ (q.snapAct orig target).stw.chainPend ∨ (false, 16, true) ∈ (q.snapAct orig target).stw.latches) := by
  rw [Pkg.snapAct, if_neg (by rcases h with h | h <;> simp [h]), if_neg (by simp [hsrc])]
  obtain ⟨-, hpages, -, hin⟩ := snapKeep_keeps (q.setReg pgSTW 0x360 (word [(48, orig), (0, target)])) orig target
  refine ⟨?_, hin⟩
  rw [Pkg.reg, Pkg.page, hpages]
  show (q.setReg pgSTW 0x360 (word [(48, orig), (0, target)])).reg pgSTW 0x360 = _
  rw [reg_setReg, if_pos ⟨rfl, rfl⟩]

end

variable {s : State} {up : Bool} {orig : Fin 32} {target : BitVec 48} {gen : Byte} {wake : Bool}

theorem exec_snap (hub : s.pkg.pw.hubMain = true) (hnew : (orig.val, target.toNat) ∉ s.pkg.stw.chainSeen) :
    exec (.snap up orig target gen wake) s = .next { s with pkg := (
      (s.pkg.snapSeen s.mode.mode up ⟨none, orig.val, gen.toNat, wake, .snap orig.val target.toNat⟩ orig.val target.toNat).snapAct
        orig.val target.toNat) } := by
  show execSnap up orig target gen wake s = _
  rw [execSnap, upd_eq, if_pos hub, snapReceive_new hnew]

theorem snap_ignored (h : s.pkg.pw.hubMain = false ∨ (orig.val, target.toNat) ∈ s.pkg.stw.chainSeen) :
    exec (.snap up orig target gen wake) s = .next s := by
  show execSnap up orig target gen wake s = _
  rw [execSnap, upd_eq]
  split
  case isTrue hub =>
    have hseen := h.resolve_left (by simp [hub])
    rw [Pkg.snapReceive, if_pos (by simpa using hseen)]
  case isFalse => rfl

theorem snap_seen (hub : s.pkg.pw.hubMain = true) (hnew : (orig.val, target.toNat) ∉ s.pkg.stw.chainSeen) :
    Completes (.snap up orig target gen wake) s (fun t => (orig.val, target.toNat) ∈ t.pkg.stw.chainSeen ∧
      portSends s t up (if s.mode.mode.forwards then
        [ChainMsg.mk none orig.val gen.toNat wake (.snap orig.val target.toNat)] else []) ∧
      t = { s with pkg := { s.pkg with pages := t.pkg.pages, stw := t.pkg.stw, chain := t.pkg.chain } }) := by
  refine ⟨_, exec_snap hub hnew, ?_⟩
  obtain ⟨hrest, hseen⟩ := snapAct_keeps (s.pkg.snapSeen s.mode.mode up
    ⟨none, orig.val, gen.toNat, wake, .snap orig.val target.toNat⟩ orig.val target.toNat) orig.val target.toNat
  have hchain := congrArg Pkg.chain hrest
  refine ⟨by rw [hseen, snapSeen_stw]; simp, ?_, ?_⟩
  · exact (congrArg Chain.sent hchain).trans (snapSeen_sent s.pkg s.mode.mode up _ orig.val target.toNat)
  · have heq := eq_of_rest_sansChain ((congrArg Pkg.sansChain hrest).trans (sansChain_snapSeen ..))
    exact congrArg (fun q => { s with pkg := q }) heq

theorem snap_dropped (hub : s.pkg.pw.hubMain = true) (hnew : (orig.val, target.toNat) ∉ s.pkg.stw.chainSeen)
    (hhead : s.pkg.head = false) (hst : s.pkg.fr.state = 0) :
    Completes (.snap up orig target gen wake) s (fun t => t.pkg.stw.chainPend = s.pkg.stw.chainPend ∧
      t.pkg.stw.latches = s.pkg.stw.latches ∧
      t.pkg.rf pgSTW 0x358 23 16 = min (s.pkg.rf pgSTW 0x358 23 16 + 1) 255) := by
  refine ⟨_, exec_snap hub hnew, ?_⟩
  dsimp only
  rw [snapAct_dropped (by rw [snapSeen_head, hhead]) (by rw [snapSeen_fr, hst])]
  refine ⟨by simp [Pkg.addRf, Pkg.setRf], by simp [Pkg.addRf, Pkg.setRf], ?_⟩
  rw [rf_addRf_same, Pkg.rf, reg_snapSeen]
  rfl

theorem snap_acted (hub : s.pkg.pw.hubMain = true) (hnew : (orig.val, target.toNat) ∉ s.pkg.stw.chainSeen)
    (hsrc : s.pkg.snapSrc 4 = true) (h : s.pkg.head = true ∨ s.pkg.fr.state ≠ 0) :
    Completes (.snap up orig target gen wake) s (fun t =>
      t.pkg.reg pgSTW 0x360 = word [(48, orig.val), (0, target.toNat)] ∧
      ((orig.val, target.toNat, 16) ∈ t.pkg.stw.chainPend ∨ (false, 16, true) ∈ t.pkg.stw.latches)) := by
  refine ⟨_, exec_snap hub hnew, ?_⟩
  exact snapAct_latches (by rw [snapSrc_snapSeen, hsrc]) (by rwa [snapSeen_head, snapSeen_fr])

theorem snapRules_hold : snapRules :=
  ⟨fun _ _ _ _ _ _ h => snap_ignored h, fun _ _ _ _ _ _ hub hnew => snap_seen hub hnew,
    fun _ _ _ _ _ _ hub hnew hhead hst => snap_dropped hub hnew hhead hst,
    fun _ _ _ _ _ _ hub hnew hsrc h => snap_acted hub hnew hsrc h⟩

end Sys2Proof.Machine
end

section
/-! Messages that are addressed to a package (R463, R469 to R471). -/

namespace Sys2Proof.Machine

variable {s : State}

theorem chainDeliver_dead {p : Pkg} (h : p.pw.hubMain = false ∨ p.chainValid = false) (md : Mode) (m : ChainMsg) (f : Pkg → Pkg) :
    p.chainDeliver md m f = p := by
  rw [Pkg.chainDeliver, if_pos (by simpa using h)]

theorem chainDeliver_through {p : Pkg} {m : ChainMsg} {d : Nat} (hub : p.pw.hubMain = true) (hv : p.chainValid = true)
    (hdst : m.dst = some d) (hd : d ≠ p.chainAddr) (md : Mode) (f : Pkg → Pkg) :
    p.chainDeliver md m f = if md.forwards then p.chainSend (decide (p.chainAddr < d)) m else p := by
  rw [Pkg.chainDeliver, if_neg (by simp [hub, hv]), if_neg (by rw [hdst]; simpa using hd), Pkg.chainForward, hdst]
  simp [hv, hd]

theorem chainDeliver_here {p : Pkg} {m : ChainMsg} (hub : p.pw.hubMain = true) (hv : p.chainValid = true)
    (hdst : m.dst = some p.chainAddr) (md : Mode) (f : Pkg → Pkg) :
    p.chainDeliver md m f = f (if m.wake then p.wakeLatch 2 else p) := by
  rw [Pkg.chainDeliver, if_neg (by simp [hub, hv]), if_pos hdst]

/-- A row that is addressed to a package does nothing in one that the message does not reach. -/
theorem passedOn_dead {c : Instr} {m : ChainMsg} (hc : passedOn c = some m)
    (h : s.pkg.pw.hubMain = false ∨ s.pkg.chainValid = false) : exec c s = .next s := by
  have hdead : (!s.pkg.pw.hubMain) = true ∨ (!s.pkg.chainValid) = true := by simpa using h
  unfold passedOn at hc
  split at hc
  case h_1 up src dst gen wake wr off len mask pid tag bytes =>
    show execRreq up src dst gen wake wr off len mask pid tag bytes s = _
    rw [execRreq, upd_eq, if_pos (hdead.elim Or.inl fun hv => Or.inr (Or.inl hv))]
  case h_2 src dst gen wake tag st bytes =>
    show execRrsp src dst gen wake tag st bytes s = _
    rw [execRrsp, upd_eq, chainDeliver_dead h]
  case h_3 src dst gen wake slot ok =>
    show execMack src dst gen wake slot ok s = _
    rw [execMack, upd_eq, chainDeliver_dead h]
  case h_4 src dst gen wake slot srcNs peerNs lba seq sectors stack =>
    show execMirror src dst gen wake slot srcNs peerNs lba seq sectors stack s = _
    rw [execMirror, upd_eq, if_pos hdead]
  case h_5 => cases hc

/-- A row that is addressed to a package, and that no generation and no end of the chain refuses, is delivered. -/
theorem passedOn_delivered {c : Instr} {m : ChainMsg} {d : Nat} (hc : passedOn c = some m) (hdst : m.dst = some d)
    (hub : s.pkg.pw.hubMain = true) (hv : s.pkg.chainValid = true) (hgen : m.gen = s.pkg.chainGen)
    (hsuch : s.pkg.noSuch d = false) :
    ∃ f, exec c s = .next { s with pkg := s.pkg.chainDeliver s.mode.mode m f } := by
  have halive : ¬((!s.pkg.pw.hubMain) = true ∨ (!s.pkg.chainValid) = true) := by simp [hub, hv]
  unfold passedOn at hc
  split at hc
  case h_1 up src dst gen wake wr off len mask pid tag bytes =>
    split at hc
    case isTrue hlen =>
      obtain rfl := Option.some.inj hc
      obtain rfl := Option.some.inj hdst
      have hok : ¬(gen.toNat ≠ s.pkg.chainGen ∨ s.pkg.noSuch dst.val = true) :=
        not_or.2 ⟨not_not.2 hgen, Bool.eq_false_iff.1 hsuch⟩
      refine ⟨fun p => p.remoteReq s.mode up src.val wr off len mask.toNat tag bytes, ?_⟩
      show execRreq up src dst gen wake wr off len mask pid tag bytes s = _
      rw [execRreq, upd_eq, if_neg (by simp [hub, hv]; omega), if_neg hok]
      rfl
    case isFalse => cases hc
  case h_2 src dst gen wake tag st bytes =>
    obtain rfl := Option.some.inj hc
    exact ⟨_, rfl⟩
  case h_3 src dst gen wake slot ok =>
    obtain rfl := Option.some.inj hc
    exact ⟨_, rfl⟩
  case h_4 src dst gen wake slot srcNs peerNs lba seq sectors stack =>
    obtain rfl := Option.some.inj hc
    apply Exists.intro
    show execMirror src dst gen wake slot srcNs peerNs lba seq sectors stack s = _
    have hok : ¬gen.toNat ≠ s.pkg.chainGen := not_not.2 hgen
    rw [execMirror, upd_eq, if_neg halive, if_neg hok]
    rfl
  case h_5 => cases hc

theorem passedOn_forwarded {c : Instr} {m : ChainMsg} {d : Nat} (hc : passedOn c = some m) (hdst : m.dst = some d)
    (hd : d ≠ s.pkg.chainAddr) (hub : s.pkg.pw.hubMain = true) (hv : s.pkg.chainValid = true) (hgen : m.gen = s.pkg.chainGen)
    (hsuch : s.pkg.noSuch d = false) :
    Completes c s (fun t => OnlyChain s t ∧
      portSends s t (decide (s.pkg.chainAddr < d)) (if s.mode.mode.forwards then [m] else [])) := by
  obtain ⟨f, hf⟩ := passedOn_delivered hc hdst hub hv hgen hsuch
  refine ⟨_, hf, ?_⟩
  rw [chainDeliver_through hub hv hdst hd]
  cases hfwd : s.mode.mode.forwards
  · exact ⟨rfl, portSends_nil rfl⟩
  · exact ⟨onlyChain_of_sansChain (sansChain_chainSend ..), portSends_chainSend rfl rfl⟩

/-! ### Requests -/

/-- An answer changes the chain and what stands at the port. -/
theorem rrsp_eq (p : Pkg) (src tag st : Nat) (b : List Byte) (po : Bool) : p.rrsp src tag st b po = { p with
    chain := (p.rrsp src tag st b po).chain, out := (p.rrsp src tag st b po).out } := by
  simp only [Pkg.rrsp, Pkg.reply, Pkg.chainTo, Pkg.chainMsg]
  rw [chainSend_eq]

theorem rrsp_out (p : Pkg) (src tag st : Nat) (b : List Byte) (po : Bool) :
    (p.rrsp src tag st b po).out = some { tag := tag, status := st, bytes := b, poison := po } := rfl

theorem rrsp_hbm (p : Pkg) (src tag st : Nat) (b : List Byte) (po : Bool) : (p.rrsp src tag st b po).hbm = p.hbm := by
  rw [rrsp_eq]

section
variable {up : Bool} {src dst : Fin 32} {gen : Byte} {wake wr : Bool} {off len : Nat} {mask : Word} {pid : Pid} {tag : Nat}
  {bytes : List Byte}

/-- A request that is refused is answered with status 4 (R466, R471). -/
theorem rreq_refused (hub : s.pkg.pw.hubMain = true) (hv : s.pkg.chainValid = true) (hlo : 1 ≤ len) (hhi : off % 64 + len ≤ 64)
    (h : requestRefused s dst gen) :
    Completes (.rreq up src dst gen wake wr off len mask pid tag bytes) s (fun t => OnlyPkg s t ∧
      t.pkg.out = some { tag := tag, status := 4, bytes := [], poison := false } ∧ t.pkg.hbm = s.pkg.hbm) := by
  have h' : gen.toNat ≠ s.pkg.chainGen ∨ s.pkg.noSuch dst.val = true := h
  refine ⟨_, rfl, rfl, ?_⟩
  dsimp only
  rw [if_neg (by simp [hub, hv]; omega), if_pos h', rrsp_out, rrsp_hbm]
  refine ⟨rfl, ?_⟩
  split
  · exact wakeLatch_hbm ..
  · rfl

/-- A request that is not refused comes to the package it is addressed to. -/
theorem exec_rreq (hub : s.pkg.pw.hubMain = true) (hv : s.pkg.chainValid = true) (hdst : dst.val = s.pkg.chainAddr)
    (hlo : 1 ≤ len) (hhi : off % 64 + len ≤ 64) (h : ¬requestRefused s dst gen) :
    exec (.rreq up src dst gen wake wr off len mask pid tag bytes) s = .next { s with pkg := (
      (if wake then s.pkg.wakeLatch 2 else s.pkg).remoteReq s.mode up src.val wr off len mask.toNat tag bytes) } := by
  have h' : ¬(gen.toNat ≠ s.pkg.chainGen ∨ s.pkg.noSuch dst.val = true) := h
  show execRreq up src dst gen wake wr off len mask pid tag bytes s = _
  rw [execRreq, upd_eq, if_neg (by simp [hub, hv]; omega), if_neg h', chainDeliver_here hub hv (by rw [hdst])]

theorem cfg_wakeLatch (p : Pkg) (c pg off : Nat) : (p.wakeLatch c).cfg pg off = p.cfg pg off := by
  unfold Pkg.wakeLatch
  split <;> rfl

/-- A wake source changes no memory and nothing that is exported. -/
theorem exportAt_wake (w : Bool) : (if w then s.pkg.wakeLatch 2 else s.pkg).exportAt = s.pkg.exportAt := by
  cases w
  · rfl
  · funext src wr off len k
    simp only [Pkg.exportAt, if_true, cfg_wakeLatch]

theorem hbm_wake (w : Bool) : (if w then s.pkg.wakeLatch 2 else s.pkg).hbm = s.pkg.hbm := by
  cases w
  · rfl
  · exact wakeLatch_hbm ..

theorem not_serves_not {md : Mode} (h : md = .run ∨ md = .degraded ∨ md = .drizzle) :
    ¬(md ≠ .run ∧ md ≠ .degraded ∧ md ≠ .drizzle) := by
  rintro ⟨hr, hg, hz⟩
  exact h.elim hr fun h => h.elim hg hz

theorem remoteReq_mode {p : Pkg} {md : ModeState} (hr : md.mode ≠ .run) (hg : md.mode ≠ .degraded) (hz : md.mode ≠ .drizzle)
    (src mk : Nat) : p.remoteReq md up src wr off len mk tag bytes = p.rrsp src tag 3 [] false := by
  rw [Pkg.remoteReq, if_pos ⟨hr, hg, hz⟩]

theorem remoteReq_none {p : Pkg} {md : ModeState} {src mk : Nat} (hmd : md.mode = .run ∨ md.mode = .degraded ∨ md.mode = .drizzle)
    (hnone : (List.range 32).findSome? (p.exportAt src wr off len) = none) :
    (p.remoteReq md up src wr off len mk tag bytes).out = some { tag := tag, status := 1, bytes := [], poison := false } ∧
      (p.remoteReq md up src wr off len mk tag bytes).hbm = p.hbm := by
  rw [Pkg.remoteReq, if_neg (not_serves_not hmd), hnone]
  exact ⟨rrsp_out .., by rw [rrsp_hbm]; simp [Pkg.addRf, Pkg.setRf]⟩

theorem rreq_wrongMode (hub : s.pkg.pw.hubMain = true) (hv : s.pkg.chainValid = true) (hdst : dst.val = s.pkg.chainAddr)
    (hlo : 1 ≤ len) (hhi : off % 64 + len ≤ 64) (h : ¬requestRefused s dst gen)
    (hr : s.mode.mode ≠ .run) (hg : s.mode.mode ≠ .degraded) (hz : s.mode.mode ≠ .drizzle) :
    Completes (.rreq up src dst gen wake wr off len mask pid tag bytes) s (fun t => OnlyPkg s t ∧
      t.pkg.out = some { tag := tag, status := 3, bytes := [], poison := false } ∧ t.pkg.hbm = s.pkg.hbm) := by
  refine ⟨_, exec_rreq hub hv hdst hlo hhi h, rfl, ?_⟩
  dsimp only
  rw [remoteReq_mode hr hg hz, rrsp_out, rrsp_hbm, hbm_wake]
  exact ⟨rfl, rfl⟩

theorem rreq_noExport (hub : s.pkg.pw.hubMain = true) (hv : s.pkg.chainValid = true) (hdst : dst.val = s.pkg.chainAddr)
    (hlo : 1 ≤ len) (hhi : off % 64 + len ≤ 64) (h : ¬requestRefused s dst gen)
    (hmd : s.mode.mode = .run ∨ s.mode.mode = .degraded ∨ s.mode.mode = .drizzle)
    (hnone : (List.range 32).findSome? (s.pkg.exportAt src.val wr off len) = none) :
    Completes (.rreq up src dst gen wake wr off len mask pid tag bytes) s (fun t => OnlyPkg s t ∧
      t.pkg.out = some { tag := tag, status := 1, bytes := [], poison := false } ∧ t.pkg.hbm = s.pkg.hbm) := by
  obtain ⟨hout, hhbm⟩ := remoteReq_none (p := if wake then s.pkg.wakeLatch 2 else s.pkg) (up := up) (tag := tag)
    (mk := mask.toNat) (bytes := bytes) hmd (by rwa [exportAt_wake])
  exact ⟨_, exec_rreq hub hv hdst hlo hhi h, rfl, hout, hhbm.trans (hbm_wake wake)⟩

end

/-! ### A granted remote read -/

/-- A granted region maps an address to the same place in its line. -/
theorem exportAt_line {p : Pkg} {src off len k pa q : Nat} {wr : Bool} (h : p.exportAt src wr off len k = some (pa, q)) :
    pa % 64 = off % 64 := by
  simp only [Pkg.exportAt, Option.ite_none_right_eq_some, Option.some.injEq, Prod.mk.injEq] at h
  obtain ⟨⟨-, -, -, -, -, -, hle, -⟩, hpa, -⟩ := h
  omega

/-- A range inside a line is one part. -/
theorem lineParts_line {pa len : Nat} (hlo : 1 ≤ len) (hhi : pa % 64 + len ≤ 64) : lineParts pa len = [(pa, len)] := by
  have hone : (pa + len - 1) / 64 + 1 - pa / 64 = 1 := by omega
  rw [lineParts, if_neg (by omega), hone]
  simp only [List.range_one, List.map_cons, List.map_nil, Nat.add_zero, List.cons.injEq, and_true, Prod.mk.injEq]
  omega

/-- A read inside a line is one access. -/
theorem readParts_line {p p1 : Pkg} {agent pid pa len : Nat} {b : List Byte} {po : Bool} (hlo : 1 ≤ len)
    (hhi : pa % 64 + len ≤ 64) (h : p.ioRead agent pid pa len = (.done b po, p1)) :
    p.readParts agent pid [(pa, len)] = (.done b po, p1) := by
  simp [Pkg.readParts, Pkg.ioReadRange, lineParts_line hlo hhi, h]

theorem evCount_inq (p : Pkg) (die : Option Nat) (ev inst : Nat) (pid : Option Nat) (net k : Nat) :
    (p.evCount die ev inst pid net k).inq = p.inq := by
  unfold Pkg.evCount
  split
  split
  · rfl
  · refine foldl_keeps Pkg.inq (fun q i => ?_) _ _
    dsimp only
    split <;> rfl

theorem rreq_read {up : Bool} {src dst : Fin 32} {gen : Byte} {wake : Bool} {off len : Nat} {mask : Word} {pid : Pid} {tag : Nat}
    {bytes : List Byte} {pa q : Nat} {b : List Byte} {poison : Bool} {p : Pkg} (hub : s.pkg.pw.hubMain = true)
    (hv : s.pkg.chainValid = true) (hdst : dst.val = s.pkg.chainAddr) (hlo : 1 ≤ len) (hhi : off % 64 + len ≤ 64)
    (hwake : wake = false) (hgen : gen.toNat = s.pkg.chainGen) (hsuch : s.pkg.noSuch dst.val = false)
    (hmd : s.mode.mode = .run ∨ s.mode.mode = .degraded ∨ s.mode.mode = .drizzle)
    (hexp : (List.range 32).findSome? (s.pkg.exportAt src.val false off len) = some (pa, q))
    (hwait : s.pkg.inWaits (if up then 0x1C else 0x1D) = false)
    (hread : (s.pkg.evCount none 13 0 (some q) 4 1).ioRead (if up then 0x1C else 0x1D) q pa len = (.done b poison, p)) :
    Completes (.rreq up src dst gen wake false off len mask pid tag bytes) s (fun t =>
      t.pkg.out = some { tag := tag, status := if poison then 2 else 0, bytes := b, poison := poison } ∧
      t = { s with pkg := { p with chain := t.pkg.chain, out := t.pkg.out } }) := by
  subst hwake
  have hok : ¬requestRefused s dst gen := by simp [requestRefused, hgen, hsuch]
  obtain ⟨k, -, hk⟩ := List.exists_of_findSome?_eq_some hexp
  have hparts := readParts_line hlo (by rw [exportAt_line hk]; exact hhi) hread
  have hwait' : (s.pkg.evCount none 13 0 (some q) 4 1).inWaits (if up then 0x1C else 0x1D) = false := by
    rw [Pkg.inWaits, evCount_inq]
    exact hwait
  have hreq : s.pkg.remoteReq s.mode up src.val false off len mask.toNat tag bytes =
      p.rrsp src.val tag (if poison then 2 else 0) b poison := by
    rw [Pkg.remoteReq, if_neg (not_serves_not hmd), hexp]
    dsimp only
    rw [Pkg.inTake, if_neg (by rw [hwait']; exact Bool.false_ne_true)]
    simp only [Pkg.inTry, Bool.false_eq_true, if_false, hparts]
    rfl
  refine ⟨_, exec_rreq hub hv hdst hlo hhi hok, ?_⟩
  have hout := rrsp_out p src.val tag (if poison then 2 else 0) b poison
  have hrest := rrsp_eq p src.val tag (if poison then 2 else 0) b poison
  rw [if_neg Bool.false_ne_true, hreq]
  generalize p.rrsp src.val tag (if poison then 2 else 0) b poison = r at hout hrest ⊢
  have hstate := congrArg (fun r => ({ s with pkg := r } : State)) hrest
  exact ⟨hout, hstate⟩

end Sys2Proof.Machine
end

section
/-! Answers to a core (R469, R471), and the chain as a whole. -/

namespace Sys2Proof.Machine

/-- What an answer does to an access: one with its tag that waits in its window ends. -/
def IoAcc.answered (inWin : Nat → Bool) (tag : Nat) (ans : Option (List Byte × Bool)) (a : IoAcc) : IoAcc :=
  if a.tag = tag ∧ inWin a.pa ∧ a.answer = none then { a with answer := some ans } else a

/-- What an answer does to one logical core. -/
def Pkg.coreAnswerAt (inWin : Nat → Bool) (tag : Nat) (ans : Option (List Byte × Bool)) (p : Pkg) (lc : Nat) : Pkg :=
  let c := p.core lc
  if c.io.any (fun a => a.tag == tag && inWin a.pa && a.answer.isNone) then
    p.setCore lc { c with io := c.io.map (IoAcc.answered inWin tag ans) }
  else
    match c.posted.find? (fun a => a.tag == tag && inWin a.pa) with
    | some a => p.setCore lc { c with posted := c.posted.erase a, failed := if ans.isNone then c.failed ++ [a.pa] else c.failed }
    | none => p

theorem coreAnswer_eq (p : Pkg) (inWin : Nat → Bool) (tag : Nat) (ans : Option (List Byte × Bool)) :
    p.coreAnswer inWin tag ans = (List.range 216).foldl (Pkg.coreAnswerAt inWin tag ans) p := rfl

/-- The package but for its cores and its power state. -/
def Pkg.sansCores (p : Pkg) : Pkg := { p with cores := [], pw := Power.off }

section
variable {inWin : Nat → Bool} {tag : Nat} {ans : Option (List Byte × Bool)} (p : Pkg) (lc : Nat)

theorem coreAnswerAt_other {k : Nat} (h : k ≠ lc) : (p.coreAnswerAt inWin tag ans lc).core k = p.core k := by
  unfold Pkg.coreAnswerAt
  dsimp only
  split
  · exact core_setCore_other p _ h
  split
  · exact core_setCore_other p _ h
  · rfl

theorem sansCores_coreAnswerAt : (p.coreAnswerAt inWin tag ans lc).sansCores = p.sansCores := by
  unfold Pkg.coreAnswerAt
  dsimp only
  split
  · rfl
  split <;> rfl

variable {p lc}

theorem coreAnswerAt_io (h : (p.core lc).io.any (fun a => a.tag == tag && inWin a.pa && a.answer.isNone) = true) :
    ((p.coreAnswerAt inWin tag ans lc).core lc).io = (p.core lc).io.map (IoAcc.answered inWin tag ans) := by
  rw [Pkg.coreAnswerAt, if_pos h, core_setCore_same]

/-- The answer ends the accesses of the core that wait for it. -/
theorem coreAnswer_io (hlc : lc < 216)
    (h : (p.core lc).io.any (fun a => a.tag == tag && inWin a.pa && a.answer.isNone) = true) :
    ((p.coreAnswer inWin tag ans).core lc).io = (p.core lc).io.map (IoAcc.answered inWin tag ans) := by
  obtain ⟨r, -, hcore, hfold⟩ := foldl_at_mem (get := Pkg.core) (fun p i _ => coreAnswerAt_other p i) Pkg.sansCores
    (sansCores_coreAnswerAt (inWin := inWin) (tag := tag) (ans := ans)) List.nodup_range (List.mem_range.2 hlc) p
  have hwaits := hcore.symm ▸ h
  rw [coreAnswer_eq, hfold, coreAnswerAt_io hwaits, hcore]

end

theorem sansCores_coreAnswer (p : Pkg) (inWin : Nat → Bool) (tag : Nat) (ans : Option (List Byte × Bool)) :
    (p.coreAnswer inWin tag ans).sansCores = p.sansCores :=
  foldl_keeps Pkg.sansCores sansCores_coreAnswerAt _ _

theorem sansCores_wakeLatch (p : Pkg) (c : Nat) : (p.wakeLatch c).sansCores = p.sansCores := by
  unfold Pkg.wakeLatch
  split <;> rfl

theorem eq_of_sansCores {p q : Pkg} (h : q.sansCores = p.sansCores) : q = { p with cores := q.cores, pw := q.pw } := by
  have hq := congrArg (fun r : Pkg => { r with cores := q.cores, pw := q.pw }) h
  exact hq

variable {s : State}

/-- An answer ends the access of a core that waits for it (R469, R471). -/
theorem rrsp_answers {src dst : Fin 32} {gen : Byte} {wake : Bool} {tag : Nat} {st : Fin 8} {bytes : List Byte} {lc : Lc}
    (hub : s.pkg.pw.hubMain = true) (hv : s.pkg.chainValid = true) (hdst : dst.val = s.pkg.chainAddr)
    (h : (s.pkg.core lc.val).io.any (fun a => a.tag == tag && inChainOf src.val a.pa && a.answer.isNone) = true) :
    Completes (.rrsp src dst gen wake tag st bytes) s (fun t => (t.pkg.core lc.val).io = (s.pkg.core lc.val).io.map (fun a =>
      if a.tag = tag ∧ inChainOf src.val a.pa ∧ a.answer = none then
        { a with answer := some (if st.val = 0 then some (bytes, false) else if st.val = 2 then some (bytes, true) else none) }
      else a) ∧ t = { s with pkg := { s.pkg with cores := t.pkg.cores, pw := t.pkg.pw } }) := by
  refine ⟨_, rfl, ?_⟩
  dsimp only
  rw [chainDeliver_here hub hv (by rw [hdst])]
  have hcore : (if wake then s.pkg.wakeLatch 2 else s.pkg).core lc.val = s.pkg.core lc.val := by
    cases wake
    · rfl
    · simp [Pkg.core]
  have hsans : (if wake then s.pkg.wakeLatch 2 else s.pkg).sansCores = s.pkg.sansCores := by
    cases wake
    · rfl
    · exact sansCores_wakeLatch ..
  generalize (if wake then s.pkg.wakeLatch 2 else s.pkg) = p at hcore hsans ⊢
  refine ⟨?_, ?_⟩
  · rw [coreAnswer_io lc.isLt (by rwa [hcore]), hcore]
    rfl
  · have hpkg := eq_of_sansCores ((sansCores_coreAnswer p (inChainOf src.val) tag
      (if st.val = 0 then some (bytes, false) else if st.val = 2 then some (bytes, true) else none)).trans hsans)
    exact congrArg (fun q => ({ s with pkg := q } : State)) hpkg

/-- Settles O53: each message by its own rule, for every state of the package that takes it. -/
theorem chainMessagesTakeEffect : Obligations.ChainMessagesTakeEffect :=
  ⟨enumerationRules_hold, frameRules_hold, snapRules_hold,
    fun _ _ _ _ hc hdst hd hub hv hgen hsuch => passedOn_forwarded hc hdst hd hub hv hgen hsuch,
    fun _ _ _ hc h => passedOn_dead hc h,
    fun _ _ _ _ _ _ _ _ _ _ _ _ _ _ _ _ _ hub hv hdst hlo hhi hwake hgen hsuch hmd hexp hwait hread =>
      rreq_read hub hv hdst hlo hhi hwake hgen hsuch hmd hexp hwait hread,
    fun _ _ _ _ _ _ _ _ _ _ _ _ _ hub hv hlo hhi h => rreq_refused hub hv hlo hhi h,
    fun _ _ _ _ _ _ _ _ _ _ _ _ _ hub hv hdst hlo hhi h =>
      ⟨fun hr hg hz => rreq_wrongMode hub hv hdst hlo hhi h hr hg hz,
        fun hmd hnone => rreq_noExport hub hv hdst hlo hhi h hmd hnone⟩,
    fun _ _ _ _ _ _ _ _ _ hub hv hdst h => rrsp_answers hub hv hdst h⟩

end Sys2Proof.Machine
end

section
/-! Arming pages (R48, R52). -/

namespace Sys2Proof.Machine

variable (p : Pkg)

/-- The package but for its pages. -/
def Pkg.sansPages (p : Pkg) : Pkg := { p with pages := [] }

@[simp] theorem sansPages_setPage (pg : Nat) (x : Page) : (p.setPage pg x).sansPages = p.sansPages := rfl
@[simp] theorem sansPages_setReg (pg off : Nat) (v : Word) : (p.setReg pg off v).sansPages = p.sansPages := rfl
@[simp] theorem sansPages_setRf (pg off hi lo v : Nat) : (p.setRf pg off hi lo v).sansPages = p.sansPages := rfl
@[simp] theorem sansPages_addRf (pg off hi lo k : Nat) : (p.addRf pg off hi lo k).sansPages = p.sansPages := rfl

/-- What is told by the rest of the package. -/
theorem rest_of_sansPages {p q : Pkg} (h : q.sansPages = p.sansPages) : q.rest = p.rest := by
  have hq := congrArg (fun r : Pkg => { r with stw := Steward.reset }) h
  exact hq

theorem stw_of_sansPages {p q : Pkg} (h : q.sansPages = p.sansPages) : q.stw = p.stw := by
  have hq := congrArg Pkg.stw h
  exact hq

theorem powered_of_rest {p q : Pkg} (h : q.rest = p.rest) (pg : Nat) : q.powered pg = p.powered pg := by
  have hq := congrArg (fun r : Pkg => r.powered pg) h
  exact hq

theorem frameNum_of_rest {p q : Pkg} (h : q.rest = p.rest) : q.frameNum = p.frameNum := by
  have hq := congrArg Pkg.frameNum h
  exact hq

theorem reg_of_page {p q : Pkg} {pg : Nat} (h : q.page pg = p.page pg) (off : Nat) : q.reg pg off = p.reg pg off := by
  rw [Pkg.reg, Pkg.reg, h]

/-- A register of another page or place leaves the page, and every write of one leaves the window. -/
theorem page_setReg_other {pg q : Nat} (off : Nat) (v : Word) (h : q ≠ pg) : (p.setReg pg off v).page q = p.page q := by
  rw [Pkg.setReg, page_setPage_other _ _ h]

@[simp] theorem window_setReg (pg off : Nat) (v : Word) (q : Nat) :
    ((p.setReg pg off v).page q).window = (p.page q).window := by
  by_cases h : q = pg
  · subst h
    rw [Pkg.setReg, page_setPage_same]
  · rw [page_setReg_other p off v h]

@[simp] theorem window_setRf (pg off hi lo v q : Nat) : ((p.setRf pg off hi lo v).page q).window = (p.page q).window :=
  window_setReg ..

@[simp] theorem window_addRf (pg off hi lo k q : Nat) : ((p.addRf pg off hi lo k).page q).window = (p.page q).window :=
  window_setRf ..

/-! ### ARM -/

theorem armPage_armed {pg : Nat} (h : bit (p.reg pg 0x048) 0 = true) : p.armPage pg = p := by
  rw [Pkg.armPage, if_pos h]

theorem armPage_unarmed {pg : Nat} (h : bit (p.reg pg 0x048) 0 = false) :
    p.armPage pg = (p.setRf pg 0x048 15 8 0).setRf pg 0x048 0 0 1 := by
  rw [Pkg.armPage, if_neg (by simp [h])]

@[simp] theorem sansPages_armPage (pg : Nat) : (p.armPage pg).sansPages = p.sansPages := by
  unfold Pkg.armPage
  split <;> simp

theorem page_armPage_other {pg q : Nat} (h : q ≠ pg) : (p.armPage pg).page q = p.page q := by
  unfold Pkg.armPage
  split
  · rfl
  · rw [Pkg.setRf, page_setReg_other _ _ _ h, Pkg.setRf, page_setReg_other _ _ _ h]

/-- The page is armed, and one that was not has no missed triggers. -/
theorem armPage_arms (pg : Nat) : bit ((p.armPage pg).reg pg 0x048) 0 = true ∧
    (bit (p.reg pg 0x048) 0 = false → (p.armPage pg).rf pg 0x048 15 8 = 0) := by
  cases h : bit (p.reg pg 0x048) 0 with
  | true => exact ⟨by rw [armPage_armed p h, h], nofun⟩
  | false =>
    rw [armPage_unarmed p h]
    refine ⟨by rw [bit_setRf_same]; rfl, fun _ => ?_⟩
    rw [rf_setRf_fld _ _ _ _ (by decide) (by decide) (by decide) (by decide), rf_setRf_same]
    rfl

/-! ### Pages one after another -/

/-- The pages of the package are distinct. -/
theorem allPages_nodup : allPages.Nodup := by
  have h : allPages.IsChain (· < ·) := by decide +kernel
  exact (List.isChain_iff_pairwise.1 h).imp Nat.ne_of_lt

/-- A pass over all pages, each step of which changes the registers of its own page alone. -/
structure PagePass (f : Pkg → Nat → Pkg) : Prop where
  own : ∀ p pg, (f p pg).sansPages = p.sansPages
  other : ∀ p pg q, q ≠ pg → (f p pg).page q = p.page q
  unpowered : ∀ p pg, p.powered pg = false → f p pg = p

section
variable {f : Pkg → Nat → Pkg} (hf : PagePass f)
include hf

theorem PagePass.sansPages (l : List Nat) : (l.foldl f p).sansPages = p.sansPages :=
  foldl_keeps Pkg.sansPages hf.own l p

/-- Each page of the package ends as its own step leaves it. -/
theorem PagePass.at_page {pg : Nat} (h : pg ∈ allPages) :
    ∃ r, r.sansPages = p.sansPages ∧ r.page pg = p.page pg ∧ (allPages.foldl f p).page pg = (f r pg).page pg :=
  foldl_at_mem (get := Pkg.page) hf.other Pkg.sansPages hf.own allPages_nodup h p

theorem PagePass.page_unpowered {pg : Nat} (h : p.powered pg = false) : (allPages.foldl f p).page pg = p.page pg := by
  by_cases hpg : pg ∈ allPages
  · obtain ⟨r, hr, hpage, hfold⟩ := hf.at_page p hpg
    have hpow := (powered_of_rest (rest_of_sansPages hr) pg).trans h
    rw [hfold, hf.unpowered r pg hpow, hpage]
  · exact foldl_at_not_mem (get := Pkg.page) hf.other hpg p

end

/-- Re-arming a page, when it is powered. -/
def Pkg.rearmPage (p : Pkg) (pg : Nat) : Pkg := if p.powered pg then p.armPage pg else p

theorem rearmPage_pass : PagePass Pkg.rearmPage where
  own p pg := by
    unfold Pkg.rearmPage
    split <;> simp
  other p pg q h := by
    unfold Pkg.rearmPage
    split
    · exact page_armPage_other p h
    · rfl
  unpowered p pg h := by rw [Pkg.rearmPage, if_neg (by simp [h])]

/-- A re-arm waits for a tick that has come. -/
def Pkg.rearmDue (p : Pkg) : Prop := p.stw.armAll = true ∧ p.isRipe .rearm 0 = true

theorem rearm_idle {p : Pkg} (h : ¬p.rearmDue) : p.rearm = p := by
  rw [Pkg.rearm, if_neg (by simpa [Pkg.rearmDue] using h)]

/-- The re-arm has been carried out. -/
def Pkg.rearmed (p : Pkg) : Pkg := { p with stw := { p.stw with armAll := false } }

theorem rearmed_keeps {p q : Pkg} (h : q.sansPages = p.sansPages) : q.rearmed.rest = p.rest ∧
    q.rearmed.stw = { p.stw with armAll := false } ∧ ∀ pg, q.rearmed.page pg = q.page pg := by
  have hrest : q.rest = p.rest := rest_of_sansPages h
  have hstw : q.stw = p.stw := stw_of_sansPages h
  exact ⟨hrest, congrArg (fun x : Steward => { x with armAll := false }) hstw, fun _ => rfl⟩

theorem rearm_due {p : Pkg} (h : p.rearmDue) : p.rearm = (allPages.foldl Pkg.rearmPage p).rearmed := by
  rw [Pkg.rearm, if_pos (by simpa [Pkg.rearmDue] using h)]
  generalize allPages = l
  rfl

/-- Of a due re-arm only the pages and its own flag show. -/
theorem rearm_due_keeps {p : Pkg} (h : p.rearmDue) : p.rearm.rest = p.rest ∧ p.rearm.stw = { p.stw with armAll := false } ∧
    ∀ pg, p.rearm.page pg = (allPages.foldl Pkg.rearmPage p).page pg := by
  rw [rearm_due h]
  exact rearmed_keeps (rearmPage_pass.sansPages p allPages)

theorem rest_rearm : p.rearm.rest = p.rest := by
  by_cases h : p.rearmDue
  · exact (rearm_due_keeps h).1
  · rw [rearm_idle h]

theorem page_rearm_unpowered {pg : Nat} (hpow : p.powered pg = false) : p.rearm.page pg = p.page pg := by
  by_cases h : p.rearmDue
  · obtain ⟨-, -, hpage⟩ := rearm_due_keeps h
    rw [hpage, rearmPage_pass.page_unpowered p hpow]
  · rw [rearm_idle h]

/-- A due re-arm arms every powered page (R52). -/
theorem rearm_arms {p : Pkg} (h : p.rearmDue) {pg : Nat} (hpg : pg ∈ allPages) (hpow : p.powered pg = true) :
    bit (p.rearm.reg pg 0x048) 0 = true ∧ (bit (p.reg pg 0x048) 0 = false → p.rearm.rf pg 0x048 15 8 = 0) := by
  obtain ⟨r, hr, hpage, hfold⟩ := rearmPage_pass.at_page p hpg
  obtain ⟨-, -, hrearm⟩ := rearm_due_keeps h
  rw [Pkg.rearmPage, if_pos ((powered_of_rest (rest_of_sansPages hr) pg).trans hpow)] at hfold
  have hreg := reg_of_page ((hrearm pg).trans hfold) 0x048
  have harms := armPage_arms r pg
  rw [Pkg.rf, ← hreg, reg_of_page hpage] at harms
  exact harms

end Sys2Proof.Machine
end

section
/-! The latch (R47 to R53). -/

namespace Sys2Proof.Machine

variable (p : Pkg) (md : ModeState) (pos pg : Nat)

/-! ### One page at a latch edge -/

/-- The page of an armed page that latches: its picture stands, the page is disarmed, and the edge is noted. -/
def Pkg.latched (p : Pkg) (md : ModeState) (pos pg : Nat) : Pkg :=
  (((p.setPage pg { p.page pg with window := p.pictureOf md pos pg }).setRf pg 0x048 2 2 1).setRf pg 0x048 0 0 0).setReg pg 0x050
    (word [(16, p.frameNum), (0, pos)])

theorem latchPage_unpowered (h : p.powered pg = false) : p.latchPage md pos pg = p := by
  unfold Pkg.latchPage
  simp only [h, Bool.false_eq_true, if_false, Bool.not_false, if_true, ite_self]

theorem latchPage_armed (hpow : p.powered pg = true) (h : bit (p.reg pg 0x048) 0 = true) :
    p.latchPage md pos pg = p.latched md pos pg := by
  rw [Pkg.latchPage, if_neg (by simp [h]), if_neg (by simp [hpow])]
  rfl

theorem latchPage_missed (hpow : p.powered pg = true) (h : bit (p.reg pg 0x048) 0 = false) :
    p.latchPage md pos pg = p.addRf pg 0x048 15 8 1 := by
  rw [Pkg.latchPage, if_pos (by simp [h]), if_pos hpow]

theorem page_latched_other {q : Nat} (h : q ≠ pg) : (p.latched md pos pg).page q = p.page q := by
  rw [Pkg.latched, page_setReg_other _ _ _ h, Pkg.setRf, page_setReg_other _ _ _ h, Pkg.setRf, page_setReg_other _ _ _ h,
    page_setPage_other _ _ h]

theorem latchPage_pass : PagePass (fun p pg => p.latchPage md pos pg) where
  own p pg := by
    cases hpow : p.powered pg with
    | false => rw [latchPage_unpowered _ _ _ _ hpow]
    | true =>
      cases h : bit (p.reg pg 0x048) 0 with
      | false => rw [latchPage_missed _ _ _ _ hpow h, sansPages_addRf]
      | true => rw [latchPage_armed _ _ _ _ hpow h, Pkg.latched]; simp
  other p pg q hq := by
    cases hpow : p.powered pg with
    | false => rw [latchPage_unpowered _ _ _ _ hpow]
    | true =>
      cases h : bit (p.reg pg 0x048) 0 with
      | false => rw [latchPage_missed _ _ _ _ hpow h, Pkg.addRf, Pkg.setRf, page_setReg_other _ _ _ hq]
      | true => rw [latchPage_armed _ _ _ _ hpow h, page_latched_other _ _ _ _ hq]
  unpowered p pg := latchPage_unpowered p md pos pg

/-- An armed page is disarmed and holds the frame and the place in it. -/
theorem latched_page : bit ((p.latched md pos pg).reg pg 0x048) 0 = false ∧ bit ((p.latched md pos pg).reg pg 0x048) 2 = true ∧
    (p.latched md pos pg).reg pg 0x050 = word [(16, p.frameNum), (0, pos)] := by
  unfold Pkg.latched
  rw [reg_setReg, if_neg (by omega), reg_setReg, if_pos ⟨rfl, rfl⟩, bit_setRf_same, bit_setRf_fld, bit_setRf_same]
  exact ⟨rfl, rfl, rfl⟩

/-! ### SNAPCAUSE -/

/-- A bit of a field that begins at bit 0. -/
theorem bit_eq_testBit_fld (w : Word) {hi k : Nat} (h : k ≤ hi) : bit w k = (fld w hi 0).testBit k := by
  have hk : k < hi + 1 := by omega
  simp [bit, fld, BitVec.getLsbD, Nat.testBit_mod_two_pow, hk]

/-- A bit is set in a union when it is set in one of the sources. -/
theorem testBit_foldl_or (l : List (Bool × Nat × Bool)) (a k : Nat) :
    (l.foldl (fun (a : Nat) e => a ||| e.2.1) a).testBit k = (a.testBit k || l.any (fun e => e.2.1.testBit k)) := by
  induction l generalizing a with
  | nil => simp
  | cons e l ih => simp [ih, Bool.or_assoc]

/-- SNAPCAUSE of the sources that fix one edge (R51, R53). -/
def Pkg.snapCause (p : Pkg) (due : List (Bool × Nat × Bool)) : Pkg :=
  (p.setRf pgSTW 0x358 4 0 (due.foldl (fun (a : Nat) e => a ||| e.2.1) 0)).setRf pgSTW 0x358 8 8
    (due.any (fun e => e.2.2)).toNat

theorem snapCause_bit (due : List (Bool × Nat × Bool)) {k : Nat} (hk : k < 5) :
    bit ((p.snapCause due).reg pgSTW 0x358) k = due.any (fun e => e.2.1.testBit k) := by
  rw [Pkg.snapCause, bit_setRf_fld _ _ _ _ (by decide) (by decide) (Or.inl (by omega)),
    bit_eq_testBit_fld _ (show k ≤ 4 by omega)]
  show (Pkg.rf _ _ _ _ _).testBit k = _
  rw [rf_setRf_same, Nat.testBit_mod_two_pow, testBit_foldl_or]
  simp [hk]

theorem snapCause_late (due : List (Bool × Nat × Bool)) :
    bit ((p.snapCause due).reg pgSTW 0x358) 8 = due.any (fun e => e.2.2) := by
  rw [Pkg.snapCause, bit_setRf_same]
  cases due.any (fun e => e.2.2) <;> rfl

theorem sansPages_snapCause (due : List (Bool × Nat × Bool)) : (p.snapCause due).sansPages = p.sansPages := by
  simp [Pkg.snapCause]

theorem reg_snapCause (due : List (Bool × Nat × Bool)) {q o : Nat} (h : o ≠ 0x358) : (p.snapCause due).reg q o = p.reg q o := by
  rw [Pkg.snapCause, reg_setRf _ _ _ _ (Or.inr h), reg_setRf _ _ _ _ (Or.inr h)]

theorem window_snapCause (due : List (Bool × Nat × Bool)) (q : Nat) :
    ((p.snapCause due).page q).window = (p.page q).window := by simp [Pkg.snapCause]

theorem page_snapCause_other (due : List (Bool × Nat × Bool)) {q : Nat} (h : q ≠ pgSTW) :
    (p.snapCause due).page q = p.page q := by
  rw [Pkg.snapCause, Pkg.setRf, page_setReg_other _ _ _ h, Pkg.setRf, page_setReg_other _ _ _ h]

/-! ### The latch edge of the package -/

/-- Every page at a latch edge. -/
def Pkg.latchAll (p : Pkg) (md : ModeState) (pos : Nat) : Pkg := allPages.foldl (fun p pg => p.latchPage md pos pg) p

/-- The latch edges have come. -/
def Pkg.edged (p : Pkg) (left : List (Bool × Nat × Bool)) (pos : Nat) : Pkg :=
  { p with stw := { p.stw with latches := left, lastEdge := some (p.frameNum, pos) } }

theorem rest_edged (left : List (Bool × Nat × Bool)) : (p.edged left pos).rest = p.rest := rfl

theorem page_edged (left : List (Bool × Nat × Bool)) (q : Nat) : (p.edged left pos).page q = p.page q := rfl

theorem reg_edged (left : List (Bool × Nat × Bool)) (q o : Nat) : (p.edged left pos).reg q o = p.reg q o := by
  rw [Pkg.reg, page_edged, Pkg.reg]

theorem rf_edged (left : List (Bool × Nat × Bool)) (q o hi lo : Nat) :
    (p.edged left pos).rf q o hi lo = p.rf q o hi lo := by rw [Pkg.rf, reg_edged, Pkg.rf]

theorem sansPages_latchAll : (p.latchAll md pos).sansPages = p.sansPages := (latchPage_pass md pos).sansPages p allPages

/-- A powered page that is armed when the edge comes. -/
theorem latchAll_armed {pg : Nat} (hpg : pg ∈ allPages) (hpow : p.powered pg = true) (h : bit (p.reg pg 0x048) 0 = true) :
    bit ((p.latchAll md pos).reg pg 0x048) 0 = false ∧ bit ((p.latchAll md pos).reg pg 0x048) 2 = true ∧
      (p.latchAll md pos).reg pg 0x050 = word [(16, p.frameNum), (0, pos)] := by
  obtain ⟨r, hr, hpage, hfold⟩ := (latchPage_pass md pos).at_page p hpg
  have hrest := rest_of_sansPages hr
  have harmed : bit (r.reg pg 0x048) 0 = true := by rw [reg_of_page hpage, h]
  rw [latchPage_armed r md pos pg ((powered_of_rest hrest pg).trans hpow) harmed] at hfold
  rw [← frameNum_of_rest hrest, Pkg.latchAll, reg_of_page hfold, reg_of_page hfold]
  exact latched_page r md pos pg

/-- A powered page that is not armed counts the trigger as missed. -/
theorem latchAll_missed {pg : Nat} (hpg : pg ∈ allPages) (hpow : p.powered pg = true) (h : bit (p.reg pg 0x048) 0 = false) :
    ((p.latchAll md pos).page pg).window = (p.page pg).window ∧
      (p.latchAll md pos).rf pg 0x048 15 8 = min (p.rf pg 0x048 15 8 + 1) 255 := by
  obtain ⟨r, hr, hpage, hfold⟩ := (latchPage_pass md pos).at_page p hpg
  have hunarmed : bit (r.reg pg 0x048) 0 = false := by rw [reg_of_page hpage, h]
  rw [latchPage_missed r md pos pg ((powered_of_rest (rest_of_sansPages hr) pg).trans hpow) hunarmed] at hfold
  refine ⟨by rw [Pkg.latchAll, hfold, window_addRf, hpage], ?_⟩
  have hcount := rf_addRf_same r pg 0x048 1 (hi := 15) (lo := 8)
  rw [Pkg.rf, ← reg_of_page hfold, Pkg.rf, reg_of_page hpage] at hcount
  exact hcount

theorem page_latchAll_unpowered {pg : Nat} (h : p.powered pg = false) : (p.latchAll md pos).page pg = p.page pg :=
  (latchPage_pass md pos).page_unpowered p h

/-- A latch edge: a re-arm that waits comes first, every page meets the edge, and SNAPCAUSE names the sources (R51 to R53). -/
def Pkg.latchEdge (p : Pkg) (md : ModeState) (pos : Nat) (due : List (Bool × Nat × Bool)) : Pkg :=
  (p.rearm.latchAll md pos).snapCause due

section
variable (due : List (Bool × Nat × Bool)) {p}

theorem rest_latchEdge : (p.latchEdge md pos due).rest = p.rest :=
  calc (p.latchEdge md pos due).rest = (p.rearm.latchAll md pos).rest := rest_of_sansPages (sansPages_snapCause ..)
    _ = p.rearm.rest := rest_of_sansPages (sansPages_latchAll ..)
    _ = p.rest := rest_rearm p

theorem latchEdge_cause {k : Nat} (hk : k < 5) :
    bit ((p.latchEdge md pos due).reg pgSTW 0x358) k = due.any (fun e => e.2.1.testBit k) := by
  rw [Pkg.latchEdge, snapCause_bit _ _ hk]

theorem latchEdge_late : bit ((p.latchEdge md pos due).reg pgSTW 0x358) 8 = due.any (fun e => e.2.2) := by
  rw [Pkg.latchEdge, snapCause_late]

theorem latchEdge_armed {pg : Nat} (hpg : pg ∈ allPages) (hpow : p.powered pg = true) (h : bit (p.rearm.reg pg 0x048) 0 = true) :
    bit ((p.latchEdge md pos due).reg pg 0x048) 0 = false ∧ bit ((p.latchEdge md pos due).reg pg 0x048) 2 = true ∧
      (p.latchEdge md pos due).reg pg 0x050 = word [(16, p.frameNum), (0, pos)] := by
  have hall := latchAll_armed p.rearm md pos hpg ((powered_of_rest (rest_rearm p) pg).trans hpow) h
  rw [Pkg.latchEdge, reg_snapCause _ _ (by decide), reg_snapCause _ _ (by decide), ← frameNum_of_rest (rest_rearm p)]
  exact hall

theorem latchEdge_missed {pg : Nat} (hpg : pg ∈ allPages) (hpow : p.powered pg = true) (h : bit (p.rearm.reg pg 0x048) 0 = false) :
    ((p.latchEdge md pos due).page pg).window = (p.page pg).window ∧
      (p.latchEdge md pos due).rf pg 0x048 15 8 = min (p.rf pg 0x048 15 8 + 1) 255 := by
  have hidle : p.rearm = p := rearm_idle fun hdue => by
    rw [(rearm_arms hdue hpg hpow).1] at h
    cases h
  rw [hidle] at h
  have hall := latchAll_missed p md pos hpg hpow h
  rw [Pkg.latchEdge, hidle, window_snapCause, Pkg.rf, reg_snapCause _ _ (by decide)]
  exact hall

theorem page_latchEdge_unpowered {pg : Nat} (hne : pg ≠ pgSTW) (hpow : p.powered pg = false) :
    (p.latchEdge md pos due).page pg = p.page pg := by
  rw [Pkg.latchEdge, page_snapCause_other _ _ hne,
    page_latchAll_unpowered _ _ _ ((powered_of_rest (rest_rearm p) pg).trans hpow), page_rearm_unpowered p hpow]

end

/-! ### SNAPSHOT_LATCH -/

variable {s : State}

/-- The triggers that wait on. -/
def leftLatches (s : State) (n : Nat) : List (Bool × Nat × Bool) :=
  (s.pkg.stw.latches.filter (fun l => !l.1)).drop (if s.pkg.stw.latches.filter (fun l => l.1) = [] then n + 1 else n)

/-- The place of the edge in the frame. -/
def edgePos (s : State) (off : Nat) : Nat := if s.pkg.stw.latches.filter (fun l => l.1) = [] then min off 800 else 0

theorem exec_snapshotLatch {off n : Nat} (h : dueLatches s n ≠ []) : exec (.snapshotLatch off n) s =
    .next { s with pkg := ((s.pkg.latchEdge s.mode (edgePos s off) (dueLatches s n)).edged (leftLatches s n)
      (edgePos s off)) } := by
  show execSnapshotLatch off n s = _
  rw [execSnapshotLatch, upd_eq]
  unfold dueLatches at h
  unfold dueLatches leftLatches edgePos Pkg.latchEdge Pkg.latchAll
  generalize allPages = pages
  cases hticks : s.pkg.stw.latches.filter (fun l => l.1) with
  | nil =>
    rw [if_pos hticks] at h
    simp only [List.isEmpty_nil, if_true, List.nil_append, List.isEmpty_iff, h, if_false]
    rfl
  | cons e l =>
    rw [if_neg (by simp [hticks]), hticks] at h
    simp only [List.isEmpty_cons, Bool.false_eq_true, if_false, reduceCtorEq, List.cons_append]
    rfl

theorem snapshotLatch_idle {off n : Nat} (h : s.pkg.stw.latches = []) : exec (.snapshotLatch off n) s = .next s := by
  show execSnapshotLatch off n s = _
  rw [execSnapshotLatch, upd_eq]
  simp only [h, List.filter_nil, List.take_nil, List.append_nil, List.isEmpty_nil, if_true]

/-- Every armed page that is powered latches, and every other one that is powered counts the trigger (R49, R51 to R53). -/
theorem snapshotLatch_latches {off n pos : Nat} (h : dueLatches s n ≠ []) (hpos : pos = edgePos s off) :
    Completes (.snapshotLatch off n) s (fun t => t.pkg.stw.latches = leftLatches s n ∧
      t.pkg.stw.lastEdge = some (s.pkg.frameNum, pos) ∧ OnlyPagesStw s t ∧
      (∀ k, k < 5 → bit (t.pkg.reg pgSTW 0x358) k = (dueLatches s n).any (fun l => l.2.1.testBit k)) ∧
      bit (t.pkg.reg pgSTW 0x358) 8 = (dueLatches s n).any (fun l => l.2.2) ∧
      (∀ pg ∈ allPages, s.pkg.powered pg = true → bit (s.pkg.rearm.reg pg 0x048) 0 = true →
        bit (t.pkg.reg pg 0x048) 0 = false ∧ bit (t.pkg.reg pg 0x048) 2 = true ∧
        t.pkg.reg pg 0x050 = word [(16, s.pkg.frameNum), (0, pos)]) ∧
      (∀ pg ∈ allPages, s.pkg.powered pg = true → bit (s.pkg.rearm.reg pg 0x048) 0 = false →
        (t.pkg.page pg).window = (s.pkg.page pg).window ∧
        t.pkg.rf pg 0x048 15 8 = min (s.pkg.rf pg 0x048 15 8 + 1) 255) ∧
      (∀ pg, pg ≠ pgSTW → s.pkg.powered pg = false → t.pkg.page pg = s.pkg.page pg)) := by
  subst hpos
  refine ⟨_, exec_snapshotLatch h, ?_⟩
  have hrest := rest_latchEdge (p := s.pkg) s.mode (edgePos s off) (dueLatches s n)
  have hcause := fun k hk => latchEdge_cause (p := s.pkg) (k := k) s.mode (edgePos s off) (dueLatches s n) hk
  have hlate := latchEdge_late (p := s.pkg) s.mode (edgePos s off) (dueLatches s n)
  have harmed := fun pg hpg hpow hbit => latchEdge_armed (p := s.pkg) (pg := pg) s.mode (edgePos s off) (dueLatches s n) hpg hpow hbit
  have hmissed := fun pg hpg hpow hbit => latchEdge_missed (p := s.pkg) (pg := pg) s.mode (edgePos s off) (dueLatches s n) hpg hpow
    hbit
  have hdark := fun pg hne hpow => page_latchEdge_unpowered (p := s.pkg) (pg := pg) s.mode (edgePos s off) (dueLatches s n) hne hpow
  have hframe := frameNum_of_rest hrest
  generalize s.pkg.latchEdge s.mode (edgePos s off) (dueLatches s n) = q at hrest hcause hlate harmed hmissed hdark hframe ⊢
  have hedged := (rest_edged q (edgePos s off) (leftLatches s n)).trans hrest
  refine ⟨rfl, congrArg (fun f => some (f, edgePos s off)) hframe, onlyPagesStw_of_rest hedged, fun k hk => ?_, ?_,
    fun pg hpg hpow hbit => ?_, fun pg hpg hpow hbit => ?_, fun pg hne hpow => ?_⟩
  · rw [reg_edged, hcause k hk]
  · rw [reg_edged, hlate]
  · rw [reg_edged, reg_edged]
    exact harmed pg hpg hpow hbit
  · rw [page_edged, rf_edged]
    exact hmissed pg hpg hpow hbit
  · rw [page_edged, hdark pg hne hpow]

/-! ### Triggers and arming -/

theorem arm_arms {who : Requester} {pg : PageId} (h : s.pkg.commands who (pgOf pg) = true) :
    Completes (.arm who pg) s (fun t => OnlyPages s t ∧ bit (t.pkg.reg (pgOf pg) 0x048) 0 = true ∧
      LastCmd t.pkg (pgOf pg) 0x048 1 ∧ (bit (s.pkg.reg (pgOf pg) 0x048) 0 = false → t.pkg.rf (pgOf pg) 0x048 15 8 = 0)) := by
  refine ⟨_, rfl, ?_⟩
  dsimp only
  rw [cmd_of_commands h, Pkg.cmdArm]
  have hsans := sansPages_armPage s.pkg (pgOf pg)
  obtain ⟨hbit, hmissed⟩ := armPage_arms s.pkg (pgOf pg)
  have hreg : ((s.pkg.armPage (pgOf pg)).cmdOk (pgOf pg) 0x048).reg (pgOf pg) 0x048 = _ :=
    reg_cmdOk (s.pkg.armPage (pgOf pg)) (Or.inr (by decide))
  refine ⟨onlyPages_of_rest ((rest_cmdOk ..).trans (rest_of_sansPages hsans)) ?_, by rw [hreg, hbit],
    lastCmd_cmdOk _ (by decide), fun hun => by rw [Pkg.rf, hreg]; exact hmissed hun⟩
  simp [Pkg.cmdOk, Pkg.cmdEvent, stw_of_sansPages hsans]

theorem snapSrc_cmdOk (off b : Nat) : (p.cmdOk pg off).snapSrc b = p.snapSrc b := by simp [Pkg.snapSrc]

theorem snapTrigger_local {p : Pkg} (h : p.snapSrc 8 = false) (src : Nat) : p.snapTrigger src =
    { p with stw := { p.stw with latches := p.stw.latches ++ [(false, src, false)] } } := by
  rw [Pkg.snapTrigger, if_neg (by simp [h])]

/-- The frame of a chain trigger (R50). -/
def Pkg.snapTarget (p : Pkg) : Nat := (p.frameNum + p.fr.ofs.toNat + 8) % 2 ^ 48

/-- A new steward leaves the registers. -/
theorem reg_stw (x : Steward) (q o : Nat) : Pkg.reg { p with stw := x } q o = p.reg q o := rfl

/-- A chain trigger of the package is remembered, and waits for its frame. -/
def Pkg.snapNoted (p : Pkg) (addr target src : Nat) : Pkg :=
  { p with stw := { p.stw with chainSeen := (addr, target) :: p.stw.chainSeen,
                               chainPend := p.stw.chainPend ++ [(addr, target, src)] } }

theorem snapNoted_latches (addr target src : Nat) : (p.snapNoted addr target src).stw.latches = p.stw.latches := rfl

@[simp] theorem reg_snapNoted (addr target src q o : Nat) : (p.snapNoted addr target src).reg q o = p.reg q o := reg_stw ..

theorem chainAddr_of_reg {p q : Pkg} (h : q.reg (pgCH false) 0x200 = p.reg (pgCH false) 0x200) : q.chainAddr = p.chainAddr := by
  rw [Pkg.chainAddr, Pkg.rf, h]
  rfl

/-- A chain trigger of the package goes out on both ports (R50). -/
def Pkg.snapSent (p : Pkg) : Pkg :=
  let q := p.setReg pgSTW 0x360 (word [(48, p.chainAddr), (0, p.snapTarget)])
  (q.chainHop false (.snap q.chainAddr p.snapTarget)).chainHop true (.snap q.chainAddr p.snapTarget)

theorem snapSent_stw : p.snapSent.stw = p.stw :=
  (chainSend_stw ..).trans ((chainSend_stw ..).trans (setReg_stw ..))

theorem reg_snapSent (q o : Nat) :
    p.snapSent.reg q o = (p.setReg pgSTW 0x360 (word [(48, p.chainAddr), (0, p.snapTarget)])).reg q o :=
  (reg_chainSend ..).trans (reg_chainSend ..)

theorem chainAddr_snapSent : p.snapSent.chainAddr = p.chainAddr :=
  chainAddr_of_reg ((reg_snapSent ..).trans (by rw [reg_setReg, if_neg (by decide)]))

/-- With CHAINOUT a trigger is one of the chain, 8 frames on (R50). -/
theorem snapTrigger_chain {p : Pkg} (h : p.snapSrc 8 = true) (src : Nat) :
    p.snapTrigger src = p.snapSent.snapNoted p.chainAddr p.snapTarget (src + 16) := by
  have hform : p.snapTrigger src = p.snapSent.snapNoted p.snapSent.chainAddr p.snapTarget (src + 16) := by
    rw [Pkg.snapTrigger, if_pos h]
    simp only [Pkg.snapSent, Pkg.snapNoted, Pkg.snapTarget]
  rw [hform, chainAddr_snapSent]

/-! ### The rules -/

theorem snaptrig_local {who : Requester} (h : s.pkg.commands who pgSTW = true) (hsrc : s.pkg.snapSrc 0 = true)
    (hout : s.pkg.snapSrc 8 = false) :
    Completes (.snaptrig who) s (fun t => t.pkg.stw = { s.pkg.stw with latches := s.pkg.stw.latches ++ [(false, 1, false)] } ∧
      LastCmd t.pkg pgSTW 0xC00 1) := by
  refine ⟨_, rfl, ?_⟩
  dsimp only
  rw [cmd_of_commands h, Pkg.cmdSnaptrig, if_pos hsrc, snapTrigger_local (by rw [snapSrc_cmdOk, hout])]
  have hlast := lastCmd_cmdOk s.pkg (pg := pgSTW) (off := 0xC00) (by decide)
  have hstw := cmdOk_stw s.pkg pgSTW 0xC00
  generalize s.pkg.cmdOk pgSTW 0xC00 = q at hlast hstw ⊢
  exact ⟨by rw [hstw], lastCmd_of_reg (reg_stw ..) hlast⟩

theorem snaptrig_refused {who : Requester} (h : s.pkg.commands who pgSTW = true) (hsrc : s.pkg.snapSrc 0 = false) :
    Completes (.snaptrig who) s (fun t => t.pkg.stw.latches = s.pkg.stw.latches ∧ LastCmd t.pkg pgSTW 0xC00 3) := by
  refine ⟨_, rfl, ?_⟩
  dsimp only
  rw [cmd_of_commands h, Pkg.cmdSnaptrig, if_neg (by simp [hsrc])]
  exact ⟨cmdWrong_latches .., lastCmd_cmdWrong _ (by decide)⟩

theorem snaparm_waits {who : Requester} (h : s.pkg.commands who pgSTW = true) :
    Completes (.snaparm who) s (fun t => t.pkg.stw = { s.pkg.stw with armAll := true, ripe := t.pkg.stw.ripe } ∧
      t.pkg.isRipe .rearm 0 = false ∧ LastCmd t.pkg pgSTW 0xC08 1) := by
  refine ⟨_, rfl, ?_⟩
  dsimp only
  rw [cmd_of_commands h, Pkg.cmdSnaparm]
  have hlast := lastCmd_cmdOk s.pkg (pg := pgSTW) (off := 0xC08) (by decide)
  have hstw := cmdOk_stw s.pkg pgSTW 0xC08
  generalize s.pkg.cmdOk pgSTW 0xC08 = q at hlast hstw ⊢
  refine ⟨?_, ?_, lastCmd_of_reg (reg_stw ..) hlast⟩
  · simp only [Pkg.unripe, hstw]
  · simp [Pkg.isRipe, Pkg.unripe]

theorem snaptrig_chain {who : Requester} (h : s.pkg.commands who pgSTW = true) (hsrc : s.pkg.snapSrc 0 = true)
    (hout : s.pkg.snapSrc 8 = true) :
    Completes (.snaptrig who) s (fun t => t.pkg.stw.latches = s.pkg.stw.latches ∧ LastCmd t.pkg pgSTW 0xC00 1 ∧
      t.pkg.stw.chainPend = s.pkg.stw.chainPend ++ [(s.pkg.chainAddr, (s.pkg.frameNum + s.pkg.fr.ofs.toNat + 8) % 2 ^ 48, 17)] ∧
      t.pkg.reg pgSTW 0x360 = word [(48, s.pkg.chainAddr), (0, (s.pkg.frameNum + s.pkg.fr.ofs.toNat + 8) % 2 ^ 48)]) := by
  refine ⟨_, rfl, ?_⟩
  dsimp only
  rw [cmd_of_commands h, Pkg.cmdSnaptrig, if_pos hsrc, snapTrigger_chain (by rw [snapSrc_cmdOk, hout])]
  have hlast := lastCmd_cmdOk s.pkg (pg := pgSTW) (off := 0xC00) (by decide)
  have hstw := cmdOk_stw s.pkg pgSTW 0xC00
  have haddr : (s.pkg.cmdOk pgSTW 0xC00).chainAddr = s.pkg.chainAddr :=
    chainAddr_of_reg (reg_cmdOk s.pkg (Or.inl (by decide)))
  have htarget : (s.pkg.cmdOk pgSTW 0xC00).snapTarget = s.pkg.snapTarget := by
    simp [Pkg.snapTarget, Pkg.frameNum, Pkg.cmdOk, Pkg.cmdEvent]
  generalize s.pkg.cmdOk pgSTW 0xC00 = q at hlast hstw haddr htarget ⊢
  have hreg := reg_snapSent q
  rw [haddr, htarget] at hreg ⊢
  have hsent := (snapSent_stw q).trans hstw
  generalize q.snapSent = r at hreg hsent ⊢
  refine ⟨by rw [snapNoted_latches, hsent], lastCmd_of_reg ?_ hlast, ?_, ?_⟩
  · rw [reg_snapNoted, hreg, reg_setReg, if_neg (by decide)]
  · rw [← hsent]
    rfl
  · rw [reg_snapNoted, hreg, reg_setReg, if_pos ⟨rfl, rfl⟩]
    rfl

theorem snaparmRearm_idle (h : s.pkg.stw.armAll = false ∨ s.pkg.isRipe .rearm 0 = false) :
    exec .snaparmRearm s = .next s := by
  show execSnaparmRearm s = _
  rw [execSnaparmRearm, upd_eq, rearm_idle (by rintro ⟨h1, h2⟩; simp [h1, h2] at h)]

theorem snapInEdge_ignored (h : s.pkg.snapSrc 3 = false ∨ (∃ l ∈ s.pkg.stw.latches, l.1 = false ∧ l.2.1 = 8)) :
    exec .snapInEdge s = .next s := by
  show execSnapInEdge s = _
  rw [execSnapInEdge, upd_eq]
  split
  case isTrue => rfl
  case isFalse hsrc =>
    obtain ⟨l, hl, hother, hedge⟩ := h.resolve_left (by simpa using hsrc)
    rw [if_pos (List.any_eq_true.2 ⟨l, hl, by simp [hother, hedge]⟩)]

theorem snapInEdge_fixes (hsrc : s.pkg.snapSrc 3 = true) (hout : s.pkg.snapSrc 8 = false)
    (h : ∀ l ∈ s.pkg.stw.latches, l.1 = true ∨ l.2.1 ≠ 8) :
    Completes .snapInEdge s (fun t => t = { s with pkg := { s.pkg with stw := { s.pkg.stw with
      latches := s.pkg.stw.latches ++ [(false, 8, false)] } } }) := by
  have hnone : ¬(s.pkg.stw.latches.any (fun l => !l.1 && l.2.1 == 8)) = true := by
    rw [List.any_eq_true]
    rintro ⟨l, hl, hedge⟩
    simp only [Bool.and_eq_true, Bool.not_eq_true', beq_iff_eq] at hedge
    rcases h l hl with htick | hne
    · simp [hedge.1] at htick
    · exact hne hedge.2
  refine ⟨_, rfl, ?_⟩
  dsimp only
  rw [if_neg (by simp [hsrc]), if_neg hnone, snapTrigger_local hout]

theorem snaparmRearm_arms (h : s.pkg.rearmDue) :
    Completes .snaparmRearm s (fun t => t.pkg.stw = { s.pkg.stw with armAll := false } ∧ OnlyPagesStw s t ∧
      ∀ pg ∈ allPages, s.pkg.powered pg = true → bit (t.pkg.reg pg 0x048) 0 = true ∧
        (bit (s.pkg.reg pg 0x048) 0 = false → t.pkg.rf pg 0x048 15 8 = 0)) := by
  obtain ⟨hrest, hstw, -⟩ := rearm_due_keeps h
  exact ⟨_, rfl, hstw, onlyPagesStw_of_rest hrest, fun pg hpg hpow => rearm_arms h hpg hpow⟩

/-- Settles O44: each page once, in the order of the pages, and each trigger by its source. -/
theorem snapshotsLatchArmedPages : Obligations.SnapshotsLatchArmedPages :=
  ⟨fun _ _ _ h => arm_arms h, fun _ _ h hsrc hout => snaptrig_local h hsrc hout, fun _ _ h hsrc => snaptrig_refused h hsrc,
    fun _ _ h => snaparm_waits h, fun _ _ h hsrc hout => snaptrig_chain h hsrc hout, fun _ h => snaparmRearm_idle h,
    fun _ h => snapInEdge_ignored h, fun _ harm hripe => snaparmRearm_arms ⟨harm, hripe⟩,
    fun _ hsrc hout h => snapInEdge_fixes hsrc hout h, fun _ _ _ _ h hpos => snapshotLatch_latches h hpos,
    fun _ _ _ h => snapshotLatch_idle h⟩

end Sys2Proof.Machine
end

section
/-! Configuration copies are kept by all that moves lines: registers, events, memory and messages (R42, R45). -/

namespace Sys2Proof.Machine

/-- The configuration copies of a page (R42), as the pages of the package tell them. -/
def copiesOf (t : Tbl Page) (pg : Nat) : Tbl Word × Tbl Word :=
  ((tblGet (fun _ => Page.reset) t pg).copyA, (tblGet (fun _ => Page.reset) t pg).copyB)

theorem copiesOf_page (p : Pkg) (pg : Nat) : copiesOf p.pages pg = ((p.page pg).copyA, (p.page pg).copyB) := rfl

/-- A pass in which every step keeps the copies keeps them. -/
theorem copies_foldl {ι : Type} {f : Pkg → ι → Pkg} (h : ∀ p i, copiesOf (f p i).pages = copiesOf p.pages) (l : List ι) (p : Pkg) :
    copiesOf (l.foldl f p).pages = copiesOf p.pages :=
  foldl_keeps (fun p => copiesOf p.pages) h l p

theorem copies_ite {c : Prop} [Decidable c] {p q : Pkg} {t : Nat → Tbl Word × Tbl Word} (hp : copiesOf p.pages = t)
    (hq : copiesOf q.pages = t) : copiesOf (if c then p else q).pages = t := by
  split
  · exact hp
  · exact hq

variable (p : Pkg)

/-! ### Pages, registers and events -/

theorem copies_setPage {pg : Nat} {x : Page} (ha : x.copyA = (p.page pg).copyA) (hb : x.copyB = (p.page pg).copyB) :
    copiesOf (p.setPage pg x).pages = copiesOf p.pages := by
  funext q
  rw [copiesOf_page, copiesOf_page]
  by_cases h : q = pg
  · subst h
    rw [page_setPage_same, ha, hb]
  · rw [page_setPage_other _ _ h]

@[simp] theorem copies_setReg (pg off : Nat) (v : Word) : copiesOf (p.setReg pg off v).pages = copiesOf p.pages :=
  copies_setPage p rfl rfl

@[simp] theorem copies_setRf (pg off hi lo v : Nat) : copiesOf (p.setRf pg off hi lo v).pages = copiesOf p.pages :=
  copies_setReg ..

@[simp] theorem copies_addRf (pg off hi lo k : Nat) : copiesOf (p.addRf pg off hi lo k).pages = copiesOf p.pages :=
  copies_setRf ..

@[simp] theorem copies_noteEv (pg b cls : Nat) (d : Det) : copiesOf (p.noteEv pg b cls d).pages = copiesOf p.pages :=
  copies_setPage p rfl rfl

@[simp] theorem copies_refreshIrq (pg : Nat) : copiesOf (p.refreshIrq pg).pages = copiesOf p.pages := by
  unfold Pkg.refreshIrq
  dsimp only
  split
  · rfl
  split
  · exact copies_setPage p rfl rfl
  split
  · exact copies_setPage p rfl rfl
  split <;> exact copies_setPage p rfl rfl

@[simp] theorem copies_setEvent (pg b cls : Nat) (d : Det) : copiesOf (p.setEvent pg b cls d).pages = copiesOf p.pages := by
  rw [setEvent_eq]
  split <;> simp

@[simp] theorem copies_logEvent (code origin : Nat) (lc pid : Option Nat) (pg : Nat) (detail : Word) :
    copiesOf (p.logEvent code origin lc pid pg detail).pages = copiesOf p.pages := by
  rcases logEvent_cases p code origin lc pid pg detail with h | ⟨a, n, h⟩ <;> simp [h, Pkg.logged]

@[simp] theorem copies_evCount (die : Option Nat) (ev inst : Nat) (pid : Option Nat) (net k : Nat) :
    copiesOf (p.evCount die ev inst pid net k).pages = copiesOf p.pages := by
  unfold Pkg.evCount
  split
  split
  · rfl
  · refine copies_foldl (fun q i => ?_) _ _
    dsimp only
    split
    · exact copies_setReg ..
    · rfl

/-! ### Caches -/

@[simp] theorem cacheModify_pages (c line : Nat) (f : CWay → CWay) : (p.cacheModify c line f).pages = p.pages := by
  unfold Pkg.cacheModify
  dsimp only
  split <;> simp

@[simp] theorem cacheDrop_pages (c line : Nat) : (p.cacheDrop c line).pages = p.pages := by
  unfold Pkg.cacheDrop
  split <;> simp

@[simp] theorem dieDrop_pages (d line : Nat) : (p.dieDrop d line).pages = p.pages :=
  foldl_keeps Pkg.pages (fun _ _ => cacheDrop_pages ..) _ _

@[simp] theorem leaveL2_pages (k line : Nat) : (p.leaveL2 k line).pages = p.pages := by
  have hunits : ∀ (l : List Nat) (p : Pkg),
      (l.foldl (fun (p : Pkg) (u : Nat) => (p.cacheDrop (cL1I u) line).cacheDrop (cL1D u) line) p).pages = p.pages :=
    foldl_keeps Pkg.pages (fun _ _ => by simp)
  unfold Pkg.leaveL2
  dsimp only
  split
  · rw [cacheModify_pages, hunits]
  · exact hunits ..

@[simp] theorem copies_refreshLockstat (c : Nat) : copiesOf (p.refreshLockstat c).pages = copiesOf p.pages := by
  unfold Pkg.refreshLockstat
  split
  · rfl
  · exact copies_setReg ..

/-! ### Memory (R319 to R323, R327) -/

@[simp] theorem freeBytes_pages (n : Nat) : (p.freeBytes n).2.pages = p.pages := (rfl)
@[simp] theorem setLineMeta_pages (line : Nat) (m : Option LineMeta) : (p.setLineMeta line m).pages = p.pages := (rfl)

@[simp] theorem disturb_pages (line : Nat) (dist : Disturb) : (p.disturb line dist).pages = p.pages := by
  unfold Pkg.disturb
  split <;> rfl

@[simp] theorem content_pages (line pid : Nat) (residual : Tbl Byte) : (p.content line pid residual).2.pages = p.pages := by
  unfold Pkg.content
  split
  · split <;> rfl
  · rfl

@[simp] theorem copies_scrubBoost (n : Nat) : copiesOf (p.scrubBoost n).pages = copiesOf p.pages := by
  unfold Pkg.scrubBoost
  split <;> simp

@[simp] theorem copies_rowReq (n pch bank row : Nat) : copiesOf (p.rowReq n pch bank row).pages = copiesOf p.pages := by
  simp [Pkg.rowReq]

@[simp] theorem copies_trackCe (line : Nat) : copiesOf (p.trackCe line).pages = copiesOf p.pages := by
  unfold Pkg.trackCe
  exact copies_ite (copies_rowReq ..) rfl

@[simp] theorem copies_trackUe (line : Nat) : copiesOf (p.trackUe line).pages = copiesOf p.pages := by
  unfold Pkg.trackUe
  dsimp only
  split
  · rfl
  split <;> simp

@[simp] theorem copies_storeLine (line pid : Nat) (bytes : List Byte) (poison : Bool) :
    copiesOf (p.storeLine line pid bytes poison).pages = copiesOf p.pages := by
  simp [Pkg.storeLine]

@[simp] theorem copies_lineWrite (line pid : Nat) (bytes : List Byte) (poison : Bool) :
    copiesOf (p.lineWrite line pid bytes poison).2.pages = copiesOf p.pages := by
  unfold Pkg.lineWrite
  split <;> simp

@[simp] theorem copies_poisonLine (line pid : Nat) : copiesOf (p.poisonLine line pid).pages = copiesOf p.pages := by
  unfold Pkg.poisonLine
  split
  · exact copies_storeLine ..
  · rfl

/-- The pair that `content` gives stays closed here: what it holds is of no concern. -/
@[simp] theorem copies_lineRead (line pid agent : Nat) (dist : Disturb) :
    copiesOf (p.lineRead line pid agent dist).2.pages = copiesOf p.pages := by
  unfold Pkg.lineRead
  split
  · rfl
  · exact congrArg copiesOf (freeBytes_pages p 64)
  obtain ⟨content, hcontent, hpages⟩ : ∃ f, f = Pkg.content ∧ ∀ p line pid res, (f p line pid res).2.pages = p.pages :=
    ⟨_, rfl, content_pages⟩
  rw [← hcontent]
  dsimp only
  split
  · split
    · split <;> simp [hpages]
    · simp
  · simp [hpages]
  · simp

end Sys2Proof.Machine
end

section
/-! Configuration copies are kept by homes, dies and messages (R42, R228 to R250). -/

namespace Sys2Proof.Machine

variable (p : Pkg)

/-! ### Messages and flits -/

@[simp] theorem send_pages (m : Msg) : (p.send m).pages = p.pages := (rfl)

@[simp] theorem returnCredit_pages (b : Option (Nat × Nat)) : (p.returnCredit b).pages = p.pages := by
  unfold Pkg.returnCredit
  split <;> simp

@[simp] theorem copies_dropFlit (pg bit_ : Nat) : copiesOf (p.dropFlit pg bit_).pages = copiesOf p.pages := by
  simp [Pkg.dropFlit]

/-! ### Checkstops and protocol errors -/

@[simp] theorem copies_setDcs (pid : Nat) (b : Bool) : copiesOf (p.setDcs pid b).pages = copiesOf p.pages :=
  copies_foldl (fun _ _ => copies_setRf ..) _ _

@[simp] theorem stopCores_pages (pid : Nat) : (p.stopCores pid).pages = p.pages :=
  foldl_keeps Pkg.pages (fun p lc => by split <;> simp) _ _

@[simp] theorem ledgerDcs_pages (pid : Nat) : (p.ledgerDcs pid).pages = p.pages := (rfl)

@[simp] theorem copies_cipherDcs (pid : Nat) : copiesOf (p.cipherDcs pid).pages = copiesOf p.pages := by
  unfold Pkg.cipherDcs
  exact copies_foldl (fun _ _ => copies_setEvent ..) _ _

@[simp] theorem copies_putEnt (k w : Nat) (e : Option DirEnt) : copiesOf (p.putEnt k w e).pages = copiesOf p.pages := by
  unfold Pkg.putEnt
  exact copies_setReg ..

@[simp] theorem copies_dirModify (line : Nat) (f : DirEnt → Option DirEnt) :
    copiesOf (p.dirModify line f).pages = copiesOf p.pages := by
  unfold Pkg.dirModify
  split <;> simp

@[simp] theorem copies_freeEnt (line : Nat) : copiesOf (p.freeEnt line).pages = copiesOf p.pages := copies_dirModify ..

@[simp] theorem copies_refreshConfq (n : Nat) : copiesOf (p.refreshConfq n).pages = copiesOf p.pages := by
  simp [Pkg.refreshConfq]

@[simp] theorem copies_raiseDcs (pid det : Nat) : copiesOf (p.raiseDcs pid det).pages = copiesOf p.pages := by
  unfold Pkg.raiseDcs
  split
  · rfl
  · have hsend := copies_foldl (f := fun (p : Pkg) (r : HomeReq) => p.send (r.answer (.err 3))) (fun _ _ => by rw [send_pages])
    have hbusy := copies_foldl
      (f := fun (p : Pkg) (t : Txn) => p.dirModify t.req.line (fun e => some { e with busy := false })) (fun _ _ => copies_dirModify ..)
    have hconfq := copies_foldl (f := fun (p : Pkg) (r : HomeReq) => p.refreshConfq (mcOf r.line)) (fun _ _ => copies_refreshConfq ..)
    simp [hsend, hbusy, hconfq]

@[simp] theorem copies_protoError (n pid line : Nat) : copiesOf (p.protoError n pid line).pages = copiesOf p.pages := by
  unfold Pkg.protoError
  dsimp only
  split <;> simp

@[simp] theorem copies_unmatched (m : Msg) : copiesOf (p.unmatched m).pages = copiesOf p.pages := by
  unfold Pkg.unmatched
  split <;> simp

/-! ### Requesters -/

@[simp] theorem noteReq_pages (r : HomeReq) : (p.noteReq r).pages = p.pages := by
  unfold Pkg.noteReq
  split <;> simp

@[simp] theorem putDline_pages (d line : Nat) (x : Option DLine) : (p.putDline d line x).pages = p.pages := (rfl)

@[simp] theorem copies_refreshQuar (pg : Nat) : copiesOf (p.refreshQuar pg).pages = copiesOf p.pages := copies_setRf ..

@[simp] theorem copies_lateMsg (a txid : Nat) : copiesOf (p.lateMsg a txid).pages = copiesOf p.pages := by
  simp [Pkg.lateMsg]

@[simp] theorem copies_freeQuarantine (a : Nat) : copiesOf (p.freeQuarantine a).pages = copiesOf p.pages := by
  simp [Pkg.freeQuarantine]

@[simp] theorem copies_stray (a : Nat) (m : Msg) : copiesOf (p.stray a m).pages = copiesOf p.pages := by
  unfold Pkg.stray
  split <;> simp

/-! ### Homes: requests -/

@[simp] theorem copies_enqueue (r : HomeReq) : copiesOf (p.enqueue r).pages = copiesOf p.pages := by simp [Pkg.enqueue]

@[simp] theorem copies_snoop (k : Nat) (r : HomeReq) (fwd : Nat) (own : Bool) (dies : List Nat) :
    copiesOf (p.snoop k r fwd own dies).2.pages = copiesOf p.pages := by
  unfold Pkg.snoop
  refine foldl_keeps (fun a : List Nat × Pkg => copiesOf a.2.pages) (fun a d => ?_) _ _
  split
  · split <;> simp
  · simp

@[simp] theorem copies_openTxn (r : HomeReq) (k fwd : Nat) (own : Bool) (dies : List Nat) :
    copiesOf (p.openTxn r k fwd own dies).pages = copiesOf p.pages :=
  (copies_snoop ..).trans (copies_dirModify ..)

@[simp] theorem copies_openInval (line : Nat) (e : DirEnt) (r : HomeReq) :
    copiesOf (p.openInval line e r).pages = copiesOf p.pages := by
  unfold Pkg.openInval
  exact (copies_snoop ..).trans (copies_dirModify ..)

@[simp] theorem copies_startReq (r : HomeReq) : copiesOf (p.startReq r).pages = copiesOf p.pages := by
  have hcount : ∀ (v : DirEnt) (line : Nat) (l : List Nat) (p : Pkg), copiesOf (l.foldl (fun (p : Pkg) (d : Nat) =>
      p.evCount (some d) 6 (sliceOf line) (some v.pid) 1 1) p).pages = copiesOf p.pages :=
    fun _ _ => copies_foldl fun _ _ => copies_evCount ..
  unfold Pkg.startReq
  dsimp only
  split
  · simp
  split
  · split
    · simp
    split
    · simp
    split
    · exact copies_ite (copies_openTxn ..) (copies_openTxn ..)
    · exact copies_ite (copies_openTxn ..) (copies_openTxn ..)
    · exact copies_ite (copies_openTxn ..) (copies_openTxn ..)
    · exact copies_ite (copies_openTxn ..) (copies_openTxn ..)
    · exact copies_openTxn ..
  · split
    · split
      · simp
      · split
        · simp [hcount]
        · simp
    · simp

end Sys2Proof.Machine
end

section
/-! Configuration copies are kept as lines move: completions, evictions, die agents, delivery (R42, R235 to R242). -/

namespace Sys2Proof.Machine

variable (p : Pkg)

/-! ### Completions -/

@[simp] theorem copies_closeTxn (line txid : Nat) : copiesOf (p.closeTxn line txid).pages = copiesOf p.pages :=
  copies_dirModify ..

@[simp] theorem dropTxn_pages (r : HomeReq) : (p.dropTxn r).pages = p.pages := (rfl)

@[simp] theorem copies_writeBack (t : Txn) : copiesOf (p.writeBack t).pages = copiesOf p.pages := by
  unfold Pkg.writeBack
  split
  · exact copies_ite (copies_lineWrite ..) rfl
  · rfl

@[simp] theorem copies_grant (t : Txn) (g : Nat) (df : Bool) (d : Option (List Byte × Bool × Bool)) (own : Bool) (pres : Nat) :
    copiesOf (p.grant t g df d own pres).pages = copiesOf p.pages := by
  unfold Pkg.grant
  cases d <;> simp

theorem copies_of_lineRead {p q : Pkg} {line pid agent : Nat} {a : LineAns} (h : p.lineRead line pid agent = (a, q)) :
    copiesOf q.pages = copiesOf p.pages := by
  have hread := copies_lineRead p line pid agent []
  rwa [h] at hread

@[simp] theorem copies_grantMem (t : Txn) (g : Nat) (own : Bool) (pres : Nat) :
    copiesOf (p.grantMem t g own pres).pages = copiesOf p.pages := by
  unfold Pkg.grantMem
  dsimp only
  split
  case h_1 q h => simp [copies_of_lineRead h]
  case h_2 b poison q h => simp [copies_of_lineRead h]

theorem copies_of_lineWrite {p q : Pkg} {line pid : Nat} {b : List Byte} {poison ok : Bool}
    (h : p.lineWrite line pid b poison = (ok, q)) : copiesOf q.pages = copiesOf p.pages := by
  have hwrite := copies_lineWrite p line pid b poison
  rwa [h] at hwrite

@[simp] theorem copies_finishIord (t : Txn) (own : Bool) : copiesOf (p.finishIord t own).pages = copiesOf p.pages := by
  unfold Pkg.finishIord
  extract_lets r q res
  have hres : copiesOf res.2.pages = copiesOf p.pages := by
    unfold res
    split
    · exact copies_writeBack ..
    · exact (copies_lineRead ..).trans (copies_writeBack ..)
  obtain ⟨a, q'⟩ := res
  cases a with
  | addr => simpa using hres
  | line b poison =>
    dsimp only
    split
    · simpa using hres
    · split <;> simpa using hres

@[simp] theorem copies_finishIowr (t : Txn) : copiesOf (p.finishIowr t).pages = copiesOf p.pages := by
  unfold Pkg.finishIowr
  extract_lets r full base
  have hbase : copiesOf base.2.pages = copiesOf p.pages := by
    unfold base
    split
    · rfl
    split
    · rfl
    · exact copies_lineRead ..
  obtain ⟨a, q⟩ := base
  cases a with
  | addr => simpa using hbase
  | line b poison =>
    dsimp only at hbase ⊢
    split
    case h_1 w hw => simp [copies_of_lineWrite hw, hbase]
    case h_2 w hw =>
      have hkept := (copies_of_lineWrite hw).trans hbase
      rw [dropTxn_pages, copies_freeEnt, send_pages]
      exact copies_ite hkept (by rw [send_pages, hkept])

@[simp] theorem copies_finishTxn (t : Txn) : copiesOf (p.finishTxn t).pages = copiesOf p.pages := by
  have hback : ∀ g df d own pres, copiesOf ((p.writeBack t).grant t g df d own pres).pages = copiesOf p.pages := by simp
  unfold Pkg.finishTxn
  extract_lets r q ent pres own me
  have hq : copiesOf q.pages = copiesOf p.pages := by simp [q]
  split
  · split
    · exact (copies_startReq ..).trans hq
    · exact hq
  have hupg : copiesOf (if own ∧ t.present ∧ t.snooped ≠ [] then p.grant t 3 true none true me
      else
        match t.data with
        | some b => p.grant t 3 true (some (b, t.dirty, t.poison)) true me
        | none =>
          if r.kind = .upg ∧ !own ∧ pres / me % 2 = 1 then p.grant t 3 false none true me
          else p.grantMem t 3 true me).pages = copiesOf p.pages := by
    refine copies_ite (copies_grant ..) ?_
    split
    · exact copies_grant ..
    · exact copies_ite (copies_grant ..) (copies_grantMem ..)
  split
  · refine copies_ite (hback ..) (copies_ite ?_ (copies_ite (copies_grantMem ..) (copies_grantMem ..)))
    split
    · exact hback ..
    · exact copies_grantMem ..
  · exact hupg
  · exact hupg
  · exact copies_finishIord ..
  · exact copies_finishIowr ..

@[simp] theorem copies_serveNext (line : Nat) : copiesOf (p.serveNext line).pages = copiesOf p.pages := by
  unfold Pkg.serveNext
  split
  · rfl
  split <;> simp

@[simp] theorem copies_homeRun (k : Nat) : copiesOf (p.homeRun k).pages = copiesOf p.pages := by
  induction k generalizing p with
  | zero => rfl
  | succ k ih =>
    unfold Pkg.homeRun
    split
    · rw [ih, copies_finishTxn]
    · rfl

/-! ### Requests and evictions at a home -/

@[simp] theorem copies_findBroken (r : HomeReq) : copiesOf (p.findBroken r).pages = copiesOf p.pages := by
  unfold Pkg.findBroken
  split
  · dsimp only
    split <;> split <;> simp
  · rfl

@[simp] theorem copies_homeReq (r : HomeReq) : copiesOf (p.homeReq r).pages = copiesOf p.pages := by
  unfold Pkg.homeReq
  refine copies_ite ?_ (copies_ite ?_ (copies_ite ?_ (copies_ite ?_ (copies_ite ?_ ?_)))) <;> simp

@[simp] theorem copies_staleEvict (m : Msg) : copiesOf (p.staleEvict m).pages = copiesOf p.pages := by
  simp [Pkg.staleEvict]

@[simp] theorem copies_applyWbd (m : Msg) : copiesOf (p.applyWbd m).pages = copiesOf p.pages := by
  unfold Pkg.applyWbd
  split
  · rfl
  · dsimp only
    split <;> simp

@[simp] theorem copies_applyEvc (m : Msg) : copiesOf (p.applyEvc m).pages = copiesOf p.pages := by
  simp [Pkg.applyEvc]

@[simp] theorem copies_homeEvict (m : Msg) : copiesOf (p.homeEvict m).pages = copiesOf p.pages := by
  unfold Pkg.homeEvict
  extract_lets d stale q apply
  have hq : copiesOf q.pages = copiesOf p.pages := by
    unfold q
    split
    · exact copies_ite rfl (copies_protoError ..)
    · rfl
  have happly : copiesOf (apply q).pages = copiesOf p.pages :=
    copies_ite ((copies_staleEvict ..).trans hq) (copies_ite ((copies_applyWbd ..).trans hq) ((copies_applyEvc ..).trans hq))
  split
  · exact copies_ite hq (copies_ite ((copies_staleEvict ..).trans hq) happly)
  · exact happly

@[simp] theorem copies_homeSnpRsp (m : Msg) (resp : Nat) : copiesOf (p.homeSnpRsp m resp).pages = copiesOf p.pages := by
  have hstale := copies_foldl (f := fun (p : Pkg) (h : Msg) => p.staleEvict h) (fun _ _ => copies_staleEvict ..)
  unfold Pkg.homeSnpRsp
  dsimp only
  split
  · simp
  · rw [hstale]
    exact copies_ite (copies_dirModify ..) rfl

@[simp] theorem copies_homeWbData (m : Msg) (b : List Byte) (mask : Nat) (dirty poison : Bool) :
    copiesOf (p.homeWbData m b mask dirty poison).pages = copiesOf p.pages := by
  unfold Pkg.homeWbData
  extract_lets isIo fill snooped q
  refine copies_ite rfl (copies_ite rfl ?_)
  split
  · exact copies_ite rfl (copies_applyWbd ..)
  · rfl

@[simp] theorem copies_earlyData (r : HomeReq) : copiesOf (p.earlyData r).pages = copiesOf p.pages := by
  unfold Pkg.earlyData
  split
  · split
    · dsimp only
      split <;> simp
    · rfl
  · rfl

@[simp] theorem copies_homeAck (m : Msg) : copiesOf (p.homeAck m).pages = copiesOf p.pages := by
  unfold Pkg.homeAck
  exact copies_ite (copies_closeTxn ..) (copies_unmatched ..)

/-! ### Die agents and requesters -/

@[simp] theorem dieRecall_pages (d line : Nat) : (p.dieRecall d line).pages = p.pages := by
  have hdrop : ∀ (l : List Nat) (p : Pkg), (l.foldl (fun (p : Pkg) (c : Nat) => p.cacheDrop c line) p).pages = p.pages :=
    foldl_keeps Pkg.pages fun _ _ => cacheDrop_pages ..
  unfold Pkg.dieRecall
  rw [cacheModify_pages, hdrop]

@[simp] theorem copies_dieSnoop (m : Msg) : copiesOf (p.dieSnoop m).pages = copiesOf p.pages := by
  unfold Pkg.dieSnoop
  dsimp only
  split
  · simp
  split
  · split <;> simp
  split
  · split
    · simp
    · split <;> simp
  · split <;> simp
  · split <;> simp

@[simp] theorem dieEvict_pages (d line : Nat) : (p.dieEvict d line).pages = p.pages := by
  unfold Pkg.dieEvict
  split
  · split
    · rfl
    · dsimp only
      split <;> simp
  · rfl

@[simp] theorem copies_dieAck (m : Msg) : copiesOf (p.dieAck m).pages = copiesOf p.pages := by
  unfold Pkg.dieAck
  split
  · split <;> simp
  · simp

@[simp] theorem tryComplete_pages (a txid : Nat) : (p.tryComplete a txid).pages = p.pages := by
  unfold Pkg.tryComplete
  split
  · rfl
  split
  · split
    · rfl
    · dsimp only
      split <;> simp
  · rfl

@[simp] theorem copies_withReq (m : Msg) (f : AgentReq → AgentReq) : copiesOf (p.withReq m f).pages = copiesOf p.pages := by
  unfold Pkg.withReq
  dsimp only
  split <;> simp

@[simp] theorem copies_recvData (m : Msg) (b : List Byte) (dirty poison : Bool) :
    copiesOf (p.recvData m b dirty poison).pages = copiesOf p.pages := by
  unfold Pkg.recvData
  dsimp only
  split
  · split <;> simp
  · simp

@[simp] theorem copies_recvErr (m : Msg) (status : Nat) : copiesOf (p.recvErr m status).pages = copiesOf p.pages := by
  unfold Pkg.recvErr
  split <;> simp

/-! ### Delivery -/

@[simp] theorem copies_deliver (m : Msg) : copiesOf (p.deliver m).pages = copiesOf p.pages := by
  unfold Pkg.deliver
  split <;> simp [Pkg.recvCmp, copies_ite]

@[simp] theorem copies_takeFlit (i : Nat) (f : Flit) : copiesOf (p.takeFlit i f).pages = copiesOf p.pages := by
  unfold Pkg.takeFlit
  dsimp only
  split
  · split <;> simp
  · simp
  · rfl

@[simp] theorem copies_settle (k : Nat) (lines : List Nat) : copiesOf (Pkg.settle k lines p).pages = copiesOf p.pages := by
  induction k generalizing p with
  | zero => rfl
  | succ k ih =>
    unfold Pkg.settle
    dsimp only
    split
    · rw [ih, copies_takeFlit, copies_homeRun]
    · split
      · rw [ih, copies_serveNext, copies_homeRun]
      · rw [copies_homeRun]

/-- A line that leaves an array takes no configuration with it. -/
@[simp] theorem copies_leaveArray (c line : Nat) : copiesOf (p.leaveArray c line).pages = copiesOf p.pages := by
  unfold Pkg.leaveArray
  split
  · dsimp only
    split <;> simp
  · split <;> simp

end Sys2Proof.Machine
end

section
/-! RSTREQ (R31, R45, R364). -/

namespace Sys2Proof.Machine

/-! ### What stands outside the page -/

@[simp] theorem forgetPart_pages (p : Pkg) (t : Nat) : (p.forgetPart t).pages = p.pages := (rfl)
@[simp] theorem cipherDrop_pages (p : Pkg) (e : Nat) : (p.cipherDrop e).pages = p.pages := (rfl)
@[simp] theorem dmaDrop_pages (p : Pkg) (k : Nat) : (p.dmaDrop k).pages = p.pages := (rfl)
@[simp] theorem ledgerClear_pages (p : Pkg) : p.ledgerClear.pages = p.pages := (rfl)

@[simp] theorem copies_linkDrop (p : Pkg) (d : Nat) : copiesOf (p.linkDrop d).pages = copiesOf p.pages := by
  unfold Pkg.linkDrop
  dsimp only
  split <;> simp

theorem copies_leaveArrays (c : Nat) (lines : List Nat) (p : Pkg) :
    copiesOf (lines.foldl (fun (p : Pkg) (l : Nat) => p.leaveArray c l) p).pages = copiesOf p.pages :=
  copies_foldl (fun _ _ => copies_leaveArray ..) lines p

/-- A cache block leaves its lines; every other block keeps the pages or writes registers. -/
theorem copies_blockInner (p : Pkg) (pg : Nat) (b : Blk) (i : Nat) : copiesOf (p.blockInner pg b i).pages = copiesOf p.pages := by
  unfold Pkg.blockInner
  cases b
  case l1d | l2 | l3 =>
    dsimp only
    split
    · rw [copies_refreshLockstat, setCache_pages, copies_leaveArrays]
    · rfl
  case hphy =>
    refine (copies_foldl (fun q n => ?_) _ _).trans (congrArg copiesOf (forgetPart_pages ..))
    exact copies_ite (copies_setRf ..) rfl
  case clu =>
    refine copies_foldl (fun q k => ?_) _ _
    dsimp only
    exact copies_ite rfl (congrArg copiesOf (setUnit_pages ..))
  all_goals simp

/-! ### The page -/

/-- What the end of a block reset leaves: the copies, the live configurations, and the registers below 0x200. -/
structure KeepsBlock (p q : Pkg) : Prop where
  copies : copiesOf q.pages = copiesOf p.pages
  live : ∀ pg, (q.page pg).live = (p.page pg).live
  reg : ∀ pg o, o < 0x200 → q.reg pg o = p.reg pg o

theorem KeepsBlock.refl (p : Pkg) : KeepsBlock p p := ⟨rfl, fun _ => rfl, fun _ _ _ => rfl⟩

theorem KeepsBlock.trans {p q r : Pkg} (h : KeepsBlock p q) (k : KeepsBlock q r) : KeepsBlock p r :=
  ⟨k.copies.trans h.copies, fun pg => (k.live pg).trans (h.live pg), fun pg o ho => (k.reg pg o ho).trans (h.reg pg o ho)⟩

/-- A write from 0x200 on, and what changes no page at all. -/
theorem keepsBlock_setReg (p : Pkg) (pg off : Nat) (v : Word) (h : 0x200 ≤ off := by decide) :
    KeepsBlock p (p.setReg pg off v) :=
  ⟨copies_setReg .., fun _ => setReg_live .., fun q o ho => by rw [reg_setReg, if_neg (by omega)]⟩

theorem keepsBlock_setRf (p : Pkg) (pg off hi lo v : Nat) (h : 0x200 ≤ off := by decide) :
    KeepsBlock p (p.setRf pg off hi lo v) :=
  keepsBlock_setReg p pg off _ h

theorem keepsBlock_addRf (p : Pkg) (pg off hi lo k : Nat) (h : 0x200 ≤ off := by decide) :
    KeepsBlock p (p.addRf pg off hi lo k) :=
  keepsBlock_setRf p pg off hi lo _ h

theorem keepsBlock_of_pages {p q : Pkg} (h : q.pages = p.pages) : KeepsBlock p q :=
  ⟨by rw [h], fun pg => by rw [Pkg.page, h, Pkg.page], fun pg o _ => by rw [Pkg.reg, Pkg.page, h, Pkg.reg, Pkg.page]⟩

theorem keepsBlock_foldl {ι : Type} {f : Pkg → ι → Pkg} (h : ∀ p i, KeepsBlock p (f p i)) (l : List ι) (p : Pkg) :
    KeepsBlock p (l.foldl f p) := by
  induction l generalizing p with
  | nil => exact .refl p
  | cons i l ih => exact (h p i).trans (ih _)

variable (p : Pkg)

theorem keepsBlock_refreshQuar (pg : Nat) : KeepsBlock p (p.refreshQuar pg) := keepsBlock_setRf p pg 0x220 15 0 _

theorem keepsBlock_freeQuarantine (a : Nat) : KeepsBlock p (p.freeQuarantine a) := by
  unfold Pkg.freeQuarantine
  refine .trans ?_ (keepsBlock_refreshQuar ..)
  exact keepsBlock_of_pages rfl

theorem keepsBlock_resetQuarantine (pg : Nat) (b : Blk) (i : Nat) : KeepsBlock p (p.resetQuarantine pg b i) := by
  have hagents := keepsBlock_foldl (f := fun (p : Pkg) (a : Nat) => p.freeQuarantine a) (fun p a => keepsBlock_freeQuarantine p a)
    (blockAgents pg b i) p
  unfold Pkg.resetQuarantine
  split
  · exact keepsBlock_refreshQuar ..
  · exact keepsBlock_refreshQuar ..
  · exact hagents

theorem keepsBlock_refreshLockstat (c : Nat) : KeepsBlock p (p.refreshLockstat c) := by
  unfold Pkg.refreshLockstat
  split
  · exact .refl p
  · exact keepsBlock_setReg ..

theorem keepsBlock_trainStart (t : Nat) : KeepsBlock p (p.trainStart t) := by
  unfold Pkg.trainStart
  split
  · exact .refl p
  extract_lets pg _ bt q
  have hq : KeepsBlock p q := by
    refine .trans (keepsBlock_of_pages (q := { p with boot := bt }) rfl) (.trans ?_ (keepsBlock_setRf _ pg 0x200 3 0 1))
    exact keepsBlock_addRf ..
  split
  · exact hq.trans (keepsBlock_setRf ..)
  split
  · exact hq.trans (keepsBlock_of_pages rfl)
  · exact hq

/-- The page of a block after its reset. -/
def Pkg.pageReset (p : Pkg) (pg : Nat) (b : Blk) : Pkg :=
  p.setPage pg { p.page pg with regs := keptRegs pg b (p.page pg).regs, live := none, window := [], raised := false, work := 0 }

theorem keepMask_common (b : Blk) (w : Word) {o : Nat} (h : o = 0x020 ∨ o = 0x028 ∨ o = 0x038) : keepMask b o w = 0 := by
  rcases h with rfl | rfl | rfl <;> cases b <;> simp [keepMask]

/-- A register of which nothing is kept reads as after reset. -/
theorem keptRegs_reset (pg : Nat) (b : Blk) (t : Tbl Word) {o : Nat} (h : ∀ w, keepMask b o w = 0) :
    tblGet (regReset pg) (keptRegs pg b t) o = regReset pg o := by
  have hfold : ∀ (t r : Tbl Word), tblGet (regReset pg) r o = regReset pg o →
      tblGet (regReset pg) (t.foldl (fun (r : Tbl Word) (e : Nat × Word) =>
        let m := keepMask b e.1 e.2
        tblSet (regReset pg) r e.1 ((e.2 &&& m) ||| (regReset pg e.1 &&& ~~~m))) r) o = regReset pg o := by
    intro t
    induction t with
    | nil => exact fun r hr => hr
    | cons e t ih =>
      intro r hr
      refine ih _ ?_
      dsimp only
      rw [tblGet_tblSet]
      split
      case isTrue heq =>
        subst heq
        rw [h]
        exact (congrArg₂ (· ||| ·) BitVec.and_zero (congrArg (_ &&& ·) BitVec.not_zero)).trans
          (BitVec.zero_or.trans BitVec.and_allOnes)
      case isFalse => exact hr
  exact hfold t [] rfl

theorem reg_pageReset (pg : Nat) (b : Blk) {o : Nat} (h : o = 0x020 ∨ o = 0x028 ∨ o = 0x038) :
    (p.pageReset pg b).reg pg o = regReset pg o := by
  rw [Pkg.reg, Pkg.pageReset, page_setPage_same]
  exact keptRegs_reset pg b _ fun w => keepMask_common b w h

theorem copies_pageReset (pg : Nat) (b : Blk) : copiesOf (p.pageReset pg b).pages = copiesOf p.pages :=
  copies_setPage p rfl rfl

theorem live_pageReset (pg : Nat) (b : Blk) : ((p.pageReset pg b).page pg).live = none := by
  rw [Pkg.pageReset, page_setPage_same]

/-- The end of a block reset: quarantine, LOCKSTAT, and the parts that show or train at once. -/
def Pkg.resetEnd (p : Pkg) (pg : Nat) (b : Blk) (i : Nat) : Pkg :=
  match cacheOfPage pg, b with
  | some c, _ => (p.resetQuarantine pg b i).refreshLockstat c
  | none, .gp => if (p.resetQuarantine pg b i).site i then p.resetQuarantine pg b i
    else (p.resetQuarantine pg b i).setRf pg 0x200 3 0 7
  | none, .lsc => (p.resetQuarantine pg b i).trainStart (24 + i)
  | none, _ => p.resetQuarantine pg b i

theorem keepsBlock_resetEnd (pg : Nat) (b : Blk) (i : Nat) : KeepsBlock p (p.resetEnd pg b i) := by
  have hquar := keepsBlock_resetQuarantine p pg b i
  unfold Pkg.resetEnd
  split
  · exact hquar.trans (keepsBlock_refreshLockstat ..)
  · split
    · exact hquar
    · exact hquar.trans (keepsBlock_setRf ..)
  · exact hquar.trans (keepsBlock_trainStart ..)
  · exact hquar

theorem blockReset_eq {pg i : Nat} {b : Blk} (h : blkOf pg = some (b, i)) :
    p.blockReset pg = ((p.blockInner pg b i).pageReset pg b).resetEnd pg b i := by
  rw [Pkg.blockReset, h]
  rfl

end Sys2Proof.Machine
end

section
/-! The obligation about block reset (R31, R45, R364). -/

namespace Sys2Proof.Machine

/-- LASTST and LASTCMD lie apart from the state of the block. -/
theorem blkState_cmdOk (p : Pkg) (pg off : Nat) : (p.cmdOk pg off).blkState pg = p.blkState pg := by
  rw [Pkg.blkState, Pkg.cmdOk, Pkg.cmdEvent, rf_setRf_fld, rf_setRf_fld, Pkg.blkState]
  all_goals decide

theorem live_cmdOk (p : Pkg) (pg off q : Nat) : ((p.cmdOk pg off).page q).live = (p.page q).live := by
  rw [Pkg.cmdOk, Pkg.cmdEvent, Pkg.setRf, Pkg.setRf, setReg_live, setReg_live]

theorem copies_cmdOk (p : Pkg) (pg off : Nat) : copiesOf (p.cmdOk pg off).pages = copiesOf p.pages := by
  rw [Pkg.cmdOk, Pkg.cmdEvent, copies_setRf, copies_setRf]

/-- After reset a page shows no error. -/
theorem regReset_errors (pg : Nat) : regReset pg 0x028 = 0 ∧ regReset pg 0x038 = 0 := by
  unfold regReset
  split
  · exact ⟨rfl, rfl⟩
  case h_2 b _ _ => cases b <;> exact ⟨rfl, rfl⟩

/-- After reset a block with configuration is in LOAD_HOLD. -/
theorem regReset_blkstat {pg i : Nat} {b : Blk} (h : blkOf pg = some (b, i)) (hcfg : b.hasCfg = true) : regReset pg 0x020 = 0 := by
  simp [regReset, h, hcfg]

section
variable {p : Pkg} {pg i : Nat} {b : Blk} (h : blkOf pg = some (b, i))
include h

theorem copies_blockReset : copiesOf (p.blockReset pg).pages = copiesOf p.pages := by
  rw [blockReset_eq p h, (keepsBlock_resetEnd ..).copies, copies_pageReset, copies_blockInner]

theorem live_blockReset : ((p.blockReset pg).page pg).live = none := by
  rw [blockReset_eq p h, (keepsBlock_resetEnd ..).live, live_pageReset]

theorem reg_blockReset {o : Nat} (ho : o = 0x020 ∨ o = 0x028 ∨ o = 0x038) : (p.blockReset pg).reg pg o = regReset pg o := by
  rw [blockReset_eq p h, (keepsBlock_resetEnd ..).reg _ _ (by omega), reg_pageReset _ _ _ ho]

theorem cmdRstreq_done {md : ModeState} (hbusy : p.busy pg = false) (hb : b ≠ .steward) (hmode : rstMode b md.mode = true) :
    p.cmdRstreq md pg = (p.blockReset pg).cmdOk pg 0x018 := by
  rw [Pkg.cmdRstreq, h]
  exact if_neg (by simp [hbusy, hb, hmode])

theorem cmdRstreq_refused {md : ModeState} (href : p.busy pg = true ∨ rstMode b md.mode = false) :
    p.cmdRstreq md pg = p.cmdWrong pg 0x018 := by
  rw [Pkg.cmdRstreq, h]
  exact if_pos (href.imp id Or.inr)

end

theorem exec_rstreq {s : State} {who : Requester} {pg : PageId} (h : s.pkg.commands who (pgOf pg) = true) :
    exec (.rstreq who pg) s = .next { s with pkg := s.pkg.cmdRstreq s.mode (pgOf pg) } :=
  congrArg (fun q : Pkg => (Host.Outcome.next { s with pkg := q } : Host.Outcome State Fault Refusal))
    (cmd_of_commands h 0x018 fun p => p.cmdRstreq s.mode (pgOf pg))

theorem rstreq_refused {s : State} {who : Requester} {pg : PageId} {b : Blk} {i : Nat} (h : s.pkg.commands who (pgOf pg) = true)
    (hblk : blkOf (pgOf pg) = some (b, i)) (href : s.pkg.busy (pgOf pg) = true ∨ rstMode b s.mode.mode = false) :
    Completes (.rstreq who pg) s (fun t => LastCmd t.pkg (pgOf pg) 0x018 3 ∧ OnlyPagesStw s t) := by
  refine ⟨_, exec_rstreq h, ?_⟩
  rw [cmdRstreq_refused hblk href]
  exact ⟨lastCmd_cmdWrong _ (by decide), onlyPagesStw_of_rest (rest_cmdWrong ..)⟩

theorem rstreq_done {s : State} {who : Requester} {pg : PageId} {b : Blk} {i : Nat} (h : s.pkg.commands who (pgOf pg) = true)
    (hbusy : s.pkg.busy (pgOf pg) = false) (hblk : blkOf (pgOf pg) = some (b, i)) (hb : b ≠ .steward)
    (hmode : rstMode b s.mode.mode = true) :
    Completes (.rstreq who pg) s (fun t => LastCmd t.pkg (pgOf pg) 0x018 1 ∧ (t.pkg.page (pgOf pg)).live = none ∧
      (t.pkg.page (pgOf pg)).copyA = (s.pkg.page (pgOf pg)).copyA ∧ (t.pkg.page (pgOf pg)).copyB = (s.pkg.page (pgOf pg)).copyB ∧
      t.pkg.reg (pgOf pg) 0x028 = 0 ∧ t.pkg.reg (pgOf pg) 0x038 = 0 ∧
      (b.hasCfg = true → t.pkg.loadHold (pgOf pg) = true) ∧ t.mode = s.mode) := by
  refine ⟨_, exec_rstreq h, ?_⟩
  rw [cmdRstreq_done hblk hbusy hb hmode]
  have hcopies := congrFun ((copies_cmdOk (s.pkg.blockReset (pgOf pg)) (pgOf pg) 0x018).trans (copies_blockReset hblk)) (pgOf pg)
  rw [copiesOf_page, copiesOf_page] at hcopies
  obtain ⟨hcopyA, hcopyB⟩ := Prod.mk.inj hcopies
  obtain ⟨herrstat, herrcount⟩ := regReset_errors (pgOf pg)
  refine ⟨lastCmd_cmdOk _ (by decide), ?live, hcopyA, hcopyB, ?errstat, ?errcount, ?hold, rfl⟩
  case live => exact (live_cmdOk ..).trans (live_blockReset hblk)
  case errstat => exact (reg_cmdOk _ (Or.inr (by decide))).trans ((reg_blockReset hblk (by decide)).trans herrstat)
  case errcount => exact (reg_cmdOk _ (Or.inr (by decide))).trans ((reg_blockReset hblk (by decide)).trans herrcount)
  case hold =>
    intro hcfg
    have hreg : (s.pkg.blockReset (pgOf pg)).reg (pgOf pg) 0x020 = 0 :=
      (reg_blockReset hblk (by decide)).trans (regReset_blkstat hblk hcfg)
    have hstate : ((s.pkg.blockReset (pgOf pg)).cmdOk (pgOf pg) 0x018).blkState (pgOf pg) = 0 := by
      rw [blkState_cmdOk, Pkg.blkState, Pkg.rf, hreg]
      rfl
    exact beq_iff_eq.2 hstate

/-- Settles O42: the reset keeps the copies through every part of it, and leaves the registers of the page as after reset. -/
theorem blockResetKeepsTheCopies : Obligations.BlockResetKeepsTheCopies := by
  unfold Obligations.BlockResetKeepsTheCopies
  refine ⟨fun s who pg b i h hbusy hblk hb hmode => rstreq_done h hbusy hblk hb hmode, ?_,
    fun s who pg b i h hblk hmode => rstreq_refused h hblk (.inr hmode), fun m => by cases m <;> simp [rstMode]⟩
  intro s who pg h hblk hbusy
  obtain ⟨⟨b, i⟩, hblk⟩ := Option.isSome_iff_exists.1 hblk
  exact rstreq_refused h hblk (.inl hbusy)

end Sys2Proof.Machine
end

section
/-! What every row leaves of the package mode (R54 to R60). -/

namespace Sys2Proof.Machine

/-- The mode state that the row `c` may leave instead of that of `s`, by the eight rows that touch it (R55, R59, R60, R429,
R551). -/
inductive ModeChange (s : State) : Instr → ModeState → Prop
  | powerGood (head : Bool) (hoff : s.mode.mode = .off) : ModeChange s (.powerGood head) ModeState.reset
  | pkgReset : ModeChange s .pkgReset { ModeState.reset with mode := .off }
  | refclkLoss : ModeChange s .refclkLoss { ModeState.reset with mode := .off }
  | tick (len : Nat) (phase : Option Int) (samples : List (Sensor × Int)) (q r : Pkg) (begun : Bool) :
      ModeChange s (.frameTick len phase samples) (r.markDone (s.mode.tick (q.modeIn s.mode)) begun)
  | complete (tr : Trans) (lost frame : Nat) (htr : s.mode.trans = some tr) :
      ModeChange s .modeTransitionComplete (s.mode.complete tr lost frame)
  | drained : ModeChange s .quiesceDrainComplete { s.mode with drain := none, forced := false }
  | drainLimit (forced : Bool) : ModeChange s .drainLimitExpiry { s.mode with drain := none, forced := forced }
  | autoEntry (hmode : s.mode.mode = .run ∨ s.mode.mode = .degraded) (htr : s.mode.trans = none) :
      ModeChange s .drizzleAutoEntry { s.mode with trans := some { target := .drizzle, origin := 2, done := false } }

/-- If the outcome of `c` is a next state, its mode is that of `s` or one that `c` may leave. -/
def ModeOutcome (c : Instr) (s : State) (o : Host.Outcome State Fault Refusal) : Prop :=
  ∀ t, o = .next t → t.mode = s.mode ∨ ModeChange s c t.mode

section
variable {c : Instr} {s : State}

theorem modeOutcome_of_mode {t : State} (h : t.mode = s.mode) : ModeOutcome c s (.next t) := by
  rintro _ ⟨⟩
  exact .inl h

theorem modeOutcome_of_change {t : State} (h : ModeChange s c t.mode) : ModeOutcome c s (.next t) := by
  rintro _ ⟨⟩
  exact .inr h

theorem modeOutcome_refused (r : Refusal) : ModeOutcome c s (.refused r) := by
  rintro _ ⟨⟩

theorem modeOutcome_ite {p : Prop} [Decidable p] {a b : Host.Outcome State Fault Refusal} (ha : ModeOutcome c s a)
    (hb : ModeOutcome c s b) : ModeOutcome c s (if p then a else b) := by
  split
  · exact ha
  · exact hb

/-- A row that acts on the package alone leaves the mode. -/
theorem modeOutcome_of_pkg {o : Host.Outcome State Fault Refusal} (h : ∃ p, o = .next { s with pkg := p }) :
    ModeOutcome c s o := by
  obtain ⟨p, rfl⟩ := h
  exact modeOutcome_of_mode rfl

/-! ### Instructions of a core -/

theorem mode_stopInstr (lc ilen : Nat) (p : Pkg) (st : Stop) : (stopInstr s lc ilen p st).mode = s.mode := by
  cases st <;> rfl

theorem mode_endInstr (lc ilen : Nat) (p : Pkg) (d : Done) : (endInstr s lc ilen p d).mode = s.mode := by
  unfold endInstr
  dsimp only
  split <;> rfl

theorem modeOutcome_runCpu {o : Out} (h : ∃ lc f mn row priv body, o = runCpu lc f mn row priv body s) : ModeOutcome c s o := by
  obtain ⟨lc, f, mn, row, priv, body, rfl⟩ := h
  unfold runCpu
  dsimp only
  split
  · exact modeOutcome_of_mode rfl
  · split
    · exact modeOutcome_of_mode rfl
    · split
      · split
        · exact modeOutcome_refused _
        · split
          · exact modeOutcome_of_mode rfl
          · split
            · exact modeOutcome_of_mode (mode_stopInstr _ _ _ _)
            · split
              · exact modeOutcome_of_mode (mode_endInstr _ _ _ _)
              · exact modeOutcome_of_mode (mode_stopInstr _ _ _ _)
      · refine modeOutcome_ite (modeOutcome_refused _) ?_
        split
        · exact modeOutcome_of_mode (mode_stopInstr _ _ _ _)
        · exact modeOutcome_of_mode (mode_stopInstr _ _ _ _)
        · exact modeOutcome_refused _

theorem modeOutcome_bCc (lc : Lc) (f : Fetch) : ModeOutcome c s (execBCc lc f s) := by
  unfold execBCc
  exact modeOutcome_runCpu ⟨_, _, _, _, _, _, rfl⟩

theorem modeOutcome_setCc (lc : Lc) (f : Fetch) : ModeOutcome c s (execSetCc lc f s) := by
  unfold execSetCc
  exact modeOutcome_runCpu ⟨_, _, _, _, _, _, rfl⟩

theorem modeOutcome_illegalOpcode (lc : Lc) (f : Fetch) : ModeOutcome c s (execIllegalOpcode lc f s) := by
  unfold execIllegalOpcode
  exact modeOutcome_runCpu ⟨_, _, _, _, _, _, rfl⟩

theorem modeOutcome_waitfResume (lc : Lc) : ModeOutcome c s (execWaitfResume lc s) := by
  unfold execWaitfResume
  dsimp only
  split
  · split <;> exact modeOutcome_of_mode rfl
  · exact modeOutcome_of_mode rfl

theorem modeOutcome_ipisend (lc : Lc) (v : Word) : ModeOutcome c s (execIpisend lc v s) := by
  unfold execIpisend
  dsimp only
  split
  · exact modeOutcome_of_mode rfl
  · split
    · exact modeOutcome_of_mode rfl
    · exact modeOutcome_of_mode (mode_stopInstr _ _ _ _)

theorem modeOutcome_interruptDelivery (lc : Lc) : ModeOutcome c s (execInterruptDelivery lc s) := by
  unfold execInterruptDelivery
  dsimp only
  split
  · exact modeOutcome_of_mode rfl
  · split <;> exact modeOutcome_of_mode rfl

theorem modeOutcome_deviceWriteMachineCheck (lc : Lc) (pa : Nat) :
    ModeOutcome c s (execDeviceWriteMachineCheck lc pa s) := by
  unfold execDeviceWriteMachineCheck
  dsimp only
  split <;> exact modeOutcome_of_mode rfl

/-! ### The rows that act on the mode -/

theorem modeOutcome_powerGood (head : Bool) : ModeOutcome (.powerGood head) s (execPowerGood head s) := by
  unfold execPowerGood
  split
  · exact modeOutcome_of_change (.powerGood head ‹_›)
  · exact modeOutcome_of_mode rfl

theorem mode_packageReset : s.packageReset.mode = s.mode ∨ s.packageReset.mode = { ModeState.reset with mode := .off } := by
  unfold State.packageReset
  split
  · exact .inl rfl
  · exact .inr rfl

theorem modeOutcome_pkgReset : ModeOutcome .pkgReset s (execPkgReset s) := by
  rintro _ ⟨⟩
  exact mode_packageReset.imp_right fun h => by rw [h]; exact .pkgReset

theorem modeOutcome_refclkLoss : ModeOutcome .refclkLoss s (execRefclkLoss s) := by
  rintro _ ⟨⟩
  exact mode_packageReset.imp_right fun h => by rw [h]; exact .refclkLoss

/-- The evaluation of a tick: the rule on the mode, then the note whether the entry work is done (R55, R59). -/
theorem evalMode_mode (p : Pkg) (md : ModeState) :
    ∃ r b, (p.evalMode md).1 = Pkg.markDone r (md.tick (p.modeIn md)) b := ⟨_, _, rfl⟩

theorem modeOutcome_frameTick (len : Nat) (phase : Option Int) (samples : List (Sensor × Int)) :
    ModeOutcome (.frameTick len phase samples) s (execFrameTick len phase samples s) := by
  unfold execFrameTick
  split
  · exact modeOutcome_of_mode rfl
  · refine modeOutcome_of_change ?_
    obtain ⟨r, b, h⟩ := evalMode_mode ((s.pkg.tickBefore s.mode (s.pkg.frameLen (len != 800)) phase samples).tickSteward
      s.mode s.pkg.frameNum) s.mode
    exact h ▸ .tick len phase samples _ r b

theorem modeOutcome_modeTransitionComplete : ModeOutcome .modeTransitionComplete s (execModeTransitionComplete s) := by
  unfold execModeTransitionComplete
  split
  · exact modeOutcome_of_mode rfl
  · split
    · exact modeOutcome_of_mode rfl
    · exact modeOutcome_of_change (.complete _ _ _ ‹_›)

theorem modeOutcome_quiesceDrainComplete : ModeOutcome .quiesceDrainComplete s (execQuiesceDrainComplete s) := by
  unfold execQuiesceDrainComplete
  split
  · exact modeOutcome_of_change .drained
  · exact modeOutcome_of_mode rfl

theorem modeOutcome_drainLimitExpiry : ModeOutcome .drainLimitExpiry s (execDrainLimitExpiry s) := by
  unfold execDrainLimitExpiry
  split
  · split
    · exact modeOutcome_of_change (.drainLimit _)
    · exact modeOutcome_of_mode rfl
  · exact modeOutcome_of_mode rfl

theorem modeOutcome_drizzleAutoEntry : ModeOutcome .drizzleAutoEntry s (execDrizzleAutoEntry s) := by
  unfold execDrizzleAutoEntry
  dsimp only
  split
  next h =>
    obtain ⟨hmode, hmoving, -⟩ := h
    exact modeOutcome_of_change (.autoEntry hmode (by simpa [ModeState.moving] using hmoving))
  next => exact modeOutcome_of_mode rfl

end

/-- What a row leaves of the mode: the rows of Pelmund instructions run on a core, eight rows act on the mode, and the rest act
on the package alone. -/
theorem modeOutcome_exec (c : Instr) (s : State) : ModeOutcome c s (exec c s) := by
  cases c
  case nop lc f | mov lc f | movz lc f | movs lc f | mova lc f | xchg lc f | clr lc f | add lc f | sub lc f | adc lc f
    | sbb lc f | mul lc f | mulh lc f | mulhu lc f | div lc f | divu lc f | rem lc f | remu lc f | neg lc f | inc lc f
    | dec lc f | cmp lc f | test lc f | and lc f | or lc f | xor lc f | andn lc f | not lc f | shl lc f | shr lc f
    | sar lc f | rol lc f | ror lc f | bswap lc f | popc lc f | clz lc f | ctz lc f | dadd lc f | dsub lc f | dmul lc f
    | ddiv lc f | dcmp lc f | dshr lc f | cvtdb lc f | cvtbd lc f | dmov lc f | edit lc f | fscan lc f | fxlat lc f
    | fmove lc f | ffill lc f | fcmp lc f | macB8 lc f | macH16 lc f | macW32 lc f | macF32 lc f | maclr lc f | mard lc f
    | mawr lc f | faddD lc f | fsubD lc f | fmulD lc f | fdivD lc f | fcmpD lc f | fsqrtD lc f | cvtdq lc f | cvtqd lc f
    | faddS lc f | fsubS lc f | fmulS lc f | fdivS lc f | fcmpS lc f | fsqrtS lc f | cvtsq lc f | cvtqs lc f | cvtsd lc f
    | cvtds lc f | cas lc f | xadd lc f | jmp lc f | call lc f | scall lc f | mcall lc f | retx lc f | waitf lc f
    | tinv lc f | tsync lc f | cinv lc f | cwb lc f | cflush lc f | cinva lc f | cwba lc f | cflusha lc f
    | clockw lc f | cunlock lc f | rdcr lc f | wrcr lc f | rdctr lc f =>
    exact modeOutcome_runCpu ⟨lc, f, _, _, _, _, rfl⟩
  case bCc lc f => exact modeOutcome_bCc lc f
  case setCc lc f => exact modeOutcome_setCc lc f
  case illegalOpcode lc f => exact modeOutcome_illegalOpcode lc f
  case waitfResume lc => exact modeOutcome_waitfResume lc
  case ipisend lc v => exact modeOutcome_ipisend lc v
  case interruptDelivery lc => exact modeOutcome_interruptDelivery lc
  case deviceWriteMachineCheck lc pa => exact modeOutcome_deviceWriteMachineCheck lc pa
  case powerGood head => exact modeOutcome_powerGood head
  case pkgReset => exact modeOutcome_pkgReset
  case refclkLoss => exact modeOutcome_refclkLoss
  case frameTick len phase samples => exact modeOutcome_frameTick len phase samples
  case modeTransitionComplete => exact modeOutcome_modeTransitionComplete
  case quiesceDrainComplete => exact modeOutcome_quiesceDrainComplete
  case drainLimitExpiry => exact modeOutcome_drainLimitExpiry
  case drizzleAutoEntry => exact modeOutcome_drizzleAutoEntry
  all_goals exact modeOutcome_of_pkg ⟨_, rfl⟩

/-- Settles O11: the rows of `ModeChange` are the eight of the statement. -/
theorem onlyEightRowsTouchTheMode : Obligations.OnlyEightRowsTouchTheMode := by
  unfold Obligations.OnlyEightRowsTouchTheMode
  intro c s t ht hne
  have hc := (modeOutcome_exec c s t ht).resolve_left hne
  generalize t.mode = md at hc
  cases hc <;> simp

/-- A step leaves the mode, or its front command is one that changes it. -/
theorem mode_step {s t : State} (h : step s = .next t) :
    t.mode = s.mode ∨ ∃ c, s.pending.head? = some c ∧ ModeChange s c t.mode := by
  cases hq : s.pending with
  | nil =>
    rw [step_of_pending_nil hq] at h
    cases h
    exact .inl (mode_idle s)
  | cons c rest =>
    have hexec : exec c { s with pending := rest } = .next t := by simpa [step, hq] using h
    refine (modeOutcome_exec c _ t hexec).imp id fun hc => ⟨c, rfl, ?_⟩
    generalize t.mode = md at hc ⊢
    cases hc <;> constructor <;> assumption

/-! ### The evaluation of a tick (R59) -/

section
variable {md : ModeState}

theorem hostPath_wakeTarget (lost : Nat) : hostPath .drizzle (wakeTarget lost) = true := by
  unfold wakeTarget
  split <;> rfl

/-- A mode with no transition, no drain and RET as `ret` says. -/
theorem modeInv_still (htr : md.trans = none) (hdr : md.drain = none) (hret : md.ret.isSome = true ↔ md.mode = .drizzle) :
    ModeInv md :=
  ⟨by simp [htr], by simp [hdr], hret⟩

theorem modeInv_drain_none (h : ModeInv md) (forced : Bool) : ModeInv { md with drain := none, forced := forced } := by
  obtain ⟨htr, -, hret⟩ := h
  exact ⟨htr, by simp, hret⟩

/-- Outside a transition nothing drains. -/
theorem drain_none_of_trans_none (h : ModeInv md) (htr : md.trans = none) : md.drain = none := by
  obtain ⟨-, hdr, -⟩ := h
  cases hd : md.drain with
  | none => rfl
  | some n =>
    obtain ⟨tr, htr', -⟩ := hdr n hd
    simp [htr] at htr'

/-- A transition that begins outside another, without a drain. -/
theorem modeInv_begins {tr : Trans} {md' : ModeState} (h : ModeInv md) (hnone : md.trans = none) (hmode : md'.mode = md.mode)
    (hret : md'.ret = md.ret) (htr : md'.trans = some tr) (hdr : md'.drain = md.drain)
    (hpath : hostPath md.mode tr.target = true) : ModeInv md' := by
  have hd := drain_none_of_trans_none h hnone
  obtain ⟨-, -, hinv⟩ := h
  refine ⟨?_, ?_, ?_⟩
  · intro t ht
    obtain rfl : tr = t := by simpa [htr] using ht
    rwa [hmode]
  · simp [hdr, hd]
  · rwa [hret, hmode]

/-! ### The steps of the evaluation -/

/-- The mode state after the steps 2 and 3 of R59: the drain counts, a command begins, a wake match begins the exit. -/
def ModeState.stepped (md : ModeState) (i : ModeIn) : ModeState :=
  let md := { md with drain := md.drain.map (· + 1) }
  let md1 := match i.begin_ with | some m => md.begin_ m | none => md
  match i.wake with | some c => md1.wakeUp c i.lost | none => md1

theorem tick_of_pcs {i : ModeIn} (h : i.pcs = true) : md.tick i = md.checkstop i.frame := by
  simp [ModeState.tick, h]

/-- Without a checkstop step 4 follows, unless a transition began at this tick or MODE takes its target (R59). -/
theorem tick_of_not_pcs {i : ModeIn} (h : i.pcs = false) : md.tick i =
    if (md.stepped i).moving && (!md.moving || i.begin_.isSome || i.done) then md.stepped i
    else (md.stepped i).applyLost i.lost i.frame := by
  simp [ModeState.tick, h]
  rfl

/-- What step 3 makes of a mode state (R59). -/
theorem wakeUp_eq (md : ModeState) (code lost : Nat) : md.wakeUp code lost =
    { md with wake := if md.mode = .drizzle then code else md.wake,
              trans := if md.mode = .drizzle ∧ md.trans = none
                then some { target := wakeTarget lost, origin := 3, done := false } else md.trans } := by
  unfold ModeState.wakeUp ModeState.moving
  by_cases hd : md.mode = .drizzle
  · cases htr : md.trans <;> simp [hd]
  · simp [hd]

/-- A command that begins at the tick (R59 step 2): the wake match of the same tick is only recorded. -/
theorem stepped_begin {i : ModeIn} {m : Mode} (h : i.begin_ = some m) : md.stepped i =
    { md with trans := some { target := m, origin := 1, done := false }, drain := if m = .quiesce then some 0 else none,
              wake := if md.mode = .drizzle then i.wake.getD 0x21 else md.wake } := by
  cases hw : i.wake with
  | none => simp [ModeState.stepped, h, hw, ModeState.begin_]
  | some c =>
    simp only [ModeState.stepped, h, hw, wakeUp_eq, ModeState.begin_]
    split <;> simp

/-- With no command that begins a wake match begins the exit from DRIZZLE, or is recorded (R59 step 3). -/
theorem stepped_no_begin {i : ModeIn} (h : i.begin_ = none) : md.stepped i =
    { md with drain := md.drain.map (· + 1),
              wake := if md.mode = .drizzle then i.wake.getD md.wake else md.wake,
              trans := if md.mode = .drizzle ∧ md.trans = none ∧ i.wake ≠ none
                then some { target := wakeTarget i.lost, origin := 3, done := false } else md.trans } := by
  cases hw : i.wake with
  | none => simp [ModeState.stepped, h, hw]
  | some c => simp [ModeState.stepped, h, hw, wakeUp_eq]

theorem mode_stepped (i : ModeIn) : (md.stepped i).mode = md.mode := by
  cases h : i.begin_ with
  | none => rw [stepped_no_begin h]
  | some m => rw [stepped_begin h]

/-! ### The mode after a tick -/

/-- The changes of MODE that the evaluation of a tick makes at once (R59 steps 1 and 4). -/
def tickPath : Mode → Mode → Bool
  | .run, .quiesce | .degraded, .quiesce | .drizzle, .quiesce | .load, .quiesce | .run, .degraded | .degraded, .run => true
  | _, _ => false

theorem modePath_of_tickPath {a b : Mode} (h : tickPath a b = true) : modePath a b = true := by
  revert h
  cases a <;> cases b <;> decide

theorem mode_checkstop (frame : Nat) :
    (md.checkstop frame).mode = md.mode ∨ tickPath md.mode (md.checkstop frame).mode = true := by
  unfold ModeState.checkstop
  cases hm : md.mode <;> simp [ModeState.enter, tickPath]

theorem mode_applyLost (lost frame : Nat) :
    (md.applyLost lost frame).mode = md.mode ∨ tickPath md.mode (md.applyLost lost frame).mode = true := by
  unfold ModeState.applyLost
  cases hm : md.mode
  case run | degraded =>
    dsimp only
    split <;> simp [ModeState.shift, tickPath, hm]
  case drizzle =>
    dsimp only
    split <;> simp
  all_goals exact .inl hm

theorem mode_tick (i : ModeIn) : (md.tick i).mode = md.mode ∨ tickPath md.mode (md.tick i).mode = true := by
  cases hp : i.pcs with
  | true =>
    rw [tick_of_pcs hp]
    exact mode_checkstop i.frame
  | false =>
    rw [tick_of_not_pcs hp]
    split
    · exact .inl (mode_stepped i)
    · simpa only [mode_stepped] using mode_applyLost (md := md.stepped i) i.lost i.frame

/-! ### The invariant at a tick -/

theorem modeInv_stepped {i : ModeIn} (h : ModeInv md)
    (hbegin : ∀ m, i.begin_ = some m → hostPath md.mode m = true) : ModeInv (md.stepped i) := by
  obtain ⟨htr, hdr, hret⟩ := h
  cases hb : i.begin_ with
  | some m =>
    rw [stepped_begin hb]
    refine ⟨?_, ?_, hret⟩
    · rintro tr ⟨⟩
      exact hbegin m hb
    · intro n hn
      refine ⟨_, rfl, ?_⟩
      by_contra hq
      simp [hq] at hn
  | none =>
    rw [stepped_no_begin hb]
    by_cases hw : md.mode = .drizzle ∧ md.trans = none ∧ i.wake ≠ none
    · have hd := drain_none_of_trans_none ⟨htr, hdr, hret⟩ hw.2.1
      simp only [if_pos hw]
      refine ⟨?_, ?_, hret⟩
      · rintro tr ⟨⟩
        rw [hw.1]
        exact hostPath_wakeTarget _
      · simp [hd]
    · simp only [if_neg hw]
      refine ⟨htr, ?_, hret⟩
      intro n hn
      obtain ⟨k, hk, -⟩ := Option.map_eq_some_iff.1 hn
      exact hdr k hk

theorem modeInv_checkstop (h : ModeInv md) (frame : Nat) : ModeInv (md.checkstop frame) := by
  obtain ⟨htr, hdr, hret⟩ := h
  unfold ModeState.checkstop
  cases hm : md.mode
  case off | service | test =>
    refine modeInv_still rfl ?_ (by simpa [hm] using hret)
    cases hd : md.drain with
    | none => rfl
    | some n =>
      obtain ⟨tr, ht, hq⟩ := hdr n hd
      have hpath := htr tr ht
      rw [hm, hq] at hpath
      cases hpath
  case quiesce => exact modeInv_still rfl rfl (by simpa [hm] using hret)
  all_goals exact modeInv_still rfl rfl (by simp [ModeState.enter])

/-- A transition of RUN or DEGRADED goes on as the package moves between them (R62). -/
theorem hostPath_run_degraded (m : Mode) : hostPath .run m = hostPath .degraded m := by
  cases m <;> rfl

theorem modeInv_applyLost (h : ModeInv md) (lost frame : Nat) : ModeInv (md.applyLost lost frame) := by
  have hinv := h
  obtain ⟨htr, hdr, hret⟩ := h
  unfold ModeState.applyLost
  cases hm : md.mode
  case run =>
    dsimp only
    split
    · exact hinv
    · refine ⟨fun tr ht => ?_, hdr, by simpa [ModeState.shift, hm] using hret⟩
      exact (hostPath_run_degraded _).symm.trans (hm ▸ htr tr ht)
  case degraded =>
    dsimp only
    split
    · refine ⟨fun tr ht => ?_, hdr, by simpa [ModeState.shift, hm] using hret⟩
      exact (hostPath_run_degraded _).trans (hm ▸ htr tr ht)
    · exact hinv
  case drizzle =>
    dsimp only
    split
    · exact ⟨fun tr ht => hm ▸ htr tr ht, hdr, by simpa [hm] using hret⟩
    next hnew =>
      have hnone : md.trans = none := by simpa [ModeState.moving] using (not_or.1 hnew).2
      exact modeInv_begins hinv hnone hm.symm rfl rfl rfl (by rw [hm]; rfl)
  all_goals exact hinv

theorem modeInv_tick {i : ModeIn} (h : ModeInv md)
    (hbegin : ∀ m, i.begin_ = some m → hostPath md.mode m = true) : ModeInv (md.tick i) := by
  cases hp : i.pcs with
  | true =>
    rw [tick_of_pcs hp]
    exact modeInv_checkstop h i.frame
  | false =>
    rw [tick_of_not_pcs hp]
    split
    · exact modeInv_stepped h hbegin
    · exact modeInv_applyLost (modeInv_stepped h hbegin) i.lost i.frame

/-- Whether the entry work is done is of no concern to the invariant. -/
theorem modeInv_markDone (h : ModeInv md) (p : Pkg) (b : Bool) : ModeInv (p.markDone md b) := by
  obtain ⟨htr, hdr, hret⟩ := h
  refine ⟨?_, ?_, hret⟩
  · intro tr ht
    obtain ⟨tr', ht', rfl⟩ := Option.map_eq_some_iff.1 ht
    exact htr tr' ht'
  · intro n hn
    obtain ⟨tr, ht, hq⟩ := hdr n hn
    exact ⟨_, Option.map_eq_some_iff.2 ⟨tr, ht, rfl⟩, hq⟩

end

/-! ### The inputs of the evaluation -/

/-- The command that begins is the one that waits, when its transition is one of the host and its condition holds (R57, R59). -/
theorem modeIn_begin_iff (p : Pkg) (md : ModeState) (m : Mode) : (p.modeIn md).begin_ = some m ↔
    p.stw.modeCmd = some (m, false) ∧ p.modeReady md.mode m = true ∧ md.trans = none := by
  unfold Pkg.modeIn Pkg.cmdToBegin ModeState.moving
  dsimp only
  split
  next m' heq =>
    rw [heq]
    split
    next hready =>
      simp only [Bool.and_eq_true, Bool.not_eq_true', Option.isSome_eq_false_iff, Option.isNone_iff_eq_none] at hready
      constructor
      · rintro ⟨⟩
        exact ⟨rfl, hready⟩
      · rintro ⟨⟨⟩, -⟩
        rfl
    next hready =>
      refine ⟨by simp, ?_⟩
      rintro ⟨⟨⟩, h1, h2⟩
      simp [h1, h2] at hready
  next hne =>
    refine ⟨by simp, ?_⟩
    rintro ⟨h, -⟩
    exact absurd h (hne m)

theorem hostPath_of_modeReady {p : Pkg} {a b : Mode} (h : p.modeReady a b = true) : hostPath a b = true := by
  unfold Pkg.modeReady at h
  exact (Bool.and_eq_true_iff.1 h).1

theorem hostPath_of_begin {p : Pkg} {md : ModeState} (m : Mode) (h : (p.modeIn md).begin_ = some m) :
    hostPath md.mode m = true :=
  hostPath_of_modeReady ((modeIn_begin_iff p md m).1 h).2.1

/-! ### The end of a transition -/

/-- The mode that a completed transition enters: out of DRIZZLE the one that LOSTSET says (R55). -/
def ModeState.enters (md : ModeState) (tr : Trans) (lost : Nat) : Mode :=
  if md.mode = .drizzle ∧ tr.target ≠ .quiesce then wakeTarget lost else tr.target

theorem complete_eq (md : ModeState) (tr : Trans) (lost frame : Nat) : md.complete tr lost frame =
    { md with mode := md.enters tr lost, origin := tr.origin, entfrm := frame % 65536, trans := none, drain := none,
              ret := if md.enters tr lost = .drizzle then some (wakeTarget lost) else none,
              lostAtEntry := if md.enters tr lost = .drizzle then lost else md.lostAtEntry } := by
  unfold ModeState.complete
  change (if md.enters tr lost = .drizzle then _ else _) = _
  by_cases h : md.enters tr lost = .drizzle
  · rw [if_pos h, if_pos h, if_pos h]
    rfl
  · rw [if_neg h, if_neg h, if_neg h]
    rfl

theorem hostPath_enters {md : ModeState} {tr : Trans} (lost : Nat) (h : hostPath md.mode tr.target = true) :
    hostPath md.mode (md.enters tr lost) = true := by
  unfold ModeState.enters
  split
  case isTrue hd =>
    rw [hd.1]
    exact hostPath_wakeTarget lost
  case isFalse => exact h

theorem modeInv_complete (md : ModeState) (tr : Trans) (lost frame : Nat) : ModeInv (md.complete tr lost frame) := by
  rw [complete_eq]
  refine modeInv_still rfl rfl ?_
  dsimp only
  split <;> simp [*]

theorem modePath_of_hostPath {a b : Mode} (h : hostPath a b = true) : modePath a b = true := by
  simp [modePath, h]

theorem modePath_off (a : Mode) : modePath a .off = true := by
  cases a <;> rfl

/-! ### Steps -/

section
variable {s : State} {c : Instr} {md : ModeState}

theorem modeInv_change (h : ModeInv s.mode) (hc : ModeChange s c md) : ModeInv md := by
  cases hc with
  | powerGood | pkgReset | refclkLoss => exact modeInv_still rfl rfl (by simp [ModeState.reset])
  | tick len phase samples q r begun => exact modeInv_markDone (modeInv_tick h hostPath_of_begin) r begun
  | complete tr lost frame => exact modeInv_complete s.mode tr lost frame
  | drained => exact modeInv_drain_none h false
  | drainLimit forced => exact modeInv_drain_none h forced
  | autoEntry hmode htr =>
    refine modeInv_begins h htr rfl rfl rfl rfl ?_
    rcases hmode with hm | hm <;> rw [hm] <;> rfl

/-- A row that changes MODE follows the table of R55. -/
theorem modePath_change (h : ModeInv s.mode) (hc : ModeChange s c md) (hne : md.mode ≠ s.mode.mode) :
    modePath s.mode.mode md.mode = true := by
  cases hc with
  | powerGood head hoff => rw [hoff]; rfl
  | pkgReset | refclkLoss => exact modePath_off _
  | tick len phase samples q r begun => exact modePath_of_tickPath ((mode_tick _).resolve_left hne)
  | complete tr lost frame htr =>
    obtain ⟨hpath, -, -⟩ := h
    rw [complete_eq]
    exact modePath_of_hostPath (hostPath_enters lost (hpath tr htr))
  | drained | drainLimit | autoEntry => exact absurd rfl hne

/-- Out of TEST no transition leads, and a tick moves no MODE there: only a fall of PKG_RESET_N is left (R56, R551). -/
theorem test_left (h : ModeInv s.mode) (htest : s.mode.mode = .test) (hc : ModeChange s c md) (hne : md.mode ≠ .test) :
    md.mode = .off ∧ (c = .pkgReset ∨ c = .refclkLoss) := by
  cases hc with
  | powerGood head hoff => simp [htest] at hoff
  | pkgReset => exact ⟨rfl, .inl rfl⟩
  | refclkLoss => exact ⟨rfl, .inr rfl⟩
  | tick len phase samples q r begun =>
    have hpath := (mode_tick (q.modeIn s.mode)).resolve_left (htest ▸ hne)
    rw [htest] at hpath
    cases hpath
  | complete tr lost frame htr =>
    obtain ⟨hpath, -, -⟩ := h
    have hstart := hpath tr htr
    rw [htest] at hstart
    cases hstart
  | drained | drainLimit | autoEntry => exact absurd htest hne

end

/-- Settles O8: nothing is in progress in SERVICE right after reset. -/
theorem modeInvariantAtReset : Obligations.ModeInvariantAtReset := by
  unfold Obligations.ModeInvariantAtReset
  exact modeInv_still rfl rfl (by decide)

/-- Settles O9: a step leaves the mode, or makes one of the changes of `ModeChange`, each of which keeps the invariant. -/
theorem everyStepKeepsTheModeInvariant : Obligations.EveryStepKeepsTheModeInvariant := by
  unfold Obligations.EveryStepKeepsTheModeInvariant
  intro s t h hstep
  obtain heq | ⟨c, -, hc⟩ := mode_step hstep
  · rwa [heq]
  · exact modeInv_change h hc

/-- Settles O10: by the changes of `ModeChange`, of which a completed transition needs the invariant. -/
theorem modeChangesOnlyAlongTheTable : Obligations.ModeChangesOnlyAlongTheTable := by
  unfold Obligations.ModeChangesOnlyAlongTheTable
  intro s t h hstep hne
  obtain heq | ⟨c, -, hc⟩ := mode_step hstep
  · exact absurd (congrArg ModeState.mode heq) hne
  · exact modePath_change h hc hne

/-- Settles O12: of the changes of `ModeChange` only the two of the reset pin leave TEST. -/
theorem testIsLeftOnlyForOff : Obligations.TestIsLeftOnlyForOff := by
  unfold Obligations.TestIsLeftOnlyForOff
  intro s t h htest hstep hne
  obtain heq | ⟨c, hfront, hc⟩ := mode_step hstep
  · exact absurd (heq ▸ htest) hne
  · obtain ⟨hoff, hrow⟩ := test_left h htest hc hne
    refine ⟨hoff, hrow.imp ?_ ?_⟩ <;> rintro rfl <;> exact hfront

end Sys2Proof.Machine
end

section
/-! What the evaluation of a tick makes of MODESTAT, power good and package reset (R55, R59, R551, R554). -/

namespace Sys2Proof.Machine

/-! ### The rule of R59 -/

section
variable {md : ModeState} {i : ModeIn}

/-- A package checkstop (R59 step 1). -/
theorem tickRule_checkstop (frame : Nat) (h : i.frame = frame) :
    (md.checkstop frame).pcs = true ∧ (md.checkstop frame).trans = none ∧
    (md.mode = .run ∨ md.mode = .degraded ∨ md.mode = .drizzle ∨ md.mode = .load →
      entersMode i .quiesce 4 (md.checkstop frame) ∧ (md.checkstop frame).forced = true ∧
        (md.checkstop frame).drain = none) ∧
    (md.mode = .quiesce → (md.checkstop frame).mode = .quiesce ∧ (md.checkstop frame).forced = true ∧
      (md.checkstop frame).drain = none) ∧
    (md.mode = .service ∨ md.mode = .test → (md.checkstop frame).mode = md.mode) := by
  subst h
  unfold ModeState.checkstop entersMode
  cases hm : md.mode <;> simp [ModeState.enter]

/-- Step 4 acts on MODE and its record in RUN, DEGRADED and DRIZZLE alone, and keeps PCS, FORCED and the drain (R59). -/
theorem applyLost_keeps (lost frame : Nat) : (md.applyLost lost frame).pcs = md.pcs ∧
    (md.applyLost lost frame).forced = md.forced ∧ (md.applyLost lost frame).drain = md.drain := by
  unfold ModeState.applyLost
  cases md.mode
  case run | degraded | drizzle =>
    dsimp only
    split <;> exact ⟨rfl, rfl, rfl⟩
  all_goals exact ⟨rfl, rfl, rfl⟩

theorem stepped_keeps : (md.stepped i).pcs = md.pcs ∧ (md.stepped i).forced = md.forced := by
  cases hb : i.begin_ with
  | none => rw [stepped_no_begin hb]; exact ⟨rfl, rfl⟩
  | some m => rw [stepped_begin hb]; exact ⟨rfl, rfl⟩

/-- PCS and FORCED are of a checkstop and of a drain alone, and the drain counts on while no command begins (R58, R59). -/
theorem tick_keeps (h : i.pcs = false) : (md.tick i).pcs = md.pcs ∧ (md.tick i).forced = md.forced ∧
    (md.tick i).drain = (md.stepped i).drain := by
  obtain ⟨hpcs, hforced⟩ := stepped_keeps (md := md) (i := i)
  rw [tick_of_not_pcs h]
  split
  · exact ⟨hpcs, hforced, rfl⟩
  · obtain ⟨hp, hf, hd⟩ := applyLost_keeps (md := md.stepped i) i.lost i.frame
    exact ⟨hp.trans hpcs, hf.trans hforced, hd⟩

/-- A command that begins is all that a tick does to the transition (R59 step 2). -/
theorem tick_begin {m : Mode} (h : i.pcs = false) (hb : i.begin_ = some m) : md.tick i =
    { md with trans := some { target := m, origin := 1, done := false }, drain := if m = .quiesce then some 0 else none,
              wake := if md.mode = .drizzle then i.wake.getD 0x21 else md.wake } := by
  rw [tick_of_not_pcs h, if_pos (by simp [stepped_begin hb, ModeState.moving, hb]), stepped_begin hb]

/-- A wake match in DRIZZLE begins the exit (R59 step 3). -/
theorem tick_wake {c : Nat} (h : i.pcs = false) (hb : i.begin_ = none) (hm : md.mode = .drizzle) (ht : md.trans = none)
    (hw : i.wake = some c) : md.tick i =
    { md with drain := md.drain.map (· + 1), wake := c,
              trans := some { target := wakeTarget i.lost, origin := 3, done := false } } := by
  have hstep := stepped_no_begin (md := md) hb
  simp only [hm, ht, hw, ne_eq, reduceCtorEq, not_false_eq_true, and_self, if_true, Option.getD_some] at hstep
  rw [tick_of_not_pcs h, hstep, if_pos (by simp [ModeState.moving, ht]), hm]

/-- In DRIZZLE with no wake match a new loss begins the exit to DEGRADED (R59 step 4). -/
theorem tick_new_loss (h : i.pcs = false) (hb : i.begin_ = none) (hm : md.mode = .drizzle) (ht : md.trans = none)
    (hw : i.wake = none) :
    if i.lost &&& (2 ^ 47 - 1 - md.lostAtEntry) = 0 then (md.tick i).trans = none ∧ (md.tick i).wake = md.wake
    else beginsTo md .degraded 2 (md.tick i) ∧ (md.tick i).wake = 0x20 := by
  have hstep := stepped_no_begin (md := md) hb
  simp only [hm, ht, hw, ne_eq, not_true_eq_false, and_false, if_false, if_true, Option.getD_none] at hstep
  have hstill : (md.stepped i).moving = false := by rw [hstep]; rfl
  have htick : md.tick i = (md.stepped i).applyLost i.lost i.frame := by
    rw [tick_of_not_pcs h, if_neg (by simp [hstill])]
  rw [htick, hstep]
  unfold ModeState.applyLost
  dsimp only
  split
  next hnew =>
    rw [if_pos (.inl hnew)]
    exact ⟨rfl, rfl⟩
  next hnew =>
    rw [if_neg (not_or.2 ⟨hnew, by simp [ModeState.moving]⟩)]
    exact ⟨⟨hm.symm, _, rfl, rfl, rfl⟩, rfl⟩

/-- In RUN and DEGRADED LOSTSET is applied while no transition begins or ends (R59 step 4, R62). -/
theorem tick_lost (h : i.pcs = false) (hb : i.begin_ = none) (hm : md.mode = .run ∨ md.mode = .degraded)
    (hd : md.trans = none ∨ i.done = false) :
    md.tick i = { md with drain := md.drain.map (· + 1) }.applyLost i.lost i.frame := by
  have hstep : md.stepped i = { md with drain := md.drain.map (· + 1) } := by
    rw [stepped_no_begin hb]
    rcases hm with hm | hm <;> simp [hm]
  rw [tick_of_not_pcs h, hstep, if_neg]
  rcases hd with hd | hd <;> simp [ModeState.moving, hd, hb, Option.isSome_iff_ne_none]

theorem tickRule_tick (md : ModeState) (i : ModeIn) : tickRule md i (md.tick i) := by
  refine ⟨fun h => ?_, fun h => ?_⟩
  · rw [tick_of_pcs h]
    exact tickRule_checkstop i.frame rfl
  · obtain ⟨hpcs, hforced, hdrain⟩ := tick_keeps (md := md) h
    refine ⟨hpcs, hforced, ?_, ?_, ?_, ?_, ?_⟩
    · intro m hb
      rw [tick_begin h hb]
      exact ⟨⟨rfl, _, rfl, rfl, rfl⟩, rfl, fun hm => if_pos hm⟩
    · intro hb
      rw [hdrain, stepped_no_begin hb]
    · intro c hb hm ht hw
      rw [tick_wake h hb hm ht hw]
      exact ⟨⟨rfl, _, rfl, rfl, rfl⟩, rfl⟩
    · intro hb hm ht hw
      exact tick_new_loss h hb hm ht hw
    · intro hb hd
      refine ⟨?_, ?_, ?_⟩
      · rintro ⟨hm, hl⟩
        rw [tick_lost h hb (.inl hm) hd]
        simp [ModeState.applyLost, hm, hl, entersMode, ModeState.shift]
      · rintro ⟨hm, hl⟩
        rw [tick_lost h hb (.inr hm) hd]
        simp [ModeState.applyLost, hm, hl, entersMode, ModeState.shift]
      · intro hm
        rw [tick_lost h hb (hm.imp And.left And.left) hd]
        rcases hm with ⟨hm, hl⟩ | ⟨hm, hl⟩ <;> simp [ModeState.applyLost, hm, hl]

end

/-- Settles O6: the mode after a tick is that of `ModeState.tick`, with the note of `markDone` in its transition. -/
theorem frameTickEvaluatesTheMode : Obligations.FrameTickEvaluatesTheMode := by
  unfold Obligations.FrameTickEvaluatesTheMode
  refine ⟨?_, ?_, ?_⟩
  · intro s len ph sm hon
    have hexec : exec (.frameTick len ph sm) s = _ := if_neg hon
    refine ⟨_, hexec, rfl, _, _, rfl, tickRule_tick s.mode _, rfl, ?_⟩
    · simp [Pkg.evalMode, Pkg.markDone, Function.comp_def]
  · exact fun q md => ⟨rfl, rfl, rfl, rfl, modeIn_begin_iff q md⟩
  · intro s len ph sm hoff
    rw [exec, execFrameTick, if_pos hoff]

end Sys2Proof.Machine
end

section
/-! Power good and package reset (R55, R551, R554). -/

namespace Sys2Proof.Machine

/-- A training of the host's link brings it up (SESTAT[LINK], R437). -/
theorem seLink_seTrain (p : Pkg) : p.seTrain.seLink = true := by
  unfold Pkg.seLink Pkg.seTrain
  rw [reg_setReg_same, bit, word]
  simp only [List.foldl_cons, List.foldl_nil, BitVec.getLsbD_ofNat]
  generalize (p.free 8).1.toNat / 4 % 3 = k
  generalize (p.free 8).1.toNat % 4 = w
  have hsum : 0 + (w + 1) * 2 ^ 12 + 2 ^ k * 2 ^ 8 + 1 * 2 ^ 4 = ((w + 1) * 2 ^ 7 + 2 ^ k * 2 ^ 3) * 2 ^ 5 + 2 ^ 4 := by ring
  have hbit : (((w + 1) * 2 ^ 7 + 2 ^ k * 2 ^ 3) * 2 ^ 5 + 2 ^ 4) / 2 ^ 4 % 2 = 1 := by omega
  rw [hsum, Nat.testBit_eq_decide_div_mod_eq, hbit]
  rfl

/-- What power good keeps: the ledger stacks, and everything else is as after reset (R55, R554). -/
def poweredPkg (p : Pkg) (head : Bool) : Pkg := p.afterReset head { Power.off with island := true }

theorem execPowerGood_off {s : State} (head : Bool) (hoff : s.mode.mode = .off) : exec (.powerGood head) s = .next
    { s with mode := ModeState.reset,
             pkg := if s.pkg.pw.perst then poweredPkg s.pkg head else (poweredPkg s.pkg head).seTrain } := if_pos hoff

/-- Settles O7: the package after a reset is `Pkg.afterReset`; the host's link trains at once where SVC_PERST_N is high. -/
theorem powerGoodAndPackageReset : Obligations.PowerGoodAndPackageReset := by
  unfold Obligations.PowerGoodAndPackageReset
  refine ⟨?_, ?_, ?_⟩
  · intro s head hoff
    refine ⟨_, execPowerGood_off head hoff, ?_⟩
    cases hperst : s.pkg.pw.perst
    case true => exact ⟨rfl, rfl, rfl, rfl, rfl, rfl, rfl, rfl, nofun, rfl⟩
    case false => exact ⟨rfl, rfl, rfl, rfl, rfl, rfl, rfl, rfl, fun _ => seLink_seTrain _, rfl⟩
  · exact fun s head hon => if_neg hon
  · intro s c hc hon
    have hexec : exec c s = .next s.packageReset := by rcases hc with rfl | rfl <;> rfl
    refine ⟨_, hexec, ?_⟩
    rw [State.packageReset, if_neg hon]
    exact ⟨rfl, rfl, rfl, rfl, rfl, rfl, rfl, rfl, rfl, rfl, rfl, rfl⟩

end Sys2Proof.Machine
end

section
/-! Mode commands (R55, R57). -/

namespace Sys2Proof.Machine

section
variable (p : Pkg)

@[simp] theorem rest_cmdDenied (pg off : Nat) : (p.cmdDenied pg off).rest = p.rest := by simp [Pkg.cmdDenied, Pkg.cmdEvent]
@[simp] theorem rest_cmdPending (pg off : Nat) : (p.cmdPending pg off).rest = p.rest := by simp [Pkg.cmdPending, Pkg.cmdEvent]
@[simp] theorem rest_cmdDone (pg off st : Nat) : (p.cmdDone pg off st).rest = p.rest := by simp [Pkg.cmdDone, Pkg.cmdEvent]

theorem lastCmd_cmdPending {pg off : Nat} (h : off < 4096) : LastCmd (p.cmdPending pg off) pg off 2 :=
  ⟨lastst_cmdPending p pg off, (lastcmd_cmdPending p pg off).trans (Nat.mod_eq_of_lt h)⟩

theorem lastCmd_cmdDenied {pg off : Nat} (h : off < 4096) : LastCmd (p.cmdDenied pg off) pg off 5 :=
  ⟨lastst_cmdDenied p pg off, (lastcmd_cmdDenied p pg off).trans (Nat.mod_eq_of_lt h)⟩

theorem reg_cmdPending {pg q off o : Nat} (h : q ≠ pg ∨ o ≠ 0x020) : (p.cmdPending pg off).reg q o = p.reg q o := by
  rw [Pkg.cmdPending, reg_setRf _ _ _ _ h, Pkg.cmdEvent, reg_setRf _ _ _ _ h, reg_setRf _ _ _ _ h]

/-! TARGET of MODECMD is no register that a condition of a mode command reads. -/

theorem reg_target (v : Word) (q : Nat) {o : Nat} (h : o ≠ 0xC10) : (p.setReg pgSTW 0xC10 v).reg q o = p.reg q o := by
  rw [reg_setReg, if_neg (by tauto)]

theorem rf_target (v : Word) (q hi lo : Nat) {o : Nat} (h : o ≠ 0xC10) :
    (p.setReg pgSTW 0xC10 v).rf q o hi lo = p.rf q o hi lo := by
  rw [Pkg.rf, reg_target p v q h, Pkg.rf]

theorem chainFinished_target (v : Word) : (p.setReg pgSTW 0xC10 v).chainFinished = p.chainFinished := by
  simp [Pkg.chainFinished, Pkg.chainValid, Pkg.endCh, reg_target]

theorem attempts_target (v : Word) (k : Nat) : (p.setReg pgSTW 0xC10 v).attempts k = p.attempts k :=
  rf_target p v _ _ _ (by decide)

theorem unfinished_target (v : Word) : (p.setReg pgSTW 0xC10 v).unfinished = p.unfinished := by
  rw [Pkg.unfinished, chainFinished_target, attempts_target, attempts_target]
  simp [Pkg.unfinished, Pkg.mocorDone, Pkg.hbmDone, Pkg.guestDone, Pkg.dieExcluded,
    Pkg.guestExcluded, Pkg.site, rf_target]

theorem readyExempt_target (v : Word) (pg : Nat) : (p.setReg pgSTW 0xC10 v).readyExempt pg = p.readyExempt pg := by
  simp [Pkg.readyExempt, Pkg.guestExcluded, Pkg.site, Pkg.dieFenced, Pkg.dieState, rf_target]

theorem readyConds_target (v : Word) : (p.setReg pgSTW 0xC10 v).readyConds = p.readyConds := by
  simp [Pkg.readyConds, unfinished_target, readyExempt_target, Pkg.formed, Pkg.loadHold, Pkg.blkState, reg_target,
    rf_target]

theorem modeReady_target (v : Word) (a b : Mode) : (p.setReg pgSTW 0xC10 v).modeReady a b = p.modeReady a b := by
  simp [Pkg.modeReady, Pkg.ready, readyConds_target]

theorem stwBusy_target (v : Word) (md : ModeState) : (p.setReg pgSTW 0xC10 v).stwBusy md = p.stwBusy md := by
  simp [Pkg.stwBusy, Pkg.busy]
end

/-- MODECMD with TARGET `m` (R57). -/
theorem exec_modeRow {who : Requester} {e : Instr × Mode} (he : e ∈ modeRows who) (s : State) :
    exec e.1 s = s.upd (fun p => p.cmd who pgSTW 0xC10 (fun p => p.cmdMode s.mode who e.2.code)) := by
  simp only [modeRows, List.mem_cons, List.not_mem_nil, or_false] at he
  rcases he with rfl | rfl | rfl | rfl | rfl | rfl <;> rfl

theorem modeOfCode_code (m : Mode) : modeOfCode m.code = some m := by
  cases m <;> rfl

theorem code_lt (m : Mode) : m.code < 8 := by
  cases m <;> decide

section
variable (p : Pkg) (md : ModeState) (m : Mode)

/-- The package with TARGET of MODECMD written. -/
def Pkg.target (p : Pkg) (m : Mode) : Pkg := p.setReg pgSTW 0xC10 (BitVec.ofNat 64 m.code)

@[simp] theorem rest_target : (p.target m).rest = p.rest := rest_setReg ..
@[simp] theorem target_stw : (p.target m).stw = p.stw := setReg_stw ..

/-- MODECMD of the service host (R57). -/
theorem cmdMode_host : p.cmdMode md .host m.code =
    if md.pcs = true ∨ p.stwBusy md = true ∨ p.modeReady md.mode m = false then (p.target m).cmdWrong pgSTW 0xC10
    else ({ p.target m with stw := { p.stw with modeCmd := some (m, false) } }).cmdPending pgSTW 0xC10 := by
  have hcode : m.code % 16 = m.code := Nat.mod_eq_of_lt (by have := code_lt m; omega)
  simp [Pkg.cmdMode, modeOfCode_code, hcode, stwBusy_target, modeReady_target, Pkg.target, or_assoc]

theorem cmdMode_denied {who : Requester} (h : who ≠ .host) : p.cmdMode md who m.code = p.cmdDenied pgSTW 0xC10 := by
  simp [Pkg.cmdMode, h]

theorem rf_target_code : (p.target m).rf pgSTW 0xC10 3 0 = m.code := by
  rw [Pkg.rf, Pkg.target, reg_setReg_same]
  cases m <;> rfl
end

/-- A set event touches no mode command. -/
@[simp] theorem modeCmd_setEvent (p : Pkg) (pg b cls : Nat) (d : Det) :
    (p.setEvent pg b cls d).stw.modeCmd = p.stw.modeCmd := by rw [stw_setEvent]

@[simp] theorem modeCmd_cmdWrong (p : Pkg) (pg off : Nat) : (p.cmdWrong pg off).stw.modeCmd = p.stw.modeCmd := by
  simp [Pkg.cmdWrong]

/-- Settles O4: by what `cmdMode` does for the service host and for another requester. -/
theorem modeCommandsAreJudged : Obligations.ModeCommandsAreJudged := by
  unfold Obligations.ModeCommandsAreJudged
  refine ⟨?_, ?_, ?_⟩
  · intro s e he hcmd hpcs hbusy hready
    refine ⟨_, (exec_modeRow he s).trans (upd_eq ..), ?_⟩
    rw [cmd_of_commands hcmd, cmdMode_host, if_neg (by simp [hpcs, hbusy, hready])]
    refine ⟨by simp, rfl, lastCmd_cmdPending _ (by decide), busy_cmdPending .., ?_, onlyPagesStw_of_rest ?_⟩
    · rw [Pkg.rf, reg_cmdPending _ (.inr (by decide))]
      exact rf_target_code s.pkg e.2
    · rw [rest_cmdPending]
      exact rest_target s.pkg e.2
  · intro s e he hcmd hno
    refine ⟨_, (exec_modeRow he s).trans (upd_eq ..), ?_⟩
    rw [cmd_of_commands hcmd, cmdMode_host, if_pos hno]
    exact ⟨by simp, rfl, lastCmd_cmdWrong _ (by decide), onlyPagesStw_of_rest (by simp)⟩
  · intro s who e hwho he hcmd
    refine ⟨_, (exec_modeRow he s).trans (upd_eq ..), ?_⟩
    rw [cmd_of_commands hcmd, cmdMode_denied _ _ _ hwho]
    refine ⟨lastCmd_cmdDenied _ (by decide), ?_, rfl, onlyPages_of_rest (by simp) (by simp)⟩
    rw [Pkg.rf, Pkg.cmdDenied, reg_cmdEvent _ (.inr (by decide)), Pkg.rf]

end Sys2Proof.Machine
end

section
/-! Privileged instructions, and the instructions of a core that does not execute (R54, R90, R92). -/

namespace Sys2Proof.Machine

/-- An instruction of a core that does not execute leaves the state (R54). -/
theorem runCpu_not_ready {s : State} {lc : Nat} (h : s.pkg.coreReady s.mode lc = false) (f : Fetch) (mn : String)
    (row : Nat → Bool) (priv : Decoded → Nat → Option Trap) (body : Body) : runCpu lc f mn row priv body s = .next s := by
  simp [runCpu, h]

/-- The row of opcode `op` runs on a core after a check that answers trap 0x08 at the levels of `closed` (R90). -/
def ChecksPrivilege (op : Nat) (row : CpuRow) (closed : Nat → Bool) : Prop :=
  ∃ mn priv body, (∀ lc f s, exec (row lc f) s = runCpu lc f mn (op1 op) priv body s) ∧
    ∀ d pl, closed pl = true → ∃ t : Trap, t.code = 0x08 ∧ priv d pl = some t

theorem checksPrivilege_of_pl {op n : Nat} {row : CpuRow} {mn : String} {body : Body}
    (h : ∀ lc f s, exec (row lc f) s =
      runCpu lc f mn (op1 op) (fun _ pl => if pl = n then some (Trap.of 0x08) else none) body s) :
    ChecksPrivilege op row (fun pl => pl == n) :=
  ⟨mn, _, body, h, fun _ _ hpl => ⟨_, rfl, if_pos (of_decide_eq_true hpl)⟩⟩

theorem checksPrivilege_of_mOnly {op : Nat} {row : CpuRow} {mn : String} {body : Body}
    (h : ∀ lc f s, exec (row lc f) s = runCpu lc f mn (op1 op) (fun _ pl => mOnly pl) body s) :
    ChecksPrivilege op row (fun pl => pl != 2) :=
  ⟨mn, _, body, h, fun _ _ hpl => ⟨_, rfl, if_neg (by simpa using hpl)⟩⟩

theorem checksPrivilege_of_mem {e : Nat × CpuRow × (Nat → Bool)} (he : e ∈ privilegedRows) :
    ChecksPrivilege e.1 e.2.1 e.2.2 := by
  simp only [privilegedRows, List.mem_cons, List.not_mem_nil, or_false] at he
  rcases he with rfl | rfl | rfl | rfl | rfl | rfl | rfl | rfl | rfl | rfl
  case inr.inr.inr.inr.inr.inr.inr.inr.inl | inr.inr.inr.inr.inr.inr.inr.inr.inr =>
    exact checksPrivilege_of_mOnly fun _ _ _ => rfl
  all_goals exact checksPrivilege_of_pl fun _ _ _ => rfl

/-- A three-operand row runs on a core. -/
theorem threeRow_runCpu {e : Nat × CpuRow × (Nat → Nat → Nat → Bool → BinRes)} (he : e ∈ threeRows) :
    ∃ mn row priv body, ∀ lc f s, exec (e.2.1 lc f) s = runCpu lc f mn row priv body s := by
  simp only [threeRows, List.mem_cons, List.not_mem_nil, or_false] at he
  rcases he with rfl | rfl | rfl | rfl | rfl | rfl | rfl | rfl | rfl | rfl | rfl | rfl | rfl | rfl | rfl | rfl <;>
    exact ⟨_, _, _, _, fun _ _ _ => rfl⟩

/-- Settles O38: the check of the level comes before the operands. -/
theorem privilegedInstructionsTrap : Obligations.PrivilegedInstructionsTrap := by
  unfold Obligations.PrivilegedInstructionsTrap
  refine ⟨?_, ?_, ?_⟩
  · intro e he s lc f d q hbegins hop hpl
    obtain ⟨mn, priv, body, hexec, hpriv⟩ := checksPrivilege_of_mem he
    obtain ⟨t, hcode, ht⟩ := hpriv d _ hpl
    exact ⟨t, hcode, (hexec lc f s).trans (runCpu_denied hbegins mn _ priv body (by simp [op1, hop]) ht)⟩
  · intro e he s lc f hready
    obtain ⟨mn, priv, body, hexec, -⟩ := checksPrivilege_of_mem he
    exact (hexec lc f s).trans (runCpu_not_ready hready ..)
  · intro e he s lc f hready
    obtain ⟨mn, row, priv, body, hexec⟩ := threeRow_runCpu he
    exact (hexec lc f s).trans (runCpu_not_ready hready ..)

end Sys2Proof.Machine
end

section
/-! Recorded assignments, restarts and releases of partitions (R398, R399, R514). -/

namespace Sys2Proof.Machine

/-! ### A core that is started or goes on -/

/-- A core without its control registers. -/
def Core.sansCr (c : Core) : Core := { c with cr := [] }

section
variable (c : Core)

/-- Cores that agree outside the control registers. -/
theorem fields_of_sansCr {c d : Core} (h : d.sansCr = c.sansCr) : d.run = c.run ∧ d.ip = c.ip ∧ d.g = c.g ∧ d.psw = c.psw := by
  have hf (f : Core → CoreRun × Word × Vector Word 16 × Word) := congrArg f h
  simpa [Core.sansCr] using hf fun x => (x.run, x.ip, x.g, x.psw)

@[simp] theorem sansCr_crSet (n : Nat) (v : Word) : (c.crSet n v).sansCr = c.sansCr := rfl

theorem crGet_pend (pend : BitVec 256) (n : Nat) : Core.crGet { c with pend := pend } n = c.crGet n := rfl

/-- Clearing a tenant's counters writes control registers alone (R514). -/
theorem sansCr_clearTenant : c.clearTenant.sansCr = c.sansCr := by
  unfold Core.clearTenant
  simp only [sansCr_crSet]
  rw [foldl_keeps Core.sansCr]
  · rfl
  · intro d k
    split <;> rfl

/-- Of the control registers only those of the counters are cleared. -/
theorem crGet_clearTenant {n : Nat} (h : n < 0x40 ∨ n = 0x4A ∨ n = 0x4F) : c.clearTenant.crGet n = c.crGet n := by
  have hfold : ∀ l : List Nat, (∀ k ∈ l, k < 8) → ∀ d : Core,
      (l.foldl (fun d k => if c.pmOwnerM k then d else d.crSet (0x42 + k) 0) d).crGet n = d.crGet n := by
    intro l hl
    induction l with
    | nil => exact fun d => rfl
    | cons k l ih =>
      intro d
      have hk := hl k List.mem_cons_self
      rw [List.foldl_cons, ih fun j hj => hl j (List.mem_cons_of_mem k hj)]
      split
      · rfl
      · rw [crGet_crSet, if_neg (by omega)]
  unfold Core.clearTenant
  have hne (k : Nat) (hk : k ∈ [0x40, 0x41, 0x4B, 0x4C, 0x4D, 0x4E]) : n ≠ k := by
    simp only [List.mem_cons, List.not_mem_nil, or_false] at hk
    omega
  simp only [crGet_crSet, hne 0x4C (by decide), hne 0x4E (by decide), hne 0x4D (by decide), hne 0x4B (by decide), if_false]
  rw [hfold _ (by simp)]
  simp [crGet_crSet, hne 0x40, hne 0x41]

theorem sansCr_restart (vec lcid : Nat) : (c.restart vec lcid).sansCr = (Core.start vec lcid).sansCr := by
  unfold Core.restart
  rw [foldl_keeps Core.sansCr fun d n => sansCr_crSet d _ _]

/-- A started core executes from the reset vector (R82). -/
theorem restart_starts (vec lcid : Nat) : (c.restart vec lcid).ip = BitVec.ofNat 64 vec ∧
    (c.restart vec lcid).psw = pswReset ∧ (c.restart vec lcid).run = .executing := by
  obtain ⟨hrun, hip, -, hpsw⟩ := fields_of_sansCr (sansCr_restart c vec lcid)
  exact ⟨hip, hpsw, hrun⟩

/-- The counters' registers of a started core are those that R514 keeps. -/
theorem crGet_restart (vec lcid : Nat) {n : Nat} (h : n < 16) :
    (c.restart vec lcid).crGet (0x40 + n) = c.clearTenant.crGet (0x40 + n) := by
  have hfold : ∀ (l : List Nat) (d : Core),
      (l.foldl (fun d m => d.crSet (0x40 + m) (c.clearTenant.crGet (0x40 + m))) d).crGet (0x40 + n) =
        if n ∈ l then c.clearTenant.crGet (0x40 + n) else d.crGet (0x40 + n) := by
    intro l
    induction l with
    | nil => exact fun d => rfl
    | cons m l ih =>
      intro d
      rw [List.foldl_cons, ih, crGet_crSet]
      by_cases hm : n = m <;> by_cases hl : n ∈ l <;> simp [hm, hl]
  exact (hfold _ _).trans (if_pos (List.mem_range.2 h))

/-- CYCLE and PMMCTL stand through a restart (R514). -/
theorem crGet_restart_kept (vec lcid : Nat) : (c.restart vec lcid).crGet 0x4A = c.crGet 0x4A ∧
    (c.restart vec lcid).crGet 0x4F = c.crGet 0x4F :=
  ⟨(crGet_restart c vec lcid (n := 0x0A) (by decide)).trans (crGet_clearTenant c (by decide)),
    (crGet_restart c vec lcid (n := 0x0F) (by decide)).trans (crGet_clearTenant c (by decide))⟩

/-- The core `k` under partition `pid`, with the pending bits that `c` keeps. -/
def Core.renamed (c k : Core) (pid : Nat) : Core :=
  { k.crSet 0x18 (setFld (c.crGet 0x18) 22 16 pid) with pend := c.keepPend }

theorem reassign_eq (pid : Nat) :
    c.reassign pid = if fld (c.crGet 0x18) 22 16 = pid then c else c.renamed c.clearTenant pid := rfl

theorem fields_pend (pend : BitVec 256) : Core.run { c with pend := pend } = c.run ∧ Core.ip { c with pend := pend } = c.ip ∧
    Core.g { c with pend := pend } = c.g ∧ Core.psw { c with pend := pend } = c.psw := ⟨rfl, rfl, rfl, rfl⟩

theorem renamed_keeps (k : Core) (pid : Nat) : (c.renamed k pid).run = k.run ∧ (c.renamed k pid).ip = k.ip ∧
    (c.renamed k pid).g = k.g ∧ (c.renamed k pid).psw = k.psw := by
  rw [Core.renamed]
  obtain ⟨hrun, hip, hg, hpsw⟩ := fields_of_sansCr (sansCr_crSet k 0x18 (setFld (c.crGet 0x18) 22 16 pid))
  obtain ⟨krun, kip, kg, kpsw⟩ := fields_pend (k.crSet 0x18 (setFld (c.crGet 0x18) 22 16 pid)) c.keepPend
  exact ⟨krun.trans hrun, kip.trans hip, kg.trans hg, kpsw.trans hpsw⟩

theorem lcid_renamed (k : Core) {pid : Nat} (h : pid < 128) : fld ((c.renamed k pid).crGet 0x18) 22 16 = pid := by
  rw [Core.renamed, crGet_pend, crGet_crSet, if_pos rfl, fld_setFld_same]
  exact Nat.mod_eq_of_lt h

/-- A core that goes on under another partition keeps its registers, and LCID names the new one (R399). -/
theorem reassign_keeps {pid : Nat} (h : pid < 128) : (c.reassign pid).run = c.run ∧ (c.reassign pid).ip = c.ip ∧
    (c.reassign pid).g = c.g ∧ (c.reassign pid).psw = c.psw ∧ fld ((c.reassign pid).crGet 0x18) 22 16 = pid := by
  rw [reassign_eq]
  split
  next heq => exact ⟨rfl, rfl, rfl, rfl, heq⟩
  next =>
    obtain ⟨hrun, hip, hg, hpsw⟩ := fields_of_sansCr (sansCr_clearTenant c)
    obtain ⟨krun, kip, kg, kpsw⟩ := renamed_keeps c c.clearTenant pid
    exact ⟨krun.trans hrun, kip.trans hip, kg.trans hg, kpsw.trans hpsw, lcid_renamed c _ h⟩

end

/-! ### The last core of a partition on its die -/

section
variable (p : Pkg) (lc : Nat) (old : Option Nat)

/-- Leaving a partition records a drain, and a core that executes waits for its end (R248). -/
theorem leavePid_keeps : (p.leavePid lc old).stw.lcpid = p.stw.lcpid ∧ (p.leavePid lc old).stw.assigns = p.stw.assigns := by
  unfold Pkg.leavePid
  split
  · exact ⟨rfl, rfl⟩
  · dsimp only
    split
    · exact ⟨rfl, rfl⟩
    · split <;> exact ⟨rfl, rfl⟩

theorem core_leavePid (h : (p.core lc).run.executes = false) (k : Nat) : (p.leavePid lc old).core k = p.core k := by
  unfold Pkg.leavePid
  split
  · rfl
  · dsimp only
    split
    · rfl
    · rw [if_neg]
      · rfl
      · exact fun he => Bool.noConfusion (h.symm.trans he)

/-- A die that keeps another core of the partition does not drain it. -/
theorem leavePid_shared {q : Nat} (h : ∃ k, k < 18 ∧ p.lcpid (lcDie lc * 18 + k) = q) : p.leavePid lc (some q) = p := by
  obtain ⟨k, hk, hq⟩ := h
  have hany : (List.range 18).any (fun k => p.lcpid (lcDie lc * 18 + k) == q) = true :=
    List.any_eq_true.2 ⟨k, List.mem_range.2 hk, by simp [hq]⟩
  exact if_pos hany

end

/-! ### The assignment of a core -/

/-- The assignment of `lc` to `pid` is dropped (R399): the core is not MAPPED, the partition not DEFINED, or the core executes
below M. -/
def Pkg.assignDrops (p : Pkg) (lc pid : Nat) : Bool :=
  let run := match tblGet (fun _ => none) p.stw.held lc with | some (_, r) => r | none => (p.core lc).run
  !p.mapped lc || (pid < 128 && (p.part pid).st != .defined) || (run.executes && (p.core lc).pl != 2)

/-- What ASGNREJ and its event do. -/
def Pkg.assignReject (p : Pkg) (lc pid origin : Nat) : Pkg :=
  (p.setEvent pgSTW 16 3 { Det.none with pids := (p.pidOf lc).toList, lc := some lc }).logEvent 0x11 origin (some lc) (p.pidOf lc)
    pgSTW (BitVec.ofNat 64 pid)

section
variable {p : Pkg} {lc pid o : Nat}

theorem assignApply_drop (h : p.assignDrops lc pid = true) : p.assignApply lc pid o = p.assignReject lc pid o := if_pos h

/-- A core that does not execute starts for its new partition. -/
theorem assignApply_start (hd : p.assignDrops lc pid = false) (hp : pid < 128)
    (hheld : tblGet (fun _ => none) p.stw.held lc = none)
    (hrun : (p.core lc).run.executes = false) :
    p.assignApply lc pid o = (p.restartCore lc pid).leavePid lc (p.pidOf lc) := by
  unfold Pkg.assignDrops at hd
  rw [hheld] at hd
  dsimp only at hd
  unfold Pkg.assignApply
  rw [hheld]
  dsimp only
  rw [if_neg (by rw [hd]; exact Bool.false_ne_true), if_neg (by omega), if_neg (by simp [hrun])]

/-- A core that executes goes on under its new partition. -/
theorem assignApply_go (hd : p.assignDrops lc pid = false) (hp : pid < 128) (hheld : tblGet (fun _ => none) p.stw.held lc = none)
    (hrun : (p.core lc).run.executes = true) :
    p.assignApply lc pid o = ((p.setCore lc ((p.core lc).reassign pid)).setLcpid lc pid).leavePid lc (p.pidOf lc) := by
  unfold Pkg.assignDrops at hd
  rw [hheld] at hd
  dsimp only at hd
  unfold Pkg.assignApply
  rw [hheld]
  dsimp only
  rw [if_neg (by rw [hd]; exact Bool.false_ne_true), if_neg (by omega), if_pos hrun]

/-- An unassigned core stops. -/
theorem assignApply_stop (hd : p.assignDrops lc pid = false) (hp : 128 ≤ pid) :
    p.assignApply lc pid o = ((Pkg.setCore { p with stw := { p.stw with held := tblErase p.stw.held lc } } lc
      { p.core lc with run := .idle, io := [], ioPos := 0 }).setLcpid lc 0x80).leavePid lc (p.pidOf lc) := by
  have hnot : ¬ p.assignDrops lc pid = true := by simp [hd]
  exact (if_neg hnot).trans (if_pos hp)

/-- An assignment of a MAPPED core to a DEFINED partition, or to none, is not dropped when the core is idle or executes at M. -/
theorem assignDrops_false (hmap : p.mapped lc = true) (hst : pid < 128 → (p.part pid).st = .defined)
    (hheld : tblGet (fun _ => none) p.stw.held lc = none) (hrun : (p.core lc).run.executes = true → (p.core lc).pl = 2) :
    p.assignDrops lc pid = false := by
  unfold Pkg.assignDrops
  rw [hheld, hmap]
  by_cases hp : pid < 128 <;> simpa [hp, hst] using hrun

theorem assignDrops_of_not_mapped (h : p.mapped lc = false) : p.assignDrops lc pid = true := by
  simp [Pkg.assignDrops, h]

theorem assignDrops_of_not_defined (hp : pid < 128) (h : (p.part pid).st ≠ .defined) : p.assignDrops lc pid = true := by
  simp [Pkg.assignDrops, hp, h]

theorem assignDrops_below_m (hheld : tblGet (fun _ => none) p.stw.held lc = none) (hrun : (p.core lc).run.executes = true)
    (hpl : (p.core lc).pl ≠ 2) : p.assignDrops lc pid = true := by
  simp [Pkg.assignDrops, hheld, hrun, hpl]

/-- A dropped assignment sets ASGNREJ and logs its event (R399). -/
theorem assignReject_keeps : (p.assignReject lc pid o).stw.lcpid = p.stw.lcpid ∧
    (p.assignReject lc pid o).stw.assigns = p.stw.assigns ∧ (p.assignReject lc pid o).stw.evSeq = p.stw.evSeq + 1 := by
  have hset := stw_setEvent p pgSTW 16 3 { Det.none with pids := (p.pidOf lc).toList, lc := some lc }
  rw [Pkg.assignReject, logEvent_stw, hset]
  exact ⟨rfl, rfl, rfl⟩

theorem asgnrej_assignReject (h : bit (p.reg pgSTW 0x030) 16 = false) :
    bit ((p.assignReject lc pid o).reg pgSTW 0x028) 16 = true := by
  rw [Pkg.assignReject, reg_logEvent _ _ _ _ _ _ _ (.inl (by decide))]
  exact errstat_setEvent p _ (by decide) h

theorem event_assignReject :
    ∃ e, (p.assignReject lc pid o).stw.events.head? = some e ∧ e.code = 0x11 ∧ e.lc = some lc := by
  rw [Pkg.assignReject, logEvent_stw]
  exact ⟨_, rfl, rfl, rfl⟩

/-- What a restart of a core leaves of the other cores, and of the steward but the partitions of the cores. -/
theorem core_restartCore_same : (p.restartCore lc pid).core lc =
    (p.core lc).restart (p.part pid).vec (pid * 0x10000 + lc) := core_setCore_same ..

theorem core_restartCore_other {k : Nat} (h : k ≠ lc) : (p.restartCore lc pid).core k = p.core k :=
  core_setCore_other _ _ h

theorem lcpid_restartCore_same : (p.restartCore lc pid).lcpid lc = pid := lcpid_setLcpid_same ..

theorem lcpid_restartCore_other {k : Nat} (h : k ≠ lc) : (p.restartCore lc pid).lcpid k = p.lcpid k :=
  lcpid_setLcpid_other _ _ h

end

/-- The package with the recorded assignment of `lc` taken off. -/
def Pkg.assignTaken (p : Pkg) (lc : Nat) : Pkg := { p with stw := { p.stw with assigns := tblErase p.stw.assigns lc } }

section
variable (p : Pkg) (lc k : Nat)

@[simp] theorem core_assignTaken : (p.assignTaken lc).core k = p.core k := rfl
@[simp] theorem mapped_assignTaken : (p.assignTaken lc).mapped k = p.mapped k := rfl
@[simp] theorem part_assignTaken : (p.assignTaken lc).part k = p.part k := rfl
@[simp] theorem lcpid_assignTaken : (p.assignTaken lc).lcpid k = p.lcpid k := rfl
@[simp] theorem pidOf_assignTaken : (p.assignTaken lc).pidOf k = p.pidOf k := rfl
@[simp] theorem reg_assignTaken (o : Nat) : (p.assignTaken lc).reg k o = p.reg k o := rfl
@[simp] theorem assignDrops_assignTaken (pid : Nat) : (p.assignTaken lc).assignDrops k pid = p.assignDrops k pid := rfl

end

theorem assigns_assignTaken (p : Pkg) (lc : Nat) : tblGet (fun _ => none) (p.assignTaken lc).stw.assigns lc = none :=
  tblGet_tblErase_same ..

/-- ASSIGNMENT_APPLY of a recorded assignment that a tick has seen. -/
theorem exec_assignmentApply {s : State} {lc : Lc} {pid o : Nat}
    (hrec : tblGet (fun _ => none) s.pkg.stw.assigns lc.val = some (pid, o))
    (hripe : s.pkg.isRipe .assign lc.val = true) : exec (.assignmentApply lc) s =
      .next { s with pkg := (s.pkg.assignTaken lc.val).assignApply lc.val pid o } := by
  rw [exec, execAssignmentApply, upd_eq, hrec]
  dsimp only
  rw [if_neg (by simp [hripe])]
  rfl

/-- An unassigned core that is not dropped stops and belongs to no partition (R399). -/
theorem unassigned {p : Pkg} {lc o : Nat} (hd : p.assignDrops lc 0x80 = false) :
    ((p.assignTaken lc).assignApply lc 0x80 o).lcpid lc = 0x80 ∧
    (((p.assignTaken lc).assignApply lc 0x80 o).core lc).run = .idle ∧
    tblGet (fun _ => none) ((p.assignTaken lc).assignApply lc 0x80 o).stw.assigns lc = none := by
  rw [assignApply_stop (p := p.assignTaken lc) hd (Nat.le_refl 128)]
  generalize hq : (Pkg.setCore _ lc _).setLcpid lc 0x80 = q
  have hrun : (q.core lc).run = .idle := by
    rw [← hq]
    exact congrArg Core.run (core_setCore_same ..)
  have hlcpid : q.lcpid lc = 0x80 := by
    rw [← hq]
    exact lcpid_setLcpid_same ..
  have hassigns : tblGet (fun _ => none) q.stw.assigns lc = none := by
    rw [← hq]
    exact assigns_assignTaken p lc
  obtain ⟨klcpid, kassigns⟩ := leavePid_keeps q lc ((p.assignTaken lc).pidOf lc)
  refine ⟨?_, ?_, by rw [kassigns, hassigns]⟩
  · rw [Pkg.lcpid, klcpid]
    exact hlcpid
  · rw [core_leavePid q lc _ (by rw [hrun]; rfl), hrun]

/-! ### RESTART and RELEASE -/

/-- DCSVEC is a register of the directory slices. -/
theorem setDcs_keeps (p : Pkg) (pid : Nat) (b : Bool) : (p.setDcs pid b).stw = p.stw ∧ (p.setDcs pid b).cores = p.cores :=
  ⟨foldl_keeps Pkg.stw (fun _ _ => setRf_stw ..) _ _, foldl_keeps Pkg.cores (fun _ _ => setRf_cores ..) _ _⟩

/-- RESTART restarts a core when it is MAPPED and of the partition. -/
def Pkg.restartOf (pid : Nat) (p : Pkg) (lc : Nat) : Pkg :=
  if p.lcpid lc == pid && p.mapped lc then p.restartCore lc pid else p

/-- What no restart of a core of the partition changes. -/
def Pkg.placed (p : Pkg) : (Nat → Nat) × Tbl Nat × Tbl Partition := (p.lcpid, p.stw.cmap, p.stw.parts)

section
variable (p : Pkg) (pid : Nat)

theorem placed_restartOf (lc : Nat) : (p.restartOf pid lc).placed = p.placed := by
  unfold Pkg.restartOf
  split
  next h =>
    rw [Bool.and_eq_true, beq_iff_eq] at h
    have hlcpid : (p.restartCore lc pid).lcpid = p.lcpid := by
      funext k
      by_cases hk : k = lc
      · rw [hk, lcpid_restartCore_same, h.1]
      · exact lcpid_restartCore_other hk
    rw [Pkg.placed, hlcpid]
    rfl
  next => rfl

theorem core_restartOf_other {lc k : Nat} (h : k ≠ lc) : (p.restartOf pid lc).core k = p.core k := by
  unfold Pkg.restartOf
  split
  · exact core_restartCore_other h
  · rfl

/-- A core of another partition is left. -/
theorem core_restart_other {lc : Nat} (h : p.lcpid lc ≠ pid) (n : Nat) :
    ((List.range n).foldl (Pkg.restartOf pid) p).core lc = p.core lc := by
  by_cases hn : lc ∈ List.range n
  · obtain ⟨r, hr, hcore, heq⟩ := foldl_at_mem (get := Pkg.core) (fun r i j hj => core_restartOf_other r pid hj) Pkg.placed
      (placed_restartOf · pid) List.nodup_range hn p
    have hlcpid : r.lcpid lc = p.lcpid lc := congrFun (congrArg Prod.fst hr) lc
    rw [heq, Pkg.restartOf, if_neg (by simp [hlcpid, h]), hcore]
  · exact foldl_at_not_mem (get := Pkg.core) (fun r i j hj => core_restartOf_other r pid hj) hn p

/-- A MAPPED core of the partition starts at its reset vector (R82, R398). -/
theorem core_restart_own {lc n : Nat} (hn : lc < n) (h : p.lcpid lc = pid) (hmap : p.mapped lc = true) :
    ((List.range n).foldl (Pkg.restartOf pid) p).core lc = (p.core lc).restart (p.part pid).vec (pid * 0x10000 + lc) := by
  obtain ⟨r, hr, hcore, heq⟩ := foldl_at_mem (get := Pkg.core) (fun r i j hj => core_restartOf_other r pid hj) Pkg.placed
    (placed_restartOf · pid) List.nodup_range (List.mem_range.2 hn) p
  have hlcpid : r.lcpid lc = p.lcpid lc := congrFun (congrArg Prod.fst hr) lc
  have hmapped : r.mapped lc = p.mapped lc := congrArg (fun x : (Nat → Nat) × Tbl Nat × Tbl Partition =>
    tblGet (fun _ => 0) x.2.1 lc / 0x4000 == 1) hr
  have hpart : r.part pid = p.part pid := congrArg (fun x : (Nat → Nat) × Tbl Nat × Tbl Partition =>
    tblGet (fun _ => Partition.reset) x.2.2 pid) hr
  rw [heq, Pkg.restartOf, if_pos (by simp [hlcpid, h, hmapped, hmap]), core_restartCore_same, hcore, hpart]

theorem part_restart (n k : Nat) : ((List.range n).foldl (Pkg.restartOf pid) p).part k = p.part k :=
  congrArg (fun x : (Nat → Nat) × Tbl Nat × Tbl Partition => tblGet (fun _ => Partition.reset) x.2.2 k)
    (foldl_keeps Pkg.placed (placed_restartOf · pid) (List.range n) p)

end

/-- The package with DCSVEC clear and the partition DEFINED again (R398). -/
def Pkg.redefined (p : Pkg) (pid : Nat) : Pkg :=
  (p.setDcs pid false).setPart pid { p.part pid with st := .defined, restart := false, logged := false }

section
variable (p : Pkg) (pid : Nat)

theorem part_redefined : (p.redefined pid).part pid = { p.part pid with st := .defined, restart := false, logged := false } :=
  part_setPart_same ..

theorem core_redefined (lc : Nat) : (p.redefined pid).core lc = p.core lc := by
  obtain ⟨-, hcores⟩ := setDcs_keeps p pid false
  simp [Pkg.redefined, Pkg.core, hcores]

theorem lcpid_redefined (lc : Nat) : (p.redefined pid).lcpid lc = p.lcpid lc := by
  obtain ⟨hstw, -⟩ := setDcs_keeps p pid false
  simp [Pkg.redefined, Pkg.lcpid, Pkg.setPart, hstw]

theorem mapped_redefined (lc : Nat) : (p.redefined pid).mapped lc = p.mapped lc := by
  obtain ⟨hstw, -⟩ := setDcs_keeps p pid false
  simp [Pkg.redefined, Pkg.mapped, Pkg.cmapSt, Pkg.cmapEnt, Pkg.setPart, hstw]

end

/-- RESTART_APPLY of a RESTART that a tick has seen. -/
theorem exec_restartApply {s : State} {pid : Pid} (h : (s.pkg.part pid.val).restart = true)
    (hripe : s.pkg.isRipe .restart pid.val = true) : exec (.restartApply pid) s =
      .next { s with pkg := (List.range 216).foldl (Pkg.restartOf pid.val) (s.pkg.redefined pid.val) } := by
  rw [exec, execRestartApply, upd_eq]
  dsimp only
  rw [if_neg (by simp [h, hripe])]
  rfl

/-- RELEASE_APPLY of a RELEASE that a tick has seen. -/
theorem exec_releaseApply {s : State} {pid : Pid} {o : Nat} (h : (s.pkg.part pid.val).release = some o)
    (hripe : s.pkg.isRipe .release pid.val = true) (hst : (s.pkg.part pid.val).st = .defined) :
    exec (.releaseApply pid) s = .next { s with pkg :=
      (s.pkg.setPart pid.val { s.pkg.part pid.val with st := .free, vec := 0, release := none }).noteRekey pid.val o } := by
  rw [exec, execReleaseApply, upd_eq]
  dsimp only
  rw [h]
  simp [hripe, hst]

/-- Settles O14: an assignment is dropped or taken by `assignApply`; a restart and a release act on their partition. -/
theorem recordedAssignmentsTakeEffect : Obligations.RecordedAssignmentsTakeEffect := by
  unfold Obligations.RecordedAssignmentsTakeEffect
  refine ⟨?_, ?_, ?_, ?_, ?_, ?_, ?_⟩
  · intro s lc pid o hrec hripe hpid hmap hst hrun hold hheld
    refine ⟨_, exec_assignmentApply hrec hripe, ?_⟩
    have hidle : (s.pkg.core lc.val).run.executes = false := by rw [hrun]; rfl
    have hdrops : s.pkg.assignDrops lc.val pid = false :=
      assignDrops_false hmap (fun _ => hst) hheld fun h => Bool.noConfusion (hidle.symm.trans h)
    have happly := assignApply_start (p := s.pkg.assignTaken lc.val) (o := o) hdrops hpid hheld hidle
    rw [pidOf_assignTaken, hold] at happly
    have hcore := core_restartCore_same (p := s.pkg.assignTaken lc.val) (lc := lc.val) (pid := pid)
    obtain ⟨hip, hpsw, hexe⟩ := restart_starts (s.pkg.core lc.val) (s.pkg.part pid).vec (pid * 0x10000 + lc.val)
    obtain ⟨hcycle, hpmm⟩ := crGet_restart_kept (s.pkg.core lc.val) (s.pkg.part pid).vec (pid * 0x10000 + lc.val)
    dsimp only
    rw [happly]
    exact ⟨lcpid_restartCore_same, hcore, (congrArg Core.ip hcore).trans hip, (congrArg Core.psw hcore).trans hpsw,
      (congrArg Core.run hcore).trans hexe, (congrArg (Core.crGet · 0x4A) hcore).trans hcycle,
      (congrArg (Core.crGet · 0x4F) hcore).trans hpmm, assigns_assignTaken .., rfl,
      fun k hk => ⟨core_restartCore_other hk, lcpid_restartCore_other hk⟩⟩
  · intro s lc pid o q hrec hripe hpid hmap hst hrun hpl hold hshares hheld
    refine ⟨_, exec_assignmentApply hrec hripe, ?_⟩
    have hexe : (s.pkg.core lc.val).run.executes = true := by rw [hrun]; rfl
    have hdrops : s.pkg.assignDrops lc.val pid = false := assignDrops_false hmap (fun _ => hst) hheld fun _ => hpl
    have happly := assignApply_go (p := s.pkg.assignTaken lc.val) (o := o) hdrops hpid hheld hexe
    have hcore := core_setCore_same (s.pkg.assignTaken lc.val) lc.val ((s.pkg.core lc.val).reassign pid)
    obtain ⟨k, hk, hother, hq⟩ := hshares
    have hstays := lcpid_setLcpid_other ((s.pkg.assignTaken lc.val).setCore lc.val ((s.pkg.core lc.val).reassign pid)) pid hother
    rw [pidOf_assignTaken, hold, core_assignTaken, leavePid_shared _ _ ⟨k, hk, hstays.trans hq⟩] at happly
    obtain ⟨krun, kip, kg, kpsw, klcid⟩ := reassign_keeps (s.pkg.core lc.val) hpid
    dsimp only
    rw [happly]
    exact ⟨lcpid_setLcpid_same .., (congrArg Core.run hcore).trans (krun.trans hrun), (congrArg Core.ip hcore).trans kip,
      (congrArg Core.g hcore).trans kg, (congrArg Core.psw hcore).trans kpsw,
      (congrArg (fun c : Core => fld (c.crGet 0x18) 22 16) hcore).trans klcid, assigns_assignTaken ..⟩
  · intro s lc o hrec hripe hmap hrun hheld
    refine ⟨_, exec_assignmentApply hrec hripe, ?_⟩
    exact unassigned (assignDrops_false hmap (by omega) hheld fun h => by simp [hrun, CoreRun.executes] at h)
  · intro s lc o q hrec hripe hmap hrun hpl hold hheld
    refine ⟨_, exec_assignmentApply hrec hripe, ?_⟩
    exact unassigned (assignDrops_false hmap (by omega) hheld fun _ => hpl)
  · intro s lc pid o hrec hripe hwhy
    refine ⟨_, exec_assignmentApply hrec hripe, ?_⟩
    have hdrops : s.pkg.assignDrops lc.val pid = true := by
      rcases hwhy with hmap | ⟨hpid, hst⟩ | ⟨hrun, hpl, hheld⟩
      · exact assignDrops_of_not_mapped hmap
      · exact assignDrops_of_not_defined hpid hst
      · exact assignDrops_below_m hheld (by rw [hrun]; rfl) hpl
    obtain ⟨hlcpid, hassigns, hseq⟩ := assignReject_keeps (p := s.pkg.assignTaken lc.val) (lc := lc.val) (pid := pid) (o := o)
    dsimp only
    rw [assignApply_drop (p := s.pkg.assignTaken lc.val) hdrops]
    exact ⟨hlcpid, asgnrej_assignReject (p := s.pkg.assignTaken lc.val), by rw [hassigns, assigns_assignTaken], hseq,
      event_assignReject⟩
  · intro s pid hrestart hripe
    refine ⟨_, exec_restartApply hrestart hripe, ?_⟩
    have hpart := (part_restart (s.pkg.redefined pid.val) pid.val 216 pid.val).trans (part_redefined s.pkg pid.val)
    refine ⟨by rw [hpart], by rw [hpart], ?_, ?_⟩
    · intro lc hlc hpid hmap
      have hcore := core_restart_own (s.pkg.redefined pid.val) pid.val hlc ((lcpid_redefined ..).trans hpid)
        ((mapped_redefined ..).trans hmap)
      rw [core_redefined, part_redefined] at hcore
      obtain ⟨hip, hpsw, hrun⟩ := restart_starts (s.pkg.core lc) (s.pkg.part pid.val).vec (pid.val * 0x10000 + lc)
      dsimp only
      rw [hcore]
      exact ⟨hrun, hip, hpsw⟩
    · intro lc hpid
      dsimp only
      rw [core_restart_other _ _ (by rwa [lcpid_redefined]), core_redefined]
  · intro s pid o hrel hripe hst
    refine ⟨_, exec_releaseApply hrel hripe hst, ?_⟩
    have hpart : ((s.pkg.setPart pid.val { s.pkg.part pid.val with st := .free, vec := 0, release := none }).noteRekey pid.val
        o).part pid.val = { s.pkg.part pid.val with st := .free, vec := 0, release := none, rekey := some o } := by
      refine (part_setPart_same ..).trans ?_
      rw [part_setPart_same]
    exact ⟨congrArg Partition.st hpart, congrArg Partition.vec hpart, congrArg Partition.release hpart,
      congrArg Partition.rekey hpart, rfl, rfl⟩

end Sys2Proof.Machine
end

section
/-! Training and its retries (R63, R480, R489, R490). -/

namespace Sys2Proof.Machine

/-- The package in which the attempt of part `t` has ended (R489). -/
def Pkg.trainDone (p : Pkg) (t : Nat) : Pkg :=
  { p with boot := { p.boot with training := p.boot.training.filter (fun u => u != t) } }

section
variable (p : Pkg) (t : Nat)

theorem trainDone_ends : t ∉ (p.trainDone t).boot.training := by
  simp [Pkg.trainDone]

theorem rf_boot (b : Boot) (pg o hi lo : Nat) : Pkg.rf { p with boot := b } pg o hi lo = p.rf pg o hi lo := rfl
theorem rf_partDone (pg o hi lo : Nat) : (p.partDone t).rf pg o hi lo = p.rf pg o hi lo := rfl
theorem rf_setDieState (d v pg o hi lo : Nat) : (p.setDieState d v).rf pg o hi lo = p.rf pg o hi lo := rfl
theorem rf_setLink (d : Nat) (x : DieLink) (pg o hi lo : Nat) : (p.setLink d x).rf pg o hi lo = p.rf pg o hi lo := rfl

theorem dieState_partDone (d : Nat) : (p.partDone t).dieState d = p.dieState d := rfl

end

/-! ### An attempt that succeeds -/

/-- The port of a guest whose link has trained offers its block (R310). -/
def Pkg.guestTrained (p : Pkg) (g n : Nat) : Pkg :=
  ((p.setRf (pgGP g) 0x200 3 0 6).setReg (pgGP g) 0x210 0).setGuest g { p.guest g with width := n / 256, rate := n % 256 }

/-- A chain link has trained on all its lanes. -/
def Pkg.chainTrained (p : Pkg) (down : Bool) (n : Nat) : Pkg :=
  let p := (p.setRf (pgCH down) 0x200 3 0 2).setRf (pgCH down) 0x200 13 12 0
  let p := (p.setReg (pgCH down) 0x208 (BitVec.ofNat 64 n)).setChPort down { ChPort.reset with bad := [] }
  if down then p.chdTrained else p

/-- A failed attempt of a guest's port ends its re-training. -/
def Pkg.retrainOff (p : Pkg) (t : Nat) : Pkg :=
  if 22 ≤ t ∧ t < 24 then p.setGuest (t - 22) { p.guest (t - 22) with retrain := false } else p

section
variable {s : State}

theorem exec_trained_ledger {k : Fin 2} (h : 24 + k.val ∈ s.pkg.boot.training) (n : Nat) :
    exec (.trainingAttemptEnd (.ledger k) true n) s =
      .next { s with pkg := (s.pkg.trainDone (24 + k.val)).setRf (pgLSC k.val) 0x200 3 0 2 } := by
  rw [exec, execTrainingAttemptEnd, upd_eq]
  simp [partNum, h, Pkg.trainDone]

theorem exec_trained_hbm {k : Fin 8} (h : 14 + k.val ∈ s.pkg.boot.training) (n : Nat) :
    exec (.trainingAttemptEnd (.hbm k) true n) s =
      .next { s with pkg := (s.pkg.trainDone (14 + k.val)).hbmTrained k.val } := by
  rw [exec, execTrainingAttemptEnd, upd_eq]
  simp [partNum, h, Pkg.trainDone]

theorem exec_trained_guest {g : Fin 2} (h : 22 + g.val ∈ s.pkg.boot.training) (hre : (s.pkg.guest g.val).retrain = false)
    (n : Nat) :
    exec (.trainingAttemptEnd (.guest g) true n) s =
      .next { s with pkg := (s.pkg.trainDone (22 + g.val)).guestTrained g.val n } := by
  rw [exec, execTrainingAttemptEnd, upd_eq]
  dsimp only
  rw [if_neg (by simp [partNum, h]), if_neg (by simp)]
  have hagain : ¬ ((s.pkg.trainDone (22 + g.val)).guest g.val).retrain = true := by
    change ¬ (s.pkg.guest g.val).retrain = true
    simp [hre]
  exact congrArg (fun p => Host.Outcome.next { s with pkg := p }) (if_neg hagain)

theorem exec_trained_mocor {d : Die} (h : 2 + d.val ∈ s.pkg.boot.training) (n : Nat) :
    exec (.trainingAttemptEnd (.mocor d) true n) s = .next { s with pkg := s.pkg.mocorTrained s.mode d.val n } := by
  rw [exec, execTrainingAttemptEnd, upd_eq]
  simp [partNum, h]

theorem exec_train_failed {part : Part} (h : partNum part ∈ s.pkg.boot.training) (hn : partNum part < 26) (n : Nat) :
    exec (.trainingAttemptEnd part false n) s =
      .next { s with pkg := (s.pkg.retrainOff (partNum part)).trainFail (partNum part) } := by
  rw [exec, execTrainingAttemptEnd, upd_eq]
  cases part
  case pcie m link =>
    have : 26 ≤ partNum (.pcie m link) := by rw [partNum]; omega
    omega
  all_goals
    dsimp only
    rw [if_neg (by simpa using h), if_pos (by simp)]
    rfl

theorem exec_trained_chain {down : Bool} (h : partNum (.chain down) ∈ s.pkg.boot.training) {n : Nat} (hn : n < 65536) :
    exec (.trainingAttemptEnd (.chain down) true n) s =
      .next { s with pkg := (s.pkg.trainDone (partNum (.chain down))).chainTrained down n } := by
  have hlanes : maskLanes (n / 65536) = [] := by
    rw [Nat.div_eq_of_lt hn]
    rfl
  rw [exec, execTrainingAttemptEnd, upd_eq]
  dsimp only
  rw [if_neg (by simpa using h), if_neg (by simp), hlanes, Nat.mod_eq_of_lt hn]
  rfl

end

/-! ### What a trained part reads -/

/-- The pages of a die's link, at the hub and at the die, and its clocks. -/
theorem linkPages_ne (d : Die) : pgMP d.val ≠ pgMOCOR d.val ∧ pgMP d.val ≠ pgCLK d.val := by
  revert d
  decide

section
variable (p : Pkg)

/-- The controllers of a stack are pages of their own. -/
theorem rf_controller (k : Fin 8) (n hi lo : Nat) (hn : n < 16) :
    (if p.mcDisabled n then p else p.setRf (pgMC n) 0x200 3 0 1).rf (pgHPHY k.val) 0x200 hi lo =
      p.rf (pgHPHY k.val) 0x200 hi lo := by
  have hne : pgHPHY k.val ≠ pgMC n := by
    have := k.isLt
    simp only [pgHPHY, pgMC, pgHub]
    omega
  split
  · rfl
  · exact rf_setRf_reg _ _ _ _ _ _ (.inl hne)

theorem boot_controller (n : Nat) : (if p.mcDisabled n then p else p.setRf (pgMC n) 0x200 3 0 1).boot = p.boot := by
  split
  · rfl
  · exact setRf_boot ..

/-- A trained stack reads ACTIVE on all its channels (R330, R336). -/
theorem hbmTrained_reads (k : Fin 8) : (p.hbmTrained k.val).rf (pgHPHY k.val) 0x200 3 0 = 2 ∧
    (p.hbmTrained k.val).rf (pgHPHY k.val) 0x200 15 8 = 0xFF ∧ (p.hbmTrained k.val).boot.training = p.boot.training := by
  have hk := k.isLt
  simp only [Pkg.hbmTrained, List.foldl_cons, List.foldl_nil]
  rw [rf_controller _ k _ _ _ (by omega), rf_controller _ k _ _ _ (by omega), rf_controller _ k _ _ _ (by omega),
    rf_controller _ k _ _ _ (by omega), boot_controller, boot_controller]
  refine ⟨?_, by simp, by simp [Pkg.partDone]⟩
  rw [rf_setRf_fld _ _ _ _ (by decide) (by decide) (by decide) (by decide)]
  simp

theorem guestTrained_reads (g n : Nat) : (p.guestTrained g n).rf (pgGP g) 0x200 3 0 = 6 := by
  have hreg : (p.guestTrained g n).rf (pgGP g) 0x200 3 0 = ((p.setRf (pgGP g) 0x200 3 0 6).setReg (pgGP g) 0x210 0).rf
      (pgGP g) 0x200 3 0 := rfl
  rw [hreg, Pkg.rf, reg_setReg_off _ _ _ (by decide), ← Pkg.rf]
  simp

@[simp] theorem reg_chdTrained (q o : Nat) : p.chdTrained.reg q o = p.reg q o := by
  unfold Pkg.chdTrained
  split
  · simp [Pkg.sendEnum, Pkg.chainMsg]
    rfl
  · split
    · rfl
    · split <;> simp [Pkg.sendEnum, Pkg.chainMsg]

/-- A trained chain link reads ACTIVE at full width, and the delay it found (R465, R480). -/
theorem chainTrained_reads (down : Bool) {n : Nat} (hn : n < 65536) : (p.chainTrained down n).chState down = 2 ∧
    (p.chainTrained down n).rf (pgCH down) 0x200 13 12 = 0 ∧ (p.chainTrained down n).rf (pgCH down) 0x208 15 0 = n := by
  have hreg (o : Nat) : (p.chainTrained down n).reg (pgCH down) o =
      (((p.setRf (pgCH down) 0x200 3 0 2).setRf (pgCH down) 0x200 13 12 0).setReg (pgCH down) 0x208 (BitVec.ofNat 64 n)).reg
        (pgCH down) o := by
    cases down
    · rfl
    · exact reg_chdTrained ..
  have hrf (hi lo : Nat) : (p.chainTrained down n).rf (pgCH down) 0x200 hi lo =
      ((p.setRf (pgCH down) 0x200 3 0 2).setRf (pgCH down) 0x200 13 12 0).rf (pgCH down) 0x200 hi lo := by
    rw [Pkg.rf, hreg, reg_setReg_off _ _ _ (by decide), ← Pkg.rf]
  refine ⟨?_, ?_, ?_⟩
  · rw [Pkg.chState, hrf, rf_setRf_fld _ _ _ _ (by decide) (by decide) (by decide) (by decide)]
    exact rf_setRf_same ..
  · rw [hrf]
    exact rf_setRf_same ..
  · rw [Pkg.rf, hreg, reg_setReg_same]
    simp only [fld, BitVec.toNat_ofNat]
    omega

/-- With no lane failed every lane is good. -/
theorem goodLanes_all : (goodLanes fun _ => false).length = 68 := by
  decide

/-- Applying the lanes of an end writes its lane table, its count and width, and its width as the far width of the other end. -/
theorem applyLanes_eq (d : Nat) (atHub : Bool) (f : Nat → Bool) : ∃ q : Pkg,
    (∀ pg hi lo, pg ≠ linkPage d atHub → q.rf pg 0x200 hi lo = p.rf pg 0x200 hi lo) ∧ p.applyLanes d atHub f =
      ((q.setRf (linkPage d atHub) 0x200 22 16 (goodLanes f).length).setRf (linkPage d atHub) 0x200 15 14
        (widthCode (goodLanes f).length)).setRf (linkPage d (!atHub)) 0x200 13 12 (widthCode (goodLanes f).length) := by
  refine ⟨_, ?_, rfl⟩
  intro pg hi lo hne
  simp [Pkg.rf, hne]

/-- After the lanes of the hub's end were applied MPn reads their count and width (R283). -/
theorem rf_applyLanes_hub (d : Die) (f : Nat → Bool) :
    (p.applyLanes d.val true f).rf (pgMP d.val) 0x200 22 16 = (goodLanes f).length % 128 ∧
    (p.applyLanes d.val true f).rf (pgMP d.val) 0x200 15 14 = widthCode (goodLanes f).length % 4 := by
  obtain ⟨hne, -⟩ := linkPages_ne d
  obtain ⟨q, -, hq⟩ := applyLanes_eq p d.val true f
  change p.applyLanes d.val true f = ((q.setRf (pgMP d.val) ..).setRf (pgMP d.val) ..).setRf (pgMOCOR d.val) .. at hq
  rw [hq, rf_setRf_reg _ _ _ _ _ _ (.inl hne), rf_setRf_reg _ _ _ _ _ _ (.inl hne)]
  refine ⟨?_, rf_setRf_same ..⟩
  rw [rf_setRf_fld _ _ _ _ (by decide) (by decide) (by decide) (by decide)]
  exact rf_setRf_same ..

/-- Applying the lanes of the die's end writes of LSTAT at the hub the far width alone. -/
theorem rf_applyLanes_die (d : Die) (f : Nat → Bool) {hi lo : Nat} (h : lo ≤ hi) (hfar : hi < 12 ∨ 13 < lo) :
    (p.applyLanes d.val false f).rf (pgMP d.val) 0x200 hi lo = p.rf (pgMP d.val) 0x200 hi lo := by
  obtain ⟨hne, -⟩ := linkPages_ne d
  obtain ⟨q, hpage, hq⟩ := applyLanes_eq p d.val false f
  change p.applyLanes d.val false f = ((q.setRf (pgMOCOR d.val) ..).setRf (pgMOCOR d.val) ..).setRf (pgMP d.val) .. at hq
  rw [hq, rf_setRf_fld _ _ _ _ (by decide) (by decide) h hfar, rf_setRf_reg _ _ _ _ _ _ (.inl hne),
    rf_setRf_reg _ _ _ _ _ _ (.inl hne)]
  exact hpage _ _ _ hne

/-- What becomes of MPn when its link serves and the die's clocks lock. -/
theorem rf_linkServes (d : Die) (hi lo : Nat) :
    (((p.setRf (pgMP d.val) 0x200 3 0 2).setRf (pgMOCOR d.val) 0x200 3 0 2).dieClocks d.val).rf (pgMP d.val) 0x200 hi lo =
      (p.setRf (pgMP d.val) 0x200 3 0 2).rf (pgMP d.val) 0x200 hi lo := by
  obtain ⟨hmocor, hclk⟩ := linkPages_ne d
  rw [Pkg.dieClocks, rf_setRf_reg _ _ _ _ _ _ (.inl hclk), rf_setRf_reg _ _ _ _ _ _ (.inl hclk),
    rf_setRf_reg _ _ _ _ _ _ (.inl hmocor)]

/-- A Mocor link that trained on every lane in LOAD: its MPn and its die (R62, R283, R490). -/
theorem mocorTrained_all_lanes (d : Die) {md : ModeState} (h : md.mode = .load) :
    (p.mocorTrained md d.val 0).mpState d.val = 2 ∧ (p.mocorTrained md d.val 0).dieState d.val = 1 ∧
    (p.mocorTrained md d.val 0).rf (pgMP d.val) 0x200 22 16 = 68 ∧ (p.mocorTrained md d.val 0).rf (pgMP d.val) 0x200 15 14 =
      0 := by
  have hlane (base : Nat) : (fun l => 0 / 2 ^ (base + l) % 2 == 1) = fun _ => false := by
    funext l
    simp
  unfold Pkg.mocorTrained
  simp only [hlane, goodLanes_all]
  rw [if_neg (by decide), if_pos h]
  obtain ⟨hcount, hwidth⟩ := rf_applyLanes_hub p d fun _ => false
  rw [goodLanes_all] at hcount hwidth
  generalize hq : (p.applyLanes d.val true _).applyLanes d.val false _ = q
  have hlow (hi lo : Nat) (hle : lo ≤ hi) (hl : 13 < lo) : q.rf (pgMP d.val) 0x200 hi lo =
      (p.applyLanes d.val true fun _ => false).rf (pgMP d.val) 0x200 hi lo := by
    rw [← hq]
    exact rf_applyLanes_die _ d _ hle (.inr hl)
  generalize hr : Pkg.partDone _ (2 + d.val) = r
  have hrf (hi lo : Nat) : r.rf (pgMP d.val) 0x200 hi lo = (q.setRf (pgMP d.val) 0x200 3 0 2).rf (pgMP d.val) 0x200 hi lo := by
    rw [← hr, rf_partDone, rf_setDieState, rf_boot, rf_setLink, rf_linkServes]
  refine ⟨?_, ?_, ?_, ?_⟩
  · rw [Pkg.mpState, hrf]
    exact rf_setRf_same ..
  · rw [← hr, dieState_partDone, dieState_setDieState_same]
  · rw [hrf, rf_setRf_fld _ _ _ _ (by decide) (by decide) (by decide) (by decide), hlow 22 16 (by decide) (by decide)]
    exact hcount
  · rw [hrf, rf_setRf_fld _ _ _ _ (by decide) (by decide) (by decide) (by decide), hlow 15 14 (by decide) (by decide)]
    exact hwidth

end

/-! ### PCIe links -/

/-- A PCIe link that trained reads its width and its speed (R476, R480). -/
theorem exec_trained_pcie {s : State} {n : Fin 6} {link : Fin 4} {w v : Nat} (hans : s.pkg.answers (pgPE n.val) = true)
    (hst : s.pkg.blkState (pgPE n.val) = 1) (hup : s.pkg.linkUp n.val link.val = false) (hw : w ∈ [1, 2, 4, 8, 16])
    (hv1 : 1 ≤ v) (hv : v ≤ 5) : exec (.trainingAttemptEnd (.pcie n link) true (w * 16 + v)) s =
      .next { s with pkg := s.pkg.setRf (pgPE n.val) 0x200 (16 * link.val + 15) (16 * link.val) (0x8000 + w * 256 + v) } := by
  have hwidth : (w * 16 + v) / 16 = w := by omega
  have hspeed : (w * 16 + v) % 16 = v := by omega
  rw [exec, execTrainingAttemptEnd, upd_eq]
  dsimp only
  rw [hwidth, hspeed, if_pos ⟨rfl, hans, hst, by simp [hup], by simpa using hw, hv1, hv⟩]

theorem rf_pcieLink (p : Pkg) (pg : Nat) (link : Fin 4) {x : Nat} (h : x < 65536) :
    (p.setRf pg 0x200 (16 * link.val + 15) (16 * link.val) x).rf pg 0x200 (16 * link.val + 15) (16 * link.val) = x := by
  have hl := link.isLt
  have hbits : 16 * link.val + 15 + 1 - 16 * link.val = 16 := by omega
  rw [rf_setRf_same p pg 0x200 x (by omega) (by omega), hbits]
  exact Nat.mod_eq_of_lt h

/-! ### Attempts that fail, and the next ones -/

section
variable (p : Pkg) (t : Nat)

/-- A failed attempt waits for the next (R63). -/
theorem trainFail_waits : t ∉ (p.trainFail t).boot.training ∧
    (p.trainFail t).waitOf t = min (2 ^ (p.attempts t - 1)) 1024 + 1 := by
  have hboot : (p.trainFail t).boot = { p.boot with
      training := p.boot.training.filter (fun u => u != t),
      waits := tblSet (fun _ => 0) p.boot.waits t (min (2 ^ (p.attempts t - 1)) 1024 + 1) } := by
    unfold Pkg.trainFail
    dsimp only
    split
    · rfl
    · split <;> simp
  rw [Pkg.waitOf, hboot]
  exact ⟨by simp, by simp⟩

theorem attempts_retrainOff (u : Nat) : (p.retrainOff t).attempts u = p.attempts u := by
  unfold Pkg.retrainOff
  split <;> rfl

/-- An attempt that starts runs, and no wait is left (R489). -/
theorem trainStart_starts (h : p.neverTrains t = false) : t ∈ (p.trainStart t).boot.training ∧ (p.trainStart t).waitOf t = 0 := by
  have hboot : (p.trainStart t).boot = { p.boot with
      training := p.boot.training.filter (fun u => u != t) ++ [t], waits := tblErase p.boot.waits t } := by
    unfold Pkg.trainStart
    rw [if_neg (by simp [h])]
    dsimp only
    split
    · simp
    · split <;> simp
  rw [Pkg.waitOf, hboot]
  exact ⟨by simp, tblGet_tblErase_same ..⟩

end

theorem partNum_not_guest {part : Part} (h : ∀ g, part ≠ .guest g) : partNum part < 22 ∨ 24 ≤ partNum part := by
  cases part with
  | chain down => cases down <;> decide
  | mocor d => exact .inl (by have := d.isLt; rw [partNum]; omega)
  | hbm k => exact .inl (by have := k.isLt; rw [partNum]; omega)
  | guest g => exact absurd rfl (h g)
  | ledger k => exact .inr (by rw [partNum]; omega)
  | pcie n link => exact .inr (by rw [partNum]; omega)

/-- Only the port of an unpopulated site never trains (R1). -/
theorem neverTrains_part {p : Pkg} {part : Part} (h : ∀ g, part = .guest g → p.site g.val = true) :
    p.neverTrains (partNum part) = false := by
  by_cases hg : ∃ g, part = .guest g
  · obtain ⟨g, rfl⟩ := hg
    simp [Pkg.neverTrains, partNum, h g rfl]
  · have := partNum_not_guest (not_exists.1 hg)
    rw [Pkg.neverTrains, decide_eq_false (by omega), Bool.false_and]

theorem exec_loadRetryAttempt {s : State} {part : Part} (hmode : s.mode.mode = .load) (hwait : s.pkg.waitOf (partNum part) = 1) :
    exec (.loadRetryAttempt part) s = .next { s with pkg := s.pkg.trainStart (partNum part) } := by
  rw [exec, execLoadRetryAttempt, upd_eq, if_pos ⟨hmode, hwait⟩]

theorem exec_readmitRetryAttempt {s : State} {part : Part} (hwait : s.pkg.waitOf (partNum part) = 1)
    (h : (partNum part < 2 ∧ s.mode.mode ≠ .load) ∨ (2 ≤ partNum part ∧ partNum part ∈ s.pkg.boot.readmits ∧
      s.pkg.attempts (partNum part) < s.pkg.retryMax (partNum part))) :
    exec (.readmitRetryAttempt part) s = .next { s with pkg := s.pkg.trainStart (partNum part) } := by
  rw [exec, execReadmitRetryAttempt, upd_eq]
  dsimp only
  rw [if_neg (by simp [hwait])]
  rcases h with ⟨hchain, hmode⟩ | ⟨hother, hre, hmax⟩
  · rw [if_pos hchain, if_neg hmode]
  · rw [if_neg (by omega), if_pos ⟨by simpa using hre, hmax⟩]

end Sys2Proof.Machine
end

section
/-! The core map at bring-up (R10, R491). -/

namespace Sys2Proof.Machine

/-! ### Entries of the core map -/

section
variable (p : Pkg)

theorem cmapEnt_setCmap (lc st ph k : Nat) :
    (p.setCmap lc st ph).cmapEnt k = if k = lc then st * 0x4000 + ph else p.cmapEnt k := tblGet_tblSet ..

theorem cmapEnt_of_stw {q : Pkg} (h : q.stw.cmap = p.stw.cmap) (lc : Nat) : q.cmapEnt lc = p.cmapEnt lc := by
  rw [Pkg.cmapEnt, h, Pkg.cmapEnt]

theorem cmap_setRole (d i role : Nat) : (p.setRole d i role).stw.cmap = p.stw.cmap := by
  rw [Pkg.setRole, setRf_stw]

end

/-- A number is kept by a fold when every step over the list keeps it. -/
theorem foldl_keeps_mem {σ ι γ : Type} {f : σ → ι → σ} (g : σ → γ) {l : List ι} (h : ∀ s, ∀ i ∈ l, g (f s i) = g s) (s : σ) :
    g (l.foldl f s) = g s := by
  induction l generalizing s with
  | nil => rfl
  | cons i l ih =>
    rw [List.foldl_cons, ih fun s j hj => h s j (List.mem_cons_of_mem i hj), h s i List.mem_cons_self]

/-! ### A fenced die -/

section
variable (p : Pkg) (d : Nat)

/-- The entries of a fenced die read FENCED with PHYS 0 (R10). -/
theorem cmapSt_fenceMap {k : Nat} (hk : k < 18) : (p.fenceMap d false).cmapSt (d * 18 + k) = 3 := by
  obtain ⟨r, -, -, h⟩ := foldl_at_mem (get := fun (p : Pkg) k => p.cmapEnt (d * 18 + k))
    (f := fun p k => p.setCmap (d * 18 + k) 3 (if false then p.cmapEnt (d * 18 + k) % 512 else 0))
    (fun q i j hj => (cmapEnt_setCmap ..).trans (if_neg (by omega))) (fun _ => ()) (fun _ _ => rfl) List.nodup_range
    (List.mem_range.2 hk) p
  rw [Pkg.cmapSt, Pkg.fenceMap, h, cmapEnt_setCmap, if_pos rfl]
  simp

theorem cmapEnt_fenceMap_other {keep : Bool} {lc : Nat} (h : ∀ k, k < 18 → lc ≠ d * 18 + k) :
    (p.fenceMap d keep).cmapEnt lc = p.cmapEnt lc :=
  foldl_keeps_mem (fun p : Pkg => p.cmapEnt lc)
    (fun _ k hk => (cmapEnt_setCmap ..).trans (if_neg (h k (List.mem_range.1 hk)))) p

end

/-! ### A region -/

/-- The step of a region's build for its LC number `k`: a unit that is left serves it, or it is VACANT. -/
def Pkg.mapUnit (d r : Nat) (rest : List Nat) (p : Pkg) (k : Nat) : Pkg :=
  match rest[k]? with
  | some i => (p.setCmap (d * 18 + r * 9 + k) 1 (physId d i)).setRole d i 1
  | none => p.setCmap (d * 18 + r * 9 + k) 2 0

section
variable (p : Pkg) (d r : Nat)

theorem cmapEnt_mapUnit_other (rest : List Nat) (k : Nat) {lc : Nat} (h : lc ≠ d * 18 + r * 9 + k) :
    (p.mapUnit d r rest k).cmapEnt lc = p.cmapEnt lc := by
  unfold Pkg.mapUnit
  split
  · rw [cmapEnt_of_stw _ (cmap_setRole ..), cmapEnt_setCmap, if_neg h]
  · rw [cmapEnt_setCmap, if_neg h]

theorem physId_lt {i : Nat} (hd : d < 12) (hi : i < 20) : physId d i < 0x4000 := by
  unfold physId
  omega

theorem cmapSt_mapUnit (hd : d < 12) {rest : List Nat} (hrest : ∀ i ∈ rest, i < 20) (k : Nat) :
    (p.mapUnit d r rest k).cmapSt (d * 18 + r * 9 + k) = 1 ∨ (p.mapUnit d r rest k).cmapSt (d * 18 + r * 9 + k) = 2 := by
  unfold Pkg.mapUnit
  split
  next i hi =>
    have := physId_lt d hd (hrest i (List.mem_of_getElem? hi))
    left
    rw [Pkg.cmapSt, cmapEnt_of_stw _ (cmap_setRole ..), cmapEnt_setCmap, if_pos rfl]
    omega
  next =>
    right
    rw [Pkg.cmapSt, cmapEnt_setCmap, if_pos rfl]

/-- A region's build is the steps of its LCs on a package with the same core map, with units of the region. -/
theorem buildRegion_eq (hr : r < 2) : ∃ q rest, q.stw.cmap = p.stw.cmap ∧ (∀ i ∈ rest, i < 20) ∧
    p.buildRegion d r = (List.range 9).foldl (Pkg.mapUnit d r rest) q := by
  refine ⟨_, _, ?_, ?_, rfl⟩
  · refine (foldl_keeps (fun p : Pkg => p.stw.cmap) (fun q i => cmap_setRole ..) _ _).trans ?_
    exact cmap_setRole ..
  · intro i hi
    obtain ⟨k, hk, rfl⟩ := List.mem_map.1 (List.mem_filter.1 hi).1
    have := List.mem_range.1 hk
    omega

theorem cmapEnt_buildRegion_other (hr : r < 2) {lc : Nat} (h : ∀ k, k < 9 → lc ≠ d * 18 + r * 9 + k) :
    (p.buildRegion d r).cmapEnt lc = p.cmapEnt lc := by
  obtain ⟨q, rest, hq, -, heq⟩ := buildRegion_eq p d r hr
  rw [heq, foldl_keeps_mem (fun p : Pkg => p.cmapEnt lc)
    fun s k hk => cmapEnt_mapUnit_other s d r rest k (h k (List.mem_range.1 hk))]
  exact cmapEnt_of_stw p hq lc

/-- Every LC of a region that was built is MAPPED or VACANT (R10). -/
theorem cmapSt_buildRegion (hd : d < 12) (hr : r < 2) {k : Nat} (hk : k < 9) :
    (p.buildRegion d r).cmapSt (d * 18 + r * 9 + k) = 1 ∨ (p.buildRegion d r).cmapSt (d * 18 + r * 9 + k) = 2 := by
  obtain ⟨q, rest, -, hrest, heq⟩ := buildRegion_eq p d r hr
  obtain ⟨u, -, -, h⟩ := foldl_at_mem (get := fun (p : Pkg) k => p.cmapEnt (d * 18 + r * 9 + k)) (f := Pkg.mapUnit d r rest)
    (fun s i j hj => cmapEnt_mapUnit_other s d r rest i (by omega)) (fun _ => ()) (fun _ _ => rfl) List.nodup_range
    (List.mem_range.2 hk) q
  have hst := cmapSt_mapUnit u d r hd hrest k
  rwa [Pkg.cmapSt, ← h, ← heq] at hst

end

/-! ### The build -/

/-- The build's step for a die. -/
def Pkg.mapDie (p : Pkg) (d : Nat) : Pkg :=
  if p.dieFenced d then p.fenceMap d false else (p.buildRegion d 0).buildRegion d 1

section
variable (p : Pkg) (d : Nat)

theorem cmapEnt_mapDie_other {lc : Nat} (h : ∀ k, k < 18 → lc ≠ d * 18 + k) : (p.mapDie d).cmapEnt lc = p.cmapEnt lc := by
  unfold Pkg.mapDie
  split
  · exact cmapEnt_fenceMap_other p d h
  · have h0 (k : Nat) (hk : k < 9) : lc ≠ d * 18 + 0 * 9 + k := by
      have := h k (by omega)
      omega
    have h1 (k : Nat) (hk : k < 9) : lc ≠ d * 18 + 1 * 9 + k := by
      have := h (9 + k) (by omega)
      omega
    rw [cmapEnt_buildRegion_other _ d 1 (by decide) h1, cmapEnt_buildRegion_other _ d 0 (by decide) h0]

/-- What the step leaves of its die's entries (R10, R491). -/
theorem cmapSt_mapDie (hd : d < 12) {k : Nat} (hk : k < 18) : (p.dieFenced d = true → (p.mapDie d).cmapSt (d * 18 + k) = 3) ∧
    (p.dieFenced d = false → (p.mapDie d).cmapSt (d * 18 + k) = 1 ∨ (p.mapDie d).cmapSt (d * 18 + k) = 2) := by
  refine ⟨fun h => ?_, fun h => ?_⟩
  · rw [Pkg.mapDie, if_pos h]
    exact cmapSt_fenceMap p d hk
  · rw [Pkg.mapDie, if_neg (by simp [h])]
    by_cases h9 : k < 9
    · have hst := cmapSt_buildRegion p d 0 hd (by decide) h9
      have hlc : d * 18 + 0 * 9 + k = d * 18 + k := by omega
      rwa [hlc, Pkg.cmapSt, ← cmapEnt_buildRegion_other _ d 1 (by decide) (by omega)] at hst
    · have hst := cmapSt_buildRegion (p.buildRegion d 0) d 1 hd (by decide) (show k - 9 < 9 by omega)
      have hlc : d * 18 + 1 * 9 + (k - 9) = d * 18 + k := by omega
      rwa [hlc] at hst

theorem dieSt_buildRegion (r : Nat) : (p.buildRegion d r).dieSt = p.dieSt := by
  unfold Pkg.buildRegion
  dsimp only
  refine (foldl_keeps Pkg.dieSt ?_ _ _).trans ((foldl_keeps Pkg.dieSt ?_ _ _).trans ?_)
  · intro q k
    split
    · exact setRf_dieSt ..
    · rfl
  · exact fun q i => setRf_dieSt ..
  · exact setRf_dieSt ..

theorem dieSt_mapDie : (p.mapDie d).dieSt = p.dieSt := by
  unfold Pkg.mapDie
  split
  · unfold Pkg.fenceMap
    exact foldl_keeps Pkg.dieSt (fun _ _ => setCmap_dieSt ..) _ _
  · rw [dieSt_buildRegion, dieSt_buildRegion]

end

/-- After the build every die's entries are FENCED, or MAPPED and VACANT (R10, R491). -/
theorem cmapSt_mapDies (p : Pkg) {d k : Nat} (hd : d < 12) (hk : k < 18) :
    (p.dieFenced d = true → ((List.range 12).foldl Pkg.mapDie p).cmapSt (d * 18 + k) = 3) ∧
    (p.dieFenced d = false → ((List.range 12).foldl Pkg.mapDie p).cmapSt (d * 18 + k) = 1 ∨
      ((List.range 12).foldl Pkg.mapDie p).cmapSt (d * 18 + k) = 2) := by
  obtain ⟨r, hr, -, h⟩ := foldl_at_mem (get := fun (p : Pkg) d => p.cmapEnt (d * 18 + k)) (f := Pkg.mapDie)
    (fun s i j hj => cmapEnt_mapDie_other s i fun m hm => by omega) Pkg.dieSt (fun s i => dieSt_mapDie s i) List.nodup_range
    (List.mem_range.2 hd) p
  have hfenced : r.dieFenced d = p.dieFenced d := by rw [Pkg.dieFenced, Pkg.dieState, hr, ← Pkg.dieState, ← Pkg.dieFenced]
  have hst := cmapSt_mapDie r d hd hk
  rwa [hfenced, Pkg.cmapSt, ← h] at hst

/-- CORE_MAP_BUILD with every Mocor link finished (R491). -/
theorem exec_coreMapBuild {s : State} (hmode : s.mode.mode = .load) (hbuilt : s.pkg.stw.mapBuilt = false)
    (hripe : s.pkg.isRipe .map 0 = true) (hmb : s.pkg.mbBusy = false)
    (hdone : ∀ d, d < 12 → 2 + d ∈ s.pkg.boot.finished ∨ s.pkg.dieExcluded d = true) : ∃ q : Pkg,
    q = (List.range 12).foldl Pkg.mapDie s.pkg ∧
    exec .coreMapBuild s = .next { s with pkg := Pkg.storeReady { q with stw := { q.stw with mapBuilt := true } } } := by
  have hdue : s.pkg.mapDue s.mode = true := by
    have hall : (List.range 12).all s.pkg.mocorDone = true := by
      rw [List.all_eq_true]
      intro d hd
      simpa [Pkg.mocorDone] using hdone d (List.mem_range.1 hd)
    simp [Pkg.mapDue, hmode, hbuilt, hmb, hall]
  refine ⟨_, rfl, ?_⟩
  have hstep : (fun (p : Pkg) d => if p.dieFenced d then p.fenceMap d false else (p.buildRegion d 0).buildRegion d 1) =
      Pkg.mapDie :=
    rfl
  rw [exec, execCoreMapBuild, upd_eq, hstep]
  dsimp only
  rw [if_neg (by simp [hdue, hripe])]

end Sys2Proof.Machine
end

section
/-! Exclusion and the rails of bring-up (R416, R487, R488, R553, R558 to R560). -/

namespace Sys2Proof.Machine

/-! ### Exclusion -/

section
variable (p : Pkg) (d : Nat)

@[simp] theorem fenceMap_dieSt (keep : Bool) : (p.fenceMap d keep).dieSt = p.dieSt := by
  unfold Pkg.fenceMap
  exact foldl_keeps Pkg.dieSt (fun _ _ => setCmap_dieSt ..) _ _

@[simp] theorem fenceMap_pw (keep : Bool) : (p.fenceMap d keep).pw = p.pw := by
  unfold Pkg.fenceMap
  exact foldl_keeps Pkg.pw (fun _ _ => setCmap_pw ..) _ _

@[simp] theorem dieReset_pw : (p.dieReset d).pw = p.pw := by
  unfold Pkg.dieReset
  dsimp only
  rw [setDieLines_pw]
  dsimp only
  exact foldl_keeps Pkg.pw (fun _ _ => setUnit_pw ..) _ _

@[simp] theorem partDone_pw (t : Nat) : (p.partDone t).pw = p.pw := rfl

/-- Logging an event commands no rail. -/
theorem rails_logEvent (code origin : Nat) (lc pid : Option Nat) (pg : Nat) (detail : Word) :
    (p.logEvent code origin lc pid pg detail).pw.rails = p.pw.rails := by
  have hlatch (q : Pkg) (c : Nat) : (q.wakeLatch c).pw.rails = q.pw.rails := by
    unfold Pkg.wakeLatch
    split <;> rfl
  have hpend (q : Pkg) (a n : Nat) : (q.setPending a n).pw.rails = q.pw.rails := by
    unfold Pkg.setPending
    split
    · rfl
    · rw [hlatch, setCore_pw]
  rcases logEvent_cases p code origin lc pid pg detail with h | ⟨a, n, h⟩
  · rw [h, Pkg.logged, setRf_pw]
  · rw [h, hpend, Pkg.logged, setRf_pw]

/-- A part that is excluded trains no more. -/
def Pkg.trainStop (p : Pkg) (t : Nat) : Pkg :=
  { p with boot := { p.boot with training := p.boot.training.filter (fun u => u != t), waits := tblErase p.boot.waits t } }

/-- A die that is excluded: its rail is off, it is reset, and it is fenced. -/
def Pkg.dieOut (p : Pkg) (d : Nat) : Pkg :=
  (((((p.trainStop (2 + d)).railOff d).dieReset d).setReg (pgMP d) 0x200 (word [(32, 7), (12, 0xF), (0, 5)])).setLink d
    DieLink.reset).setDieState d 4

/-- The core map of a die that is fenced. -/
def Pkg.mapOut (p : Pkg) (d : Nat) : Pkg := if p.stw.mapBuilt then p.fenceMap d true else p

theorem excludeDie_eq : p.excludeDie d =
    ((((p.dieOut d).mapOut d).setRf pgSTW 0x230 d d 1).partDone (2 + d)).logEvent 0x01 1 none none (pgMP d) 7 := rfl

@[simp] theorem mapOut_dieSt : (p.mapOut d).dieSt = p.dieSt := by
  unfold Pkg.mapOut
  split <;> simp

@[simp] theorem mapOut_pw : (p.mapOut d).pw = p.pw := by
  unfold Pkg.mapOut
  split <;> simp

theorem rails_dieOut : (p.dieOut d).pw.rails = tblErase p.pw.rails d := by
  simp only [Pkg.dieOut, setDieState_pw, Pkg.setLink, setReg_pw, dieReset_pw]
  rfl

/-- An excluded die is fenced, its rail is off, and EXCLSET names it (R487, R488). -/
theorem excludeDie_marks (hd : d < 12) : (p.excludeDie d).dieState d = 4 ∧ tblGet (fun _ => 0) (p.excludeDie d).pw.rails d = 0 ∧
    (p.excludeDie d).rf pgSTW 0x230 d d = 1 := by
  rw [excludeDie_eq]
  refine ⟨?_, ?_, ?_⟩
  · have hst : ((p.dieOut d).mapOut d).dieState d = 4 := by
      rw [Pkg.dieState, mapOut_dieSt]
      exact dieState_setDieState_same ..
    rw [Pkg.dieState, logEvent_dieSt, ← Pkg.dieState, dieState_partDone, Pkg.dieState, setRf_dieSt]
    exact hst
  · rw [rails_logEvent, partDone_pw, setRf_pw, mapOut_pw, rails_dieOut, tblGet_tblErase_same]
  · rw [Pkg.rf, reg_logEvent _ _ _ _ _ _ _ (.inl (by decide)), ← Pkg.rf, rf_partDone,
      rf_setRf_same _ _ _ _ (Nat.le_refl d) (by omega)]
    simp

/-- A guest's port that is excluded: it is powered no more. -/
def Pkg.guestOff (p : Pkg) (n : Nat) : Pkg :=
  { p.trainStop (22 + n) with pw := { p.pw with gsw := tblSet (fun _ => false) p.pw.gsw n false } }

theorem excludeGuest_eq (n : Nat) : p.excludeGuest n =
    (((((p.guestOff n).setReg (pgGP n) 0x200 (word [(32, 7), (0, 5)])).setGuest n
      { Guest.reset with before := (p.guestOff n).reg (pgGP n) 0x208 }).setRf pgSTW 0x230 (16 + n) (16 + n) 1).partDone
      (22 + n)).logEvent 0x03 1 none none (pgGP n) 7 := rfl

theorem populated_excludeGuest (n : Nat) : (p.excludeGuest n).populated = p.populated := by
  rw [excludeGuest_eq, logEvent_populated]
  rfl

theorem rf_setGuest (n : Nat) (x : Guest) (pg o hi lo : Nat) : (p.setGuest n x).rf pg o hi lo = p.rf pg o hi lo := rfl

/-- The ports of the guests are pages of their own. -/
theorem gp_ne (g : Fin 2) : pgGP g.val ≠ pgSE ∧ pgGP g.val ≠ pgSTW := by
  revert g
  decide

/-- An excluded guest's port is fenced, and EXCLSET names it (R487, R488). -/
theorem excludeGuest_marks (g : Fin 2) (h : p.gpState g.val ≠ 7) : (p.excludeGuest g.val).gpState g.val = 5 ∧
    (p.excludeGuest g.val).rf pgSTW 0x230 (16 + g.val) (16 + g.val) = 1 := by
  obtain ⟨hse, hstw⟩ := gp_ne g
  have hsite : (p.excludeGuest g.val).site g.val = true := by
    rw [Pkg.site, populated_excludeGuest, ← Pkg.site]
    by_contra hno
    exact h (if_neg hno)
  refine ⟨?_, ?_⟩
  · rw [Pkg.gpState, if_pos hsite, excludeGuest_eq, Pkg.rf, reg_logEvent _ _ _ _ _ _ _ (.inl hse), ← Pkg.rf, rf_partDone,
      rf_setRf_reg _ _ _ _ _ _ (.inl hstw), rf_setGuest, Pkg.rf, reg_setReg_same]
    decide
  · have hg := g.isLt
    rw [excludeGuest_eq, Pkg.rf, reg_logEvent _ _ _ _ _ _ _ (.inl (by decide)), ← Pkg.rf, rf_partDone,
      rf_setRf_same _ _ _ _ (Nat.le_refl _) (by omega)]
    simp

end

/-! ### EXCLCMD -/

section
variable {p : Pkg} {md : ModeState} {part : Nat}

/-- The package with PART of EXCLCMD written. -/
def Pkg.exclPart (p : Pkg) (part : Nat) : Pkg := p.setReg pgSTW 0xC30 (BitVec.ofNat 64 part)

theorem busy_exclPart : (p.exclPart part).busy pgSTW = p.busy pgSTW := by
  simp [Pkg.busy, Pkg.exclPart]

theorem gpState_exclPart (g : Nat) : (p.exclPart part).gpState g = p.gpState g := by
  have hrf (q : Nat) : (p.exclPart part).rf q 0x200 3 0 = p.rf q 0x200 3 0 := by
    rw [Pkg.rf, Pkg.exclPart, reg_setReg, if_neg (by simp), Pkg.rf]
  rw [Pkg.gpState, hrf]
  rfl

theorem cmdExcl_die (hmode : md.mode = .load) (hbusy : p.busy pgSTW = false) (hd : part < 12) (hf : p.dieFenced part = false) :
    p.cmdExcl md .host part = ((p.exclPart part).excludeDie part).cmdOk pgSTW 0xC30 := by
  have hf' : (p.exclPart part).dieFenced part = false := hf
  have hbusy' : (p.exclPart part).busy pgSTW = false := busy_exclPart.trans hbusy
  unfold Pkg.exclPart at hf' hbusy' ⊢
  unfold Pkg.cmdExcl
  dsimp only
  rw [if_neg (by simp), if_neg (by omega), if_neg (by simp [hmode, hbusy']), if_pos hd, if_neg (by simp [hf'])]

theorem cmdExcl_guest {g : Fin 2} (hmode : md.mode = .load) (hbusy : p.busy pgSTW = false) (hg : part = 16 + g.val)
    (h5 : p.gpState g.val ≠ 5) (h7 : p.gpState g.val ≠ 7) :
    p.cmdExcl md .host part = ((p.exclPart part).excludeGuest g.val).cmdOk pgSTW 0xC30 := by
  have hlt := g.isLt
  have hsub : part - 0x10 = g.val := by omega
  have hst := gpState_exclPart (p := p) (part := part) g.val
  have hbusy' : (p.exclPart part).busy pgSTW = false := busy_exclPart.trans hbusy
  unfold Pkg.exclPart at hst hbusy' ⊢
  unfold Pkg.cmdExcl
  dsimp only
  rw [if_neg (by simp), if_neg (by omega), if_neg (by simp [hmode, hbusy']), if_neg (by omega), hsub, hst,
    if_neg (by simp [h5, h7])]

theorem cmdExcl_badArg (hd : 12 ≤ part) (h0 : part ≠ 0x10) (h1 : part ≠ 0x11) :
    p.cmdExcl md .host part = (p.exclPart part).cmdBadArg pgSTW 0xC30 := by
  unfold Pkg.cmdExcl
  dsimp only
  rw [if_neg (by simp), if_pos ⟨hd, h0, h1⟩]
  rfl

end

theorem exec_exclcmd {s : State} {part : Fin 32} (h : s.pkg.commands .host pgSTW = true) :
    exec (.exclcmd .host part) s = .next { s with pkg := s.pkg.cmdExcl s.mode .host part.val } := by
  rw [exec, execExclcmd, upd_eq, cmd_of_commands h]

theorem lastCmd_cmdBadArg (p : Pkg) {pg off : Nat} (h : off < 4096) : LastCmd (p.cmdBadArg pg off) pg off 4 :=
  ⟨lastst_cmdBadArg p pg off, (lastcmd_cmdBadArg p pg off).trans (Nat.mod_eq_of_lt h)⟩

/-! ### Rails -/

section
variable (p : Pkg) (r : Nat)

/-- Training of a part that is no guest powers nothing. -/
theorem pw_trainStart {t : Nat} (ht : t < 22) : (p.trainStart t).pw = p.pw := by
  unfold Pkg.trainStart
  split
  · rfl
  · dsimp only
    split
    · simp
    · rw [if_neg (by omega)]
      simp

theorem pw_firstAttempt {t : Nat} (ht : t < 22) : (p.firstAttempt t).pw = p.pw := by
  unfold Pkg.firstAttempt
  dsimp only
  rw [apply_ite Pkg.pw, pw_trainStart p ht, ite_self]

/-- A rail that confirms is on, and its turn is over (R416, R553). -/
theorem pw_railUp : (p.railUp r).pw =
    { p.pw with rails := tblSet (fun _ => 0) p.pw.rails r 2, railQ := p.pw.railQ.filter (fun q => q != r) } := by
  unfold Pkg.railUp
  dsimp only
  split
  · rfl
  · split
    · simp [Pkg.dieClocks]
    · rw [pw_firstAttempt _ (by omega)]
      simp [Pkg.dieClocks]

/-- The steward has sent the request `q` to a regulator. -/
def Pkg.railSent (p : Pkg) (q : RailReq) : Pkg := { p with pw := { p.pw with sent := some q } }

/-- Rail `r` was commanded and has not yet confirmed. -/
def Pkg.railWaits (p : Pkg) (r : Nat) : Pkg := { p with pw := { p.pw with rails := tblSet (fun _ => 0) p.pw.rails r 1 } }

/-- A STATUS with PGOOD and no fault confirms an ON (R416, R559). -/
theorem railAnswer_on {q : RailReq} {st : Byte} (hq : q.cmd = 2) (h7 : st.getLsbD 7 = true) (h6 : st.getLsbD 6 = false)
    (h5 : st.getLsbD 5 = false) (h4 : st.getLsbD 4 = false) (h3 : st.getLsbD 3 = true) :
    p.railAnswer r q st = (p.railWaits r).railUp r := by
  have hrail : (p.railWaits r).rail r = 1 := by
    simp [Pkg.rail, Pkg.railWaits]
  unfold Pkg.railWaits at hrail ⊢
  unfold Pkg.railAnswer
  simp only [h3, h4, h5, h6, h7, hq, hrail, Bool.false_eq_true, Bool.not_false, Bool.and_self, Bool.not_true, if_false, if_true]

/-- The rail's turn has come: the next request commands it on (R553). -/
theorem railNext_on (hhead : p.pw.railQ.head? = some r) (hrail : p.rail r = 0) : p.railNext r = railReq r 2 0 :=
  if_pos ⟨hhead, hrail⟩

theorem railNext_vaddr : (p.railNext r).vaddr = r := by
  unfold Pkg.railNext
  split
  · rfl
  · split <;> rfl

@[simp] theorem askFence_pw (d cause : Nat) : (p.askFence d cause).pw = p.pw := by
  unfold Pkg.askFence
  split <;> rfl

/-- A faulted die rail fences its die, and its turn is over (R416). -/
theorem railFault_die (hr : r < 12) : (∃ c, (r, c) ∈ (p.railFault r).stw.fences) ∧ r ∉ (p.railFault r).pw.railQ := by
  unfold Pkg.railFault
  dsimp only
  rw [if_pos hr]
  refine ⟨askFence_mem .., ?_⟩
  rw [askFence_pw]
  split <;> simp

theorem stackFail_pw (ls : Nat) : (p.stackFail ls).pw = p.pw := by
  unfold Pkg.stackFail
  split
  · rw [foldl_keeps Pkg.pw]
    · simp
    · exact fun _ _ => rfl
  · rfl

theorem reg_mcDisable {n : Nat} (h : p.mcDisabled n = false) (cause q : Nat) : (p.mcDisable n cause).reg q 0x200 =
    if q = pgMC n then word [(4, cause), (0, if cause = 1 then 2 else 3)] else p.reg q 0x200 := by
  unfold Pkg.mcDisable
  rw [if_neg (by simp [h]), reg_logEvent _ _ _ _ _ _ _ (.inr (by decide)), reg_setEvent _ _ _ _ (.inr (by decide)), reg_setReg]
  simp

/-- A controller that is disabled stays so, and the others are left (R331, R339). -/
theorem mcDisabled_mcDisable (n cause m : Nat) : (p.mcDisable n cause).mcDisabled m = (decide (m = n) || p.mcDisabled m) := by
  by_cases h : p.mcDisabled n = true
  · rw [Pkg.mcDisable, if_pos h]
    by_cases hm : m = n <;> simp [hm, h]
  · have hreg := reg_mcDisable p (Bool.not_eq_true _ ▸ h) cause (pgMC m)
    by_cases hm : m = n
    · have hst : 2 ≤ fld (word [(4, cause), (0, if cause = 1 then 2 else 3)]) 3 0 := by
        simp only [word, fld, List.foldl_cons, List.foldl_nil, BitVec.toNat_ofNat]
        split <;> omega
      rw [hm, if_pos rfl] at hreg
      simp [Pkg.mcDisabled, Pkg.rf, hreg, hm, hst]
    · have hpg : pgMC m ≠ pgMC n := by
        unfold pgMC pgHub
        omega
      rw [if_neg hpg] at hreg
      rw [Pkg.mcDisabled, Pkg.rf, hreg, ← Pkg.rf, ← Pkg.mcDisabled]
      simp [hm]

theorem rails_mcDisable (n cause : Nat) : (p.mcDisable n cause).pw.rails = p.pw.rails := by
  unfold Pkg.mcDisable
  split
  · rfl
  · rw [rails_logEvent, setEvent_pw, setReg_pw]

/-- A faulted rail of the hub is off; the loss of a memory rail disables the controllers (R331, R416). -/
theorem railFault_hub (hr : 12 ≤ r) : (p.railFault r).rail r = 0 ∧
    (r ≠ 14 → ∀ n, n < 16 → (p.railFault r).mcDisabled n = true) := by
  unfold Pkg.railFault
  dsimp only
  rw [if_neg (by omega)]
  split
  case isTrue h =>
    refine ⟨?_, fun hne => absurd h hne⟩
    rw [Pkg.rail, stackFail_pw, stackFail_pw]
    exact tblGet_tblErase_same ..
  case isFalse =>
    refine ⟨?_, fun _ n hn => ?_⟩
    · rw [Pkg.rail, foldl_keeps (fun p : Pkg => p.pw.rails) fun q n => rails_mcDisable q n 2]
      exact tblGet_tblErase_same ..
    · obtain ⟨q, -, -, h⟩ := foldl_at_mem (get := Pkg.mcDisabled) (f := fun (p : Pkg) n => p.mcDisable n 2)
        (fun q i j hj => by simp [mcDisabled_mcDisable, hj]) (fun _ => ()) (fun _ _ => rfl) List.nodup_range
        (List.mem_range.2 hn) _
      rw [h, mcDisabled_mcDisable]
      simp

end

/-- A transaction with the regulator of a rail that is polled (R558, R559). -/
theorem exec_lastRailPgood {s : State} {r : Fin 15} {status crc : Byte} (hisland : s.pkg.pw.island = true)
    (h : s.pkg.rail r.val ≠ 0 ∨ s.pkg.pw.railQ.head? = some r.val) : exec (.lastRailPgood r status crc) s = .next { s with
      pkg := if crc ≠ crc8 [status] then s.pkg.railSent (s.pkg.railNext r.val)
        else (s.pkg.railSent (s.pkg.railNext r.val)).railAnswer r.val (s.pkg.railNext r.val) status } := by
  have hpolled : ¬ (!s.pkg.pw.island || (s.pkg.rail r.val = 0 && s.pkg.pw.railQ.head? != some r.val)) = true := by
    rcases h with h | h <;> simp [hisland, h]
  rw [exec, execLastRailPgood, upd_eq]
  dsimp only
  rw [if_neg hpolled]
  rfl

theorem exec_railConfirmTimeout {s : State} {r : Fin 15} (h : s.pkg.rail r.val ≠ 0 ∨ s.pkg.pw.railQ.head? = some r.val) :
    exec (.railConfirmTimeout r) s = .next { s with pkg := s.pkg.railFault r.val } := by
  rw [exec, execRailConfirmTimeout, upd_eq, if_neg (by tauto)]

/-- Settles O20: each clause by the row's effect on the package. -/
theorem bringUpTrainsAndExcludes : Obligations.BringUpTrainsAndExcludes := by
  unfold Obligations.BringUpTrainsAndExcludes
  refine ⟨?_, ?_, ?_, ?_, ?_, ?_, ?_, ?_, ?_, ?_, ?_, ?_, ?_, ?_, ?_, ?_, ?_⟩
  · intro s k n h
    refine ⟨_, exec_trained_ledger h n, rf_setRf_same .., ?_⟩
    dsimp only
    rw [setRf_boot]
    exact trainDone_ends _ _
  · intro s k n h
    obtain ⟨hst, hch, hboot⟩ := hbmTrained_reads (s.pkg.trainDone (14 + k.val)) k
    exact ⟨_, exec_trained_hbm h n, hst, hch, by rw [hboot]; exact trainDone_ends _ _⟩
  · intro s g n h hre
    exact ⟨_, exec_trained_guest h hre n, guestTrained_reads ..⟩
  · intro s d h hmode
    exact ⟨_, exec_trained_mocor h 0, mocorTrained_all_lanes s.pkg d hmode⟩
  · intro s down n h hn
    exact ⟨_, exec_trained_chain h hn, chainTrained_reads _ down hn⟩
  · intro s n link w v hans hst hup hw hv1 hv
    have hw16 : w ≤ 16 := by
      revert w
      decide
    exact ⟨_, exec_trained_pcie hans hst hup hw hv1 hv, rf_pcieLink _ _ link (by omega)⟩
  · intro s part n h hlt
    obtain ⟨hends, hwait⟩ := trainFail_waits (s.pkg.retrainOff (partNum part)) (partNum part)
    exact ⟨_, exec_train_failed h hlt n, hends, by rw [hwait, attempts_retrainOff]⟩
  · intro s part hmode hwait hsite
    exact ⟨_, exec_loadRetryAttempt hmode hwait, trainStart_starts _ _ (neverTrains_part hsite)⟩
  · intro s part hwait hsite hdue
    exact ⟨_, exec_readmitRetryAttempt hwait hdue, trainStart_starts _ _ (neverTrains_part hsite)⟩
  · intro s hmode hbuilt hripe hmb hdone
    obtain ⟨q, hq, hexec⟩ := exec_coreMapBuild hmode hbuilt hripe hmb hdone
    refine ⟨_, hexec, by simp [Pkg.storeReady], fun d k hd hk => ?_⟩
    have hst := cmapSt_mapDies s.pkg hd hk
    rw [← hq] at hst
    have hstore (lc : Nat) : (Pkg.storeReady { q with stw := { q.stw with mapBuilt := true } }).cmapSt lc = q.cmapSt lc := by
      rw [Pkg.cmapSt, cmapEnt_of_stw q (by simp [Pkg.storeReady]), Pkg.cmapSt]
    dsimp only
    rw [hstore]
    exact hst
  · intro s part hcmd hmode hbusy hd hf
    obtain ⟨hst, hrail, hset⟩ := excludeDie_marks (s.pkg.exclPart part.val) part.val hd
    refine ⟨_, exec_exclcmd hcmd, ?_⟩
    rw [cmdExcl_die hmode hbusy hd hf]
    refine ⟨?_, ?_, lastCmd_cmdOk _ (by decide), ?_⟩
    · rw [Pkg.dieState, cmdOk_dieSt]
      exact hst
    · rw [cmdOk_pw]
      exact hrail
    · rw [Pkg.rf, reg_cmdOk _ (.inr (by decide))]
      exact hset
  · intro s part g hcmd hmode hbusy hg h5 h7
    obtain ⟨hst, hset⟩ := excludeGuest_marks (s.pkg.exclPart part.val) g (by rwa [gpState_exclPart])
    refine ⟨_, exec_exclcmd hcmd, ?_⟩
    rw [cmdExcl_guest hmode hbusy hg h5 h7]
    refine ⟨?_, lastCmd_cmdOk _ (by decide), ?_⟩
    · rw [Pkg.gpState, Pkg.site, cmdOk_populated, Pkg.rf, reg_cmdOk _ (.inr (by decide))]
      exact hst
    · rw [hg, Pkg.rf, reg_cmdOk _ (.inr (by decide)), ← hg]
      rw [hg] at hset ⊢
      exact hset
  · intro s part hcmd hd h0 h1
    refine ⟨_, exec_exclcmd hcmd, ?_⟩
    rw [cmdExcl_badArg hd h0 h1]
    exact ⟨lastCmd_cmdBadArg _ (by decide), onlyPages_of_rest (by simp [Pkg.cmdBadArg, Pkg.cmdEvent, Pkg.exclPart])
      (by simp [Pkg.cmdBadArg, Pkg.cmdEvent, Pkg.exclPart])⟩
  · intro s r status hisland hhead hrail h7 h6 h5 h4 h3
    refine ⟨_, exec_lastRailPgood hisland (.inr hhead), ?_⟩
    rw [if_neg (by simp), railNext_on _ _ hhead hrail, railAnswer_on _ _ rfl h7 h6 h5 h4 h3]
    have hpw := pw_railUp ((s.pkg.railSent (railReq r.val 2 0)).railWaits r.val) r.val
    refine ⟨?_, ?_, ?_⟩
    · dsimp only
      rw [Pkg.rail, hpw]
      simp
    · dsimp only
      rw [hpw]
      simp
    · dsimp only
      rw [hpw]
      rfl
  · intro s r status crc hisland h hcrc
    refine ⟨_, exec_lastRailPgood hisland h, _, ?_, railNext_vaddr s.pkg r.val⟩
    rw [if_pos hcrc]
    rfl
  · intro s r hr h
    exact ⟨_, exec_railConfirmTimeout h, railFault_die s.pkg r.val hr⟩
  · intro s r hr h
    exact ⟨_, exec_railConfirmTimeout h, railFault_hub s.pkg r.val hr⟩

end Sys2Proof.Machine
end

section
/-! Requests of devices and their answers (R60, R475 to R482). -/

namespace Sys2Proof.Machine

/-! ### Counting and failing a request -/

section
variable (p : Pkg)

/-- Counting an event writes counters alone (R519, R520). -/
theorem rest_evCount (die : Option Nat) (ev inst : Nat) (pid : Option Nat) (net k : Nat) :
    (p.evCount die ev inst pid net k).rest = p.rest := by
  unfold Pkg.evCount
  split
  split
  · rfl
  · refine foldl_keeps Pkg.rest (fun q i => ?_) _ _
    dsimp only
    split
    · exact rest_setReg ..
    · rfl

theorem reg_evCount (die : Option Nat) (ev inst : Nat) (pid : Option Nat) (net k q : Nat) {o : Nat} (h : o < 0x240) :
    (p.evCount die ev inst pid net k).reg q o = p.reg q o := by
  unfold Pkg.evCount
  split
  next pg off n heq =>
    have hoff : 0x240 ≤ off := by
      cases die <;> simp only [Prod.mk.injEq] at heq <;> omega
    split
    · rfl
    · refine foldl_keeps (fun r : Pkg => r.reg q o) (fun r i => ?_) _ _
      dsimp only
      split
      · rw [reg_setReg, if_neg (by omega)]
      · rfl

/-- Packages that agree on what no page and no steward holds. -/
theorem hbm_of_rest {p q : Pkg} (h : q.rest = p.rest) : q.hbm = p.hbm := by
  have hr := congrArg Pkg.hbm h
  exact hr

theorem out_of_rest {p q : Pkg} (h : q.rest = p.rest) : q.out = p.out := by
  have hr := congrArg Pkg.out h
  exact hr

theorem rest_peFail (n addr : Nat) : (p.peFail n addr).rest = p.rest := by
  simp [Pkg.peFail]

theorem rest_peUr (n : Nat) : (p.peUr n).rest = p.rest := by
  simp [Pkg.peUr]

/-- A failed request leaves its address (R477). -/
theorem reg_peFail (n addr : Nat) : (p.peFail n addr).reg (pgPE n) 0x218 = BitVec.ofNat 64 (addr % 2 ^ 48) := by
  unfold Pkg.peFail
  dsimp only
  rw [reg_setEvent _ _ _ _ (.inr (by decide)), reg_addRf _ _ _ _ (.inr (by decide)), reg_setReg_same]
  simp [word]

theorem reg_peUr (n : Nat) {o : Nat} (h : o = 0x218) : (p.peUr n).reg (pgPE n) o = p.reg (pgPE n) o := by
  unfold Pkg.peUr
  rw [reg_setEvent _ _ _ _ (.inr (by omega)), reg_addRf _ _ _ _ (.inr (by omega))]

end

/-! ### A device's request -/

/-- The request of a device below a link, for the physical parts of its range (R477). -/
def devReq (s : State) (pe : Fin 6) (link : Fin 4) (addr : Word) (parts : List (Nat × Nat)) (op : InOp) : Inbound :=
  { agent := 0x14 + pe.val, pid := linkPid s pe link, parts := parts, op := op, src := .pcie pe.val addr.toNat, age := 0 }

/-- What the poison of a device's data leaves (R479). -/
def Pkg.pePoison (p : Pkg) (x : Inbound) (n addr : Nat) : Pkg :=
  p.setEvent (pgPE n) 19 2 { Det.none with pids := [x.pid], addr := addr, agent := x.agent }

/-- What a finished request of a device counts. -/
def Pkg.peCount (p : Pkg) (x : Inbound) (n : Nat) : Pkg := p.evCount none 11 n (some x.pid) 4 x.lines

section
variable {p q r : Pkg} {x : Inbound} {n addr : Nat}

theorem inTake_done {a : IoAns} (hw : p.inWaits x.agent = false) (ht : p.inTry x = (a, q)) (ha : a ≠ .waiting) :
    p.inTake x = q.inEnd x a := by
  unfold Pkg.inTake
  dsimp only
  rw [if_neg (by simp [hw]), ht]
  cases a with
  | waiting => exact absurd rfl ha
  | _ => rfl

theorem inTake_hold (h : p.inWaits x.agent = true ∨ (p.inTry x).1 = .waiting) : p.inTake x = { p with inq := p.inq ++ [x] } := by
  unfold Pkg.inTake
  dsimp only
  split
  · rfl
  next hw =>
    have hwait := h.resolve_left hw
    generalize p.inTry x = t at hwait
    obtain ⟨a, q⟩ := t
    obtain rfl : a = .waiting := hwait
    rfl

theorem inEnd_write {b : List Byte} {mask : Nat} {ep : Bool} {a : IoAns} (hs : x.src = .pcie n addr)
    (ho : x.op = .write b mask ep) : p.inEnd x a = if ep then (p.peCount x n).pePoison x n addr else p.peCount x n := by
  unfold Pkg.inEnd
  rw [hs, ho]
  rfl

theorem inEnd_read {b : List Byte} {po : Bool} (hs : x.src = .pcie n addr) (ho : x.op = .read) :
    p.inEnd x (.done b po) = (if po then (p.peCount x n).pePoison x n addr else p.peCount x n).reply 0 0 b po := by
  unfold Pkg.inEnd
  rw [hs, ho]
  rfl

theorem inEnd_msi {link v : Nat} {a : IoAns} (hs : x.src = .pcie n addr) (ho : x.op = .msi link v) :
    p.inEnd x a = p.peMsi n link v := by
  unfold Pkg.inEnd
  rw [hs, ho]

/-- Poisoned data sets its event, and leaves memory. -/
theorem poisoned_marks (h : bit (p.reg (pgPE n) 0x030) 19 = false) :
    ((p.peCount x n).pePoison x n addr).hbm = p.hbm ∧
    bit (((p.peCount x n).pePoison x n addr).reg (pgPE n) 0x028) 19 = true := by
  refine ⟨hbm_of_rest ?_, errstat_setEvent _ _ (by decide) ?_⟩
  · exact (rest_setEvent ..).trans (rest_evCount ..)
  · rwa [Pkg.peCount, reg_evCount _ _ _ _ _ _ _ _ (by decide)]

end

section
variable {s : State} {pe : Fin 6} {link : Fin 4} {addr : Word}

theorem exec_deviceDmaWrite (h : deviceTaken s pe link) (b : List Byte) (ep : Bool) :
    exec (.deviceDmaWrite pe link addr b ep) s =
      .next { s with pkg := s.pkg.peWrite pe.val link.val addr.toNat b ep } := by
  obtain ⟨hin, hup⟩ := h
  rw [exec, execDeviceDmaWrite, upd_eq, if_neg (by simp [hin, hup])]

/-- A write that is no MSI goes to HBM. -/
theorem peWrite_mem {b : List Byte} {ep : Bool} (hmsi : ¬ isMsi s pe link addr.toNat b.length) :
    s.pkg.peWrite pe.val link.val addr.toNat b ep =
      match s.pkg.ioParts pe.val link.val addr.toNat b.length true with
      | (none, p) => p.peFail pe.val addr.toNat
      | (some l, p) => p.inTake (devReq s pe link addr l (.write b (2 ^ b.length - 1) ep)) := by
  exact if_neg hmsi

theorem peWrite_msi {b : List Byte} {ep : Bool} (hmsi : isMsi s pe link addr.toNat b.length) :
    s.pkg.peWrite pe.val link.val addr.toNat b ep = s.pkg.inTake (devReq s pe link addr [] (.msi link.val (leNat b))) :=
  if_pos hmsi

theorem exec_deviceDmaRead (h : deviceTaken s pe link) (len : Nat) :
    exec (.deviceDmaRead pe link addr len) s = .next { s with
      pkg := match s.pkg.ioParts pe.val link.val addr.toNat len false with
        | (none, p) => ((p.peFail pe.val addr.toNat).peUr pe.val).reply 0 1 [] false
        | (some l, p) => p.inTake (devReq s pe link addr l .read) } := by
  obtain ⟨hin, hup⟩ := h
  rw [exec, execDeviceDmaRead, upd_eq]
  dsimp only
  rw [if_neg (by simp [hin, hup])]
  rfl

/-- A port that serves nothing, or a link that is down, leaves the state (R54). -/
theorem not_taken (h : ¬ deviceTaken s pe link) :
    (!s.pkg.inbound s.mode (pgPE pe.val) || !s.pkg.linkUp pe.val link.val) = true := by
  unfold deviceTaken at h
  cases hin : s.pkg.inbound s.mode (pgPE pe.val)
  · rfl
  · simpa [hin] using h

theorem exec_deviceDmaWrite_idle (h : ¬ deviceTaken s pe link) (b : List Byte) (ep : Bool) :
    exec (.deviceDmaWrite pe link addr b ep) s = .next s := by
  rw [exec, execDeviceDmaWrite, upd_eq, if_pos (not_taken h)]

theorem exec_deviceDmaRead_idle (h : ¬ deviceTaken s pe link) (len : Nat) :
    exec (.deviceDmaRead pe link addr len) s = .next s := by
  rw [exec, execDeviceDmaRead, upd_eq]
  dsimp only
  rw [if_pos (not_taken h)]

theorem exec_msiWrite_idle (h : ¬ deviceTaken s pe link) (v : BitVec 32) :
    exec (.msiWrite pe link addr v) s = .next s := by
  rw [exec, execMsiWrite, upd_eq, if_pos (not_taken h)]

end

section
variable (p : Pkg) (tag status : Nat) (b : List Byte) (po : Bool)

theorem hbm_reply : (p.reply tag status b po).hbm = p.hbm := rfl

theorem out_reply : (p.reply tag status b po).out = some { tag := tag, status := status, bytes := b, poison := po } := rfl

end

/-! ### MSI (R480) -/

section
variable {p : Pkg} {n link v : Nat}

/-- The MSIMAP entry of a vector. -/
def Pkg.msiMap (p : Pkg) (n v : Nat) : Word := p.cfg (pgPE n) (0x428 + 8 * (v % 64))

/-- What a dropped MSI leaves. -/
def Pkg.msiDrop (p : Pkg) (n : Nat) : Pkg := p.setEvent (pgPE n) 20 3 { Det.none with detail := p.reg (pgPE n) 0x218 }

theorem peMsi_dropped (h : 64 ≤ v ∨ bit (p.msiMap n v) 31 = false ∨
    fld (p.msiMap n v) 30 24 ≠ fld (p.cfg (pgPE n) (0x408 + 8 * link)) 62 56) : p.peMsi n link v = p.msiDrop n := by
  unfold Pkg.msiMap at h
  unfold Pkg.peMsi
  dsimp only
  rw [if_pos]
  · rfl
  · simpa [or_assoc] using h

theorem peMsi_delivered (hv : v < 64) (hbit : bit (p.msiMap n v) 31 = true)
    (hpid : fld (p.msiMap n v) 30 24 = fld (p.cfg (pgPE n) (0x408 + 8 * link)) 62 56)
    (hint : 0x10 ≤ fld (p.msiMap n v) 7 0) (hlc : fld (p.msiMap n v) 15 8 < 216)
    (hmap : p.mapped (fld (p.msiMap n v) 15 8) = true)
    (howner : p.lcpid (fld (p.msiMap n v) 15 8) = fld (p.msiMap n v) 30 24) :
    p.peMsi n link v = p.setPending (fld (p.msiMap n v) 15 8) (fld (p.msiMap n v) 7 0) := by
  unfold Pkg.msiMap at *
  unfold Pkg.peMsi Pkg.notify
  dsimp only
  rw [if_neg (by simp [hv, hbit, hpid]), if_pos ⟨hint, hlc, hmap, howner⟩]

/-- A notified core has the interrupt pending (R105, R480). -/
theorem core_setPending {lc a : Nat} (hlo : 0x10 ≤ a) (hhi : a < 256) (hlc : lc < 216) :
    (p.setPending lc a).core lc = { p.core lc with pend := (p.core lc).pend ||| BitVec.ofNat 256 (2 ^ a) } := by
  unfold Pkg.setPending
  rw [if_neg (by omega)]
  dsimp only
  rw [Pkg.core, wakeLatch_cores, ← Pkg.core, core_setCore_same]

end

section
variable {s : State} {pe : Fin 6} {link : Fin 4} {addr : Word} {v : BitVec 32}

/-- A 4-byte write to the MSI address of a port none of whose requests waits (R480). -/
theorem exec_msiWrite (h : deviceTaken s pe link) (hmsi : isMsi s pe link addr.toNat 4)
    (hw : s.pkg.inWaits (0x14 + pe.val) = false) :
    exec (.msiWrite pe link addr v) s = .next { s with pkg := s.pkg.peMsi pe.val link.val v.toNat } := by
  have hlen := leBytes_length 4 v.toNat
  have hval : leNat (leBytes 4 v.toNat) = v.toNat := by
    rw [leNat_leBytes]
    exact Nat.mod_eq_of_lt (by have := v.isLt; omega)
  have hmsi' : isMsi s pe link addr.toNat (leBytes 4 v.toNat).length := by rwa [hlen]
  have hexec : exec (.msiWrite pe link addr v) s = exec (.deviceDmaWrite pe link addr (leBytes 4 v.toNat) false) s := rfl
  rw [hexec, exec_deviceDmaWrite h, peWrite_msi hmsi', hval, inTake_done (q := s.pkg) (a := .done [] false) hw rfl (by simp),
    inEnd_msi rfl rfl]

end

/-! ### IOINV (R478) -/

section
variable (p : Pkg) (n link : Nat) (byAddr : Bool)

/-- A register of another place than IOINV. -/
theorem reg_ioinv (pg : Nat) (v : Word) (q : Nat) {o : Nat} (h : o ≠ 0xC00) : (p.setReg pg 0xC00 v).reg q o = p.reg q o := by
  rw [reg_setReg, if_neg (by tauto)]

theorem cmdIoinv_taken (hst : p.blkState (pgPE n) = 1) (hb : p.busy (pgPE n) = false) : p.cmdIoinv n link byAddr =
    (p.setPe n { p.pe n with inv := some (link, byAddr, p.rf (pgPE n) 0xC08 47 12 * 4096) }).cmdPending (pgPE n) 0xC00 :=
  if_neg (by simp [hst, hb])

theorem cmdIoinv_refused (h : p.blkState (pgPE n) ≠ 1 ∨ p.busy (pgPE n) = true) :
    p.cmdIoinv n link byAddr = p.cmdWrong (pgPE n) 0xC00 := if_pos h

theorem pe_of_pcie {p q : Pkg} (h : q.pcie = p.pcie) (n : Nat) : q.pe n = p.pe n := by
  rw [Pkg.pe, h, Pkg.pe]

/-- The register of IOINV, written before the command is judged. -/
def Pkg.withIoinv (p : Pkg) (pe : Fin 6) (link : Fin 4) (byAddr : Bool) : Pkg :=
  p.setReg (pgPE pe.val) 0xC00 (word [(24, byAddr.toNat), (16, link.val)])

theorem blkState_withIoinv (pe : Fin 6) (link : Fin 4) :
    (p.withIoinv pe link byAddr).blkState (pgPE pe.val) = p.blkState (pgPE pe.val) := by
  rw [Pkg.blkState, Pkg.rf, Pkg.withIoinv, reg_ioinv _ _ _ _ (by decide)]
  rfl

theorem busy_withIoinv (pe : Fin 6) (link : Fin 4) :
    (p.withIoinv pe link byAddr).busy (pgPE pe.val) = p.busy (pgPE pe.val) := by
  rw [Pkg.busy, Pkg.withIoinv, reg_ioinv _ _ _ _ (by decide)]
  rfl

/-- The address of an IOINV by address. -/
theorem rf_withIoinv (pe : Fin 6) (link : Fin 4) :
    (p.withIoinv pe link byAddr).rf (pgPE pe.val) 0xC08 47 12 = p.rf (pgPE pe.val) 0xC08 47 12 := by
  rw [Pkg.rf, Pkg.withIoinv, reg_ioinv _ _ _ _ (by decide)]
  rfl

theorem pe_withIoinv (pe : Fin 6) (link : Fin 4) (k : Nat) : (p.withIoinv pe link byAddr).pe k = p.pe k :=
  pe_of_pcie (setReg_pcie ..) k

theorem exec_ioinv {s : State} {who : Requester} {pe : Fin 6} {link : Fin 4} {byAddr : Bool}
    (h : s.pkg.commands who (pgPE pe.val) = true) : exec (.ioinv who pe link byAddr) s =
      .next { s with pkg := (s.pkg.withIoinv pe link byAddr).cmdIoinv pe.val link.val byAddr } := by
  rw [exec, execIoinv, upd_eq, cmd_of_commands h]
  rfl

theorem pe_setPe_same (x : Pcie) : (p.setPe n x).pe n = x := tblGet_tblSet_same ..

/-- An IOINV that was taken waits, and the IOTLB still holds what it held. -/
theorem pe_cmdIoinv (hst : p.blkState (pgPE n) = 1) (hb : p.busy (pgPE n) = false) : (p.cmdIoinv n link byAddr).pe n =
    { p.pe n with inv := some (link, byAddr, p.rf (pgPE n) 0xC08 47 12 * 4096) } := by
  rw [cmdIoinv_taken _ _ _ _ hst hb, pe_of_pcie (cmdPending_pcie ..), pe_setPe_same]

theorem lastCmd_cmdIoinv (hst : p.blkState (pgPE n) = 1) (hb : p.busy (pgPE n) = false) :
    LastCmd (p.cmdIoinv n link byAddr) (pgPE n) 0xC00 2 := by
  rw [cmdIoinv_taken _ _ _ _ hst hb]
  exact lastCmd_cmdPending _ (by decide)

/-- The entries that an IOINV leaves. -/
def ioKept (link : Nat) (byAddr : Bool) (a : Nat) (l : List IoTlb) : List IoTlb :=
  l.filter (fun e => !(e.link == link && (!byAddr || decide (e.vbase ≤ a ∧ a < e.vbase + e.size))))

theorem mem_ioKept (a : Nat) (l : List IoTlb) (e : IoTlb) : e ∈ ioKept link byAddr a l ↔
    e ∈ l ∧ (e.link ≠ link ∨ (byAddr = true ∧ ¬ (e.vbase ≤ a ∧ a < e.vbase + e.size))) := by
  unfold ioKept
  rw [List.mem_filter]
  by_cases hl : e.link = link
  · by_cases hr : e.vbase ≤ a ∧ a < e.vbase + e.size <;> cases byAddr <;> simp [hl, hr]
  · simp [hl]

end

section
variable {s : State} {pe : Fin 6}

theorem exec_ioinvComplete {link a : Nat} {byAddr : Bool} (h : (s.pkg.pe pe.val).inv = some (link, byAddr, a))
    (hw : s.pkg.inWaits (0x14 + pe.val) = false) : exec (.ioinvComplete pe) s = .next { s with
      pkg := (s.pkg.setPe pe.val { s.pkg.pe pe.val with
        iotlb := ioKept link byAddr a (s.pkg.pe pe.val).iotlb, inv := none }).cmdDone (pgPE pe.val) 0xC00 1 } := by
  rw [exec, execIoinvComplete, upd_eq]
  dsimp only
  rw [h]
  dsimp only
  rw [if_neg (by simp [hw])]
  rfl

theorem exec_ioinvComplete_idle (h : (s.pkg.pe pe.val).inv = none ∨ s.pkg.inWaits (0x14 + pe.val) = true) :
    exec (.ioinvComplete pe) s = .next s := by
  rw [exec, execIoinvComplete, upd_eq]
  dsimp only
  split
  · rfl
  next heq =>
    rw [if_pos (h.resolve_left (by simp [heq]))]

end

theorem lastCmd_cmdDone (p : Pkg) {pg off st : Nat} (h : off < 4096) (hst : st < 16) : LastCmd (p.cmdDone pg off st) pg off st :=
  ⟨(lastst_cmdDone p pg off st).trans (Nat.mod_eq_of_lt hst), (lastcmd_cmdDone p pg off st).trans (Nat.mod_eq_of_lt h)⟩

/-! ### Links (R481, R482) -/

/-- The highest bit of a field. -/
theorem bit_top (w : Word) {hi lo : Nat} (h : lo ≤ hi) : bit w hi = (fld w hi lo).testBit (hi - lo) := by
  have hlt : hi - lo < hi + 1 - lo := by omega
  have hadd : hi - lo + lo = hi := by omega
  rw [bit, BitVec.getLsbD, fld, Nat.testBit_mod_two_pow, Nat.testBit_div_two_pow, decide_eq_true hlt, Bool.true_and, hadd]

/-- The highest bit of a field that is written with 0. -/
theorem bit_setFld_zero (w : Word) {hi lo : Nat} (h : lo ≤ hi) (h64 : hi < 64) : bit (setFld w hi lo 0) hi = false := by
  rw [bit_top _ h, fld_setFld_same w 0 h h64, Nat.zero_mod, Nat.zero_testBit]

section
variable (p : Pkg) (pe : Nat) (link : Fin 4)

/-- The status of a port with a link down (R481). -/
def Pkg.linkOff (p : Pkg) (pe : Nat) (link : Fin 4) : Pkg := p.setRf (pgPE pe) 0x200 (16 * link.val + 15) (16 * link.val) 0

theorem linkUp_linkOff (k : Fin 4) :
    (p.linkOff pe link).linkUp pe k.val = (decide (k ≠ link) && p.linkUp pe k.val) := by
  have hl := link.isLt
  have hk := k.isLt
  by_cases h : k = link
  · subst h
    simp only [Pkg.linkUp, Pkg.linkOff, Pkg.setRf, reg_setReg_same, ne_eq, not_true_eq_false, decide_false, Bool.false_and]
    exact bit_setFld_zero _ (by omega) (by omega)
  · have hne : k.val ≠ link.val := fun he => h (Fin.ext he)
    simp only [Pkg.linkUp, Pkg.linkOff, ne_eq, h, not_false_eq_true, decide_true, Bool.true_and]
    exact bit_setRf_fld p _ _ _ (by omega) (by omega) (by omega)

theorem pcieDown_up (h : p.linkUp pe link.val = true) : p.pcieDown pe link.val =
    (p.linkOff pe link).setEvent (pgPE pe) 16 3 { Det.none with detail := p.reg (pgPE pe) 0x218 } := if_pos h

theorem linkUp_setEvent (pg b cls : Nat) (d : Det) (k : Nat) : (p.setEvent pg b cls d).linkUp pe k = p.linkUp pe k := by
  rw [Pkg.linkUp, reg_setEvent _ _ _ _ (.inr (by decide)), Pkg.linkUp]

end

/-! ### Completions (R476) -/

/-- Configuration space of a port, and the rest of its window. -/
def peConfig (n pa : Nat) : Bool := inPcie n pa && decide (pa - (0xC000000000000 + n * 0x400000000000) < 0x10000000)
def peMemory (n pa : Nat) : Bool := inPcie n pa && !peConfig n pa

section
variable {s : State} {pe : Fin 6} {tag : Nat} {ep : Bool} {b : List Byte}

theorem exec_pcieCompletion_ok : exec (.pcieCompletion pe tag 0 ep b) s =
    .next { s with pkg := s.pkg.coreAnswer (inPcie pe.val) tag (some (b, ep)) } := rfl

theorem exec_pcieCompletion_failed {st : Fin 8} (h0 : st ≠ 0) (h2 : st ≠ 2) : exec (.pcieCompletion pe tag st ep b) s =
    .next { s with
      pkg := (s.pkg.coreAnswer (peConfig pe.val) tag (some (List.replicate 8 (0xFF : Byte), false))).coreAnswer
        (peMemory pe.val) tag none } := by
  have hv0 : st.val ≠ 0 := fun h => h0 (Fin.ext h)
  have hv2 : st.val ≠ 2 := fun h => h2 (Fin.ext h)
  rw [exec, execPcieCompletion, upd_eq]
  dsimp only
  rw [if_neg hv2, if_neg hv0]
  rfl

end

section
variable {p : Pkg} {inWin : Nat → Bool} {tag lc : Nat} {ans : Option (List Byte × Bool)} {a : IoAcc}

/-- The core with an access that waits for an answer. -/
theorem core_answered (hlc : lc < 216) (hio : (p.core lc).io = [a]) (htag : a.tag = tag) (hwin : inWin a.pa = true)
    (hans : a.answer = none) :
    (p.coreAnswer inWin tag ans).core lc = { p.core lc with io := [{ a with answer := some ans }] } := by
  obtain ⟨r, -, hcore, hfold⟩ := foldl_at_mem (get := Pkg.core) (fun p i _ => coreAnswerAt_other p i) Pkg.sansCores
    (sansCores_coreAnswerAt (inWin := inWin) (tag := tag) (ans := ans)) List.nodup_range (List.mem_range.2 hlc) p
  rw [coreAnswer_eq, hfold, Pkg.coreAnswerAt, hcore]
  dsimp only
  rw [if_pos (by simp [hio, htag, hwin, hans]), core_setCore_same, hio]
  simp [IoAcc.answered, htag, hwin, hans]

/-- A core with no access that waits for the answer, and none posted, is left. -/
theorem core_not_answered (hio : (p.core lc).io.any (fun a => a.tag == tag && inWin a.pa && a.answer.isNone) = false)
    (hposted : (p.core lc).posted = []) (hlc : lc < 216) : (p.coreAnswer inWin tag ans).core lc = p.core lc := by
  obtain ⟨r, -, hcore, hfold⟩ := foldl_at_mem (get := Pkg.core) (fun p i _ => coreAnswerAt_other p i) Pkg.sansCores
    (sansCores_coreAnswerAt (inWin := inWin) (tag := tag) (ans := ans)) List.nodup_range (List.mem_range.2 hlc) p
  rw [coreAnswer_eq, hfold, Pkg.coreAnswerAt, hcore, if_neg (by simp [hio]), hposted]
  exact hcore

theorem pages_coreAnswer : (p.coreAnswer inWin tag ans).pages = p.pages :=
  (congrArg Pkg.pages (eq_of_sansCores (sansCores_coreAnswer p inWin tag ans)) :)

/-- A failed access of a port's window answers all ones in configuration space, and an error elsewhere (R476). -/
theorem io_failed {n : Nat} (hlc : lc < 216) (hio : (p.core lc).io = [a]) (hposted : (p.core lc).posted = []) (htag : a.tag = tag)
    (hwin : inPcie n a.pa = true) (hans : a.answer = none) :
    (((p.coreAnswer (peConfig n) tag (some (List.replicate 8 (0xFF : Byte), false))).coreAnswer
      (peMemory n) tag none).core lc).io =
      [{ a with answer := some (if a.pa - (0xC000000000000 + n * 0x400000000000) < 0x10000000
        then some (List.replicate 8 (0xFF : Byte), false) else none) }] := by
  by_cases hcfg : a.pa - (0xC000000000000 + n * 0x400000000000) < 0x10000000
  · have hc : peConfig n a.pa = true := by simp [peConfig, hwin, hcfg]
    have hcore := core_answered (ans := some (List.replicate 8 (0xFF : Byte), false)) hlc hio htag hc hans
    rw [core_not_answered (by rw [hcore]; simp) (by rw [hcore]; exact hposted) hlc, hcore, if_pos hcfg]
  · have hc : peConfig n a.pa = false := by simp [peConfig, hcfg]
    have hm : peMemory n a.pa = true := by simp [peMemory, hwin, hc]
    have hcore := core_not_answered (p := p) (inWin := peConfig n) (tag := tag)
      (ans := some (List.replicate 8 (0xFF : Byte), false)) (by simp [hio, hc]) hposted hlc
    rw [core_answered hlc (by rw [hcore]; exact hio) htag hm hans, if_neg hcfg]

end

/-- Settles O22: by the row's requests (`devReq`), the end of a request, and the answers of the cores. -/
theorem deviceRequestsAreTranslated : Obligations.DeviceRequestsAreTranslated := by
  unfold Obligations.DeviceRequestsAreTranslated
  refine ⟨?_, ?_, ?_, ?_, ?_, ?_, ?_, ?_, ?_, ?_, ?_, ?_, ?_, ?_, ?_, ?_, ?_, ?_, ?_, ?_, ?_⟩
  · intro s pe link addr b q h hmsi hparts
    refine ⟨_, exec_deviceDmaWrite h b false, ?_⟩
    rw [peWrite_mem hmsi, hparts]
    exact ⟨hbm_of_rest (rest_peFail ..), out_of_rest (rest_peFail ..), reg_peFail ..⟩
  · intro s pe link addr b l q a r h hmsi hparts hw htry ha
    refine ⟨_, exec_deviceDmaWrite h b false, rfl, ?_⟩
    rw [peWrite_mem hmsi, hparts]
    dsimp only
    rw [inTake_done (x := devReq s pe link addr l (.write b (2 ^ b.length - 1) false)) hw htry ha, inEnd_write rfl rfl]
    rfl
  · intro s pe link addr b l q a r h hmsi hparts hw htry ha hmask
    obtain ⟨hhbm, hev⟩ := poisoned_marks (x := devReq s pe link addr l (.write b (2 ^ b.length - 1) true)) (addr := addr.toNat)
      hmask
    refine ⟨_, exec_deviceDmaWrite h b true, rfl, ?_⟩
    rw [peWrite_mem hmsi, hparts]
    dsimp only
    rw [inTake_done (x := devReq s pe link addr l (.write b (2 ^ b.length - 1) true)) hw htry ha, inEnd_write rfl rfl,
      if_pos rfl]
    exact ⟨hhbm, hev⟩
  · intro s pe link addr len l b q r h hparts hw htry
    refine ⟨_, exec_deviceDmaRead h len, rfl, ?_⟩
    rw [hparts]
    exact (inTake_done (x := devReq s pe link addr l .read) hw htry (by simp)).trans (inEnd_read rfl rfl)
  · intro s pe link addr len l b q r h hparts hw htry hmask
    obtain ⟨hhbm, hev⟩ := poisoned_marks (x := devReq s pe link addr l .read) (addr := addr.toNat) hmask
    refine ⟨_, exec_deviceDmaRead h len, ?_⟩
    rw [hparts]
    dsimp only
    rw [inTake_done (x := devReq s pe link addr l .read) hw htry (by simp), inEnd_read rfl rfl,
      if_pos rfl, hbm_reply, reg_reply, out_reply]
    exact ⟨hhbm, hev, rfl⟩
  · intro s pe link addr len q h hparts
    refine ⟨_, exec_deviceDmaRead h len, ?_⟩
    rw [hparts]
    refine ⟨?_, ?_, out_reply ..⟩
    · rw [hbm_reply]
      exact hbm_of_rest ((rest_peUr ..).trans (rest_peFail ..))
    · rw [reg_reply, reg_peUr _ _ rfl, reg_peFail]
  · intro s pe link addr len l q h hparts hwait
    refine ⟨_, exec_deviceDmaRead h len, ?_⟩
    rw [hparts]
    dsimp only
    rw [inTake_hold (x := devReq s pe link addr l .read) hwait]
    rfl
  · intro s pe link addr b ep l q h hmsi hparts hwait
    refine ⟨_, exec_deviceDmaWrite h b ep, ?_⟩
    rw [peWrite_mem hmsi, hparts]
    dsimp only
    rw [inTake_hold (x := devReq s pe link addr l (.write b (2 ^ b.length - 1) ep)) hwait]
    rfl
  · intro s pe link addr b ep len v h
    exact ⟨exec_deviceDmaWrite_idle h b ep, exec_deviceDmaRead_idle h len, exec_msiWrite_idle h v⟩
  · exact fun s pe link addr v => rfl
  · intro s pe link addr v lc a h hmsi hw hv hbit hpid hlc ha hint hlt hmap howner
    subst hlc ha
    have hmod : v.toNat % 64 = v.toNat := Nat.mod_eq_of_lt hv
    have hentry : s.pkg.cfg (pgPE pe.val) (0x428 + 8 * v.toNat) = s.pkg.msiMap pe.val v.toNat := by rw [Pkg.msiMap, hmod]
    rw [hentry] at hbit hpid hint hlt hmap howner ⊢
    refine ⟨_, exec_msiWrite h hmsi hw, ?_⟩
    rw [peMsi_delivered hv hbit hpid hint hlt hmap howner]
    exact ⟨core_setPending hint (fld_lt ..) hlt, setPending_pages .., setPending_hbm ..⟩
  · intro s pe link addr v h hmsi hw hwhy hmask
    refine ⟨_, exec_msiWrite h hmsi hw, ?_⟩
    rw [peMsi_dropped hwhy]
    exact ⟨setEvent_cores .., setEvent_hbm .., errstat_setEvent _ _ (by decide) hmask⟩
  · intro s who pe link byAddr hcmd hst hb
    have hst' := (blkState_withIoinv (byAddr := byAddr) s.pkg pe link).trans hst
    have hb' := (busy_withIoinv (byAddr := byAddr) s.pkg pe link).trans hb
    refine ⟨_, exec_ioinv hcmd, ?_⟩
    dsimp only
    rw [pe_cmdIoinv _ _ _ _ hst' hb', rf_withIoinv, pe_withIoinv]
    exact ⟨lastCmd_cmdIoinv _ _ _ _ hst' hb', rfl, rfl⟩
  · intro s who pe link byAddr hcmd hwhy
    refine ⟨_, exec_ioinv hcmd, ?_⟩
    rw [cmdIoinv_refused _ _ _ _ (by rwa [blkState_withIoinv, busy_withIoinv])]
    exact ⟨onlyPagesStw_of_rest ((rest_cmdWrong ..).trans (rest_setReg ..)), lastCmd_cmdWrong _ (by decide)⟩
  · intro s pe link byAddr a hinv hw
    refine ⟨_, exec_ioinvComplete hinv hw, lastCmd_cmdDone _ (by decide) (by decide), ?_⟩
    dsimp only
    rw [pe_of_pcie (cmdDone_pcie ..), pe_setPe_same]
    exact ⟨rfl, mem_ioKept link byAddr a _⟩
  · exact fun s pe h => exec_ioinvComplete_idle h
  · intro s pe link h
    have hexec : exec (.pcieLinkDown pe link) s = .next { s with pkg := s.pkg.pcieDown pe.val link.val } := rfl
    refine ⟨_, hexec, ?_⟩
    rw [pcieDown_up _ _ _ h]
    refine ⟨?_, onlyPagesStw_of_rest (by simp [Pkg.linkOff]), fun k hk => ?_⟩
    · rw [linkUp_setEvent, linkUp_linkOff]
      simp
    · rw [linkUp_setEvent, linkUp_linkOff]
      simp [hk]
  · intro s pe link h
    rw [exec, execPcieLinkDown, upd_eq, Pkg.pcieDown, if_neg (by simp [h])]
  · intro s pe tag ep b lc a hlc hio hposted htag hwin hans
    refine ⟨_, exec_pcieCompletion_ok, ?_, ?_⟩ <;> dsimp only
    · rw [core_answered hlc hio htag hwin hans]
    · exact pages_coreAnswer
  · intro s pe tag st ep b lc a h0 h2 hlc hio hposted htag hwin hans
    refine ⟨_, exec_pcieCompletion_failed h0 h2, ?_, ?_⟩ <;> dsimp only
    · rw [pages_coreAnswer, pages_coreAnswer]
    · exact io_failed hlc hio hposted htag hwin hans
  · exact fun s pe tag ep b => rfl

end Sys2Proof.Machine
end


section
/-! A mode command that waits is kept by events, counts, caches and memory (R57, R319 to R327). -/

namespace Sys2Proof.Machine

/-- A pass in which every step keeps the command keeps it. -/
theorem modeCmd_foldl {ι : Type} {f : Pkg → ι → Pkg} (h : ∀ p i, (f p i).stw.modeCmd = p.stw.modeCmd) (l : List ι) (p : Pkg) :
    (l.foldl f p).stw.modeCmd = p.stw.modeCmd :=
  foldl_keeps (fun p => p.stw.modeCmd) h l p

theorem modeCmd_ite {c : Prop} [Decidable c] {p q : Pkg} {t : Option (Mode × Bool)} (hp : p.stw.modeCmd = t)
    (hq : q.stw.modeCmd = t) : (if c then p else q).stw.modeCmd = t := by
  split
  · exact hp
  · exact hq

variable (p : Pkg)

/-! ### Events and counts -/

@[simp] theorem modeCmd_logEvent (code origin : Nat) (lc pid : Option Nat) (pg : Nat) (detail : Word) :
    (p.logEvent code origin lc pid pg detail).stw.modeCmd = p.stw.modeCmd := by
  rw [logEvent_stw]

@[simp] theorem modeCmd_evCount (die : Option Nat) (ev inst : Nat) (pid : Option Nat) (net k : Nat) :
    (p.evCount die ev inst pid net k).stw.modeCmd = p.stw.modeCmd := by
  unfold Pkg.evCount
  split
  split
  · rfl
  · exact modeCmd_foldl (fun q i => modeCmd_ite (by simp) rfl) _ _

/-! ### Caches -/

@[simp] theorem modeCmd_cacheModify (c line : Nat) (f : CWay → CWay) : (p.cacheModify c line f).stw.modeCmd = p.stw.modeCmd := by
  unfold Pkg.cacheModify
  dsimp only
  split <;> simp

@[simp] theorem modeCmd_cacheDrop (c line : Nat) : (p.cacheDrop c line).stw.modeCmd = p.stw.modeCmd := by
  unfold Pkg.cacheDrop
  split <;> simp

@[simp] theorem modeCmd_dieDrop (d line : Nat) : (p.dieDrop d line).stw.modeCmd = p.stw.modeCmd :=
  modeCmd_foldl (fun _ _ => modeCmd_cacheDrop ..) _ _

@[simp] theorem modeCmd_leaveL2 (k line : Nat) : (p.leaveL2 k line).stw.modeCmd = p.stw.modeCmd := by
  have hunits : ∀ (l : List Nat) (p : Pkg),
      (l.foldl (fun (p : Pkg) (u : Nat) => (p.cacheDrop (cL1I u) line).cacheDrop (cL1D u) line) p).stw.modeCmd = p.stw.modeCmd :=
    modeCmd_foldl (fun _ _ => by simp)
  unfold Pkg.leaveL2
  dsimp only
  split
  · rw [modeCmd_cacheModify, hunits]
  · exact hunits ..

@[simp] theorem modeCmd_refreshLockstat (c : Nat) : (p.refreshLockstat c).stw.modeCmd = p.stw.modeCmd := by
  unfold Pkg.refreshLockstat
  split
  · rfl
  · exact congrArg Steward.modeCmd (setReg_stw ..)

/-! ### Memory (R319 to R323, R327) -/

@[simp] theorem modeCmd_freeBytes (n : Nat) : (p.freeBytes n).2.stw.modeCmd = p.stw.modeCmd := (rfl)
@[simp] theorem modeCmd_setLineMeta (line : Nat) (m : Option LineMeta) : (p.setLineMeta line m).stw.modeCmd =
    p.stw.modeCmd := (rfl)

@[simp] theorem modeCmd_disturb (line : Nat) (dist : Disturb) : (p.disturb line dist).stw.modeCmd = p.stw.modeCmd := by
  unfold Pkg.disturb
  split <;> rfl

@[simp] theorem modeCmd_content (line pid : Nat) (residual : Tbl Byte) : (p.content line pid residual).2.stw.modeCmd =
    p.stw.modeCmd := by
  unfold Pkg.content
  split
  · split <;> rfl
  · rfl

@[simp] theorem modeCmd_scrubBoost (n : Nat) : (p.scrubBoost n).stw.modeCmd = p.stw.modeCmd := by
  unfold Pkg.scrubBoost
  split <;> simp

@[simp] theorem modeCmd_rowReq (n pch bank row : Nat) : (p.rowReq n pch bank row).stw.modeCmd = p.stw.modeCmd := by
  simp [Pkg.rowReq]

@[simp] theorem modeCmd_trackCe (line : Nat) : (p.trackCe line).stw.modeCmd = p.stw.modeCmd := by
  unfold Pkg.trackCe
  exact modeCmd_ite (modeCmd_rowReq ..) rfl

@[simp] theorem modeCmd_trackUe (line : Nat) : (p.trackUe line).stw.modeCmd = p.stw.modeCmd := by
  unfold Pkg.trackUe
  dsimp only
  split
  · rfl
  split <;> simp

@[simp] theorem modeCmd_storeLine (line pid : Nat) (bytes : List Byte) (poison : Bool) :
    (p.storeLine line pid bytes poison).stw.modeCmd = p.stw.modeCmd := by
  simp [Pkg.storeLine]

@[simp] theorem modeCmd_lineWrite (line pid : Nat) (bytes : List Byte) (poison : Bool) :
    (p.lineWrite line pid bytes poison).2.stw.modeCmd = p.stw.modeCmd := by
  unfold Pkg.lineWrite
  split <;> simp

@[simp] theorem modeCmd_poisonLine (line pid : Nat) : (p.poisonLine line pid).stw.modeCmd = p.stw.modeCmd := by
  unfold Pkg.poisonLine
  split
  · exact modeCmd_storeLine ..
  · rfl

/-- The pair that `content` gives stays closed here: what it holds is of no concern. -/
@[simp] theorem modeCmd_lineRead (line pid agent : Nat) (dist : Disturb) :
    (p.lineRead line pid agent dist).2.stw.modeCmd = p.stw.modeCmd := by
  unfold Pkg.lineRead
  split
  · rfl
  · exact modeCmd_freeBytes p 64
  obtain ⟨content, hcontent, hpages⟩ : ∃ f, f = Pkg.content ∧ ∀ p line pid res, (f p line pid res).2.stw.modeCmd =
      p.stw.modeCmd :=
    ⟨_, rfl, modeCmd_content⟩
  rw [← hcontent]
  dsimp only
  split
  · split
    · split <;> simp [hpages]
    · simp
  · simp [hpages]
  · simp

end Sys2Proof.Machine
end

section
/-! A mode command waits on while homes, dies and messages work (R57, R228 to R250). -/

namespace Sys2Proof.Machine

variable (p : Pkg)

/-! ### Messages and flits -/

@[simp] theorem modeCmd_send (m : Msg) : (p.send m).stw.modeCmd = p.stw.modeCmd := (rfl)

@[simp] theorem modeCmd_returnCredit (b : Option (Nat × Nat)) : (p.returnCredit b).stw.modeCmd = p.stw.modeCmd := by
  unfold Pkg.returnCredit
  split <;> simp

@[simp] theorem modeCmd_dropFlit (pg bit_ : Nat) : (p.dropFlit pg bit_).stw.modeCmd = p.stw.modeCmd := by
  simp [Pkg.dropFlit]

/-! ### Checkstops and protocol errors -/

@[simp] theorem modeCmd_setPart (pid : Nat) (x : Partition) : (p.setPart pid x).stw.modeCmd = p.stw.modeCmd := (rfl)

@[simp] theorem modeCmd_setDcs (pid : Nat) (b : Bool) : (p.setDcs pid b).stw.modeCmd = p.stw.modeCmd :=
  modeCmd_foldl (fun _ _ => congrArg Steward.modeCmd (setRf_stw ..)) _ _

@[simp] theorem modeCmd_stopCores (pid : Nat) : (p.stopCores pid).stw.modeCmd = p.stw.modeCmd := by
  unfold Pkg.stopCores
  exact modeCmd_foldl (fun _ _ => modeCmd_ite (by simp) rfl) _ _

@[simp] theorem modeCmd_ledgerDcs (pid : Nat) : (p.ledgerDcs pid).stw.modeCmd = p.stw.modeCmd := (rfl)

@[simp] theorem modeCmd_cipherDcs (pid : Nat) : (p.cipherDcs pid).stw.modeCmd = p.stw.modeCmd := by
  unfold Pkg.cipherDcs
  exact modeCmd_foldl (fun _ _ => modeCmd_setEvent ..) _ _

@[simp] theorem modeCmd_putEnt (k w : Nat) (e : Option DirEnt) : (p.putEnt k w e).stw.modeCmd = p.stw.modeCmd := by
  simp [Pkg.putEnt]

@[simp] theorem modeCmd_dirModify (line : Nat) (f : DirEnt → Option DirEnt) :
    (p.dirModify line f).stw.modeCmd = p.stw.modeCmd := by
  unfold Pkg.dirModify
  split <;> simp

@[simp] theorem modeCmd_freeEnt (line : Nat) : (p.freeEnt line).stw.modeCmd = p.stw.modeCmd := modeCmd_dirModify ..

@[simp] theorem modeCmd_refreshConfq (n : Nat) : (p.refreshConfq n).stw.modeCmd = p.stw.modeCmd := by
  simp [Pkg.refreshConfq]

@[simp] theorem modeCmd_raiseDcs (pid det : Nat) : (p.raiseDcs pid det).stw.modeCmd = p.stw.modeCmd := by
  unfold Pkg.raiseDcs
  split
  · rfl
  · have hsend := modeCmd_foldl (f := fun (p : Pkg) (r : HomeReq) => p.send (r.answer (.err 3))) (fun _ _ => by rw [modeCmd_send])
    have hbusy := modeCmd_foldl
      (f := fun (p : Pkg) (t : Txn) => p.dirModify t.req.line (fun e => some { e with busy := false }))
        (fun _ _ => modeCmd_dirModify ..)
    have hconfq := modeCmd_foldl (f := fun (p : Pkg) (r : HomeReq) => p.refreshConfq (mcOf r.line))
      (fun _ _ => modeCmd_refreshConfq ..)
    simp [hsend, hbusy, hconfq]

@[simp] theorem modeCmd_protoError (n pid line : Nat) : (p.protoError n pid line).stw.modeCmd = p.stw.modeCmd := by
  unfold Pkg.protoError
  dsimp only
  split <;> simp

@[simp] theorem modeCmd_unmatched (m : Msg) : (p.unmatched m).stw.modeCmd = p.stw.modeCmd := by
  unfold Pkg.unmatched
  split <;> simp

/-! ### Requesters -/

@[simp] theorem modeCmd_noteReq (r : HomeReq) : (p.noteReq r).stw.modeCmd = p.stw.modeCmd := by
  unfold Pkg.noteReq
  split <;> simp

@[simp] theorem modeCmd_putDline (d line : Nat) (x : Option DLine) : (p.putDline d line x).stw.modeCmd = p.stw.modeCmd := (rfl)

@[simp] theorem modeCmd_refreshQuar (pg : Nat) : (p.refreshQuar pg).stw.modeCmd = p.stw.modeCmd := congrArg Steward.modeCmd
    (setRf_stw ..)

@[simp] theorem modeCmd_lateMsg (a txid : Nat) : (p.lateMsg a txid).stw.modeCmd = p.stw.modeCmd := by
  simp [Pkg.lateMsg]

@[simp] theorem modeCmd_freeQuarantine (a : Nat) : (p.freeQuarantine a).stw.modeCmd = p.stw.modeCmd := by
  simp [Pkg.freeQuarantine]

@[simp] theorem modeCmd_stray (a : Nat) (m : Msg) : (p.stray a m).stw.modeCmd = p.stw.modeCmd := by
  unfold Pkg.stray
  split <;> simp

/-! ### Homes: requests -/

@[simp] theorem modeCmd_enqueue (r : HomeReq) : (p.enqueue r).stw.modeCmd = p.stw.modeCmd := by simp [Pkg.enqueue]

@[simp] theorem modeCmd_snoop (k : Nat) (r : HomeReq) (fwd : Nat) (own : Bool) (dies : List Nat) :
    (p.snoop k r fwd own dies).2.stw.modeCmd = p.stw.modeCmd := by
  unfold Pkg.snoop
  refine foldl_keeps (fun a : List Nat × Pkg => a.2.stw.modeCmd) (fun a d => ?_) _ _
  split
  · split <;> simp
  · simp

@[simp] theorem modeCmd_openTxn (r : HomeReq) (k fwd : Nat) (own : Bool) (dies : List Nat) :
    (p.openTxn r k fwd own dies).stw.modeCmd = p.stw.modeCmd :=
  (modeCmd_snoop ..).trans (modeCmd_dirModify ..)

@[simp] theorem modeCmd_openInval (line : Nat) (e : DirEnt) (r : HomeReq) :
    (p.openInval line e r).stw.modeCmd = p.stw.modeCmd := by
  unfold Pkg.openInval
  exact (modeCmd_snoop ..).trans (modeCmd_dirModify ..)

@[simp] theorem modeCmd_startReq (r : HomeReq) : (p.startReq r).stw.modeCmd = p.stw.modeCmd := by
  have hcount : ∀ (v : DirEnt) (line : Nat) (l : List Nat) (p : Pkg), (l.foldl (fun (p : Pkg) (d : Nat) =>
      p.evCount (some d) 6 (sliceOf line) (some v.pid) 1 1) p).stw.modeCmd = p.stw.modeCmd :=
    fun _ _ => modeCmd_foldl fun _ _ => modeCmd_evCount ..
  unfold Pkg.startReq
  dsimp only
  split
  · simp
  split
  · split
    · simp
    split
    · simp
    split
    · exact modeCmd_ite (modeCmd_openTxn ..) (modeCmd_openTxn ..)
    · exact modeCmd_ite (modeCmd_openTxn ..) (modeCmd_openTxn ..)
    · exact modeCmd_ite (modeCmd_openTxn ..) (modeCmd_openTxn ..)
    · exact modeCmd_ite (modeCmd_openTxn ..) (modeCmd_openTxn ..)
    · exact modeCmd_openTxn ..
  · split
    · split
      · simp
      · split
        · simp [hcount]
        · simp
    · simp

end Sys2Proof.Machine
end

section
/-! A mode command waits on as lines move: completions, evictions, die agents, delivery (R57, R235 to R242). -/

namespace Sys2Proof.Machine

variable (p : Pkg)

/-! ### Completions -/

@[simp] theorem modeCmd_closeTxn (line txid : Nat) : (p.closeTxn line txid).stw.modeCmd = p.stw.modeCmd :=
  modeCmd_dirModify ..

@[simp] theorem modeCmd_dropTxn (r : HomeReq) : (p.dropTxn r).stw.modeCmd = p.stw.modeCmd := (rfl)

@[simp] theorem modeCmd_writeBack (t : Txn) : (p.writeBack t).stw.modeCmd = p.stw.modeCmd := by
  unfold Pkg.writeBack
  split
  · exact modeCmd_ite (modeCmd_lineWrite ..) rfl
  · rfl

@[simp] theorem modeCmd_grant (t : Txn) (g : Nat) (df : Bool) (d : Option (List Byte × Bool × Bool)) (own : Bool) (pres : Nat) :
    (p.grant t g df d own pres).stw.modeCmd = p.stw.modeCmd := by
  unfold Pkg.grant
  cases d <;> simp

theorem modeCmd_of_lineRead {p q : Pkg} {line pid agent : Nat} {a : LineAns} (h : p.lineRead line pid agent = (a, q)) :
    q.stw.modeCmd = p.stw.modeCmd := by
  have hread := modeCmd_lineRead p line pid agent []
  rwa [h] at hread

@[simp] theorem modeCmd_grantMem (t : Txn) (g : Nat) (own : Bool) (pres : Nat) :
    (p.grantMem t g own pres).stw.modeCmd = p.stw.modeCmd := by
  unfold Pkg.grantMem
  dsimp only
  split
  case h_1 q h => simp [modeCmd_of_lineRead h]
  case h_2 b poison q h => simp [modeCmd_of_lineRead h]

theorem modeCmd_of_lineWrite {p q : Pkg} {line pid : Nat} {b : List Byte} {poison ok : Bool}
    (h : p.lineWrite line pid b poison = (ok, q)) : q.stw.modeCmd = p.stw.modeCmd := by
  have hwrite := modeCmd_lineWrite p line pid b poison
  rwa [h] at hwrite

@[simp] theorem modeCmd_finishIord (t : Txn) (own : Bool) : (p.finishIord t own).stw.modeCmd = p.stw.modeCmd := by
  unfold Pkg.finishIord
  extract_lets r q res
  have hres : res.2.stw.modeCmd = p.stw.modeCmd := by
    unfold res
    split
    · exact modeCmd_writeBack ..
    · exact (modeCmd_lineRead ..).trans (modeCmd_writeBack ..)
  obtain ⟨a, q'⟩ := res
  cases a with
  | addr => simpa using hres
  | line b poison =>
    dsimp only
    split
    · simpa using hres
    · split <;> simpa using hres

@[simp] theorem modeCmd_finishIowr (t : Txn) : (p.finishIowr t).stw.modeCmd = p.stw.modeCmd := by
  unfold Pkg.finishIowr
  extract_lets r full base
  have hbase : base.2.stw.modeCmd = p.stw.modeCmd := by
    unfold base
    split
    · rfl
    split
    · rfl
    · exact modeCmd_lineRead ..
  obtain ⟨a, q⟩ := base
  cases a with
  | addr => simpa using hbase
  | line b poison =>
    dsimp only at hbase ⊢
    split
    case h_1 w hw => simp [modeCmd_of_lineWrite hw, hbase]
    case h_2 w hw =>
      have hkept := (modeCmd_of_lineWrite hw).trans hbase
      rw [modeCmd_dropTxn, modeCmd_freeEnt, modeCmd_send]
      exact modeCmd_ite hkept (by rw [modeCmd_send, hkept])

@[simp] theorem modeCmd_finishTxn (t : Txn) : (p.finishTxn t).stw.modeCmd = p.stw.modeCmd := by
  have hback : ∀ g df d own pres, ((p.writeBack t).grant t g df d own pres).stw.modeCmd = p.stw.modeCmd := by simp
  unfold Pkg.finishTxn
  extract_lets r q ent pres own me
  have hq : q.stw.modeCmd = p.stw.modeCmd := by simp [q]
  split
  · split
    · exact (modeCmd_startReq ..).trans hq
    · exact hq
  have hupg : (if own ∧ t.present ∧ t.snooped ≠ [] then p.grant t 3 true none true me
      else
        match t.data with
        | some b => p.grant t 3 true (some (b, t.dirty, t.poison)) true me
        | none =>
          if r.kind = .upg ∧ !own ∧ pres / me % 2 = 1 then p.grant t 3 false none true me
          else p.grantMem t 3 true me).stw.modeCmd = p.stw.modeCmd := by
    refine modeCmd_ite (modeCmd_grant ..) ?_
    split
    · exact modeCmd_grant ..
    · exact modeCmd_ite (modeCmd_grant ..) (modeCmd_grantMem ..)
  split
  · refine modeCmd_ite (hback ..) (modeCmd_ite ?_ (modeCmd_ite (modeCmd_grantMem ..) (modeCmd_grantMem ..)))
    split
    · exact hback ..
    · exact modeCmd_grantMem ..
  · exact hupg
  · exact hupg
  · exact modeCmd_finishIord ..
  · exact modeCmd_finishIowr ..

@[simp] theorem modeCmd_serveNext (line : Nat) : (p.serveNext line).stw.modeCmd = p.stw.modeCmd := by
  unfold Pkg.serveNext
  split
  · rfl
  split <;> simp

@[simp] theorem modeCmd_homeRun (k : Nat) : (p.homeRun k).stw.modeCmd = p.stw.modeCmd := by
  induction k generalizing p with
  | zero => rfl
  | succ k ih =>
    unfold Pkg.homeRun
    split
    · rw [ih, modeCmd_finishTxn]
    · rfl

/-! ### Requests and evictions at a home -/

@[simp] theorem modeCmd_findBroken (r : HomeReq) : (p.findBroken r).stw.modeCmd = p.stw.modeCmd := by
  unfold Pkg.findBroken
  split
  · dsimp only
    split <;> split <;> simp
  · rfl

@[simp] theorem modeCmd_homeReq (r : HomeReq) : (p.homeReq r).stw.modeCmd = p.stw.modeCmd := by
  unfold Pkg.homeReq
  refine modeCmd_ite ?_ (modeCmd_ite ?_ (modeCmd_ite ?_ (modeCmd_ite ?_ (modeCmd_ite ?_ ?_)))) <;> simp

@[simp] theorem modeCmd_staleEvict (m : Msg) : (p.staleEvict m).stw.modeCmd = p.stw.modeCmd := by
  simp [Pkg.staleEvict]

@[simp] theorem modeCmd_applyWbd (m : Msg) : (p.applyWbd m).stw.modeCmd = p.stw.modeCmd := by
  unfold Pkg.applyWbd
  split
  · rfl
  · dsimp only
    split <;> simp

@[simp] theorem modeCmd_applyEvc (m : Msg) : (p.applyEvc m).stw.modeCmd = p.stw.modeCmd := by
  simp [Pkg.applyEvc]

@[simp] theorem modeCmd_homeEvict (m : Msg) : (p.homeEvict m).stw.modeCmd = p.stw.modeCmd := by
  unfold Pkg.homeEvict
  extract_lets d stale q apply
  have hq : q.stw.modeCmd = p.stw.modeCmd := by
    unfold q
    split
    · exact modeCmd_ite rfl (modeCmd_protoError ..)
    · rfl
  have happly : (apply q).stw.modeCmd = p.stw.modeCmd :=
    modeCmd_ite ((modeCmd_staleEvict ..).trans hq) (modeCmd_ite ((modeCmd_applyWbd ..).trans hq) ((modeCmd_applyEvc ..).trans hq))
  split
  · exact modeCmd_ite hq (modeCmd_ite ((modeCmd_staleEvict ..).trans hq) happly)
  · exact happly

@[simp] theorem modeCmd_homeSnpRsp (m : Msg) (resp : Nat) : (p.homeSnpRsp m resp).stw.modeCmd = p.stw.modeCmd := by
  have hstale := modeCmd_foldl (f := fun (p : Pkg) (h : Msg) => p.staleEvict h) (fun _ _ => modeCmd_staleEvict ..)
  unfold Pkg.homeSnpRsp
  dsimp only
  split
  · simp
  · rw [hstale]
    exact modeCmd_ite (modeCmd_dirModify ..) rfl

@[simp] theorem modeCmd_homeWbData (m : Msg) (b : List Byte) (mask : Nat) (dirty poison : Bool) :
    (p.homeWbData m b mask dirty poison).stw.modeCmd = p.stw.modeCmd := by
  unfold Pkg.homeWbData
  extract_lets isIo fill snooped q
  refine modeCmd_ite rfl (modeCmd_ite rfl ?_)
  split
  · exact modeCmd_ite rfl (modeCmd_applyWbd ..)
  · rfl

@[simp] theorem modeCmd_earlyData (r : HomeReq) : (p.earlyData r).stw.modeCmd = p.stw.modeCmd := by
  unfold Pkg.earlyData
  split
  · split
    · dsimp only
      split <;> simp
    · rfl
  · rfl

@[simp] theorem modeCmd_homeAck (m : Msg) : (p.homeAck m).stw.modeCmd = p.stw.modeCmd := by
  unfold Pkg.homeAck
  exact modeCmd_ite (modeCmd_closeTxn ..) (modeCmd_unmatched ..)

/-! ### Die agents and requesters -/

@[simp] theorem modeCmd_dieRecall (d line : Nat) : (p.dieRecall d line).stw.modeCmd = p.stw.modeCmd := by
  have hdrop : ∀ (l : List Nat) (p : Pkg), (l.foldl (fun (p : Pkg) (c : Nat) => p.cacheDrop c line) p).stw.modeCmd =
      p.stw.modeCmd :=
    modeCmd_foldl fun _ _ => modeCmd_cacheDrop ..
  unfold Pkg.dieRecall
  rw [modeCmd_cacheModify, hdrop]

@[simp] theorem modeCmd_dieSnoop (m : Msg) : (p.dieSnoop m).stw.modeCmd = p.stw.modeCmd := by
  unfold Pkg.dieSnoop
  dsimp only
  split
  · simp
  split
  · split <;> simp
  split
  · split
    · simp
    · split <;> simp
  · split <;> simp
  · split <;> simp

@[simp] theorem modeCmd_dieEvict (d line : Nat) : (p.dieEvict d line).stw.modeCmd = p.stw.modeCmd := by
  unfold Pkg.dieEvict
  split
  · split
    · rfl
    · dsimp only
      split <;> simp
  · rfl

@[simp] theorem modeCmd_dieAck (m : Msg) : (p.dieAck m).stw.modeCmd = p.stw.modeCmd := by
  unfold Pkg.dieAck
  split
  · split <;> simp
  · simp

@[simp] theorem modeCmd_tryComplete (a txid : Nat) : (p.tryComplete a txid).stw.modeCmd = p.stw.modeCmd := by
  unfold Pkg.tryComplete
  split
  · rfl
  split
  · split
    · rfl
    · dsimp only
      split <;> simp
  · rfl

@[simp] theorem modeCmd_withReq (m : Msg) (f : AgentReq → AgentReq) : (p.withReq m f).stw.modeCmd = p.stw.modeCmd := by
  unfold Pkg.withReq
  dsimp only
  split <;> simp

@[simp] theorem modeCmd_recvData (m : Msg) (b : List Byte) (dirty poison : Bool) :
    (p.recvData m b dirty poison).stw.modeCmd = p.stw.modeCmd := by
  unfold Pkg.recvData
  dsimp only
  split
  · split <;> simp
  · simp

@[simp] theorem modeCmd_recvErr (m : Msg) (status : Nat) : (p.recvErr m status).stw.modeCmd = p.stw.modeCmd := by
  unfold Pkg.recvErr
  split <;> simp

/-! ### Delivery -/

@[simp] theorem modeCmd_deliver (m : Msg) : (p.deliver m).stw.modeCmd = p.stw.modeCmd := by
  unfold Pkg.deliver
  split <;> simp [Pkg.recvCmp, modeCmd_ite]

@[simp] theorem modeCmd_takeFlit (i : Nat) (f : Flit) : (p.takeFlit i f).stw.modeCmd = p.stw.modeCmd := by
  unfold Pkg.takeFlit
  dsimp only
  split
  · split <;> simp
  · simp
  · rfl

@[simp] theorem modeCmd_settle (k : Nat) (lines : List Nat) : (Pkg.settle k lines p).stw.modeCmd = p.stw.modeCmd := by
  induction k generalizing p with
  | zero => rfl
  | succ k ih =>
    unfold Pkg.settle
    dsimp only
    split
    · rw [ih, modeCmd_takeFlit, modeCmd_homeRun]
    · split
      · rw [ih, modeCmd_serveNext, modeCmd_homeRun]
      · rw [modeCmd_homeRun]

/-- A line that leaves an array takes no configuration with it. -/
@[simp] theorem modeCmd_leaveArray (c line : Nat) : (p.leaveArray c line).stw.modeCmd = p.stw.modeCmd := by
  unfold Pkg.leaveArray
  split
  · dsimp only
    split <;> simp
  · split <;> simp

end Sys2Proof.Machine
end



section
/-! The end of a transition, of a drain, and the entry into DRIZZLE by policy (R55, R57, R58, R60). -/

namespace Sys2Proof.Machine

/-! ### A mode command waits on while the entry work is done -/

section
variable (p : Pkg)

@[simp] theorem modeCmd_dieFlushAll (d : Nat) : (p.dieFlushAll d).stw.modeCmd = p.stw.modeCmd := by
  unfold Pkg.dieFlushAll
  rw [modeCmd_foldl (fun _ _ => by simp), modeCmd_foldl (fun _ _ => by simp)]

@[simp] theorem modeCmd_unitLeave (u : Nat) : (p.unitLeave u).stw.modeCmd = p.stw.modeCmd := by
  unfold Pkg.unitLeave Pkg.emptyTlbs
  rw [setUnit_stw, setCache_stw, setCache_stw, modeCmd_foldl (fun _ _ => modeCmd_leaveArray ..)]

@[simp] theorem modeCmd_moveDies (l : List Nat) (st : Nat) : (p.moveDies l st).stw.modeCmd = p.stw.modeCmd :=
  modeCmd_foldl (fun _ _ => modeCmd_ite (by simp) rfl) _ _

@[simp] theorem modeCmd_freeParts : p.freeParts.stw.modeCmd = p.stw.modeCmd :=
  modeCmd_foldl (fun _ _ => modeCmd_setPart ..) _ _

@[simp] theorem modeCmd_startCore (lc pid : Nat) : (p.startCore lc pid).stw.modeCmd = p.stw.modeCmd := (rfl)

@[simp] theorem modeCmd_trainStart (t : Nat) : (p.trainStart t).stw.modeCmd = p.stw.modeCmd := by
  unfold Pkg.trainStart
  split
  · rfl
  · dsimp only
    split
    · simp
    · split <;> simp

@[simp] theorem modeCmd_firstAttempt (t : Nat) : (p.firstAttempt t).stw.modeCmd = p.stw.modeCmd :=
  modeCmd_ite (modeCmd_trainStart ..) rfl

@[simp] theorem modeCmd_headAddr (load : Bool) : (p.headAddr load).stw.modeCmd = p.stw.modeCmd := by
  have hports (l : List Bool) (p : Pkg) : (l.foldl (fun p d => if bit (p.reg (pgCH d) 0x200) 21 then p
      else (p.setRf (pgCH d) 0x200 39 32 1).setRf (pgCH d) 0x200 21 16 32) p).stw.modeCmd = p.stw.modeCmd :=
    modeCmd_foldl (fun _ _ => modeCmd_ite rfl (by simp)) l p
  unfold Pkg.headAddr
  split
  · rfl
  · dsimp only
    split
    · rw [Pkg.sendEnum, Pkg.chainMsg, chainSend_stw, hports]
    · exact hports ..

@[simp] theorem modeCmd_dieReset (d : Nat) : (p.dieReset d).stw.modeCmd = p.stw.modeCmd := by
  unfold Pkg.dieReset
  dsimp only
  rw [setDieLines_stw]
  exact modeCmd_foldl (fun _ _ => congrArg Steward.modeCmd (setUnit_stw ..)) _ _

@[simp] theorem modeCmd_unfence : p.unfence.stw.modeCmd = p.stw.modeCmd := by
  unfold Pkg.unfence
  rw [modeCmd_foldl (fun _ _ => modeCmd_ite rfl (by simp)),
    modeCmd_foldl (fun _ _ => modeCmd_ite rfl (by simp [Pkg.railOff]))]

@[simp] theorem modeCmd_endLcmd (k : Nat) (c : LedgerCmd) (st res : Nat) : (p.endLcmd k c st res).stw.modeCmd =
    p.stw.modeCmd := by
  unfold Pkg.endLcmd
  exact modeCmd_ite (modeCmd_setEvent ..) rfl

@[simp] theorem modeCmd_startReset (q : Nat) : (p.startReset q).stw.modeCmd = p.stw.modeCmd := by
  unfold Pkg.startReset
  exact modeCmd_foldl (fun _ _ => modeCmd_endLcmd ..) _ _

@[simp] theorem modeCmd_reapQp (q : Nat) : (p.reapQp q).stw.modeCmd = p.stw.modeCmd := modeCmd_ite rfl rfl

@[simp] theorem modeCmd_ledgerToLoad : p.ledgerToLoad.stw.modeCmd = p.stw.modeCmd :=
  modeCmd_foldl (fun _ _ => modeCmd_ite rfl (by simp)) _ _

@[simp] theorem modeCmd_enterLoad : p.enterLoad.stw.modeCmd = p.stw.modeCmd := by
  unfold Pkg.enterLoad
  rw [modeCmd_trainStart, modeCmd_trainStart, modeCmd_headAddr, modeCmd_foldl (fun _ _ => by simp [Pkg.refreshRmcnt])]

@[simp] theorem modeCmd_enterRun : p.enterRun.stw.modeCmd = p.stw.modeCmd := by
  unfold Pkg.enterRun
  rw [modeCmd_moveDies, modeCmd_foldl (fun _ _ => modeCmd_ite (modeCmd_startCore ..) rfl), modeCmd_setPart]
  exact modeCmd_freeParts p

@[simp] theorem modeCmd_leaveQuiesce : p.leaveQuiesce.stw.modeCmd = p.stw.modeCmd := by
  unfold Pkg.leaveQuiesce
  dsimp only
  rw [setRf_stw, modeCmd_moveDies, modeCmd_ledgerToLoad, modeCmd_freeParts, modeCmd_foldl (fun _ _ => modeCmd_setDcs ..),
    modeCmd_foldl (fun _ _ => congrArg Steward.modeCmd (setUnit_stw ..)), modeCmd_foldl (fun _ _ => modeCmd_dieFlushAll ..)]

@[simp] theorem modeCmd_retryParts : p.retryParts.stw.modeCmd = p.stw.modeCmd := by
  unfold Pkg.retryParts
  rw [modeCmd_foldl (fun _ _ => modeCmd_ite (modeCmd_firstAttempt ..) rfl)]
  exact modeCmd_unfence ..

@[simp] theorem modeCmd_enterDrizzle : p.enterDrizzle.stw.modeCmd = p.stw.modeCmd := by
  unfold Pkg.enterDrizzle
  dsimp only
  rw [setReg_stw, modeCmd_moveDies, modeCmd_foldl (fun _ _ => modeCmd_foldl (fun _ _ => modeCmd_unitLeave ..) _ _)]

@[simp] theorem modeCmd_leaveDrizzle : p.leaveDrizzle.stw.modeCmd = p.stw.modeCmd := by
  unfold Pkg.leaveDrizzle
  exact modeCmd_foldl (fun _ _ => modeCmd_ite (by simp) rfl) _ _

/-- Whatever the transition, its entry work leaves the command that asked for it. -/
theorem modeCmd_entryWork (a b : Mode) : (p.entryWork a b).stw.modeCmd = p.stw.modeCmd := by
  unfold Pkg.entryWork
  split <;> simp

theorem modeCmd_seedTick (load : Bool) : (p.seedTick load).stw.modeCmd = p.stw.modeCmd := modeCmd_ite rfl rfl

theorem modeCmd_storeLost (m : Mode) : (p.storeLost m).stw.modeCmd = p.stw.modeCmd := by
  rw [Pkg.storeLost, setReg_stw]

end

/-! ### The end of a transition (R55, R57) -/

section
variable (p : Pkg) (md : ModeState)

theorem reg_cmdDone_page {pg q : Nat} (off st o : Nat) (h : q ≠ pg) : (p.cmdDone pg off st).reg q o = p.reg q o := by
  simp [Pkg.cmdDone, Pkg.cmdEvent, Pkg.setRf, h]

/-- MODE_CHANGED is logged and SE.INTSTAT[MODE] sets (R409, R448). -/
def Pkg.modeLogged (p : Pkg) (md : ModeState) : Pkg :=
  (p.setRf pgSE 0x208 2 2 1).logEvent 0x10 md.origin none none pgSTW (BitVec.ofNat 64 (md.word.toNat % 2 ^ 32))

theorem intstat_modeLogged : (p.modeLogged md).rf pgSE 0x208 2 2 = 1 := by
  rw [Pkg.modeLogged, intstat_logEvent_above _ _ _ _ _ _ _ (by decide) (by decide), rf_setRf_same]
  norm_num

theorem modeCmd_modeLogged : (p.modeLogged md).stw.modeCmd = p.stw.modeCmd := by
  rw [Pkg.modeLogged, modeCmd_logEvent, setRf_stw]

theorem events_modeLogged :
    (p.modeLogged md).stw.events.head?.map (fun e => (e.code, e.origin)) = some (0x10, md.origin) := by
  rw [Pkg.modeLogged, logEvent_stw]
  rfl

/-- The command whose target is reached reports OK (R57). -/
def Pkg.modeReported (p : Pkg) : Pkg := ({ p with stw := { p.stw with modeCmd := none } }).cmdDone pgSTW 0xC10 1

/-- What the record of an entered mode leaves: the log as it stands, with the command reported or not. -/
theorem modeEntered_eq : p.modeEntered md = p.modeLogged md ∨ p.modeEntered md = (p.modeLogged md).modeReported := by
  unfold Pkg.modeEntered
  extract_lets q
  split
  · split
    · exact .inr rfl
    · exact .inl rfl
  · exact .inl rfl

theorem modeEntered_reported {b : Bool} (h : p.stw.modeCmd = some (md.mode, b)) :
    p.modeEntered md = (p.modeLogged md).modeReported := by
  have hcmd := (modeCmd_modeLogged p md).trans h
  unfold Pkg.modeLogged at hcmd
  unfold Pkg.modeEntered
  dsimp only
  rw [hcmd]
  exact if_pos rfl

theorem intstat_modeEntered : (p.modeEntered md).rf pgSE 0x208 2 2 = 1 := by
  rcases modeEntered_eq p md with h | h
  · rw [h, intstat_modeLogged]
  · rw [h, Pkg.rf, Pkg.modeReported, reg_cmdDone_page _ _ _ _ (by decide)]
    exact intstat_modeLogged p md

theorem events_modeEntered :
    (p.modeEntered md).stw.events.head?.map (fun e => (e.code, e.origin)) = some (0x10, md.origin) := by
  rcases modeEntered_eq p md with h | h
  · rw [h, events_modeLogged]
  · rw [h, Pkg.modeReported, cmdDone_stw]
    exact events_modeLogged p md

theorem modeCmd_modeReported : p.modeReported.stw.modeCmd = none := by
  rw [Pkg.modeReported, cmdDone_stw]

end

/-! ### The package at the end of a transition -/

section
variable {s : State} {tr : Trans}

/-- The package whose frame the completed transition sees: the head's seed applies as LOAD is entered. -/
def State.seeded (s : State) (tr : Trans) : Pkg := s.pkg.seedTick (s.mode.mode == .service && tr.target == .load)

/-- MODESTAT after the transition. -/
def State.completed (s : State) (tr : Trans) : ModeState :=
  s.mode.complete tr ((s.seeded tr).lostNow s.mode.mode) (s.seeded tr).frameNum

/-- The package after the transition, its entry work done. -/
def State.entered (s : State) (tr : Trans) : Pkg :=
  (((s.seeded tr).entryWork s.mode.mode (s.completed tr).mode).storeLost (s.completed tr).mode)

theorem exec_modeTransitionComplete (h : s.mode.trans = some tr) (hdone : tr.done = true) :
    exec .modeTransitionComplete s =
      .next { s with mode := s.completed tr, pkg := (s.entered tr).modeEntered (s.completed tr) } := by
  rw [exec, execModeTransitionComplete, h]
  dsimp only
  rw [hdone]
  rfl

theorem exec_modeTransitionComplete_idle (h : ∀ tr, s.mode.trans = some tr → tr.done = false) :
    exec .modeTransitionComplete s = .next s := by
  rw [exec, execModeTransitionComplete]
  split
  · rfl
  next tr htr =>
    rw [h tr htr]
    rfl

theorem modeCmd_entered : (s.entered tr).stw.modeCmd = s.pkg.stw.modeCmd := by
  rw [State.entered, modeCmd_storeLost, modeCmd_entryWork, State.seeded, modeCmd_seedTick]

/-- Outside SERVICE no seed applies. -/
theorem seeded_eq (h : s.mode.mode ≠ .service) : s.seeded tr = s.pkg := by
  have hno : (s.mode.mode == Mode.service) = false := beq_eq_false_iff_ne.2 h
  rw [State.seeded, hno, Bool.false_and, Pkg.seedTick]
  simp

/-- The seed changes nothing that LOSTSET reads: in SERVICE it is 0. -/
theorem lostNow_seeded : (s.seeded tr).lostNow s.mode.mode = s.pkg.lostNow s.mode.mode := by
  by_cases h : s.mode.mode = .service
  · rw [h]
    rfl
  · rw [seeded_eq h]

theorem completed_eq : s.completed tr = s.mode.complete tr (s.pkg.lostNow s.mode.mode) (s.seeded tr).frameNum := by
  rw [State.completed, lostNow_seeded]

/-- The command whose target the transition reached has been reported (R57). -/
theorem reported_of_completed {b : Bool} (h : s.pkg.stw.modeCmd = some ((s.completed tr).mode, b)) :
    ((s.entered tr).modeEntered (s.completed tr)).stw.modeCmd = none ∧
    LastCmd ((s.entered tr).modeEntered (s.completed tr)) pgSTW 0xC10 1 ∧
    ((s.entered tr).modeEntered (s.completed tr)).busy pgSTW = false := by
  rw [modeEntered_reported _ _ (modeCmd_entered.trans h)]
  exact ⟨modeCmd_modeReported _, lastCmd_cmdDone _ (by decide) (by decide), busy_cmdDone ..⟩

end

/-! ### The end of a drain, and the entry by policy (R58, R60) -/

/-- The model's test of a drain tells whether all agents have stopped. -/
theorem drained_iff (p : Pkg) : p.drained = true ↔ agentsStopped p := by
  unfold Pkg.drained agentsStopped Pkg.dmaRings
  simp [and_assoc]

theorem exec_quiesceDrainComplete_idle {s : State} (h : s.mode.drain = none ∨ ¬ agentsStopped s.pkg) :
    exec .quiesceDrainComplete s = .next s := by
  rw [exec, execQuiesceDrainComplete, if_neg]
  rintro ⟨hdrain, hstopped⟩
  rcases h with h | h
  · rw [h] at hdrain
    exact absurd hdrain (by decide)
  · exact h ((drained_iff _).1 hstopped)

theorem exec_drainLimitExpiry {s : State} {n : Nat} (h : s.mode.drain = some n) : exec .drainLimitExpiry s =
    if drainFrames s.pkg ≤ n then .next { s with mode :=
      { s.mode with drain := none, forced := !s.pkg.drained } } else .next s := by
  rw [exec, execDrainLimitExpiry, h]
  rfl

/-- Settles O5: by what the transition makes of MODESTAT and of the package, and the model's test of a drain. -/
theorem transitionsComplete : Obligations.TransitionsComplete := by
  unfold Obligations.TransitionsComplete
  refine ⟨?_, ?_, ?_, ?_, ?_, ?_, ?_⟩
  · intro s tr h hdone
    refine ⟨_, exec_modeTransitionComplete h hdone, ?_⟩
    dsimp only
    have hmd := (completed_eq (s := s) (tr := tr)).trans (complete_eq ..)
    have horigin : (s.completed tr).origin = tr.origin := congrArg ModeState.origin hmd
    refine ⟨congrArg ModeState.mode hmd, congrArg ModeState.trans hmd, congrArg ModeState.drain hmd, horigin, fun hne => ?_, ?_,
      by rw [hmd], by rw [hmd], intstat_modeEntered .., ?_, fun b hb => reported_of_completed hb, rfl⟩
    · rw [hmd, seeded_eq hne]
    · rw [hmd]
    · rw [events_modeEntered, horigin]
  · exact fun s h => exec_modeTransitionComplete_idle h
  · intro s hdrain hstopped
    refine ⟨_, ?_, rfl⟩
    rw [exec, execQuiesceDrainComplete, if_pos ⟨Option.isSome_iff_ne_none.2 hdrain, (drained_iff _).2 hstopped⟩]
  · exact fun s h => exec_quiesceDrainComplete_idle h
  · intro s n hdrain hlim
    refine ⟨_, (exec_drainLimitExpiry hdrain).trans (if_pos hlim), _, rfl, ?_⟩
    rw [← drained_iff, Bool.not_eq_true', Bool.not_eq_true]
  · intro s h
    cases hdrain : s.mode.drain with
    | none => rw [exec, execDrainLimitExpiry, hdrain]
    | some n => exact (exec_drainLimitExpiry hdrain).trans (if_neg (Nat.not_le.2 (h n hdrain)))
  · intro s hmode htrans hcmd hen hidle
    refine ⟨_, ?_, rfl⟩
    rw [exec, execDrizzleAutoEntry]
    exact if_pos ⟨hmode, by rw [ModeState.moving, htrans]; rfl, hcmd, hen, hidle⟩

end Sys2Proof.Machine
end

section
/-! Running the body of an instruction: operations that stop, elements alone and under REP, and how a row that begins ends
(R92, R99, R100, R126). -/

namespace Sys2Proof.Machine

/-! ### Operations -/

section
variable {α β : Type} {p q r : Pkg}

theorem yields_get : Yields get p p p := rfl

theorem yields_set : Yields (set q) p () q := rfl

theorem yields_modify (g : Pkg → Pkg) : Yields (modify g) p () (g p) := rfl

theorem yields_liftP {g : Pkg → α × Pkg} (p : Pkg) : Yields (liftP g) p (g p).1 (g p).2 := rfl

theorem stops_trap (t : Trap) : Stops (trap (α := α) t) p (.trap t) p := rfl

section
variable {P : Prop} [Decidable P] {m m' : M α} {a : α} {st : Stop}

theorem yields_if_pos (hP : P) (h : Yields m p a q) : Yields (if P then m else m') p a q := by rwa [if_pos hP]

theorem yields_if_neg (hP : ¬P) (h : Yields m' p a q) : Yields (if P then m else m') p a q := by rwa [if_neg hP]

theorem stops_if_pos (hP : P) (h : Stops m p st q) : Stops (if P then m else m') p st q := by rwa [if_pos hP]

theorem stops_if_neg (hP : ¬P) (h : Stops m' p st q) : Stops (if P then m else m') p st q := by rwa [if_neg hP]

end

/-- An operation whose first part stops. -/
theorem stops_bind_left {m : M α} {k : α → M β} {st : Stop} (h : Stops m p st q) : Stops (m >>= k) p st q := by
  unfold Stops at *
  simp only [ExceptT.run_bind]
  show StateT.run (_ >>= _) p = _
  rw [StateT.run_bind, h]
  rfl

end

/-! ### Elements -/

section
variable {el : Elem} {e : Env} {c k : Core} {t : Tally} {q r : Pkg} {stop : Option Nat}

theorem onceBody_yields (h : Yields (el e c) q (k, t) r) : Yields (onceBody el e c stop) q (e.finish k t) r :=
  yields_bind h (yields_pure ..)

theorem onceBody_stops {st : Stop} (h : Stops (el e c) q st r) : Stops (onceBody el e c stop) q st r := stops_bind_left h

theorem repBody_yields_single (hrep : e.d.rep = false) (h : Yields (el e c) q (k, t) r) :
    Yields (repBody el e c stop) q (e.finish k t) r := by
  rw [repBody, if_neg (by simp [hrep])]
  exact yields_bind h (yields_pure ..)

/-- The registers after an element under REP: G13 is one less, and the instruction is partly done (R99, R126). -/
def Env.elemDone (e : Env) (c : Core) : Core := { c.gSet 13 (c.gGet 13 - 1) with part := e.d.len }

/-- An element that nothing stops is followed by the rest of the elements. -/
theorem repLoop_yields_succ {n : Nat} {did : Bool} {t₀ : Tally} {x : LoopEnd × Core × Tally} {z : Pkg}
    (hstop : stop ≠ some 0) (hfailed : (q.core e.x.lc).failed = []) (h : Yields (el e c) q (k, t) r)
    (hrest : Yields (repLoop e el n (stop.map (· - 1)) true (e.elemDone k) (t₀.add { t with elems := t.elems + 1 }))
      (r.setCore e.x.lc { r.core e.x.lc with io := [], ioPos := 0 }) x z) :
    Yields (repLoop e el (n + 1) stop did c t₀) q x z := by
  refine yields_bind yields_get ?_
  rw [if_neg (by simp [hstop, hfailed])]
  unfold Yields at h
  simp only [h]
  exact yields_bind yields_set hrest

/-- Something from outside stops the elements at a boundary. -/
theorem repLoop_yields_stopped (n : Nat) (did : Bool) (t₀ : Tally) :
    Yields (repLoop e el (n + 1) (some 0) did c t₀) q (.stopped false, c, t₀) q := rfl

theorem repBody_yields_finished (hrep : e.d.rep = true)
    (h : Yields (repLoop e el (c.gGet 13).toNat stop false c Tally.zero) q (.finished, k, t) r) :
    Yields (repBody el e c stop) q (e.finish k t) r := by
  rw [repBody, if_pos hrep]
  exact yields_bind h (yields_pure ..)

theorem repBody_yields_stopped (hrep : e.d.rep = true) {keep : Bool}
    (h : Yields (repLoop e el (c.gGet 13).toNat stop false c Tally.zero) q (.stopped keep, k, t) r) :
    Yields (repBody el e c stop) q { c := k, t := t, call := none, keepIo := keep } r := by
  rw [repBody, if_pos hrep]
  exact yields_bind h (yields_pure ..)

end

/-! ### What an instruction leaves before a call at its end -/

/-- The package in which an instruction has left its registers and is counted, before a call at its end is taken. -/
def State.ended (s : State) (lc : Nat) (q : Pkg) (d : Done) : Pkg :=
  let p := q.putRegs lc d.c
  let p := p.setCore lc { p.core lc with io := if d.keepIo then (p.core lc).io else [], ioPos := 0, held := none }
  (p.count lc (s.pkg.core lc).pl d.t).noteProgress lc

theorem endInstr_of_no_call (s : State) (lc len : Nat) (q : Pkg) {d : Done} (h : d.call = none) :
    endInstr s lc len q d = s.put (s.ended lc q d) := by
  simp only [endInstr, h]
  rfl

/-- A call at the end of an instruction is taken with IP after it (R95). -/
theorem endInstr_of_call (s : State) (lc len : Nat) (q : Pkg) {d : Done} {t : Trap} {off : Nat} (h : d.call = some (t, off)) :
    endInstr s lc len q d = s.put (((s.ended lc q d).takeTrap lc t d.c.ip (t.endLen len) false off).count lc
      (s.pkg.core lc).pl { Tally.zero with traps := 1 }) := by
  simp only [endInstr, h]
  rfl

@[simp] theorem core_noteProgress (p : Pkg) (lc k : Nat) : (p.noteProgress lc).core k = p.core k := by
  rw [(noteProgress_spec p lc).2]
  rfl

@[simp] theorem hbm_noteProgress (p : Pkg) (lc : Nat) : (p.noteProgress lc).hbm = p.hbm := by
  rw [(noteProgress_spec p lc).2]

@[simp] theorem hbm_count (p : Pkg) (lc pl : Nat) (t : Tally) : (p.count lc pl t).hbm = p.hbm := by
  rw [count_rest]

/-- Two cores agree in what an instruction computes with and leaves: the registers but for those that count, and the place. -/
structure SameRegs (a b : Core) : Prop where
  g : a.g = b.g
  ma : a.ma = b.ma
  ip : a.ip = b.ip
  psw : a.psw = b.psw
  part : a.part = b.part
  cr : ∀ n, countsCr n = false → a.crGet n = b.crGet n

theorem SameBut.sameRegs {a b : Core} (h : SameBut a b) : SameRegs a b := ⟨h.g, h.ma, h.ip, h.psw, h.part, h.cr⟩

theorem SameRegs.trans {a b c : Core} (h : SameRegs a b) (k : SameRegs b c) : SameRegs a c :=
  ⟨h.g.trans k.g, h.ma.trans k.ma, h.ip.trans k.ip, h.psw.trans k.psw, h.part.trans k.part,
    fun n hn => (h.cr n hn).trans (k.cr n hn)⟩

theorem sameRegs_ended (s : State) (lc : Nat) (q : Pkg) (d : Done) : SameRegs ((s.ended lc q d).core lc) d.c := by
  rw [State.ended, core_noteProgress]
  refine (count_core ..).sameRegs.trans ?_
  rw [core_setCore_same, Pkg.putRegs, core_setCore_same]
  exact ⟨rfl, rfl, rfl, rfl, rfl, fun _ _ => rfl⟩

theorem ended_hbm (s : State) (lc : Nat) (q : Pkg) (d : Done) : (s.ended lc q d).hbm = q.hbm := by
  rw [State.ended, hbm_noteProgress, hbm_count]
  rfl

/-! ### Entry into a level -/

/-- Whether a level has been entered shows in the registers. -/
theorem entered_of_sameRegs {c c' t t' : Core} {lv cause : Nat} {ip psw : Word} {off : Nat}
    (h : Entered c t lv cause ip psw off) (hc : SameRegs c c') (ht : SameRegs t' t) : Entered c' t' lv cause ip psw off where
  ip := by rw [ht.ip, h.ip, hc.cr _ (by split <;> rfl)]
  savedIp := by rw [ht.cr _ (by split <;> rfl), h.savedIp]
  savedPsw := by rw [ht.cr _ (by split <;> rfl), h.savedPsw]
  code := by rw [ht.cr _ (by split <;> rfl), h.code]
  pl := by rw [ht.psw, h.pl]
  imask := by rw [ht.psw, h.imask]
  xs := by rw [ht.psw, h.xs]
  rp := by rw [ht.psw, h.rp]
  flags := by rw [ht.psw, h.flags]
  g := by rw [ht.g, h.g, hc.g]
  ma := by rw [ht.ma, h.ma, hc.ma]
  part := by rw [ht.part, h.part]

/-- A cause is taken at the level that handles it while the save registers are free (R90, R95). -/
theorem entered_takeTrap (p : Pkg) {lc : Nat} {t : Trap} (ip : Word) (ilen : Nat) (rest : Bool) (off : Nat) (hm2 : t.m2 = none)
    (hcode : t.code < 256) (hlevel : t.level (p.core lc).pl < 4) (hxs : pswXS (p.core lc).psw = false) :
    Entered (p.core lc) ((p.takeTrap lc t ip ilen rest off).core lc) (t.level (p.core lc).pl) t.code ip (p.core lc).psw off ∧
      (p.takeTrap lc t ip ilen rest off).hbm = p.hbm := by
  have htrap : p.takeTrap lc t ip ilen rest off = (p.setCore lc ((p.core lc).enter (t.level (p.core lc).pl) ip
      (p.core lc).psw (xinfo t (p.core lc).pl ilen 0 false rest)
      (BitVec.ofNat 64 (if t.code = 0x30 then 0 else t.xaddr)) off)).noteTrap lc t := by
    simp [Pkg.takeTrap, hm2, hxs]
  rw [htrap, core_noteTrap, core_setCore_same, noteTrap_hbm]
  exact ⟨entered_enter _ _ _ _ _ hlevel ((fld_xinfo_code ..).trans (Nat.mod_eq_of_lt hcode)), rfl⟩

/-! ### The end of an instruction -/

section
variable {s t : State} {lc : Lc} {q : Pkg} {c : Core} {ip : Word}

theorem Completes.imp {i : Instr} {P Q : State → Prop} (h : Completes i s P) (hPQ : ∀ t, P t → Q t) : Completes i s Q :=
  Exists.imp (fun t ht => ⟨ht.1, hPQ t ht.2⟩) h

/-- A completed instruction is not partly done and stands at `ip`, whatever its registers were set to along the way. -/
theorem Ends.of_place {x : Word} {n : Nat} (h : Ends s lc q { c with ip := x, part := n } ip t) : Ends s lc q c ip t :=
  ⟨h.g, h.ma, h.psw, h.run, h.ip, h.part, h.cr, h.others, h.units, h.rest⟩

/-- What an instruction leaves does not depend on the package's own copy of the core. -/
theorem Ends.of_setCore {x : Core} (h : Ends s lc (q.setCore lc x) c ip t) : Ends s lc q c ip t :=
  ⟨h.g, h.ma, h.psw, h.run, h.ip, h.part, h.cr,
    fun k hk => (h.others k hk).trans (core_setCore_other _ _ hk), h.units, h.rest⟩

variable {i : Instr} {f : Fetch} {d : Decoded} {mn : String} {row : Nat → Bool} {priv : Decoded → Nat → Option Trap}
  {body : Body} {el : Elem} {k : Core} {tl : Tally} {r : Pkg}
  (hbegins : Begins s lc f d q) (hrow : row d.op = true) (hpriv : priv d (s.pkg.core lc).pl = none)

include hbegins hrow hpriv

/-- An instruction that completes and goes on at `ip`. -/
theorem completes_at (hexec : exec i s = runCpu lc f mn row priv body s)
    (h : Yields (body (envOf s lc d) (s.pkg.core lc) f.stop) q
      { c := { k with ip := ip, part := 0 }, t := tl, call := none, keepIo := false } r) : Completes i s (Ends s lc r k ip) := by
  have hends := ends_endInstr s lc d.len r { c := { k with ip := ip, part := 0 }, t := tl, call := none, keepIo := false } rfl rfl
  exact ⟨_, hexec.trans (runCpu_begins hbegins mn row priv body hrow hpriv h), hends.of_place⟩

/-- An instruction that is stopped at an element boundary keeps what its elements left. -/
theorem completes_partly (hexec : exec i s = runCpu lc f mn row priv body s) {dn : Done} (hcall : dn.call = none)
    (h : Yields (body (envOf s lc d) (s.pkg.core lc) f.stop) q dn r) :
    Completes i s (fun t => SameRegs (t.pkg.core lc) dn.c ∧ t.pkg.hbm = r.hbm) := by
  refine ⟨_, hexec.trans (runCpu_begins hbegins mn row priv body hrow hpriv h), ?_⟩
  rw [endInstr_of_no_call _ _ _ _ hcall]
  exact ⟨sameRegs_ended .., ended_hbm ..⟩

/-- An instruction whose completion raises a cause enters the level that handles it, when the save registers are free (R93,
R95). -/
theorem completes_calling (hexec : exec i s = runCpu lc f mn row priv body s) {dn : Done} {t : Trap} {off lv : Nat}
    (h : Yields (body (envOf s lc d) (s.pkg.core lc) f.stop) q dn r) (hcall : dn.call = some (t, off))
    (hxs : pswXS dn.c.psw = false) (hm2 : t.m2 = none) (hcode : t.code < 256) (hlevel : t.level dn.c.pl = lv) (hlv : lv < 4) :
    Completes i s (fun u => Entered dn.c (u.pkg.core lc) lv t.code dn.c.ip dn.c.psw off ∧ u.pkg.hbm = r.hbm) := by
  refine ⟨_, hexec.trans (runCpu_begins hbegins mn row priv body hrow hpriv h), ?_⟩
  rw [endInstr_of_call _ _ _ _ hcall]
  have hregs := sameRegs_ended s lc r dn
  have hpl : ((s.ended lc r dn).core lc).pl = dn.c.pl := by rw [Core.pl, hregs.psw, Core.pl]
  obtain ⟨hent, hhbm⟩ := entered_takeTrap (s.ended lc r dn) (lc := lc) dn.c.ip (t.endLen d.len) false off hm2 hcode
    (by rwa [hpl, hlevel]) (by rw [hregs.psw, hxs])
  rw [hpl, hlevel, hregs.psw] at hent
  exact ⟨entered_of_sameRegs hent hregs (count_core ..).sameRegs, (hbm_count ..).trans (hhbm.trans (ended_hbm ..))⟩

theorem exec_stops (hexec : exec i s = runCpu lc f mn row priv body s) {st : Stop}
    (h : Stops (body (envOf s lc d) (s.pkg.core lc) f.stop) q st r) :
    exec i s = .next (stopInstr s lc d.len r st) :=
  hexec.trans (runCpu_stops hbegins mn row priv body hrow hpriv h)

theorem completes_once (honce : exec i s = runCpu lc f mn row priv (onceBody el) s)
    (h : Yields (el (envOf s lc d) (s.pkg.core lc)) q (k, tl) r) : Completes i s (Ends s lc r k (envOf s lc d).next) :=
  completes_begins hbegins honce hrow hpriv (onceBody_yields h)

theorem stops_once (honce : exec i s = runCpu lc f mn row priv (onceBody el) s) {st : Stop}
    (h : Stops (el (envOf s lc d) (s.pkg.core lc)) q st r) : exec i s = .next (stopInstr s lc d.len r st) :=
  exec_stops hbegins hrow hpriv honce (onceBody_stops h)

end

theorem op1_of_eq {d : Decoded} {op : Nat} (h : d.op = op) : op1 op d.op = true := beq_iff_eq.2 h

/-- The row of opcode `op` runs one element, which REP may repeat or not. -/
def RunsElem (op : Nat) (row : CpuRow) (el : Elem) : Prop :=
  ∃ mn body, (body = repBody el ∨ body = onceBody el) ∧
    ∀ lc f s, exec (row lc f) s = runCpu lc f mn (op1 op) anyLevel body s

theorem RunsElem.rep {op : Nat} {row : CpuRow} {el : Elem} {mn : String}
    (h : ∀ lc f s, exec (row lc f) s = runCpu lc f mn (op1 op) anyLevel (repBody el) s) : RunsElem op row el :=
  ⟨mn, _, .inl rfl, h⟩

theorem RunsElem.once {op : Nat} {row : CpuRow} {el : Elem} {mn : String}
    (h : ∀ lc f s, exec (row lc f) s = runCpu lc f mn (op1 op) anyLevel (onceBody el) s) : RunsElem op row el :=
  ⟨mn, _, .inr rfl, h⟩

/-- Without REP the row runs its element once. -/
theorem RunsElem.completes {op : Nat} {row : CpuRow} {el : Elem} (hel : RunsElem op row el) {s : State} {lc : Lc} {f : Fetch}
    {d : Decoded} {q r : Pkg} {k : Core} {t : Tally} (hbegins : Begins s lc f d q) (hop : d.op = op) (hrep : d.rep = false)
    (h : Yields (el (envOf s lc d) (s.pkg.core lc)) q (k, t) r) :
    Completes (row lc f) s (Ends s lc r k (envOf s lc d).next) := by
  obtain ⟨mn, body, hbody, hexec⟩ := hel
  refine completes_begins hbegins (hexec lc f s) (op1_of_eq hop) rfl (t := t) ?_
  rcases hbody with rfl | rfl
  · exact repBody_yields_single hrep h
  · exact onceBody_yields h

end Sys2Proof.Machine
end

section
/-! Addition, subtraction, multiplication and logic in three operands (R88, R121, R128). -/

namespace Sys2Proof.Machine

/-- The row of opcode `op` runs the three-operand element whose result is `g`. -/
def RunsBin3 (op : Nat) (row : CpuRow) (g : Nat → Nat → Nat → Bool → BinRes) : Prop :=
  ∃ iop useC f, (∀ n a b cin, f n a b (useC && cin) = g n a b cin) ∧ RunsElem op row (bin3Elem iop useC f)

theorem runsBin3_of_mem {e : Nat × CpuRow × (Nat → Nat → Nat → Bool → BinRes)} (he : e ∈ threeRows.take 11) :
    RunsBin3 e.1 e.2.1 e.2.2 := by
  simp only [threeRows, List.take_succ_cons, List.take_zero, List.mem_cons, List.not_mem_nil, or_false] at he
  rcases he with rfl | rfl | rfl | rfl | rfl | rfl | rfl | rfl | rfl | rfl | rfl
  case inr.inr.inr.inr.inl | inr.inr.inr.inr.inr.inl | inr.inr.inr.inr.inr.inr.inl =>
    exact ⟨_, _, _, fun _ _ _ _ => rfl, .once fun _ _ _ => rfl⟩
  all_goals exact ⟨_, _, _, fun _ _ _ _ => rfl, .rep fun _ _ _ => rfl⟩

theorem lockUse_of_unlocked {e : Env} (h : e.d.lock = false) (k : Nat) : lockUse e k = OpUse.plain := by
  simp [lockUse, OpUse.plain, h]

/-- Settles O25: each row runs one element, whose operations the statement names in turn. -/
theorem threeOperandInstructions : Obligations.ThreeOperandInstructions := by
  unfold Obligations.ThreeOperandInstructions threeRowsHold
  intro e he s lc f d q a b w c q1 va q2 vb q3 r c' q4 hbegins hop hlock hrep hform ha hb hr hw
  obtain ⟨iop, useC, g, hg, hel⟩ := runsBin3_of_mem he
  rw [← lockUse_of_unlocked (e := envOf s lc d) hlock 1] at hform
  rw [← hg] at hr
  subst hr
  exact hel.completes hbegins hop hrep
    (yields_bind hform <| yields_bind ha <| yields_bind hb <| yields_bind hw <| yields_pure ..)

end Sys2Proof.Machine
end

section
/-! The results and flags of binary arithmetic in the words of bit vectors (R88, R128, R129). -/

namespace Sys2Proof.Machine

/-! ### Numbers of a width as bit vectors -/

section
variable {n : Nat} (a b : BitVec n)

theorem toInt_toNat : toInt n a.toNat = a.toInt := by
  have ha := Nat.mod_eq_of_lt a.isLt
  cases n with
  | zero => simp [toInt, BitVec.eq_nil a]
  | succ n =>
    rw [toInt, ha, BitVec.toInt_eq_toNat_cond, Nat.add_sub_cancel, Nat.pow_succ]
    exact if_congr (by omega) rfl rfl

/-- The low bits of the integer that a bit vector stands for are the bit vector. -/
theorem ofInt_toInt : ofInt n a.toInt = a.toNat := by
  conv_rhs => rw [← BitVec.ofInt_toInt (x := a), BitVec.toNat_ofInt]
  rfl

/-- Z and N follow the result (R88). -/
theorem binRes_of_toNat {x : Nat} {r : BitVec n} (h : x % 2 ^ n = r.toNat) (c v : Bool) :
    binRes n x c v = { r := r.toNat, z := r == 0, n := r.msb, c := c, v := v } := by
  have hz : (r.toNat == 0) = (r == 0) := by
    rw [Bool.eq_iff_iff, beq_iff_eq, beq_iff_eq, ← BitVec.toNat_inj]
    rfl
  rw [binRes, h, hz, BitVec.msb_eq_decide]

/-- The bounds of the signed range, in the order in which the overflow predicates of bit vectors compare. -/
theorem outside_eq (i : Int) : outside n i = (decide (i ≥ 2 ^ (n - 1)) || decide (i < -2 ^ (n - 1))) := Bool.or_comm ..

/-! ### Addition, subtraction, multiplication -/

theorem add_carry_mod (c : Bool) : (a.toNat + b.toNat + c.toNat) % 2 ^ n = (a + b + BitVec.ofNat n c.toNat).toNat := by
  simp [BitVec.toNat_add]

theorem sub_borrow_mod (c : Bool) :
    (2 ^ n + a.toNat - (b.toNat + c.toNat) + 2 ^ n) % 2 ^ n = (a - b - BitVec.ofNat n c.toNat).toNat := by
  have hb := b.isLt
  have hc : c.toNat ≤ 1 := Bool.toNat_le c
  cases n with
  | zero => simp [Nat.mod_one]
  | succ n =>
    have hc' : c.toNat % 2 ^ (n + 1) = c.toNat := Nat.mod_eq_of_lt (hc.trans_lt (Nat.one_lt_two_pow (by omega)))
    rw [BitVec.toNat_sub, BitVec.toNat_sub, BitVec.toNat_ofNat, hc', Nat.add_mod_mod]
    generalize 2 ^ (n + 1) = m at hb
    rw [show m - c.toNat + (m - b.toNat + a.toNat) = m + a.toNat - (b.toNat + c.toNat) + m by omega]

theorem addFlags_bitVec : addFlags n a.toNat b.toNat false =
    { r := (a + b).toNat, z := a + b == 0, n := (a + b).msb,
      c := BitVec.uaddOverflow a b, v := BitVec.saddOverflow a b } := by
  have hr := add_carry_mod a b false
  rw [Bool.toNat_false, BitVec.add_zero] at hr
  rw [addFlags, Bool.toNat_false, binRes_of_toNat hr, toInt_toNat, toInt_toNat, outside_eq, Nat.cast_zero, Int.add_zero]
  rfl

theorem subFlags_bitVec : subFlags n a.toNat b.toNat false =
    { r := (a - b).toNat, z := a == b, n := (a - b).msb,
      c := BitVec.usubOverflow a b, v := BitVec.ssubOverflow a b } := by
  have hr := sub_borrow_mod a b false
  rw [Bool.toNat_false, BitVec.sub_zero] at hr
  have hz : (a - b == 0) = (a == b) := by rw [Bool.eq_iff_iff, beq_iff_eq, beq_iff_eq, sub_eq_zero]
  rw [subFlags, Bool.toNat_false, binRes_of_toNat hr, toInt_toNat, toInt_toNat, outside_eq, Nat.cast_zero, Int.sub_zero, hz]
  rfl

theorem mulFlags_bitVec : mulFlags n a.toNat b.toNat =
    { r := (a * b).toNat, z := a * b == 0, n := (a * b).msb,
      c := BitVec.smulOverflow a b, v := BitVec.smulOverflow a b } := by
  rw [mulFlags, binRes_of_toNat (BitVec.toNat_mul a b).symm, toInt_toNat, toInt_toNat, outside_eq]
  rfl

/-! ### Logic -/

theorem logicFlags_bitVec : logicFlags n a.toNat = { r := a.toNat, z := a == 0, n := a.msb, c := false, v := false } :=
  binRes_of_toNat (Nat.mod_eq_of_lt a.isLt) _ _

theorem notBits_toNat : notBits n a.toNat = (~~~a).toNat := by
  rw [notBits, Nat.mod_eq_of_lt a.isLt, BitVec.toNat_not]

/-! ### Division -/

theorem divuFlags_bitVec : (divuFlags n a.toNat b.toNat).r = (a / b).toNat := by
  rw [divuFlags, ← BitVec.toNat_udiv, binRes_of_toNat (Nat.mod_eq_of_lt (a / b).isLt)]

theorem remuFlags_bitVec : (remuFlags n a.toNat b.toNat).r = (a % b).toNat := by
  rw [remuFlags, ← BitVec.toNat_umod, binRes_of_toNat (Nat.mod_eq_of_lt (a % b).isLt)]

theorem divFlags_bitVec : (divFlags n a.toNat b.toNat).r = (a.sdiv b).toNat := by
  have h : ofInt n (a.toInt.tdiv b.toInt) = (a.sdiv b).toNat := by
    rw [← ofInt_toInt (a.sdiv b), BitVec.toInt_sdiv]
    exact congrArg Int.toNat (Int.bmod_emod (m := 2 ^ n)).symm
  rw [divFlags, toInt_toNat, toInt_toNat, h, binRes_of_toNat (Nat.mod_eq_of_lt (a.sdiv b).isLt)]

theorem remFlags_bitVec : (remFlags n a.toNat b.toNat).r = (a.srem b).toNat := by
  rw [remFlags, toInt_toNat, toInt_toNat, ← BitVec.toInt_srem, ofInt_toInt, binRes_of_toNat (Nat.mod_eq_of_lt (a.srem b).isLt)]

end

/-- Settles O27: each operation in turn; the widths play no part. -/
theorem arithmeticFlags : Obligations.ArithmeticFlags := by
  unfold Obligations.ArithmeticFlags
  intro n a b _
  have hadd := add_carry_mod a b true
  have hsub := sub_borrow_mod a b true
  have hand := logicFlags_bitVec (a &&& b)
  have handn := logicFlags_bitVec (a &&& ~~~b)
  rw [BitVec.toNat_and] at hand handn
  refine ⟨addFlags_bitVec a b, subFlags_bitVec a b, hadd, hsub, mulFlags_bitVec a b, ?_, ?_, fun _ =>
    ⟨divuFlags_bitVec a b, remuFlags_bitVec a b, divFlags_bitVec a b, remFlags_bitVec a b⟩⟩
  · rw [hand, ← BitVec.toNat_and]
  · rw [notBits_toNat, handn, ← BitVec.toNat_and]

end Sys2Proof.Machine
end

section
/-! Instructions that REP repeats (R99, R100, R126). -/

namespace Sys2Proof.Machine

theorem runsRep_of_mem {e : Nat × CpuRow} (he : e ∈ repRows) :
    ∃ mn el, ∀ lc f s, exec (e.2 lc f) s = runCpu lc f mn (op1 e.1) anyLevel (repBody el) s := by
  simp only [repRows, List.mem_cons, List.not_mem_nil, or_false] at he
  rcases he with rfl | rfl | rfl | rfl | rfl | rfl | rfl | rfl | rfl | rfl | rfl | rfl | rfl | rfl | rfl | rfl <;>
    exact ⟨_, _, fun _ _ _ => rfl⟩

/-- The element of MOV. -/
theorem movElem_yields {e : Env} {a w : Rand} {c₀ c k : Core} {v : Nat} {q q1 q2 q3 : Pkg}
    (hform : Yields (formOperands e OpUse.plain e.d.ops 0 c₀) q ([a, w], c) q1) (ha : Yields (readVal e a) q1 v q2)
    (hw : Yields (writeVal e w v c) q2 k q3) :
    Yields (moveElem (fun _ _ v => v) e c₀) q (k, tallyRands 0x10 [a, w] (fun _ => false)) q3 :=
  yields_bind hform <| yields_bind ha <| yields_bind hw <| yields_pure ..

/-- Settles O32: a run of elements is empty, ends with its count, or is stopped at a boundary. -/
theorem repeatedInstructions : Obligations.RepeatedInstructions := by
  unfold Obligations.RepeatedInstructions
  refine ⟨?_, ?_, ?_⟩
  · intro e he s lc f d q hbegins hop hrep hcount
    obtain ⟨mn, el, hexec⟩ := runsRep_of_mem he
    refine completes_begins hbegins (hexec lc f s) (op1_of_eq hop) rfl (repBody_yields_finished hrep (t := Tally.zero) ?_)
    rw [hcount]
    exact yields_pure ..
  · intro s lc f d q a w c q1 v q2 c' q3 hbegins hop hrep hfailed hcount hstop hform ha hw
    have hloop := repLoop_yields_succ (n := 0) (did := false) (t₀ := Tally.zero) hstop hfailed (movElem_yields hform ha hw)
      (yields_pure ..)
    rw [Nat.zero_add, ← hcount] at hloop
    exact (completes_begins hbegins rfl (op1_of_eq hop) rfl (repBody_yields_finished hrep hloop)).imp
      fun t ht => ht.of_setCore.of_place
  · intro s lc f d q a w c q1 v q2 c' q3 hbegins hop hrep hfailed hcount hstop hform ha hw
    obtain ⟨n, hn⟩ : ∃ n, ((s.pkg.core lc).gGet 13).toNat = n + 1 + 1 := Nat.exists_eq_add_of_le' hcount
    have hloop := repLoop_yields_succ (stop := some 1) (did := false) (t₀ := Tally.zero) (by decide) hfailed
      (movElem_yields hform ha hw) (repLoop_yields_stopped n ..)
    rw [← hn, ← hstop] at hloop
    exact (completes_partly hbegins (op1_of_eq hop) rfl rfl rfl (repBody_yields_stopped hrep hloop)).imp
      fun _ ⟨hregs, hhbm⟩ => ⟨hregs.g, hregs.ip, hregs.psw, hregs.part, hhbm⟩

end Sys2Proof.Machine
end

section
/-! Control flow (R89, R98, R147, R148). -/

namespace Sys2Proof.Machine

theorem headD_va {a : Rand} {va : Nat} (h : a.loc = .mem va) : a.va.headD 0 = va := by
  rw [Rand.va, h]
  rfl

section
variable {va : Nat} (p : Pkg)

theorem checkTarget_yields (h : canonical va = true) : Yields (checkTarget va) p () p := by
  rw [checkTarget, if_pos h]
  rfl

theorem checkTarget_stops (h : canonical va = false) :
    Stops (checkTarget va) p (.trap { Trap.of 0x10 with acc := 2, opnd := 0, xaddr := va }) p := by
  rw [checkTarget, if_neg (by simp [h])]
  rfl

end

/-- The condition of a code is the entry of the table of R89. -/
theorem condHolds_eq_table (w : Word) {k : Nat} (hk : k < 16) :
    condHolds w k = (conditionTable (bit w 1) (bit w 2) (bit w 0) (bit w 3) (bit w 4)).getD k false := by
  interval_cases k <;> rfl

/-- The opcodes of a row that holds its condition in the opcode (R147). -/
def ccRow (lo hi : Nat) : Nat → Bool := fun op => decide (lo ≤ op ∧ op ≤ hi)

theorem ccRow_of_le {lo hi op : Nat} (h : lo ≤ op) (h' : op ≤ hi) : ccRow lo hi op = true := decide_eq_true ⟨h, h'⟩

/-- RETX restores the PSW and IP that the level's save registers hold, unless it refuses that PSW (R98). -/
theorem retx_eq (c : Core) {b : Nat} (hb : b = if c.pl = 2 then 0x10 else 0x08) : c.retx =
    if c.pl < pswPL (c.crGet (b + 1)) ∨ pswPL (c.crGet (b + 1)) = 3 ∨ c.crGet (b + 1) &&& 0xFFFFFFFFFF0C0040 ≠ 0 then none
    else some { c with psw := c.crGet (b + 1), ip := c.crGet b } := by
  subst hb
  rfl

theorem toNat_eq_ite (b : Bool) : b.toNat = if b then 1 else 0 := by cases b <;> rfl

/-- Settles O36: where each row goes, and the two ends of a RETX. -/
theorem controlFlow : Obligations.ControlFlow := by
  unfold Obligations.ControlFlow
  refine ⟨?_, ?_, ?_, ?_, ?_, ?_, ?_, ?_, ?_, ?_⟩
  · intro s lc f d q a va c q1 hbegins hop hform hmem
    obtain rfl := headD_va hmem
    exact ⟨fun h => completes_at hbegins (op1_of_eq hop) rfl rfl
        (yields_bind hform <| yields_bind (checkTarget_yields _ h) <| yields_pure ..),
      fun h => exec_stops hbegins (op1_of_eq hop) rfl rfl (stops_bind hform <| stops_bind_left (checkTarget_stops _ h))⟩
  · intro s lc f d q sa sb a va c q1 b c1 q2 c' q3 hbegins hop hops ha hmem
    obtain rfl := headD_va hmem
    refine ⟨fun h hb hw => ?_, fun h => exec_stops hbegins (op1_of_eq hop) rfl rfl ?_⟩
    · apply completes_at hbegins (op1_of_eq hop) rfl rfl
      rw [show (envOf s lc d).d.ops = [sa, sb] from hops]
      exact yields_bind ha <| yields_bind (checkTarget_yields _ h) <| yields_bind hb <| yields_bind hw <| yields_pure ..
    · rw [show (envOf s lc d).d.ops = [sa, sb] from hops]
      exact stops_bind ha <| stops_bind_left (checkTarget_stops _ h)
  · intro s lc f d q a va c q1 hbegins hlo hhi hform hmem
    obtain rfl := headD_va hmem
    exact ⟨fun hcond h => completes_at hbegins (ccRow_of_le hlo hhi) rfl rfl
        (yields_bind hform <| yields_if_pos hcond <| yields_bind (checkTarget_yields _ h) <| yields_pure ..),
      fun hcond h => exec_stops hbegins (ccRow_of_le hlo hhi) rfl rfl
        (stops_bind hform <| stops_if_pos hcond <| stops_bind_left (checkTarget_stops _ h)),
      fun hcond => completes_begins hbegins rfl (ccRow_of_le hlo hhi) rfl
        (yields_bind hform <| yields_if_neg (Bool.not_eq_true _ ▸ hcond) <| yields_pure ..)⟩
  · intro s lc f d q a c q1 c' q2 hbegins hlo hhi hform hw
    rw [← toNat_eq_ite] at hw
    exact completes_once hbegins (ccRow_of_le hlo hhi) rfl rfl (yields_bind hform <| yields_bind hw <| yields_pure ..)
  · intro s lc f d q a c q1 n q2 hbegins hop hform ha
    exact ⟨fun hn => completes_at hbegins (op1_of_eq hop) rfl rfl
        (yields_bind hform <| yields_bind ha <| yields_if_pos hn <| yields_pure ..),
      fun hn => completes_at hbegins (op1_of_eq hop) rfl rfl
        (yields_bind hform <| yields_bind ha <| yields_if_neg hn <| yields_pure ..)⟩
  · intro s lc f d q c hbegins hop hpl hretx
    apply completes_at hbegins (op1_of_eq hop) (if_neg hpl) rfl
    rw [hretx]
    exact yields_pure ..
  · intro s lc f d q hbegins hop hpl hretx
    refine exec_stops hbegins (op1_of_eq hop) (if_neg hpl) rfl ?_
    rw [hretx]
    exact stops_trap _
  · exact fun w k hk => condHolds_eq_table w hk
  · exact fun c b hb h => (retx_eq c hb).trans (if_pos h)
  · intro c b _ hb hle hne hres
    exact (retx_eq c hb).trans (if_neg (by simp only [not_or, not_lt, not_not]; exact ⟨hle, hne, hres⟩))

end Sys2Proof.Machine
end

section
/-! System instructions (R81, R104, R105, R149 to R151, R218, R511). -/

namespace Sys2Proof.Machine

/-! ### Operations -/

theorem raise_yields {o : Option Trap} (h : o = none) (p : Pkg) : Yields (raise o) p () p := by
  subst h
  rfl

theorem raise_stops {o : Option Trap} {t : Trap} (h : o = some t) (p : Pkg) : Stops (raise o) p (.trap t) p := by
  subst h
  rfl

/-! ### IPISEND (R105) -/

theorem crFault_ipisend_of_pl {pl : Nat} (h : pl = 1 ∨ pl = 2) : crFault 0x28 pl 1 true = none := by
  rcases h with rfl | rfl <;> rfl

section
variable {s : State} {lc : Lc} {v : Word} (hready : s.pkg.coreReady s.mode lc = true)
include hready

/-- IPISEND at S or M carries out what the write of its register asks for. -/
theorem exec_ipisend_ok {p : Pkg} (hpl : (s.pkg.core lc).pl = 1 ∨ (s.pkg.core lc).pl = 2)
    (h : s.pkg.ipiSend lc (s.pkg.core lc).pl v = .ok p) : exec (.ipisend lc v) s = .next (s.put p) := by
  rw [exec, execIpisend]
  simp only [hready, Bool.not_true, Bool.false_eq_true, if_false, crFault_ipisend_of_pl hpl, h]

/-- IPISEND takes the fault that its value raises. -/
theorem exec_ipisend_error {t : Trap} (hpl : (s.pkg.core lc).pl = 1 ∨ (s.pkg.core lc).pl = 2)
    (h : s.pkg.ipiSend lc (s.pkg.core lc).pl v = .error t) :
    exec (.ipisend lc v) s = .next (stopInstr s lc (s.pkg.free 4).1.toNat (s.pkg.free 4).2 (.trap t)) := by
  rw [exec, execIpisend]
  simp only [hready, Bool.not_true, Bool.false_eq_true, if_false, crFault_ipisend_of_pl hpl, h]

/-- IPISEND raises privilege at U. -/
theorem exec_ipisend_user (hpl : (s.pkg.core lc).pl = 0) : exec (.ipisend lc v) s =
    .next (stopInstr s lc (s.pkg.free 4).1.toNat (s.pkg.free 4).2 (.trap (Trap.of 0x08))) := by
  have hfault : crFault 0x28 0 1 true = some (Trap.of 0x08) := rfl
  rw [exec, execIpisend]
  simp only [hready, Bool.not_true, Bool.false_eq_true, if_false, hpl, hfault]

end

section
variable {p : Pkg} {lc pl : Nat} {v : Word} (hres : fld v 63 24 = 0) (hres' : fld v 15 8 = 0)
include hres hres'

/-- A target that the caller may name, of a well-formed IPISEND: the interrupt is set or dropped. -/
theorem ipiSend_reached (h : ¬(pl < 2 ∧ fld v 23 16 < 216 ∧ p.lcpid (fld v 23 16) ≠ p.lcpid lc)) :
    p.ipiSend lc pl v = .ok (if 216 ≤ fld v 23 16 ∧ pl < 2 then p
      else if p.cmapSt (fld v 23 16) = 2 ∨ p.cmapSt (fld v 23 16) = 3 then p
      else p.setPending (fld v 23 16) (fld v 7 0)) := by
  simp only [Pkg.ipiSend, hres, hres', ne_eq, not_true, or_self, if_false, h]
  split
  · rfl
  · split <;> rfl

/-- A core of another partition may not be named from below M. -/
theorem ipiSend_foreign (hpl : pl < 2) (ht : fld v 23 16 < 216) (hpid : p.lcpid (fld v 23 16) ≠ p.lcpid lc) :
    p.ipiSend lc pl v = .error { Trap.of 0x08 with toM := true } := by
  simp [Pkg.ipiSend, hres, hres', hpl, ht, hpid]

end

theorem setPending_reserved (p : Pkg) (lc : Nat) {i : Nat} (h : i < 0x10) : p.setPending lc i = p := if_pos (.inl h)

theorem setPending_eq (p : Pkg) {lc i : Nat} (hlc : lc < 216) (hi : 0x10 ≤ i) (hi' : i < 256) : p.setPending lc i =
    (p.setCore lc { p.core lc with pend := (p.core lc).pend ||| BitVec.ofNat 256 (2 ^ i) }).wakeLatch 5 :=
  if_neg (by omega)

@[simp] theorem core_wakeLatch (p : Pkg) (code k : Nat) : (p.wakeLatch code).core k = p.core k := by simp [Pkg.core]

/-! ### TINV (R150, R218) -/

/-- TINV leaves none of the translations that its scope names. -/
theorem tinvLeavesNone : tinvLeavesNoneClaim := by
  unfold tinvLeavesNoneClaim
  rintro x _ scope pid a m rfl
  -- one case for each scope; an entry that stays is one that the scope's predicate does not hold of
  constructor <;> intro e he <;> rcases scope with _ | _ | _ | _ | n <;>
    simp only [tinvUnit, List.mem_append, List.mem_filter] at he ⊢ <;> grind

/-! ### The rows -/

/-- The system instructions of O39. -/
theorem systemInstructions : systemInstructionsClaim := by
  unfold systemInstructionsClaim
  refine ⟨?_, ?_, ?_, ?_, ?_, ?_, ?_, ?_, ?_, ?_, ?_, ?_, ?_, tinvLeavesNone⟩
  · intro s lc f d q a w c q1 n q2 c' q3 hbegins hop hearly hform ha hfault hw
    exact completes_once hbegins (op1_of_eq hop) rfl rfl (yields_bind hearly <| yields_bind hform <| yields_bind ha <|
      yields_bind (raise_yields hfault _) <| yields_bind yields_get <| yields_bind hw <| yields_pure ..)
  · intro s lc f d q a b c q1 v q2 n q3 hbegins hop hearly hform ha hb hfault hn
    exact completes_once hbegins (op1_of_eq hop) rfl rfl (yields_bind hearly <| yields_bind hform <| yields_bind ha <|
      yields_bind hb <| yields_bind (raise_yields hfault _) <| yields_if_neg hn <| yields_pure ..)
  · intro s lc f d q a b c q1 v q2 q3 q4 hbegins hop hearly hform ha hb hfault hsend
    have hsend' : q3.ipiSend (envOf s lc d).x.lc c.pl (BitVec.ofNat 64 v) = .ok q4 := hsend
    refine completes_once (tl := tallyRands 0x18 [a, b] fun _ => false) hbegins (op1_of_eq hop) rfl rfl
      (yields_bind hearly <| yields_bind hform <| yields_bind ha <| yields_bind hb <|
        yields_bind (raise_yields hfault _) <| yields_if_pos rfl <| yields_bind yields_get ?_)
    rw [hsend']
    exact yields_bind yields_set <| yields_pure ..
  · intro s lc f d q a w c q1 n q2 t hbegins hop hearly hform ha hfault
    exact stops_once hbegins (op1_of_eq hop) rfl rfl
      (stops_bind hearly <| stops_bind hform <| stops_bind ha <| stops_bind_left <| raise_stops hfault _)
  · intro s lc f d q a b c q1 v q2 n q3 t hbegins hop hearly hform ha hb hfault
    exact stops_once hbegins (op1_of_eq hop) rfl rfl
      (stops_bind hearly <| stops_bind hform <| stops_bind ha <| stops_bind hb <| stops_bind_left <| raise_stops hfault _)
  · intro s lc f d q a w c q1 q2 c' q3 hbegins hop hearly hform ha hw
    exact completes_once hbegins (op1_of_eq hop) rfl rfl (yields_bind hearly <| yields_bind hform <| yields_bind ha <|
      yields_bind (raise_yields rfl _) <| yields_bind yields_get <|
      yields_bind (yields_if_neg (by decide) <| yields_if_pos rfl <| yields_liftP _) <| yields_bind hw <| yields_pure ..)
  · intro s lc f d q a w c q1 n q2 c' q3 hbegins hop hearly hform ha hfault hn hw
    refine completes_once (tl := tallyRands 0x18 [a, w] fun _ => false) hbegins (op1_of_eq hop) rfl rfl
      (yields_bind hearly <| yields_bind hform <| yields_bind ha <| yields_bind (raise_yields hfault _) <|
        yields_bind yields_get <| yields_bind ?_ <| yields_bind hw <| yields_pure ..)
    split <;> exact yields_pure ..
  · intro s lc f d q a b c q1 scope q2 arg q3 hbegins hop hpl hearly hform ha hb hpriv hscope hbad
    exact completes_once hbegins (op1_of_eq hop) (if_neg hpl) rfl (yields_bind hearly <| yields_bind hform <|
      yields_bind ha <| yields_bind hb <| yields_bind (raise_yields hpriv _) <| yields_if_neg (Nat.not_lt.2 hscope) <|
      yields_if_neg (Bool.eq_false_iff.1 hbad) <| yields_bind (yields_modify _) <| yields_pure ..)
  · intro s lc f d q hbegins hop hpl
    exact completes_once hbegins (op1_of_eq hop) (if_neg hpl) rfl (yields_pure ..)
  · intro s lc v target hready hpl hres hres' htarget hlt hpid hmapped hint
    subst htarget
    have hst : s.pkg.cmapSt (fld v 23 16) = 1 := beq_iff_eq.1 hmapped
    refine ⟨_, exec_ipisend_ok hready hpl (ipiSend_reached hres hres' fun h => h.2.2 hpid), ?_⟩
    rw [if_neg (fun h => absurd h.1 (Nat.not_le.2 hlt)), if_neg (by simp [hst]), setPending_eq _ hlt hint (fld_lt v 7 0)]
    exact ⟨by simp [State.put], fun k hk => by simp [State.put, hk], by simp [State.put], by simp [State.put]⟩
  · intro s lc v hready hpl hres hres' h
    refine (exec_ipisend_ok hready hpl (ipiSend_reached hres hres' ?_)).trans ?_
    · rintro ⟨hlt, htarget, hpid⟩
      rcases h with h | ⟨h | h, -⟩
      · omega
      · omega
      · exact hpid h
    · congr 1
      split
      · rfl
      · next hnear =>
        rcases h with h | ⟨-, hint | hst⟩
        · omega
        · rw [setPending_reserved _ _ hint, ite_self]
          rfl
        · rw [if_pos hst]
          rfl
  · exact fun s lc v hready hpl => exec_ipisend_user hready hpl
  · intro s lc v hready hpl hres hres' hlt hpid
    exact exec_ipisend_error hready (.inl hpl) (ipiSend_foreign hres hres' (by omega) hlt hpid)

/-! ### Cache maintenance (R152 to R154, R175) -/

section
variable {act : Env → Nat → Nat → M Bool} {e : Env} {a b : Rand} {c₀ c : Core} {n : Nat} {q q1 q2 : Pkg}
  (hform : Yields (formOperands e OpUse.plain e.d.ops 0 c₀) q ([a, b], c) q1) (hn : Yields (readVal e b) q1 n q2)
include hform hn

/-- A range that may be treated: its pages, then their lines. -/
theorem rangeElem_yields {pages : List (Option (Nat × Nat × Nat))} {q3 q4 : Pkg} {ok : Bool} (hlen : n ≤ 0x200000)
    (hcross : n = 0 ∨ a.va.headD 0 / 2 ^ 47 = (a.va.headD 0 + n - 1) / 2 ^ 47)
    (hpages : Yields (rangePages e a (a.va.headD 0) n) q2 pages q3) (hdrain : Yields (stallDrain e.x) q3 () q3)
    (hlines : Yields (rangeLines act e pages) q3 ok q4) :
    Yields (rangeElem act e c₀) q ({ c with psw := setBit c.psw 1 ok }, tallyRands 0x18 [a, b] fun _ => false) q4 := by
  refine yields_bind hform <| yields_bind hn <| yields_if_neg (Nat.not_lt.2 hlen) <| yields_if_neg (by tauto) <|
    yields_bind hpages <| yields_bind hdrain <| yields_bind yields_get ?_
  unfold Yields at hlines
  rw [hlines]
  exact yields_bind yields_set <| yields_pure ..

/-- A range that is too long or crosses bit 47 (log entry 117). -/
theorem rangeElem_stops
    (hbad : 0x200000 < n ∨ (n ≠ 0 ∧ a.va.headD 0 / 2 ^ 47 ≠ (a.va.headD 0 + n - 1) / 2 ^ 47)) :
    Stops (rangeElem act e c₀) q (.trap { Trap.of 0x01 with opnd := if 0x200000 < n then 1 else 0 }) q2 := by
  refine stops_bind hform <| stops_bind hn ?_
  by_cases hlen : 0x200000 < n
  · simp only [hlen, if_true]
    exact stops_trap _
  · simp only [hlen, if_false]
    exact stops_if_pos (hbad.resolve_left hlen) <| stops_trap _

end

/-- A range row runs the range element, at M only where it locks or unlocks (R149, R154). -/
theorem runsRange_of_mem {e : Nat × CpuRow × (Env → Nat → Nat → M Bool)} (he : e ∈ rangeRows) :
    ∃ mn priv, (∀ lc f s, exec (e.2.1 lc f) s = runCpu lc f mn (op1 e.1) priv (onceBody (rangeElem e.2.2)) s) ∧
      ∀ d pl, (0xE008 ≤ e.1 → pl = 2) → priv d pl = none := by
  simp only [rangeRows, List.mem_cons, List.not_mem_nil, or_false] at he
  rcases he with rfl | rfl | rfl | rfl | rfl
  case inr.inr.inr.inl | inr.inr.inr.inr =>
    exact ⟨_, fun _ pl => mOnly pl, fun _ _ _ => rfl, fun _ _ h => if_pos (h (by decide))⟩
  all_goals exact ⟨_, anyLevel, fun _ _ _ => rfl, fun _ _ _ => rfl⟩

/-- A row without a range runs its element above U. -/
theorem runsAll_of_mem {e : Nat × CpuRow × Bool}
    (he : e ∈ ([(0xE005, .cinva, true), (0xE006, .cwba, false), (0xE007, .cflusha, true)] : List (Nat × CpuRow × Bool))) :
    ∃ mn, ∀ lc f s, exec (e.2.1 lc f) s = runCpu lc f mn (op1 e.1)
      (fun _ pl => if pl = 0 then some (Trap.of 0x08) else none) (onceBody (allElem e.2.2)) s := by
  simp only [List.mem_cons, List.not_mem_nil, or_false] at he
  rcases he with rfl | rfl | rfl <;> exact ⟨_, fun _ _ _ => rfl⟩

theorem cacheMaintenanceInstructions : cacheMaintenanceInstructionsClaim := by
  unfold cacheMaintenanceInstructionsClaim
  refine ⟨?_, ?_, ?_⟩
  · intro e he s lc f d q a va b c q1 n q2 pages q3 ok q4 hbegins hop hpl hform hmem hn hlen hcross hpages hdrain hlines
    obtain rfl := headD_va hmem
    obtain ⟨mn, priv, hexec, hpriv⟩ := runsRange_of_mem he
    rw [hop] at hpl
    exact completes_once hbegins (op1_of_eq hop) (hpriv _ _ hpl) (hexec lc f s)
      (rangeElem_yields hform hn hlen hcross hpages hdrain hlines)
  · intro e he s lc f d q a va b c q1 n q2 hbegins hop hpl hform hmem hn hbad
    obtain rfl := headD_va hmem
    obtain ⟨mn, priv, hexec, hpriv⟩ := runsRange_of_mem he
    rw [hop] at hpl
    exact stops_once hbegins (op1_of_eq hop) (hpriv _ _ hpl) (hexec lc f s) (rangeElem_stops hform hn hbad)
  · intro e he s lc f d q hbegins hop hpl hdrain
    obtain ⟨mn, hexec⟩ := runsAll_of_mem he
    exact completes_once hbegins (op1_of_eq hop) (if_neg hpl) (hexec lc f s)
      (yields_bind hdrain <| yields_bind (yields_modify _) <| yields_pure ..)

/-- Settles O39: each row by its operations in turn, IPISEND by what its target is, TINV scope by scope. -/
theorem systemAndCacheInstructions : Obligations.SystemAndCacheInstructions := by
  unfold Obligations.SystemAndCacheInstructions
  exact ⟨systemInstructions, cacheMaintenanceInstructions⟩

end Sys2Proof.Machine
end

section
/-! Field instructions and EDIT (R92, R100, R124, R135 to R138). -/

namespace Sys2Proof.Machine

/-! ### Operations -/

theorem checkLength_yields {n : Nat} (h : n ≤ 4096) (p : Pkg) : Yields (checkLength n) p () p :=
  yields_if_neg (Nat.not_lt.2 h) <| yields_pure ..

theorem checkLength_stops {n : Nat} (h : 4096 < n) (p : Pkg) :
    Stops (checkLength n) p (.trap { Trap.of 0x01 with opnd := 2 }) p :=
  stops_if_pos h <| stops_trap _

/-- What an attempt hands back is what the operation answers. -/
theorem attempt_yields {α : Type} {m : M α} {p q : Pkg} {a : α} (h : Yields m p a q) : Yields (attempt m) p (.ok a) q := by
  refine yields_bind yields_get ?_
  unfold Yields at h
  simp only [h]
  exact yields_bind yields_set <| yields_pure ..

section
variable {α β : Type} {p q r : Pkg}

theorem eq_of_yields_pure {a b : α} (h : Yields (pure a) p b q) : a = b := by
  injection h with h
  exact Except.ok.inj h

theorem not_yields_throw (st : Stop) (a : α) : ¬Yields (throw st) p a q := by
  intro h
  injection h with h
  cases h

theorem yields_of_get_bind {k : Pkg → M β} {b : β} (h : Yields (get >>= k) p b r) : Yields (k p) p b r := h

theorem yields_of_set_bind {m : M β} {b : β} (h : Yields (do set q; m) p b r) : Yields m q b r := h

/-- A byte loop that ends before the element of offset `i₀` answers that offset. -/
theorem offset_of_loop_end {σ : Type} {i₀ n₀ i n : Nat} {s₀ x : σ} {how how' : LoopEnd} {st : Stop}
    (h : Yields (if n₀ = 0 then throw st else pure (i₀, n₀, s₀, how)) p (i, n, x, how') q) : i₀ = i := by
  split at h
  · exact (not_yields_throw _ _ h).elim
  · exact congrArg Prod.fst (eq_of_yields_pure h)

end

/-- A byte loop that is stopped stands inside its range: its fuel is not spent. -/
theorem byteLoop_stopped {σ : Type} {e : Env} {c₀ : Core} {el : ByteStep σ} {fuel : Nat} :
    ∀ {stop : Option Nat} {i₀ n₀ i n : Nat} {s₀ x : σ} {keep : Bool} {p q : Pkg},
      Yields (byteLoop e c₀ el fuel stop i₀ n₀ s₀) p (i, n, x, .stopped keep) q → 0 < fuel ∧ i < i₀ + fuel := by
  induction fuel with
  | zero =>
    intro stop i₀ n₀ i n s₀ x keep p q h
    have heq := eq_of_yields_pure h
    simp at heq
  | succ k ih =>
    intro stop i₀ n₀ i n s₀ x keep p q h
    refine ⟨k.succ_pos, ?_⟩
    unfold byteLoop at h
    replace h := yields_of_get_bind h
    dsimp only at h
    split at h
    · have heq : i₀ = i := congrArg Prod.fst (eq_of_yields_pure h)
      exact heq ▸ Nat.lt_add_of_pos_right k.succ_pos
    · split at h <;> replace h := yields_of_set_bind h
      · have heq := eq_of_yields_pure h
        simp at heq
      · have := (ih h).2
        omega
      · exact (not_yields_throw _ _ h).elim
      all_goals exact offset_of_loop_end h ▸ Nat.lt_add_of_pos_right k.succ_pos

/-- A byte loop that is stopped after an element keeps its progress (R100). -/
theorem byteEnd_stopped (e : Env) (c₀ : Core) (cls i : Nat) {n : Nat} (keep : Bool) (fin : M Core) (p : Pkg) (hn : n ≠ 0) :
    Yields (byteEnd e c₀ cls i n (.stopped keep) fin) p
      ⟨progress e c₀ i, { Tally.zero with elems := n, cls := cls, openUops := true }, none, keep⟩ p := by
  rw [show progress e c₀ i = if n = 0 then c₀ else progress e c₀ i from (if_neg hn).symm]
  exact yields_pure ..

/-! ### Comparing fields -/

theorem firstDiff_self (x : List Byte) : firstDiff x x = none := by
  induction x with
  | nil => rfl
  | cons b x ih => rw [firstDiff, if_pos rfl, ih]

/-- The bytes that follow a common beginning are the first that differ. -/
theorem firstDiff_append {u v : Byte} (h : u ≠ v) (pre x y : List Byte) :
    firstDiff (pre ++ u :: x) (pre ++ v :: y) = some (u, v) := by
  induction pre with
  | nil => exact if_neg h
  | cons b pre ih => exact (if_pos rfl).trans ih

/-! ### The rows -/

/-- Settles O34: each row by its operations in turn; a stopped loop has not spent its fuel, so FSCAN stops below the length. -/
theorem fieldInstructions : Obligations.FieldInstructions := by
  unfold Obligations.FieldInstructions
  refine ⟨?_, ?_, ?_, ?_, ?_, ?_, ?_, ?_, ?_⟩
  · intro s lc f d q a b l c q1 n q2 i k x q3 c' q4 hbegins hop hform hn hlen hloop hw
    exact completes_begins hbegins rfl (op1_of_eq hop) rfl (yields_bind hform <| yields_bind hn <|
      yields_bind (checkLength_yields hlen _) <| yields_bind hloop <| yields_bind (yields_bind hw <| yields_pure ..) <|
      yields_pure ..)
  · intro s lc f d q a b l c q1 n q2 i k x q3 hbegins hop hform hn hlen hloop
    exact completes_begins hbegins rfl (op1_of_eq hop) rfl (yields_bind hform <| yields_bind hn <|
      yields_bind (checkLength_yields hlen _) <| yields_bind hloop <| yields_bind (yields_pure ..) <| yields_pure ..)
  · intro s lc f d q a b l c q1 n q2 i k x q3 hbegins hop hform hn hlen hloop
    exact completes_begins hbegins rfl (op1_of_eq hop) rfl (yields_bind hform <| yields_bind hn <|
      yields_bind (checkLength_yields hlen _) <| yields_bind hloop <| yields_bind (yields_pure ..) <| yields_pure ..)
  · intro s lc f d q a b l c q1 v q2 n q3 dev q4 ts q5 c' q6 va hbegins hop hform hmem hn hlen hcheck hb hopen hw
    obtain rfl := headD_va hmem
    exact completes_begins hbegins rfl (op1_of_eq hop) rfl (yields_bind hform <| yields_bind hn <|
      yields_if_pos hlen <| yields_bind hcheck <| yields_bind hb <|
      yields_bind (checkLength_yields hlen _) <| yields_bind hopen <| yields_bind hw <| yields_pure ..)
  · intro s lc f d q a b l c q1 n q2 d1 q3 d2 q4 x q5 y q6 va vb hbegins hop hform hmem hmem' hn hlen hca hcb hx hy
    obtain rfl := headD_va hmem
    obtain rfl := headD_va hmem'
    have hends := completes_begins hbegins rfl (op1_of_eq hop) rfl (i := .fcmp lc f) (yields_bind hform <| yields_bind hn <|
      yields_bind (checkLength_yields hlen _) <| yields_bind hca <| yields_bind hcb <| yields_bind hx <| yields_bind hy <|
      yields_pure ..)
    refine ⟨fun heq => ?_, fun pre u v x' y' hx hy hne => ?_⟩
    · rw [heq, firstDiff_self] at hends
      exact hends
    · rw [hx, hy, firstDiff_append hne] at hends
      exact hends
  · intro s lc f d q a b w c q1 r q2 ba q3 hbegins hop hform hpat ha
    refine ⟨?_, ?_, ?_⟩
    · intro pat digs ds sg st q4 i k x q5 hr hdigs hparts hskip hloop
      subst hr
      refine completes_begins hbegins rfl (op1_of_eq hop) rfl
        (t := { Tally.zero with elems := k, cls := 0x12, openUops := true })
        (yields_bind hform <| yields_bind (attempt_yields hpat) <| yields_bind ha <| yields_bind (yields_pure ..) <|
          yields_if_neg (not_not.2 hdigs) ?_)
      rw [hparts]
      exact yields_bind hskip <| yields_bind hloop <| yields_bind (yields_pure ..) <| yields_pure ..
    · rintro (rfl | ⟨pat, digs, rfl, hdigs⟩)
      · exact exec_stops hbegins (op1_of_eq hop) rfl rfl (stops_bind hform <| stops_bind (attempt_yields hpat) <|
          stops_bind ha <| stops_bind (yields_pure ..) <| stops_trap _)
      · exact exec_stops hbegins (op1_of_eq hop) rfl rfl (stops_bind hform <| stops_bind (attempt_yields hpat) <|
          stops_bind ha <| stops_bind (yields_pure ..) <| stops_if_pos hdigs <| stops_trap _)
    · intro pat hr hparts
      subst hr
      refine exec_stops hbegins (op1_of_eq hop) rfl rfl (stops_bind hform <| stops_bind (attempt_yields hpat) <|
          stops_bind ha <| stops_bind (yields_pure ..) <| stops_if_neg (not_not.2 rfl) ?_)
      rw [hparts]
      exact stops_trap _
  · intro e he s lc f d q a b l c q1 n q2 i k x keep q3 hbegins hop hform hn hlen hloop hk
    obtain ⟨hfuel, hin⟩ := byteLoop_stopped hloop
    simp only [fieldLoopRows, List.mem_cons, List.not_mem_nil, or_false] at he
    rcases he with rfl | rfl | rfl
    · change 0 < n + 1 - startOffset (s.pkg.core lc) at hfuel
      change i < startOffset (s.pkg.core lc) + (n + 1 - startOffset (s.pkg.core lc)) at hin
      rw [show i = min i n by omega]
      exact (completes_partly hbegins (op1_of_eq hop) rfl rfl rfl (yields_bind hform <| yields_bind hn <|
        yields_bind (checkLength_yields hlen _) <| yields_bind hloop <| byteEnd_stopped _ _ _ _ _ _ _ (by simpa using hk))).imp
        fun _ ⟨hregs, hhbm⟩ => ⟨hregs.g, hregs.psw, hregs.ip, hregs.part, hhbm⟩
    all_goals
      exact (completes_partly hbegins (op1_of_eq hop) rfl rfl rfl (yields_bind hform <| yields_bind hn <|
        yields_bind (checkLength_yields hlen _) <| yields_bind hloop <| byteEnd_stopped _ _ _ _ _ _ _ hk)).imp
        fun _ ⟨hregs, hhbm⟩ => ⟨hregs.g, hregs.psw, hregs.ip, hregs.part, hhbm⟩
  · intro s lc f d q a b l c q1 n q2 v q3 hbegins hop hform hn hlen hb
    exact exec_stops hbegins (op1_of_eq hop) rfl rfl (stops_bind hform <| stops_bind hn <|
      stops_if_neg (Nat.not_le.2 hlen) <| stops_bind hb <|
      stops_bind_left <| checkLength_stops hlen _)
  · intro e he s lc f d q a b l c q1 n q2 hbegins hop hform hn hlen
    simp only [List.mem_cons, List.not_mem_nil, or_false] at he
    rcases he with rfl | rfl | rfl | rfl <;>
      exact exec_stops hbegins (op1_of_eq hop) rfl rfl
        (stops_bind hform <| stops_bind hn <| stops_bind_left <| checkLength_stops hlen _)

end Sys2Proof.Machine
end

section
/-! Decimal instructions (R93, R95, R131 to R134). -/

namespace Sys2Proof.Machine

/-! ### Operations -/

section
variable {r : Rand} {bs : List Byte} {v : Int} (p : Pkg)

theorem decOperand_yields (h : decVal bs = some v) : Yields (decOperand r bs) p v p := by
  rw [decOperand, h]
  exact yields_pure ..

theorem decOperand_stops (h : decVal bs = none) :
    Stops (decOperand r bs) p (.trap { Trap.of 0x20 with opnd := r.num }) p := by
  rw [decOperand, h]
  exact stops_trap _

end

/-! ### The flags of a result -/

/-- A decimal result changes no field of the PSW above DV. -/
theorem fld_decFlags (w : Word) (r : DecRes) {hi lo : Nat} (h : 4 < lo) : fld (decFlags w r) hi lo = fld w hi lo := by
  rw [decFlags, setDV, setBit, fld_setFld_above _ _ (by decide) (by decide) h, setZNCV,
    fld_setFld_above _ _ (by decide) (by decide) (by omega)]

theorem bit_decFlags (w : Word) (r : DecRes) {i : Nat} (h : 4 < i) : bit (decFlags w r) i = bit w i := by
  rw [bit_eq_fld, bit_eq_fld, fld_decFlags w r h]

theorem pswDVE_decFlags (w : Word) (r : DecRes) : pswDVE (decFlags w r) = pswDVE w := bit_decFlags w r (by decide)

/-! ### Results -/

section
variable {e : Env} {rs : List Rand} {w : Rand} {v : Int} {k k' : Core} {dst : Dest} {q q1 q2 : Pkg}
  (hopen : Yields (openDest e w (decFit w.spec.size v).bytes) q dst q1) (hcommit : Yields (commitDests e.md [dst] k) q1 k' q2)
include hopen hcommit

/-- A decimal result is written and flagged. -/
theorem decDone_yields (h : ((decFit w.spec.size v).dv && pswDVE k'.psw) = false) : ∃ t,
    Yields (decDone e rs w v k) q (e.finish { k' with psw := decFlags k'.psw (decFit w.spec.size v) } t) q2 :=
  ⟨_, yields_bind hopen <| yields_bind hcommit <| yields_if_neg (by simpa [pswDVE_decFlags] using h) <| yields_pure ..⟩

/-- With DVE a result that lost digits raises the completion trap (R132). -/
theorem decDone_yields_calling (h : ((decFit w.spec.size v).dv && pswDVE k'.psw) = true) : ∃ t,
    Yields (decDone e rs w v k) q
      ⟨{ k' with psw := decFlags k'.psw (decFit w.spec.size v), ip := e.next, part := 0 }, t,
        some (Trap.of 0x22, 0x440), false⟩ q2 :=
  ⟨_, yields_bind hopen <| yields_bind hcommit <| yields_if_pos (by simpa [pswDVE_decFlags] using h) <| yields_pure ..⟩

end

/-- An instruction whose body ends in the writing of a decimal result leaves that result (R131, R132). -/
theorem decimalDone_of_decDone {i : Instr} {s : State} {lc : Lc} {f : Fetch} {d : Decoded} {q q₀ : Pkg} {mn : String}
    {row : Nat → Bool} {priv : Decoded → Nat → Option Trap} {body : Body} {rs : List Rand} {w : Rand} {v : Int} {k : Core}
    (hbegins : Begins s lc f d q₀) (hrow : row d.op = true) (hpriv : priv d (s.pkg.core lc).pl = none)
    (hexec : exec i s = runCpu lc f mn row priv body s)
    (hbody : ∀ dn z, Yields (decDone (envOf s lc d) rs w v k) q dn z →
      Yields (body (envOf s lc d) (s.pkg.core lc) f.stop) q₀ dn z) : decimalDone i s lc d w v k q := by
  rintro dst q1 k' q2 _ rfl hopen hcommit
  refine ⟨fun h => ?_, fun h hxs => ?_⟩
  · obtain ⟨t, hdone⟩ := decDone_yields hopen hcommit (rs := rs) h
    exact completes_begins hbegins hexec hrow hpriv (hbody _ _ hdone)
  · obtain ⟨t, hdone⟩ := decDone_yields_calling hopen hcommit (rs := rs) h
    have hpl : pswPL (decFlags k'.psw (decFit w.spec.size v)) = pswPL k'.psw := fld_decFlags _ _ (by decide)
    have hlevel : (Trap.of 0x22).level (pswPL (decFlags k'.psw (decFit w.spec.size v))) = if pswPL k'.psw = 2 then 2 else 1 := by
      rw [hpl]
      rfl
    refine (completes_calling hbegins hrow hpriv hexec (hbody _ _ hdone) rfl ((bit_decFlags _ _ (by decide)).trans hxs) rfl
      (by decide) hlevel (by split <;> decide)).imp fun _ ⟨hent, hhbm⟩ => ?_
    exact ⟨⟨hent.ip, hent.savedIp, hent.savedPsw, hent.code, hent.pl, hent.imask, hent.xs, hent.rp, hent.flags, hent.g,
      hent.ma, hent.part⟩, hhbm⟩

/-! ### The rows -/

theorem runsDec_of_mem {e : Nat × CpuRow × (Int → Int → Option Int)} (he : e ∈ decimalRows) :
    ∃ mn, ∀ lc f s, exec (e.2.1 lc f) s = runCpu lc f mn (op1 e.1) anyLevel (dec3Body e.2.2) s := by
  simp only [decimalRows, List.mem_cons, List.not_mem_nil, or_false] at he
  rcases he with rfl | rfl | rfl | rfl <;> exact ⟨_, fun _ _ _ => rfl⟩

theorem decimalInstructions : decimalInstructionsClaim := by
  unfold decimalInstructionsClaim
  refine ⟨?_, ?_, ?_, ?_, ?_, ?_⟩
  · intro e he s lc f d q a b w c q1 ba q2 bb q3 hbegins hop hform ha hb
    obtain ⟨mn, hexec⟩ := runsDec_of_mem he
    refine ⟨fun va vb v hva hvb hv => decimalDone_of_decDone (rs := [a, b, w]) hbegins (op1_of_eq hop) rfl (hexec lc f s)
        fun dn z h => yields_bind hform <| yields_bind ha <| yields_bind hb <| yields_bind (decOperand_yields _ hva) <|
          yields_bind (decOperand_yields _ hvb) ?_,
      fun hva => exec_stops hbegins (op1_of_eq hop) rfl (hexec lc f s)
        (stops_bind hform <| stops_bind ha <| stops_bind hb <| stops_bind_left <| decOperand_stops _ hva),
      fun va hva hvb => exec_stops hbegins (op1_of_eq hop) rfl (hexec lc f s)
        (stops_bind hform <| stops_bind ha <| stops_bind hb <| stops_bind (decOperand_yields _ hva) <|
          stops_bind_left <| decOperand_stops _ hvb),
      fun va vb hva hvb hv => exec_stops hbegins (op1_of_eq hop) rfl (hexec lc f s)
        (stops_bind hform <| stops_bind ha <| stops_bind hb <| stops_bind (decOperand_yields _ hva) <|
          stops_bind (decOperand_yields _ hvb) ?_)⟩
    · rw [hv]
      exact h
    · rw [hv]
      exact stops_trap _
  · intro s lc f d q a b c q1 ba q2 bb q3 hbegins hop hform ha hb
    exact ⟨fun va vb hva hvb => completes_begins hbegins rfl (op1_of_eq hop) rfl
        (yields_bind hform <| yields_bind ha <| yields_bind hb <| yields_bind (decOperand_yields _ hva) <|
          yields_bind (decOperand_yields _ hvb) <| yields_pure ..),
      fun hva => exec_stops hbegins (op1_of_eq hop) rfl rfl
        (stops_bind hform <| stops_bind ha <| stops_bind hb <| stops_bind_left <| decOperand_stops _ hva),
      fun va hva hvb => exec_stops hbegins (op1_of_eq hop) rfl rfl
        (stops_bind hform <| stops_bind ha <| stops_bind hb <| stops_bind (decOperand_yields _ hva) <|
          stops_bind_left <| decOperand_stops _ hvb)⟩
  · intro s lc f d q a b w c q1 ba q2 vk q3 hbegins hop hform ha hk
    exact ⟨fun va hlo hhi hva => decimalDone_of_decDone (rs := [a, b, w]) hbegins (op1_of_eq hop) rfl rfl
        fun dn z h => yields_bind hform <| yields_bind ha <| yields_bind hk <| yields_if_neg (by omega) <|
          yields_bind (decOperand_yields _ hva) h,
      fun hlo hhi hva => exec_stops hbegins (op1_of_eq hop) rfl rfl
        (stops_bind hform <| stops_bind ha <| stops_bind hk <| stops_if_neg (by omega) <|
          stops_bind_left <| decOperand_stops _ hva),
      fun hout => exec_stops hbegins (op1_of_eq hop) rfl rfl
        (stops_bind hform <| stops_bind ha <| stops_bind hk <| stops_if_pos hout <| stops_trap _)⟩
  · intro s lc f d q a w c q1 ba q2 hbegins hop hform ha
    exact ⟨fun v c' q3 hv hw => completes_begins hbegins rfl (op1_of_eq hop) rfl
        (yields_bind hform <| yields_bind ha <| yields_bind (decOperand_yields _ hv) <| yields_bind hw <| yields_pure ..),
      fun hv => exec_stops hbegins (op1_of_eq hop) rfl rfl
        (stops_bind hform <| stops_bind ha <| stops_bind_left <| decOperand_stops _ hv)⟩
  · intro s lc f d q a w c q1 v q2 hbegins hop hform ha
    exact decimalDone_of_decDone (rs := [a, w]) hbegins (op1_of_eq hop) rfl rfl
      fun dn z h => yields_bind hform <| yields_bind ha h
  · intro s lc f d q a w c q1 ba q2 hbegins hop hform ha
    exact ⟨fun v hv => decimalDone_of_decDone (rs := [a, w]) hbegins (op1_of_eq hop) rfl rfl
        fun dn z h => yields_bind hform <| yields_bind ha <| yields_bind (decOperand_yields _ hv) h,
      fun hv => exec_stops hbegins (op1_of_eq hop) rfl rfl
        (stops_bind hform <| stops_bind ha <| stops_bind_left <| decOperand_stops _ hv)⟩

end Sys2Proof.Machine
end

section
/-! What decimal instructions write: packing, fitting and shifting (R86, R131, R133). -/

namespace Sys2Proof.Machine

/-! ### Packing -/

theorem length_packNibbles (ns : List Nat) : (packNibbles ns).length = ns.length / 2 := by
  induction ns using packNibbles.induct with
  | case1 a b t ih => simp [packNibbles, ih]; omega
  | case2 ns h =>
    match ns, h with
    | [], _ => rfl
    | [_], _ => simp [packNibbles]
    | a :: b :: t, h => exact (h a b t rfl).elim

/-- An even number of nibbles is read back as packed. -/
theorem nibbles_packNibbles (ns : List Nat) (heven : ns.length % 2 = 0) (hlt : ∀ x ∈ ns, x < 16) :
    nibbles (packNibbles ns) = ns := by
  induction ns using packNibbles.induct with
  | case1 a b t ih =>
    have ha := hlt a (by simp)
    have hb := hlt b (by simp)
    have hbyte : (BitVec.ofNat 8 (a * 16 + b)).toNat = a * 16 + b := by
      rw [BitVec.toNat_ofNat]
      omega
    have htail : t.length % 2 = 0 := by
      simp only [List.length_cons] at heven
      omega
    rw [packNibbles, nibbles, hbyte, ih htail fun x hx => hlt x (by simp [hx]),
      show (a * 16 + b) / 16 = a by omega, show (a * 16 + b) % 16 = b by omega]
  | case2 ns h =>
    match ns, h with
    | [], _ => rfl
    | [_], _ => simp at heven
    | a :: b :: t, h => exact (h a b t rfl).elim

/-- The sign of a packed decimal is the low nibble of its last byte. -/
theorem getLastD_nibbles (bs : List Byte) : (nibbles bs).getLastD 0 = (bs.getLastD 0).toNat % 16 := by
  induction bs with
  | nil => rfl
  | cons b bs ih =>
    cases bs with
    | nil => rfl
    | cons b' bs => simpa [nibbles] using ih

/-! ### Digits -/

theorem length_decDigits (k x : Nat) : (decDigits k x).length = k := by
  induction k generalizing x with
  | zero => rfl
  | succ k ih => simp [decDigits, ih]

theorem lt_of_mem_decDigits {k x d : Nat} (h : d ∈ decDigits k x) : d < 10 := by
  induction k generalizing x with
  | zero => simp [decDigits] at h
  | succ k ih =>
    rcases List.mem_append.1 h with h | h
    · exact ih h
    · rw [List.mem_singleton.1 h]
      exact Nat.mod_lt _ (by decide)

/-- Digits spell the number modulo the power of ten that they reach. -/
theorem digitsVal_decDigits (k x : Nat) : digitsVal (decDigits k x) = x % 10 ^ k := by
  induction k generalizing x with
  | zero => simp [decDigits, digitsVal, Nat.mod_one]
  | succ k ih =>
    have happend : digitsVal (decDigits (k + 1) x) = digitsVal (decDigits k (x / 10)) * 10 + x % 10 := by
      simp [decDigits, digitsVal]
    rw [happend, ih, Nat.pow_succ', Nat.mod_mul]
    ring

/-- Packed digits with a sign stand as they were packed. -/
theorem nibbles_packed {k x sg : Nat} (hk : k % 2 = 1) (hsg : sg < 16) :
    nibbles (packNibbles (decDigits k x ++ [sg])) = decDigits k x ++ [sg] := by
  refine nibbles_packNibbles _ (by rw [List.length_append, length_decDigits, List.length_singleton]; omega) fun d hd => ?_
  rcases List.mem_append.1 hd with hd | hd
  · exact (lt_of_mem_decDigits hd).trans (by decide)
  · rwa [List.mem_singleton.1 hd]

theorem decVal_packed {k x sg : Nat} (hk : k % 2 = 1) (hsg : sg = 0xA ∨ sg = 0xB) :
    decVal (packNibbles (decDigits k x ++ [sg])) =
      some (if sg = 0xB then -((x % 10 ^ k : Nat) : Int) else ((x % 10 ^ k : Nat) : Int)) := by
  have hns := nibbles_packed (x := x) hk (sg := sg) (by omega)
  have hall : (decDigits k x).all (fun d => decide (d < 10)) = true :=
    List.all_eq_true.2 fun d hd => decide_eq_true (lt_of_mem_decDigits hd)
  rcases hsg with rfl | rfl <;> simp [decVal, decParts, hns, hall, digitsVal_decDigits]

/-! ### Fitting (R131) -/

section
variable (l : Nat) (v : Int)

/-- The nibble that carries the sign of what a fit writes, at zero too (R86). -/
def DecRes.sign (r : DecRes) : Nat := if r.val < 0 then 0xB else 0xA

theorem decFit_val : (decFit l v).val =
    if v < 0 then -((v.natAbs % 10 ^ (2 * l - 1) : Nat) : Int) else ((v.natAbs % 10 ^ (2 * l - 1) : Nat) : Int) := by
  by_cases hv : v < 0 <;> by_cases hm : v.natAbs % 10 ^ (2 * l - 1) = 0 <;> simp [decFit, hv, hm]

theorem decFit_bytes : (decFit l v).bytes =
    packNibbles (decDigits (2 * l - 1) (v.natAbs % 10 ^ (2 * l - 1)) ++ [(decFit l v).sign]) := by
  have hneg : (decFit l v).val < 0 ↔ (decide (v < 0) && v.natAbs % 10 ^ (2 * l - 1) != 0) = true := by
    rw [decFit_val]
    simp only [Bool.and_eq_true, decide_eq_true_eq, bne_iff_ne]
    split <;> omega
  simp only [DecRes.sign, hneg]
  rfl

theorem natAbs_decFit : (decFit l v).val.natAbs = v.natAbs % 10 ^ (2 * l - 1) := by
  rw [decFit_val]
  split
  · rw [Int.natAbs_neg, Int.natAbs_natCast]
  · rw [Int.natAbs_natCast]

theorem sign_eq (r : DecRes) : r.sign = 0xA ∨ r.sign = 0xB := by
  unfold DecRes.sign
  split <;> simp

theorem decFit_nibbles (hl : 1 ≤ l) : nibbles (decFit l v).bytes =
    decDigits (2 * l - 1) (v.natAbs % 10 ^ (2 * l - 1)) ++ [(decFit l v).sign] := by
  have hsign := sign_eq (decFit l v)
  rw [decFit_bytes, nibbles_packed (by omega) (by omega)]

/-- What a fit writes is read back. -/
theorem decVal_decFit (hl : 1 ≤ l) : decVal (decFit l v).bytes = some (decFit l v).val := by
  rw [decFit_bytes, decVal_packed (by omega) (sign_eq _), Nat.mod_mod, ← natAbs_decFit]
  congr 1
  unfold DecRes.sign
  by_cases hneg : (decFit l v).val < 0
  · simp only [hneg, if_true]
    omega
  · simp only [hneg, if_false]
    rw [if_neg (by decide)]
    omega

end

/-! ### Shifting (R133) -/

/-- A magnitude rounded to the nearest multiple of `10 ^ n`, halves up. -/
def roundTo (m n : Nat) : Nat := (m * 2 + 10 ^ n) / (2 * 10 ^ n) * 10 ^ n

theorem roundTo_bounds (m n : Nat) : 2 * roundTo m n ≤ 2 * m + 10 ^ n ∧ 2 * m < 2 * roundTo m n + 10 ^ n := by
  have hpos : 0 < 2 * 10 ^ n := by positivity
  have hle := Nat.div_mul_le_self (m * 2 + 10 ^ n) (2 * 10 ^ n)
  have hlt := Nat.lt_div_mul_add hpos (a := m * 2 + 10 ^ n)
  have hround : (m * 2 + 10 ^ n) / (2 * 10 ^ n) * (2 * 10 ^ n) = 2 * roundTo m n := by
    rw [roundTo]
    ring
  omega

/-- A shift to the right keeps the sign and rounds the magnitude. -/
theorem decShift_right (v : Int) (n : Nat) :
    decShift v n * 10 ^ n = if v < 0 then -(roundTo v.natAbs n : Int) else (roundTo v.natAbs n : Int) := by
  rw [decShift, if_neg (by omega), roundTo]
  simp only [Int.toNat_natCast]
  split <;> push_cast <;> ring

/-- A shift to the left multiplies. -/
theorem decShift_left (v : Int) (n : Nat) : decShift v (-n) = v * 10 ^ n := by
  rcases n.eq_zero_or_pos with rfl | hn
  · have h := decShift_right v 0
    have hround : roundTo v.natAbs 0 = v.natAbs := by
      have := roundTo_bounds v.natAbs 0
      rw [Nat.pow_zero] at this
      omega
    rw [hround, pow_zero, mul_one] at h
    rw [Nat.cast_zero, neg_zero, pow_zero, mul_one]
    refine h.trans ?_
    split <;> omega
  · rw [decShift, if_pos (by omega), neg_neg]
    rfl

theorem decimalResultsReadBack : decimalResultsReadBackClaim := by
  unfold decimalResultsReadBackClaim
  refine ⟨fun l v hl _ => ⟨?_, decVal_decFit l v hl, decide_eq_true_iff, fun hlt => ?_, natAbs_decFit l v, ?_⟩,
    fun v n => ⟨decShift_left v n, ?_⟩⟩
  · rw [decFit_bytes, length_packNibbles, List.length_append, length_decDigits, List.length_singleton]
    omega
  · rw [decFit_val, Nat.mod_eq_of_lt hlt]
    split <;> omega
  · rw [← getLastD_nibbles, decFit_nibbles l v hl, List.getLastD_concat]
    rfl
  · have hbounds := roundTo_bounds v.natAbs n
    rw [decShift_right]
    split <;> omega

/-- Settles O33: the rows by their operations in turn, and what they write by the digits of a packed decimal. -/
theorem decimalInstructionsAreExact : Obligations.DecimalInstructionsAreExact := by
  unfold Obligations.DecimalInstructionsAreExact
  exact ⟨decimalInstructions, decimalResultsReadBack⟩

end Sys2Proof.Machine
end

section
/-! A cause at S while the save registers of S are in use (R90, R95). -/

namespace Sys2Proof.Machine

/-- A cause of S whose save registers are in use is taken at M: MXINFO is that of a nested cause (R90, R93). -/
theorem xinfo_stopInstr_nested (s : State) {lc : Nat} {p : Pkg} (len : Nat) {t : Trap} (hpl : (p.core lc).pl = 1)
    (hlevel : t.level 1 = 1) (hxs : pswXS (p.core lc).psw = true) (hm2 : t.m2 = none) :
    ((stopInstr s lc len p (.trap t)).pkg.core lc).crGet 0x12 =
      xinfo t 1 len 0 true ((p.core lc).part != 0 || pswRP (s.pkg.core lc).psw) := by
  refine ((count_core ..).cr 0x12 rfl).trans ?_
  have htrap : ∀ (ip : Word) rest off, p.takeTrap lc t ip len rest off = (p.setCore lc ((p.core lc).enter 2 ip (p.core lc).psw
      (xinfo t 1 len 0 true rest) (BitVec.ofNat 64 (if t.code = 0x30 then 0 else t.xaddr)) off)).noteTrap lc t := by
    intro ip rest off
    simp [Pkg.takeTrap, hpl, hlevel, hxs, hm2]
  rw [htrap, core_noteTrap, core_setCore_same, crGet_enter]
  rfl

/-- A core at S in the handler of S. -/
def nestedCore : Core := { Core.reset with psw := 0x18000 }

/-- A cause whose stage does not fit the field that XINFO gives it. -/
def wideStage : Trap := { Trap.of 0x01 with stage := 8 }

/-- Refutes O37: XINFO adds its fields up, so the stage 8 of a trap, which its one-bit field cannot hold, carries into NEST and
leaves it 0 though the cause is taken at M from a busy S. -/
theorem not_trapsCallsAndInterruptsEnterTheirLevel : ¬ Obligations.TrapsCallsAndInterruptsEnterTheirLevel := by
  unfold Obligations.TrapsCallsAndInterruptsEnterTheirLevel trapsEnterTheirLevelClaim
  rintro ⟨⟨-, hnest, -⟩, -⟩
  have hcore : (State.reset.pkg.setCore 0 nestedCore).core 0 = nestedCore := core_setCore_same ..
  have hpl : nestedCore.pl = 1 := by decide
  have hxs : pswXS nestedCore.psw = true := by decide
  obtain ⟨-, hbit⟩ := hnest State.reset 0 0 (State.reset.pkg.setCore 0 nestedCore) wideStage nestedCore hcore.symm hpl rfl hxs
    (by decide)
  rw [xinfo_stopInstr_nested _ _ (by rw [hcore, hpl]) rfl (by rw [hcore, hxs]) rfl, hcore] at hbit
  exact absurd hbit (by decide)

end Sys2Proof.Machine
end

section
/-! The machine right after reset (R14, R31, R32, R34, R48, R55, R58, R62, R64, R78, R82, R394). -/

namespace Sys2Proof.Machine

/-! ### Registers -/

theorem reg_reset (pg off : Nat) : State.reset.pkg.reg pg off = regReset pg off := rfl

/-- BLKSTAT shows no command: only STATE can differ from 0 (R32, R45). -/
theorem regReset_blkstat_cases (pg : Nat) : regReset pg 0x020 = 0 ∨ regReset pg 0x020 = 0x100 := by
  cases hblk : blkOf pg with
  | none => exact .inl (by rw [regReset, hblk])
  | some e =>
    cases hcfg : e.1.hasCfg with
    | true => exact .inl (regReset_blkstat hblk hcfg)
    | false => exact .inr (by simp [regReset, hblk, hcfg])

section
variable {pg : Nat} (h : (blkOf pg).isSome = true)
include h

theorem regReset_en : regReset pg 0x018 = 1 := by
  obtain ⟨e, he⟩ := Option.isSome_iff_exists.1 h
  rw [regReset, he]
  rfl

theorem regReset_snap : regReset pg 0x048 = 1 := by
  obtain ⟨e, he⟩ := Option.isSome_iff_exists.1 h
  rw [regReset, he]
  rfl

end

/-- Settles O60: each part by what an unlisted key of its table reads as, the registers of a page by their Reset columns. -/
theorem resetHoldsTheSpecifiedValues : Obligations.ResetHoldsTheSpecifiedValues := by
  unfold Obligations.ResetHoldsTheSpecifiedValues
  refine ⟨rfl, rfl, rfl, rfl, rfl, rfl, fun _ => ⟨rfl, rfl, Nat.zero_div _⟩, rfl, rfl, by decide, by decide, rfl,
    fun _ => ⟨rfl, rfl⟩, fun pg hpg => ?_, fun _ _ => ⟨rfl, rfl⟩, by decide, fun _ => rfl, fun _ _ => rfl, fun _ => rfl, rfl, rfl, rfl, rfl⟩
  obtain ⟨herr, hcnt⟩ := regReset_errors pg
  have hstat := regReset_blkstat_cases pg
  simp only [Pkg.rf, Pkg.busy, reg_reset, regReset_en hpg, regReset_snap hpg, herr, hcnt, true_and]
  refine ⟨by decide, ?_, ?_, fun _ => rfl⟩ <;> rcases hstat with hstat | hstat <;> rw [hstat] <;> decide

end Sys2Proof.Machine
end

section
/-! Register and literal operands: forming, reading and writing them (R115, R120), and pending writes (R91). -/

namespace Sys2Proof.Machine

/-! ### The register file -/

section
variable (c : Core) (n : Nat) (v : Word)

@[simp] theorem gSet_psw : (c.gSet n v).psw = c.psw := by rw [Core.gSet]; split <;> rfl

@[simp] theorem gSet_ip : (c.gSet n v).ip = c.ip := by rw [Core.gSet]; split <;> rfl

@[simp] theorem gSet_ma : (c.gSet n v).ma = c.ma := by rw [Core.gSet]; split <;> rfl

@[simp] theorem gSet_cr : (c.gSet n v).cr = c.cr := by rw [Core.gSet]; split <;> rfl

/-- The registers after a write, as the list of their values. -/
theorem gSet_toList : (c.gSet n v).g.toList = c.g.toList.set n v := by
  rw [Core.gSet]
  split
  · rw [Vector.toList_set]
  · rw [List.set_eq_of_length_le (by rw [Vector.length_toList]; omega)]

theorem gGet_gSet_same {n : Nat} (h : n < 16) : (c.gSet n v).gGet n = v := by
  have hlen : n < (c.g.toList.set n v).length := by rwa [List.length_set, Vector.length_toList]
  rw [Core.gGet, gSet_toList, List.getD_eq_getElem _ _ hlen, List.getElem_set_self]

theorem gGet_gSet_other {n k : Nat} (h : k ≠ n) : (c.gSet n v).gGet k = c.gGet k := by
  rw [Core.gGet, gSet_toList, List.getD_eq_getElem?_getD, List.getElem?_set_ne h.symm, ← List.getD_eq_getElem?_getD, Core.gGet]

end

/-! ### Pending writes -/

/-- Nothing is undone in what succeeds. -/
theorem undoOnTrap_yields {α : Type} {m : M α} {p q : Pkg} {a : α} (h : Yields m p a q) : Yields (undoOnTrap m) p a q := by
  refine yields_bind yields_get ?_
  unfold Yields at h
  simp only [h]
  exact yields_bind yields_set <| yields_pure ..

section
variable (md : ModeState) (c : Core) (p : Pkg)

theorem commitDests_nil_yields : Yields (commitDests md [] c) p c p := undoOnTrap_yields (yields_pure ..)

theorem commitDests_reg_yields (n v : Nat) : Yields (commitDests md [.reg n v] c) p (c.gSet n (BitVec.ofNat 64 v)) p :=
  undoOnTrap_yields (yields_bind (yields_pure ..) (yields_pure ..))

end

/-! ### Operands that need no memory -/

section
variable {e : Env} {r : Rand} {n : Nat} {v : Word} (p : Pkg)

theorem formOperand_reg_yields {sp : Spec} (hform : sp.form = 1) (hkind : sp.kind ≠ .e) (c : Core) (num : Nat)
    (atomic dst fp : Bool) : Yields (formOperand e c sp num atomic dst fp) p
      ({ spec := sp, num := num, loc := .reg sp.reg (c.gGet sp.reg), ptr := none, dev := false }, c) p := by
  simp only [formOperand, hform]
  exact yields_if_neg hkind (yields_pure ..)

theorem readVal_reg_yields (h : r.loc = .reg n v) : Yields (readVal e r) p (v.toNat % 2 ^ (8 * r.spec.size)) p := by
  rw [readVal, readBytes, h, ← leNat_leBytes]
  exact yields_bind (yields_pure ..) (yields_pure ..)

theorem readVal_lit_yields {x : Nat} (h : r.loc = .lit x) : Yields (readVal e r) p (x % 2 ^ (8 * r.spec.size)) p := by
  rw [readVal, readBytes, h, ← leNat_leBytes]
  exact yields_bind (yields_pure ..) (yields_pure ..)

theorem writeVal_reg_yields (h : r.loc = .reg n v) (x : Nat) (c : Core) :
    Yields (writeVal e r x c) p (c.gSet n (BitVec.ofNat 64 (x % 2 ^ (8 * r.spec.size)))) p := by
  rw [writeVal, openDest, h, ← leNat_leBytes]
  exact yields_bind (yields_pure ..) (commitDests_reg_yields ..)

end

/-- Settles O29: each operation succeeds at once, and a write replaces one value of the register file. -/
theorem registerOperands : Obligations.RegisterOperands := by
  unfold Obligations.RegisterOperands
  refine ⟨?_, ?_, ?_, ?_⟩
  · exact fun e c sp num at_ ds fp p hform hkind => formOperand_reg_yields p hform hkind c num at_ ds fp
  · exact fun e r n v p h => readVal_reg_yields p h
  · exact fun e r n v x c p h hn => ⟨_, writeVal_reg_yields p h x c, gGet_gSet_same _ _ hn,
      fun k hk => gGet_gSet_other _ _ hk, gSet_psw .., gSet_ip .., gSet_ma .., gSet_cr ..⟩
  · exact fun e r v p h => readVal_lit_yields p h

end Sys2Proof.Machine
end

section
/-! Atomic instructions: LOCK, CAS and XADD (R109, R128, R145, R146; log entry 118). -/

namespace Sys2Proof.Machine

/-! ### Rows under LOCK -/

/-- The element of `bin3Elem` with the two operands that LOCK leaves it. -/
theorem bin3Elem_locked_yields {iop : Nat} {useC cin : Bool} {f : Nat → Nat → Nat → Bool → BinRes} {e : Env} {a m : Rand}
    {c₀ c : Core} {va old : Nat} {q q1 q2 q3 : Pkg} (hcin : cin = (useC && pswC c₀.psw))
    (hform : Yields (formOperands e (lockUse e 1) e.d.ops 0 c₀) q ([a, m], c) q1) (ha : Yields (readVal e a) q1 va q2)
    (hupd : Yields (atomicUpdate e m iop (leBytes e.d.size va) cin (fun o => some (f (8 * e.d.size) o va cin).r)) q2 old q3) :
    Yields (bin3Elem iop useC f e c₀) q ({ c with psw := (f (8 * e.d.size) old va cin).setFlags c.psw },
      tallyRands 0x11 [a, m] (fun _ => false)) q3 := by
  subst hcin
  exact yields_bind hform <| yields_bind ha <| yields_bind hupd <| yields_pure ..

/-- The element of `bin1Elem` under LOCK. -/
theorem bin1Elem_locked_yields {iop : Nat} {f : Nat → Nat → BinRes} {e : Env} {m : Rand} {c₀ c : Core} {old : Nat}
    {q q1 q2 : Pkg} (hlock : e.d.lock = true) (hform : Yields (formOperands e (lockUse e 0) e.d.ops 0 c₀) q ([m], c) q1)
    (hupd : Yields (atomicUpdate e m iop (leBytes e.d.size 1) false (fun o => some (f (8 * e.d.size) o).r)) q1 old q2) :
    Yields (bin1Elem iop f e c₀) q ({ c with psw := (f (8 * e.d.size) old).setFlags c.psw },
      tallyRands 0x11 [m] (fun _ => false)) q2 :=
  yields_bind hform <| yields_if_pos hlock <| yields_bind hupd <| yields_pure ..

theorem runsElem_of_mem_lockRows {e : Nat × CpuRow × Nat × Bool × (Nat → Nat → Nat → Bool → BinRes)} (he : e ∈ lockRows) :
    RunsElem e.1 e.2.1 (bin3Elem e.2.2.1 e.2.2.2.1 e.2.2.2.2) := by
  simp only [lockRows, List.mem_cons, List.not_mem_nil, or_false] at he
  rcases he with rfl | rfl | rfl | rfl | rfl | rfl | rfl | rfl <;> exact .rep fun _ _ _ => rfl

/-- The rows of one operand run it once; they take no REP. -/
theorem exec_of_mem_oneRows {e : Nat × CpuRow × Nat × (Nat → Nat → BinRes)} (he : e ∈ oneRows) :
    ∃ mn, ∀ lc f s, exec (e.2.1 lc f) s =
      runCpu lc f mn (op1 e.1) anyLevel (onceBody (bin1Elem e.2.2.1 e.2.2.2)) s := by
  simp only [oneRows, List.mem_cons, List.not_mem_nil, or_false] at he
  rcases he with rfl | rfl <;> exact ⟨_, fun _ _ _ => rfl⟩

/-! ### CAS and XADD -/

/-- Operand 0 is read first when it lies in memory cached by WB (R92). -/
theorem readVal_if_isWb_yields {β : Type} {e : Env} {a : Rand} {k : M β} {b : β} {x : Nat} {q1 q2 r : Pkg}
    (hread : isWb a = true → Yields (readVal e a) q1 x q2) (hskip : isWb a = false → q2 = q1) (hk : Yields k q2 b r) :
    Yields (if isWb a = true then do let _ ← readVal e a; k else k) q1 b r := by
  by_cases hwb : isWb a = true
  · exact yields_if_pos hwb <| yields_bind (hread hwb) hk
  · rw [hskip (Bool.eq_false_iff.2 hwb)] at hk
    exact yields_if_neg hwb hk

/-- What CAS has yet to write once it has the old value: on a hit operand 0 if it is a register, on a miss operand 1 (R145). -/
def casDests (e : Env) (a b : Rand) (want new old : Nat) : M (List Dest) :=
  if old == want then
    match a.loc with
    | .reg k _ => pure [Dest.reg k new]
    | _ => pure []
  else do
    let d ← openDest e b (leBytes e.d.size old)
    pure [d]

section
variable {e : Env} {a b : Rand} {new old want : Nat} {p q : Pkg}

theorem casDests_hit_mem {va : Nat} (hhit : old = want) (ha : a.loc = .mem va) :
    Yields (casDests e a b want new old) p [] p := by
  rw [casDests, if_pos (beq_iff_eq.2 hhit), ha]
  exact yields_pure ..

theorem casDests_hit_reg {k : Nat} {v : Word} (hhit : old = want) (ha : a.loc = .reg k v) :
    Yields (casDests e a b want new old) p [.reg k new] p := by
  rw [casDests, if_pos (beq_iff_eq.2 hhit), ha]
  exact yields_pure ..

theorem casDests_miss {dst : Dest} (hmiss : old ≠ want) (hopen : Yields (openDest e b (leBytes e.d.size old)) p dst q) :
    Yields (casDests e a b want new old) p [dst] q :=
  yields_if_neg (mt beq_iff_eq.1 hmiss) <| yields_bind hopen <| yields_pure ..

end

/-- CAS after its one access: it completes with what `casDests` names, and a miss stands meanwhile (log entry 118). -/
theorem completes_cas {s : State} {lc : Lc} {f : Fetch} {d : Decoded} {a b v : Rand} {c c' : Core} {x want new old : Nat}
    {ds : List Dest} {q q1 q2 q3 q4 q5 q6 q7 : Pkg} (hbegins : Begins s lc f d q) (hop : d.op = 0x70)
    (hform : Yields (formOperands (envOf s lc d) { OpUse.plain with atomic := (· == 0) } d.ops 0 (s.pkg.core lc)) q
      ([a, b, v], c) q1)
    (hread : isWb a = true → Yields (readVal (envOf s lc d) a) q1 x q2) (hskip : isWb a = false → q2 = q1)
    (hwant : Yields (readVal (envOf s lc d) b) q2 want q3) (hnew : Yields (readVal (envOf s lc d) v) q3 new q4)
    (hheld : (q4.core lc).held = none)
    (hupd : Yields (atomicUpdate (envOf s lc d) a 1 (leBytes d.size want ++ leBytes d.size new) false
      (fun o => if o = want then some new else none)) q4 old q5)
    (hdests : Yields (casDests (envOf s lc d) a b want new old) q5 ds q6)
    (hcommit : Yields (commitDests s.mode ds c)
      (q6.setCore lc { q6.core lc with held := if old == want then none else some old }) c' q7) :
    Completes (.cas lc f) s
      (Ends s lc q7 { c' with psw := (subFlags (8 * d.size) old want false).setFlags c'.psw } (envOf s lc d).next) := by
  refine completes_once hbegins (op1_of_eq hop) rfl rfl <| yields_bind hform <| readVal_if_isWb_yields hread hskip <|
    yields_bind hwant <| yields_bind hnew <| yields_bind yields_get <| yields_bind (a := old) (q := q5) ?_ <|
    yields_bind hdests <| yields_bind (yields_modify _) <| yields_bind hcommit <| yields_pure ..
  rw [show (q4.core (envOf s lc d).x.lc).held = none from hheld]
  exact hupd

/-- Settles O30: each row by its operations in turn; CAS by what `casDests` leaves to be written, XADD by whether the write of
operand 1 is answered first. -/
theorem atomicInstructions : Obligations.AtomicInstructions := by
  unfold Obligations.AtomicInstructions
  refine ⟨?_, ?_, ?_, ?_⟩
  · intro e he s lc f d q a m c q1 va q2 cin old q3 hbegins hop hlock hrep hform ha hcin hupd
    exact (runsElem_of_mem_lockRows he).completes hbegins hop hrep (bin3Elem_locked_yields hcin hform ha hupd)
  · intro e he s lc f d q m c q1 old q2 hbegins hop hlock hform hupd
    obtain ⟨mn, hexec⟩ := exec_of_mem_oneRows he
    exact completes_once hbegins (op1_of_eq hop) rfl (hexec lc f s) (bin1Elem_locked_yields hlock hform hupd)
  · intro s lc f d q a b v c q1 x q2 want q3 new q4 old q5 hbegins hop hform hread hskip hwant hnew hheld hupd
    refine ⟨?_, ?_, ?_⟩
    · intro va hhit ha
      exact (completes_cas hbegins hop hform hread hskip hwant hnew hheld hupd (casDests_hit_mem hhit ha)
        (commitDests_nil_yields ..)).imp fun t ht => ht.of_setCore
    · intro k v0 hhit ha
      have hdone := completes_cas hbegins hop hform hread hskip hwant hnew hheld hupd (casDests_hit_reg hhit ha)
        (commitDests_reg_yields ..)
      rw [gSet_psw] at hdone
      exact hdone.imp fun t ht => ht.of_setCore
    · intro dst q6 c' q7 hmiss hopen hcommit
      refine completes_cas hbegins hop hform hread hskip hwant hnew hheld hupd (casDests_miss hmiss hopen) ?_
      rwa [if_neg (mt beq_iff_eq.1 hmiss)]
  · intro s lc f d q a b c q1 x q2 add q3 db q4 upd da dst hbegins hop hform hread hskip hadd hopen hupd_eq hda hdst
    subst hupd_eq hda hdst
    refine ⟨?_, ?_⟩
    · intro old q5 c' q6 hchain hupd hcommit
      refine completes_once hbegins (op1_of_eq hop) rfl rfl <| yields_bind hform <| readVal_if_isWb_yields hread hskip <|
        yields_bind hadd <| yields_bind hopen <| yields_if_neg (Bool.eq_false_iff.1 hchain) <| yields_bind
          (undoOnTrap_yields <| yields_bind hupd <| yields_bind (a := c') (q := q6) ?_ <| yields_pure ..) <| yields_pure ..
      rw [if_neg (Bool.eq_false_iff.1 hchain)]
      exact hcommit
    · intro old0 c0 q5 old q6 c' q7 hchain hpeek hanswer hupd hcommit
      refine completes_once hbegins (op1_of_eq hop) rfl rfl <| yields_bind hform <| readVal_if_isWb_yields hread hskip <|
        yields_bind hadd <| yields_bind hopen <| yields_if_pos hchain <| yields_bind hpeek <| yields_bind hanswer <| yields_bind
          (undoOnTrap_yields <| yields_bind hupd <| yields_bind (a := c') (q := q7) ?_ <| yields_pure ..) <| yields_pure ..
      rw [if_pos hchain]
      exact hcommit

end Sys2Proof.Machine
end

section
/-! Rows that run one element once, and that REP does not repeat. -/

namespace Sys2Proof.Machine

/-- The row of opcode `op` runs one element, which REP does not repeat. -/
def RunsOnce (op : Nat) (row : CpuRow) (el : Elem) : Prop :=
  ∃ mn, ∀ lc f s, exec (row lc f) s = runCpu lc f mn (op1 op) anyLevel (onceBody el) s

section
variable {op : Nat} {row : CpuRow} {el : Elem} {s : State} {lc : Lc} {f : Fetch} {d : Decoded} {q r : Pkg}
  (hel : RunsOnce op row el) (hbegins : Begins s lc f d q) (hop : d.op = op)
include hel hbegins hop

theorem RunsOnce.completes {k : Core} {t : Tally} (h : Yields (el (envOf s lc d) (s.pkg.core lc)) q (k, t) r) :
    Completes (row lc f) s (Ends s lc r k (envOf s lc d).next) := by
  obtain ⟨mn, hexec⟩ := hel
  exact completes_once hbegins (op1_of_eq hop) rfl (hexec lc f s) h

theorem RunsOnce.stops {st : Stop} (h : Stops (el (envOf s lc d) (s.pkg.core lc)) q st r) :
    exec (row lc f) s = .next (stopInstr s lc d.len r st) := by
  obtain ⟨mn, hexec⟩ := hel
  exact stops_once hbegins (op1_of_eq hop) rfl (hexec lc f s) h

end

end Sys2Proof.Machine
end

section
/-! Division and remainder (R92, R129). -/

namespace Sys2Proof.Machine

/-! ### Signed overflow -/

section
variable {n : Nat}

/-- A bit vector stands for an integer of its signed range. -/
theorem outside_toInt (a : BitVec n) : outside n a.toInt = false := by
  rw [outside_eq, decide_eq_false (not_le.2 BitVec.toInt_lt), decide_eq_false (not_lt.2 (BitVec.le_toInt a))]
  rfl

/-- Only the most negative value has a quotient out of range, by −1 (R129). -/
theorem divFlags_no_overflow {a b : BitVec n} (h : ¬(a = BitVec.intMin n ∧ b = BitVec.allOnes n)) :
    (divFlags n a.toNat b.toNat).v = false := by
  rw [← BitVec.neg_one_eq_allOnes] at h
  have hquot := BitVec.toInt_sdiv_of_ne_or_ne a b (not_and_or.1 h)
  show outside n ((toInt n a.toNat).tdiv (toInt n b.toNat)) = false
  rw [toInt_toNat, toInt_toNat, ← hquot, outside_toInt]

variable (hn : 0 < n)
include hn

theorem toInt_allOnes_of_pos : (BitVec.allOnes n).toInt = -1 := by rw [BitVec.toInt_allOnes, if_pos hn]

theorem divFlags_overflow : (divFlags n (BitVec.intMin n).toNat (BitVec.allOnes n).toNat).v = true := by
  show outside n ((toInt n _).tdiv (toInt n _)) = true
  rw [toInt_toNat, toInt_toNat, BitVec.toInt_intMin_of_pos hn, toInt_allOnes_of_pos hn, Int.tdiv_neg, Int.tdiv_one, neg_neg,
    outside_eq, decide_eq_true (le_refl _), Bool.true_or]

theorem remFlags_intMin : (remFlags n (BitVec.intMin n).toNat (BitVec.allOnes n).toNat).r = 0 := by
  rw [remFlags, toInt_toNat, toInt_toNat, toInt_allOnes_of_pos hn, Int.tmod_neg, Int.tmod_one]
  simp [binRes, ofInt]

end

/-- Division at the edge of the signed range and inside it (R129). -/
theorem divisionResults {n : Nat} (hn : 0 < n) :
    (divFlags n (2 ^ (n - 1)) (2 ^ n - 1)).r = 2 ^ (n - 1) ∧ (divFlags n (2 ^ (n - 1)) (2 ^ n - 1)).v = true ∧
    (remFlags n (2 ^ (n - 1)) (2 ^ n - 1)).r = 0 ∧
    ∀ a b : BitVec n, b ≠ 0 → ¬ (a = BitVec.intMin n ∧ b = BitVec.allOnes n) → (divFlags n a.toNat b.toNat).v = false := by
  have hquot := divFlags_bitVec (BitVec.intMin n) (BitVec.allOnes n)
  rw [← BitVec.neg_one_eq_allOnes, BitVec.intMin_sdiv_neg_one, BitVec.neg_one_eq_allOnes] at hquot
  rw [← BitVec.toNat_intMin_of_pos hn, ← BitVec.toNat_allOnes]
  exact ⟨hquot, divFlags_overflow hn, remFlags_intMin hn, fun _ _ _ => divFlags_no_overflow⟩

/-! ### The rows -/

theorem runsOnce_of_mem_divideRows {e : Nat × CpuRow × (Nat → Nat → Nat → BinRes)} (he : e ∈ divideRows) :
    RunsOnce e.1 e.2.1 (divElem e.2.2) := by
  simp only [divideRows, List.mem_cons, List.not_mem_nil, or_false] at he
  rcases he with rfl | rfl | rfl | rfl <;> exact ⟨_, fun _ _ _ => rfl⟩

theorem divisionCompletes : divisionCompletesClaim := by
  unfold divisionCompletesClaim
  intro e he s lc f d q a b w c q1 va q2 vb q3 hbegins hop hform ha hb
  have hel := runsOnce_of_mem_divideRows he
  refine ⟨fun r c' q4 hvb hr hw => ?_, fun hvb => ?_⟩
  · subst hr
    exact hel.completes hbegins hop (yields_bind hform <| yields_bind ha <| yields_bind hb <| yields_if_neg hvb <|
      yields_bind hw <| yields_pure ..)
  · exact hel.stops hbegins hop (stops_bind hform <| stops_bind ha <| stops_bind hb <| stops_if_pos hvb <| stops_trap _)

/-- Settles O26: the trap comes between the reads and the write, and only −2^(n−1) by −1 leaves the signed range. -/
theorem divisionFollowsItsRule : Obligations.DivisionFollowsItsRule := by
  unfold Obligations.DivisionFollowsItsRule
  exact ⟨divisionCompletes, fun n hn => divisionResults (by omega)⟩

end Sys2Proof.Machine
end

section
/-! Shifts and rotates (R130). -/

namespace Sys2Proof.Machine

/-! ### Results as bit vectors -/

/-- A result with Z and N from it, C as given, and V cleared (R88, R130). -/
def bitsRes {n : Nat} (r : BitVec n) (c : Bool) : BinRes := { r := r.toNat, z := r == 0, n := r.msb, c := c, v := false }

section
variable {n : Nat} (a : BitVec n)

theorem bitsRes_z (c : Bool) : (bitsRes a c).z = ((bitsRes a c).r == 0) := by
  rw [Bool.eq_iff_iff, bitsRes, beq_iff_eq, beq_iff_eq, ← BitVec.toNat_inj]
  rfl

theorem bitsRes_n (c : Bool) : (bitsRes a c).n = (BitVec.ofNat n (bitsRes a c).r).msb := by
  rw [bitsRes, BitVec.ofNat_toNat, BitVec.setWidth_eq]

/-- What the flags of a shifted value say, and that a count of 0 leaves the value (R88, R130). -/
theorem bitsRes_flags {k : Nat} {r : BitVec n} (hzero : k = 0 → r = a) (c : Bool) : (bitsRes r c).z = ((bitsRes r c).r == 0) ∧
    (bitsRes r c).n = (BitVec.ofNat n (bitsRes r c).r).msb ∧ (k = 0 → (bitsRes r c).r = a.toNat ∧ (bitsRes r c).v = false) :=
  ⟨bitsRes_z r c, bitsRes_n r c, fun hk => ⟨congrArg BitVec.toNat (hzero hk), rfl⟩⟩

/-- A count of 0 leaves the value and clears C; any other gives the result and the last bit shifted out (R130). -/
theorem ite_count_eq_bitsRes {k x : Nat} {r : BitVec n} {c c' : Bool} (hzero : k = 0 → r = a)
    (hx : k ≠ 0 → x % 2 ^ n = r.toNat) (hc : k ≠ 0 → c' = c) :
    (if k = 0 then logicFlags n a.toNat else binRes n x c' false) = bitsRes r (decide (k ≠ 0) && c) := by
  split
  case isTrue hk => rw [logicFlags_bitVec, hzero hk, hk]; rfl
  case isFalse hk => rw [binRes_of_toNat (hx hk), hc hk, decide_eq_true hk]; rfl

theorem div_two_pow_mod_two (i : Nat) : (a.toNat / 2 ^ i % 2 == 1) = a.getLsbD i := by
  rw [← BitVec.testBit_toNat, Nat.testBit_eq_decide_div_mod_eq]
  rfl

/-! ### Shifts -/

variable (cnt : Nat)

theorem shlFlags_bitVec : shlFlags n a.toNat cnt =
    bitsRes (a <<< (cnt % n)) (decide (cnt % n ≠ 0) && a.getLsbD (n - cnt % n)) := by
  refine ite_count_eq_bitsRes a (fun hk => by rw [hk, BitVec.shiftLeft_zero]) (fun _ => ?_) fun _ => div_two_pow_mod_two a _
  rw [BitVec.toNat_shiftLeft, Nat.shiftLeft_eq]

theorem shrFlags_bitVec : shrFlags n a.toNat cnt =
    bitsRes (a >>> (cnt % n)) (decide (cnt % n ≠ 0) && a.getLsbD (cnt % n - 1)) := by
  refine ite_count_eq_bitsRes a (fun hk => by rw [hk, BitVec.ushiftRight_zero]) (fun _ => ?_) fun _ => div_two_pow_mod_two a _
  rw [← Nat.shiftRight_eq_div_pow, ← BitVec.toNat_ushiftRight, Nat.mod_eq_of_lt (BitVec.isLt _)]

theorem sarFlags_bitVec : sarFlags n a.toNat cnt =
    bitsRes (a.sshiftRight (cnt % n)) (decide (cnt % n ≠ 0) && a.getLsbD (cnt % n - 1)) := by
  refine ite_count_eq_bitsRes a (fun hk => by rw [hk, BitVec.sshiftRight_zero]) (fun _ => ?_) fun _ => div_two_pow_mod_two a _
  have hshift : toInt n a.toNat / 2 ^ (cnt % n) = (a.sshiftRight (cnt % n)).toInt := by
    rw [toInt_toNat, BitVec.toInt_sshiftRight, Int.shiftRight_eq_div_pow]
    norm_cast
  rw [hshift, ofInt_toInt, Nat.mod_eq_of_lt (BitVec.isLt _)]

/-! ### Rotates -/

/-- The two parts of a rotated value do not overlap, so that their union is their sum. -/
theorem rotated_parts {i j x : Nat} (hx : x < 2 ^ (j + i)) :
    x <<< i % 2 ^ (j + i) ||| x >>> j = x % 2 ^ j * 2 ^ i + x / 2 ^ j := by
  rw [Nat.pow_add] at hx ⊢
  rw [Nat.shiftLeft_eq, Nat.mul_mod_mul_right, Nat.shiftRight_eq_div_pow, ← Nat.shiftLeft_eq,
    ← Nat.shiftLeft_add_eq_or_of_lt (Nat.div_lt_of_lt_mul hx)]

theorem toNat_rotateLeft_of_lt {k : Nat} (h : k < n) :
    (a.rotateLeft k).toNat = a.toNat * 2 ^ k % 2 ^ n + a.toNat / 2 ^ (n - k) := by
  have hparts := rotated_parts (i := k) (j := n - k) (x := a.toNat)
  rw [Nat.sub_add_cancel h.le] at hparts
  rw [BitVec.toNat_rotateLeft, Nat.mod_eq_of_lt h, hparts a.isLt, ← Nat.mul_mod_mul_right, ← Nat.pow_add,
    Nat.sub_add_cancel h.le]

theorem toNat_rotateRight_of_lt {k : Nat} (h : k < n) :
    (a.rotateRight k).toNat = a.toNat / 2 ^ k + a.toNat % 2 ^ k * 2 ^ (n - k) := by
  have hparts := rotated_parts (i := n - k) (j := k) (x := a.toNat)
  rw [Nat.add_sub_cancel' h.le] at hparts
  rw [BitVec.toNat_rotateRight, Nat.mod_eq_of_lt h, Nat.lor_comm, hparts a.isLt, Nat.add_comm]

theorem rotateLeft_zero : a.rotateLeft 0 = a := by
  rw [BitVec.rotateLeft_def, Nat.zero_mod, Nat.sub_zero, BitVec.shiftLeft_zero, BitVec.ushiftRight_eq_zero le_rfl,
    BitVec.or_zero]

theorem rotateRight_zero : a.rotateRight 0 = a := by
  rw [BitVec.rotateRight_def, Nat.zero_mod, Nat.sub_zero, BitVec.ushiftRight_zero, BitVec.shiftLeft_eq_zero le_rfl,
    BitVec.or_zero]

variable (hn : 0 < n)
include hn

theorem rolFlags_bitVec : rolFlags n a.toNat cnt =
    bitsRes (a.rotateLeft (cnt % n)) (decide (cnt % n ≠ 0) && a.getLsbD (n - cnt % n)) := by
  have hlt := Nat.mod_lt cnt hn
  simp only [rolFlags, ← toNat_rotateLeft_of_lt a hlt]
  refine ite_count_eq_bitsRes a (fun hk => by rw [hk, rotateLeft_zero]) (fun _ => Nat.mod_eq_of_lt (BitVec.isLt _))
    fun hk => ?_
  have hbit := div_two_pow_mod_two (a.rotateLeft (cnt % n)) 0
  rw [Nat.pow_zero, Nat.div_one] at hbit
  rw [hbit, BitVec.getLsbD_rotateLeft, Nat.mod_mod, decide_eq_true (Nat.pos_of_ne_zero hk), cond_true, Nat.add_zero]

theorem rorFlags_bitVec : rorFlags n a.toNat cnt =
    bitsRes (a.rotateRight (cnt % n)) (decide (cnt % n ≠ 0) && a.getLsbD (cnt % n - 1)) := by
  have hlt := Nat.mod_lt cnt hn
  simp only [rorFlags, ← toNat_rotateRight_of_lt a hlt, div_two_pow_mod_two]
  refine ite_count_eq_bitsRes a (fun hk => by rw [hk, rotateRight_zero]) (fun _ => Nat.mod_eq_of_lt (BitVec.isLt _))
    fun hk => ?_
  have hhigh : ¬n - 1 < n - cnt % n := by omega
  rw [BitVec.getLsbD_rotateRight, Nat.mod_mod, decide_eq_false hhigh, cond_false, decide_eq_true (Nat.sub_lt hn Nat.one_pos),
    Bool.true_and, show n - 1 - (n - cnt % n) = cnt % n - 1 by omega]

end

theorem shiftResults_hold : shiftResults := by
  unfold shiftResults
  intro n a cnt k hwidth hk
  subst hk
  have hn : 0 < n := by omega
  rw [shlFlags_bitVec, shrFlags_bitVec, sarFlags_bitVec, rolFlags_bitVec a cnt hn, rorFlags_bitVec a cnt hn]
  refine ⟨rfl, rfl, rfl, rfl, rfl, ?_, fun hk => ?_, fun hk => ?_⟩
  · simp only [List.forall_mem_cons, List.not_mem_nil, false_implies, implies_true, and_true]
    exact ⟨bitsRes_flags a (fun hk => by rw [hk, BitVec.shiftLeft_zero]) _,
      bitsRes_flags a (fun hk => by rw [hk, BitVec.ushiftRight_zero]) _,
      bitsRes_flags a (fun hk => by rw [hk, BitVec.sshiftRight_zero]) _,
      bitsRes_flags a (fun hk => by rw [hk, rotateLeft_zero]) _, bitsRes_flags a (fun hk => by rw [hk, rotateRight_zero]) _⟩
  · simp [hk, bitsRes]
  · simp [hk, bitsRes]

/-! ### The rows -/

/-- A row of the shifts runs one element, whose result the carry flag does not enter. -/
theorem runsShift_of_mem {e : Nat × CpuRow × (Nat → Nat → Nat → Bool → BinRes)} (he : e ∈ threeRows.drop 11) :
    ∃ g, (∀ n a b cin, e.2.2 n a b cin = g n a b) ∧ RunsOnce e.1 e.2.1 (shiftElem g) := by
  simp only [threeRows, List.drop_succ_cons, List.drop_zero, List.mem_cons, List.not_mem_nil, or_false] at he
  rcases he with rfl | rfl | rfl | rfl | rfl <;> exact ⟨_, fun _ _ _ _ => rfl, _, fun _ _ _ => rfl⟩

theorem shiftRowsHold : threeRowsHold (threeRows.drop 11) := by
  unfold threeRowsHold
  intro e he s lc f d q a b w c q1 va q2 vb q3 r c' q4 hbegins hop _ _ hform ha hb hr hw
  obtain ⟨g, hg, hel⟩ := runsShift_of_mem he
  rw [hg] at hr
  subst hr
  exact hel.completes hbegins hop (yields_bind hform <| yields_bind ha <| yields_bind hb <| yields_bind hw <| yields_pure ..)

/-- Settles O28: the rows run one element each, and the results follow from those of bit vectors. -/
theorem shiftsFollowTheirRule : Obligations.ShiftsFollowTheirRule := by
  unfold Obligations.ShiftsFollowTheirRule
  exact ⟨shiftRowsHold, shiftResults_hold⟩

end Sys2Proof.Machine
end

section
/-! Instructions of two operands and of one, comparisons and moves (R116, R125 to R130). -/

namespace Sys2Proof.Machine

/-! ### Results and comparisons -/

theorem runsOnce_of_mem_twoRows {e : Nat × CpuRow × (Nat → Nat → BinRes)} (he : e ∈ twoRows) :
    RunsOnce e.1 e.2.1 (bin2Elem e.2.2) := by
  simp only [twoRows, List.mem_cons, List.not_mem_nil, or_false] at he
  rcases he with rfl | rfl | rfl | rfl | rfl | rfl <;> exact ⟨_, fun _ _ _ => rfl⟩

theorem runsOnce_of_mem_oneRows {e : Nat × CpuRow × Nat × (Nat → Nat → BinRes)} (he : e ∈ oneRows) :
    RunsOnce e.1 e.2.1 (bin1Elem e.2.2.1 e.2.2.2) := exec_of_mem_oneRows he

theorem runsOnce_of_mem_compareRows {e : Nat × CpuRow × (Nat → Nat → Nat → BinRes)} (he : e ∈ compareRows) :
    RunsOnce e.1 e.2.1 (cmpElem e.2.2) := by
  simp only [compareRows, List.mem_cons, List.not_mem_nil, or_false] at he
  rcases he with rfl | rfl <;> exact ⟨_, fun _ _ _ => rfl⟩

theorem twoOperandInstructions : twoOperandInstructionsClaim := by
  unfold twoOperandInstructionsClaim
  refine ⟨?_, ?_, ?_⟩
  · intro e he s lc f d q a w c q1 va q2 r c' q3 hbegins hop hform ha hr hw
    subst hr
    exact (runsOnce_of_mem_twoRows he).completes hbegins hop
      (yields_bind hform <| yields_bind ha <| yields_bind hw <| yields_pure ..)
  · intro e he s lc f d q m c q1 v q2 r c' q3 hbegins hop hlock hform hm hr hw
    subst hr
    rw [← lockUse_of_unlocked (e := envOf s lc d) hlock 0] at hform
    exact (runsOnce_of_mem_oneRows he).completes hbegins hop
      (yields_bind hform <| yields_if_neg (Bool.eq_false_iff.1 hlock) <| yields_bind hm <| yields_bind hw <| yields_pure ..)
  · intro e he s lc f d q a b c q1 va q2 vb q3 hbegins hop hform ha hb
    exact (runsOnce_of_mem_compareRows he).completes hbegins hop
      (yields_bind hform <| yields_bind ha <| yields_bind hb <| yields_pure ..)

/-! ### Moves -/

theorem runsMove_of_mem {e : Nat × CpuRow × (Rand → Nat → Nat)} (he : e ∈ moveRows) :
    RunsElem e.1 e.2.1 (moveElem fun _ => e.2.2) := by
  simp only [moveRows, List.mem_cons, List.not_mem_nil, or_false] at he
  rcases he with rfl | rfl | rfl <;> exact .rep fun _ _ _ => rfl

theorem moveInstructions : moveInstructionsClaim := by
  unfold moveInstructionsClaim
  refine ⟨?_, ?_, ?_, ?_, ?_⟩
  · intro s lc f d q hbegins hop
    exact completes_once hbegins (op1_of_eq hop) rfl rfl (yields_pure ..)
  · intro e he s lc f d q a w c q1 v q2 c' q3 hbegins hop hrep hform ha hw
    exact (runsMove_of_mem he).completes hbegins hop hrep
      (yields_bind hform <| yields_bind ha <| yields_bind hw <| yields_pure ..)
  · intro s lc f d q a w va c q1 c' q2 hbegins hop hform hloc hw
    obtain rfl := headD_va hloc
    exact completes_once hbegins (op1_of_eq hop) rfl rfl (yields_bind hform <| yields_bind hw <| yields_pure ..)
  · intro s lc f d q a b c q1 x q2 y q3 d1 q4 d0 q5 c' q6 hbegins hop hform ha hb hopenb hopena hcommit
    exact completes_once hbegins (op1_of_eq hop) rfl rfl (yields_bind hform <| yields_bind ha <| yields_bind hb <|
      yields_bind hopenb <| yields_bind hopena <| yields_bind hcommit <| yields_pure ..)
  · intro s lc f d q a c q1 c' q2 hbegins hop hrep hform hw
    exact (RunsElem.rep (row := .clr) fun _ _ _ => rfl).completes hbegins hop hrep
      (yields_bind hform <| yields_bind hw <| yields_pure ..)

/-- Settles O31: each row runs one element, whose operations the statement names in turn. -/
theorem twoOperandAndMoveInstructions : Obligations.TwoOperandAndMoveInstructions := by
  unfold Obligations.TwoOperandAndMoveInstructions
  exact ⟨twoOperandInstructions, moveInstructions⟩

end Sys2Proof.Machine
end

section
/-! Multiply-accumulate and floating-point instructions (R139 to R144). -/

namespace Sys2Proof.Machine

/-! ### Accumulators -/

section
variable (c : Core) (i v : Nat)

@[simp] theorem maSet_g : (c.maSet i v).g = c.g := by rw [Core.maSet]; split <;> rfl

@[simp] theorem maSet_psw : (c.maSet i v).psw = c.psw := by rw [Core.maSet]; split <;> rfl

/-- The accumulators after a write, as the list of their values. -/
theorem maSet_toList : (c.maSet i v).ma.toList = c.ma.toList.set i (BitVec.ofNat 128 v) := by
  rw [Core.maSet]
  split
  · rw [Vector.toList_set]
  · rw [List.set_eq_of_length_le (by rw [Vector.length_toList]; omega)]

theorem maGet_maSet_same {i : Nat} (h : i < 4) : (c.maSet i v).maGet i = v % 2 ^ 128 := by
  have hlen : i < (c.ma.toList.set i (BitVec.ofNat 128 v)).length := by rwa [List.length_set, Vector.length_toList]
  rw [Core.maGet, maSet_toList, List.getD_eq_getElem _ _ hlen, List.getElem_set_self, BitVec.toNat_ofNat]

theorem maGet_maSet_other {i j : Nat} (h : j ≠ i) : (c.maSet i v).maGet j = c.maGet j := by
  rw [Core.maGet, maSet_toList, List.getD_eq_getElem?_getD, List.getElem?_set_ne h.symm, ← List.getD_eq_getElem?_getD,
    Core.maGet]

end

/-! ### Multiply-accumulate -/

theorem runsMac_of_mem {e : Nat × CpuRow × (Nat → List Byte → List Byte → Nat × Sticky)} (he : e ∈ macRows) :
    RunsElem e.1 e.2.1 (macElem e.2.2) := by
  simp only [macRows, List.mem_cons, List.not_mem_nil, or_false] at he
  rcases he with rfl | rfl | rfl | rfl <;> exact .rep fun _ _ _ => rfl

theorem macInstructions : macInstructionsClaim := by
  unfold macInstructionsClaim
  refine ⟨?_, ?_, ?_, ?_, ?_⟩
  · intro e he s lc f d q a b m c q1 x q2 y q3 r hbegins hop hrep hform ha hb hr
    subst hr
    rw [← maSet_psw c m.spec.reg (e.2.2 (c.maGet m.spec.reg) x y).1]
    exact (runsMac_of_mem he).completes hbegins hop hrep
      (yields_bind hform <| yields_bind ha <| yields_bind hb <| yields_pure ..)
  · intro s lc f d q m c q1 hbegins hop hform
    exact completes_once hbegins (op1_of_eq hop) rfl rfl (yields_bind hform <| yields_pure ..)
  · intro s lc f d q m a va c q1 dev q2 ts q3 c' q4 hbegins hop hform hloc hcheck hopen hcommit
    obtain rfl := headD_va hloc
    exact completes_once hbegins (op1_of_eq hop) rfl rfl (yields_bind hform <| yields_bind hcheck <| yields_bind hopen <|
      yields_bind hcommit <| yields_pure ..)
  · intro s lc f d q m a va c q1 dev q2 b q3 hbegins hop hform hloc hcheck hread
    obtain rfl := headD_va hloc
    exact completes_once hbegins (op1_of_eq hop) rfl rfl (yields_bind hform <| yields_bind hcheck <| yields_bind hread <|
      yields_pure ..)
  · exact fun c i j v hi => ⟨maGet_maSet_same c v hi, fun hj => maGet_maSet_other c v hj, maSet_g .., maSet_psw ..⟩

/-! ### Floating point -/

theorem runsOnce_of_mem_float3Rows {e : Nat × CpuRow × (Nat → Nat → FpRes)} (he : e ∈ float3Rows) :
    RunsOnce e.1 e.2.1 (fp2Elem e.2.2) := by
  simp only [float3Rows, List.mem_cons, List.not_mem_nil, or_false] at he
  rcases he with rfl | rfl | rfl | rfl | rfl | rfl | rfl | rfl <;> exact ⟨_, fun _ _ _ => rfl⟩

theorem runsOnce_of_mem_float2Rows {e : Nat × CpuRow × Bool × (Nat → FpRes)} (he : e ∈ float2Rows) :
    RunsOnce e.1 e.2.1 (fp1Elem e.2.2.1 e.2.2.2) := by
  simp only [float2Rows, List.mem_cons, List.not_mem_nil, or_false] at he
  rcases he with rfl | rfl | rfl | rfl | rfl | rfl | rfl | rfl <;> exact ⟨_, fun _ _ _ => rfl⟩

theorem runsOnce_of_mem_floatCmpRows {e : Nat × CpuRow × Fmt} (he : e ∈ floatCmpRows) :
    RunsOnce e.1 e.2.1 (fcmpElem e.2.2) := by
  simp only [floatCmpRows, List.mem_cons, List.not_mem_nil, or_false] at he
  rcases he with rfl | rfl <;> exact ⟨_, fun _ _ _ => rfl⟩

theorem floatInstructions : floatInstructionsClaim := by
  unfold floatInstructionsClaim
  refine ⟨?_, ?_, ?_⟩
  · intro e he s lc f d q a b w c q1 x q2 y q3 c' q4 hbegins hop hform ha hb hw
    exact (runsOnce_of_mem_float3Rows he).completes hbegins hop
      (yields_bind hform <| yields_bind ha <| yields_bind hb <| yields_bind hw <| yields_pure ..)
  · intro e he s lc f d q a w c q1 x q2 c' q3 hbegins hop hform ha hw
    exact (runsOnce_of_mem_float2Rows he).completes hbegins hop
      (yields_bind hform <| yields_bind ha <| yields_bind hw <| yields_pure ..)
  · intro e he s lc f d q a b c q1 x q2 y q3 hbegins hop hform ha hb
    exact (runsOnce_of_mem_floatCmpRows he).completes hbegins hop
      (yields_bind hform <| yields_bind ha <| yields_bind hb <| yields_pure ..)

/-- Settles O35: each row runs one element, whose operations the statement names in turn; an accumulator is one value of the
file that `maSet` replaces. -/
theorem macAndFloatInstructions : Obligations.MacAndFloatInstructions := by
  unfold Obligations.MacAndFloatInstructions
  exact ⟨macInstructions, floatInstructions⟩

end Sys2Proof.Machine
end

section
/-! A cache is disabled, drained, enabled and invalidated; its corrected errors and the end of a way's sweep (R170 to R178). -/

namespace Sys2Proof.Machine

/-! ### The page of an array -/

/-- A block type that the hub does not hold has its pages on the dies, as many as the census gives (R25). -/
theorem blkOf_die {pg i : Nat} {b : Blk} (h : blkOf pg = some (b, i)) (hhub : ∀ e ∈ hubBlocks, e.2.2 ≠ b) :
    pg / 4096 < 12 ∧ ∃ first n, (first, n, b) ∈ dieBlocks ∧ i < n := by
  unfold blkOf at h
  dsimp only at h
  split at h
  case isTrue hdie =>
    obtain ⟨⟨first, n, b'⟩, hfind, heq⟩ := Option.map_eq_some_iff.1 h
    obtain ⟨rfl, rfl⟩ := Prod.mk.inj heq
    have hplace : first ≤ pg % 4096 ∧ pg % 4096 < first + n := by simpa using List.find?_some hfind
    exact ⟨hdie, first, n, List.mem_of_find?_eq_some hfind, Nat.sub_lt_left_of_lt_add hplace.1 hplace.2⟩
  case isFalse =>
    split at h
    · obtain ⟨e, hfind, heq⟩ := Option.map_eq_some_iff.1 h
      exact absurd (Prod.mk.inj heq).1 (hhub e (List.mem_of_find?_eq_some hfind))
    · cases h

/-- The arrays that have a page are numbered below 552, where those of the L3 end. -/
theorem lt_of_cacheOfPage {pg c : Nat} (h : cacheOfPage pg = some c) : c < 552 := by
  unfold cacheOfPage at h
  split at h
  case h_1 i hblk =>
    obtain ⟨hdie, first, n, hmem, hi⟩ := blkOf_die hblk (by decide)
    obtain ⟨-, rfl⟩ : first = 0x040 ∧ n = 20 := by simpa [dieBlocks] using hmem
    cases h
    simp only [cL1D]
    omega
  case h_2 k hblk =>
    obtain ⟨hdie, first, n, hmem, hk⟩ := blkOf_die hblk (by decide)
    obtain ⟨-, rfl⟩ : first = 0x030 ∧ n = 4 := by simpa [dieBlocks] using hmem
    cases h
    simp only [cL2]
    omega
  case h_3 r hblk =>
    obtain ⟨hdie, first, n, hmem, hr⟩ := blkOf_die hblk (by decide)
    obtain ⟨-, rfl⟩ : first = 0x020 ∧ n = 2 := by simpa [dieBlocks] using hmem
    cases h
    simp only [cL3]
    omega
  case h_4 => cases h

/-! ### Reading an array after an update -/

theorem cache_of_caches {p q : Pkg} (h : q.caches = p.caches) (c : Nat) : q.cache c = p.cache c := by
  rw [Pkg.cache, h, Pkg.cache]

section
variable (p : Pkg)

@[simp] theorem cache_setCache_same (c : Nat) (x : Cache) : (p.setCache c x).cache c = x := by
  simp [Pkg.cache, Pkg.setCache]

@[simp] theorem cache_setCache_other {c k : Nat} (x : Cache) (h : k ≠ c) : (p.setCache c x).cache k = p.cache k := by
  simp [Pkg.cache, Pkg.setCache, h]

@[simp] theorem cache_setRf (pg off hi lo v c : Nat) : (p.setRf pg off hi lo v).cache c = p.cache c :=
  cache_of_caches (setRf_caches ..) c
@[simp] theorem cache_addRf (pg off hi lo k c : Nat) : (p.addRf pg off hi lo k).cache c = p.cache c :=
  cache_of_caches (addRf_caches ..) c
@[simp] theorem cache_setEvent (pg b cls : Nat) (d : Det) (c : Nat) : (p.setEvent pg b cls d).cache c = p.cache c :=
  cache_of_caches (setEvent_caches ..) c
@[simp] theorem cache_logEvent (code origin : Nat) (lc pid : Option Nat) (pg : Nat) (detail : Word) (c : Nat) :
    (p.logEvent code origin lc pid pg detail).cache c = p.cache c :=
  cache_of_caches (logEvent_caches ..) c
@[simp] theorem cache_cmdPending (pg off c : Nat) : (p.cmdPending pg off).cache c = p.cache c :=
  cache_of_caches (cmdPending_caches ..) c
@[simp] theorem cache_cmdDone (pg off st c : Nat) : (p.cmdDone pg off st).cache c = p.cache c :=
  cache_of_caches (cmdDone_caches ..) c

@[simp] theorem rf_setCache (c : Nat) (x : Cache) (pg off hi lo : Nat) :
    (p.setCache c x).rf pg off hi lo = p.rf pg off hi lo := rfl
@[simp] theorem en_setCache (c : Nat) (x : Cache) (pg : Nat) : (p.setCache c x).en pg = p.en pg := rfl
@[simp] theorem busy_setCache (c : Nat) (x : Cache) (pg : Nat) : (p.setCache c x).busy pg = p.busy pg := rfl
@[simp] theorem blkState_setCache (c : Nat) (x : Cache) (pg : Nat) : (p.setCache c x).blkState pg = p.blkState pg := rfl

@[simp] theorem refreshLockstat_caches (c : Nat) : (p.refreshLockstat c).caches = p.caches := by
  unfold Pkg.refreshLockstat
  split
  · rfl
  · exact setReg_caches ..

@[simp] theorem refreshLockstat_hbm (c : Nat) : (p.refreshLockstat c).hbm = p.hbm := by
  unfold Pkg.refreshLockstat
  split
  · rfl
  · exact setReg_hbm ..

@[simp] theorem cache_refreshLockstat (c k : Nat) : (p.refreshLockstat c).cache k = p.cache k :=
  cache_of_caches (refreshLockstat_caches ..) k

@[simp] theorem cacheModify_hbm (c line : Nat) (f : CWay → CWay) : (p.cacheModify c line f).hbm = p.hbm := by
  unfold Pkg.cacheModify
  dsimp only
  split
  · rfl
  · exact setCache_hbm ..

/-- A change of a line changes no request that waits at an array. -/
@[simp] theorem invQueued_cacheModify (k line : Nat) (f : CWay → CWay) (c : Nat) :
    ((p.cacheModify k line f).cache c).invQueued = (p.cache c).invQueued := by
  unfold Pkg.cacheModify
  dsimp only
  split
  · rfl
  · by_cases h : c = k
    · subst h
      rw [cache_setCache_same]
      rfl
    · rw [cache_setCache_other _ _ h]

end

/-! ### Writing EN (R175, R177, R178) -/

section
variable {p : Pkg} {c : Nat} (hcan : canDisable c = true)
include hcan

theorem writeEn_disables (hen : p.en (cachePage c) = true) (href : p.enRefused c false = false)
    (hload : p.loadHold (cachePage c) = false) : p.writeEn c false =
      (((p.setRf (cachePage c) 0x018 0 0 0).setRf (cachePage c) 0x020 15 8 2).setRf (cachePage c) 0x020 4 4 1).setCache c
        { p.cache c with draining := true } := by
  simp [Pkg.writeEn, hcan, hen, href, hload]

theorem writeEn_enables (hen : p.en (cachePage c) = false) (href : p.enRefused c true = false)
    (hload : p.loadHold (cachePage c) = false) :
    p.writeEn c true = (p.setRf (cachePage c) 0x018 0 0 1).setRf (cachePage c) 0x020 15 8 1 := by
  simp [Pkg.writeEn, hcan, hen, href, hload]

theorem writeEn_refused {en : Bool} (hen : p.en (cachePage c) = !en) (href : p.enRefused c en = true) :
    p.writeEn c en = p.cmdWrong (cachePage c) 0x018 := by
  simp [Pkg.writeEn, hcan, hen, href]

end

/-- A refused write of EN changes the command status, and what the event of the refusal changes (R177). -/
theorem completes_writeEn_refused {s : State} {i : Instr} {c : Nat} {en : Bool}
    (hexec : exec i s = .next { s with pkg := s.pkg.writeEn c en }) (hcan : canDisable c = true)
    (hen : s.pkg.en (cachePage c) = !en) (href : s.pkg.enRefused c en = true) :
    Completes i s (fun t => OnlyPagesStw s t ∧ LastCmd t.pkg (cachePage c) 0x018 3) := by
  refine ⟨_, hexec, ?_⟩
  rw [writeEn_refused hcan hen href]
  exact ⟨onlyPagesStw_of_rest (rest_cmdWrong ..), lastCmd_cmdWrong _ (by decide)⟩

section
variable {s : State} {who : Requester} {pg : PageId} {c : Nat} (hcmd : s.pkg.commands who (pgOf pg) = true)
  (hc : cacheOfPage (pgOf pg) = some c)
include hcmd hc

theorem exec_cacheDisable : exec (.cacheDisable who pg) s = .next { s with pkg := s.pkg.writeEn c false } := by
  show execCacheDisable who pg s = _
  rw [execCacheDisable, State.upd, cmd_of_commands hcmd, hc]

theorem exec_cacheEnable : exec (.cacheEnable who pg) s = .next { s with pkg := s.pkg.writeEn c true } := by
  show execCacheEnable who pg s = _
  rw [execCacheEnable, State.upd, cmd_of_commands hcmd, hc]

theorem cacheDisable_disables (hcan : canDisable c = true) (hen : s.pkg.en (cachePage c) = true)
    (href : s.pkg.enRefused c false = false) (hload : s.pkg.loadHold (cachePage c) = false) :
    Completes (.cacheDisable who pg) s (fun t => t.pkg.en (cachePage c) = false ∧ t.pkg.blkState (cachePage c) = 2 ∧
      t.pkg.busy (cachePage c) = true ∧ t.pkg.cache c = { s.pkg.cache c with draining := true } ∧ t.pkg.hbm = s.pkg.hbm) := by
  refine ⟨_, exec_cacheDisable hcmd hc, ?_⟩
  rw [writeEn_disables hcan hen href hload]
  refine ⟨?en, ?state, ?busy, cache_setCache_same .., by simp only [setCache_hbm, setRf_hbm]⟩
  case en =>
    rw [en_setCache, Pkg.en, reg_setRf _ _ _ _ (Or.inr (by decide)), reg_setRf _ _ _ _ (Or.inr (by decide)), bit_setRf_same]
    rfl
  case state =>
    rw [blkState_setCache, Pkg.blkState, rf_setRf_fld _ _ _ _ (by decide) (by decide) (by decide) (by decide), rf_setRf_same]
    rfl
  case busy =>
    rw [busy_setCache, Pkg.busy, bit_setRf_same]
    rfl

theorem cacheEnable_enables (hcan : canDisable c = true) (hen : s.pkg.en (cachePage c) = false)
    (href : s.pkg.enRefused c true = false) (hload : s.pkg.loadHold (cachePage c) = false) :
    Completes (.cacheEnable who pg) s (fun t => OnlyPages s t ∧ t.pkg.en (cachePage c) = true ∧
      t.pkg.blkState (cachePage c) = 1) := by
  refine ⟨_, exec_cacheEnable hcmd hc, ?_⟩
  rw [writeEn_enables hcan hen href hload]
  refine ⟨onlyPages_of_rest (by rw [rest_setRf, rest_setRf]) (by rw [setRf_stw, setRf_stw]), ?en, ?state⟩
  case en =>
    rw [Pkg.en, reg_setRf _ _ _ _ (Or.inr (by decide)), bit_setRf_same]
    rfl
  case state =>
    rw [Pkg.blkState, rf_setRf_same]
    rfl

end

/-! ### Invalidating (R176) -/

section
variable {p : Pkg} {pg c : Nat} (hc : cacheOfPage pg = some c)
include hc

theorem invReq_refused (hst : p.blkState pg ≠ 2) : p.invReq pg = p.cmdWrong pg 0x018 := by
  rw [Pkg.invReq, hc]
  exact if_pos (Or.inr hst)

section
variable (hcan : canDisable c = true) (hst : p.blkState pg = 2) (hrun : (p.cache c).invRunning = false)
  (hqueued : (p.cache c).invQueued = false)
include hcan hst hrun hqueued

theorem invReq_starts (hdrain : (p.cache c).draining = false) : p.invReq pg = p.startInv c := by
  simp [Pkg.invReq, hc, hcan, hst, hrun, hqueued, hdrain]

theorem invReq_waits (hdrain : (p.cache c).draining = true) :
    p.invReq pg = (p.setCache c { p.cache c with invQueued := true }).cmdPending pg 0x018 := by
  simp [Pkg.invReq, hc, hcan, hst, hrun, hqueued, hdrain]

end
end

/-- What an invalidation that starts makes of the array. -/
theorem cache_startInv (p : Pkg) (c : Nat) :
    (p.startInv c).cache c = { p.cache c with invQueued := false, invRunning := true } := by
  rw [Pkg.startInv, cache_cmdPending, cache_setCache_same]

theorem startInv_hbm (p : Pkg) (c : Nat) : (p.startInv c).hbm = p.hbm := by
  rw [Pkg.startInv, cmdPending_hbm, setCache_hbm]

theorem invEnd_running {p : Pkg} {c : Nat} (h : (p.cache c).invRunning = true) : p.invEnd c =
    ((p.setCache c { p.cache c with sets := [], invRunning := false }).refreshLockstat c).cmdDone (cachePage c) 0x018 1 := by
  simp [Pkg.invEnd, h]

section
variable {s : State} {who : Requester} {pg : PageId} {c : Nat}

theorem exec_invreq (hcmd : s.pkg.commands who (pgOf pg) = true) :
    exec (.invreq who pg) s = .next { s with pkg := s.pkg.invReq (pgOf pg) } := by
  show execInvreq who pg s = _
  rw [execInvreq, State.upd, cmd_of_commands hcmd]

theorem exec_invreqComplete (hc : cacheOfPage (pgOf pg) = some c) :
    exec (.invreqComplete pg) s = .next { s with pkg := s.pkg.invEnd c } := by
  show execInvreqComplete pg s = _
  rw [execInvreqComplete, State.upd, hc]

section
variable (hcmd : s.pkg.commands who (pgOf pg) = true) (hc : cacheOfPage (pgOf pg) = some c)
include hcmd hc

theorem invreq_refused (hst : s.pkg.blkState (pgOf pg) ≠ 2) :
    Completes (.invreq who pg) s (fun t => t.pkg.caches = s.pkg.caches ∧ LastCmd t.pkg (pgOf pg) 0x018 3) := by
  refine ⟨_, exec_invreq hcmd, ?_⟩
  rw [invReq_refused hc hst]
  exact ⟨cmdWrong_caches .., lastCmd_cmdWrong _ (by decide)⟩

section
variable (hcan : canDisable c = true) (hst : s.pkg.blkState (pgOf pg) = 2) (hrun : (s.pkg.cache c).invRunning = false)
  (hqueued : (s.pkg.cache c).invQueued = false)
include hcan hst hrun hqueued

theorem invreq_starts (hdrain : (s.pkg.cache c).draining = false) :
    Completes (.invreq who pg) s (fun t => t.pkg.cache c = { s.pkg.cache c with invRunning := true } ∧
      LastCmd t.pkg (cachePage c) 0x018 2 ∧ t.pkg.busy (cachePage c) = true) := by
  refine ⟨_, exec_invreq hcmd, ?_⟩
  rw [invReq_starts hc hcan hst hrun hqueued hdrain]
  refine ⟨?_, lastCmd_cmdPending _ (by decide), busy_cmdPending ..⟩
  rw [cache_startInv, ← hqueued]

theorem invreq_waits (hdrain : (s.pkg.cache c).draining = true) :
    Completes (.invreq who pg) s (fun t => t.pkg.cache c = { s.pkg.cache c with invQueued := true } ∧
      LastCmd t.pkg (pgOf pg) 0x018 2) := by
  refine ⟨_, exec_invreq hcmd, ?_⟩
  rw [invReq_waits hc hcan hst hrun hqueued hdrain]
  exact ⟨by rw [cache_cmdPending, cache_setCache_same], lastCmd_cmdPending _ (by decide)⟩

end
end

theorem invreqComplete_empties (hc : cacheOfPage (pgOf pg) = some c) (hrun : (s.pkg.cache c).invRunning = true) :
    Completes (.invreqComplete pg) s (fun t => (t.pkg.cache c).sets = [] ∧ (t.pkg.cache c).invRunning = false ∧
      LastCmd t.pkg (cachePage c) 0x018 1 ∧ t.pkg.hbm = s.pkg.hbm) := by
  refine ⟨_, exec_invreqComplete hc, ?_⟩
  dsimp only
  rw [invEnd_running hrun, cache_cmdDone, cache_refreshLockstat, cache_setCache_same]
  exact ⟨rfl, rfl, lastCmd_cmdDone _ (by decide) (by decide), by rw [cmdDone_hbm, refreshLockstat_hbm, setCache_hbm]⟩

end

/-! ### The end of a drain (R175) -/

/-- The array that takes the dirty line `l` of array `c`: an L1's L2, an L2's slice of the L3. -/
def nextLevel (c l : Nat) : Nat := if c < 480 then cL2 (clusterOf (cacheUnit c)) else cL3 (cacheDie c * 2 + sliceOf l)

/-- The package when the dirty lines of an array stand dirty at the next level. -/
def Pkg.writtenBack (p : Pkg) (c : Nat) : Pkg :=
  ((p.cache c).sets.flatMap (fun e => (e.2.ways.filter (fun w => w.2.valid && w.2.dirty)).map (·.2.line))).foldl
    (fun p l => p.cacheModify (nextLevel c l) l (fun w => { w with dirty := true })) p

/-- An array with its contents kept, clean and perhaps stale. -/
def Cache.cleaned (x : Cache) : Cache :=
  { x with draining := false, sets := x.sets.map (fun e => (e.1, { e.2 with ways := e.2.ways.map (fun w =>
      (w.1, { w.2 with dirty := false, stale := w.2.valid })) })) }

/-- The package at the end of a drain, before its command ends: an L2 has invalidated the L1Is that it serves. -/
def Pkg.afterDrain (p : Pkg) (c : Nat) : Pkg :=
  let q := (p.writtenBack c).setCache c ((p.writtenBack c).cache c).cleaned
  if 480 ≤ c then (l2Units c).foldl (fun p u => p.setCache (cL1I u) Cache.empty) q else q

/-- An end of a drain ends its command, and starts the invalidation that waits for it (R176). -/
theorem drainEnd_draining {p : Pkg} {c : Nat} (h : (p.cache c).draining = true) : p.drainEnd c =
    if ((p.afterDrain c).cache c).invQueued then ((p.afterDrain c).cmdDone (cachePage c) 0x018 1).startInv c
    else (p.afterDrain c).cmdDone (cachePage c) 0x018 1 := by
  rw [Pkg.drainEnd, h]
  rfl

theorem drainEnd_idle {p : Pkg} {c : Nat} (h : (p.cache c).draining = false) : p.drainEnd c = p := by
  simp [Pkg.drainEnd, h]

theorem dirty_of_mem_cleaned {x : Cache} {e : Nat × CSet} (he : e ∈ x.cleaned.sets) {w : Nat × CWay} (hw : w ∈ e.2.ways) :
    w.2.dirty = false := by
  obtain ⟨e', -, rfl⟩ := List.mem_map.1 he
  obtain ⟨w', -, rfl⟩ := List.mem_map.1 hw
  rfl

/-- The L1Is that an L2 serves come before every L2 and L3. -/
theorem cL1I_ne_of_mem_l2Units {c u : Nat} (hc : 480 ≤ c) (hlt : c < 552) (hu : u ∈ l2Units c) : c ≠ cL1I u := by
  obtain ⟨i, hi, rfl⟩ := List.mem_map.1 hu
  have hi := List.mem_range.1 hi
  simp only [cL1I]
  omega

section
variable (p : Pkg)

theorem writtenBack_hbm (c : Nat) : (p.writtenBack c).hbm = p.hbm :=
  foldl_keeps Pkg.hbm (fun _ _ => cacheModify_hbm ..) _ _

theorem invQueued_writtenBack (c : Nat) : ((p.writtenBack c).cache c).invQueued = (p.cache c).invQueued :=
  foldl_keeps (fun q : Pkg => (q.cache c).invQueued) (fun _ _ => invQueued_cacheModify ..) _ _

theorem afterDrain_hbm (c : Nat) : (p.afterDrain c).hbm = p.hbm := by
  have hq : ((p.writtenBack c).setCache c ((p.writtenBack c).cache c).cleaned).hbm = p.hbm := writtenBack_hbm p c
  unfold Pkg.afterDrain
  dsimp only
  split
  · exact (foldl_keeps Pkg.hbm (fun _ _ => setCache_hbm ..) _ _).trans hq
  · exact hq

theorem cache_afterDrain {c : Nat} (hlt : c < 552) : (p.afterDrain c).cache c = ((p.writtenBack c).cache c).cleaned := by
  unfold Pkg.afterDrain
  dsimp only
  split
  case isTrue hl2 =>
    have hunits := foldl_keeps_mem (f := fun (p : Pkg) (u : Nat) => p.setCache (cL1I u) Cache.empty) (fun q => q.cache c)
      (l := l2Units c) fun q u hu => cache_setCache_other q _ (cL1I_ne_of_mem_l2Units hl2 hlt hu)
    rw [hunits, cache_setCache_same]
  case isFalse => exact cache_setCache_same ..

theorem invQueued_afterDrain {c : Nat} (hlt : c < 552) : ((p.afterDrain c).cache c).invQueued = (p.cache c).invQueued := by
  rw [cache_afterDrain p hlt]
  exact invQueued_writtenBack p c

end

section
variable {s : State} {pg : PageId} {c : Nat} (hc : cacheOfPage (pgOf pg) = some c)
include hc

theorem exec_cacheDrainComplete : exec (.cacheDrainComplete pg) s = .next { s with pkg := s.pkg.drainEnd c } := by
  show execCacheDrainComplete pg s = _
  rw [execCacheDrainComplete, State.upd, hc]

theorem cacheDrainComplete_idle (hdrain : (s.pkg.cache c).draining = false) : exec (.cacheDrainComplete pg) s = .next s := by
  rw [exec_cacheDrainComplete hc, drainEnd_idle hdrain]

theorem cacheDrainComplete_cleans (hdrain : (s.pkg.cache c).draining = true) (hqueued : (s.pkg.cache c).invQueued = false) :
    Completes (.cacheDrainComplete pg) s (fun t => (t.pkg.cache c).draining = false ∧ LastCmd t.pkg (cachePage c) 0x018 1 ∧
      t.pkg.busy (cachePage c) = false ∧ t.pkg.hbm = s.pkg.hbm ∧
      ∀ e ∈ (t.pkg.cache c).sets, ∀ w ∈ e.2.ways, w.2.dirty = false) := by
  have hlt := lt_of_cacheOfPage hc
  refine ⟨_, exec_cacheDrainComplete hc, ?_⟩
  dsimp only
  rw [drainEnd_draining hdrain, if_neg (by simp [invQueued_afterDrain _ hlt, hqueued]), cache_cmdDone, cache_afterDrain _ hlt]
  exact ⟨rfl, lastCmd_cmdDone _ (by decide) (by decide), busy_cmdDone .., (cmdDone_hbm ..).trans (afterDrain_hbm ..),
    fun _ he _ hw => dirty_of_mem_cleaned he hw⟩

theorem cacheDrainComplete_invalidates (hdrain : (s.pkg.cache c).draining = true)
    (hqueued : (s.pkg.cache c).invQueued = true) :
    Completes (.cacheDrainComplete pg) s (fun t => (t.pkg.cache c).draining = false ∧ (t.pkg.cache c).invRunning = true ∧
      (t.pkg.cache c).invQueued = false ∧ t.pkg.hbm = s.pkg.hbm) := by
  have hlt := lt_of_cacheOfPage hc
  refine ⟨_, exec_cacheDrainComplete hc, ?_⟩
  dsimp only
  rw [drainEnd_draining hdrain, if_pos (by rw [invQueued_afterDrain _ hlt, hqueued]), cache_startInv, cache_cmdDone,
    cache_afterDrain _ hlt]
  exact ⟨rfl, rfl, rfl, (startInv_hbm ..).trans ((cmdDone_hbm ..).trans (afterDrain_hbm ..))⟩

end

/-! ### Errors and sweeps of ways (R170 to R174) -/

/-- A corrected error of an L2 or an L3 sets its event and is counted against the way. -/
theorem cacheErr_corrected (p : Pkg) {c : Nat} (way line : Nat) (h : 480 ≤ c) :
    ∃ d, p.cacheErr c way line .corrected = (p.setEvent (cachePage c) 16 1 d).wayCe c way := by
  unfold Pkg.cacheErr
  dsimp only
  generalize Option.map _ _ = here
  cases here with
  | none => exact ⟨_, if_neg (by simpa using h)⟩
  | some x => exact ⟨_, if_neg (by simpa using h)⟩

/-- An error that comes with fewer than three earlier ones is counted and disables no way (R171). -/
theorem wayCe_first {p : Pkg} {c w : Nat} (h : (tblGet (fun _ => []) (p.cache c).ces w).length < 3) :
    ∃ ces, p.wayCe c w = (p.addRf (cachePage c) (0x210 + w / 4 * 8) (w % 4 * 16 + 15) (w % 4 * 16) 1).setCache c
      { p.cache c with ces := ces } := by
  have htrip : ¬3 ≤ (tblGet (fun _ => []) (p.cache c).ces w).length := by omega
  simp only [Pkg.wayCe, cache_addRf, htrip, decide_false, Bool.false_and, Bool.false_eq_true, if_false]
  exact ⟨_, rfl⟩

theorem exec_cacheError {s : State} {pg : PageId} {c : Nat} (e : CacheError) (way : Fin 16) (line : Nat)
    (hans : s.pkg.answers (pgOf pg) = true) (hload : s.pkg.loadHold (pgOf pg) = false)
    (hc : cacheOfPage (pgOf pg) = some c) :
    exec (.cacheError pg e way line) s = .next { s with pkg := s.pkg.cacheErr (errArray c e) way.val line e } := by
  show execCacheError pg e way line s = _
  rw [execCacheError, State.upd, if_pos ⟨hans, hload⟩, hc]

theorem cacheError_loadHold {s : State} {pg : PageId} (e : CacheError) (way : Fin 16) (line : Nat)
    (hload : s.pkg.loadHold (pgOf pg) = true) : exec (.cacheError pg e way line) s = .next s := by
  show execCacheError pg e way line s = _
  rw [execCacheError, State.upd, if_neg (by simp [hload])]

theorem cacheError_counts {s : State} {pg : PageId} {c : Nat} {way : Fin 16} (line : Nat)
    (hans : s.pkg.answers (pgOf pg) = true) (hload : s.pkg.loadHold (pgOf pg) = false)
    (hc : cacheOfPage (pgOf pg) = some c) (hl2 : 480 ≤ c)
    (hfew : (tblGet (fun _ => []) (s.pkg.cache c).ces way.val).length < 3) :
    Completes (.cacheError pg .corrected way line) s (fun t =>
      t.pkg.rf (cachePage c) (0x210 + way.val / 4 * 8) (way.val % 4 * 16 + 15) (way.val % 4 * 16) =
        min (s.pkg.rf (cachePage c) (0x210 + way.val / 4 * 8) (way.val % 4 * 16 + 15) (way.val % 4 * 16) + 1) 65535 ∧
      (t.pkg.cache c).sets = (s.pkg.cache c).sets ∧ t.pkg.hbm = s.pkg.hbm) := by
  refine ⟨_, exec_cacheError _ way line hans hload hc, ?_⟩
  obtain ⟨d, herr⟩ := cacheErr_corrected s.pkg way.val line hl2
  obtain ⟨ces, hcount⟩ := wayCe_first (p := s.pkg.setEvent (cachePage c) 16 1 d) (by rwa [cache_setEvent])
  rw [show errArray c .corrected = c from rfl, herr, hcount]
  refine ⟨?count, by rw [cache_setCache_same, cache_setEvent], by rw [setCache_hbm, addRf_hbm, setEvent_hbm]⟩
  case count =>
    have hwidth : way.val % 4 * 16 + 15 + 1 - way.val % 4 * 16 = 16 := by omega
    rw [rf_setCache, rf_addRf_same _ _ _ _ (by omega) (by omega), hwidth, Pkg.rf,
      reg_setEvent _ _ _ _ (Or.inr ⟨by omega, by omega⟩)]
    rfl

/-- The package when the lines of a way have left. -/
def Pkg.wayLeft (p : Pkg) (c way : Nat) : Pkg := (p.wayLines c way).foldl (fun p e => p.leaveArray c e.1) p

/-- The sweep of a way that errors disabled (`tag` below 16) ends: WAYDIS and AUTODIS of the way are set, and both the page and
the log take the event (R172, R174). -/
theorem waySwept_autodis {p : Pkg} {c way tag : Nat}
    (hfind : (p.cache c).sweep.find? (fun t => t % 16 == way) = some tag) (htag : tag < 16) :
    ∃ d, p.waySwept c way =
      (((((p.wayLeft c way).setCache c
          { (p.wayLeft c way).cache c with sweep := ((p.wayLeft c way).cache c).sweep.filter (· != tag) }).setRf
        (cachePage c) 0x200 way way 1).setRf (cachePage c) 0x200 (16 + way) (16 + way) 1).setEvent
        (cachePage c) 18 1 d).logEvent 0x04 0 none none (cachePage c) (BitVec.ofNat 64 way) := by
  rw [Pkg.waySwept, hfind]
  exact ⟨_, if_neg (by omega)⟩

theorem exec_waySweepComplete {s : State} {pg : PageId} {c : Nat} (way : Fin 16) (hc : cacheOfPage (pgOf pg) = some c) :
    exec (.waySweepComplete pg way) s = .next { s with pkg := s.pkg.waySwept c way.val } := by
  show execWaySweepComplete pg way s = _
  rw [execWaySweepComplete, State.upd, hc]

theorem waySweepComplete_disables {s : State} {pg : PageId} {c : Nat} {way : Fin 16} {tag : Nat}
    (hc : cacheOfPage (pgOf pg) = some c) (hfind : (s.pkg.cache c).sweep.find? (fun t => t % 16 == way.val) = some tag)
    (htag : tag < 16) :
    Completes (.waySweepComplete pg way) s (fun t => t.pkg.rf (cachePage c) 0x200 way.val way.val = 1 ∧
      t.pkg.rf (cachePage c) 0x200 (16 + way.val) (16 + way.val) = 1 ∧ tag ∉ (t.pkg.cache c).sweep ∧
      ∃ e, t.pkg.stw.events.head? = some e ∧ e.code = 0x04) := by
  refine ⟨_, exec_waySweepComplete way hc, ?_⟩
  obtain ⟨d, hswept⟩ := waySwept_autodis hfind htag
  dsimp only
  rw [hswept]
  -- WAYSTAT lies apart from the registers that the event and its record write
  have hreg : ∀ q : Pkg, ((q.setEvent (cachePage c) 18 1 d).logEvent 0x04 0 none none (cachePage c)
      (BitVec.ofNat 64 way.val)).reg (cachePage c) 0x200 = q.reg (cachePage c) 0x200 := fun q => by
    rw [reg_logEvent _ _ _ _ _ _ _ (Or.inr (by decide)), reg_setEvent _ _ _ _ (Or.inr (by decide))]
  refine ⟨?waydis, ?autodis, ?sweep, ?event⟩
  case waydis =>
    rw [Pkg.rf, hreg, ← Pkg.rf, rf_setRf_fld _ _ _ _ (Nat.le_refl _) (by omega) (Nat.le_refl _) (by omega),
      rf_setRf_same _ _ _ _ (Nat.le_refl _) (by omega)]
    simp
  case autodis =>
    rw [Pkg.rf, hreg, ← Pkg.rf, rf_setRf_same _ _ _ _ (Nat.le_refl _) (by omega)]
    simp
  case sweep => simp
  case event => simp [Pkg.logRec]

/-- Settles O43: each row is one operation on an array and its page (`Pkg.writeEn`, `Pkg.invReq`, `Pkg.drainEnd`, `Pkg.invEnd`,
`Pkg.cacheErr`, `Pkg.waySwept`), and each clause takes one branch of it. -/
theorem cachesAreDisabledAndInvalidated : Obligations.CachesAreDisabledAndInvalidated := by
  unfold Obligations.CachesAreDisabledAndInvalidated
  refine ⟨fun _ _ _ _ => cacheDisable_disables, fun _ _ _ => cacheDrainComplete_cleans, fun _ _ _ _ => cacheEnable_enables,
    fun _ _ _ _ => invreq_starts, fun _ _ _ _ => invreq_refused, fun _ _ _ => invreqComplete_empties,
    fun _ _ _ _ => invreq_waits, fun _ _ _ => cacheDrainComplete_invalidates, ?refusals,
    fun _ _ _ => cacheDrainComplete_idle, fun _ _ _ _ line => cacheError_counts line,
    fun _ _ e way line => cacheError_loadHold e way line,
    fun _ _ _ _ _ hc _ => waySweepComplete_disables hc⟩
  case refusals =>
    intro s who pg c hcmd hc hcan
    exact ⟨completes_writeEn_refused (exec_cacheDisable hcmd hc) hcan,
      completes_writeEn_refused (exec_cacheEnable hcmd hc) hcan⟩

end Sys2Proof.Machine
end

section
/-! An IORD that its sender's pending eviction holds back (R225, R230). -/

namespace Sys2Proof.Machine

/-- The cells of the line are disturbed before the pending eviction of the line (R225) holds the request back. -/
theorem exec_iord_heldBack {s : State} {q : CohReq} {off : Fin 64} {len : Nat} (dist : Disturb)
    (hup : s.pkg.agentUp q.src.val = true) (hlen : 1 ≤ len ∧ off.val + len ≤ 64) (hevict : pendingEvict s.pkg q = true) :
    exec (.iord q off len dist) s = .next { s with pkg := s.pkg.disturb q.line dist } := by
  have hdline : (s.pkg.disturb q.line dist).dline q.src.val q.line = s.pkg.dline q.src.val q.line := by
    unfold Pkg.disturb
    split <;> rfl
  rw [pendingEvict] at hevict
  rw [exec, execIord, upd_eq]
  simp [hup, hlen, Pkg.bringReq, hdline, hevict, Pkg.bring]

/-- Die 0 runs and has its eviction of line 0 pending; the line is stored without an error. -/
def evictionPending : State :=
  let x : DLine := { st := .e, pid := 0, data := [], poison := false, evicting := true, evTx := 0 }
  let m : LineMeta := { pid := 0, gen := 0, tweak := 0, err := [] }
  { State.reset with pkg := { State.reset.pkg with
      dieSt := [(0, 2)]
      coh := { Coh.reset with dies := [(0, [(0, x)])] }
      hbm := { Hbm.reset with lines := [(0, some m)] } } }

/-- A request of die 0 for line 0. -/
def lineZeroReq : CohReq := { line := 0, pid := 0, txid := 0, urg := 0, readable := true, src := 0, code := .clean }

/-- Refutes O46: an IORD whose sender has its eviction of the line pending is not exchanged, yet its row flips the bits of the
line's cells that it names (`exec_iord_heldBack`), so the state does not stay as it was. -/
theorem not_diesAnswerSnoopsAndComplete : ¬ Obligations.DiesAnswerSnoopsAndComplete := by
  unfold Obligations.DiesAnswerSnoopsAndComplete strayMessageRules
  rintro ⟨-, ⟨hidle, -⟩, -⟩
  have hstays := hidle evictionPending (.iord lineZeroReq 0 1 [(0, 1)]) lineZeroReq.toMsgHead (by decide)
  rw [exec_iord_heldBack _ (by decide) (by decide) (by decide)] at hstays
  have hcells := congrArg (fun t => t.pkg.hbm.lines) (Host.Outcome.next.inj hstays)
  exact absurd hcells (by decide)

end Sys2Proof.Machine
end

section
/-! What a home reads while it serves a line, and what its own work leaves of it (R226, R242, R254, R323, R567). -/

namespace Sys2Proof.Machine

/-- A write of an entry is one of DIRCNT and one of its set (R254). -/
theorem putEnt_eq (p : Pkg) (k w : Nat) (e : Option DirEnt) : ∃ v, p.putEnt k w e =
    (p.setReg (pgDS (k / 32768)) 0x200 v).setDirSet k { p.dirSet k with ways := tblSet (fun _ => none) (p.dirSet k).ways w e } :=
  ⟨_, rfl⟩

/-! ### The registers a home writes -/

/-- A register that a home writes as it serves: an event counter, DIRCNT or CONFQ of a slice (R254, R519). -/
def homeWrites (pg o : Nat) : Prop := pg = pgHTEL ∨ (∃ n, pg = pgDS n) ∧ (o = 0x200 ∨ o = 0x210)

/-- Nothing that a home reads on a page differs: the registers but those it writes itself, and the live configuration. -/
structure Pkg.ReadsAs (q p : Pkg) : Prop where
  reg : ∀ pg o, ¬ homeWrites pg o → q.reg pg o = p.reg pg o
  live : ∀ pg, (q.page pg).live = (p.page pg).live

namespace Pkg.ReadsAs

variable {p q r : Pkg}

theorem refl (p : Pkg) : p.ReadsAs p := ⟨fun _ _ _ => rfl, fun _ => rfl⟩

theorem trans (h : r.ReadsAs q) (k : q.ReadsAs p) : r.ReadsAs p :=
  ⟨fun pg o ho => (h.reg pg o ho).trans (k.reg pg o ho), fun pg => (h.live pg).trans (k.live pg)⟩

theorem of_pages (h : q.pages = p.pages) : q.ReadsAs p := by
  refine ⟨fun pg o _ => ?_, fun pg => ?_⟩ <;> simp only [Pkg.reg, Pkg.page, h]

/-- An update that writes no page. -/
theorem same_pages (k : q.ReadsAs p) (h : r.pages = q.pages) : r.ReadsAs p := .trans (of_pages h) k

theorem setReg (p : Pkg) {pg off : Nat} (h : homeWrites pg off) (v : Word) : (p.setReg pg off v).ReadsAs p := by
  refine ⟨fun q o ho => ?_, fun q => setReg_live ..⟩
  rw [reg_setReg, if_neg]
  rintro ⟨rfl, rfl⟩
  exact ho h

theorem foldl {ι : Type} {f : Pkg → ι → Pkg} (h : ∀ q i, (f q i).ReadsAs q) (l : List ι) (p : Pkg) :
    (l.foldl f p).ReadsAs p := by
  induction l generalizing p with
  | nil => exact .refl p
  | cons i l ih => exact (ih _).trans (h p i)

theorem evCount (p : Pkg) (ev inst : Nat) (pid : Option Nat) (net k : Nat) : (p.evCount none ev inst pid net k).ReadsAs p := by
  unfold Pkg.evCount
  dsimp only
  split
  · exact .refl p
  · refine .foldl (fun q i => ?_) _ _
    split
    · exact .setReg q (.inl rfl) _
    · exact .refl q

theorem putEnt (p : Pkg) (k w : Nat) (e : Option DirEnt) : (p.putEnt k w e).ReadsAs p := by
  obtain ⟨v, hv⟩ := putEnt_eq p k w e
  rw [hv]
  exact (setReg p (.inr ⟨⟨_, rfl⟩, .inl rfl⟩) v).same_pages (setDirSet_pages ..)

theorem refreshConfq (p : Pkg) (n : Nat) : (p.refreshConfq n).ReadsAs p :=
  .trans (.setReg _ (.inr ⟨⟨n, rfl⟩, .inr rfl⟩) _) (.setReg p (.inr ⟨⟨n, rfl⟩, .inr rfl⟩) _)

/-! ### What it reads -/

theorem rf (h : q.ReadsAs p) {pg o : Nat} (ho : ¬ homeWrites pg o) (hi lo : Nat) : q.rf pg o hi lo = p.rf pg o hi lo := by
  rw [Pkg.rf, h.reg pg o ho, Pkg.rf]

theorem cf (h : q.ReadsAs p) (pg o hi lo : Nat) : q.cf pg o hi lo = p.cf pg o hi lo := by
  simp only [Pkg.cf, Pkg.cfg, h.live]

theorem fenceVec (h : q.ReadsAs p) (n : Nat) : q.fenceVec n = p.fenceVec n :=
  h.rf (by simp [homeWrites, pgDS, pgHTEL, pgHub]; omega) _ _

theorem dcs (h : q.ReadsAs p) (pid : Nat) : q.dcs pid = p.dcs pid := by
  have ho : ¬ homeWrites (pgDS 0) (0x238 + pid / 64 * 8) := by
    simp only [homeWrites, pgDS, pgHTEL, pgHub]
    omega
  rw [Pkg.dcs, h.reg _ _ ho, Pkg.dcs]

theorem loadHold (h : q.ReadsAs p) {pg : Nat} (hpg : pg ≠ pgHTEL) : q.loadHold pg = p.loadHold pg := by
  rw [Pkg.loadHold, Pkg.blkState, h.rf (by simp [homeWrites, hpg]), Pkg.loadHold, Pkg.blkState]

end Pkg.ReadsAs

theorem mcOf_lt (line : Nat) : mcOf line < 16 := Nat.mod_lt _ (by decide)

/-- No page of a controller is one of those that homes write. -/
theorem not_homeWrites_mc {n : Nat} (hn : n < 16) (o : Nat) : ¬ homeWrites (pgMC n) o ∧ ¬ homeWrites (pgMCR n) o := by
  simp only [homeWrites, pgMC, pgMCR, pgDS, pgHTEL, pgHub]
  omega

theorem Pkg.ReadsAs.serveOf {p q : Pkg} (h : q.ReadsAs p) (line : Nat) : q.serveOf line = p.serveOf line := by
  obtain ⟨hmc, hmcr⟩ : (∀ o, ¬ homeWrites (pgMC (mcOf line)) o) ∧ ∀ o, ¬ homeWrites (pgMCR (mcOf line)) o :=
    ⟨fun o => (not_homeWrites_mc (mcOf_lt line) o).1, fun o => (not_homeWrites_mc (mcOf_lt line) o).2⟩
  have hds : pgDS (mcOf line) ≠ pgHTEL := by simp only [pgDS, pgHTEL, pgHub]; omega
  have hctl : pgMC (mcOf line) ≠ pgHTEL := by simp only [pgMC, pgHTEL, pgHub]; omega
  unfold Pkg.serveOf Pkg.mcDisabled
  simp only [h.loadHold hds, h.loadHold hctl, h.rf (hmc _), h.rf (hmcr _)]

/-- What a line decodes to depends on its controller's configuration, its cells and the counter of free values alone. -/
theorem Pkg.ReadsAs.decode {p q : Pkg} (h : q.ReadsAs p) {line : Nat} (hcells : q.lineMeta line = p.lineMeta line)
    (hfresh : q.fresh = p.fresh) : q.decode line = p.decode line := by
  unfold Pkg.decode
  rw [h.cf, hcells, hfresh]

/-! ### What its operations leave alone -/

section
variable (p : Pkg)

@[simp] theorem evCount_coh (die : Option Nat) (ev inst : Nat) (pid : Option Nat) (net k : Nat) :
    (p.evCount die ev inst pid net k).coh = p.coh :=
  have h := congrArg Pkg.coh (rest_evCount p die ev inst pid net k)
  h
@[simp] theorem evCount_hbm (die : Option Nat) (ev inst : Nat) (pid : Option Nat) (net k : Nat) :
    (p.evCount die ev inst pid net k).hbm = p.hbm := hbm_of_rest (rest_evCount ..)
@[simp] theorem evCount_cores (die : Option Nat) (ev inst : Nat) (pid : Option Nat) (net k : Nat) :
    (p.evCount die ev inst pid net k).cores = p.cores :=
  have h := congrArg Pkg.cores (rest_evCount p die ev inst pid net k)
  h
@[simp] theorem evCount_fresh (die : Option Nat) (ev inst : Nat) (pid : Option Nat) (net k : Nat) :
    (p.evCount die ev inst pid net k).fresh = p.fresh :=
  have h := congrArg Pkg.fresh (rest_evCount p die ev inst pid net k)
  h

end

/-- Nothing differs but the directory and the counters of its slices. -/
structure Pkg.DirOnly (q p : Pkg) : Prop where
  eq : q = { p with pages := q.pages, coh := { p.coh with dirs := q.coh.dirs } }
  reads : q.ReadsAs p

theorem dirOnly_putEnt (p : Pkg) (k w : Nat) (e : Option DirEnt) : (p.putEnt k w e).DirOnly p := by
  refine ⟨?_, .putEnt ..⟩
  obtain ⟨v, hv⟩ := putEnt_eq p k w e
  rw [hv]
  rfl

theorem dirOnly_dirModify (p : Pkg) (line : Nat) (f : DirEnt → Option DirEnt) : (p.dirModify line f).DirOnly p := by
  unfold Pkg.dirModify
  split
  · exact ⟨rfl, .refl p⟩
  · exact dirOnly_putEnt ..

theorem Pkg.DirOnly.setDirSet {p q : Pkg} (h : q.DirOnly p) (k : Nat) (x : DirSet) : (q.setDirSet k x).DirOnly p := by
  refine ⟨?_, h.reads.same_pages (setDirSet_pages ..)⟩
  rw [h.eq]
  rfl

/-- A read disturbs the symbols of the line's cells alone (R315). -/
theorem disturb_eq (p : Pkg) (line : Nat) (dist : Disturb) :
    p.disturb line dist = { p with hbm := { p.hbm with lines := (p.disturb line dist).hbm.lines } } := by
  unfold Pkg.disturb
  split <;> rfl

theorem cell_of_ctl {p q : Pkg} (h : q.hbm.ctl = p.hbm.ctl) (line : Nat) : q.cell line = p.cell line := by
  simp only [Pkg.cell, Pkg.spareOf, Pkg.ctl, h]

theorem rowHeld_of_ctl {p q : Pkg} (h : q.hbm.ctl = p.hbm.ctl) (line : Nat) : q.rowHeld line = p.rowHeld line := by
  simp only [Pkg.rowHeld, Pkg.ctl, h]

theorem lineMeta_of_hbm {p q : Pkg} (h : q.hbm = p.hbm) (line : Nat) : q.lineMeta line = p.lineMeta line := by
  simp only [Pkg.lineMeta, Pkg.cellMeta, cell_of_ctl (congrArg Hbm.ctl h), h]

theorem lineMeta_setLineMeta_same (p : Pkg) (line : Nat) (m : Option LineMeta) : (p.setLineMeta line m).lineMeta line = m := by
  rw [Pkg.lineMeta, cell_of_ctl (q := p.setLineMeta line m) rfl]
  exact tblGet_tblSet_same ..

theorem lineMeta_disturb_nil (p : Pkg) (line : Nat) : (p.disturb line []).lineMeta line = p.lineMeta line := by
  unfold Pkg.disturb
  split
  · rfl
  next m hm =>
    rw [lineMeta_setLineMeta_same, hm]
    rfl

/-! ### Reading and writing a line -/

/-- What the read of a line that decodes without an error leaves alone. -/
structure Pkg.LineRead (q p : Pkg) : Prop where
  coh : q.coh = p.coh
  cores : q.cores = p.cores
  mem : q.hbm.mem = p.hbm.mem
  reads : q.ReadsAs p

theorem lineRead_content {p r : Pkg} (h : r.LineRead p) (line pid : Nat) (res : Tbl Byte) :
    (r.content line pid res).2.LineRead p := by
  obtain ⟨hcoh, hcores, hmem, hreads⟩ := h
  have hfree : (r.freeBytes 64).2.LineRead p := ⟨hcoh, hcores, hmem, hreads.same_pages (freeBytes_pages r 64)⟩
  unfold Pkg.content
  split
  · split
    · exact ⟨hcoh, hcores, hmem, hreads⟩
    · exact hfree
  · exact hfree

/-- A line that is served and decodes without an error is delivered, not poisoned. The pair that `content` gives stays closed
here: what it holds is of no concern. -/
theorem lineRead_clean {p : Pkg} {line : Nat} (pid agent : Nat) (hserve : p.serveOf line = .served)
    (hdecode : p.decode line = .data []) : ∃ b q, p.lineRead line pid agent = (.line b false, q) ∧ q.LineRead p := by
  obtain ⟨r, hr⟩ : ∃ r, r = (p.disturb line []).evCount none 4 (mcOf line) (some pid) 4 1 := ⟨_, rfl⟩
  have hread : r.LineRead p := by
    have hreads : (p.disturb line []).ReadsAs p := .of_pages (disturb_pages ..)
    refine ⟨?_, ?_, ?_, hr ▸ .trans (.evCount ..) hreads⟩
    · rw [hr, evCount_coh, disturb_eq]
    · rw [hr, evCount_cores, disturb_eq]
    · rw [hr, evCount_hbm, disturb_eq]
  have hfresh : r.fresh = p.fresh := by rw [hr, evCount_fresh, disturb_eq]
  have hmeta : r.lineMeta line = p.lineMeta line := by
    rw [hr, lineMeta_of_hbm (evCount_hbm ..), lineMeta_disturb_nil]
  have hclean : r.decode line = .data [] := (hread.reads.decode hmeta hfresh).trans hdecode
  obtain ⟨content, hcontent, hlast⟩ :
      ∃ f, f = Pkg.content ∧ ∀ pid res, (f r line pid res).2.LineRead p := ⟨_, rfl, lineRead_content hread line⟩
  unfold Pkg.lineRead
  rw [← hcontent, hserve]
  dsimp only
  rw [← hr, hclean]
  dsimp only
  split
  · rw [if_pos rfl]
    exact ⟨_, _, rfl, hlast ..⟩
  · exact ⟨_, _, rfl, hread.coh, hread.cores, hread.mem, hread.reads.same_pages (freeBytes_pages r 64)⟩

/-- What the write of a line leaves. -/
structure Pkg.LineWritten (q p : Pkg) (line : Nat) (bytes : List Byte) : Prop where
  coh : q.coh = p.coh
  cores : q.cores = p.cores
  mem : q.hbm.mem = memSetBytes p.hbm.mem (p.cell line * 64) bytes
  reads : q.ReadsAs p

theorem lineWrite_served {p : Pkg} {line : Nat} (pid : Nat) {bytes : List Byte} (poison : Bool)
    (hserve : p.serveOf line = .served) (hlen : bytes.length = 64) :
    ∃ q, p.lineWrite line pid bytes poison = (true, q) ∧ q.LineWritten p line bytes := by
  unfold Pkg.lineWrite
  rw [hserve]
  let r := p.evCount none 5 (mcOf line) (some pid) 4 1
  have hmem : (p.storeLine line pid bytes poison).hbm.mem = memSetBytes p.hbm.mem (p.cell line * 64) bytes := by
    change memSetBytes r.hbm.mem (r.cell line * 64) (bytes.take 64) = _
    rw [List.take_of_length_le hlen.le, cell_of_ctl (congrArg Hbm.ctl (evCount_hbm ..)), evCount_hbm]
  have hreads : r.ReadsAs p := .evCount ..
  exact ⟨_, rfl, evCount_coh .., evCount_cores .., hmem, hreads.same_pages rfl⟩

/-- The line of the write reads back, and every byte outside it as before. -/
theorem Pkg.LineWritten.bytes {p q : Pkg} {line : Nat} {bytes : List Byte} (h : q.LineWritten p line bytes)
    (hlen : bytes.length = 64) : memBytes q.hbm.mem (p.cell line * 64) 64 = bytes ∧
    ∀ a, a < p.cell line * 64 ∨ p.cell line * 64 + 64 ≤ a → memByte q.hbm.mem a = memByte p.hbm.mem a := by
  rw [h.mem]
  constructor
  · have hread := memBytes_memSetBytes p.hbm.mem (p.cell line * 64) bytes
    rwa [hlen] at hread
  · rintro a (ha | ha)
    · exact memByte_memSetBytes_below _ _ ha
    · exact memByte_memSetBytes_above _ _ (hlen ▸ ha)

end Sys2Proof.Machine
end

section
/-! The directory, what is on the networks, and a home's transactions, after each step of a home (R226 to R242). -/

namespace Sys2Proof.Machine

/-! ### The directory -/

/-- An entry written for a key is the first that a search finds, when what it found before stood under that key. -/
theorem findSome?_tblInsert {α β : Type} {f : Nat × α → Option (Nat × β)} (hkey : ∀ e y, f e = some y → y.1 = e.1) {k : Nat}
    {x : α} {b : Nat × β} (hx : f (k, x) = some b) (t : Tbl α) (ht : ∀ y, t.findSome? f = some y → y.1 = k) :
    (tblInsert t k x).findSome? f = some b := by
  induction t with
  | nil => simp [tblInsert, hx]
  | cons e t ih =>
    obtain ⟨j, v⟩ := e
    unfold tblInsert
    split
    · simp [hx]
    next hjk =>
      split
      · simp [hx]
      · cases hf : f (j, v) with
        | some y =>
          have hy : y.1 = k := ht y (by rw [List.findSome?_cons, hf])
          exact absurd ((hkey _ _ hf).symm.trans hy) hjk
        | none =>
          rw [List.findSome?_cons, hf]
          exact ih fun y hy => ht y (by rw [List.findSome?_cons, hf]; exact hy)

section
variable (p : Pkg)

@[simp] theorem dirSet_setDirSet_same (k : Nat) (x : DirSet) : (p.setDirSet k x).dirSet k = x :=
  tblGet_tblSet_same ..

theorem dirSet_putEnt (k w : Nat) (e : Option DirEnt) :
    (p.putEnt k w e).dirSet k = { p.dirSet k with ways := tblSet (fun _ => none) (p.dirSet k).ways w e } := by
  obtain ⟨v, hv⟩ := putEnt_eq p k w e
  rw [hv, dirSet_setDirSet_same]

@[simp] theorem ent_putEnt (k w : Nat) (e : Option DirEnt) : ((p.putEnt k w e).dirSet k).ent w = e := by
  rw [dirSet_putEnt]
  exact tblGet_tblSet_same ..

/-- The entry written for a line is the one found for it, when none was found or the one of that way. -/
theorem dirFind_putEnt {line w : Nat} {e : DirEnt} (htag : e.tag = line / 32768)
    (h : ∀ x, p.dirFind line = some x → x.1 = w) : (p.putEnt (dirKey line) w (some e)).dirFind line = some (w, e) := by
  unfold Pkg.dirFind at h ⊢
  rw [dirSet_putEnt]
  refine findSome?_tblInsert (fun x y hy => ?_) (by simp [htag]) _ h
  obtain ⟨j, v⟩ := x
  cases v with
  | none => cases hy
  | some v =>
    dsimp only at hy
    split at hy
    · cases hy; rfl
    · cases hy

end

/-- An entry that is found carries the line's tag. -/
theorem tag_of_dirFind {p : Pkg} {line w : Nat} {e : DirEnt} (h : p.dirFind line = some (w, e)) : e.tag = line / 32768 := by
  obtain ⟨⟨j, v⟩, -, hv⟩ := List.exists_of_findSome?_eq_some h
  cases v with
  | none => cases hv
  | some v =>
    dsimp only at hv
    split at hv
    next htag => cases hv; exact htag
    next => cases hv

theorem dirModify_of_none {p : Pkg} {line : Nat} (h : p.dirFind line = none) (f : DirEnt → Option DirEnt) :
    p.dirModify line f = p := by
  rw [Pkg.dirModify, h]

theorem dirModify_of_some {p : Pkg} {line w : Nat} {e : DirEnt} (h : p.dirFind line = some (w, e))
    (f : DirEnt → Option DirEnt) : p.dirModify line f = p.putEnt (dirKey line) w (f e) := by
  rw [Pkg.dirModify, h]

/-- A changed entry is the one found for its line. -/
theorem dirFind_dirModify {p : Pkg} {line w : Nat} {e e' : DirEnt} {f : DirEnt → Option DirEnt}
    (h : p.dirFind line = some (w, e)) (hf : f e = some e') (htag : e'.tag = e.tag) :
    (p.dirModify line f).dirFind line = some (w, e') := by
  rw [dirModify_of_some h, hf]
  refine dirFind_putEnt p (htag.trans (tag_of_dirFind h)) fun x hx => ?_
  rw [h] at hx
  cases hx
  rfl

theorem ent_dirModify {p : Pkg} {line w : Nat} {e : DirEnt} (h : p.dirFind line = some (w, e))
    (f : DirEnt → Option DirEnt) : ((p.dirModify line f).dirSet (dirKey line)).ent w = f e := by
  rw [dirModify_of_some h, ent_putEnt]

theorem dirFind_of_dirs {p q : Pkg} (h : q.coh.dirs = p.coh.dirs) (line : Nat) : q.dirFind line = p.dirFind line := by
  simp only [Pkg.dirFind, Pkg.dirSet, h]

theorem dirVictim_of_dirs {p q : Pkg} (h : q.coh.dirs = p.coh.dirs) (k : Nat) : q.dirVictim k = p.dirVictim k := by
  simp only [Pkg.dirVictim, Pkg.dirSet, h]

/-! ### Messages on their way -/

/-- The messages on their way, oldest first. -/
def Pkg.msgs (p : Pkg) : List Msg := p.coh.net.map (·.msg)

@[simp] theorem msgs_send (p : Pkg) (m : Msg) : (p.send m).msgs = p.msgs ++ [m] := by
  simp [Pkg.msgs, Pkg.send]

theorem sent_of_msgs {t : State} {l₀ l : List Msg} (h : t.pkg.msgs = l₀ ++ l) : Sent t l := ⟨l₀, h.symm⟩

theorem msgs_of_net {p q : Pkg} (h : q.coh.net = p.coh.net) : q.msgs = p.msgs := congrArg (List.map Flit.msg) h

/-- Messages put on their way one after another. -/
def Pkg.sendAll (p : Pkg) (l : List Msg) : Pkg := l.foldl Pkg.send p

@[simp] theorem msgs_sendAll (p : Pkg) (l : List Msg) : (p.sendAll l).msgs = p.msgs ++ l := by
  induction l generalizing p with
  | nil => simp [Pkg.sendAll]
  | cons m l ih => exact (ih (p.send m)).trans (by simp)

/-- Sending changes the network alone. -/
theorem sendAll_eq (p : Pkg) (l : List Msg) :
    p.sendAll l = { p with coh := { p.coh with net := (p.sendAll l).coh.net } } := by
  induction l generalizing p with
  | nil => rfl
  | cons m l ih => exact ih (p.send m)

/-! ### Transactions that are ready -/

theorem homeRun_of_readyTxn_none {p : Pkg} (h : p.readyTxn = none) (k : Nat) : p.homeRun k = p := by
  cases k with
  | zero => rfl
  | succ k => rw [Pkg.homeRun, h]

theorem homeRun_of_readyTxn_some {p : Pkg} {x : Txn} (h : p.readyTxn = some x) (k : Nat) :
    p.homeRun (k + 1) = (p.finishTxn x).homeRun k := by
  rw [Pkg.homeRun, h]

theorem readyTxn_of_no_txns {p : Pkg} (h : p.coh.txns = []) : p.readyTxn = none := by
  rw [Pkg.readyTxn, h, List.find?_nil]

/-- A home that holds one transaction finishes it when it is ready. -/
theorem readyTxn_of_ready {p : Pkg} {x : Txn} (h : p.coh.txns = [x]) (hx : p.txnReady x = true) : p.readyTxn = some x := by
  rw [Pkg.readyTxn, h, List.find?_cons_of_pos hx]

theorem readyTxn_of_not_ready {p : Pkg} {x : Txn} (h : p.coh.txns = [x]) (hx : p.txnReady x = false) : p.readyTxn = none := by
  rw [Pkg.readyTxn, h, List.find?_cons_of_neg (by simp [hx]), List.find?_nil]

/-- A granted transaction waits for its Ack (R234). -/
theorem txnReady_of_granted (p : Pkg) {x : Txn} (h : x.granted = true) : p.txnReady x = false := by
  simp [Pkg.txnReady, h]

/-- A transaction without snoops is ready once its request is. -/
theorem txnReady_of_no_snoops (p : Pkg) {x : Txn} (hsnoops : x.snoops = []) (hsnooped : x.snooped = []) (hawait : x.await = [])
    (hgranted : x.granted = false) (hpresent : x.present = true → x.req.kind ≠ .iord) : p.txnReady x = x.req.ready := by
  have hnet : ∀ {a b : Bool}, b = false → (a && !b) = a := by simp
  refine (hnet (List.any_eq_false.2 fun f _ => ?_)).trans ?_
  · rw [hsnooped]
    split <;> simp
  · rw [hsnoops, hawait, hgranted]
    cases hp : x.present
    · simp
    · simp [hpresent hp]

theorem txnReady_newTxn (p : Pkg) (r : HomeReq) : p.txnReady (newTxn r [] false none) = r.ready :=
  txnReady_of_no_snoops p rfl rfl rfl rfl (fun h => by cases h)

/-! ### A grant (R237, R238) -/

/-- The entry and the record of a transaction as a grant leaves them. -/
def Pkg.markGrant (p : Pkg) (x : Txn) (own : Bool) (pres : Nat) : Pkg :=
  let q := p.dirModify x.req.line (fun e => some { e with
    own := own, pres := pres, pid := x.req.pid, fenced := pres &&& p.fenceVec (mcOf x.req.line) != 0 })
  { q with coh := { q.coh with txns := q.coh.txns.map (fun u =>
      if u.req.line = x.req.line ∧ u.req.txid = x.req.txid then { u with granted := true } else u) } }

theorem grant_eq (p : Pkg) (x : Txn) (g : Nat) (df : Bool) (d : Option (List Byte × Bool × Bool)) (own : Bool) (pres : Nat) :
    p.grant x g df d own pres = (p.sendAll ((d.map fun d => x.req.answer (.data d.1 d.2.1 d.2.2)).toList ++
      [x.req.answer (.cmp g df)])).markGrant x own pres := by
  cases d <;> rfl

/-- What a grant to the one transaction of a home leaves: what it sent, the entry of the line, and no transaction that is
ready. -/
structure Pkg.Granted (q p : Pkg) (line w : Nat) (e : DirEnt) (l : List Msg) : Prop where
  msgs : q.msgs = p.msgs ++ l
  ent : (q.dirSet (dirKey line)).ent w = some e
  readyTxn : q.readyTxn = none
  confq : q.coh.confq = p.coh.confq
  cores : q.cores = p.cores
  hbm : q.hbm = p.hbm

theorem granted_grant {p : Pkg} {x : Txn} {w : Nat} {e : DirEnt} (h : p.dirFind x.req.line = some (w, e))
    (htxns : p.coh.txns = [x]) (g : Nat) (df : Bool) (d : Option (List Byte × Bool × Bool)) (own : Bool) (pres : Nat) :
    (p.grant x g df d own pres).Granted p x.req.line w
      { e with own := own, pres := pres, pid := x.req.pid, fenced := pres &&& p.fenceVec (mcOf x.req.line) != 0 }
      ((d.map fun d => x.req.answer (.data d.1 d.2.1 d.2.2)).toList ++ [x.req.answer (.cmp g df)]) := by
  rw [grant_eq]
  generalize (d.map _).toList ++ [_] = l
  obtain ⟨q, hq⟩ : ∃ q, q = p.sendAll l := ⟨_, rfl⟩
  have hmsgs : q.msgs = p.msgs ++ l := hq ▸ msgs_sendAll p l
  rw [← hq]
  rw [sendAll_eq] at hq
  have hfind : q.dirFind x.req.line = some (w, e) := by rw [hq, ← h]; rfl
  have hfence : q.fenceVec (mcOf x.req.line) = p.fenceVec (mcOf x.req.line) := by rw [hq]; rfl
  unfold Pkg.markGrant
  rw [(dirOnly_dirModify ..).eq]
  constructor
  case msgs => exact hmsgs
  case ent =>
    rw [← hfence]
    exact ent_dirModify hfind _
  case readyTxn =>
    refine readyTxn_of_not_ready (x := { x with granted := true }) ?_ (txnReady_of_granted _ rfl)
    change q.coh.txns.map _ = _
    rw [show q.coh.txns = [x] by rw [hq]; exact htxns]
    simp
  case confq => change q.coh.confq = _; rw [hq]
  case cores => change q.cores = _; rw [hq]
  case hbm => change q.hbm = _; rw [hq]

end Sys2Proof.Machine
end

section
/-! A home serves one request at a time: it starts it, finishes it and grants the line (R228, R234, R236, R237). -/

namespace Sys2Proof.Machine

/-! ### A transaction begins -/

/-- The home has begun a transaction and has none beside it. -/
structure Pkg.Began (q p : Pkg) (x : Txn) : Prop where
  txns : q.coh.txns = [x]
  net : q.coh.net = p.coh.net
  confq : q.coh.confq = p.coh.confq
  wb : q.coh.wb = p.coh.wb
  hbm : q.hbm = p.hbm
  cores : q.cores = p.cores
  fresh : q.fresh = p.fresh
  reads : q.ReadsAs p

/-- The record of a transaction is added. -/
def Pkg.withTxn (p : Pkg) (x : Txn) : Pkg := { p with coh := { p.coh with txns := p.coh.txns ++ [x] } }

theorem began_withTxn {p q : Pkg} (h : q.DirOnly p) (hcalm : p.coh.txns = []) (x : Txn) : (q.withTxn x).Began p x := by
  have hreads : (q.withTxn x).ReadsAs p := h.reads.same_pages rfl
  have heq := h.eq
  have htxns : q.coh.txns = [] := by rw [heq]; exact hcalm
  refine ⟨congrArg (· ++ [x]) htxns, ?_, ?_, ?_, ?_, ?_, ?_, hreads⟩ <;> (rw [heq]; rfl)

section
variable {p : Pkg} {r : HomeReq} {w : Nat}

/-- A transaction without snoops marks its entry busy and is recorded. -/
theorem openTxn_nil (p : Pkg) (r : HomeReq) (k fwd : Nat) (own : Bool) : p.openTxn r k fwd own [] =
    (p.dirModify r.line (fun e => some { e with busy := true })).withTxn (newTxn r [] false none) := rfl

theorem openTxn_nil_began (hcalm : p.coh.txns = []) (k fwd : Nat) (own : Bool) :
    (p.openTxn r k fwd own []).Began p (newTxn r [] false none) :=
  began_withTxn (dirOnly_dirModify ..) hcalm _

theorem dirFind_openTxn_nil_of_none (h : p.dirFind r.line = none) (k fwd : Nat) (own : Bool) :
    (p.openTxn r k fwd own []).dirFind r.line = none := by
  rw [openTxn_nil, dirModify_of_none h]
  exact h

theorem dirFind_openTxn_nil_of_some {e : DirEnt} (h : p.dirFind r.line = some (w, e)) (k fwd : Nat) (own : Bool) :
    (p.openTxn r k fwd own []).dirFind r.line = some (w, { e with busy := true }) :=
  dirFind_dirModify h rfl rfl

/-- An uncached request for a line without an entry opens a transaction without snoops (R237). -/
theorem startReq_uncached (hdcs : p.dcs r.pid = false) (hfind : p.dirFind r.line = none) (hkind : r.kind.caches = false) :
    p.startReq r = p.openTxn r 0 0x3F false [] := by
  unfold Pkg.startReq
  simp [hdcs, hfind, hkind]

theorem filter_presDies_self (d : Nat) : (presDies (2 ^ d)).filter (· != d) = [] := by
  rw [List.filter_eq_nil_iff]
  intro k hk
  obtain ⟨-, hbit⟩ := List.mem_filter.1 hk
  have hkd : k = d := by
    have htest : (2 ^ d).testBit k = true := by
      rw [Nat.testBit_eq_decide_div_mod_eq]
      simpa using hbit
    simpa [Nat.testBit_two_pow, eq_comm] using htest
  simp [hkd]

/-- The one sharer of a line upgrades it: nobody is snooped (R237). -/
theorem startReq_sharer {e : DirEnt} (hdcs : p.dcs r.pid = false) (hfind : p.dirFind r.line = some (w, e))
    (hown : e.own = false) (hpid : e.pid = r.pid) (hpres : e.pres = 2 ^ r.src) (hkind : r.kind = .upg) :
    p.startReq r = p.openTxn r 0 0x3F false [] := by
  unfold Pkg.startReq
  simp [hdcs, hfind, hown, hpid, hkind, hpres, filter_presDies_self]

/-- The entry that a request makes of a line without one: the requester owns it (R237). -/
def newEntry (r : HomeReq) : DirEnt :=
  { own := true, fenced := false, busy := true, pid := r.pid, pres := 2 ^ r.src, tag := r.line / 32768 }

/-- A request for a line without an entry takes the free way of its set. -/
theorem startReq_began (hcalm : p.coh.txns = []) (hdcs : p.dcs r.pid = false) (hdir : dirTakes p r.line w)
    (hkind : r.kind.caches = true) : (p.startReq r).Began p (newTxn r [] false none) ∧
    (p.startReq r).dirFind r.line = some (w, newEntry r) := by
  obtain ⟨hfind, hvictim, hfree⟩ := hdir
  obtain ⟨q, hq⟩ : ∃ q, q = p.putEnt (dirKey r.line) w (some (newEntry r)) := ⟨_, rfl⟩
  let u : DirSet := { q.dirSet (dirKey r.line) with plru := plruAccess 16 (q.dirSet (dirKey r.line)).plru w false }
  have hstart : p.startReq r = (q.setDirSet (dirKey r.line) u).withTxn (newTxn r [] false none) := by
    unfold Pkg.startReq
    simp only [hdcs, hfind, hkind, hvictim, hfree, ← newEntry.eq_1, ← hq]
    rfl
  have hways : ((q.setDirSet (dirKey r.line) u).dirSet (dirKey r.line)).ways = (q.dirSet (dirKey r.line)).ways := by
    rw [dirSet_setDirSet_same]
  have hsame : (q.setDirSet (dirKey r.line) u).dirFind r.line = q.dirFind r.line := by
    unfold Pkg.dirFind
    rw [hways]
  have hput : q.DirOnly p := hq ▸ dirOnly_putEnt ..
  rw [hstart]
  refine ⟨began_withTxn (hput.setDirSet ..) hcalm _, hsame.trans ?_⟩
  rw [hq]
  exact dirFind_putEnt p rfl fun x hx => by rw [hfind] at hx; cases hx

end

/-! ### A transaction ends in a grant (R237) -/

section
variable {p : Pkg} {x : Txn} {w : Nat} {e : DirEnt}

/-- The line is granted from memory. -/
theorem grantMem_clean (hserve : p.serveOf x.req.line = .served) (hdecode : p.decode x.req.line = .data [])
    (g : Nat) (own : Bool) (pres : Nat) :
    ∃ (b : List Byte) (q : Pkg), p.grantMem x g own pres = q.grant x g true (some (b, false, false)) own pres ∧ q.LineRead p := by
  obtain ⟨b, q, hread, hq⟩ := lineRead_clean x.req.pid x.req.src hserve hdecode
  refine ⟨b, q, ?_, hq⟩
  unfold Pkg.grantMem
  dsimp only
  rw [hread]

/-- A requester whose entry is new gets the line from memory, E for a read and M for the others. -/
theorem finishTxn_newEntry {r : HomeReq} (hkind : r.kind.caches = true) (h : p.dirFind r.line = some (w, newEntry r)) :
    p.finishTxn (newTxn r [] false none) =
      p.grantMem (newTxn r [] false none) (if r.kind = .rds then 2 else 3) true (2 ^ r.src) := by
  unfold Pkg.finishTxn
  cases hk : r.kind with
  | rds | rdo | upg => simp [newTxn, newEntry, hk, h]
  | iord | iowr => rw [hk] at hkind; cases hkind

/-- The one sharer of a line is granted M without data (R237, R238). -/
theorem finishTxn_sharer {r : HomeReq} (hkind : r.kind = .upg) (h : p.dirFind r.line = some (w, e)) (hown : e.own = false)
    (hpres : e.pres = 2 ^ r.src) :
    p.finishTxn (newTxn r [] false none) = p.grant (newTxn r [] false none) 3 false none true (2 ^ r.src) := by
  unfold Pkg.finishTxn
  simp [newTxn, hkind, h, hown, hpres]

end

section
variable {p : Pkg} {r : HomeReq} {w : Nat}

/-- A request for a line without an entry is granted the line from memory, and its entry names the requester (R237). -/
theorem serves_newEntry (hcalm : p.coh.txns = []) (hdcs : p.dcs r.pid = false) (hdir : dirTakes p r.line w)
    (hserve : p.serveOf r.line = .served) (hdecode : p.decode r.line = .data []) (hkind : r.kind.caches = true)
    (hready : r.ready = true) {k : Nat} {q : Pkg} (hq : q = (p.startReq r).homeRun (k + 1)) : ∃ b,
      q.msgs = p.msgs ++ [r.answer (.data b false false), r.answer (.cmp (if r.kind = .rds then 2 else 3) true)] ∧
      (q.dirSet (dirKey r.line)).ent w = some { newEntry r with fenced := 2 ^ r.src &&& p.fenceVec (mcOf r.line) != 0 } ∧
      q.coh.confq = p.coh.confq ∧ q.cores = p.cores ∧ q.hbm.mem = p.hbm.mem := by
  obtain ⟨hbegan, hfind⟩ := startReq_began hcalm hdcs hdir hkind
  obtain ⟨s, hs⟩ : ∃ s, p.startReq r = s := ⟨_, rfl⟩
  rw [hs] at hbegan hfind hq
  have hserve' : s.serveOf r.line = .served := (hbegan.reads.serveOf _).trans hserve
  have hdecode' : s.decode r.line = .data [] :=
    (hbegan.reads.decode (lineMeta_of_hbm hbegan.hbm _) hbegan.fresh).trans hdecode
  obtain ⟨b, u, hgrant, hu⟩ := grantMem_clean (x := newTxn r [] false none) hserve' hdecode' (if r.kind = .rds then 2 else 3)
    true (2 ^ r.src)
  have hufind : u.dirFind r.line = some (w, newEntry r) := (dirFind_of_dirs (by rw [hu.coh]) _).trans hfind
  have hutxns : u.coh.txns = [newTxn r [] false none] := by rw [hu.coh, hbegan.txns]
  have hgranted := granted_grant hufind hutxns (if r.kind = .rds then 2 else 3) true (some (b, false, false)) true (2 ^ r.src)
  have hfence : u.fenceVec (mcOf r.line) = p.fenceVec (mcOf r.line) := (hu.reads.trans hbegan.reads).fenceVec _
  rw [homeRun_of_readyTxn_some (readyTxn_of_ready hbegan.txns ((txnReady_newTxn ..).trans hready)),
    finishTxn_newEntry hkind hfind, hgrant, homeRun_of_readyTxn_none hgranted.readyTxn] at hq
  rw [hq]
  refine ⟨b, ?_, ?_, ?_, ?_, ?_⟩
  · exact hgranted.msgs.trans (by rw [msgs_of_net (hu.coh ▸ hbegan.net)]; rfl)
  · exact hgranted.ent.trans (by rw [← hfence]; rfl)
  · exact hgranted.confq.trans (by rw [hu.coh, hbegan.confq])
  · exact hgranted.cores.trans (hu.cores.trans hbegan.cores)
  · rw [hgranted.hbm, hu.mem, hbegan.hbm]

/-- The one sharer of a line that upgrades it is granted M, without data (R237, R238). -/
theorem serves_sharer {e : DirEnt} (hcalm : p.coh.txns = []) (hdcs : p.dcs r.pid = false)
    (hfind : p.dirFind r.line = some (w, e)) (hown : e.own = false) (hpid : e.pid = r.pid) (hpres : e.pres = 2 ^ r.src)
    (hkind : r.kind = .upg) (hready : r.ready = true) {k : Nat} {q : Pkg} (hq : q = (p.startReq r).homeRun (k + 1)) :
    q.msgs = p.msgs ++ [r.answer (.cmp 3 false)] ∧ q.cores = p.cores ∧ q.hbm = p.hbm := by
  rw [startReq_sharer hdcs hfind hown hpid hpres hkind] at hq
  have hbegan := openTxn_nil_began (r := r) hcalm 0 0x3F false
  have hfind' := dirFind_openTxn_nil_of_some hfind 0 0x3F false
  have hgranted := granted_grant hfind' hbegan.txns 3 false none true (2 ^ r.src)
  rw [homeRun_of_readyTxn_some (readyTxn_of_ready hbegan.txns ((txnReady_newTxn ..).trans hready)),
    finishTxn_sharer hkind hfind' hown hpres, homeRun_of_readyTxn_none hgranted.readyTxn] at hq
  rw [hq]
  exact ⟨hgranted.msgs.trans (congrArg (· ++ _) (msgs_of_net hbegan.net)), hgranted.cores.trans hbegan.cores,
    hgranted.hbm.trans hbegan.hbm⟩

end

/-! ### A request reaches its home (R234) -/

/-- The requester's record is made and the request is counted. -/
def Pkg.received (p : Pkg) (r : HomeReq) : Pkg := (p.noteReq r).evCount none 1 (mcOf r.line) (some r.pid) 0 1

theorem noteReq_eq (p : Pkg) (r : HomeReq) : p.noteReq r = { p with coh := { p.coh with reqs := (p.noteReq r).coh.reqs } } := by
  unfold Pkg.noteReq
  split <;> rfl

/-- What a request that has come in leaves as it was. -/
structure Pkg.CameIn (q p : Pkg) : Prop where
  coh : q.coh = { p.coh with reqs := q.coh.reqs }
  hbm : q.hbm = p.hbm
  cores : q.cores = p.cores
  fresh : q.fresh = p.fresh
  reads : q.ReadsAs p

theorem cameIn_received (p : Pkg) (r : HomeReq) : (p.received r).CameIn p := by
  have hreads : (p.noteReq r).ReadsAs p := .of_pages (by rw [noteReq_eq])
  refine ⟨?_, ?_, ?_, ?_, .trans (.evCount ..) hreads⟩
  · rw [Pkg.received, evCount_coh]
    exact congrArg Pkg.coh (noteReq_eq p r)
  · rw [Pkg.received, evCount_hbm, noteReq_eq]
  · rw [Pkg.received, evCount_cores, noteReq_eq]
  · rw [Pkg.received, evCount_fresh, noteReq_eq]

/-- A calm home that serves the line starts a request whose line has no entry or a sound one, and a way where it needs one. -/
theorem homeReq_starts {p : Pkg} {q : CohReq} {r : HomeReq} (hcalm : homeCalm p) (hserves : homeServes p q)
    (hline : r.line = q.line) (hpid : r.pid = q.pid.val) (hsound : p.entBroken r.line = false)
    (hway : ((p.dirFind r.line).isSome || !r.kind.caches || (p.dirVictim (dirKey r.line)).isSome) = true) :
    p.homeReq r = (p.received r).startReq r := by
  obtain ⟨htxns, hwb⟩ := hcalm
  obtain ⟨hhbm, hserve, hdcs, hrow, hconfq⟩ := hserves
  rw [← hline] at hhbm hserve hrow hconfq
  rw [← hpid] at hdcs
  have hin := cameIn_received p r
  obtain ⟨u, hu⟩ : ∃ u, u = p.received r := ⟨_, rfl⟩
  have hhome : p.homeReq r =
      if hbmSize ≤ r.line * 64 then u.send (r.answer (.err 2))
      else if u.dcs r.pid then u.send (r.answer (.err 3))
      else if u.serveOf r.line = .addr then u.send (r.answer (.err 2))
      else if u.entBroken r.line then u.findBroken r
      else if u.startable r && !u.coh.confq.any (fun q => q.line == r.line) then u.startReq r
      else u.enqueue r := by rw [hu]; rfl
  rw [← hu] at hin ⊢
  have hdirs : u.coh.dirs = p.coh.dirs := by rw [hin.coh]
  have hsound' : u.entBroken r.line = false := by
    rw [← hsound]
    simp only [Pkg.entBroken, dirFind_of_dirs hdirs, hin.reads.fenceVec]
  have hbusy : u.lineBusy r.line = false := by
    rw [Pkg.lineBusy, hin.coh]
    simp [htxns, hwb]
  have hstart : u.startable r = true := by
    unfold Pkg.startable
    rw [hbusy, hsound', rowHeld_of_ctl (congrArg Hbm.ctl hin.hbm), hrow, dirFind_of_dirs hdirs, dirVictim_of_dirs hdirs, hway]
    rfl
  have hnone : u.coh.confq.any (fun q => q.line == r.line) = false := by rw [hin.coh]; exact hconfq
  rw [hhome, if_neg (by omega), hin.reads.dcs, hdcs, hin.reads.serveOf, hserve, hsound', hstart, hnone]
  simp

end Sys2Proof.Machine
end

section
/-! A home serves uncached accesses and evictions (R233, R237, R241, R242). -/

namespace Sys2Proof.Machine

/-! ### A transaction ends (R242) -/

/-- The one transaction of a home has ended, after the messages `l`. -/
structure Pkg.Ended (q p : Pkg) (l : List Msg) : Prop where
  txns : q.coh.txns = []
  msgs : q.msgs = p.msgs ++ l
  cores : q.cores = p.cores
  hbm : q.hbm = p.hbm

section
variable {p : Pkg} {x : Txn}

theorem filter_own_record (x : Txn) : [x].filter (fun u => !(u.req.line == x.req.line && u.req.txid == x.req.txid)) = [] := by
  simp

/-- The entry is freed and the record dropped. -/
theorem ended_dropTxn (h : p.coh.txns = [x]) (l : List Msg) : (((p.sendAll l).freeEnt x.req.line).dropTxn x.req).Ended p l := by
  have hdir := (dirOnly_dirModify (p.sendAll l) x.req.line (fun _ => none)).eq
  have hmsgs := msgs_sendAll p l
  have hsend := sendAll_eq p l
  obtain ⟨q, hq⟩ : ∃ q, q = p.sendAll l := ⟨_, rfl⟩
  rw [← hq] at hdir hmsgs hsend ⊢
  rw [Pkg.freeEnt, hdir]
  have htxns : q.coh.txns = [x] := by rw [hsend]; exact h
  refine ⟨?_, hmsgs, ?_, ?_⟩
  · change q.coh.txns.filter _ = []
    rw [htxns, filter_own_record]
  · change q.cores = _; rw [hsend]
  · change q.hbm = _; rw [hsend]

/-- A line without an entry: the record is dropped. -/
theorem ended_closeTxn (h : p.coh.txns = [x]) (hfind : p.dirFind x.req.line = none) (l : List Msg) :
    ((p.sendAll l).closeTxn x.req.line x.req.txid).Ended p l := by
  have hmsgs := msgs_sendAll p l
  have hsend := sendAll_eq p l
  obtain ⟨q, hq⟩ : ∃ q, q = p.sendAll l := ⟨_, rfl⟩
  rw [← hq] at hmsgs hsend ⊢
  have htxns : q.coh.txns = [x] := by rw [hsend]; exact h
  have hnone : q.dirFind x.req.line = none := by rw [hsend]; exact hfind
  have hclose : q.closeTxn x.req.line x.req.txid = { q with coh := { q.coh with txns := [] } } := by
    unfold Pkg.closeTxn
    rw [htxns, filter_own_record]
    exact dirModify_of_none (p := { q with coh := { q.coh with txns := [] } }) hnone _
  rw [hclose]
  refine ⟨rfl, hmsgs, ?_, ?_⟩
  · change q.cores = _; rw [hsend]
  · change q.hbm = _; rw [hsend]

end

/-! ### An IORD (R237) -/

section
variable {p : Pkg} {r : HomeReq}

/-- The bytes asked for come from memory. -/
theorem finishTxn_iord (hkind : r.kind = .iord) (hfind : p.dirFind r.line = none) (hserve : p.serveOf r.line = .served)
    (hdecode : p.decode r.line = .data []) : ∃ (b : List Byte) (q : Pkg), q.LineRead p ∧
      p.finishTxn (newTxn r [] false none) =
        (q.sendAll [r.answer (.data b false false), r.answer (.cmp 0 true)]).closeTxn r.line r.txid := by
  obtain ⟨b, q, hread, hq⟩ := lineRead_clean r.pid r.src hserve hdecode
  refine ⟨(b.drop r.off).take r.len, q, hq, ?_⟩
  have hown : p.finishTxn (newTxn r [] false none) = p.finishIord (newTxn r [] false none) false := by
    unfold Pkg.finishTxn
    simp [newTxn, hkind, hfind]
  have hback : p.writeBack (newTxn r [] false none) = p := rfl
  rw [hown]
  unfold Pkg.finishIord
  rw [hback]
  dsimp only [newTxn]
  rw [hread]
  rfl

theorem serves_iord (hcalm : p.coh.txns = []) (hdcs : p.dcs r.pid = false) (hfind : p.dirFind r.line = none)
    (hserve : p.serveOf r.line = .served) (hdecode : p.decode r.line = .data []) (hkind : r.kind = .iord)
    (hready : r.ready = true) {k : Nat} {q : Pkg} (hq : q = (p.startReq r).homeRun (k + 1)) : q.coh.txns = [] ∧
      (∃ b, q.msgs = p.msgs ++ [r.answer (.data b false false), r.answer (.cmp 0 true)]) ∧ q.cores = p.cores ∧
      q.hbm.mem = p.hbm.mem := by
  rw [startReq_uncached hdcs hfind (by rw [hkind]; rfl)] at hq
  have hbegan := openTxn_nil_began (r := r) hcalm 0 0x3F false
  have hfind' := dirFind_openTxn_nil_of_none hfind 0 0x3F false
  obtain ⟨s, hs⟩ : ∃ s, p.openTxn r 0 0x3F false [] = s := ⟨_, rfl⟩
  rw [hs] at hbegan hfind' hq
  have hdecode' : s.decode r.line = .data [] :=
    (hbegan.reads.decode (lineMeta_of_hbm hbegan.hbm _) hbegan.fresh).trans hdecode
  obtain ⟨b, u, hu, hfinish⟩ := finishTxn_iord hkind hfind' ((hbegan.reads.serveOf _).trans hserve) hdecode'
  have hended : ((u.sendAll [r.answer (.data b false false), r.answer (.cmp 0 true)]).closeTxn r.line r.txid).Ended u _ :=
    ended_closeTxn (x := newTxn r [] false none) (hu.coh ▸ hbegan.txns)
      ((dirFind_of_dirs (by rw [hu.coh]) _).trans hfind') _
  rw [homeRun_of_readyTxn_some (readyTxn_of_ready hbegan.txns ((txnReady_newTxn ..).trans hready)), hfinish,
    homeRun_of_readyTxn_none (readyTxn_of_no_txns hended.txns)] at hq
  rw [hq]
  refine ⟨hended.txns, ⟨b, ?_⟩, ?_, ?_⟩
  · exact hended.msgs.trans (congrArg (· ++ _) (msgs_of_net (hu.coh ▸ hbegan.net)))
  · exact hended.cores.trans (hu.cores.trans hbegan.cores)
  · rw [hended.hbm, hu.mem, hbegan.hbm]

end

/-! ### An IOWR (R233, R241) -/

section
variable {p : Pkg} {r : HomeReq}

/-- An IOWR whose data has not come waits for it (R241). -/
theorem waits_iowr (hcalm : p.coh.txns = []) (hdcs : p.dcs r.pid = false) (hfind : p.dirFind r.line = none)
    (hkind : r.kind = .iowr) (hready : r.ready = false) (k : Nat) : (p.startReq r).homeRun k = p.startReq r ∧
      (p.startReq r).Began p (newTxn r [] false none) := by
  rw [startReq_uncached hdcs hfind (by rw [hkind]; rfl)]
  have hbegan := openTxn_nil_began (r := r) hcalm 0 0x3F false
  exact ⟨homeRun_of_readyTxn_none (readyTxn_of_not_ready hbegan.txns ((txnReady_newTxn ..).trans hready)) k, hbegan⟩

/-- No data of the request came ahead of it. -/
theorem earlyData_none (h : ∀ w ∈ p.coh.wb, ¬ (w.src = r.src ∧ w.line = r.line ∧ w.txid = r.txid)) : p.earlyData r = p := by
  have hnone : p.coh.wb.find? (wbDataOf r.msg) = none := by
    rw [List.find?_eq_none]
    intro w hw
    have hother := h w hw
    simp only [wbDataOf, HomeReq.msg, Bool.and_eq_true, beq_iff_eq]
    tauto
  unfold Pkg.earlyData
  rw [hnone]
  split <;> rfl

theorem earlyData_of_kind (h : r.kind ≠ .iowr) : p.earlyData r = p := by
  simp [Pkg.earlyData, h]

/-- The request of an IOWR with its WbData (R230, R233). -/
def HomeReq.filled (r : HomeReq) (b : List Byte) (mask : Nat) (poison : Bool) : HomeReq :=
  { r with bytes := b, mask := mask, poison := poison, ready := true, off := if r.op = 0 then 0 else r.off,
           carry := decide (r.op = 2 ∨ r.op = 3) && (b.getD r.len 0).getLsbD 0 }

/-- WbData reaches the one transaction of a home, an IOWR that waits for it. -/
theorem homeWbData_iowr {x : Txn} {m : Msg} (htxns : p.coh.txns = [x]) (hconfq : p.coh.confq = [])
    (hkind : x.req.kind = .iowr) (hsrc : x.req.src = m.src) (htxid : x.req.txid = m.txid) (hline : x.req.line = m.line)
    (hready : x.req.ready = false) (b : List Byte) (mask : Nat) (dirty poison : Bool) :
    p.homeWbData m b mask dirty poison =
      { p with coh := { p.coh with txns := [{ x with req := x.req.filled b mask poison }], confq := [] } } := by
  unfold Pkg.homeWbData
  simp [htxns, hconfq, hkind, hsrc, htxid, hline, hready, HomeReq.filled]

/-- The write of a full line that has its data (R241). -/
theorem finishIowr_full {x : Txn} (hfull : x.req.op = 0 ∧ x.req.off = 0 ∧ x.req.mask = 2 ^ 64 - 1)
    (hserve : p.serveOf x.req.line = .served) (hlen : x.req.bytes.length = 64) :
    ∃ q : Pkg, q.LineWritten p x.req.line x.req.bytes ∧
      p.finishIowr x = ((q.sendAll [x.req.answer (.cmp 0 false)]).freeEnt x.req.line).dropTxn x.req := by
  obtain ⟨q, hwrite, hq⟩ := lineWrite_served x.req.pid (x.req.poison || x.req.poison) hserve hlen
  refine ⟨q, hq, ?_⟩
  have hop := hfull.1
  unfold Pkg.finishIowr
  dsimp only
  rw [if_pos hfull]
  dsimp only
  rw [if_pos hop, if_pos hfull, hwrite]
  dsimp only
  rw [if_pos hop, hop]
  rfl

/-- What an IOWR with its data leaves in a line that held `old`, when it does not write all of it (R233, R241). -/
def HomeReq.merged (r : HomeReq) (old : List Byte) : List Byte :=
  if r.op = 0 then mergeBytes old r.bytes r.off r.mask
  else putSlice old r.off (leBytes r.len (ioAtomic r.op r.len (leNat ((old.drop r.off).take r.len)) r.bytes r.carry))

/-- What it is answered: Cmp, with an operation's former bytes before it. -/
def HomeReq.iowrAnswers (r : HomeReq) (old : List Byte) (poison : Bool) : List Msg :=
  (if r.op = 0 then [] else [r.answer (.data ((old.drop r.off).take r.len) false poison)]) ++ [r.answer (.cmp 0 (r.op != 0))]

theorem length_merged {old : List Byte} (hold : old.length = 64) (hlen : r.off + r.len ≤ 64) : (r.merged old).length = 64 := by
  unfold HomeReq.merged
  split
  · simp [mergeBytes]
  · simp [putSlice, hold]
    omega

/-- The write of a part of a line, or an operation, on the data that a snooped die has sent (R233, R241). -/
theorem finishIowr_part {x : Txn} {old : List Byte} (hfull : ¬ (x.req.op = 0 ∧ x.req.off = 0 ∧ x.req.mask = 2 ^ 64 - 1))
    (hdata : x.data = some old) (hserve : p.serveOf x.req.line = .served) (hold : old.length = 64)
    (hlen : x.req.off + x.req.len ≤ 64) : ∃ q : Pkg, q.LineWritten p x.req.line (x.req.merged old) ∧
      p.finishIowr x = ((q.sendAll (x.req.iowrAnswers old x.poison)).freeEnt x.req.line).dropTxn x.req := by
  obtain ⟨q, hwrite, hq⟩ := lineWrite_served x.req.pid (x.poison || x.req.poison) hserve (length_merged hold hlen)
  refine ⟨q, hq, ?_⟩
  unfold Pkg.finishIowr
  dsimp only
  rw [if_neg hfull, hdata]
  dsimp only
  rw [if_neg hfull, ← HomeReq.merged, hwrite]
  dsimp only [HomeReq.iowrAnswers]
  split <;> rfl

/-- WbData completes the IOWR that waited for it: its line holds the result, and its requester is answered (R241). -/
theorem serves_wbData {x : Txn} {m : Msg} (htxns : p.coh.txns = [x]) (hconfq : p.coh.confq = []) (hsnoops : x.snoops = [])
    (hsnooped : x.snooped = []) (hawait : x.await = []) (hgranted : x.granted = false) (hinval : x.inval = false)
    (hkind : x.req.kind = .iowr) (hsrc : x.req.src = m.src) (htxid : x.req.txid = m.txid) (hline : x.req.line = m.line)
    (hready : x.req.ready = false) (hserve : p.serveOf m.line = .served) {b : List Byte} {mask : Nat} {dirty poison : Bool}
    {l : List Msg} {new : List Byte} (hnew : new.length = 64)
    (hfinish : ∀ s : Pkg, s.serveOf x.req.line = .served → ∃ q : Pkg, q.LineWritten s x.req.line new ∧
      s.finishIowr { x with req := x.req.filled b mask poison } =
        ((q.sendAll l).freeEnt x.req.line).dropTxn (x.req.filled b mask poison))
    {k : Nat} {q : Pkg} (hq : q = (p.homeWbData m b mask dirty poison).homeRun (k + 1)) :
    q.coh.txns = [] ∧ q.msgs = p.msgs ++ l ∧ memBytes q.hbm.mem (p.cell m.line * 64) 64 = new ∧
      (∀ a, a < p.cell m.line * 64 ∨ p.cell m.line * 64 + 64 ≤ a → memByte q.hbm.mem a = memByte p.hbm.mem a) ∧
      q.cores = p.cores := by
  obtain ⟨x', hx'⟩ : ∃ x' : Txn, x' = { x with req := x.req.filled b mask poison } := ⟨_, rfl⟩
  obtain ⟨s, hs⟩ : ∃ s : Pkg, s = { p with coh := { p.coh with txns := [x'], confq := [] } } := ⟨_, rfl⟩
  rw [homeWbData_iowr htxns hconfq hkind hsrc htxid hline hready, ← hx', ← hs] at hq
  have hstxns : s.coh.txns = [x'] := by rw [hs]
  have hsready : s.txnReady x' = true := by
    rw [txnReady_of_no_snoops s (by rw [hx', hsnoops]) (by rw [hx', hsnooped]) (by rw [hx', hawait]) (by rw [hx', hgranted])]
    · rw [hx']; rfl
    · intro _
      rw [hx']
      change x.req.kind ≠ _
      simp [hkind]
  have hfin : s.finishTxn x' = s.finishIowr x' := by
    have hkind' : x'.req.kind = .iowr := by rw [hx']; exact hkind
    have hinval' : x'.inval = false := by rw [hx']; exact hinval
    unfold Pkg.finishTxn
    simp [hkind', hinval']
  have hsserve : s.serveOf x.req.line = .served := by rw [hs, hline]; exact hserve
  obtain ⟨u, hu, hend⟩ := hfinish s hsserve
  rw [← hx'] at hend
  have hended : (((u.sendAll l).freeEnt x.req.line).dropTxn (x.req.filled b mask poison)).Ended u l := by
    have hended := ended_dropTxn (x := x') (hu.coh ▸ hstxns) l
    rw [hx'] at hended
    exact hended
  rw [homeRun_of_readyTxn_some (readyTxn_of_ready hstxns hsready), hfin, hend,
    homeRun_of_readyTxn_none (readyTxn_of_no_txns hended.txns)] at hq
  obtain ⟨hbytes, hrest⟩ := hu.bytes hnew
  have hcell : s.cell x.req.line = p.cell m.line := by rw [hline]; exact cell_of_ctl (by rw [hs]) _
  have hmem : s.hbm.mem = p.hbm.mem := by rw [hs]
  rw [hcell] at hbytes hrest
  rw [hmem] at hrest
  rw [hq, hended.hbm, hended.cores]
  refine ⟨hended.txns, ?_, hbytes, hrest, ?_⟩
  · exact hended.msgs.trans (congrArg (· ++ _) (msgs_of_net (by rw [hu.coh, hs])))
  · rw [hu.cores, hs]

end

/-! ### Evictions (R242) -/

section
variable {p : Pkg} {m : Msg} {w : Nat} {e : DirEnt}

/-- An eviction by a die that holds the line, whose entry is sound, is carried out at a calm home. -/
theorem homeEvict_applies (hcalm : p.coh.txns = []) (hfind : p.dirFind m.line = some (w, e)) (hpid : e.pid = m.pid)
    (hpres : e.pres / 2 ^ m.src % 2 = 1) (hsound : entOk (p.fenceVec (mcOf m.line)) e = true) :
    p.homeEvict m = if m.body = MsgBody.wbd then p.applyWbd m else p.applyEvc m := by
  unfold Pkg.homeEvict
  simp [hcalm, hfind, hpid, hpres, hsound]

/-- The last die that holds a clean line gives it up: its entry is freed, and Ack sent. -/
theorem applyEvc_last (hfind : p.dirFind m.line = some (w, e)) (hbusy : e.busy = false) (hd : m.src < 12)
    (hpres : e.pres = 2 ^ m.src) : (p.applyEvc m).msgs = p.msgs ++ [m.answer .ack] ∧
      ((p.applyEvc m).dirSet (dirKey m.line)).ent w = none ∧ (p.applyEvc m).hbm = p.hbm ∧
      (p.applyEvc m).coh.txns = p.coh.txns := by
  have hbits : ∀ d < 12, 2 ^ d &&& (0xFFF - 2 ^ d) = 0 := by decide
  obtain ⟨f, hf⟩ : ∃ f : DirEnt → Option DirEnt, f = fun e =>
      let v := e.pres &&& (0xFFF - 2 ^ m.src)
      if v = 0 ∧ !e.busy then none else some { e with pres := v } := ⟨_, rfl⟩
  have hfree : f e = none := by
    rw [hf]
    dsimp only
    rw [hpres, hbits _ hd, hbusy]
    simp
  have happly : p.applyEvc m = (p.dirModify m.line f).send (m.answer .ack) := by rw [hf]; rfl
  have hdir := (dirOnly_dirModify p m.line f).eq
  rw [happly]
  refine ⟨?_, (ent_dirModify hfind f).trans hfree, ?_, ?_⟩
  · rw [msgs_send, msgs_of_net (p := p) (by rw [hdir])]
  · change (p.dirModify m.line f).hbm = _; rw [hdir]
  · change (p.dirModify m.line f).coh.txns = _; rw [hdir]

/-- A dirty eviction whose data is at the home: memory is written, the entry freed, and Ack sent. -/
theorem applyWbd_writes {v : Msg} {b : List Byte} {mask : Nat} {dirty poison : Bool}
    (hfind : p.dirFind m.line = some (w, e)) (hwb : p.coh.wb.find? (wbDataOf m) = some v)
    (hbody : v.body = .wbData b mask dirty poison) (hserve : p.serveOf m.line = .served) (hlen : b.length = 64) :
    (p.applyWbd m).msgs = p.msgs ++ [m.answer .ack] ∧ ((p.applyWbd m).dirSet (dirKey m.line)).ent w = none ∧
      memBytes (p.applyWbd m).hbm.mem (p.cell m.line * 64) 64 = b ∧
      (∀ a, a < p.cell m.line * 64 ∨ p.cell m.line * 64 + 64 ≤ a →
        memByte (p.applyWbd m).hbm.mem a = memByte p.hbm.mem a) ∧ (p.applyWbd m).coh.txns = p.coh.txns := by
  obtain ⟨s, hs⟩ : ∃ s : Pkg, s = { p with coh := { p.coh with wb := p.coh.wb.filter (fun w => !wbDataOf m w) } } := ⟨_, rfl⟩
  have hsserve : s.serveOf m.line = .served := by rw [hs]; exact hserve
  obtain ⟨u, hwrite, hu⟩ := lineWrite_served m.pid poison hsserve hlen
  have happly : p.applyWbd m = (u.freeEnt m.line).send (m.answer .ack) := by
    unfold Pkg.applyWbd
    rw [hwb]
    dsimp only
    rw [hbody, ← hs]
    dsimp only
    rw [hwrite]
  have hufind : u.dirFind m.line = some (w, e) := (dirFind_of_dirs (by rw [hu.coh, hs]) _).trans hfind
  have hdir := (dirOnly_dirModify u m.line (fun _ => none)).eq
  obtain ⟨hbytes, hrest⟩ := hu.bytes hlen
  have hcell : s.cell m.line = p.cell m.line := cell_of_ctl (by rw [hs]) _
  have hmem : s.hbm.mem = p.hbm.mem := by rw [hs]
  rw [hcell] at hbytes hrest
  rw [hmem] at hrest
  have hhbm : ((u.freeEnt m.line).send (m.answer .ack)).hbm = u.hbm := by
    change (u.dirModify m.line _).hbm = _
    rw [hdir]
  rw [happly, hhbm]
  refine ⟨?_, ent_dirModify hufind _, hbytes, hrest, ?_⟩
  · rw [msgs_send, msgs_of_net (p := p)]
    change (u.dirModify m.line _).coh.net = _
    rw [hdir, hu.coh, hs]
  · change (u.dirModify m.line _).coh.txns = _
    rw [hdir, hu.coh, hs]

end

end Sys2Proof.Machine
end

section
/-! Requests, evictions and data arrive at a home (R225, R230, R234, R261). -/

namespace Sys2Proof.Machine

/-! ### Arrival -/

theorem findIdx?_some {α : Type} {f : α → Bool} {l : List α} {i : Nat} {a : α} (h : findIdx? f l = some (i, a)) : f a = true := by
  induction l generalizing i with
  | nil => cases h
  | cons b l ih =>
    unfold findIdx? at h
    split at h
    next hb => cases h; exact hb
    next =>
      obtain ⟨⟨j, c⟩, hj, heq⟩ := Option.map_eq_some_iff.1 h
      cases heq
      exact ih hj

/-- The package once a message in flight has left the network, or its credit has returned. -/
def Pkg.relieved (p : Pkg) (net : List Flit) (f : Fabric) : Pkg := { p with coh := { p.coh with net := net }, fabric := f }

/-- What arrives is the message of the row, but for its urgency. -/
theorem plain_arrived (p : Pkg) (m : Msg) : (arrived p m).plain = m.plain := by
  unfold arrived
  split
  next i f hf => exact of_decide_eq_true (findIdx?_some (f := fun f : Flit => decide (f.msg.plain = m.plain)) hf)
  next => rfl

theorem returnCredit_eq (p : Pkg) (b : Option (Nat × Nat)) :
    p.returnCredit b = { p with fabric := (p.returnCredit b).fabric } := by
  unfold Pkg.returnCredit
  split <;> rfl

theorem takeRaw_eq (p : Pkg) (m : Msg) : p.takeRaw m = { p with fabric := (p.takeRaw m).fabric } := by
  unfold Pkg.takeRaw
  dsimp only
  split <;> rfl

/-- A message that comes in is delivered, and transactions that are then ready end. -/
theorem arrive_of_comesIn {p : Pkg} {m : Msg} (h : comesIn p m) :
    ∃ net f, p.arrive m = ((p.relieved net f).deliver (arrived p m)).homeRun 8 := by
  unfold comesIn at h
  unfold Pkg.arrive arrived
  cases hf : findIdx? (fun f => decide (f.msg.plain = m.plain)) p.coh.net with
  | none =>
    rw [hf] at h
    dsimp only at h ⊢
    rw [if_pos h, takeRaw_eq]
    exact ⟨p.coh.net, _, rfl⟩
  | some x =>
    obtain ⟨i, f⟩ := x
    rw [hf] at h
    obtain ⟨hhead, hride, htakes⟩ := h
    dsimp only
    rw [if_pos hhead]
    unfold Pkg.takeFlit
    rw [hride]
    dsimp only
    rw [if_pos htakes, returnCredit_eq]
    exact ⟨p.coh.net.eraseIdx i, _, rfl⟩

section
variable {a m : Msg}

theorem head_of_plain (h : a.plain = m.plain) :
    a.line = m.line ∧ a.pid = m.pid ∧ a.src = m.src ∧ a.dst = m.dst ∧ a.txid = m.txid := by
  injection h with _ hline hpid hsrc hdst htxid
  exact ⟨hline, hpid, hsrc, hdst, htxid⟩

/-- The urgency that a request carries is cleared; what another message carries stays. -/
theorem plain_body_of_not_req (hm : ∀ r, m.body ≠ .req r) : m.plain.body = m.body := by
  unfold Msg.plain
  dsimp only
  split
  next r hr => exact absurd hr (hm r)
  next => rfl

/-- A message that is no request differs in its own urgency alone. -/
theorem body_of_plain (h : a.plain = m.plain) (hm : ∀ r, m.body ≠ .req r) : a.body = m.body := by
  have hbody : a.plain.body = m.body := h ▸ plain_body_of_not_req hm
  have ha : ∀ r, a.body ≠ .req r := by
    intro r hr
    refine hm { r with urg := 0 } (hbody ▸ ?_)
    unfold Msg.plain
    rw [hr]
  rw [← hbody, plain_body_of_not_req ha]

/-- A request carries an urgency of its own, which is replaced by that of the message. -/
theorem req_of_plain {r : HomeReq} (h : a.plain = m.plain) (hm : m.body = .req r) :
    ∃ r', a.body = .req r' ∧ ∀ u, { r' with urg := u } = { r with urg := u } := by
  have hbody := congrArg Msg.body h
  unfold Msg.plain at hbody
  rw [hm] at hbody
  cases ha : a.body with
  | req r' =>
    rw [ha] at hbody
    refine ⟨r', rfl, fun u => ?_⟩
    have hreq : { r' with urg := 0 } = { r with urg := 0 } := MsgBody.req.inj hbody
    exact congrArg (fun x : HomeReq => { x with urg := u }) hreq
  | _ => rw [ha] at hbody; cases hbody

end

/-- The request of a row as it arrives, with the urgency of its message (R264). -/
def arrivedReq (p : Pkg) (q : CohReq) (r : HomeReq) : HomeReq := { r with urg := (arrived p (reqMsg q r)).urg }

theorem answer_arrivedReq (p : Pkg) (q : CohReq) (r : HomeReq) (b : MsgBody) :
    (arrived p (reqMsg q r)).answer b = (arrivedReq p q r).answer b := by
  obtain ⟨hline, hpid, hsrc, hdst, htxid⟩ := head_of_plain (plain_arrived p (reqMsg q r))
  simp only [Msg.answer, HomeReq.answer, hline, hpid, hsrc, hdst, htxid]
  rfl

/-- A request that comes in reaches its home. -/
theorem arrive_request {p : Pkg} {q : CohReq} {r : HomeReq} (h : comesIn p (reqMsg q r)) :
    ∃ net f, p.arrive (reqMsg q r) =
      (((p.relieved net f).homeReq (arrivedReq p q r)).earlyData (arrivedReq p q r)).homeRun 8 := by
  obtain ⟨net, f, harrive⟩ := arrive_of_comesIn h
  obtain ⟨r', hbody, hreq⟩ := req_of_plain (plain_arrived p (reqMsg q r)) (r := { r with urg := q.urg.val }) rfl
  refine ⟨net, f, harrive.trans ?_⟩
  unfold Pkg.deliver
  rw [hbody]
  dsimp only
  rw [hreq]
  rfl

/-! ### The rows -/

section
variable {p : Pkg} {q : CohReq}

theorem readCode_clean (p : Pkg) (line : Nat) : p.readCode line .clean = p := by
  unfold Pkg.readCode
  split <;> rfl

theorem bringReq_eq (p : Pkg) (q : CohReq) (ok : Bool) (r : HomeReq) : p.bringReq q ok r =
    (if ok && !pendingEvict p q && q.readable then p.readCode q.line q.code else p).bring q.toMsgHead
      (ok && !pendingEvict p q) (reqMsg q r) := rfl

/-- A request that its sender can send comes to its home. -/
theorem bringReq_sends (hread : q.readable = true) (hcode : q.code = .clean)
    (hkeeps : ∀ x, p.dline q.src.val q.line = some x → x.evicting = false) (r : HomeReq) :
    p.bringReq q true r = p.arrive (reqMsg q r) := by
  have hfree : pendingEvict p q = false := by
    unfold pendingEvict
    split
    next x hx => exact hkeeps x hx
    next => rfl
  rw [bringReq_eq, hfree, hcode, readCode_clean]
  simp [Pkg.bring, hread]

theorem dieReq_sends {k : ReqKind} (h : dieSends p q k) :
    p.dieReq k q = p.arrive (reqMsg q (mkReq k q.line q.pid.val q.src.val q.txid.val)) := by
  obtain ⟨hup, hread, hcode, hkeeps, -⟩ := h
  rw [Pkg.dieReq, hup]
  exact bringReq_sends hread hcode hkeeps _

/-- An eviction that its sender can send comes to its home. -/
theorem dieEvicts_sends {b : MsgBody} (h : dieEvictsNow p q b) :
    p.dieEvicts q b = p.arrive (rowMsg q.toMsgHead q.src.val 0x3F b) := by
  obtain ⟨hup, hread, hcode, -⟩ := h
  unfold Pkg.dieEvicts Pkg.bring
  simp [hup, hread, hcode, readCode_clean]

end

end Sys2Proof.Machine
end

section
/-! Homes serve requests, take data and evictions, and serve those that waited (R234 to R242). -/

namespace Sys2Proof.Machine

/-! ### Requests at a calm home -/

section
variable {p : Pkg} {q : CohReq} {r : HomeReq} {w : Nat}

/-- A request that a row has brought is started, on a package that differs from the present one in what a home does not read. -/
theorem arrive_starts (hcome : comesIn p (reqMsg q r)) (hcalm : homeCalm p) (hserves : homeServes p q) (hline : r.line = q.line)
    (hpid : r.pid = q.pid.val) (hsound : p.entBroken q.line = false)
    (hway : ((p.dirFind q.line).isSome || !r.kind.caches || (p.dirVictim (dirKey q.line)).isSome) = true) :
    ∃ s : Pkg, (∃ net f, s.CameIn (p.relieved net f)) ∧
      p.arrive (reqMsg q r) = ((s.startReq (arrivedReq p q r)).earlyData (arrivedReq p q r)).homeRun 8 := by
  obtain ⟨net, f, harrive⟩ := arrive_request hcome
  refine ⟨(p.relieved net f).received (arrivedReq p q r), ⟨net, f, cameIn_received ..⟩, ?_⟩
  rw [← hline] at hsound hway
  rw [harrive, homeReq_starts (p := p.relieved net f) (r := arrivedReq p q r) hcalm hserves hline hpid hsound hway]

/-- A request other than an IOWR awaits no data. -/
theorem arrive_starts_ready (hcome : comesIn p (reqMsg q r)) (hcalm : homeCalm p) (hserves : homeServes p q)
    (hline : r.line = q.line) (hpid : r.pid = q.pid.val) (hsound : p.entBroken q.line = false)
    (hway : ((p.dirFind q.line).isSome || !r.kind.caches || (p.dirVictim (dirKey q.line)).isSome) = true)
    (hkind : r.kind ≠ .iowr) : ∃ s : Pkg, (∃ net f, s.CameIn (p.relieved net f)) ∧
      p.arrive (reqMsg q r) = (s.startReq (arrivedReq p q r)).homeRun 8 := by
  obtain ⟨s, hin, harrive⟩ := arrive_starts hcome hcalm hserves hline hpid hsound hway
  rw [earlyData_of_kind (r := arrivedReq p q r) hkind] at harrive
  exact ⟨s, hin, harrive⟩

/-- What a home reads of a package in which a request has come in. -/
structure Pkg.Calm (s p : Pkg) (q : CohReq) : Prop where
  txns : s.coh.txns = []
  dcs : s.dcs q.pid.val = false
  serve : s.serveOf q.line = .served
  dirFind : s.dirFind q.line = p.dirFind q.line
  ent : ∀ k w, (s.dirSet k).ent w = (p.dirSet k).ent w
  dirVictim : ∀ k, s.dirVictim k = p.dirVictim k
  fenceVec : ∀ n, s.fenceVec n = p.fenceVec n
  decode : s.decode q.line = p.decode q.line
  wb : s.coh.wb = p.coh.wb
  hbm : s.hbm = p.hbm
  cores : s.cores = p.cores

theorem calm_of_cameIn {s : Pkg} {net : List Flit} {f : Fabric} (h : s.CameIn (p.relieved net f)) (hcalm : homeCalm p)
    (hserves : homeServes p q) : s.Calm p q := by
  obtain ⟨-, hserve, hdcs, -, -⟩ := hserves
  have hreads : s.ReadsAs p := h.reads.trans (.of_pages rfl)
  have hdirs : s.coh.dirs = p.coh.dirs := by rw [h.coh]; rfl
  have hhbm : s.hbm = p.hbm := h.hbm
  refine ⟨?_, (hreads.dcs _).trans hdcs, (hreads.serveOf _).trans hserve, dirFind_of_dirs hdirs _, ?_,
    dirVictim_of_dirs hdirs, hreads.fenceVec, hreads.decode (lineMeta_of_hbm hhbm _) h.fresh, ?_, hhbm, h.cores⟩
  · rw [h.coh]; exact hcalm.1
  · simp only [Pkg.dirSet, hdirs, implies_true]
  · rw [h.coh]; rfl

end

theorem entBroken_of_none {p : Pkg} {line : Nat} (h : p.dirFind line = none) : p.entBroken line = false := by
  rw [Pkg.entBroken, h]

theorem entBroken_of_sound {p : Pkg} {line w : Nat} {e : DirEnt} (h : p.dirFind line = some (w, e))
    (hok : entOk (p.fenceVec (mcOf line)) e = true) : p.entBroken line = false := by
  rw [Pkg.entBroken, h]
  simp [hok]

/-- What was put on its way last, on a package that sent nothing else. -/
theorem answers_of_msgs {t : State} {a : Msg} {r : HomeReq} {l₀ : List Msg} {l : List MsgBody}
    (hanswer : ∀ b, a.answer b = r.answer b) (h : t.pkg.msgs = l₀ ++ l.map r.answer) : Answers t a l := by
  refine sent_of_msgs (l₀ := l₀) ?_
  rw [h, List.map_congr_left fun b _ => (hanswer b).symm]

/-- The way of a message does not depend on the cells of a line. -/
theorem rideLegs_hbm (p : Pkg) (x : Hbm) (net : Nat) (legs : List Leg) :
    Pkg.rideLegs { p with hbm := x } net legs = p.rideLegs net legs := by
  induction legs with
  | nil => rfl
  | cons l rest ih =>
    unfold Pkg.rideLegs
    rw [ih]
    rfl

theorem ride_hbm (p : Pkg) (x : Hbm) (f : Flit) : Pkg.ride { p with hbm := x } f = p.ride f := by
  unfold Pkg.ride
  simp only [rideLegs_hbm]
  rfl

theorem comesIn_lines (p : Pkg) (lines : Tbl (Option LineMeta)) (m : Msg) :
    comesIn { p with hbm := { p.hbm with lines := lines } } m ↔ comesIn p m := by
  unfold comesIn
  simp only [ride_hbm]
  rfl

section
variable {s : State} {q : CohReq} {w : Nat}

/-- A line without an entry comes from memory with E or M, and its entry then names the requester (R237). -/
theorem newLine_granted {c : Instr} {k : ReqKind} (hcalm : homeCalm s.pkg) (hserves : homeServes s.pkg q)
    (hdir : dirTakes s.pkg q.line w) (hdecode : s.pkg.decode q.line = .data [])
    (hc : (c, k) ∈ [(Instr.rds q, ReqKind.rds), (.rdo q, .rdo), (.upg q, .upg)]) (hsends : dieSends s.pkg q k) :
    Completes c s (fun t =>
      (∃ b, Answers t (arrived s.pkg (reqMsg q (mkReq k q.line q.pid.val q.src.val q.txid.val)))
        [.data b false false, .cmp (if k = .rds then 2 else 3) true]) ∧
      (t.pkg.dirSet (dirKey q.line)).ent w = some
        { own := true, fenced := 2 ^ q.src.val &&& s.pkg.fenceVec (mcOf q.line) != 0, busy := true, pid := q.pid.val,
          pres := 2 ^ q.src.val, tag := q.line / 32768 } ∧
      t.mode = s.mode ∧ t.pkg.cores = s.pkg.cores ∧ t.pkg.hbm.mem = s.pkg.hbm.mem) := by
  obtain ⟨hexec, hcaches, hplain⟩ : exec c s = .next { s with pkg := s.pkg.dieReq k q } ∧ k.caches = true ∧ k ≠ .iowr := by
    simp only [List.mem_cons, Prod.mk.injEq, List.not_mem_nil, or_false] at hc
    rcases hc with ⟨rfl, rfl⟩ | ⟨rfl, rfl⟩ | ⟨rfl, rfl⟩ <;> exact ⟨rfl, rfl, by decide⟩
  rw [dieReq_sends hsends] at hexec
  obtain ⟨-, -, -, -, hcome⟩ := hsends
  obtain ⟨hfind, hvictim, hfree⟩ := hdir
  obtain ⟨u, ⟨net, f, hin⟩, harrive⟩ := arrive_starts_ready hcome hcalm hserves rfl rfl (entBroken_of_none hfind)
    (by simp [hvictim]) hplain
  have hu := calm_of_cameIn hin hcalm hserves
  obtain ⟨b, hmsgs, hent, -, hcores, hmem⟩ := serves_newEntry
    (r := arrivedReq s.pkg q (mkReq k q.line q.pid.val q.src.val q.txid.val)) hu.txns hu.dcs
    ⟨hu.dirFind.trans hfind, (hu.dirVictim _).trans hvictim, (hu.ent _ _).trans hfree⟩ hu.serve (hu.decode.trans hdecode)
    hcaches rfl harrive
  refine ⟨_, hexec, ⟨b, answers_of_msgs (answer_arrivedReq _ _ _) hmsgs⟩, hent.trans ?_, rfl, hcores.trans hu.cores, ?_⟩
  · rw [hu.fenceVec]; rfl
  · rw [hmem, hu.hbm]

/-- A sharer's UPG needs no data (R237, R238). -/
theorem sharer_upgraded {e : DirEnt} (hsends : dieSends s.pkg q .upg) (hcalm : homeCalm s.pkg) (hserves : homeServes s.pkg q)
    (hfind : s.pkg.dirFind q.line = some (w, e)) (hown : e.own = false) (hpid : e.pid = q.pid.val)
    (hpres : e.pres = 2 ^ q.src.val) (hok : entOk (s.pkg.fenceVec (mcOf q.line)) e = true) :
    Completes (.upg q) s (fun t =>
      Answers t (arrived s.pkg (reqMsg q (mkReq .upg q.line q.pid.val q.src.val q.txid.val))) [.cmp 3 false] ∧
      t.mode = s.mode ∧ t.pkg.cores = s.pkg.cores ∧ t.pkg.hbm = s.pkg.hbm) := by
  have hexec : exec (.upg q) s = .next { s with pkg := s.pkg.dieReq .upg q } := rfl
  rw [dieReq_sends hsends] at hexec
  obtain ⟨-, -, -, -, hcome⟩ := hsends
  obtain ⟨u, ⟨net, f, hin⟩, harrive⟩ := arrive_starts_ready hcome hcalm hserves rfl rfl (entBroken_of_sound hfind hok)
    (by simp [hfind]) nofun
  have hu := calm_of_cameIn hin hcalm hserves
  obtain ⟨hmsgs, hcores, hhbm⟩ := serves_sharer
    (r := arrivedReq s.pkg q (mkReq .upg q.line q.pid.val q.src.val q.txid.val)) hu.txns hu.dcs (hu.dirFind.trans hfind)
    hown hpid hpres rfl rfl harrive
  exact ⟨_, hexec, answers_of_msgs (answer_arrivedReq _ _ _) hmsgs, rfl, hcores.trans hu.cores, hhbm.trans hu.hbm⟩

/-- An IORD reads the line from memory (R237). -/
theorem iord_reads {off : Fin 64} {len : Nat} {dist : Disturb} (hsends : agentSends s.pkg q (ioReq q .iord off len 0 true))
    (hlo : 1 ≤ len) (hhi : off.val + len ≤ 64) (hcalm : homeCalm s.pkg) (hserves : homeServes s.pkg q)
    (hfind : s.pkg.dirFind q.line = none) (hdecode : (s.pkg.disturb q.line dist).decode q.line = .data []) :
    Completes (.iord q off len dist) s (fun t => t.pkg.coh.txns = [] ∧
      (∃ b, Answers t (arrived s.pkg (reqMsg q (ioReq q .iord off len 0 true))) [.data b false false, .cmp 0 true]) ∧
      t.mode = s.mode ∧ t.pkg.cores = s.pkg.cores ∧ t.pkg.hbm.mem = s.pkg.hbm.mem) := by
  obtain ⟨hup, hread, hcode, hkeeps, hcome⟩ := hsends
  obtain ⟨p, hp⟩ : ∃ p, p = s.pkg.disturb q.line dist := ⟨_, rfl⟩
  have hexec : exec (.iord q off len dist) s = .next { s with pkg := p.bringReq q true (ioReq q .iord off len 0 true) } := by
    rw [exec, execIord, upd_eq, hp]
    simp [hup, hlo, hhi]
    rfl
  have hsame := disturb_eq s.pkg q.line dist
  rw [← hp] at hsame hdecode
  have hcome' : comesIn p (reqMsg q (ioReq q .iord off len 0 true)) := by rw [hsame]; exact (comesIn_lines ..).2 hcome
  have harrived : ∀ m, arrived p m = arrived s.pkg m := by intro m; rw [hsame]; rfl
  have hkeeps' : ∀ x, p.dline q.src.val q.line = some x → x.evicting = false := by rw [hsame]; exact hkeeps
  have hcalm' : homeCalm p := by rw [hsame]; exact hcalm
  have hserves' : homeServes p q := by rw [hsame]; exact hserves
  have hfind' : p.dirFind q.line = none := by rw [hsame]; exact hfind
  rw [bringReq_sends hread hcode hkeeps'] at hexec
  obtain ⟨u, ⟨net, f, hin⟩, harrive⟩ := arrive_starts_ready hcome' hcalm' hserves' rfl rfl (entBroken_of_none hfind')
    (by simp [ioReq, mkReq, ReqKind.caches]) (by simp [ioReq, mkReq])
  have hu := calm_of_cameIn hin hcalm' hserves'
  obtain ⟨htxns, ⟨b, hmsgs⟩, hcores, hmem⟩ := serves_iord
    (r := arrivedReq p q (ioReq q .iord off len 0 true)) hu.txns hu.dcs (hu.dirFind.trans hfind')
    hu.serve (hu.decode.trans hdecode) rfl rfl harrive
  refine ⟨_, hexec, htxns, ⟨b, ?_⟩, rfl, ?_, ?_⟩
  · rw [← harrived]
    exact answers_of_msgs (answer_arrivedReq _ _ _) hmsgs
  · change (p.arrive _).cores = _
    rw [hcores, hu.cores, hsame]
  · change (p.arrive _).hbm.mem = _
    rw [hmem, hu.hbm, hsame]

/-- An IOWR waits for its WbData (R241). -/
theorem iowr_waits {off : Fin 64} {len : Nat} {op : IoOp}
    (hsends : agentSends s.pkg q (ioReq q .iowr off len (ioOpCode op) false)) (hlen : ioLenOk op off.val len = true)
    (hcalm : homeCalm s.pkg) (hserves : homeServes s.pkg q) (hfind : s.pkg.dirFind q.line = none)
    (hnone : ∀ w ∈ s.pkg.coh.wb, ¬ (w.src = q.src.val ∧ w.line = q.line ∧ w.txid = q.txid.val)) :
    Completes (.iowr q off len op) s (fun t => t.mode = s.mode ∧ t.pkg.cores = s.pkg.cores ∧ t.pkg.hbm = s.pkg.hbm ∧
      ∃ x, t.pkg.coh.txns = [x] ∧ x.snoops = [] ∧ x.granted = false ∧
        x.req = { ioReq q .iowr off len (ioOpCode op) false with
          urg := (arrived s.pkg (reqMsg q (ioReq q .iowr off len (ioOpCode op) false))).urg }) := by
  obtain ⟨hup, hread, hcode, hkeeps, hcome⟩ := hsends
  have hexec : exec (.iowr q off len op) s =
      .next { s with pkg := s.pkg.bringReq q true (ioReq q .iowr off len (ioOpCode op) false) } := by
    rw [exec, execIowr, upd_eq, hup, hlen]
    rfl
  rw [bringReq_sends hread hcode hkeeps] at hexec
  obtain ⟨u, ⟨net, f, hin⟩, harrive⟩ := arrive_starts hcome hcalm hserves rfl rfl (entBroken_of_none hfind)
    (by simp [ioReq, mkReq, ReqKind.caches])
  have hu := calm_of_cameIn hin hcalm hserves
  obtain ⟨hrun, hbegan⟩ := waits_iowr (r := arrivedReq s.pkg q (ioReq q .iowr off len (ioOpCode op) false)) hu.txns hu.dcs
    (hu.dirFind.trans hfind) rfl rfl 8
  rw [earlyData_none (by rw [hbegan.wb, hu.wb]; exact hnone), hrun] at harrive
  rw [harrive] at hexec
  exact ⟨_, hexec, rfl, hbegan.cores.trans hu.cores, hbegan.hbm.trans hu.hbm, _, hbegan.txns, rfl, rfl, rfl⟩

/-! ### Data -/

/-- The WbData of a write or an operation on the data of a snooped die. -/
theorem wbdata_completes {src : Fin 64} {h : MsgHead} {bytes : List Byte} {mask : Word} {dirty poison : Bool} {x : Txn}
    (hup : s.pkg.agentUp src.val = true) (hread : h.readable = true)
    (hcome : comesIn s.pkg (rowMsg h src.val 0x3F (.wbData bytes mask.toNat dirty poison)))
    (htxns : s.pkg.coh.txns = [x]) (hconfq : s.pkg.coh.confq = []) (hsnoops : x.snoops = []) (hsnooped : x.snooped = [])
    (hawait : x.await = []) (hgranted : x.granted = false) (hinval : x.inval = false) (hkind : x.req.kind = .iowr)
    (hsrc : x.req.src = src.val) (htxid : x.req.txid = h.txid.val) (hline : x.req.line = h.line) (hready : x.req.ready = false)
    (hserve : s.pkg.serveOf h.line = .served) {l : List Msg} {new : List Byte} (hnew : new.length = 64)
    (hfinish : ∀ p : Pkg, p.serveOf x.req.line = .served → ∃ q : Pkg, q.LineWritten p x.req.line new ∧
      p.finishIowr { x with req := x.req.filled bytes mask.toNat poison } =
        ((q.sendAll l).freeEnt x.req.line).dropTxn (x.req.filled bytes mask.toNat poison)) :
    Completes (.wbdata src h bytes mask dirty poison) s (fun t => t.pkg.coh.txns = [] ∧ Sent t l ∧
      memBytes t.pkg.hbm.mem (s.pkg.cell h.line * 64) 64 = new ∧
      (∀ a, a < s.pkg.cell h.line * 64 ∨ s.pkg.cell h.line * 64 + 64 ≤ a →
        memByte t.pkg.hbm.mem a = memByte s.pkg.hbm.mem a) ∧ t.mode = s.mode ∧ t.pkg.cores = s.pkg.cores) := by
  have hexec : exec (.wbdata src h bytes mask dirty poison) s =
      .next { s with pkg := s.pkg.arrive (rowMsg h src.val 0x3F (.wbData bytes mask.toNat dirty poison)) } := by
    rw [exec, execWbdata, upd_eq, hup, Pkg.bring, hread]
    rfl
  obtain ⟨net, f, harrive⟩ := arrive_of_comesIn hcome
  have hplain := plain_arrived s.pkg (rowMsg h src.val 0x3F (.wbData bytes mask.toNat dirty poison))
  obtain ⟨m, hm⟩ : ∃ m, m = arrived s.pkg (rowMsg h src.val 0x3F (.wbData bytes mask.toNat dirty poison)) := ⟨_, rfl⟩
  rw [← hm] at harrive hplain
  obtain ⟨hmline, -, hmsrc, -, hmtxid⟩ := head_of_plain hplain
  have hbody : m.body = .wbData bytes mask.toNat dirty poison := body_of_plain hplain nofun
  have hdeliver : (s.pkg.relieved net f).deliver m =
      (s.pkg.relieved net f).homeWbData m bytes mask.toNat dirty poison := by
    unfold Pkg.deliver
    rw [hbody]
  rw [hdeliver] at harrive
  have hcell : (s.pkg.relieved net f).cell m.line = s.pkg.cell h.line := by rw [hmline]; rfl
  obtain ⟨hend, hmsgs, hbytes, hrest, hcores⟩ := serves_wbData (p := s.pkg.relieved net f) htxns hconfq hsnoops hsnooped hawait
    hgranted hinval hkind (hsrc.trans hmsrc.symm) (htxid.trans hmtxid.symm) (hline.trans hmline.symm) hready
    (by rw [hmline]; exact hserve) hnew hfinish harrive
  rw [hcell] at hbytes hrest
  exact ⟨_, hexec, hend, sent_of_msgs hmsgs, hbytes, hrest, rfl, hcores⟩

/-- Words as R230 carries them: the mask of a full line. -/
theorem toNat_eq_full {mask : Word} : mask.toNat = 2 ^ 64 - 1 ↔ mask = BitVec.allOnes 64 := by
  rw [← BitVec.toNat_inj, BitVec.toNat_allOnes]

theorem merged_filled (r : HomeReq) (old b : List Byte) (mask : Nat) (poison : Bool) :
    (r.filled b mask poison).merged old = ioResult r old b mask := by
  unfold HomeReq.merged ioResult
  by_cases hop : r.op = 0
  · simp [HomeReq.filled, hop]
  · simp [HomeReq.filled, hop]

theorem iowrAnswers_filled (r : HomeReq) (old b : List Byte) (mask : Nat) (poison po : Bool) :
    (r.filled b mask poison).iowrAnswers old po =
      (if r.op = 0 then [] else [r.answer (.data ((old.drop r.off).take r.len) false po)]) ++
        [r.answer (.cmp 0 (r.op != 0))] := by
  unfold HomeReq.iowrAnswers
  by_cases hop : r.op = 0
  · simp [HomeReq.filled, HomeReq.answer, hop]
  · simp [HomeReq.filled, HomeReq.answer, hop]

end

/-! ### Evictions -/

section
variable {p : Pkg} {q : CohReq} {w : Nat} {e : DirEnt}

/-- An eviction that reaches a calm home from a die that holds the line is carried out. -/
theorem arrive_evicts {b : MsgBody} (hb : b = .evc ∨ b = .wbd) (hsends : dieEvictsNow p q b) (hcalm : homeCalm p)
    (hfind : p.dirFind q.line = some (w, e)) (hpid : e.pid = q.pid.val) (hpres : e.pres / 2 ^ q.src.val % 2 = 1)
    (hok : entOk (p.fenceVec (mcOf q.line)) e = true) : ∃ net f, p.dieEvicts q b =
      (if b = .wbd then (p.relieved net f).applyWbd (arrived p (rowMsg q.toMsgHead q.src.val 0x3F b))
        else (p.relieved net f).applyEvc (arrived p (rowMsg q.toMsgHead q.src.val 0x3F b))).homeRun 8 := by
  rw [dieEvicts_sends hsends]
  obtain ⟨-, -, -, hcome⟩ := hsends
  obtain ⟨net, f, harrive⟩ := arrive_of_comesIn hcome
  refine ⟨net, f, harrive.trans (congrArg (Pkg.homeRun 8) ?_)⟩
  have hplain := plain_arrived p (rowMsg q.toMsgHead q.src.val 0x3F b)
  have hbody := body_of_plain hplain (by rcases hb with rfl | rfl <;> nofun)
  obtain ⟨m, hm⟩ : ∃ m, m = arrived p (rowMsg q.toMsgHead q.src.val 0x3F b) := ⟨_, rfl⟩
  rw [← hm] at hplain hbody ⊢
  obtain ⟨hline, hmpid, hsrc, -, -⟩ := head_of_plain hplain
  have hdeliver : (p.relieved net f).deliver m = (p.relieved net f).homeEvict m := by
    unfold Pkg.deliver
    rw [hbody]
    rcases hb with rfl | rfl <;> rfl
  rw [hdeliver, homeEvict_applies (p := p.relieved net f) hcalm.1 (by rw [hline]; exact hfind) (by rw [hmpid]; exact hpid)
    (by rw [hsrc]; exact hpres) (by rw [hline]; exact hok), hbody]
  rfl

end

section
variable {s : State} {q : CohReq} {w : Nat} {e : DirEnt}

/-- An eviction of a clean line ends with Ack and frees its entry (R242). -/
theorem evc_frees (hsends : dieEvictsNow s.pkg q .evc) (hcalm : homeCalm s.pkg)
    (hfind : s.pkg.dirFind q.line = some (w, e)) (hpid : e.pid = q.pid.val) (hbusy : e.busy = false)
    (hok : entOk (s.pkg.fenceVec (mcOf q.line)) e = true) (hpres : e.pres = 2 ^ q.src.val) :
    Completes (.evc q) s (fun t => Answers t (arrived s.pkg (rowMsg q.toMsgHead q.src.val 0x3F .evc)) [.ack] ∧
      (t.pkg.dirSet (dirKey q.line)).ent w = none ∧ t.pkg.hbm = s.pkg.hbm ∧ t.mode = s.mode) := by
  have hexec : exec (.evc q) s = .next { s with pkg := s.pkg.dieEvicts q .evc } := rfl
  have hdie : q.src.val < 12 := by
    have hup := hsends.1
    simp [Pkg.dieUp] at hup
    omega
  have hbit : e.pres / 2 ^ q.src.val % 2 = 1 := by rw [hpres, Nat.div_self (Nat.two_pow_pos _)]
  obtain ⟨net, f, hevict⟩ := arrive_evicts (.inl rfl) hsends hcalm hfind hpid hbit hok
  obtain ⟨hline, -, hsrc, -, -⟩ := head_of_plain (plain_arrived s.pkg (rowMsg q.toMsgHead q.src.val 0x3F .evc))
  obtain ⟨m, hm⟩ : ∃ m, m = arrived s.pkg (rowMsg q.toMsgHead q.src.val 0x3F .evc) := ⟨_, rfl⟩
  rw [← hm] at hevict hline hsrc ⊢
  rw [if_neg nofun] at hevict
  have hmline : m.line = q.line := hline
  have hmsrc : m.src = q.src.val := hsrc
  obtain ⟨hmsgs, hent, hhbm, htxns⟩ := applyEvc_last (p := s.pkg.relieved net f) (m := m) (by rw [hmline]; exact hfind) hbusy
    (by omega) (by rw [hmsrc]; exact hpres)
  rw [homeRun_of_readyTxn_none (readyTxn_of_no_txns (htxns.trans hcalm.1))] at hevict
  rw [hevict] at hexec
  rw [hmline] at hent
  exact ⟨_, hexec, sent_of_msgs hmsgs, hent, hhbm, rfl⟩

/-- A dirty eviction whose data is at the home writes memory (R242). -/
theorem wbd_writes {m : Msg} {b : List Byte} {mask : Nat} {dirty poison : Bool} (hsends : dieEvictsNow s.pkg q .wbd)
    (hcalm : homeCalm s.pkg) (hfind : s.pkg.dirFind q.line = some (w, e)) (hpid : e.pid = q.pid.val)
    (hok : entOk (s.pkg.fenceVec (mcOf q.line)) e = true) (hpres : e.pres / 2 ^ q.src.val % 2 = 1)
    (hserve : s.pkg.serveOf q.line = .served) (hlen : b.length = 64)
    (hwb : s.pkg.coh.wb.find? (wbDataOf (rowMsg q.toMsgHead q.src.val 0x3F .wbd)) = some m)
    (hbody : m.body = .wbData b mask dirty poison) :
    Completes (.wbd q) s (fun t => Answers t (arrived s.pkg (rowMsg q.toMsgHead q.src.val 0x3F .wbd)) [.ack] ∧
      (t.pkg.dirSet (dirKey q.line)).ent w = none ∧ memBytes t.pkg.hbm.mem (s.pkg.cell q.line * 64) 64 = b ∧
      (∀ a, a < s.pkg.cell q.line * 64 ∨ s.pkg.cell q.line * 64 + 64 ≤ a →
        memByte t.pkg.hbm.mem a = memByte s.pkg.hbm.mem a) ∧ t.mode = s.mode) := by
  have hexec : exec (.wbd q) s = .next { s with pkg := s.pkg.dieEvicts q .wbd } := rfl
  obtain ⟨net, f, hevict⟩ := arrive_evicts (.inr rfl) hsends hcalm hfind hpid hpres hok
  obtain ⟨hline, -, hsrc, -, htxid⟩ := head_of_plain (plain_arrived s.pkg (rowMsg q.toMsgHead q.src.val 0x3F .wbd))
  obtain ⟨a, ha⟩ : ∃ a, a = arrived s.pkg (rowMsg q.toMsgHead q.src.val 0x3F .wbd) := ⟨_, rfl⟩
  rw [← ha] at hevict hline hsrc htxid ⊢
  rw [if_pos rfl] at hevict
  have haline : a.line = q.line := hline
  have hsame : wbDataOf a = wbDataOf (rowMsg q.toMsgHead q.src.val 0x3F .wbd) := by
    unfold wbDataOf
    rw [hline, hsrc, htxid]
  have hcell : (s.pkg.relieved net f).cell q.line = s.pkg.cell q.line := rfl
  obtain ⟨hmsgs, hent, hbytes, hrest, htxns⟩ := applyWbd_writes (p := s.pkg.relieved net f) (m := a)
    (by rw [haline]; exact hfind) (by rw [hsame]; exact hwb) hbody (by rw [haline]; exact hserve) hlen
  rw [homeRun_of_readyTxn_none (readyTxn_of_no_txns (htxns.trans hcalm.1))] at hevict
  rw [hevict] at hexec
  rw [haline] at hent
  rw [haline, hcell] at hbytes hrest
  exact ⟨_, hexec, sent_of_msgs hmsgs, hent, hbytes, hrest, rfl⟩

/-! ### A request that waited -/

/-- A request that waited is served: the line comes from memory with E (R234). -/
theorem waiting_served {line pid d txid w : Nat} (hcalm : homeCalm s.pkg)
    (hconfq : s.pkg.coh.confq = [mkReq .rds line pid d txid]) (hdir : dirTakes s.pkg line w)
    (hserve : s.pkg.serveOf line = .served) (hdcs : s.pkg.dcs pid = false) (hrow : s.pkg.rowHeld line = false)
    (hdecode : s.pkg.decode line = .data []) :
    Completes (.conflictQueueServe line) s (fun t => t.pkg.coh.confq = [] ∧
      (∃ b, Sent t [(mkReq .rds line pid d txid).answer (.data b false false),
        (mkReq .rds line pid d txid).answer (.cmp 2 true)]) ∧ t.mode = s.mode) := by
  have hexec : exec (.conflictQueueServe line) s = .next { s with pkg := (s.pkg.serveNext line).homeRun 8 } := rfl
  obtain ⟨htxns, hwb⟩ := hcalm
  obtain ⟨hfind, hvictim, hfree⟩ := hdir
  obtain ⟨r, hr⟩ : ∃ r, r = mkReq .rds line pid d txid := ⟨_, rfl⟩
  rw [← hr] at hconfq ⊢
  have hline : r.line = line := by rw [hr]; rfl
  have hstart : s.pkg.startable r = true := by
    unfold Pkg.startable
    rw [hline, entBroken_of_none hfind, hrow, hvictim]
    simp [Pkg.lineBusy, htxns, hwb]
  obtain ⟨u, hu⟩ : ∃ u : Pkg, u = { s.pkg with coh := { s.pkg.coh with confq := [] } } := ⟨_, rfl⟩
  have hnext : s.pkg.serveNext line = (u.refreshConfq (mcOf line)).startReq r := by
    unfold Pkg.serveNext
    rw [hconfq]
    simp [findIdx?, hline, hstart, hu]
  obtain ⟨v, hv⟩ : ∃ v, v = u.refreshConfq (mcOf line) := ⟨_, rfl⟩
  have hreads : v.ReadsAs s.pkg := by
    rw [hv]
    exact .trans (.refreshConfq ..) (.of_pages (by rw [hu]))
  have hcoh : v.coh = { s.pkg.coh with confq := [] } := by rw [hv, hu]; rfl
  have hhbm : v.hbm = s.pkg.hbm := by rw [hv, hu]; rfl
  have hfresh : v.fresh = s.pkg.fresh := by rw [hv, hu]; rfl
  have hdirs : v.coh.dirs = s.pkg.coh.dirs := by rw [hcoh]
  rw [hnext, ← hv] at hexec
  obtain ⟨b, hmsgs, -, hleft, -, -⟩ := serves_newEntry (p := v) (r := r) (w := w) (k := 7) (by rw [hcoh]; exact htxns)
    (by rw [hreads.dcs, hr]; exact hdcs)
    (by
      rw [hline]
      exact ⟨(dirFind_of_dirs hdirs _).trans hfind, (dirVictim_of_dirs hdirs _).trans hvictim,
        by rw [Pkg.dirSet, hdirs]; exact hfree⟩)
    (by rw [hline, hreads.serveOf]; exact hserve)
    (by rw [hline, hreads.decode (lineMeta_of_hbm hhbm _) hfresh]; exact hdecode) (by rw [hr]; rfl) (by rw [hr]; rfl) rfl
  refine ⟨_, hexec, ?_, ⟨b, ?_⟩, rfl⟩
  · exact hleft.trans (by rw [hcoh])
  · have hkind : r.kind = .rds := by rw [hr]; rfl
    rw [hkind, if_pos rfl] at hmsgs
    exact sent_of_msgs hmsgs

end

end Sys2Proof.Machine
end

section
/-! The data of an IOWR (R233, R241), and the statement. -/

namespace Sys2Proof.Machine

section
variable {s : State} {src : Fin 64} {h : MsgHead} {bytes : List Byte} {mask : Word} {dirty poison : Bool} {x : Txn}

theorem full_filled {r : HomeReq} :
    ((r.filled bytes mask.toNat poison).op = 0 ∧ (r.filled bytes mask.toNat poison).off = 0 ∧
      (r.filled bytes mask.toNat poison).mask = 2 ^ 64 - 1) ↔ r.op = 0 ∧ mask = BitVec.allOnes 64 := by
  rw [← toNat_eq_full]
  unfold HomeReq.filled
  dsimp only
  constructor
  · rintro ⟨hop, -, hmask⟩
    exact ⟨hop, hmask⟩
  · rintro ⟨hop, hmask⟩
    exact ⟨hop, if_pos hop, hmask⟩

theorem end_filled_le {r : HomeReq} (b : List Byte) (m : Nat) (hlen : r.off + r.len ≤ 64) :
    (r.filled b m poison).off + (r.filled b m poison).len ≤ 64 := by
  unfold HomeReq.filled
  dsimp only
  split <;> omega

end

/-- Settles O45: each clause follows its message from its arrival at the home (`arrive_of_comesIn`) to the end of its transaction
(`homeRun_of_readyTxn_some`). -/
theorem homesServeRequests : Obligations.HomesServeRequests := by
  unfold Obligations.HomesServeRequests
  refine ⟨?_, ?_, ?_, ?_, ?_, ?_, ?_, ?_⟩
  · rintro s q w ⟨c, k⟩ hcalm hserves hdir hdecode hc hsends
    exact newLine_granted hcalm hserves hdir hdecode hc hsends
  · intro s q w e hsends hcalm hserves hfind hown hpid hpres hok
    exact sharer_upgraded hsends hcalm hserves hfind hown hpid hpres hok
  · intro s q off len dist hsends hlo hhi hcalm hserves hfind hdecode
    exact iord_reads hsends hlo hhi hcalm hserves hfind hdecode
  · intro s q off len op hsends hlen hcalm hserves hfind hnone
    exact iowr_waits hsends hlen hcalm hserves hfind hnone
  · intro s src h bytes mask dirty poison x hup hread hcome htxns hconfq hsnoops hsnooped hawait hgranted hinval _ hkind hsrc
      htxid hline hready hserve hlen
    refine ⟨fun old hdata hold hend hpart => ?_, fun hop hmask => ?_⟩
    · refine wbdata_completes hup hread hcome htxns hconfq hsnoops hsnooped hawait hgranted hinval hkind hsrc htxid hline
        hready hserve (new := ioResult x.req old bytes mask.toNat) ?_ fun p hp => ?_
      · rw [← merged_filled x.req old bytes mask.toNat poison]
        exact length_merged hold (end_filled_le bytes mask.toNat hend)
      · obtain ⟨u, hu, hfinish⟩ := finishIowr_part (p := p)
          (x := { x with req := x.req.filled bytes mask.toNat poison }) (mt full_filled.1 hpart) hdata hp hold
          (end_filled_le bytes mask.toNat hend)
        rw [merged_filled] at hu
        rw [iowrAnswers_filled] at hfinish
        exact ⟨u, hu, hfinish⟩
    · refine wbdata_completes hup hread hcome htxns hconfq hsnoops hsnooped hawait hgranted hinval hkind hsrc htxid hline
        hready hserve hlen fun p hp => ?_
      exact finishIowr_full (p := p) (x := { x with req := x.req.filled bytes mask.toNat poison })
        (full_filled.2 ⟨hop, hmask⟩) hp hlen
  · intro s q w e hsends hcalm hfind hpid hbusy hok hpres
    exact evc_frees hsends hcalm hfind hpid hbusy hok hpres
  · intro s q w e m b mask dirty poison hsends hcalm hfind hpid hok hpres hserve hlen hwb hbody
    exact wbd_writes hsends hcalm hfind hpid hok hpres hserve hlen hwb hbody
  · intro s line pid d txid w hcalm hconfq hdir hserve hdcs hrow hdecode
    exact waiting_served hcalm hconfq hdir hserve hdcs hrow hdecode

end Sys2Proof.Machine
end

section
/-! What the elementary writes of a home leave, all of a home's work leaves: memory and the directory (R226, R319 to R327). -/

namespace Sys2Proof.Machine

/-- A register that a home, its controller or a counter of the networks writes: any of a slice, and elsewhere those after
0x200. -/
def homeSets (pg off : Nat) : Prop := (∃ n, pg = pgDS n) ∨ 0x208 ≤ off

/-- An observation of the package that no elementary write of a home changes: it is one of the pages and the books, and such
a register, a set event or an entry of the event log is none of it. -/
def HomeKeeps {γ : Type} (g : Pkg → γ) : Prop :=
  (∀ p q : Pkg, q.pages = p.pages → q.fabric = p.fabric → g q = g p) ∧
  (∀ (p : Pkg) (pg off : Nat) (v : Word), homeSets pg off → g (p.setReg pg off v) = g p) ∧
  (∀ (p : Pkg) (pg b cls : Nat) (d : Det), g (p.setEvent pg b cls d) = g p) ∧
  ∀ (p : Pkg) (code origin : Nat) (lc pid : Option Nat) (pg : Nat) (detail : Word),
    g (p.logEvent code origin lc pid pg detail) = g p

theorem keeps_ite {γ : Type} (g : Pkg → γ) {c : Prop} [Decidable c] {p q : Pkg} {t : γ} (hp : g p = t) (hq : g q = t) :
    g (if c then p else q) = t := by
  split
  · exact hp
  · exact hq

theorem homeSets_ds (n off : Nat) : homeSets (pgDS n) off := .inl ⟨n, rfl⟩

namespace HomeKeeps

variable {γ : Type} {g : Pkg → γ} (h : HomeKeeps g) (p : Pkg)
include h

theorem of_eq {p q : Pkg} (hpages : q.pages = p.pages) (hfabric : q.fabric = p.fabric) : g q = g p := by
  obtain ⟨heq, -, -, -⟩ := h
  exact heq p q hpages hfabric

theorem setReg {pg off : Nat} (v : Word) (ho : homeSets pg off) : g (p.setReg pg off v) = g p := by
  obtain ⟨-, hreg, -, -⟩ := h
  exact hreg p pg off v ho

theorem setEvent (pg b cls : Nat) (d : Det) : g (p.setEvent pg b cls d) = g p := by
  obtain ⟨-, -, hevent, -⟩ := h
  exact hevent p pg b cls d

theorem logEvent (code origin : Nat) (lc pid : Option Nat) (pg : Nat) (detail : Word) :
    g (p.logEvent code origin lc pid pg detail) = g p := by
  obtain ⟨-, -, -, hlog⟩ := h
  exact hlog p code origin lc pid pg detail

/-- An update of neither pages nor books, after others. -/
theorem same_pages {p q r : Pkg} (k : g q = g p) (hpages : r.pages = q.pages) (hfabric : r.fabric = q.fabric) : g r = g p :=
  (h.of_eq hpages hfabric).trans k

/-! ### Registers and counters -/

theorem setRf {pg off hi lo : Nat} (v : Nat) (ho : homeSets pg off) : g (p.setRf pg off hi lo v) = g p := h.setReg p _ ho

theorem addRf {pg off hi lo : Nat} (k : Nat) (ho : homeSets pg off) : g (p.addRf pg off hi lo k) = g p := h.setRf p _ ho

theorem evCount (die : Option Nat) (ev inst : Nat) (pid : Option Nat) (net k : Nat) : g (p.evCount die ev inst pid net k) = g p := by
  unfold Pkg.evCount
  split
  next pg off n heq =>
    have hoff : 0x208 ≤ off := by
      cases die <;> simp only [Prod.mk.injEq] at heq <;> omega
    split
    · rfl
    · exact foldl_keeps g (fun q i => keeps_ite g (h.setReg q _ (.inr (by omega))) rfl) _ _

/-! ### Memory (R319 to R323, R327) -/

theorem setCtl (n : Nat) (c : MemCtl) : g (p.setCtl n c) = g p := h.of_eq rfl rfl
theorem setLineMeta (line : Nat) (m : Option LineMeta) : g (p.setLineMeta line m) = g p := h.of_eq rfl rfl
theorem freeBytes (n : Nat) : g (p.freeBytes n).2 = g p := h.of_eq rfl rfl

theorem disturb (line : Nat) (dist : Disturb) : g (p.disturb line dist) = g p := by
  rw [disturb_eq]
  exact h.of_eq rfl rfl

theorem content (line pid : Nat) (residual : Tbl Byte) : g (p.content line pid residual).2 = g p := by
  unfold Pkg.content
  split
  · split
    · rfl
    · exact h.freeBytes ..
  · exact h.freeBytes ..

theorem scrubBoost (n : Nat) : g (p.scrubBoost n) = g p := by
  unfold Pkg.scrubBoost
  exact keeps_ite g rfl ((h.logEvent ..).trans (h.setCtl ..))

theorem rowReq (n pch bank row : Nat) : g (p.rowReq n pch bank row) = g p :=
  (h.scrubBoost ..).trans ((h.setEvent ..).trans (h.setCtl ..))

theorem trackCe (line : Nat) : g (p.trackCe line) = g p := by
  unfold Pkg.trackCe
  exact keeps_ite g ((h.rowReq ..).trans (h.setCtl ..)) (h.setCtl ..)

theorem trackUe (line : Nat) : g (p.trackUe line) = g p := by
  unfold Pkg.trackUe
  dsimp only
  split
  · rfl
  · exact keeps_ite g rfl ((h.rowReq ..).trans (h.setCtl ..))

theorem storeLine (line pid : Nat) (bytes : List Byte) (poison : Bool) : g (p.storeLine line pid bytes poison) = g p :=
  h.same_pages (h.evCount p none 5 (mcOf line) (some pid) 4 1) rfl rfl

theorem lineWrite (line pid : Nat) (bytes : List Byte) (poison : Bool) : g (p.lineWrite line pid bytes poison).2 = g p := by
  unfold Pkg.lineWrite
  split
  · rfl
  · rfl
  · exact h.storeLine ..

theorem poisonLine (line pid : Nat) : g (p.poisonLine line pid) = g p := by
  unfold Pkg.poisonLine
  split
  · exact (h.storeLine ..).trans (h.freeBytes p 64)
  · rfl

/-- What the line holds is of no concern: the pair that `content` gives stays closed. -/
theorem lineRead (line pid agent : Nat) (dist : Disturb) : g (p.lineRead line pid agent dist).2 = g p := by
  have hlog (q : Pkg) (off : Nat) (v : Word) (ho : 0x208 ≤ off) :
      g ((q.setReg (pgMC (mcOf line)) 0x208 v).addRf (pgMC (mcOf line)) off 63 0 1) = g q :=
    (h.addRf _ _ (.inr ho)).trans (h.setReg _ _ (.inr (by decide)))
  unfold Pkg.lineRead
  split
  · rfl
  · exact h.freeBytes ..
  obtain ⟨content, hcontent, hkeeps⟩ : ∃ f, f = Pkg.content ∧ ∀ p line pid res, g (f p line pid res).2 = g p :=
    ⟨_, rfl, h.content⟩
  rw [← hcontent]
  dsimp only
  split
  · split
    · split
      · simp [hkeeps, h.evCount, h.disturb]
      · rw [hkeeps, h.trackCe, h.setEvent, h.evCount, h.addRf _ _ (.inr (by decide)), hlog _ _ _ (by decide), h.setLineMeta,
          h.evCount, h.disturb]
    · simp [h.freeBytes, h.evCount, h.disturb]
  · simp [hkeeps, hlog, h.setEvent, h.evCount, h.disturb]
  · simp [hlog, h.freeBytes, h.trackUe, h.setEvent, h.evCount, h.disturb]

/-! ### The directory and messages -/

theorem send (m : Msg) : g (p.send m) = g p := h.of_eq rfl rfl

theorem putEnt (k w : Nat) (e : Option DirEnt) : g (p.putEnt k w e) = g p := by
  obtain ⟨v, hv⟩ := putEnt_eq p k w e
  rw [hv]
  exact h.same_pages (h.setReg p v (homeSets_ds (k / 32768) 0x200)) rfl rfl

theorem dirModify (line : Nat) (f : DirEnt → Option DirEnt) : g (p.dirModify line f) = g p := by
  unfold Pkg.dirModify
  split
  · rfl
  · exact h.putEnt ..

theorem freeEnt (line : Nat) : g (p.freeEnt line) = g p := h.dirModify ..

theorem refreshConfq (n : Nat) : g (p.refreshConfq n) = g p :=
  (h.setRf _ _ (homeSets_ds ..)).trans (h.setRf _ _ (homeSets_ds ..))

theorem setDcs (pid : Nat) (b : Bool) : g (p.setDcs pid b) = g p :=
  foldl_keeps g (fun _ n => h.setRf _ _ (homeSets_ds n _)) _ _

theorem stopCores (pid : Nat) : g (p.stopCores pid) = g p := by
  unfold Pkg.stopCores
  refine foldl_keeps g (fun q lc => ?_) _ p
  exact keeps_ite g (h.of_eq rfl rfl) rfl

theorem ledgerDcs (pid : Nat) : g (p.ledgerDcs pid) = g p := h.of_eq rfl rfl

theorem cipherDcs (pid : Nat) : g (p.cipherDcs pid) = g p := by
  unfold Pkg.cipherDcs
  dsimp only
  exact h.same_pages (foldl_keeps g (fun _ _ => h.setEvent ..) _ p) rfl rfl

theorem refreshQuar (pg : Nat) : g (p.refreshQuar pg) = g p := h.setRf _ _ (.inr (by decide))

theorem freeQuarantine (a : Nat) : g (p.freeQuarantine a) = g p := (h.refreshQuar ..).trans (h.of_eq rfl rfl)

end HomeKeeps

end Sys2Proof.Machine
end

section
/-! A domain checkstop, stage by stage (R250). -/

namespace Sys2Proof.Machine

/-- The partition's bit in every slice, its state, and what is left of the homes' records. -/
def Pkg.markDcs (p : Pkg) (pid : Nat) (x : Partition) (c : Coh) : Pkg := { (p.setDcs pid true).setPart pid x with coh := c }

section
variable (p : Pkg) (pid : Nat)

theorem coh_setDcs (b : Bool) : (p.setDcs pid b).coh = p.coh := foldl_keeps Pkg.coh (fun _ _ => setRf_coh ..) _ _

theorem markDcs_pages (x : Partition) (c : Coh) : (p.markDcs pid x c).pages = (p.setDcs pid true).pages := by
  simp only [Pkg.markDcs, setPart_pages]

theorem markDcs_fabric (x : Partition) (c : Coh) : (p.markDcs pid x c).fabric = (p.setDcs pid true).fabric := by
  simp only [Pkg.markDcs, setPart_fabric]

theorem raiseDcs_of_set (det : Nat) (h : p.dcs pid = true) : p.raiseDcs pid det = p := by
  rw [Pkg.raiseDcs, if_pos (.inr h)]

/-- After its bit, a checkstop sends answers, frees entries, counts CONFQ, and stops cores, queue pairs and slots: what none
of these changes is as the mark left it. Initiators and their quarantine are no part of the mark. -/
theorem raiseDcs_stages {γ : Type} (g : Pkg → γ) (det : Nat) (hpid : pid < 128) (hset : p.dcs pid = false)
    (hsend : ∀ q m, g (Pkg.send q m) = g q) (hdir : ∀ q line f, g (Pkg.dirModify q line f) = g q)
    (hconfq : ∀ q n, g (Pkg.refreshConfq q n) = g q) (hcores : ∀ q, g (Pkg.stopCores q pid) = g q)
    (hledger : ∀ q, g (Pkg.ledgerDcs q pid) = g q) (hcipher : ∀ q, g (Pkg.cipherDcs q pid) = g q) :
    ∃ x c, c.quarantine = p.coh.quarantine ∧ c.reqs = p.coh.reqs ∧ g (p.raiseDcs pid det) = g (p.markDcs pid x c) := by
  unfold Pkg.raiseDcs
  rw [if_neg (by simp [hset, hpid])]
  dsimp only
  rw [hcipher, hledger, hcores, foldl_keeps g fun _ _ => hconfq .., foldl_keeps g fun _ _ => hdir ..,
    foldl_keeps g fun _ _ => hsend ..]
  refine ⟨_, _, ?_, ?_, rfl⟩
  · simp only [setPart_coh, coh_setDcs]
  · simp only [setPart_coh, coh_setDcs]

/-! ### Initiators -/

/-- What initiators wait for, and their TXIDs in quarantine (R266, R267). -/
def Pkg.initiators (p : Pkg) : List (Nat × Nat) × Tbl (List AgentReq) := (p.coh.quarantine, p.coh.reqs)

theorem initiators_iff {p q : Pkg} :
    q.initiators = p.initiators ↔ q.coh.quarantine = p.coh.quarantine ∧ q.coh.reqs = p.coh.reqs := Prod.mk_inj

theorem initiators_dirModify (line : Nat) (f : DirEnt → Option DirEnt) : (p.dirModify line f).initiators = p.initiators := by
  rw [(dirOnly_dirModify p line f).eq]
  rfl

theorem initiators_stopCores : (p.stopCores pid).initiators = p.initiators := by
  unfold Pkg.stopCores
  refine foldl_keeps Pkg.initiators (fun q lc => ?_) _ p
  exact keeps_ite Pkg.initiators rfl rfl

theorem initiators_cipherDcs : (p.cipherDcs pid).initiators = p.initiators := by
  unfold Pkg.cipherDcs
  exact foldl_keeps Pkg.initiators (fun q k => by simp [Pkg.initiators]) _ _

/-- A checkstop leaves the initiators. -/
theorem initiators_raiseDcs (det : Nat) : (p.raiseDcs pid det).initiators = p.initiators := by
  by_cases h : 128 ≤ pid ∨ p.dcs pid = true
  · rw [Pkg.raiseDcs, if_pos h]
  · obtain ⟨hpid, hset⟩ : pid < 128 ∧ p.dcs pid = false := by simpa using h
    obtain ⟨x, c, hquar, hreqs, hstages⟩ := raiseDcs_stages p pid Pkg.initiators det hpid hset (fun _ _ => rfl)
      initiators_dirModify (fun _ _ => rfl) (fun q => initiators_stopCores q pid) (fun _ => rfl)
      (fun q => initiators_cipherDcs q pid)
    rw [hstages]
    exact initiators_iff.2 ⟨hquar, hreqs⟩

/-! ### The bit of the partition -/

theorem dcs_of_pages {p q : Pkg} (h : q.pages = p.pages) (pid : Nat) : q.dcs pid = p.dcs pid :=
  (Pkg.ReadsAs.of_pages h).dcs pid

theorem dcs_setEvent (pg b cls : Nat) (d : Det) : (p.setEvent pg b cls d).dcs pid = p.dcs pid := by
  rw [Pkg.dcs, reg_setEvent p b cls d (.inr (by omega)), Pkg.dcs]

theorem dcs_cipherDcs (pid' : Nat) : (p.cipherDcs pid').dcs pid = p.dcs pid := by
  unfold Pkg.cipherDcs
  exact foldl_keeps (fun q : Pkg => q.dcs pid) (fun q k => dcs_setEvent ..) _ _

theorem dcs_setDcs : (p.setDcs pid true).dcs pid = true := by
  have hother : ∀ (q : Pkg) (i j : Nat), j ≠ i → (q.setRf (pgDS i) (0x238 + pid / 64 * 8) (pid % 64) (pid % 64) 1).reg
      (pgDS j) (0x238 + pid / 64 * 8) = q.reg (pgDS j) (0x238 + pid / 64 * 8) := by
    intro q i j hij
    refine reg_setRf _ _ _ _ (.inl ?_)
    simp only [pgDS, pgHub]
    omega
  obtain ⟨r, -, -, hfold⟩ := foldl_at_mem (get := fun (q : Pkg) n => q.reg (pgDS n) (0x238 + pid / 64 * 8)) hother
    (fun _ => ()) (fun _ _ => rfl) (List.nodup_range (n := 16)) (List.mem_range.2 (by decide : 0 < 16)) p
  have hbit := bit_setRf_same r (pgDS 0) (0x238 + pid / 64 * 8) 1 (i := pid % 64) (Nat.mod_lt _ (by decide))
  rw [← hfold] at hbit
  exact hbit

/-- After a checkstop of a PID its bit is set (R250). -/
theorem dcs_raiseDcs (det : Nat) (hpid : pid < 128) : (p.raiseDcs pid det).dcs pid = true := by
  by_cases hset : p.dcs pid = true
  · rw [raiseDcs_of_set p pid det hset, hset]
  · obtain ⟨x, c, -, -, hstages⟩ := raiseDcs_stages p pid (fun q => q.dcs pid) det hpid (by simpa using hset)
      (fun q m => dcs_of_pages (send_pages q m) pid)
      (fun q line f => (dirOnly_dirModify q line f).reads.dcs pid) (fun q n => (Pkg.ReadsAs.refreshConfq q n).dcs pid)
      (fun q => dcs_of_pages (stopCores_pages q pid) pid) (fun q => dcs_of_pages (ledgerDcs_pages q pid) pid)
      (fun q => dcs_cipherDcs q pid pid)
    rw [hstages]
    exact (dcs_of_pages (markDcs_pages p pid x c) pid).trans (dcs_setDcs p pid)

end

theorem HomeKeeps.raiseDcs {γ : Type} {g : Pkg → γ} (h : HomeKeeps g) (p : Pkg) (pid det : Nat) :
    g (p.raiseDcs pid det) = g p := by
  by_cases hno : 128 ≤ pid ∨ p.dcs pid = true
  · rw [Pkg.raiseDcs, if_pos hno]
  · obtain ⟨hpid, hset⟩ : pid < 128 ∧ p.dcs pid = false := by simpa using hno
    obtain ⟨x, c, -, -, hstages⟩ := raiseDcs_stages p pid g det hpid hset h.send h.dirModify h.refreshConfq
      (fun q => h.stopCores q pid) (fun q => h.ledgerDcs q pid) (fun q => h.cipherDcs q pid)
    rw [hstages]
    exact h.same_pages (h.setDcs p pid true) (markDcs_pages p pid x c) (markDcs_fabric p pid x c)

end Sys2Proof.Machine
end

section
/-! What the elementary writes of a home leave, it leaves as it serves lines (R228 to R242). -/

namespace Sys2Proof.Machine

namespace HomeKeeps

variable {γ : Type} {g : Pkg → γ} (h : HomeKeeps g) (p : Pkg)
include h

/-! ### Requests -/

theorem protoError (n pid line : Nat) : g (p.protoError n pid line) = g p := by
  unfold Pkg.protoError
  rw [h.raiseDcs]
  exact keeps_ite g (h.setEvent ..) ((h.setEvent ..).trans (h.setEvent ..))

theorem enqueue (r : HomeReq) : g (p.enqueue r) = g p := by
  unfold Pkg.enqueue
  rw [h.evCount, h.refreshConfq]
  exact h.of_eq rfl rfl

theorem snoop (k : Nat) (r : HomeReq) (fwd : Nat) (own : Bool) (dies : List Nat) : g (p.snoop k r fwd own dies).2 = g p := by
  unfold Pkg.snoop
  refine foldl_keeps (fun a : List Nat × Pkg => g a.2) (fun a d => ?_) _ _
  split
  · exact keeps_ite g ((h.addRf _ _ (homeSets_ds ..)).trans (h.poisonLine ..)) rfl
  · exact (h.send ..).trans (h.evCount ..)

theorem openTxn (r : HomeReq) (k fwd : Nat) (own : Bool) (dies : List Nat) : g (p.openTxn r k fwd own dies) = g p := by
  unfold Pkg.openTxn
  extract_lets q
  have hsnoop : g (q.snoop k r fwd own dies).2 = g p := (h.snoop ..).trans (h.dirModify ..)
  generalize q.snoop k r fwd own dies = res at hsnoop ⊢
  exact h.same_pages hsnoop rfl rfl

theorem openInval (line : Nat) (e : DirEnt) (r : HomeReq) : g (p.openInval line e r) = g p := by
  unfold Pkg.openInval
  extract_lets fresh v q
  have hsnoop : g (q.snoop 0 v 0x3F e.own (presDies e.pres)).2 = g p := (h.snoop ..).trans (h.dirModify ..)
  generalize q.snoop 0 v 0x3F e.own (presDies e.pres) = res at hsnoop ⊢
  exact h.same_pages hsnoop rfl rfl

theorem withTxn (x : Txn) : g (p.withTxn x) = g p := h.of_eq rfl rfl
theorem setDirSet (k : Nat) (x : DirSet) : g (p.setDirSet k x) = g p := h.of_eq rfl rfl

theorem startReq (r : HomeReq) : g (p.startReq r) = g p := by
  have hcount : ∀ (v : DirEnt) (line : Nat) (l : List Nat) (p : Pkg), g (l.foldl (fun (p : Pkg) (d : Nat) =>
      p.evCount (some d) 6 (sliceOf line) (some v.pid) 1 1) p) = g p :=
    fun _ _ => foldl_keeps g fun _ _ => h.evCount ..
  unfold Pkg.startReq
  dsimp only
  split
  · exact h.send ..
  split
  · split
    · exact (h.openInval ..).trans (h.addRf _ _ (homeSets_ds ..))
    split
    · exact (h.send ..).trans (h.protoError ..)
    split
    · exact keeps_ite g (h.openTxn ..) (h.openTxn ..)
    · exact keeps_ite g (h.openTxn ..) (h.openTxn ..)
    · exact keeps_ite g (h.openTxn ..) (h.openTxn ..)
    · exact keeps_ite g (h.openTxn ..) (h.openTxn ..)
    · exact h.openTxn ..
  split
  · split
    · exact h.enqueue ..
    split
    · exact (h.openInval ..).trans ((h.addRf _ _ (homeSets_ds ..)).trans (hcount ..))
    · exact (h.withTxn ..).trans ((h.setDirSet ..).trans (h.putEnt ..))
  · exact h.openTxn ..

/-! ### Completions -/

theorem dropTxn (r : HomeReq) : g (p.dropTxn r) = g p := h.of_eq rfl rfl

theorem closeTxn (line txid : Nat) : g (p.closeTxn line txid) = g p := (h.dirModify ..).trans (h.of_eq rfl rfl)

theorem writeBack (t : Txn) : g (p.writeBack t) = g p := by
  unfold Pkg.writeBack
  split
  · exact keeps_ite g (h.lineWrite ..) rfl
  · rfl

theorem grant (t : Txn) (gr : Nat) (df : Bool) (d : Option (List Byte × Bool × Bool)) (own : Bool) (pres : Nat) :
    g (p.grant t gr df d own pres) = g p := by
  have hdata (o : Option (List Byte × Bool × Bool)) : g (match o with
      | some (b, dirty, poison) => p.send (t.req.answer (.data b dirty poison))
      | none => p) = g p := by
    split
    · exact h.send ..
    · rfl
  unfold Pkg.grant
  dsimp only
  exact h.same_pages ((h.dirModify ..).trans ((h.send ..).trans (hdata d))) rfl rfl

theorem grantMem (t : Txn) (gr : Nat) (own : Bool) (pres : Nat) : g (p.grantMem t gr own pres) = g p := by
  have hread := h.lineRead p t.req.line t.req.pid t.req.src []
  unfold Pkg.grantMem
  dsimp only
  generalize p.lineRead t.req.line t.req.pid t.req.src = res at hread ⊢
  obtain ⟨a, q⟩ := res
  cases a with
  | addr => exact (h.send ..).trans ((h.dropTxn ..).trans ((h.freeEnt ..).trans hread))
  | line b poison => exact (h.grant ..).trans hread

theorem finishIord (t : Txn) (own : Bool) : g (p.finishIord t own) = g p := by
  unfold Pkg.finishIord
  extract_lets r q res
  have hres : g res.2 = g p := by
    unfold res
    split
    · exact h.writeBack ..
    · exact (h.lineRead ..).trans (h.writeBack ..)
  obtain ⟨a, q'⟩ := res
  cases a with
  | addr => exact (h.send ..).trans ((h.closeTxn ..).trans hres)
  | line b poison =>
    have hsent : ∀ m m', g ((q'.send m).send m') = g p := fun _ _ => (h.send ..).trans ((h.send ..).trans hres)
    exact (h.closeTxn ..).trans
      (keeps_ite g (hsent ..) (keeps_ite g ((h.dirModify ..).trans (hsent ..)) ((h.freeEnt ..).trans (hsent ..))))

theorem of_lineWrite {p q : Pkg} {line pid : Nat} {b : List Byte} {poison ok : Bool}
    (hw : p.lineWrite line pid b poison = (ok, q)) : g q = g p := by
  have hwrite := h.lineWrite p line pid b poison
  rwa [hw] at hwrite

theorem finishIowr (t : Txn) : g (p.finishIowr t) = g p := by
  unfold Pkg.finishIowr
  extract_lets r full base
  have hbase : g base.2 = g p := by
    unfold base
    split
    · rfl
    split
    · rfl
    · exact h.lineRead ..
  obtain ⟨a, q⟩ := base
  cases a with
  | addr => exact (h.send ..).trans ((h.closeTxn ..).trans hbase)
  | line b poison =>
    dsimp only at hbase ⊢
    split
    case h_1 q' hw => exact (h.send ..).trans ((h.closeTxn ..).trans ((h.of_lineWrite hw).trans hbase))
    case h_2 q' hw =>
      have hkept := (h.of_lineWrite hw).trans hbase
      exact (h.dropTxn ..).trans ((h.freeEnt ..).trans ((h.send ..).trans (keeps_ite g hkept ((h.send ..).trans hkept))))

theorem finishTxn (t : Txn) : g (p.finishTxn t) = g p := by
  unfold Pkg.finishTxn
  extract_lets r q ent pres own me
  have hq : g q = g p := (h.dropTxn ..).trans ((h.freeEnt ..).trans (h.writeBack ..))
  have hback : ∀ gr df d own pres, g ((p.writeBack t).grant t gr df d own pres) = g p :=
    fun _ _ _ _ _ => (h.grant ..).trans (h.writeBack ..)
  have hunique : g (if own ∧ t.present ∧ t.snooped ≠ [] then p.grant t 3 true none true me
      else
        match t.data with
        | some b => p.grant t 3 true (some (b, t.dirty, t.poison)) true me
        | none =>
          if r.kind = .upg ∧ !own ∧ pres / me % 2 = 1 then p.grant t 3 false none true me
          else p.grantMem t 3 true me) = g p := by
    refine keeps_ite g (h.grant ..) ?_
    split
    · exact h.grant ..
    · exact keeps_ite g (h.grant ..) (h.grantMem ..)
  split
  · split
    · exact (h.startReq ..).trans hq
    · exact hq
  split
  · refine keeps_ite g (hback ..) (keeps_ite g ?_ (keeps_ite g (h.grantMem ..) (h.grantMem ..)))
    split
    · exact hback ..
    · exact h.grantMem ..
  · exact hunique
  · exact hunique
  · exact h.finishIord ..
  · exact h.finishIowr ..

theorem homeRun (k : Nat) : g (p.homeRun k) = g p := by
  induction k generalizing p with
  | zero => rfl
  | succ k ih =>
    unfold Pkg.homeRun
    split
    · rw [ih, h.finishTxn]
    · rfl

end HomeKeeps

end Sys2Proof.Machine
end

section
/-! What a fence leaves of its die: its state, LSTATE with its cause, and the repairs of its books (R246, R272, R294). -/

namespace Sys2Proof.Machine

/-! ### Mocor pages and repairs while lines move -/

/-- What a fence writes on the Mocor page of its die (R294), as every such page reads it, and the repairs that run (R272). -/
def Pkg.linkView (p : Pkg) : (Die → Word) × List (Nat × Nat × Nat) := (fun d => p.reg (pgMP d.val) 0x200, p.fabric.repairs)

theorem linkView_of_reg {p q : Pkg} (hreg : ∀ d : Die, q.reg (pgMP d.val) 0x200 = p.reg (pgMP d.val) 0x200)
    (hfabric : q.fabric.repairs = p.fabric.repairs) : q.linkView = p.linkView := by
  simp only [Pkg.linkView, hreg, hfabric]

theorem pgMP_ne_pgDS (d : Die) (n : Nat) : pgMP d.val ≠ pgDS n := by
  simp only [pgMP, pgDS, pgHub]
  omega

/-- No home writes LSTATE or starts a repair. -/
theorem homeKeeps_linkView : HomeKeeps Pkg.linkView := by
  refine ⟨fun p q hpages hfabric => ?_, fun p pg off v ho => ?_, fun p pg b cls d => ?_,
    fun p code origin lc pid pg detail => ?_⟩
  · exact linkView_of_reg (fun d => by simp only [Pkg.reg, Pkg.page, hpages]) (by rw [hfabric])
  · refine linkView_of_reg (fun d => ?_) rfl
    rw [reg_setReg, if_neg]
    rintro ⟨hpg, hoff⟩
    rcases ho with ⟨n, rfl⟩ | ho
    · exact pgMP_ne_pgDS d n hpg
    · omega
  · exact linkView_of_reg (fun _ => reg_setEvent p b cls d (.inr (by decide))) (by rw [setEvent_fabric])
  · exact linkView_of_reg (fun _ => reg_logEvent p code origin lc pid pg detail (.inr (by decide))) (by rw [logEvent_fabric])

theorem linkView_returnCredit (p : Pkg) (b : Option (Nat × Nat)) : (p.returnCredit b).linkView = p.linkView := by
  cases b <;> rfl

/-! ### The directory's part (R246, R247) -/

theorem linkView_fenceDir (p : Pkg) (d : Nat) : (p.fenceDir d).linkView = p.linkView := by
  have h := homeKeeps_linkView
  unfold Pkg.fenceDir
  extract_lets due lost waiting p₁ c₁ p₂ p₃ p₄ p₅ p₆ p₇ marks c₇ p₈ keys p₉ p₁₀ mine p₁₁
  have hcredits : p₁.linkView = p.linkView := foldl_keeps Pkg.linkView (fun _ _ => linkView_returnCredit ..) _ _
  have hnet : p₂.linkView = p.linkView := h.same_pages hcredits rfl rfl
  have hconfq : p₃.linkView = p.linkView := (foldl_keeps Pkg.linkView (fun _ _ => h.refreshConfq ..) _ _).trans hnet
  have hlost : p₄.linkView = p.linkView := (foldl_keeps Pkg.linkView
    (fun _ _ => (h.send ..).trans ((h.addRf _ _ (homeSets_ds ..)).trans (h.poisonLine ..))) _ _).trans hconfq
  clear_value p₄
  have hagents : p₆.linkView = p.linkView :=
    (h.freeQuarantine ..).trans ((h.freeQuarantine ..).trans (h.same_pages hlost rfl rfl))
  clear_value p₆
  have hfenced : p₇.linkView = p.linkView := (foldl_keeps Pkg.linkView
    (fun _ n => (h.setRf _ _ (homeSets_ds n _)).trans (h.setRf _ _ (homeSets_ds n _))) _ _).trans hagents
  clear_value p₇
  have hpurge : p₈.linkView = p.linkView := h.same_pages hfenced rfl rfl
  have hentries : p₉.linkView = p.linkView := by
    refine (foldl_keeps Pkg.linkView (fun q k => foldl_keeps Pkg.linkView (fun q w => ?_) _ q) _ _).trans hpurge
    split
    · exact keeps_ite Pkg.linkView (h.putEnt ..) rfl
    · rfl
  clear_value p₉
  have hsnoops : p₁₀.linkView = p.linkView := by
    refine (foldl_keeps Pkg.linkView (fun q e => ?_) _ _).trans hentries
    split
    · rfl
    · exact h.same_pages
        (keeps_ite Pkg.linkView ((h.addRf _ _ (homeSets_ds ..)).trans (h.poisonLine ..)) rfl) rfl rfl
  have hmine : p₁₁.linkView = p.linkView :=
    (foldl_keeps Pkg.linkView (fun q t => (h.closeTxn ..).trans (keeps_ite Pkg.linkView rfl (h.dirModify ..))) _ _).trans
      hsnoops
  exact (h.homeRun ..).trans hmine

/-! ### The fence (R294) -/

theorem reg_dropBooks (p : Pkg) (d pg o : Nat) : (p.dropBooks d).reg pg o = p.reg pg o := rfl

theorem mem_repairs_dropBooks {p : Pkg} {d : Nat} {x : Nat × Nat × Nat} (h : x ∈ (p.dropBooks d).fabric.repairs) :
    x ∈ p.fabric.repairs :=
  (List.mem_filter.1 h).1

theorem HomeKeeps.setLink {γ : Type} {g : Pkg → γ} (h : HomeKeeps g) (p : Pkg) (d : Nat) (x : DieLink) :
    g (p.setLink d x) = g p := h.of_eq rfl rfl

theorem HomeKeeps.fenceMap {γ : Type} {g : Pkg → γ} (h : HomeKeeps g) (p : Pkg) (d : Nat) (keep : Bool) :
    g (p.fenceMap d keep) = g p := by
  unfold Pkg.fenceMap
  refine foldl_keeps g (fun q k => ?_) _ p
  exact h.of_eq rfl rfl

theorem logLater_fabric (p : Pkg) (code origin : Nat) (lc : Option Nat) (pg : Nat) (detail : Word) :
    (p.logLater code origin lc pg detail).fabric = p.fabric := rfl

/-- A die that is not fenced yet is D-FENCED after its fence, LSTATE and the cause are those of the fence, and no repair has
been added. -/
theorem fenceDieBy_marks {p : Pkg} (cause origin : Nat) (d : Die) (hf : p.dieFenced d.val = false) :
    (p.fenceDieBy d.val cause origin).dieState d.val = 4 ∧
      (p.fenceDieBy d.val cause origin).reg (pgMP d.val) 0x200 = word [(32, cause), (12, 0xF), (0, 5)] ∧
      ∀ x ∈ (p.fenceDieBy d.val cause origin).fabric.repairs, x ∈ p.fabric.repairs := by
  have h := homeKeeps_linkView
  unfold Pkg.fenceDieBy
  rw [if_neg (by simp [hf])]
  extract_lets mp b₀ p₁ b₁ bt p₂ p₃ y p₄ leaving pids p₅ p₆ p₇ c₇ p₈ p₉ p₁₀ det p₁₁
  have hreadmit : p₁.fabric = p.fabric := by
    unfold p₁
    split
    · rw [logLater_fabric, cmdDone_fabric]
    · rfl
  have hdir : (p₄.fenceDir d.val).linkView = p₃.linkView := (linkView_fenceDir ..).trans (h.setLink ..)
  obtain ⟨hmark, hstand⟩ : p₅.reg (pgMP d.val) 0x200 = word [(32, cause), (12, 0xF), (0, 5)] ∧
      ∀ x ∈ p₅.fabric.repairs, x ∈ p.fabric.repairs := by
    obtain ⟨hreg, hrepairs⟩ := Prod.ext_iff.1 hdir
    dsimp only [Pkg.linkView] at hreg hrepairs
    refine ⟨?_, fun x hx => ?_⟩
    · rw [reg_dropBooks, congrFun hreg d]
      exact reg_setReg_same ..
    · have hkept := mem_repairs_dropBooks hx
      rw [hrepairs] at hkept
      exact hreadmit ▸ hkept
  have hstops : p₆.linkView = p₅.linkView := foldl_keeps Pkg.linkView (fun _ _ => h.raiseDcs ..) _ _
  clear_value p₅ p₆
  have hcores : p₇.linkView = p₅.linkView := by
    refine (foldl_keeps Pkg.linkView (fun q k => ?_) _ _).trans hstops
    exact keeps_ite Pkg.linkView (h.of_eq rfl rfl) (h.of_eq rfl rfl)
  clear_value p₇
  have hmap : p₉.linkView = p₅.linkView :=
    (keeps_ite Pkg.linkView (h.fenceMap ..) rfl).trans (h.same_pages hcores rfl rfl)
  clear_value p₉
  have hevent : p₁₁.linkView = p₅.linkView := (h.setEvent ..).trans (h.same_pages hmap rfl rfl)
  have hstate : p₁₁.dieState d.val = 4 := by
    rw [Pkg.dieState, setEvent_dieSt]
    exact dieState_setDieState_same ..
  refine ⟨hstate, (congrFun (congrArg Prod.fst hevent) d).trans hmark, fun x hx => hstand x ?_⟩
  have hrepairs : p₁₁.fabric.repairs = p₅.fabric.repairs := congrArg Prod.snd hevent
  exact hrepairs ▸ hx

theorem fenceDie_marks {p : Pkg} (cause : Nat) (d : Die) (hf : p.dieFenced d.val = false) :
    (p.fenceDie d.val cause).dieState d.val = 4 ∧
      (p.fenceDie d.val cause).reg (pgMP d.val) 0x200 = word [(32, cause), (12, 0xF), (0, 5)] ∧
      ∀ x ∈ (p.fenceDie d.val cause).fabric.repairs, x ∈ p.fabric.repairs :=
  fenceDieBy_marks _ _ d hf

end Sys2Proof.Machine
end

section
/-! Timeouts of initiators, and late messages (R266 to R268). -/

namespace Sys2Proof.Machine

/-! ### What a timeout counts -/

section
variable (p : Pkg)

theorem coh_of_rest {p q : Pkg} (h : q.rest = p.rest) : q.coh = p.coh := by
  have hr := congrArg Pkg.coh h
  exact hr

theorem cores_of_rest {p q : Pkg} (h : q.rest = p.rest) : q.cores = p.cores := by
  have hr := congrArg Pkg.cores h
  exact hr

theorem rest_countTimeout (a cls : Nat) : (p.countTimeout a cls).rest = p.rest := by
  simp [Pkg.countTimeout, Pkg.refreshQuar]

/-- A timeout quarantines its TXID (R267). -/
theorem coh_noteTimeout (a txid cls : Nat) :
    (p.noteTimeout a txid cls).coh = { p.coh with quarantine := p.coh.quarantine ++ [(a, txid)] } := by
  rw [Pkg.noteTimeout, coh_of_rest (rest_countTimeout ..)]

theorem cores_noteTimeout (a txid cls : Nat) : (p.noteTimeout a txid cls).cores = p.cores := by
  rw [Pkg.noteTimeout, cores_of_rest (rest_countTimeout ..)]

/-- The requests of an agent but those with a TXID. -/
def Pkg.dropReq (p : Pkg) (a txid : Nat) : Pkg := p.setAgentReqs a ((p.agentReqs a).filter (fun r => r.txid != txid))

theorem dropReq_txns (a txid : Nat) : (p.dropReq a txid).coh.txns = p.coh.txns := rfl

theorem agentReqs_of_reqs {p q : Pkg} (h : q.coh.reqs = p.coh.reqs) (a : Nat) : q.agentReqs a = p.agentReqs a := by
  simp only [Pkg.agentReqs, h]

theorem txid_ne_of_mem_dropReq (a txid : Nat) : ∀ r ∈ (p.dropReq a txid).agentReqs a, r.txid ≠ txid := by
  simp [Pkg.dropReq, Pkg.agentReqs, Pkg.setAgentReqs]

theorem coh_coreAnswer (inWin : Nat → Bool) (tag : Nat) (ans : Option (List Byte × Bool)) :
    (p.coreAnswer inWin tag ans).coh = p.coh := by
  rw [eq_of_sansCores (sansCores_coreAnswer p inWin tag ans)]

end

/-! ### The row -/

/-- An uncached access of an agent gets an error response (R266). -/
def Pkg.answerErr (p : Pkg) (a txid : Nat) : Pkg :=
  { p with coh := { p.coh with answers := p.coh.answers ++ [(a, txid, 1, [], false)] } }

/-- The homes' snoop with this TXID that has expired at the agent that stands for its slice. -/
def expiredSnoop (p : Pkg) (a txid : Nat) : Option Txn :=
  p.coh.txns.find? (fun t => t.req.txid == txid && decide (0x30 ≤ a) && mcOf t.req.line == a - 0x30 && t.snoops != [] &&
    decide (p.agentTmo a < t.age))

/-- The oldest request that waits at a port ends when it has expired. -/
def Pkg.portTimeout (p : Pkg) (a : Nat) : Pkg :=
  match p.inq.find? (fun x => x.agent == a) with
  | some x => if decide (p.agentTmo a < x.age) then (p.countTimeout a 3).inExpire x else p
  | none => p

/-- What the row looks for, in its order: a request, a home's snoop, a device access, what waits at the port. -/
def Pkg.timeout (p : Pkg) (a txid : Nat) : Pkg :=
  match expired p a txid with
  | some q =>
    if q.kind.caches then ((p.dropReq a txid).noteTimeout a txid 4).raiseDcs q.pid a
    else ((p.dropReq a txid).noteTimeout a txid 3).answerErr a txid
  | none =>
    match expiredSnoop p a txid with
    | some x => (p.noteTimeout a txid 4).raiseDcs x.req.pid 0x3F
    | none =>
      if a < 12 ∧ p.deviceWaits a txid (fun n => decide (p.agentTmo a < n)) then
        (p.noteTimeout a txid 3).coreAnswer (fun _ => true) txid none
      else p.portTimeout a

theorem exec_timeout (s : State) (a : Fin 64) (txid : Fin 1024) : exec (.transactionTimeout a txid) s =
    .next { s with pkg := s.pkg.timeout a.val txid.val } := rfl

theorem completes_timeout {s : State} {a : Fin 64} {txid : Fin 1024} {q : Pkg} {P : State → Prop}
    (h : s.pkg.timeout a.val txid.val = q) (hP : P { s with pkg := q }) : Completes (.transactionTimeout a txid) s P :=
  ⟨_, h ▸ exec_timeout s a txid, hP⟩

section
variable {p : Pkg} {a txid : Nat}

theorem timeout_of_uncached {q : AgentReq} (h : expired p a txid = some q) (hk : q.kind.caches = false) :
    p.timeout a txid = ((p.dropReq a txid).noteTimeout a txid 3).answerErr a txid := by
  simp [Pkg.timeout, h, hk]

theorem timeout_of_coherent {q : AgentReq} (h : expired p a txid = some q) (hk : q.kind.caches = true) :
    p.timeout a txid = ((p.dropReq a txid).noteTimeout a txid 4).raiseDcs q.pid a := by
  simp [Pkg.timeout, h, hk]

theorem timeout_of_snoop {x : Txn} (h : expired p a txid = none) (hx : expiredSnoop p a txid = some x) :
    p.timeout a txid = (p.noteTimeout a txid 4).raiseDcs x.req.pid 0x3F := by
  simp [Pkg.timeout, h, hx]

theorem timeout_of_access (h : expired p a txid = none) (hx : expiredSnoop p a txid = none) (ha : a < 12)
    (hwaits : p.deviceWaits a txid (fun n => decide (p.agentTmo a < n)) = true) :
    p.timeout a txid = (p.noteTimeout a txid 3).coreAnswer (fun _ => true) txid none := by
  simp [Pkg.timeout, h, hx, ha, hwaits]

/-- With no device access that has expired, the port is left. -/
theorem timeout_of_port (h : expired p a txid = none) (hx : expiredSnoop p a txid = none)
    (hacc : a < 12 → p.deviceWaits a txid (fun n => decide (p.agentTmo a < n)) = false) : p.timeout a txid = p.portTimeout a := by
  rw [Pkg.timeout, h]
  dsimp only
  rw [hx]
  exact if_neg fun ⟨ha, hwaits⟩ => by simp [hacc ha] at hwaits

theorem portTimeout_expired {x : Inbound} (hfind : p.inq.find? (fun x => x.agent == a) = some x)
    (hage : p.agentTmo a < x.age) : p.portTimeout a = (p.countTimeout a 3).inExpire x := by
  simp [Pkg.portTimeout, hfind, hage]

theorem portTimeout_idle (h : ∀ x ∈ p.inq, x.agent ≠ a ∨ x.age ≤ p.agentTmo a) : p.portTimeout a = p := by
  unfold Pkg.portTimeout
  split
  next x hfind =>
    have hagent : x.agent = a := by simpa using List.find?_some hfind
    have hage : x.age ≤ p.agentTmo a := (h x (List.mem_of_find?_eq_some hfind)).resolve_left (not_not.2 hagent)
    simp [hage]
  · rfl

end

/-! ### A port's request that ends (R305, R442, R471, R477) -/

section
variable (p : Pkg)

/-- What the end of a request leaves: the requests that wait, the homes and memory. -/
def Pkg.stores (p : Pkg) : List Inbound × Coh × Hbm := (p.inq, p.coh, p.hbm)

theorem stores_iff {p q : Pkg} : q.stores = p.stores ↔ q.inq = p.inq ∧ q.coh = p.coh ∧ q.hbm = p.hbm := by
  simp only [Pkg.stores, Prod.mk.injEq]

theorem stores_of_rest {p q : Pkg} (h : q.rest = p.rest) : q.stores = p.stores := by
  have hr := congrArg Pkg.stores h
  exact hr

theorem stores_evCount (die : Option Nat) (ev inst : Nat) (pid : Option Nat) (net k : Nat) :
    (p.evCount die ev inst pid net k).stores = p.stores := stores_of_rest (rest_evCount ..)

theorem stores_reply (tag status : Nat) (b : List Byte) (po : Bool) : (p.reply tag status b po).stores = p.stores := rfl

theorem stores_setPending (lc n : Nat) : (p.setPending lc n).stores = p.stores := by
  unfold Pkg.setPending Pkg.wakeLatch
  split
  · rfl
  · exact keeps_ite Pkg.stores rfl rfl

theorem stores_peMsi (n link v : Nat) : (p.peMsi n link v).stores = p.stores := by
  unfold Pkg.peMsi Pkg.notify
  dsimp only
  split
  · exact stores_of_rest (rest_setEvent ..)
  · split
    next heq =>
      split at heq
      · cases heq
        exact stores_setPending ..
      · cases heq
    next heq =>
      split at heq
      · cases heq
      · cases heq
        exact stores_of_rest (rest_setEvent ..)

theorem stores_rrsp (src tag status : Nat) (bytes : List Byte) (poison : Bool) :
    (p.rrsp src tag status bytes poison).stores = p.stores := by
  unfold Pkg.rrsp Pkg.chainTo Pkg.chainMsg Pkg.chainSend
  exact keeps_ite Pkg.stores rfl rfl

theorem stores_seUr (pa : Nat) : (p.seUr pa).stores = p.stores := by
  refine stores_of_rest ?_
  simp [Pkg.seUr]

theorem stores_seUrWrite (pa : Nat) : (p.seUrWrite pa).stores = p.stores := by
  unfold Pkg.seUrWrite
  exact (stores_seUr ..).trans rfl

theorem stores_inEnd (x : Inbound) (a : IoAns) : (p.inEnd x a).stores = p.stores := by
  have hbad : ∀ (c : Bool) n d, (if c then (p.evCount none 11 n (some x.pid) 4 x.lines).setEvent (pgPE n) 19 2 d
      else p.evCount none 11 n (some x.pid) 4 x.lines).stores = p.stores := fun _ _ _ =>
    keeps_ite Pkg.stores ((stores_of_rest (rest_setEvent ..)).trans (stores_evCount ..)) (stores_evCount ..)
  unfold Pkg.inEnd
  dsimp only
  split
  · split
    · exact keeps_ite Pkg.stores (stores_evCount ..) ((stores_reply ..).trans (stores_evCount ..))
    · exact keeps_ite Pkg.stores (stores_evCount ..) (stores_reply ..)
  · split
    · exact hbad ..
    · exact stores_peMsi ..
    · exact (stores_reply ..).trans (hbad ..)
    · exact (stores_reply ..).trans (stores_of_rest (rest_peUr ..))
  · split
    · exact stores_rrsp ..
    · exact stores_rrsp ..
  · split
    · exact keeps_ite Pkg.stores rfl (stores_reply ..)
    · exact keeps_ite Pkg.stores (stores_seUrWrite ..) ((stores_reply ..).trans (stores_seUr ..))
  · split
    · exact stores_of_rest (rest_setRf ..)
    · exact stores_of_rest (rest_addRf ..)

theorem inExpire_stores (x : Inbound) :
    (p.inExpire x).inq = p.inq.erase x ∧ (p.inExpire x).coh = p.coh ∧ (p.inExpire x).hbm = p.hbm :=
  stores_iff.1 (stores_inEnd { p with inq := p.inq.erase x } x (.err 1))

end

/-! ### The rules -/

section
variable {s : State} {a : Fin 64} {txid : Fin 1024}

theorem timeout_uncached {q : AgentReq} (h : expired s.pkg a.val txid.val = some q) (hk : q.kind.caches = false) :
    Completes (.transactionTimeout a txid) s (fun t => (∀ r ∈ t.pkg.agentReqs a.val, r.txid ≠ txid.val) ∧
      (a.val, txid.val) ∈ t.pkg.coh.quarantine ∧ [(a.val, txid.val, 1, [], false)] <:+ t.pkg.coh.answers ∧
      t.pkg.coh.txns = s.pkg.coh.txns ∧ t.mode = s.mode) := by
  have hcoh := coh_noteTimeout (s.pkg.dropReq a.val txid.val) a.val txid.val 3
  refine completes_timeout (timeout_of_uncached h hk) ?_
  generalize (s.pkg.dropReq a.val txid.val).noteTimeout a.val txid.val 3 = q at hcoh ⊢
  have hreqs : (q.answerErr a.val txid.val).coh.reqs = (s.pkg.dropReq a.val txid.val).coh.reqs := by
    simp only [Pkg.answerErr, hcoh]
  refine ⟨?_, ?_, List.suffix_append .., ?_, rfl⟩
  · dsimp only
    rw [agentReqs_of_reqs hreqs]
    exact txid_ne_of_mem_dropReq s.pkg a.val txid.val
  · simp [Pkg.answerErr, hcoh]
  · simp only [Pkg.answerErr, hcoh, dropReq_txns]

/-- What a timeout that is a domain checkstop leaves (R266, R268). -/
theorem noteTimeout_raiseDcs (p : Pkg) (a txid cls det : Nat) {pid : Nat} (hpid : pid < 128) :
    ((p.noteTimeout a txid cls).raiseDcs pid det).coh.reqs = p.coh.reqs ∧
      (a, txid) ∈ ((p.noteTimeout a txid cls).raiseDcs pid det).coh.quarantine ∧
      ((p.noteTimeout a txid cls).raiseDcs pid det).dcs pid = true := by
  have hcoh := coh_noteTimeout p a txid cls
  obtain ⟨hquar, hreqs⟩ := initiators_iff.1 (initiators_raiseDcs (p.noteTimeout a txid cls) pid det)
  refine ⟨?_, ?_, dcs_raiseDcs _ pid det hpid⟩
  · rw [hreqs, hcoh]
  · simp [hquar, hcoh]

theorem timeout_coherent {q : AgentReq} (h : expired s.pkg a.val txid.val = some q) (hk : q.kind.caches = true)
    (hpid : q.pid < 128) :
    Completes (.transactionTimeout a txid) s (fun t => (∀ r ∈ t.pkg.agentReqs a.val, r.txid ≠ txid.val) ∧
      (a.val, txid.val) ∈ t.pkg.coh.quarantine ∧ t.pkg.dcs q.pid = true ∧ t.mode = s.mode) := by
  obtain ⟨hreqs, hquar, hdcs⟩ := noteTimeout_raiseDcs (s.pkg.dropReq a.val txid.val) a.val txid.val 4 a.val hpid
  refine completes_timeout (timeout_of_coherent h hk) ⟨?_, hquar, hdcs, rfl⟩
  dsimp only
  rw [agentReqs_of_reqs hreqs]
  exact txid_ne_of_mem_dropReq s.pkg a.val txid.val

theorem timeout_snoop {x : Txn} (h : expired s.pkg a.val txid.val = none) (htxns : s.pkg.coh.txns = [x])
    (htxid : x.req.txid = txid.val) (ha : a.val = 0x30 + mcOf x.req.line) (hsnoops : x.snoops ≠ [])
    (hage : s.pkg.agentTmo a.val < x.age) (hpid : x.req.pid < 128) :
    Completes (.transactionTimeout a txid) s (fun t => (a.val, txid.val) ∈ t.pkg.coh.quarantine ∧
      t.pkg.dcs x.req.pid = true ∧ t.mode = s.mode) := by
  have hx : expiredSnoop s.pkg a.val txid.val = some x := by
    have hlo : 0x30 ≤ a.val := by omega
    have hmc : mcOf x.req.line = a.val - 0x30 := by omega
    simp [expiredSnoop, htxns, htxid, hlo, hmc, hsnoops, hage]
  obtain ⟨-, hquar, hdcs⟩ := noteTimeout_raiseDcs s.pkg a.val txid.val 4 0x3F hpid
  exact completes_timeout (timeout_of_snoop h hx) ⟨hquar, hdcs, rfl⟩

theorem expiredSnoop_of_no_txns {p : Pkg} (htxns : p.coh.txns = []) (a txid : Nat) : expiredSnoop p a txid = none := by
  simp [expiredSnoop, htxns]

/-- A die's core is one of its eighteen. -/
theorem deviceWaits_of_io {p : Pkg} {lc d txid : Nat} {x : IoAcc} {old : Nat → Bool} (hlc : lc / 18 = d)
    (hio : (p.core lc).io = [x]) (htag : x.tag = txid) (hans : x.answer = none) (hold : old x.age = true) :
    p.deviceWaits d txid old = true := by
  have hcore : d * 18 + lc % 18 = lc := by omega
  refine List.any_eq_true.2 ⟨lc % 18, List.mem_range.2 (Nat.mod_lt _ (by decide)), ?_⟩
  simp [hcore, hio, htag, hans, hold]

theorem timeout_access {lc : Nat} {x : IoAcc} (h : expired s.pkg a.val txid.val = none) (htxns : s.pkg.coh.txns = [])
    (ha : a.val < 12) (hlc : lc / 18 = a.val) (hio : (s.pkg.core lc).io = [x]) (htag : x.tag = txid.val)
    (hans : x.answer = none) (hage : s.pkg.agentTmo a.val < x.age) :
    Completes (.transactionTimeout a txid) s (fun t => (t.pkg.core lc).io = [{ x with answer := some none }] ∧
      (a.val, txid.val) ∈ t.pkg.coh.quarantine ∧ t.mode = s.mode) := by
  have hcore : (s.pkg.noteTimeout a.val txid.val 3).core lc = s.pkg.core lc := by
    simp only [Pkg.core, cores_noteTimeout]
  have hcoh := coh_noteTimeout s.pkg a.val txid.val 3
  refine completes_timeout (timeout_of_access h (expiredSnoop_of_no_txns htxns ..) ha
    (deviceWaits_of_io hlc hio htag hans (by simpa using hage))) ?_
  generalize s.pkg.noteTimeout a.val txid.val 3 = q at hcore hcoh ⊢
  refine ⟨?_, ?_, rfl⟩
  · dsimp only
    rw [core_answered (a := x) (by omega) (by rw [hcore, hio]) htag rfl hans]
  · dsimp only
    rw [coh_coreAnswer, hcoh]
    simp

theorem timeout_port {x : Inbound} (h : expired s.pkg a.val txid.val = none) (htxns : s.pkg.coh.txns = [])
    (hacc : a.val < 12 → s.pkg.deviceWaits a.val txid.val (fun n => decide (s.pkg.agentTmo a.val < n)) = false)
    (hfind : s.pkg.inq.find? (fun x => x.agent == a.val) = some x) (hage : s.pkg.agentTmo a.val < x.age) :
    Completes (.transactionTimeout a txid) s (fun t => t.pkg.inq = s.pkg.inq.erase x ∧
      t.pkg.coh = s.pkg.coh ∧ t.pkg.hbm = s.pkg.hbm ∧ t.mode = s.mode) := by
  obtain ⟨hinq, hcoh, hhbm⟩ := stores_iff.1 (stores_of_rest (rest_countTimeout s.pkg a.val 3))
  obtain ⟨hinq', hcoh', hhbm'⟩ := inExpire_stores (s.pkg.countTimeout a.val 3) x
  refine completes_timeout (timeout_of_port h (expiredSnoop_of_no_txns htxns ..) hacc) ?_
  dsimp only
  rw [portTimeout_expired hfind hage]
  exact ⟨hinq ▸ hinq', hcoh'.trans hcoh, hhbm'.trans hhbm, rfl⟩

theorem timeout_idle (h : expired s.pkg a.val txid.val = none) (htxns : s.pkg.coh.txns = [])
    (hacc : a.val < 12 → s.pkg.deviceWaits a.val txid.val (fun n => decide (s.pkg.agentTmo a.val < n)) = false)
    (hinq : ∀ x ∈ s.pkg.inq, x.agent ≠ a.val ∨ x.age ≤ s.pkg.agentTmo a.val) :
    exec (.transactionTimeout a txid) s = .next s := by
  rw [exec_timeout, timeout_of_port h (expiredSnoop_of_no_txns htxns ..) hacc, portTimeout_idle hinq]

/-- Timeouts of initiators, in the order in which the row looks for them (R266, R268). -/
theorem timeoutRules_hold : timeoutRules :=
  ⟨fun _ _ _ _ h hk => timeout_uncached h hk,
    fun _ _ _ _ h hk hpid => timeout_coherent h hk hpid,
    fun _ _ _ _ h htxns htxid ha hsnoops hage hpid => timeout_snoop h htxns htxid ha hsnoops hage hpid,
    fun _ _ _ _ _ h htxns ha hlc hio htag hans hage => timeout_access h htxns ha hlc hio htag hans hage,
    fun _ _ _ _ h htxns hacc hfind hage => timeout_port h htxns hacc hfind hage,
    fun _ _ _ h htxns hacc hinq => timeout_idle h htxns hacc hinq⟩

/-! ### Late messages (R267) -/

theorem rf_of_pages {p q : Pkg} (h : q.pages = p.pages) (pg o hi lo : Nat) : q.rf pg o hi lo = p.rf pg o hi lo := by
  simp only [Pkg.rf, Pkg.reg, Pkg.page, h]

theorem quarantine_lateMsg (p : Pkg) (a txid : Nat) :
    (p.lateMsg a txid).coh.quarantine = p.coh.quarantine.filter (fun q => q != (a, txid)) := by
  simp only [Pkg.lateMsg, Pkg.refreshQuar, setRf_coh, addRf_coh]

/-- A late message is counted (R267, R275). -/
theorem latecnt_lateMsg (p : Pkg) (a txid : Nat) : (p.lateMsg a txid).rf (agentPage a) 0x218 63 0 =
    min (p.rf (agentPage a) 0x218 63 0 + 1) (2 ^ 64 - 1) := by
  simp only [Pkg.lateMsg, Pkg.refreshQuar]
  rw [rf_setRf_reg _ _ _ _ _ _ (.inr (by decide)), rf_addRf_same]
  exact congrArg (fun n => min (n + 1) (2 ^ 64 - 1)) (rf_of_pages rfl ..)

/-- A late message frees its TXID and counts, and does nothing else (R267). -/
theorem onlyPages_lateMsg (s : State) (a txid : Nat) :
    OnlyPages { s with pkg := { s.pkg with coh := { s.pkg.coh with quarantine := s.pkg.coh.quarantine.filter (· != (a, txid)) } } }
      { s with pkg := s.pkg.lateMsg a txid } := by
  refine onlyPages_of_rest (s := { s with pkg := _ }) ?_ ?_
  · simp only [Pkg.lateMsg, Pkg.refreshQuar, rest_setRf, rest_addRf]
  · simp only [Pkg.lateMsg, Pkg.refreshQuar, setRf_stw, addRf_stw]

theorem late_message (h : (a.val, txid.val) ∈ s.pkg.coh.quarantine) :
    Completes (.lateMessage a txid) s (fun t => (a.val, txid.val) ∉ t.pkg.coh.quarantine ∧
      t.pkg.rf (agentPage a.val) 0x218 63 0 = min (s.pkg.rf (agentPage a.val) 0x218 63 0 + 1) (2 ^ 64 - 1) ∧
      t = { s with pkg := { s.pkg with pages := t.pkg.pages, coh := { s.pkg.coh with quarantine := t.pkg.coh.quarantine } } }) := by
  have hexec : exec (.lateMessage a txid) s = .next { s with pkg := s.pkg.lateMsg a.val txid.val } := by
    rw [exec, execLateMessage, upd_eq, if_pos (by simpa using h)]
  refine ⟨_, hexec, ?_, latecnt_lateMsg .., ?_⟩
  · simp [quarantine_lateMsg]
  · dsimp only
    rw [quarantine_lateMsg]
    exact onlyPages_lateMsg s a.val txid.val

theorem late_message_idle (h : (a.val, txid.val) ∉ s.pkg.coh.quarantine) : exec (.lateMessage a txid) s = .next s := by
  rw [exec, execLateMessage, upd_eq, if_neg (by simpa using h)]

end

end Sys2Proof.Machine
end

section
/-! The census of credit books (R69, R270 to R272). -/

namespace Sys2Proof.Machine

section
variable (p : Pkg) (b : Nat × Nat) (drift : Int)

/-! ### The books at a census -/

@[simp] theorem book_setBook_same (x : Book) : (p.setBook b x).book b = x := tblGet_tblSet_same ..

/-- The books after a census: the credits that drifted, and no latched count (R72, R270). -/
def Pkg.censusBook (p : Pkg) (b : Nat × Nat) (drift : Int) : Pkg :=
  let q := p.driftBook b drift
  if (q.book b).mark.isSome then q.setBook b { q.book b with mark := none } else q

theorem book_driftBook : (p.driftBook b drift).book b = { p.book b with spent := (p.book b).spent - drift } := by
  unfold Pkg.driftBook
  split
  next h => simp [h]
  · exact book_setBook_same ..

theorem driftBook_eq : p.driftBook b drift =
    { p with fabric := { p.fabric with books := (p.driftBook b drift).fabric.books } } := by
  unfold Pkg.driftBook
  split <;> rfl

/-- A drift moves H + R + O less G by as much (R270). -/
theorem bookDiff_driftBook : (p.driftBook b drift).bookDiff b = p.bookDiff b + drift := by
  have hnet : (p.driftBook b drift).coh = p.coh := by rw [driftBook_eq]
  simp only [Pkg.bookDiff, Pkg.onWires, Pkg.buffered, hnet, book_driftBook]
  omega

theorem spent_censusBook : ((p.censusBook b drift).book b).spent = (p.book b).spent - drift := by
  unfold Pkg.censusBook
  dsimp only
  split
  · simp [book_driftBook]
  · rw [book_driftBook]

theorem censusBook_eq : p.censusBook b drift =
    { p with fabric := { p.fabric with books := (p.censusBook b drift).fabric.books } } := by
  unfold Pkg.censusBook
  dsimp only
  rw [driftBook_eq]
  split <;> rfl

/-- What the census compares with 0: H + R + O less G as it finds it (R72, R270). -/
theorem censusDiff_eq : ((p.driftBook b drift).book b).mark.getD ((p.driftBook b drift).bookDiff b - drift) + drift =
    censusDiff p b drift := by
  rw [book_driftBook, bookDiff_driftBook, censusDiff, Int.add_sub_cancel]

end

/-! ### The row -/

/-- The counts of an audit with one more book censused: it balanced, or it is one more that did not (R275). -/
def Fabric.censused (f : Fabric) (b : Nat × Nat) (good : Bool) : Fabric :=
  { f with
    seen := f.seen ++ [b]
    counts := tblSet (fun _ => (0, 0)) f.counts b.1
      ((tblGet (fun _ => (0, 0)) f.counts b.1).1 + 1, (tblGet (fun _ => (0, 0)) f.counts b.1).2 + (!good).toNat) }

/-- A book that does not balance: it falls due for repair, the audit has failed, and LASTBOOK names it but for a Mocor book
(R270, R275). -/
def Pkg.unbalanced (p : Pkg) (b : Nat × Nat) (diff : Int) : Pkg :=
  let q : Pkg := { p with fabric := { p.fabric.censused b false with bad := (p.fabric.censused b false).bad ++ [b] } }
  let q := q.auditFail 0x20 b.1 diff false
  match blkOf b.1 with
  | some (.mp, _) => q
  | _ => (q.setRf b.1 0x200 15 0 b.2).setEvent b.1 16 1 { Det.none with detail := q.reg b.1 0x200 }

/-- A book that balances is counted. -/
def Pkg.balanced (p : Pkg) (b : Nat × Nat) : Pkg := { p with fabric := p.fabric.censused b true }

section
variable {s : State} {pg : PageId} {book : BitVec 16} {drift : Int} {ended : Bool}

/-- The guard of the row is that the census takes the book. -/
theorem not_censusTakes_iff : ¬ censusTakes s (pgOf pg, book.toNat) ↔
    (!s.pkg.censusRuns s.mode (pgOf pg) || !bookOf (pgOf pg) book.toNat ||
      s.pkg.fabric.repairs.any (fun x => x.1 == pgOf pg && x.2.1 == book.toNat) ||
      s.pkg.fabric.seen.contains (pgOf pg, book.toNat)) = true := by
  rw [censusTakes]
  simp only [Bool.or_eq_true, Bool.not_eq_true', List.any_eq_true, Bool.and_eq_true, beq_iff_eq, List.contains_iff_mem]
  grind

theorem exec_census_idle (h : ¬ censusTakes s (pgOf pg, book.toNat)) : exec (.creditCensus pg book drift ended) s = .next s := by
  rw [exec, execCreditCensus, upd_eq]
  dsimp only
  rw [if_pos (not_censusTakes_iff.1 h)]

theorem exec_census (h : censusTakes s (pgOf pg, book.toNat)) : exec (.creditCensus pg book drift ended) s =
    .next { s with
      pkg := if ended && censusDiff s.pkg (pgOf pg, book.toNat) drift == 0 then
          (s.pkg.censusBook (pgOf pg, book.toNat) drift).balanced (pgOf pg, book.toNat)
        else (s.pkg.censusBook (pgOf pg, book.toNat) drift).unbalanced (pgOf pg, book.toNat)
          (censusDiff s.pkg (pgOf pg, book.toNat) drift) } := by
  rw [exec, execCreditCensus, upd_eq]
  refine congrArg (fun q => Host.Outcome.next { s with pkg := q }) ?_
  extract_lets pg' b' q diff _ q' good
  rw [if_neg (mt not_censusTakes_iff.2 (not_not.2 h))]
  have hdiff : diff = censusDiff s.pkg (pgOf pg, book.toNat) drift := censusDiff_eq ..
  have hbook : q' = s.pkg.censusBook (pgOf pg, book.toNat) drift := rfl
  have hgood : good = (ended && diff == 0) := rfl
  rw [← hdiff, ← hbook, ← hgood]
  clear_value q' diff good
  clear h hdiff hbook hgood
  cases good
  case true =>
    rw [if_pos rfl, if_pos rfl]
    rfl
  case false =>
    rw [if_neg Bool.false_ne_true, if_neg Bool.false_ne_true]
    unfold Pkg.unbalanced
    generalize blkOf pg' = k
    rfl

/-! ### A book that balances -/

theorem census_balanced (h : censusTakes s (pgOf pg, book.toNat)) (hdiff : censusDiff s.pkg (pgOf pg, book.toNat) drift = 0) :
    Completes (.creditCensus pg book drift true) s (fun t =>
      tblGet (fun _ => (0, 0)) t.pkg.fabric.counts (pgOf pg) =
        ((tblGet (fun _ => (0, 0)) s.pkg.fabric.counts (pgOf pg)).1 + 1,
          (tblGet (fun _ => (0, 0)) s.pkg.fabric.counts (pgOf pg)).2) ∧
      (pgOf pg, book.toNat) ∈ t.pkg.fabric.seen ∧ t.pkg.fabric.bad = s.pkg.fabric.bad ∧
      (t.pkg.book (pgOf pg, book.toNat)).spent = (s.pkg.book (pgOf pg, book.toNat)).spent - drift ∧
      t = { s with pkg := { s.pkg with fabric := t.pkg.fabric } }) := by
  refine ⟨_, exec_census h, ?_⟩
  dsimp only
  rw [if_pos (by simp [hdiff])]
  refine ⟨?_, ?_, ?_, spent_censusBook .., ?_⟩
  · rw [Pkg.balanced, censusBook_eq]
    simp [Fabric.censused]
  · simp [Pkg.balanced, Fabric.censused]
  · rw [Pkg.balanced, censusBook_eq]
    simp [Fabric.censused]
  · rw [Pkg.balanced, censusBook_eq]

/-! ### A book that does not balance -/

theorem fabric_unbalanced (p : Pkg) (b : Nat × Nat) (diff : Int) : (p.unbalanced b diff).fabric =
    { p.fabric.censused b false with bad := p.fabric.bad ++ [b] } := by
  unfold Pkg.unbalanced Pkg.auditFail
  dsimp only
  split <;> simp [Fabric.censused]

/-- LASTBOOK names the book (R275). -/
theorem lastbook_unbalanced (p : Pkg) {b : Nat × Nat} (diff : Int) {k : Blk} {n : Nat} (hb : blkOf b.1 = some (k, n))
    (hk : k ≠ .mp) (hlt : b.2 < 2 ^ 16) : (p.unbalanced b diff).rf b.1 0x200 15 0 = b.2 := by
  unfold Pkg.unbalanced
  dsimp only
  rw [hb]
  split
  next heq =>
    cases heq
    exact absurd rfl hk
  · rw [Pkg.rf, reg_setEvent _ _ _ _ (.inr (by decide)), ← Pkg.rf, rf_setRf_same]
    exact Nat.mod_eq_of_lt hlt

theorem census_unbalanced (h : censusTakes s (pgOf pg, book.toNat))
    (hbad : ended = false ∨ censusDiff s.pkg (pgOf pg, book.toNat) drift ≠ 0) :
    Completes (.creditCensus pg book drift ended) s (fun t => (pgOf pg, book.toNat) ∈ t.pkg.fabric.bad ∧
      (tblGet (fun _ => (0, 0)) t.pkg.fabric.counts (pgOf pg)).2 =
        (tblGet (fun _ => (0, 0)) s.pkg.fabric.counts (pgOf pg)).2 + 1 ∧
      (∀ b n, blkOf (pgOf pg) = some (b, n) → b ≠ .mp → t.pkg.rf (pgOf pg) 0x200 15 0 = book.toNat) ∧ t.mode = s.mode) := by
  refine ⟨_, exec_census h, ?_⟩
  dsimp only
  rw [if_neg (by rcases hbad with rfl | hne <;> simp [*])]
  refine ⟨?_, ?_, fun b n hb hmp => lastbook_unbalanced _ _ hb hmp book.isLt, rfl⟩
  · simp [fabric_unbalanced]
  · simp only [fabric_unbalanced, Fabric.censused, tblGet_tblSet_same]
    rw [censusBook_eq]
    simp

end

end Sys2Proof.Machine
end

section
/-! Repairs of credit books (R272), and the statement. -/

namespace Sys2Proof.Machine

/-! ### Repairs -/

section
variable (p : Pkg) (pg b st : Nat)

theorem repairEnds_eq : p.repairEnds pg b st = { p with
    pages := (p.repairEnds pg b st).pages
    fabric := { p.fabric with repairs := p.fabric.repairs.filter (fun x => !(x.1 == pg && x.2.1 == b)) } } := by
  unfold Pkg.repairEnds
  dsimp only
  split <;> rfl

theorem repairAge_eq_none {p : Pkg} {pg b : Nat} :
    p.repairAge pg b = none ↔ ∀ x ∈ p.fabric.repairs, (x.1 == pg && x.2.1 == b) = false := by
  simp [Pkg.repairAge, List.find?_eq_none]

/-- A repair that has ended runs no more, whichever others end with it. -/
theorem repairAge_of_subset {p q : Pkg} {pg b st : Nat} (h : ∀ x ∈ q.fabric.repairs, x ∈ (p.repairEnds pg b st).fabric.repairs) :
    q.repairAge pg b = none := by
  refine repairAge_eq_none.2 fun x hx => ?_
  have hmem := h x hx
  rw [repairEnds_eq] at hmem
  exact Bool.not_eq_true' _ ▸ (List.mem_filter.1 hmem).2

end

section
variable {s : State} {pg : PageId} {book : BitVec 16}

/-! ### The start of a repair -/

/-- The book is under repair; but for a Mocor book, REPAIR of its page shows it (R272, R275). -/
def Pkg.startRepair (p : Pkg) (pg b : Nat) : Pkg :=
  let q : Pkg := { p with fabric := { p.fabric with
    due := p.fabric.due.erase (pg, b), repairs := p.fabric.repairs ++ [(pg, b, 0)] } }
  match blkOf pg with
  | some (.mp, _) => q
  | _ => q.setReg pg 0x208 1

theorem exec_repair (h : (pgOf pg, book.toNat) ∈ s.pkg.fabric.due) : exec (.creditRepair pg book) s =
    .next { s with pkg := s.pkg.startRepair (pgOf pg) book.toNat } := by
  rw [exec, execCreditRepair, upd_eq]
  dsimp only
  rw [if_pos (by simpa using h)]
  rfl

theorem startRepair_eq (p : Pkg) (pg b : Nat) : p.startRepair pg b = { p with
    pages := (p.startRepair pg b).pages
    fabric := { p.fabric with due := p.fabric.due.erase (pg, b), repairs := p.fabric.repairs ++ [(pg, b, 0)] } } := by
  unfold Pkg.startRepair
  dsimp only
  split <;> rfl

theorem repair_starts (h : (pgOf pg, book.toNat) ∈ s.pkg.fabric.due) :
    Completes (.creditRepair pg book) s (fun t =>
      t.pkg.fabric.repairs = s.pkg.fabric.repairs ++ [(pgOf pg, book.toNat, 0)] ∧
      t.pkg.fabric.due = s.pkg.fabric.due.erase (pgOf pg, book.toNat) ∧
      t = { s with pkg := { s.pkg with pages := t.pkg.pages, fabric := t.pkg.fabric } }) := by
  refine ⟨_, exec_repair h, ?_⟩
  rw [startRepair_eq]
  exact ⟨rfl, rfl, rfl⟩

theorem repair_not_due (h : (pgOf pg, book.toNat) ∉ s.pkg.fabric.due) : exec (.creditRepair pg book) s = .next s := by
  rw [exec, execCreditRepair, upd_eq]
  dsimp only
  rw [if_neg (by simpa using h)]

/-! ### The end of a repair -/

theorem repair_completes {n : Nat} (hage : s.pkg.repairAge (pgOf pg) book.toNat = some n)
    (hwires : s.pkg.onWires (pgOf pg, book.toNat) = 0) (hbuf : s.pkg.buffered (pgOf pg, book.toNat) = 0)
    (hrets : (s.pkg.book (pgOf pg, book.toNat)).rets = 0) :
    Completes (.creditRepairComplete pg book) s (fun t => t.pkg.repairAge (pgOf pg) book.toNat = none ∧
      (t.pkg.book (pgOf pg, book.toNat)).spent = 0 ∧
      t = { s with pkg := { s.pkg with pages := t.pkg.pages, fabric := t.pkg.fabric } }) := by
  have hexec : exec (.creditRepairComplete pg book) s = .next { s with
      pkg := (s.pkg.setBook (pgOf pg, book.toNat) { s.pkg.book (pgOf pg, book.toNat) with spent := 0, mark := none }).repairEnds
        (pgOf pg) book.toNat 2 } := by
    rw [exec, execCreditRepairComplete, upd_eq]
    dsimp only
    rw [if_neg (by simp [hage, hwires, hbuf, hrets])]
  refine ⟨_, hexec, repairAge_of_subset fun _ hx => hx, ?_, ?_⟩
  · rw [repairEnds_eq]
    exact congrArg Book.spent (book_setBook_same ..)
  · rw [repairEnds_eq]
    rfl

theorem repair_goes_on (h : s.pkg.repairAge (pgOf pg) book.toNat = none ∨ s.pkg.onWires (pgOf pg, book.toNat) ≠ 0 ∨
    s.pkg.buffered (pgOf pg, book.toNat) ≠ 0 ∨ (s.pkg.book (pgOf pg, book.toNat)).rets ≠ 0) :
    exec (.creditRepairComplete pg book) s = .next s := by
  rw [exec, execCreditRepairComplete, upd_eq]
  dsimp only
  rw [if_pos (by simpa [or_assoc] using h)]

/-! ### A repair that takes too long -/

/-- What follows when the repair of a book of the page has failed: a fence with cause 5, or a package checkstop (R272). -/
def Pkg.unrepairable (p : Pkg) (pg : Nat) : Pkg :=
  match blkOf pg with
  | some (.mp, d) => p.fenceDie d 5
  | some (.ring, _) => (p.setEvent pg 20 4 { Det.none with detail := p.reg pg 0x208 }).fenceDie (pg / 4096) 5
  | _ => (p.setEvent pg 20 5 { Det.none with detail := p.reg pg 0x208 }).raisePcs 2 pg

theorem exec_repairLimit {n : Nat} (hage : s.pkg.repairAge (pgOf pg) book.toNat = some n) (hn : 16 ≤ n) :
    exec (.repairLimitExpiry pg book) s =
      .next { s with pkg := (s.pkg.repairEnds (pgOf pg) book.toNat 3).unrepairable (pgOf pg) } := by
  rw [exec, execRepairLimitExpiry, upd_eq]
  dsimp only
  rw [hage]
  dsimp only
  rw [if_neg (by omega)]
  rfl

theorem blkOf_pgMP (d : Die) : blkOf (pgMP d.val) = some (.mp, d.val) := by
  revert d
  decide

theorem blkOf_pgRING (d : Die) : blkOf (pgRING d.val) = some (.ring, 0) := by
  revert d
  decide

theorem unrepairable_mp (p : Pkg) (d : Die) : p.unrepairable (pgMP d.val) = p.fenceDie d.val 5 := by
  rw [Pkg.unrepairable, blkOf_pgMP]

theorem unrepairable_ring (p : Pkg) (d : Die) : p.unrepairable (pgRING d.val) =
    (p.setEvent (pgRING d.val) 20 4 { Det.none with detail := p.reg (pgRING d.val) 0x208 }).fenceDie d.val 5 := by
  have hdie : pgRING d.val / 4096 = d.val := by
    simp only [pgRING, pgDie]
    omega
  rw [Pkg.unrepairable, blkOf_pgRING]
  dsimp only
  rw [hdie]

theorem unrepairable_grid (p : Pkg) : p.unrepairable pgGRID =
    (p.setEvent pgGRID 20 5 { Det.none with detail := p.reg pgGRID 0x208 }).raisePcs 2 pgGRID := by
  have hblk : blkOf pgGRID = some (.grid, 0) := by decide
  rw [Pkg.unrepairable, hblk]

/-- An unrepairable book of a die: its end fences the die with cause 5 (R272). -/
theorem fenced_by_repair {p : Pkg} {d : Die} {q : Pkg} (hf : p.dieFenced d.val = false) (hdie : q.dieSt = p.dieSt)
    (hrepairs : q.fabric.repairs = (p.repairEnds (pgOf pg) book.toNat 3).fabric.repairs) :
    (q.fenceDie d.val 5).dieState d.val = 4 ∧ (q.fenceDie d.val 5).rf (pgMP d.val) 0x200 39 32 = 5 ∧
      (q.fenceDie d.val 5).repairAge (pgOf pg) book.toNat = none := by
  have hf' : q.dieFenced d.val = false := by rw [Pkg.dieFenced, Pkg.dieState, hdie]; exact hf
  obtain ⟨hstate, hreg, hsub⟩ := fenceDie_marks 5 d hf'
  refine ⟨hstate, ?_, repairAge_of_subset fun x hx => hrepairs ▸ hsub x hx⟩
  rw [Pkg.rf, hreg]
  decide

theorem repair_limit_die {n : Nat} {d : Die} (hpg : pgOf pg = pgMP d.val ∨ pgOf pg = pgRING d.val)
    (hage : s.pkg.repairAge (pgOf pg) book.toNat = some n) (hn : 16 ≤ n) (hf : s.pkg.dieFenced d.val = false) :
    Completes (.repairLimitExpiry pg book) s (fun t => t.pkg.dieState d.val = 4 ∧
      t.pkg.rf (pgMP d.val) 0x200 39 32 = 5 ∧ t.pkg.repairAge (pgOf pg) book.toNat = none) := by
  refine ⟨_, exec_repairLimit hage hn, ?_⟩
  have hdie : (s.pkg.repairEnds (pgOf pg) book.toNat 3).dieSt = s.pkg.dieSt := by rw [repairEnds_eq]
  dsimp only
  rcases hpg with hpg | hpg
  · rw [congrArg (Pkg.unrepairable _) hpg, unrepairable_mp]
    exact fenced_by_repair hf hdie rfl
  · rw [congrArg (Pkg.unrepairable _) hpg, unrepairable_ring]
    exact fenced_by_repair hf (by rw [setEvent_dieSt, hdie]) (by rw [setEvent_fabric])

theorem repair_limit_grid {n : Nat} (hpg : pgOf pg = pgGRID) (hage : s.pkg.repairAge (pgOf pg) book.toNat = some n)
    (hn : 16 ≤ n) :
    Completes (.repairLimitExpiry pg book) s (fun t => t.pkg.stw.pcsRaised = true ∧
      t.pkg.repairAge (pgOf pg) book.toNat = none ∧ t.mode = s.mode) := by
  refine ⟨_, exec_repairLimit hage hn, ?_⟩
  dsimp only
  rw [congrArg (Pkg.unrepairable _) hpg, unrepairable_grid]
  refine ⟨pcsRaised_raisePcs .., repairAge_of_subset (p := s.pkg) (st := 3) fun x hx => ?_, rfl⟩
  simpa [Pkg.raisePcs] using hx

theorem repair_limit_idle (h : ∀ n, s.pkg.repairAge (pgOf pg) book.toNat = some n → n < 16) :
    exec (.repairLimitExpiry pg book) s = .next s := by
  rw [exec, execRepairLimitExpiry, upd_eq]
  dsimp only
  split
  · rfl
  next n hage => rw [if_pos (h n hage)]

end

/-- Settles O48: timeouts, late messages, the census and the repair, each row by its own rules. -/
theorem timeoutsAndBooksAreRepaired : Obligations.TimeoutsAndBooksAreRepaired :=
  ⟨timeoutRules_hold,
    fun _ _ _ h => late_message h,
    fun _ _ _ h => late_message_idle h,
    fun _ _ _ _ h hdiff => census_balanced h hdiff,
    fun _ _ _ _ _ h hbad => census_unbalanced h hbad,
    fun _ _ _ _ _ h => exec_census_idle h,
    fun _ _ _ h => repair_starts h,
    fun _ _ _ h => repair_not_due h,
    fun _ _ _ _ hage hwires hbuf hrets => repair_completes hage hwires hbuf hrets,
    fun _ _ _ h => repair_goes_on h,
    fun _ _ _ _ _ hpg hage hn hf => repair_limit_die hpg hage hn hf,
    fun _ _ _ _ hpg hage hn => repair_limit_grid hpg hage hn,
    fun _ _ _ h => repair_limit_idle h⟩

end Sys2Proof.Machine
end
